-- ==== Sys2Proof/Word.lean ====
section
/-! DEFINITION. The word type of the register space, bytes, and the sparse table type. -/

namespace Sys2Proof

/-- A register is 32 bits wide (R9). -/
abbrev Word := BitVec 32

/-- One byte. -/
abbrev Byte := BitVec 8

/-- A sparse table: entries by number, numbers strictly rising, no entry equal to what an unlisted number reads as
(Machine/Table.lean holds its operations and that canonical form). -/
abbrev Tbl (α : Type) := List (Nat × α)

/-- A field of a register: its address, lowest bit and width (R9 writes it [lo + width - 1:lo]). -/
structure Fd where
  addr  : Nat
  lo    : Nat
  width : Nat
deriving DecidableEq, Repr

end Sys2Proof
end

