-- ==== Sys2Proof/Syntax.lean ====
section
/-! DEFINITION. The commands of the block: one constructor for each row of spec/opcode_table.json, and the types of
their operands. No row gives bits; the operands are what the rule of the row names. -/

namespace Sys2Proof

/-- A logical port, LP0 to LP63. -/
abbrev Lp := Fin 64
/-- A physical port or engine, 0 to 31. -/
abbrev Phys := Fin 32
/-- A FID of a presented function (R84). -/
abbrev Fid := Fin 4096
/-- A program number. -/
abbrev ProgNo := Fin 16
/-- A harrow channel. -/
abbrev Chan := Fin 4
/-- A steward endpoint instance. -/
abbrev Inst := Fin 2
/-- A ring pair of an instance. -/
abbrev Ring := Fin 16
/-- A plot. -/
abbrev PlotNo := Fin 4096

/-- Access sources of the register space (R367), numbered as `EP_SELF` numbers them, and the debug master (R313). -/
inductive Source where
  | inst0 | inst1 | sideband | steward | debug
deriving DecidableEq, Repr

/-- What a message is. CXL.mem requests carry their opcode (R226); CXL.io requests are named by H0's class (R120). -/
inductive Opn where
  | memRd | memRdData | memSpecRd | memInv | memInvNT | memClnEvct | memRdFwd | memWrFwd | memOther
  | memWr | memWrPtl | biConflict
  | ioMemRd | ioMemWr
  | fetchAdd (w64 : Bool) | swap (w64 : Bool) | cas (width : Fin 3)
  | ioRd | ioWr | ioMsg
  | ndr | drs | cpl
  | biRspI | biRspS | biRspE | biRspBlk
  | cfgRd | cfgWr
  | unsupported
  | biSnpInv | biSnpData | biSnpCur | biConflictAck
deriving DecidableEq, Repr

/-- MetaValue of a CXL.mem request, MetaField No-Op counting as Invalid ("What each request does", chapter 09). -/
inductive Meta where
  | invalid | any | shared
deriving DecidableEq, Repr

/-- Completion status of a CXL.io completion. -/
inductive CplStatus where
  | sc | ur | ca
deriving DecidableEq, Repr

/-- Where a CXL.io request from a host is routed (R85, R117). -/
inductive IoDest where
  | memory                    -- CXL.mem, or no CXL.io route applies
  | vppb                      -- a downstream vPPB of the VCS
  | bar0 (f : Fin 64)         -- BAR 0 of presented function f of the port
  | stewardEp                 -- the steward endpoint
deriving DecidableEq, Repr

/-- A message as a flit carries it. `opc` is the opcode, or Fmt and Type byte, as carried (H0); `ld` the LD of an MLD that it
comes from, where the port holds one (R42). -/
structure MsgIn where
  op     : Opn
  opc    : BitVec 8
  mv     : Meta
  addr   : BitVec 64
  size   : Fin 4097
  tag    : BitVec 14
  data   : List Byte
  poison : Bool
  dest   : IoDest
  status : CplStatus
  bitag  : Fin 4096
  ld     : Option (Fin 16) := none
deriving DecidableEq, Repr

/-- A received 256-byte flit (R54, R59): the lanes whose symbols FEC corrected, whether the CRC then passes, the 48-bit
link field (bytes 236 to 241; meaningful on fabric ports), whether it carries the MAC that ends an IDE epoch, viral, and its
messages. -/
structure Flit where
  corrected : List (Fin 16)
  crcOk     : Bool
  link      : BitVec 48
  macEnd    : Bool
  viral     : Bool
  msgs      : List MsgIn
deriving DecidableEq, Repr

/-- Predicate of a Coulter instruction: it executes when Q[qi] XOR qs is 1 (R121). -/
structure Pred where
  qi : Fin 8
  qs : Bool
deriving DecidableEq, Repr

/-- Width of a Coulter instruction that uses SZ (R142, R145). -/
inductive Width where
  | w8 | w16 | w32
deriving DecidableEq, Repr

/-- Values a host writes into an HDM decoder (R84): base and size in bytes, ways and granularity in the CXL 3.1 encoding
of R158. -/
structure DecVals where
  base : BitVec 64
  size : BitVec 64
  ways : BitVec 4
  gran : BitVec 4
deriving DecidableEq, Repr

/-- One host write of a decoder's registers (R86, R87): the values it writes, and the Commit bit it sets or clears. -/
structure DecWrite where
  base   : Option (BitVec 64)
  size   : Option (BitVec 64)
  ways   : Option (BitVec 4)
  gran   : Option (BitVec 4)
  commit : Option Bool
deriving DecidableEq, Repr

/-- A target of a configuration request (R41, R42). -/
inductive CfgTarget where
  | upVppb
  | vppb (d : Fin 32)
  | fn (f : Fin 64)
  | steward
deriving DecidableEq, Repr

/-- Where SPDM is reachable (R298). -/
inductive SpdmEp where
  | doeSteward (i : Inst)
  | doePf0 (lp : Lp)
  | mctp
deriving DecidableEq, Repr

/-- A submission entry of a ring (R373) without its opcode and host addresses' contents. -/
structure SqEntry where
  noInt   : Bool
  cid     : BitVec 16
  inAddr  : BitVec 64
  inLen   : BitVec 32
  outLen  : BitVec 32
  outAddr : BitVec 64
deriving DecidableEq, Repr

/-- A sensor sample: reading in °C, and whether the self-check passes (R419). -/
structure Sensor where
  valid : Bool
  degC  : Int
deriving DecidableEq, Repr

/-- A main-die rail that source 0x14 names (R414). -/
abbrev Rail := Fin 6
/-- A monitored clock (R412): REFCLK0 to 15, REFCLK_MAIN, the meter clock. -/
inductive Clk where
  | refclk (c : Fin 16) | main | meter
deriving DecidableEq, Repr

/-- The pass of a dead sweep (R235) and the ECC errors that its reads of the directory met: set, way, whether uncorrectable (R221). -/
structure SweepPass where
  lp  : Lp
  ecc : List (Fin 131072 × Fin 16 × Bool) := []
deriving DecidableEq, Repr

/-- How a port's link goes down (chapter 03, "Link down with requests outstanding"). -/
inductive DownCause where
  | recovery | creditError | removal | perst | disabled | dpc | pll | ide
deriving DecidableEq, Repr

/-- The interrupt mechanisms (R378). -/
inductive IntMech where
  | intx | msi (log2 : Fin 6) | msix
deriving DecidableEq, Repr

/-- Device power states of an endpoint instance (R383); D3cold is the link down. -/
inductive DState where
  | d0 | d3hot
deriving DecidableEq, Repr

/-- MCTP bindings and the packets that arrive on them (R385, R387). -/
inductive MctpMsg where
  | regRead (addr : Nat)
  | regWrite (addr : Nat) (value : Word)
  | setEid (eid : BitVec 8)
  | other
deriving DecidableEq, Repr

/-- A vPPB binding asked for over the FM API. -/
structure BindArgs where
  vcs : Lp
  d   : Fin 30
  lp  : Lp
  ld  : Fin 16
  mld : Bool
deriving DecidableEq, Repr

/-- The commands: one constructor for each row of spec/opcode_table.json. -/
inductive Instr where
  -- time base
  | tick
  | furlongBoundary
  | commitSwitchOver
  -- plots, functions, decoders
  | plotCommit
  | plotSeed
  | plotSeedDone
  | fnReset (fid : Fid) (vcs : Bool)
  | functionLevelReset (fid : Fid)
  | vfEnableClear (lp : Lp)
  | vppbHotReset (lp : Lp)
  | generationAdvance (fn : Fin 8192)
  | decoderCommit (fid : Fid) (w : DecWrite)
  | decoderHeldWriteApply (fid : Fid)
  | configRequest (lp : Lp) (target : CfgTarget) (reg : Fin 1024) (wr : Option Word) (tag : BitVec 14)
  -- ingress
  | flitReceived (lp : Lp) (flit : Flit)
  | ideMacCheck (lp : Lp) (ok : Bool)
  | classify (m : Nat)
  | engineEntry (m : Nat)
  -- Coulter instructions
  | nop (m : Nat)
  | endExec (m : Nat) (p : Pred)
  | skip (m : Nat) (p : Pred) (n : Word)
  | next (m : Nat) (p : Pred) (b : Word)
  | add (m : Nat) (p : Pred) (w : Width) (d a b : BitVec 6)
  | sub (m : Nat) (p : Pred) (w : Width) (d a b : BitVec 6)
  | andOp (m : Nat) (p : Pred) (d a b : BitVec 6)
  | orOp (m : Nat) (p : Pred) (d a b : BitVec 6)
  | xorOp (m : Nat) (p : Pred) (d a b : BitVec 6)
  | shl (m : Nat) (p : Pred) (d a b : BitVec 6) (imm : Word)
  | shr (m : Nat) (p : Pred) (d a b : BitVec 6) (imm : Word)
  | ext (m : Nat) (p : Pred) (d a : BitVec 6) (imm : Word)
  | ins (m : Nat) (p : Pred) (d a b : BitVec 6) (imm : Word)
  | mov (m : Nat) (p : Pred) (d a : BitVec 6)
  | ldi (m : Nat) (p : Pred) (d : BitVec 6) (imm : Word)
  | addi (m : Nat) (p : Pred) (w : Width) (d a : BitVec 6) (imm : Word)
  | andi (m : Nat) (p : Pred) (d a : BitVec 6) (imm : Word)
  | ceq (m : Nat) (p : Pred) (w : Width) (d a b : BitVec 6)
  | cne (m : Nat) (p : Pred) (w : Width) (d a b : BitVec 6)
  | clt (m : Nat) (p : Pred) (w : Width) (d a b : BitVec 6)
  | cge (m : Nat) (p : Pred) (w : Width) (d a b : BitVec 6)
  | crng (m : Nat) (p : Pred) (w : Width) (d a b : BitVec 6) (span : Word)
  | lxt (m : Nat) (p : Pred) (a : BitVec 6)
  | lht (m : Nat) (p : Pred) (a : BitVec 6) (t : Word)
  | lfn (m : Nat) (p : Pred) (sel : Word)
  | tgt (m : Nat) (p : Pred) (a b : BitVec 6) (form : Word)
  | twin (m : Nat) (p : Pred) (a b : BitVec 6) (form : Word)
  | home (m : Nat) (p : Pred)
  | key (m : Nat) (p : Pred) (k : Word)
  | drop (m : Nat) (p : Pred)
  | psn (m : Nat) (p : Pred)
  | trap (m : Nat) (p : Pred) (r : Word)
  | mark (m : Nat) (p : Pred) (v : Word)
  | atom (m : Nat) (p : Pred) (place : Word)
  | cnt (m : Nat) (p : Pred) (a : BitVec 6) (imm : Word)
  -- hedge and home
  | hedgeAndMap (m : Nat)
  | homeLookup (m : Nat) (ecc : List (Fin 16 × Bool))
  | retryReplay (m : Nat) (ecc : List (Fin 16 × Bool))
  | retryCreditTaken (m : Nat)
  | birsp (m : Nat)
  | snoopsResolve (t : Nat)
  | snoopTimeout (lp : Lp) (bitag : Fin 4096)
  | deadSweepDone (pass : SweepPass)
  | cfnWrite (lp : Lp) (v : Word)
  -- scheduling, crossbar, egress, responses
  | bidListBuild
  | arbitrate
  | crossbarTraverse (m : Nat)
  | egressPack (m : Nat)
  | responseStage1 (m : Nat)
  | trackerTimeout (id : Nat)
  -- the hedge's copies
  | drainDone
  | drainOverdue
  | hedgeCheck
  | hedgeCheckDone
  | hedgeCommit
  | hedgeSeed
  | hedgeSeedDone
  | ruleW3Write (v : Word)
  | ruleIdxWrite (v : Word)
  | noticeClose (lp : Lp)
  -- programs
  | load (n : Phys) (p : ProgNo)
  | loadDone (n : Phys)
  | programCommit (n : Phys) (p : ProgNo)
  | htCommit (p : ProgNo)
  | htSeed (p : ProgNo)
  | htSeedDone
  | htDataHiWrite (v : Word)
  | htIdxWrite (v : Word)
  | tdigestDone (p : ProgNo)
  | counterClear (n : Phys) (p : ProgNo) (k : Fin 32)
  -- buffer, scheduler, harrow, residence view
  | bufferCommit
  | schedCommit
  | schedSeed
  | schedSeedDone
  | harrowGo (c : Chan)
  | harrowStop (c : Chan)
  | harrowMoveIssue
  | harrowMoveComplete (c : Chan) (line : Nat)
  | resSelWrite (v : Word)
  | resClear
  -- ports and links
  | cfgModeWrite (n : Phys) (v : Word)
  | lpCtlWrite (lp : Lp) (v : Word)
  | perstAssert (n : Phys)
  | perstDeassert (n : Phys)
  | linkUp (lp : Lp) (speed : Fin 7) (width : Fin 17) (flitMode : Bool)
  | flitModeRetry (lp : Lp)
  | upstreamRelease
  | presenceChange (lp : Lp) (present : Bool)
  | dpcTrigger (lp : Lp)
  | linkDown (lp : Lp) (cause : DownCause)
  | linkDropEnd (lp : Lp)
  | suspectClrOne
  | suspectClrAll (lp : Lp)
  | tflAck (lp : Lp) (seq : Fin 4096)
  | tflNak (lp : Lp) (e : Fin 4096)
  | tflCredit (lp : Lp) (cls : Fin 7) (v : Word)
  | replayTimeout (lp : Lp)
  | laneFailing (lp : Lp) (lane : Fin 16)
  | spareCmd (lp : Lp) (lane : Fin 16)
  | spareReq (lp : Lp) (lane : Fin 16)
  | spareEqDone (lp : Lp) (lane : Fin 16)
  | spareAck (lp : Lp) (lane : Fin 16)
  | spareCompareDone (lp : Lp) (lane : Fin 16) (pass : Bool)
  | spareDone (lp : Lp) (lane : Fin 16)
  | spareAbort (lp : Lp) (lane : Fin 16)
  | haleusSparingDllp (lp : Lp)
  -- IDE, signed commands, debug, JTAG
  | kSetGo (lp : Lp) (kset : Bool)
  | ideKmKeyProg (lp : Lp) (kset : Bool)
  | addKey
  | retireKey
  | lcDeploy
  | lcReturn
  | zeroisationDone
  | debugUnlock
  | debugLock
  | debugMasterAccess (addr : Nat) (wr : Option Word)
  | idcode
  | bypass
  | samplePreload
  | extest
  | clamp
  | highz
  -- SPDM, keys, TDISP
  | getVersion (ep : SpdmEp)
  | getCapabilities (ep : SpdmEp) (version : BitVec 8)
  | negotiateAlgorithms (ep : SpdmEp) (offered : Bool)
  | getDigests (ep : SpdmEp)
  | getCertificate (ep : SpdmEp) (slot : Fin 8)
  | challenge (ep : SpdmEp) (slot : Fin 8)
  | getMeasurements (ep : SpdmEp) (index : Fin 256) (signed : Bool)
  | keyExchange (ep : SpdmEp) (slot : Fin 8)
  | finish (ep : SpdmEp) (sid : Nat) (ok : Bool)
  | endSession (ep : SpdmEp) (sid : Nat)
  | heartbeat (ep : SpdmEp) (sid : Nat)
  | keyUpdate (ep : SpdmEp) (sid : Nat)
  | getCsr (ep : SpdmEp) (slot : Fin 8)
  | setCertificate (ep : SpdmEp) (slot : Fin 8) (chain : List Byte) (certifies : Bool)
  | chunkSend (ep : SpdmEp) (bytes : List Byte) (last : Bool)
  | chunkGet (ep : SpdmEp) (n : Nat)
  | spdmUnsupportedRequest (ep : SpdmEp) (code : BitVec 8)
  | keyInject (ep : SpdmEp) (sid : Nat) (fid : Fid) (pair : BitVec 512)
  | keySlotRegenerate (p : PlotNo)
  | getTdispVersion (ep : SpdmEp) (sid : Nat) (fid : Fid)
  | getTdispCapabilities (ep : SpdmEp) (sid : Nat) (fid : Fid)
  | lockInterfaceRequest (ep : SpdmEp) (sid : Nat) (fid : Fid)
  | getDeviceInterfaceReport (ep : SpdmEp) (sid : Nat) (fid : Fid)
  | getDeviceInterfaceState (ep : SpdmEp) (sid : Nat) (fid : Fid)
  | startInterfaceRequest (ep : SpdmEp) (sid : Nat) (fid : Fid)
  | stopInterfaceRequest (ep : SpdmEp) (sid : Nat) (fid : Fid)
  -- the meter
  | bindingEventApply
  | holdingRebuild
  | intervalEnd
  | intervalClose
  | recordStream (n : Nat)
  | mzOutRdWrite (v : Word)
  | addBkey
  | retireBkey
  | setScMap
  | setPlotMap
  | setInterval
  | setAnchor
  | readFrom
  | meterSupplyTrip (io : Bool)
  | meterSupplyResume
  | meterLinkLoss
  | meterLinkReturn
  | mrtcStopped
  | mramBothCopiesBad
  | mz12Ready
  | mz12NotReady
  -- configuration store
  | check (copyB : Bool)
  | checkDone
  | flashRead
  | flashProgram
  | flashErase
  | flashDone
  -- rings, endpoint DMA, power, interrupts
  | sqTailDoorbell (i : Inst) (r : Ring) (idx : Word)
  | cqHeadDoorbell (i : Inst) (r : Ring) (idx : Word)
  | ringCfgWrite (i : Inst) (r : Ring) (v : Word)
  | ringNop (i : Inst) (r : Ring) (e : SqEntry)
  | fmapi (i : Inst) (r : Ring) (e : SqEntry)
  | regWrite (i : Inst) (r : Ring) (e : SqEntry) (pairs : List (Nat × Word))
  | regRead (i : Inst) (r : Ring) (e : SqEntry) (addrs : List Nat)
  | progLoad (i : Inst) (r : Ring) (e : SqEntry) (mask : Word) (p : Word) (image : List Byte)
  | fwLoad (i : Inst) (r : Ring) (e : SqEntry) (image : List Byte)
  | fwActivate (i : Inst) (r : Ring) (e : SqEntry)
  | mzCmd (i : Inst) (r : Ring) (e : SqEntry) (cmd : List Byte)
  | records (i : Inst) (r : Ring) (e : SqEntry)
  | traps (i : Inst) (r : Ring) (e : SqEntry)
  | cfgWrite (i : Inst) (r : Ring) (e : SqEntry) (copy : Word) (image : List Byte)
  | epDmaCompletion (i : Inst) (id : Nat) (ok : Bool)
  | epCompletionTimeout (i : Inst) (id : Nat)
  | busMasterEnableClear (i : Inst)
  | epFunctionReset (i : Inst)
  | dStateChange (i : Inst) (d : DState)
  | wakeEvent (i : Inst) (src : Fin 32)
  | pmPmeResend (i : Inst)
  | interruptMechanismChange (i : Inst) (mech : IntMech)
  | mctpPacket (lp : Option Lp) (bytes : Nat) (msg : MctpMsg)
  -- FM API
  | identify
  | backgroundOperationStatus
  | getResponseMessageLimit
  | setResponseMessageLimit (log2 : BitVec 8)
  | getEvents
  | clearEvents (n : Nat)
  | getEventInterruptPolicy
  | setEventInterruptPolicy (policy : BitVec 8)
  | identifySwitchDevice
  | getPhysicalPortState (lp : Lp)
  | physicalPortControl (lp : Lp) (op : Fin 3)
  | sendPpbCxlIoConfigRequest (lp : Lp) (reg : Fin 1024) (wr : Option Word)
  | getVirtualCxlSwitchInfo (lp : Lp)
  | bindVppb (b : BindArgs)
  | unbindVppb (vcs : Lp) (d : Fin 30)
  | generateAerEvent (vcs : Lp) (d : Fin 32) (err : Word)
  | tunnelManagementCommand (lp : Lp) (bytes : List Byte)
  | sendLdCxlIoConfigRequest (lp : Lp) (ld : Fin 16) (reg : Fin 1024) (wr : Option Word)
  | sendLdCxlIoMemoryRequest (lp : Lp) (ld : Fin 16) (addr : BitVec 64) (wr : Option (List Byte))
  | getLdInfo (lp : Lp)
  | getLdAllocations (lp : Lp)
  | setLdAllocations (lp : Lp) (bytes : List Byte)
  | dcdGetInfo
  | dcdGetHostRegionConfig (fid : Fid)
  | dcdSetRegionConfig (fid : Fid) (region : Fin 8) (first : Nat) (count : Nat)
  | dcdGetExtentLists (fid : Fid)
  | dcdInitiateAdd (fid : Fid) (idx : Fin 131072) (w0 w1 : Word)
  | dcdInitiateRelease (fid : Fid) (idx : Fin 131072) (forced : Bool)
  -- firmware
  | switch (src : Source)
  | ready
  | fwFallback
  | wdogKick
  | watchdogExpiry
  -- faults
  | safeStateReaction
  | faultNPulseEnd
  | fltPinWrite (v : Word)
  | force (v : Word)
  | injGo (v : Word)
  | ferrClear
  | sevWrite (n : Fin 4) (v : Word)
  | sheafIdxWrite (v : Word)
  -- clocks, supplies, sensors, resets
  | clockMonitorTrip (clk : Clk)
  | refclkLoss (clk : Clk)
  | refclkMainReturn
  | supplyMonitorTrip (rail : Rail)
  | sensorSample (sensors : List Sensor) (acked : Bool) (readMv : BitVec 10)
  | pwrgoodLow (aonHeld : Bool)
  | sysRstNAssert (aonHeld : Bool)
  | deviceResetRelease (uidOk : Bool)
  -- registers without a row of their own, and the rows added at the table's end
  | registerWrite (src : Source) (addr : Nat) (v : Word)
  | l0pWidthChange (lp : Lp) (width : Fin 17)
  | clusterPllRelock (c : Fin 16)
  | msixVectorUnmask (i : Inst) (vec : Fin 64)
  | dynamicAddressAssignment (da : BitVec 7)
  | laneMargining (lp : Lp) (lane : Fin 16)
deriving DecidableEq, Repr

end Sys2Proof
end

