-- ==== Sys2Proof/Decode.lean ====
section
/-! DEFINITION. Commands spelt by a word. No row of spec/opcode_table.json gives bits, so no word spells a command
(log 2). The one binary encoding the manual gives, the Coulter instruction word, is in Machine/Operands.lean. -/

namespace Sys2Proof

/-- The command that a word spells by the table's bits: none, since no row gives bits (log 2). -/
def decodeTableWord (_nbits _w : Nat) : Option Instr := none

end Sys2Proof
end

