-- ==== Sys2Proof/Machine/Flags.lean ====
section
/-! DEFINITION. Widths and predicates of the Coulter instruction set: no instruction keeps a carry, overflow or sign flag
(R146); the one-bit results are the predicates Q0 to Q6 that compares write (R153). -/

namespace Sys2Proof.Machine

/-- Bits of width code SZ (R142, R145). -/
def szBits (sz : Nat) : Nat := if sz = 0 then 8 else if sz = 1 then 16 else 32

/-- The low w bits of a value (R145). -/
def lowBits (w : Nat) (a : Word) : Nat := a.toNat % 2 ^ w

/-- Sum modulo 2^w, zero-extended (R145, R151). -/
def addW (w : Nat) (a b : Word) : Word := BitVec.ofNat 32 ((lowBits w a + lowBits w b) % 2 ^ w)

/-- Difference modulo 2^w, zero-extended (R145, R151). -/
def subW (w : Nat) (a b : Word) : Word := BitVec.ofNat 32 ((2 ^ w + lowBits w a - lowBits w b) % 2 ^ w)

/-- The five conditions of a compare (R153, R154). -/
inductive Cond where
  | eq | ne | lt | ge | rng
deriving DecidableEq, Repr

/-- A compare's result on the low w bits; `span` is CRNG's (R153, R154). -/
def Cond.holds (c : Cond) (w : Nat) (a b : Word) (span : Nat) : Bool :=
  match c with
  | .eq => decide (lowBits w a = lowBits w b)
  | .ne => decide (lowBits w a ≠ lowBits w b)
  | .lt => decide (lowBits w a < lowBits w b)
  | .ge => decide (lowBits w b ≤ lowBits w a)
  | .rng => decide ((subW w a b).toNat < span)

/-- Bits [pos + len - 1 : pos] of a (R151, EXT). -/
def extField (a : Word) (pos len : Nat) : Word := BitVec.ofNat 32 ((a.toNat >>> pos) % 2 ^ len)

/-- `a` with bits [pos + len - 1 : pos] replaced by the low bits of `b` (R151, INS). -/
def insField (a b : Word) (pos len : Nat) : Word :=
  let mask := BitVec.ofNat 32 ((2 ^ len - 1) <<< pos)
  (a &&& ~~~ mask) ||| ((b <<< pos) &&& mask)

end Sys2Proof.Machine
end

