-- ==== Sys2Proof/Config.lean ====
section
/-! DEFINITION. What the manual leaves open: constants without a body, so that no proof sees what they are. -/

namespace Sys2Proof.Config

/-- Draw number `n` of a free value of width `w`: a value the manual leaves open or has drawn at random (log 7). -/
opaque freeValue (w n : Nat) : BitVec w

/-- SHA-384 (R171, R183, R339; FIPS 180-4), of a byte string (log 8). -/
opaque sha384 (bytes : List Byte) : BitVec 384

/-- ECDSA P-384 signature check: key (97 bytes, uncompressed), message, signature (96 bytes) (R292, R295; log 8). -/
opaque ecdsaVerify (key msg sig : List Byte) : Bool

/-- ECDSA P-384 signature of a message by the device's key number `k`: 0 the main die's identity key, 1 the meter's
record key, 2 the meter's identity key (R296, R338; log 8). -/
opaque ecdsaSign (k : Nat) (msg : List Byte) : List Byte

/-- AES-256-XTS of one line under a key pair; `dec` decrypts (R308; log 8). -/
opaque xts (pair : BitVec 512) (dec : Bool) (lineAddr : Nat) (line : List Byte) : List Byte

/-- The body of a response or report that the manual takes from a standard without giving its bytes: kind, then the values
it is made from (log 10). -/
opaque standardBody (kind : Nat) (args : List Nat) : List Byte

/-- What the manual does not lay out of a steward firmware image: whether its format, length and magic are right (0), whether
the Haleus signature verifies (1) (R390; log 8). -/
opaque fwCheck (what : Nat) (image : List Byte) : Bool

/-- Sequence number that a steward firmware image carries (R390; log 8). -/
opaque fwSeq (image : List Byte) : BitVec 64

/-- The register writes by which the steward puts a section of a type, 0x03 to 0x08, into the load copies of its owner: the manual gives
the layout of an entry, not how a section names the places of its entries (R355, R361; log 27). -/
opaque sectionWrites (ty : Nat) (body : List Byte) : List (Nat × BitVec 32)

/-- Which of the ways that may be taken the home's pseudo-LRU picks, by the set's ways in order of use (R219; log 7). -/
opaque pseudoLru (recent ways : List Nat) : Nat

/-- The process corner class fused in OTP (R417; log 5). -/
opaque corner : BitVec 2

/-- The Haleus return key held in ROM (R294; log 5). -/
opaque returnKey : List Byte

/-- The 128-bit identities fused at manufacture: 0 the main die, 1 the MZ12 (R288; log 5). -/
opaque uid (die : Nat) : BitVec 128

/-- Byte `n` of certificate number `k` that the device holds from manufacture (R297, R340; log 5). -/
opaque certificate (k : Nat) : List Byte

/-- Bits of a configuration register that the manual does not lay out, by kind of function, register number and the word last
written (R41, R365; log 20). -/
opaque cfgReg (kind reg : Nat) (stored : BitVec 32) : BitVec 32

/-- Which byte of a presented function's HDM decoder registers an address of its BAR 0 names, if any: the manual does not place them
(R84; log 20). -/
opaque hdmAt (addr : Nat) : Option Nat

/-- A write to a presented function's BAR 0 is its host's mailbox command that answers the oldest event posted there (R89; log 10). -/
opaque mailboxAnswer (addr : Nat) (data : List (BitVec 8)) : Bool

/-- Bytes of the expansion ROM's image that R369 and R370 do not place, as made (log 20). -/
opaque rom (n : Nat) : BitVec 8

/-- The ROM patch records that OTP holds: the number of the ROM word each replaces, and the word (R371; log 5). -/
opaque romPatches : List (Nat × BitVec 32)

/-- The bytes of a patch record (R370; log 20). -/
opaque patchRecord (word : Nat) (value : BitVec 32) : List Byte

/-- The number of the on-die ROM word at which the expansion ROM's image begins (log 20). -/
opaque romBase : Nat

/-- What the manual leaves open of the resource table (R369, R370; log 20): the order of the directory's entries. -/
opaque tableOrder : Nat

/-- The version of an entry of the resource table. -/
opaque entryVersion (ty : Nat) : BitVec 16

/-- Bytes that stand before the content of an entry of the resource table. -/
opaque romGap (ty : Nat) : List (BitVec 8)

/-- The code of the register block at a base address. -/
opaque blockCode (base : Nat) : BitVec 16

/-- The version of the register block at a base address. -/
opaque blockVersion (base : Nat) : BitVec 16

/-- SHA-384 over the main die's ROM and the patch records applied (R299; log 8). -/
opaque romDigest (patches : List Byte) : BitVec 384

end Sys2Proof.Config
end

