-- ==== Sys2Proof/Machine/RegMap.lean ====
section
/-! DEFINITION. The register space of 19_register_map.md: the address of every register, the place of every field, and
for every register its reset value and access codes (R11). Names are BLOCK.REGISTER and FIELD of the manual. -/

namespace Sys2Proof

/-- One register, or one array of registers, of the space: offset in its block, the array's (stride, count) pairs from the
outermost, its reset value, the bits that are RW or RWS, the RW1C bits cleared one by one, the fields cleared
whole by writing any 1, the RWL bits, and whether it is the low word of a pair (1) or of the three-word values of MZ.CUM (2)
(R448, R449). -/
structure RegRow where
  off   : Nat
  dims  : List (Nat × Nat)
  reset : Nat
  rw    : Nat
  w1c   : Nat
  cnt   : List (Nat × Nat)
  rwl   : Nat
  pair  : Nat
deriving DecidableEq, Repr

/-! ### GLOBAL (01_time_base_and_architecture.md) -/

/-- `GLOBAL.UID` (R316). -/
def Reg.globalUid (i : Nat) : Nat := 0x0 + 0x4 * i
/-- `GLOBAL.LIFECYCLE` (R316). -/
def Reg.globalLifecycle : Nat := 0x10
/-- `LIFECYCLE.STATE` [2:0] (R316). -/
def Fld.globalLifecycleState : Fd := ⟨Reg.globalLifecycle, 0, 3⟩
/-- `LIFECYCLE.UID_BAD` [3:3] (R316). -/
def Fld.globalLifecycleUidBad : Fd := ⟨Reg.globalLifecycle, 3, 1⟩
/-- `LIFECYCLE.TESTMODE` [4:4] (R316). -/
def Fld.globalLifecycleTestmode : Fd := ⟨Reg.globalLifecycle, 4, 1⟩
/-- `GLOBAL.TICK_LO` (R30). -/
def Reg.globalTickLo : Nat := 0x100
/-- `GLOBAL.TICK_HI` (R30). -/
def Reg.globalTickHi : Nat := 0x104
/-- `GLOBAL.FURLONG_LO` (R30). -/
def Reg.globalFurlongLo : Nat := 0x108
/-- `GLOBAL.FURLONG_HI` (R30). -/
def Reg.globalFurlongHi : Nat := 0x10c
/-- `FURLONG_HI.VALUE` [23:0] (R30). -/
def Fld.globalFurlongHiValue : Fd := ⟨Reg.globalFurlongHi, 0, 24⟩
/-- `GLOBAL.TIME_STAT` (R30). -/
def Reg.globalTimeStat : Nat := 0x110
/-- `TIME_STAT.PHASE` [7:0] (R30). -/
def Fld.globalTimeStatPhase : Fd := ⟨Reg.globalTimeStat, 0, 8⟩
/-- `TIME_STAT.HEADLAND` [8:8] (R30). -/
def Fld.globalTimeStatHeadland : Fd := ⟨Reg.globalTimeStat, 8, 1⟩
/-- `GLOBAL.RES_CTL` (R31). -/
def Reg.globalResCtl : Nat := 0x200
/-- `RES_CTL.ENABLE` [0:0] (R31). -/
def Fld.globalResCtlEnable : Fd := ⟨Reg.globalResCtl, 0, 1⟩
/-- `RES_CTL.CLEAR` [1:1] (R31). -/
def Fld.globalResCtlClear : Fd := ⟨Reg.globalResCtl, 1, 1⟩
/-- `GLOBAL.RES_SEL` (R31). -/
def Reg.globalResSel : Nat := 0x204
/-- `RES_SEL.PORT` [5:0] (R31). -/
def Fld.globalResSelPort : Fd := ⟨Reg.globalResSel, 0, 6⟩
/-- `GLOBAL.RES_COUNT_LO` (R32). -/
def Reg.globalResCountLo : Nat := 0x208
/-- `GLOBAL.RES_COUNT_HI` (R32). -/
def Reg.globalResCountHi : Nat := 0x20c
/-- `GLOBAL.RES_MAX` (R32). -/
def Reg.globalResMax : Nat := 0x210
/-- `GLOBAL.RES_OVERRUN` (R32). -/
def Reg.globalResOverrun : Nat := 0x214
/-- `GLOBAL.RES_EIN_LO` (R32). -/
def Reg.globalResEinLo : Nat := 0x218
/-- `GLOBAL.RES_EIN_HI` (R32). -/
def Reg.globalResEinHi : Nat := 0x21c
/-- `GLOBAL.RES_IDEH_LO` (R32). -/
def Reg.globalResIdehLo : Nat := 0x220
/-- `GLOBAL.RES_IDEH_HI` (R32). -/
def Reg.globalResIdehHi : Nat := 0x224
/-- `GLOBAL.RES_HOME_LO` (R32). -/
def Reg.globalResHomeLo : Nat := 0x228
/-- `GLOBAL.RES_HOME_HI` (R32). -/
def Reg.globalResHomeHi : Nat := 0x22c
/-- `GLOBAL.RES_SNOOP_LO` (R32). -/
def Reg.globalResSnoopLo : Nat := 0x230
/-- `GLOBAL.RES_SNOOP_HI` (R32). -/
def Reg.globalResSnoopHi : Nat := 0x234
/-- `GLOBAL.RES_RETRY_LO` (R32). -/
def Reg.globalResRetryLo : Nat := 0x238
/-- `GLOBAL.RES_RETRY_HI` (R32). -/
def Reg.globalResRetryHi : Nat := 0x23c
/-- `GLOBAL.RES_QUEUE_LO` (R32). -/
def Reg.globalResQueueLo : Nat := 0x240
/-- `GLOBAL.RES_QUEUE_HI` (R32). -/
def Reg.globalResQueueHi : Nat := 0x244
/-- `GLOBAL.RES_CRED_LO` (R32). -/
def Reg.globalResCredLo : Nat := 0x248
/-- `GLOBAL.RES_CRED_HI` (R32). -/
def Reg.globalResCredHi : Nat := 0x24c
/-- `GLOBAL.RES_WORST_TICK_LO` (R32). -/
def Reg.globalResWorstTickLo : Nat := 0x250
/-- `GLOBAL.RES_WORST_TICK_HI` (R32). -/
def Reg.globalResWorstTickHi : Nat := 0x254
/-- `GLOBAL.RES_WORST_INFO` (R32). -/
def Reg.globalResWorstInfo : Nat := 0x258
/-- `RES_WORST_INFO.LP` [5:0] (R32). -/
def Fld.globalResWorstInfoLp : Fd := ⟨Reg.globalResWorstInfo, 0, 6⟩
/-- `RES_WORST_INFO.PLOT` [17:6] (R32). -/
def Fld.globalResWorstInfoPlot : Fd := ⟨Reg.globalResWorstInfo, 6, 12⟩

/-- The rows of block GLOBAL, part 0. -/
def RegRows.global0 : List RegRow :=
  [⟨0x0, [(0x4, 4)], 0x0, 0x0, 0x0, [], 0x0, 0⟩,
   ⟨0x10, [], 0x3, 0x0, 0x0, [], 0x0, 0⟩,
   ⟨0x100, [], 0x0, 0x0, 0x0, [], 0x0, 1⟩,
   ⟨0x104, [], 0x0, 0x0, 0x0, [], 0x0, 0⟩,
   ⟨0x108, [], 0x0, 0x0, 0x0, [], 0x0, 1⟩,
   ⟨0x10c, [], 0x0, 0x0, 0x0, [], 0x0, 0⟩,
   ⟨0x110, [], 0x0, 0x0, 0x0, [], 0x0, 0⟩,
   ⟨0x200, [], 0x1, 0x1, 0x0, [], 0x0, 0⟩,
   ⟨0x204, [], 0x0, 0x3f, 0x0, [], 0x0, 0⟩,
   ⟨0x208, [], 0x0, 0x0, 0x0, [], 0x0, 1⟩,
   ⟨0x20c, [], 0x0, 0x0, 0x0, [], 0x0, 0⟩,
   ⟨0x210, [], 0x0, 0x0, 0x0, [], 0x0, 0⟩,
   ⟨0x214, [], 0x0, 0x0, 0x0, [], 0x0, 0⟩,
   ⟨0x218, [], 0x0, 0x0, 0x0, [], 0x0, 1⟩,
   ⟨0x21c, [], 0x0, 0x0, 0x0, [], 0x0, 0⟩,
   ⟨0x220, [], 0x0, 0x0, 0x0, [], 0x0, 1⟩,
   ⟨0x224, [], 0x0, 0x0, 0x0, [], 0x0, 0⟩,
   ⟨0x228, [], 0x0, 0x0, 0x0, [], 0x0, 1⟩,
   ⟨0x22c, [], 0x0, 0x0, 0x0, [], 0x0, 0⟩,
   ⟨0x230, [], 0x0, 0x0, 0x0, [], 0x0, 1⟩]

/-- The rows of block GLOBAL, part 1. -/
def RegRows.global1 : List RegRow :=
  [⟨0x234, [], 0x0, 0x0, 0x0, [], 0x0, 0⟩,
   ⟨0x238, [], 0x0, 0x0, 0x0, [], 0x0, 1⟩,
   ⟨0x23c, [], 0x0, 0x0, 0x0, [], 0x0, 0⟩,
   ⟨0x240, [], 0x0, 0x0, 0x0, [], 0x0, 1⟩,
   ⟨0x244, [], 0x0, 0x0, 0x0, [], 0x0, 0⟩,
   ⟨0x248, [], 0x0, 0x0, 0x0, [], 0x0, 1⟩,
   ⟨0x24c, [], 0x0, 0x0, 0x0, [], 0x0, 0⟩,
   ⟨0x250, [], 0x0, 0x0, 0x0, [], 0x0, 1⟩,
   ⟨0x254, [], 0x0, 0x0, 0x0, [], 0x0, 0⟩,
   ⟨0x258, [], 0x0, 0x0, 0x0, [], 0x0, 0⟩]

/-- The rows of block GLOBAL. -/
def RegRows.global : List RegRow := RegRows.global0 ++ RegRows.global1

/-! ### CPR (17_clocks_power_reset.md) -/

/-- `CPR.RESET_CAUSE` (R427). -/
def Reg.cprResetCause : Nat := 0x100000
/-- `RESET_CAUSE.POR` [0:0] (R427). -/
def Fld.cprResetCausePor : Fd := ⟨Reg.cprResetCause, 0, 1⟩
/-- `RESET_CAUSE.SYS` [1:1] (R427). -/
def Fld.cprResetCauseSys : Fd := ⟨Reg.cprResetCause, 1, 1⟩
/-- `CPR.START` (R427). -/
def Reg.cprStart : Nat := 0x100004
/-- `START.STEP` [2:0] (R427). -/
def Fld.cprStartStep : Fd := ⟨Reg.cprStart, 0, 3⟩
/-- `START.HALT` [3:3] (R427). -/
def Fld.cprStartHalt : Fd := ⟨Reg.cprStart, 3, 1⟩
/-- `START.HALT_CAUSE` [7:4] (R427). -/
def Fld.cprStartHaltCause : Fd := ⟨Reg.cprStart, 4, 4⟩
/-- `CPR.CLK_STAT` (R427). -/
def Reg.cprClkStat : Nat := 0x100008
/-- `CLK_STAT.CORE_LOCK` [0:0] (R427). -/
def Fld.cprClkStatCoreLock : Fd := ⟨Reg.cprClkStat, 0, 1⟩
/-- `CLK_STAT.STEWARD_LOCK` [1:1] (R427). -/
def Fld.cprClkStatStewardLock : Fd := ⟨Reg.cprClkStat, 1, 1⟩
/-- `CLK_STAT.TALLY_LOCK` [2:2] (R427). -/
def Fld.cprClkStatTallyLock : Fd := ⟨Reg.cprClkStat, 2, 1⟩
/-- `CLK_STAT.LINK_LOCK` [18:3] (R427). -/
def Fld.cprClkStatLinkLock : Fd := ⟨Reg.cprClkStat, 3, 16⟩
/-- `CLK_STAT.AON_BACKUP` [19:19] (R427). -/
def Fld.cprClkStatAonBackup : Fd := ⟨Reg.cprClkStat, 19, 1⟩
/-- `CLK_STAT.HOLDOVER` [20:20] (R427). -/
def Fld.cprClkStatHoldover : Fd := ⟨Reg.cprClkStat, 20, 1⟩
/-- `CLK_STAT.TALLY_HOLDOVER` [21:21] (R427). -/
def Fld.cprClkStatTallyHoldover : Fd := ⟨Reg.cprClkStat, 21, 1⟩
/-- `CPR.CLKMON_STAT` (R427). -/
def Reg.cprClkmonStat : Nat := 0x10000c
/-- `CLKMON_STAT.REFCLK` [15:0] (R427). -/
def Fld.cprClkmonStatRefclk : Fd := ⟨Reg.cprClkmonStat, 0, 16⟩
/-- `CLKMON_STAT.MAIN` [16:16] (R427). -/
def Fld.cprClkmonStatMain : Fd := ⟨Reg.cprClkmonStat, 16, 1⟩
/-- `CLKMON_STAT.METER` [17:17] (R427). -/
def Fld.cprClkmonStatMeter : Fd := ⟨Reg.cprClkmonStat, 17, 1⟩
/-- `CPR.CLKMON_EVT` (R427). -/
def Reg.cprClkmonEvt : Nat := 0x100010
/-- `CLKMON_EVT.MAP` [17:0] (R427). -/
def Fld.cprClkmonEvtMap : Fd := ⟨Reg.cprClkmonEvt, 0, 18⟩
/-- `CPR.AVS_CTL` (R427). -/
def Reg.cprAvsCtl : Nat := 0x100020
/-- `AVS_CTL.EN` [0:0] (R427). -/
def Fld.cprAvsCtlEn : Fd := ⟨Reg.cprAvsCtl, 0, 1⟩
/-- `AVS_CTL.MANUAL` [1:1] (R427). -/
def Fld.cprAvsCtlManual : Fd := ⟨Reg.cprAvsCtl, 1, 1⟩
/-- `AVS_CTL.MANUAL_MV` [11:2] (R427). -/
def Fld.cprAvsCtlManualMv : Fd := ⟨Reg.cprAvsCtl, 2, 10⟩
/-- `CPR.AVS_STAT` (R427). -/
def Reg.cprAvsStat : Nat := 0x100024
/-- `AVS_STAT.TARGET_MV` [9:0] (R427). -/
def Fld.cprAvsStatTargetMv : Fd := ⟨Reg.cprAvsStat, 0, 10⟩
/-- `AVS_STAT.READ_MV` [19:10] (R427). -/
def Fld.cprAvsStatReadMv : Fd := ⟨Reg.cprAvsStat, 10, 10⟩
/-- `AVS_STAT.CORNER` [21:20] (R427). -/
def Fld.cprAvsStatCorner : Fd := ⟨Reg.cprAvsStat, 20, 2⟩
/-- `AVS_STAT.FIXED` [22:22] (R427). -/
def Fld.cprAvsStatFixed : Fd := ⟨Reg.cprAvsStat, 22, 1⟩
/-- `AVS_STAT.NOACK` [23:23] (R427). -/
def Fld.cprAvsStatNoack : Fd := ⟨Reg.cprAvsStat, 23, 1⟩
/-- `CPR.THERM_CTL` (R427). -/
def Reg.cprThermCtl : Nat := 0x100028
/-- `THERM_CTL.WARN_C` [7:0] (R427). -/
def Fld.cprThermCtlWarnC : Fd := ⟨Reg.cprThermCtl, 0, 8⟩
/-- `CPR.THERM_STAT` (R427). -/
def Reg.cprThermStat : Nat := 0x10002c
/-- `THERM_STAT.HOTTEST` [7:0] (R427). -/
def Fld.cprThermStatHottest : Fd := ⟨Reg.cprThermStat, 0, 8⟩
/-- `THERM_STAT.HOT_IDX` [11:8] (R427). -/
def Fld.cprThermStatHotIdx : Fd := ⟨Reg.cprThermStat, 8, 4⟩
/-- `THERM_STAT.GRADIENT` [19:12] (R427). -/
def Fld.cprThermStatGradient : Fd := ⟨Reg.cprThermStat, 12, 8⟩
/-- `THERM_STAT.WARN` [20:20] (R427). -/
def Fld.cprThermStatWarn : Fd := ⟨Reg.cprThermStat, 20, 1⟩
/-- `THERM_STAT.VALID_CNT` [25:21] (R427). -/
def Fld.cprThermStatValidCnt : Fd := ⟨Reg.cprThermStat, 21, 5⟩
/-- `CPR.SUPPLY_STAT` (R427). -/
def Reg.cprSupplyStat : Nat := 0x100030
/-- `SUPPLY_STAT.OK` [5:0] (R427). -/
def Fld.cprSupplyStatOk : Fd := ⟨Reg.cprSupplyStat, 0, 6⟩
/-- `CPR.SUPPLY_EVT` (R427). -/
def Reg.cprSupplyEvt : Nat := 0x100034
/-- `SUPPLY_EVT.TRIP` [5:0] (R427). -/
def Fld.cprSupplyEvtTrip : Fd := ⟨Reg.cprSupplyEvt, 0, 6⟩
/-- `CPR.DROOP` (R427). -/
def Reg.cprDroop : Nat := 0x100038
/-- `CPR.STEP_DONE_LO` (R427). -/
def Reg.cprStepDoneLo (i : Nat) : Nat := 0x100040 + 0x8 * i
/-- `CPR.STEP_DONE_HI` (R427). -/
def Reg.cprStepDoneHi (i : Nat) : Nat := 0x100044 + 0x8 * i
/-- `CPR.TSENSE` (R427). -/
def Reg.cprTsense (i : Nat) : Nat := 0x100100 + 0x4 * i
/-- `TSENSE.READING` [7:0] (R427). -/
def Fld.cprTsenseReading (i : Nat) : Fd := ⟨Reg.cprTsense i, 0, 8⟩
/-- `TSENSE.VALID` [8:8] (R427). -/
def Fld.cprTsenseValid (i : Nat) : Fd := ⟨Reg.cprTsense i, 8, 1⟩

/-- The rows of block CPR. -/
def RegRows.cpr : List RegRow :=
  [⟨0x0, [], 0x1, 0x0, 0x0, [], 0x0, 0⟩,
   ⟨0x4, [], 0x1, 0x0, 0x0, [], 0x0, 0⟩,
   ⟨0x8, [], 0x0, 0x0, 0x0, [], 0x0, 0⟩,
   ⟨0xc, [], 0x0, 0x0, 0x0, [], 0x0, 0⟩,
   ⟨0x10, [], 0x0, 0x0, 0x3ffff, [], 0x0, 0⟩,
   ⟨0x20, [], 0xf01, 0xfff, 0x0, [], 0x0, 0⟩,
   ⟨0x24, [], 0x4003c0, 0x0, 0x800000, [], 0x0, 0⟩,
   ⟨0x28, [], 0x64, 0xff, 0x0, [], 0x0, 0⟩,
   ⟨0x2c, [], 0x0, 0x0, 0x0, [], 0x0, 0⟩,
   ⟨0x30, [], 0x3f, 0x0, 0x0, [], 0x0, 0⟩,
   ⟨0x34, [], 0x0, 0x0, 0x3f, [], 0x0, 0⟩,
   ⟨0x38, [], 0x0, 0x0, 0x0, [(0, 32)], 0x0, 0⟩,
   ⟨0x40, [(0x8, 6)], 0x0, 0x0, 0x0, [], 0x0, 1⟩,
   ⟨0x44, [(0x8, 6)], 0x0, 0x0, 0x0, [], 0x0, 0⟩,
   ⟨0x100, [(0x4, 16)], 0x0, 0x0, 0x0, [], 0x0, 0⟩]

/-! ### FAULT (16_fault_handling.md) -/

/-- `FAULT.FERR` (R407). -/
def Reg.faultFerr : Nat := 0x200000
/-- `FERR.SRC` [7:0] (R407). -/
def Fld.faultFerrSrc : Fd := ⟨Reg.faultFerr, 0, 8⟩
/-- `FERR.SEV` [9:8] (R407). -/
def Fld.faultFerrSev : Fd := ⟨Reg.faultFerr, 8, 2⟩
/-- `FERR.OVF` [30:30] (R407). -/
def Fld.faultFerrOvf : Fd := ⟨Reg.faultFerr, 30, 1⟩
/-- `FERR.VALID` [31:31] (R407). -/
def Fld.faultFerrValid : Fd := ⟨Reg.faultFerr, 31, 1⟩
/-- `FAULT.FERR_DETAIL` (R407). -/
def Reg.faultFerrDetail : Nat := 0x200004
/-- `FAULT.FERR_TICK_LO` (R407). -/
def Reg.faultFerrTickLo : Nat := 0x200008
/-- `FAULT.FERR_TICK_HI` (R407). -/
def Reg.faultFerrTickHi : Nat := 0x20000c
/-- `FAULT.STAT` (R407). -/
def Reg.faultStat : Nat := 0x200010
/-- `STAT.DEGRADED` [0:0] (R407). -/
def Fld.faultStatDegraded : Fd := ⟨Reg.faultStat, 0, 1⟩
/-- `STAT.FATAL` [1:1] (R407). -/
def Fld.faultStatFatal : Fd := ⟨Reg.faultStat, 1, 1⟩
/-- `STAT.FATAL_SRC` [15:8] (R407). -/
def Fld.faultStatFatalSrc : Fd := ⟨Reg.faultStat, 8, 8⟩
/-- `FAULT.CTL` (R407). -/
def Reg.faultCtl : Nat := 0x200014
/-- `CTL.FERR_MIN` [1:0] (R407). -/
def Fld.faultCtlFerrMin : Fd := ⟨Reg.faultCtl, 0, 2⟩
/-- `CTL.FORCE` [2:2] (R407). -/
def Fld.faultCtlForce : Fd := ⟨Reg.faultCtl, 2, 1⟩
/-- `CTL.FORCE_CODE` [15:8] (R407). -/
def Fld.faultCtlForceCode : Fd := ⟨Reg.faultCtl, 8, 8⟩
/-- `FAULT.FLT_PIN` (R407). -/
def Reg.faultFltPin : Nat := 0x200018
/-- `FLT_PIN.LEVEL` [0:0] (R407). -/
def Fld.faultFltPinLevel : Fd := ⟨Reg.faultFltPin, 0, 1⟩
/-- `FLT_PIN.PULSE` [1:1] (R407). -/
def Fld.faultFltPinPulse : Fd := ⟨Reg.faultFltPin, 1, 1⟩
/-- `FAULT.SHEAF_SEQ` (R408). -/
def Reg.faultSheafSeq : Nat := 0x20001c
/-- `FAULT.SHEAF_IDX` (R408). -/
def Reg.faultSheafIdx : Nat := 0x200020
/-- `SHEAF_IDX.SLOT` [5:0] (R408). -/
def Fld.faultSheafIdxSlot : Fd := ⟨Reg.faultSheafIdx, 0, 6⟩
/-- `FAULT.SHEAF_LOST` (R408). -/
def Reg.faultSheafLost : Nat := 0x200024
/-- `SHEAF_LOST.DROPPED` [15:0] (R408). -/
def Fld.faultSheafLostDropped : Fd := ⟨Reg.faultSheafLost, 0, 16⟩
/-- `FAULT.FATAL_TICK_LO` (R407). -/
def Reg.faultFatalTickLo : Nat := 0x200028
/-- `FAULT.FATAL_TICK_HI` (R407). -/
def Reg.faultFatalTickHi : Nat := 0x20002c
/-- `FAULT.INJ` (R408). -/
def Reg.faultInj : Nat := 0x200030
/-- `INJ.SRC` [7:0] (R408). -/
def Fld.faultInjSrc : Fd := ⟨Reg.faultInj, 0, 8⟩
/-- `INJ.LP` [13:8] (R408). -/
def Fld.faultInjLp : Fd := ⟨Reg.faultInj, 8, 6⟩
/-- `INJ.GO` [14:14] (R408). -/
def Fld.faultInjGo : Fd := ⟨Reg.faultInj, 14, 1⟩
/-- `FAULT.INJ_DETAIL` (R408). -/
def Reg.faultInjDetail : Nat := 0x200034
/-- `FAULT.SHEAF_W` (R408). -/
def Reg.faultSheafW (i : Nat) : Nat := 0x200040 + 0x4 * i
/-- `FAULT.SEV0` (R408). -/
def Reg.faultSev0 : Nat := 0x200100
/-- `SEV0.SRC01_15` [31:2] (R408). -/
def Fld.faultSev0Src0115 : Fd := ⟨Reg.faultSev0, 2, 30⟩
/-- `FAULT.SEV1` (R408). -/
def Reg.faultSev1 : Nat := 0x200104
/-- `SEV1.SRC16_21` [11:0] (R408). -/
def Fld.faultSev1Src1621 : Fd := ⟨Reg.faultSev1, 0, 12⟩
/-- `SEV1.SRC22` [13:12] (R408). -/
def Fld.faultSev1Src22 : Fd := ⟨Reg.faultSev1, 12, 2⟩
/-- `FAULT.SEV2_3` (R408). -/
def Reg.faultSev23 (i : Nat) : Nat := 0x200108 + 0x4 * i
/-- `FAULT.CNT` (R408). -/
def Reg.faultCnt (code : Nat) : Nat := 0x200200 + 0x4 * code
/-- `CNT.COUNT` [15:0] (R408). -/
def Fld.faultCntCount (code : Nat) : Fd := ⟨Reg.faultCnt code, 0, 16⟩

/-- The rows of block FAULT. -/
def RegRows.fault : List RegRow :=
  [⟨0x0, [], 0x0, 0x0, 0x80000000, [], 0x0, 0⟩,
   ⟨0x4, [], 0x0, 0x0, 0x0, [], 0x0, 0⟩,
   ⟨0x8, [], 0x0, 0x0, 0x0, [], 0x0, 1⟩,
   ⟨0xc, [], 0x0, 0x0, 0x0, [], 0x0, 0⟩,
   ⟨0x10, [], 0x0, 0x0, 0x1, [], 0x0, 0⟩,
   ⟨0x14, [], 0x2, 0xff03, 0x0, [], 0x0, 0⟩,
   ⟨0x18, [], 0x1, 0x1, 0x0, [], 0x0, 0⟩,
   ⟨0x1c, [], 0x0, 0x0, 0x0, [], 0x0, 0⟩,
   ⟨0x20, [], 0x0, 0x3f, 0x0, [], 0x0, 0⟩,
   ⟨0x24, [], 0x0, 0x0, 0x0, [(0, 16)], 0x0, 0⟩,
   ⟨0x28, [], 0x0, 0x0, 0x0, [], 0x0, 1⟩,
   ⟨0x2c, [], 0x0, 0x0, 0x0, [], 0x0, 0⟩,
   ⟨0x30, [], 0x0, 0x3fff, 0x0, [], 0x0, 0⟩,
   ⟨0x34, [], 0x0, 0xffffffff, 0x0, [], 0x0, 0⟩,
   ⟨0x40, [(0x4, 16)], 0x0, 0x0, 0x0, [], 0x0, 0⟩,
   ⟨0x100, [], 0xea6ae558, 0xfffffffc, 0x0, [], 0x0, 0⟩,
   ⟨0x104, [], 0x3be8, 0xfff, 0x0, [], 0x0, 0⟩,
   ⟨0x108, [(0x4, 2)], 0x0, 0x0, 0x0, [], 0x0, 0⟩,
   ⟨0x204, [(0x4, 22)], 0x0, 0x0, 0x0, [(0, 16)], 0x0, 0⟩]

/-! ### CFGSTORE (14_configuration_store.md) -/

/-- `CFGSTORE.STAT` (R364). -/
def Reg.cfgstoreStat : Nat := 0x300000
/-- `STAT.BOOT_SEL` [1:0] (R364). -/
def Fld.cfgstoreStatBootSel : Fd := ⟨Reg.cfgstoreStat, 0, 2⟩
/-- `STAT.PREF` [3:2] (R364). -/
def Fld.cfgstoreStatPref : Fd := ⟨Reg.cfgstoreStat, 2, 2⟩
/-- `STAT.VALID_A` [4:4] (R364). -/
def Fld.cfgstoreStatValidA : Fd := ⟨Reg.cfgstoreStat, 4, 1⟩
/-- `STAT.VALID_B` [5:5] (R364). -/
def Fld.cfgstoreStatValidB : Fd := ⟨Reg.cfgstoreStat, 5, 1⟩
/-- `STAT.KEYSLOT` [7:6] (R364). -/
def Fld.cfgstoreStatKeyslot : Fd := ⟨Reg.cfgstoreStat, 6, 2⟩
/-- `STAT.UNKNOWN` [8:8] (R364). -/
def Fld.cfgstoreStatUnknown : Fd := ⟨Reg.cfgstoreStat, 8, 1⟩
/-- `STAT.APPLY_FAIL` [9:9] (R364). -/
def Fld.cfgstoreStatApplyFail : Fd := ⟨Reg.cfgstoreStat, 9, 1⟩
/-- `STAT.APPLY_SECT` [13:10] (R364). -/
def Fld.cfgstoreStatApplySect : Fd := ⟨Reg.cfgstoreStat, 10, 4⟩
/-- `CFGSTORE.REASON` (R364). -/
def Reg.cfgstoreReason : Nat := 0x300004
/-- `REASON.A` [7:0] (R364). -/
def Fld.cfgstoreReasonA : Fd := ⟨Reg.cfgstoreReason, 0, 8⟩
/-- `REASON.B` [15:8] (R364). -/
def Fld.cfgstoreReasonB : Fd := ⟨Reg.cfgstoreReason, 8, 8⟩
/-- `CFGSTORE.SEQ_A_LO` (R364). -/
def Reg.cfgstoreSeqALo : Nat := 0x300008
/-- `CFGSTORE.SEQ_A_HI` (R364). -/
def Reg.cfgstoreSeqAHi : Nat := 0x30000c
/-- `CFGSTORE.SEQ_B_LO` (R364). -/
def Reg.cfgstoreSeqBLo : Nat := 0x300010
/-- `CFGSTORE.SEQ_B_HI` (R364). -/
def Reg.cfgstoreSeqBHi : Nat := 0x300014
/-- `CFGSTORE.CHECK` (R364). -/
def Reg.cfgstoreCheck : Nat := 0x300018
/-- `CHECK.GO` [0:0] (R364). -/
def Fld.cfgstoreCheckGo : Fd := ⟨Reg.cfgstoreCheck, 0, 1⟩
/-- `CHECK.COPY` [1:1] (R364). -/
def Fld.cfgstoreCheckCopy : Fd := ⟨Reg.cfgstoreCheck, 1, 1⟩
/-- `CHECK.BUSY` [2:2] (R364). -/
def Fld.cfgstoreCheckBusy : Fd := ⟨Reg.cfgstoreCheck, 2, 1⟩
/-- `CFGSTORE.FLASH_CTL` (R364). -/
def Reg.cfgstoreFlashCtl : Nat := 0x30001c
/-- `FLASH_CTL.OP` [1:0] (R364). -/
def Fld.cfgstoreFlashCtlOp : Fd := ⟨Reg.cfgstoreFlashCtl, 0, 2⟩
/-- `FLASH_CTL.GO` [2:2] (R364). -/
def Fld.cfgstoreFlashCtlGo : Fd := ⟨Reg.cfgstoreFlashCtl, 2, 1⟩
/-- `CFGSTORE.FLASH_ADDR` (R364). -/
def Reg.cfgstoreFlashAddr : Nat := 0x300020
/-- `FLASH_ADDR.PAGE` [25:8] (R364). -/
def Fld.cfgstoreFlashAddrPage : Fd := ⟨Reg.cfgstoreFlashAddr, 8, 18⟩
/-- `CFGSTORE.FLASH_STAT` (R364). -/
def Reg.cfgstoreFlashStat : Nat := 0x300024
/-- `FLASH_STAT.BUSY` [0:0] (R364). -/
def Fld.cfgstoreFlashStatBusy : Fd := ⟨Reg.cfgstoreFlashStat, 0, 1⟩
/-- `FLASH_STAT.REFUSED` [1:1] (R364). -/
def Fld.cfgstoreFlashStatRefused : Fd := ⟨Reg.cfgstoreFlashStat, 1, 1⟩
/-- `FLASH_STAT.CAUSE` [3:2] (R364). -/
def Fld.cfgstoreFlashStatCause : Fd := ⟨Reg.cfgstoreFlashStat, 2, 2⟩
/-- `CFGSTORE.FLASH_DATA` (R364). -/
def Reg.cfgstoreFlashData (i : Nat) : Nat := 0x300100 + 0x4 * i

/-- The rows of block CFGSTORE. -/
def RegRows.cfgstore : List RegRow :=
  [⟨0x0, [], 0x0, 0x0, 0x0, [], 0x0, 0⟩,
   ⟨0x4, [], 0x101, 0x0, 0x0, [], 0x0, 0⟩,
   ⟨0x8, [], 0x0, 0x0, 0x0, [], 0x0, 1⟩,
   ⟨0xc, [], 0x0, 0x0, 0x0, [], 0x0, 0⟩,
   ⟨0x10, [], 0x0, 0x0, 0x0, [], 0x0, 1⟩,
   ⟨0x14, [], 0x0, 0x0, 0x0, [], 0x0, 0⟩,
   ⟨0x18, [], 0x0, 0x2, 0x0, [], 0x0, 0⟩,
   ⟨0x1c, [], 0x0, 0x3, 0x0, [], 0x0, 0⟩,
   ⟨0x20, [], 0x0, 0x3ffff00, 0x0, [], 0x0, 0⟩,
   ⟨0x24, [], 0x0, 0x0, 0x2, [], 0x0, 0⟩,
   ⟨0x100, [(0x4, 64)], 0x0, 0xffffffff, 0x0, [], 0x0, 0⟩]

/-! ### PORT (02_ports_and_protocols.md) -/

/-- `PORT.CFG` (R51). -/
def Reg.portCfg (i : Nat) : Nat := 0x400000 + 0x10000 * i
/-- `CFG.MODE` [1:0] (R51). -/
def Fld.portCfgMode (i : Nat) : Fd := ⟨Reg.portCfg i, 0, 2⟩
/-- `CFG.REFUSED` [2:2] (R51). -/
def Fld.portCfgRefused (i : Nat) : Fd := ⟨Reg.portCfg i, 2, 1⟩
/-- `PORT.PIN_STAT` (R51). -/
def Reg.portPinStat (i : Nat) : Nat := 0x400004 + 0x10000 * i
/-- `PIN_STAT.PERST` [0:0] (R51). -/
def Fld.portPinStatPerst (i : Nat) : Fd := ⟨Reg.portPinStat i, 0, 1⟩
/-- `PIN_STAT.CLKREQ` [1:1] (R51). -/
def Fld.portPinStatClkreq (i : Nat) : Fd := ⟨Reg.portPinStat i, 1, 1⟩
/-- `PORT.GLOBAL_WAIT` (R51). -/
def Reg.portGlobalWait : Nat := 0x400008
/-- `GLOBAL_WAIT.MS` [15:0] (R51). -/
def Fld.portGlobalWaitMs : Fd := ⟨Reg.portGlobalWait, 0, 16⟩
/-- `PORT.LP_CTL` (R52). -/
def Reg.portLpCtl (lp : Nat) : Nat := 0x400100 + 0x10000 * (lp / 2) + 0x80 * (lp % 2)
/-- `LP_CTL.ENABLE` [0:0] (R52). -/
def Fld.portLpCtlEnable (lp : Nat) : Fd := ⟨Reg.portLpCtl lp, 0, 1⟩
/-- `LP_CTL.ROLE` [2:1] (R52). -/
def Fld.portLpCtlRole (lp : Nat) : Fd := ⟨Reg.portLpCtl lp, 1, 2⟩
/-- `LP_CTL.STEWARD_EP` [3:3] (R52). -/
def Fld.portLpCtlStewardEp (lp : Nat) : Fd := ⟨Reg.portLpCtl lp, 3, 1⟩
/-- `PORT.LP_TRAIN` (R52). -/
def Reg.portLpTrain (lp : Nat) : Nat := 0x400104 + 0x10000 * (lp / 2) + 0x80 * (lp % 2)
/-- `LP_TRAIN.MAX_SPEED` [2:0] (R52). -/
def Fld.portLpTrainMaxSpeed (lp : Nat) : Fd := ⟨Reg.portLpTrain lp, 0, 3⟩
/-- `LP_TRAIN.MIN_WIDTH` [7:3] (R52). -/
def Fld.portLpTrainMinWidth (lp : Nat) : Fd := ⟨Reg.portLpTrain lp, 3, 5⟩
/-- `LP_TRAIN.RETRY_MS` [23:8] (R52). -/
def Fld.portLpTrainRetryMs (lp : Nat) : Fd := ⟨Reg.portLpTrain lp, 8, 16⟩
/-- `PORT.LP_STAT` (R53). -/
def Reg.portLpStat (lp : Nat) : Nat := 0x400108 + 0x10000 * (lp / 2) + 0x80 * (lp % 2)
/-- `LP_STAT.LTSSM` [3:0] (R53). -/
def Fld.portLpStatLtssm (lp : Nat) : Fd := ⟨Reg.portLpStat lp, 0, 4⟩
/-- `LP_STAT.SPEED` [6:4] (R53). -/
def Fld.portLpStatSpeed (lp : Nat) : Fd := ⟨Reg.portLpStat lp, 4, 3⟩
/-- `LP_STAT.WIDTH` [11:7] (R53). -/
def Fld.portLpStatWidth (lp : Nat) : Fd := ⟨Reg.portLpStat lp, 7, 5⟩
/-- `LP_STAT.DLL_UP` [12:12] (R53). -/
def Fld.portLpStatDllUp (lp : Nat) : Fd := ⟨Reg.portLpStat lp, 12, 1⟩
/-- `LP_STAT.PRESENT` [13:13] (R53). -/
def Fld.portLpStatPresent (lp : Nat) : Fd := ⟨Reg.portLpStat lp, 13, 1⟩
/-- `LP_STAT.DPC` [14:14] (R53). -/
def Fld.portLpStatDpc (lp : Nat) : Fd := ⟨Reg.portLpStat lp, 14, 1⟩
/-- `PORT.LP_EVT` (R53). -/
def Reg.portLpEvt (lp : Nat) : Nat := 0x40010c + 0x10000 * (lp / 2) + 0x80 * (lp % 2)
/-- `LP_EVT.NOFLIT` [0:0] (R53). -/
def Fld.portLpEvtNoflit (lp : Nat) : Fd := ⟨Reg.portLpEvt lp, 0, 1⟩
/-- `LP_EVT.NARROW` [1:1] (R53). -/
def Fld.portLpEvtNarrow (lp : Nat) : Fd := ⟨Reg.portLpEvt lp, 1, 1⟩
/-- `LP_EVT.PRESENCE` [2:2] (R53). -/
def Fld.portLpEvtPresence (lp : Nat) : Fd := ⟨Reg.portLpEvt lp, 2, 1⟩
/-- `LP_EVT.LINKDOWN` [3:3] (R53). -/
def Fld.portLpEvtLinkdown (lp : Nat) : Fd := ⟨Reg.portLpEvt lp, 3, 1⟩
/-- `LP_EVT.UNSUP` [31:16] (R53). -/
def Fld.portLpEvtUnsup (lp : Nat) : Fd := ⟨Reg.portLpEvt lp, 16, 16⟩
/-- `PORT.LP_REL_CTL` (R78). -/
def Reg.portLpRelCtl (lp : Nat) : Nat := 0x400110 + 0x10000 * (lp / 2) + 0x80 * (lp % 2)
/-- `LP_REL_CTL.RECOV_MAX` [3:0] (R78). -/
def Fld.portLpRelCtlRecovMax (lp : Nat) : Fd := ⟨Reg.portLpRelCtl lp, 0, 4⟩
/-- `LP_REL_CTL.SPARE_EN` [4:4] (R78). -/
def Fld.portLpRelCtlSpareEn (lp : Nat) : Fd := ⟨Reg.portLpRelCtl lp, 4, 1⟩
/-- `LP_REL_CTL.SPARE_THR` [15:8] (R78). -/
def Fld.portLpRelCtlSpareThr (lp : Nat) : Fd := ⟨Reg.portLpRelCtl lp, 8, 8⟩
/-- `LP_REL_CTL.REPLAY_TMO` [27:16] (R78). -/
def Fld.portLpRelCtlReplayTmo (lp : Nat) : Fd := ⟨Reg.portLpRelCtl lp, 16, 12⟩
/-- `PORT.LP_FEC_CNT` (R78). -/
def Reg.portLpFecCnt (lp : Nat) : Nat := 0x400114 + 0x10000 * (lp / 2) + 0x80 * (lp % 2)
/-- `PORT.LP_CRC_CNT` (R78). -/
def Reg.portLpCrcCnt (lp : Nat) : Nat := 0x400118 + 0x10000 * (lp / 2) + 0x80 * (lp % 2)
/-- `LP_CRC_CNT.FAIL` [15:0] (R78). -/
def Fld.portLpCrcCntFail (lp : Nat) : Fd := ⟨Reg.portLpCrcCnt lp, 0, 16⟩
/-- `LP_CRC_CNT.BADLINK` [31:16] (R78). -/
def Fld.portLpCrcCntBadlink (lp : Nat) : Fd := ⟨Reg.portLpCrcCnt lp, 16, 16⟩
/-- `PORT.LP_REPLAY_CNT` (R78). -/
def Reg.portLpReplayCnt (lp : Nat) : Nat := 0x40011c + 0x10000 * (lp / 2) + 0x80 * (lp % 2)
/-- `LP_REPLAY_CNT.REPLAY` [15:0] (R78). -/
def Fld.portLpReplayCntReplay (lp : Nat) : Fd := ⟨Reg.portLpReplayCnt lp, 0, 16⟩
/-- `LP_REPLAY_CNT.RECOV` [31:16] (R78). -/
def Fld.portLpReplayCntRecov (lp : Nat) : Fd := ⟨Reg.portLpReplayCnt lp, 16, 16⟩
/-- `PORT.LP_SPARE` (R78). -/
def Reg.portLpSpare (lp : Nat) : Nat := 0x400120 + 0x10000 * (lp / 2) + 0x80 * (lp % 2)
/-- `LP_SPARE.S0_RX` [1:0] (R78). -/
def Fld.portLpSpareS0Rx (lp : Nat) : Fd := ⟨Reg.portLpSpare lp, 0, 2⟩
/-- `LP_SPARE.S0_RX_LANE` [5:2] (R78). -/
def Fld.portLpSpareS0RxLane (lp : Nat) : Fd := ⟨Reg.portLpSpare lp, 2, 4⟩
/-- `LP_SPARE.S0_TX` [7:6] (R78). -/
def Fld.portLpSpareS0Tx (lp : Nat) : Fd := ⟨Reg.portLpSpare lp, 6, 2⟩
/-- `LP_SPARE.S0_TX_LANE` [11:8] (R78). -/
def Fld.portLpSpareS0TxLane (lp : Nat) : Fd := ⟨Reg.portLpSpare lp, 8, 4⟩
/-- `LP_SPARE.S1_RX` [13:12] (R78). -/
def Fld.portLpSpareS1Rx (lp : Nat) : Fd := ⟨Reg.portLpSpare lp, 12, 2⟩
/-- `LP_SPARE.S1_RX_LANE` [17:14] (R78). -/
def Fld.portLpSpareS1RxLane (lp : Nat) : Fd := ⟨Reg.portLpSpare lp, 14, 4⟩
/-- `LP_SPARE.S1_TX` [19:18] (R78). -/
def Fld.portLpSpareS1Tx (lp : Nat) : Fd := ⟨Reg.portLpSpare lp, 18, 2⟩
/-- `LP_SPARE.S1_TX_LANE` [23:20] (R78). -/
def Fld.portLpSpareS1TxLane (lp : Nat) : Fd := ⟨Reg.portLpSpare lp, 20, 4⟩
/-- `PORT.LP_SPARE_CMD` (R78). -/
def Reg.portLpSpareCmd (lp : Nat) : Nat := 0x400124 + 0x10000 * (lp / 2) + 0x80 * (lp % 2)
/-- `LP_SPARE_CMD.LANE` [3:0] (R78). -/
def Fld.portLpSpareCmdLane (lp : Nat) : Fd := ⟨Reg.portLpSpareCmd lp, 0, 4⟩
/-- `LP_SPARE_CMD.GO` [4:4] (R78). -/
def Fld.portLpSpareCmdGo (lp : Nat) : Fd := ⟨Reg.portLpSpareCmd lp, 4, 1⟩
/-- `PORT.LP_DROP_STAT` (R78). -/
def Reg.portLpDropStat (lp : Nat) : Nat := 0x400128 + 0x10000 * (lp / 2) + 0x80 * (lp % 2)
/-- `LP_DROP_STAT.RD_POISON` [14:0] (R78). -/
def Fld.portLpDropStatRdPoison (lp : Nat) : Fd := ⟨Reg.portLpDropStat lp, 0, 15⟩
/-- `LP_DROP_STAT.BUSY` [15:15] (R78). -/
def Fld.portLpDropStatBusy (lp : Nat) : Fd := ⟨Reg.portLpDropStat lp, 15, 1⟩
/-- `LP_DROP_STAT.WR_SUSPECT` [30:16] (R78). -/
def Fld.portLpDropStatWrSuspect (lp : Nat) : Fd := ⟨Reg.portLpDropStat lp, 16, 15⟩
/-- `LP_DROP_STAT.PORT_SUSPECT` [31:31] (R78). -/
def Fld.portLpDropStatPortSuspect (lp : Nat) : Fd := ⟨Reg.portLpDropStat lp, 31, 1⟩
/-- `PORT.SUSPECT_STAT` (R79). -/
def Reg.portSuspectStat : Nat := 0x400200
/-- `SUSPECT_STAT.COUNT` [12:0] (R79). -/
def Fld.portSuspectStatCount : Fd := ⟨Reg.portSuspectStat, 0, 13⟩
/-- `SUSPECT_STAT.OVF` [13:13] (R79). -/
def Fld.portSuspectStatOvf : Fd := ⟨Reg.portSuspectStat, 13, 1⟩
/-- `PORT.SUSPECT_IDX` (R79). -/
def Reg.portSuspectIdx : Nat := 0x400204
/-- `SUSPECT_IDX.ENTRY` [11:0] (R79). -/
def Fld.portSuspectIdxEntry : Fd := ⟨Reg.portSuspectIdx, 0, 12⟩
/-- `PORT.SUSPECT_PG_LO` (R79). -/
def Reg.portSuspectPgLo : Nat := 0x400208
/-- `PORT.SUSPECT_PG_HI` (R79). -/
def Reg.portSuspectPgHi : Nat := 0x40020c
/-- `SUSPECT_PG_HI.PAGE` [7:0] (R79). -/
def Fld.portSuspectPgHiPage : Fd := ⟨Reg.portSuspectPgHi, 0, 8⟩
/-- `SUSPECT_PG_HI.LP` [13:8] (R79). -/
def Fld.portSuspectPgHiLp : Fd := ⟨Reg.portSuspectPgHi, 8, 6⟩
/-- `SUSPECT_PG_HI.VALID` [14:14] (R79). -/
def Fld.portSuspectPgHiValid : Fd := ⟨Reg.portSuspectPgHi, 14, 1⟩
/-- `PORT.SUSPECT_CLR` (R79). -/
def Reg.portSuspectClr : Nat := 0x400210
/-- `SUSPECT_CLR.LP` [5:0] (R79). -/
def Fld.portSuspectClrLp : Fd := ⟨Reg.portSuspectClr, 0, 6⟩
/-- `SUSPECT_CLR.ONE` [6:6] (R79). -/
def Fld.portSuspectClrOne : Fd := ⟨Reg.portSuspectClr, 6, 1⟩
/-- `SUSPECT_CLR.ALL` [7:7] (R79). -/
def Fld.portSuspectClrAll : Fd := ⟨Reg.portSuspectClr, 7, 1⟩

/-- The rows of block PORT. -/
def RegRows.port : List RegRow :=
  [⟨0x0, [(0x10000, 32)], 0x0, 0x3, 0x4, [], 0x0, 0⟩,
   ⟨0x4, [(0x10000, 32)], 0x1, 0x0, 0x0, [], 0x0, 0⟩,
   ⟨0x8, [], 0x64, 0xffff, 0x0, [], 0x0, 0⟩,
   ⟨0x100, [(0x10000, 32), (0x80, 2)], 0x0, 0xf, 0x0, [], 0x0, 0⟩,
   ⟨0x104, [(0x10000, 32)], 0x3e846, 0xffffff, 0x0, [], 0x0, 0⟩,
   ⟨0x184, [(0x10000, 32)], 0x3e826, 0xffffff, 0x0, [], 0x0, 0⟩,
   ⟨0x108, [(0x10000, 32), (0x80, 2)], 0x0, 0x0, 0x0, [], 0x0, 0⟩,
   ⟨0x10c, [(0x10000, 32), (0x80, 2)], 0x0, 0x0, 0xf, [(16, 16)], 0x0, 0⟩,
   ⟨0x110, [(0x10000, 32), (0x80, 2)], 0x2002018, 0xfffff1f, 0x0, [], 0x0, 0⟩,
   ⟨0x114, [(0x10000, 32), (0x80, 2)], 0x0, 0x0, 0x0, [(0, 32)], 0x0, 0⟩,
   ⟨0x118, [(0x10000, 32), (0x80, 2)], 0x0, 0x0, 0x0, [(0, 16), (16, 16)], 0x0, 0⟩,
   ⟨0x11c, [(0x10000, 32), (0x80, 2)], 0x0, 0x0, 0x0, [(0, 16), (16, 16)], 0x0, 0⟩,
   ⟨0x120, [(0x10000, 32), (0x80, 2)], 0x0, 0x0, 0x0, [], 0x0, 0⟩,
   ⟨0x124, [(0x10000, 32), (0x80, 2)], 0x0, 0x0, 0x0, [], 0x0, 0⟩,
   ⟨0x128, [(0x10000, 32), (0x80, 2)], 0x0, 0x0, 0x0, [(0, 15), (16, 15)], 0x0, 0⟩,
   ⟨0x200, [], 0x0, 0x0, 0x2000, [], 0x0, 0⟩,
   ⟨0x204, [], 0x0, 0xfff, 0x0, [], 0x0, 0⟩,
   ⟨0x208, [], 0x0, 0x0, 0x0, [], 0x0, 0⟩,
   ⟨0x20c, [], 0x0, 0x0, 0x0, [], 0x0, 0⟩,
   ⟨0x210, [], 0x0, 0x0, 0x0, [], 0x0, 0⟩]

/-! ### COULTER (05_coulter_engines.md) -/

/-- `COULTER.STAT` (R139). -/
def Reg.coulterStat (i : Nat) : Nat := 0x800000 + 0x20000 * i
/-- `STAT.MODE` [1:0] (R139). -/
def Fld.coulterStatMode (i : Nat) : Fd := ⟨Reg.coulterStat i, 0, 2⟩
/-- `STAT.REFUSED` [2:2] (R139). -/
def Fld.coulterStatRefused (i : Nat) : Fd := ⟨Reg.coulterStat i, 2, 1⟩
/-- `COULTER.LOAD_CTL` (R139). -/
def Reg.coulterLoadCtl (i : Nat) : Nat := 0x800004 + 0x20000 * i
/-- `LOAD_CTL.PROG` [3:0] (R139). -/
def Fld.coulterLoadCtlProg (i : Nat) : Fd := ⟨Reg.coulterLoadCtl i, 0, 4⟩
/-- `LOAD_CTL.GO` [4:4] (R139). -/
def Fld.coulterLoadCtlGo (i : Nat) : Fd := ⟨Reg.coulterLoadCtl i, 4, 1⟩
/-- `COULTER.LOAD_STAT` (R139). -/
def Reg.coulterLoadStat (i : Nat) : Nat := 0x800008 + 0x20000 * i
/-- `LOAD_STAT.BUSY` [0:0] (R139). -/
def Fld.coulterLoadStatBusy (i : Nat) : Fd := ⟨Reg.coulterLoadStat i, 0, 1⟩
/-- `LOAD_STAT.CODE` [15:8] (R139). -/
def Fld.coulterLoadStatCode (i : Nat) : Fd := ⟨Reg.coulterLoadStat i, 8, 8⟩
/-- `LOAD_STAT.WORD` [22:16] (R139). -/
def Fld.coulterLoadStatWord (i : Nat) : Fd := ⟨Reg.coulterLoadStat i, 16, 7⟩
/-- `LOAD_STAT.PROG` [26:23] (R139). -/
def Fld.coulterLoadStatProg (i : Nat) : Fd := ⟨Reg.coulterLoadStat i, 23, 4⟩
/-- `COULTER.COMMIT` (R139). -/
def Reg.coulterCommit (i : Nat) : Nat := 0x80000c + 0x20000 * i
/-- `COMMIT.PROG` [3:0] (R139). -/
def Fld.coulterCommitProg (i : Nat) : Fd := ⟨Reg.coulterCommit i, 0, 4⟩
/-- `COMMIT.GO` [4:4] (R139). -/
def Fld.coulterCommitGo (i : Nat) : Fd := ⟨Reg.coulterCommit i, 4, 1⟩
/-- `COULTER.COMMIT_STAT` (R139). -/
def Reg.coulterCommitStat (i : Nat) : Nat := 0x800010 + 0x20000 * i
/-- `COMMIT_STAT.PENDING` [0:0] (R139). -/
def Fld.coulterCommitStatPending (i : Nat) : Fd := ⟨Reg.coulterCommitStat i, 0, 1⟩
/-- `COMMIT_STAT.REFUSED` [1:1] (R139). -/
def Fld.coulterCommitStatRefused (i : Nat) : Fd := ⟨Reg.coulterCommitStat i, 1, 1⟩
/-- `COMMIT_STAT.PROG` [5:2] (R139). -/
def Fld.coulterCommitStatProg (i : Nat) : Fd := ⟨Reg.coulterCommitStat i, 2, 4⟩
/-- `COULTER.COMMIT_TICK_LO` (R139). -/
def Reg.coulterCommitTickLo (i : Nat) : Nat := 0x800014 + 0x20000 * i
/-- `COULTER.COMMIT_TICK_HI` (R139). -/
def Reg.coulterCommitTickHi (i : Nat) : Nat := 0x800018 + 0x20000 * i
/-- `COULTER.COMMIT_FURLONG_LO` (R139). -/
def Reg.coulterCommitFurlongLo (i : Nat) : Nat := 0x80001c + 0x20000 * i
/-- `COULTER.COMMIT_FURLONG_HI` (R139). -/
def Reg.coulterCommitFurlongHi (i : Nat) : Nat := 0x800020 + 0x20000 * i
/-- `COULTER.MSG_LO` (R140). -/
def Reg.coulterMsgLo (i : Nat) : Nat := 0x800040 + 0x20000 * i
/-- `COULTER.MSG_HI` (R140). -/
def Reg.coulterMsgHi (i : Nat) : Nat := 0x800044 + 0x20000 * i
/-- `COULTER.FIXED_LO` (R140). -/
def Reg.coulterFixedLo (i : Nat) : Nat := 0x800048 + 0x20000 * i
/-- `COULTER.FIXED_HI` (R140). -/
def Reg.coulterFixedHi (i : Nat) : Nat := 0x80004c + 0x20000 * i
/-- `COULTER.DISP` (R140). -/
def Reg.coulterDisp (i : Nat) : Nat := 0x800050 + 0x20000 * i
/-- `DISP.DROP` [7:0] (R140). -/
def Fld.coulterDispDrop (i : Nat) : Fd := ⟨Reg.coulterDisp i, 0, 8⟩
/-- `DISP.PSN` [15:8] (R140). -/
def Fld.coulterDispPsn (i : Nat) : Fd := ⟨Reg.coulterDisp i, 8, 8⟩
/-- `DISP.TRAP_OVF` [23:16] (R140). -/
def Fld.coulterDispTrapOvf (i : Nat) : Fd := ⟨Reg.coulterDisp i, 16, 8⟩
/-- `DISP.UNSOL` [31:24] (R140). -/
def Fld.coulterDispUnsol (i : Nat) : Fd := ⟨Reg.coulterDisp i, 24, 8⟩
/-- `COULTER.EXC` (R140). -/
def Reg.coulterExc (i : Nat) : Nat := 0x800054 + 0x20000 * i
/-- `EXC.KEY` [7:0] (R140). -/
def Fld.coulterExcKey (i : Nat) : Fd := ⟨Reg.coulterExc i, 0, 8⟩
/-- `EXC.TWIN` [15:8] (R140). -/
def Fld.coulterExcTwin (i : Nat) : Fd := ⟨Reg.coulterExc i, 8, 8⟩
/-- `EXC.ATOM` [23:16] (R140). -/
def Fld.coulterExcAtom (i : Nat) : Fd := ⟨Reg.coulterExc i, 16, 8⟩
/-- `EXC.NOPROG` [31:24] (R140). -/
def Fld.coulterExcNoprog (i : Nat) : Fd := ⟨Reg.coulterExc i, 24, 8⟩
/-- `COULTER.EIN` (R140). -/
def Reg.coulterEin (i : Nat) : Nat := 0x800058 + 0x20000 * i
/-- `EIN.MAX` [15:0] (R140). -/
def Fld.coulterEinMax (i : Nat) : Fd := ⟨Reg.coulterEin i, 0, 16⟩
/-- `EIN.WAITED` [31:16] (R140). -/
def Fld.coulterEinWaited (i : Nat) : Fd := ⟨Reg.coulterEin i, 16, 16⟩
/-- `COULTER.PROG_STAT` (R141). -/
def Reg.coulterProgStat (i j : Nat) : Nat := 0x800400 + 0x20000 * i + 0x20 * j
/-- `PROG_STAT.VALID_A` [0:0] (R141). -/
def Fld.coulterProgStatValidA (i j : Nat) : Fd := ⟨Reg.coulterProgStat i j, 0, 1⟩
/-- `PROG_STAT.VALID_B` [1:1] (R141). -/
def Fld.coulterProgStatValidB (i j : Nat) : Fd := ⟨Reg.coulterProgStat i j, 1, 1⟩
/-- `PROG_STAT.INFORCE` [2:2] (R141). -/
def Fld.coulterProgStatInforce (i j : Nat) : Fd := ⟨Reg.coulterProgStat i j, 2, 1⟩
/-- `PROG_STAT.PENDING` [3:3] (R141). -/
def Fld.coulterProgStatPending (i j : Nat) : Fd := ⟨Reg.coulterProgStat i j, 3, 1⟩
/-- `PROG_STAT.STAGES` [6:4] (R141). -/
def Fld.coulterProgStatStages (i j : Nat) : Fd := ⟨Reg.coulterProgStat i j, 4, 3⟩
/-- `PROG_STAT.LIVE` [7:7] (R141). -/
def Fld.coulterProgStatLive (i j : Nat) : Fd := ⟨Reg.coulterProgStat i j, 7, 1⟩
/-- `COULTER.SEQ_A_LO` (R141). -/
def Reg.coulterSeqALo (i j : Nat) : Nat := 0x800408 + 0x20000 * i + 0x20 * j
/-- `COULTER.SEQ_A_HI` (R141). -/
def Reg.coulterSeqAHi (i j : Nat) : Nat := 0x80040c + 0x20000 * i + 0x20 * j
/-- `COULTER.SEQ_B_LO` (R141). -/
def Reg.coulterSeqBLo (i j : Nat) : Nat := 0x800410 + 0x20000 * i + 0x20 * j
/-- `COULTER.SEQ_B_HI` (R141). -/
def Reg.coulterSeqBHi (i j : Nat) : Nat := 0x800414 + 0x20000 * i + 0x20 * j
/-- `COULTER.KCONST` (R141). -/
def Reg.coulterKconst (i j k l : Nat) : Nat := 0x800600 + 0x20000 * i + 0x20 * j + 0x10 * k + 0x4 * l
/-- `COULTER.CNT_LO` (R141). -/
def Reg.coulterCntLo (i j k : Nat) : Nat := 0x801000 + 0x20000 * i + 0x100 * j + 0x8 * k
/-- `COULTER.CNT_HI` (R141). -/
def Reg.coulterCntHi (i j k : Nat) : Nat := 0x801004 + 0x20000 * i + 0x100 * j + 0x8 * k
/-- `COULTER.STAGING` (R141). -/
def Reg.coulterStaging (i j : Nat) : Nat := 0x802000 + 0x20000 * i + 0x4 * j
/-- `COULTER.STORE` (R141). -/
def Reg.coulterStore (n p s w : Nat) : Nat := 0x808000 + 0x20000 * n + 0x800 * p + 0x400 * s + 0x8 * w
/-- `COULTER.HT_CTL` (R182). -/
def Reg.coulterHtCtl : Nat := 0x810000
/-- `HT_CTL.PROG` [3:0] (R182). -/
def Fld.coulterHtCtlProg : Fd := ⟨Reg.coulterHtCtl, 0, 4⟩
/-- `HT_CTL.SEED` [4:4] (R182). -/
def Fld.coulterHtCtlSeed : Fd := ⟨Reg.coulterHtCtl, 4, 1⟩
/-- `HT_CTL.BUSY` [5:5] (R182). -/
def Fld.coulterHtCtlBusy : Fd := ⟨Reg.coulterHtCtl, 5, 1⟩
/-- `COULTER.HT_COMMIT` (R182). -/
def Reg.coulterHtCommit : Nat := 0x810004
/-- `HT_COMMIT.PROG` [3:0] (R182). -/
def Fld.coulterHtCommitProg : Fd := ⟨Reg.coulterHtCommit, 0, 4⟩
/-- `HT_COMMIT.GO` [4:4] (R182). -/
def Fld.coulterHtCommitGo : Fd := ⟨Reg.coulterHtCommit, 4, 1⟩
/-- `COULTER.HT_STAT` (R182). -/
def Reg.coulterHtStat : Nat := 0x810008
/-- `HT_STAT.PENDING` [0:0] (R182). -/
def Fld.coulterHtStatPending : Fd := ⟨Reg.coulterHtStat, 0, 1⟩
/-- `HT_STAT.REFUSED` [1:1] (R182). -/
def Fld.coulterHtStatRefused : Fd := ⟨Reg.coulterHtStat, 1, 1⟩
/-- `HT_STAT.PROG` [5:2] (R182). -/
def Fld.coulterHtStatProg : Fd := ⟨Reg.coulterHtStat, 2, 4⟩
/-- `HT_STAT.VIOL` [7:6] (R182). -/
def Fld.coulterHtStatViol : Fd := ⟨Reg.coulterHtStat, 6, 2⟩
/-- `HT_STAT.PEND_MAP` [23:8] (R182). -/
def Fld.coulterHtStatPendMap : Fd := ⟨Reg.coulterHtStat, 8, 16⟩
/-- `COULTER.HT_COMMIT_TICK_LO` (R182). -/
def Reg.coulterHtCommitTickLo : Nat := 0x81000c
/-- `COULTER.HT_COMMIT_TICK_HI` (R182). -/
def Reg.coulterHtCommitTickHi : Nat := 0x810010
/-- `COULTER.HT_COMMIT_FURLONG_LO` (R182). -/
def Reg.coulterHtCommitFurlongLo : Nat := 0x810014
/-- `COULTER.HT_COMMIT_FURLONG_HI` (R182). -/
def Reg.coulterHtCommitFurlongHi : Nat := 0x810018
/-- `COULTER.HT_ALLOC_LOAD` (R182). -/
def Reg.coulterHtAllocLoad (p t : Nat) : Nat := 0x810100 + 0x10 * p + 0x4 * t
/-- `HT_ALLOC_LOAD.LOG2` [4:0] (R182). -/
def Fld.coulterHtAllocLoadLog2 (p t : Nat) : Fd := ⟨Reg.coulterHtAllocLoad p t, 0, 5⟩
/-- `HT_ALLOC_LOAD.BASE` [21:5] (R182). -/
def Fld.coulterHtAllocLoadBase (p t : Nat) : Fd := ⟨Reg.coulterHtAllocLoad p t, 5, 17⟩
/-- `COULTER.HT_ALLOC` (R182). -/
def Reg.coulterHtAlloc (p t : Nat) : Nat := 0x810200 + 0x10 * p + 0x4 * t
/-- `COULTER.HT_IDX` (R182). -/
def Reg.coulterHtIdx : Nat := 0x810400
/-- `HT_IDX.ENTRY` [16:0] (R182). -/
def Fld.coulterHtIdxEntry : Fd := ⟨Reg.coulterHtIdx, 0, 17⟩
/-- `HT_IDX.COPY` [17:17] (R182). -/
def Fld.coulterHtIdxCopy : Fd := ⟨Reg.coulterHtIdx, 17, 1⟩
/-- `COULTER.HT_KEY` (R182). -/
def Reg.coulterHtKey : Nat := 0x810404
/-- `COULTER.HT_DATA_LO` (R182). -/
def Reg.coulterHtDataLo : Nat := 0x810408
/-- `COULTER.HT_DATA_HI` (R182). -/
def Reg.coulterHtDataHi : Nat := 0x81040c
/-- `HT_DATA_HI.DATA` [30:0] (R182). -/
def Fld.coulterHtDataHiData : Fd := ⟨Reg.coulterHtDataHi, 0, 31⟩
/-- `HT_DATA_HI.VALID` [31:31] (R182). -/
def Fld.coulterHtDataHiValid : Fd := ⟨Reg.coulterHtDataHi, 31, 1⟩

/-- The rows of block COULTER, part 0. -/
def RegRows.coulter0 : List RegRow :=
  [⟨0x0, [(0x20000, 32)], 0x0, 0x0, 0x4, [], 0x0, 0⟩,
   ⟨0x4, [(0x20000, 32)], 0x0, 0x0, 0x0, [], 0x0, 0⟩,
   ⟨0x8, [(0x20000, 32)], 0x0, 0x0, 0x0, [], 0x0, 0⟩,
   ⟨0xc, [(0x20000, 32)], 0x0, 0x0, 0x0, [], 0x0, 0⟩,
   ⟨0x10, [(0x20000, 32)], 0x0, 0x0, 0x2, [], 0x0, 0⟩,
   ⟨0x14, [(0x20000, 32)], 0x0, 0x0, 0x0, [], 0x0, 1⟩,
   ⟨0x18, [(0x20000, 32)], 0x0, 0x0, 0x0, [], 0x0, 0⟩,
   ⟨0x1c, [(0x20000, 32)], 0x0, 0x0, 0x0, [], 0x0, 1⟩,
   ⟨0x20, [(0x20000, 32)], 0x0, 0x0, 0x0, [], 0x0, 0⟩,
   ⟨0x40, [(0x20000, 32)], 0x0, 0x0, 0x0, [], 0x0, 1⟩,
   ⟨0x44, [(0x20000, 32)], 0x0, 0x0, 0x0, [], 0x0, 0⟩,
   ⟨0x48, [(0x20000, 32)], 0x0, 0x0, 0x0, [], 0x0, 1⟩,
   ⟨0x4c, [(0x20000, 32)], 0x0, 0x0, 0x0, [], 0x0, 0⟩,
   ⟨0x50, [(0x20000, 32)], 0x0, 0x0, 0x0, [(0, 8), (8, 8), (16, 8), (24, 8)], 0x0, 0⟩,
   ⟨0x54, [(0x20000, 32)], 0x0, 0x0, 0x0, [(0, 8), (8, 8), (16, 8), (24, 8)], 0x0, 0⟩,
   ⟨0x58, [(0x20000, 32)], 0x0, 0x0, 0x0, [(0, 16), (16, 16)], 0x0, 0⟩,
   ⟨0x400, [(0x20000, 32), (0x20, 16)], 0x0, 0x0, 0x0, [], 0x0, 0⟩,
   ⟨0x408, [(0x20000, 32), (0x20, 16)], 0x0, 0x0, 0x0, [], 0x0, 1⟩,
   ⟨0x40c, [(0x20000, 32), (0x20, 16)], 0x0, 0x0, 0x0, [], 0x0, 0⟩,
   ⟨0x410, [(0x20000, 32), (0x20, 16)], 0x0, 0x0, 0x0, [], 0x0, 1⟩]

/-- The rows of block COULTER, part 1. -/
def RegRows.coulter1 : List RegRow :=
  [⟨0x414, [(0x20000, 32), (0x20, 16)], 0x0, 0x0, 0x0, [], 0x0, 0⟩,
   ⟨0x600, [(0x20000, 32), (0x20, 16), (0x10, 2), (0x4, 4)], 0x0, 0x0, 0x0, [], 0x0, 0⟩,
   ⟨0x1000, [(0x20000, 32), (0x100, 16), (0x8, 32)], 0x0, 0x0, 0x0, [(0, 32)], 0x0, 1⟩,
   ⟨0x1004, [(0x20000, 32), (0x100, 16), (0x8, 32)], 0x0, 0x0, 0xffffffff, [], 0x0, 0⟩,
   ⟨0x2000, [(0x20000, 32), (0x4, 2048)], 0x0, 0xffffffff, 0x0, [], 0x0, 0⟩,
   ⟨0x8000, [(0x20000, 32), (0x4, 8192)], 0x0, 0x0, 0x0, [], 0x0, 0⟩,
   ⟨0x10000, [], 0x0, 0xf, 0x0, [], 0x0, 0⟩,
   ⟨0x10004, [], 0x0, 0x0, 0x0, [], 0x0, 0⟩,
   ⟨0x10008, [], 0x0, 0x0, 0x2, [], 0x0, 0⟩,
   ⟨0x1000c, [], 0x0, 0x0, 0x0, [], 0x0, 1⟩,
   ⟨0x10010, [], 0x0, 0x0, 0x0, [], 0x0, 0⟩,
   ⟨0x10014, [], 0x0, 0x0, 0x0, [], 0x0, 1⟩,
   ⟨0x10018, [], 0x0, 0x0, 0x0, [], 0x0, 0⟩,
   ⟨0x10100, [(0x4, 64)], 0x0, 0x0, 0x0, [], 0x3fffff, 0⟩,
   ⟨0x10200, [(0x4, 64)], 0x0, 0x0, 0x0, [], 0x0, 0⟩,
   ⟨0x10400, [], 0x0, 0x3ffff, 0x0, [], 0x0, 0⟩,
   ⟨0x10404, [], 0x0, 0xffffffff, 0x0, [], 0x0, 0⟩,
   ⟨0x10408, [], 0x0, 0xffffffff, 0x0, [], 0x0, 0⟩,
   ⟨0x1040c, [], 0x0, 0xffffffff, 0x0, [], 0x0, 0⟩]

/-- The rows of block COULTER. -/
def RegRows.coulter : List RegRow := RegRows.coulter0 ++ RegRows.coulter1

/-! ### PLOT (04_plots_and_presented_devices.md) -/

/-- `PLOT.COMMIT` (R105). -/
def Reg.plotCommit : Nat := 0xc00000
/-- `COMMIT.GO` [0:0] (R105). -/
def Fld.plotCommitGo : Fd := ⟨Reg.plotCommit, 0, 1⟩
/-- `PLOT.COMMIT_STAT` (R105). -/
def Reg.plotCommitStat : Nat := 0xc00004
/-- `COMMIT_STAT.PENDING` [0:0] (R105). -/
def Fld.plotCommitStatPending : Fd := ⟨Reg.plotCommitStat, 0, 1⟩
/-- `COMMIT_STAT.REFUSED` [1:1] (R105). -/
def Fld.plotCommitStatRefused : Fd := ⟨Reg.plotCommitStat, 1, 1⟩
/-- `PLOT.COMMIT_TICK_LO` (R105). -/
def Reg.plotCommitTickLo : Nat := 0xc00008
/-- `PLOT.COMMIT_TICK_HI` (R105). -/
def Reg.plotCommitTickHi : Nat := 0xc0000c
/-- `PLOT.COMMIT_FURLONG_LO` (R105). -/
def Reg.plotCommitFurlongLo : Nat := 0xc00010
/-- `PLOT.COMMIT_FURLONG_HI` (R105). -/
def Reg.plotCommitFurlongHi : Nat := 0xc00014
/-- `PLOT.LOAD_STAT` (R105). -/
def Reg.plotLoadStat : Nat := 0xc00018
/-- `LOAD_STAT.VIOL` [7:0] (R105). -/
def Fld.plotLoadStatViol : Fd := ⟨Reg.plotLoadStat, 0, 8⟩
/-- `LOAD_STAT.INDEX` [24:8] (R105). -/
def Fld.plotLoadStatIndex : Fd := ⟨Reg.plotLoadStat, 8, 17⟩
/-- `PLOT.COPY_CTL` (R105). -/
def Reg.plotCopyCtl : Nat := 0xc0001c
/-- `COPY_CTL.SEED` [0:0] (R105). -/
def Fld.plotCopyCtlSeed : Fd := ⟨Reg.plotCopyCtl, 0, 1⟩
/-- `COPY_CTL.BUSY` [1:1] (R105). -/
def Fld.plotCopyCtlBusy : Fd := ⟨Reg.plotCopyCtl, 1, 1⟩
/-- `PLOT.FN_RESET` (R105). -/
def Reg.plotFnReset : Nat := 0xc00020
/-- `FN_RESET.FID` [11:0] (R105). -/
def Fld.plotFnResetFid : Fd := ⟨Reg.plotFnReset, 0, 12⟩
/-- `FN_RESET.GO` [12:12] (R105). -/
def Fld.plotFnResetGo : Fd := ⟨Reg.plotFnReset, 12, 1⟩
/-- `FN_RESET.VCS` [13:13] (R105). -/
def Fld.plotFnResetVcs : Fd := ⟨Reg.plotFnReset, 13, 1⟩
/-- `PLOT.TRK_TMO` (R105). -/
def Reg.plotTrkTmo : Nat := 0xc00024
/-- `TRK_TMO.MS` [5:0] (R105). -/
def Fld.plotTrkTmoMs : Fd := ⟨Reg.plotTrkTmo, 0, 6⟩
/-- `PLOT.GLEAN_LO` (R105). -/
def Reg.plotGleanLo : Nat := 0xc00028
/-- `PLOT.GLEAN_HI` (R105). -/
def Reg.plotGleanHi : Nat := 0xc0002c
/-- `PLOT.LATE` (R105). -/
def Reg.plotLate : Nat := 0xc00030
/-- `PLOT.HOLDOFF` (R105). -/
def Reg.plotHoldoff : Nat := 0xc00034
/-- `PLOT.PLOT_W0_LOAD` (R106). -/
def Reg.plotPlotW0Load (p : Nat) : Nat := 0xc10000 + 0x20 * p
/-- `PLOT_W0_LOAD.LIVE` [0:0] (R106). -/
def Fld.plotPlotW0LoadLive (p : Nat) : Fd := ⟨Reg.plotPlotW0Load p, 0, 1⟩
/-- `PLOT_W0_LOAD.FN_QUOTA` [13:1] (R106). -/
def Fld.plotPlotW0LoadFnQuota (p : Nat) : Fd := ⟨Reg.plotPlotW0Load p, 1, 13⟩
/-- `PLOT.PLOT_W1_LOAD` (R106). -/
def Reg.plotPlotW1Load (i : Nat) : Nat := 0xc10004 + 0x20 * i
/-- `PLOT_W1_LOAD.SC_BASE` [13:0] (R106). -/
def Fld.plotPlotW1LoadScBase (i : Nat) : Fd := ⟨Reg.plotPlotW1Load i, 0, 14⟩
/-- `PLOT_W1_LOAD.SC_CNT` [28:14] (R106). -/
def Fld.plotPlotW1LoadScCnt (i : Nat) : Fd := ⟨Reg.plotPlotW1Load i, 14, 15⟩
/-- `PLOT.PLOT_W2_LOAD` (R106). -/
def Reg.plotPlotW2Load (i : Nat) : Nat := 0xc10008 + 0x20 * i
/-- `PLOT_W2_LOAD.HEDGE_BASE` [17:0] (R106). -/
def Fld.plotPlotW2LoadHedgeBase (i : Nat) : Fd := ⟨Reg.plotPlotW2Load i, 0, 18⟩
/-- `PLOT.PLOT_W3_LOAD` (R106). -/
def Reg.plotPlotW3Load (i : Nat) : Nat := 0xc1000c + 0x20 * i
/-- `PLOT_W3_LOAD.HEDGE_CNT` [18:0] (R106). -/
def Fld.plotPlotW3LoadHedgeCnt (i : Nat) : Fd := ⟨Reg.plotPlotW3Load i, 0, 19⟩
/-- `PLOT.PLOT_W4_LOAD` (R106). -/
def Reg.plotPlotW4Load (i : Nat) : Nat := 0xc10010 + 0x20 * i
/-- `PLOT_W4_LOAD.XT_QUOTA` [17:0] (R106). -/
def Fld.plotPlotW4LoadXtQuota (i : Nat) : Fd := ⟨Reg.plotPlotW4Load i, 0, 18⟩
/-- `PLOT.PLOT_W5_LOAD` (R106). -/
def Reg.plotPlotW5Load (i : Nat) : Nat := 0xc10014 + 0x20 * i
/-- `PLOT_W5_LOAD.RETRY_CR` [10:0] (R106). -/
def Fld.plotPlotW5LoadRetryCr (i : Nat) : Fd := ⟨Reg.plotPlotW5Load i, 0, 11⟩
/-- `PLOT_W5_LOAD.BUF_QUOTA` [23:11] (R106). -/
def Fld.plotPlotW5LoadBufQuota (i : Nat) : Fd := ⟨Reg.plotPlotW5Load i, 11, 13⟩
/-- `PLOT.PLOT_W6_LOAD` (R106). -/
def Reg.plotPlotW6Load (i : Nat) : Nat := 0xc10018 + 0x20 * i
/-- `PLOT_W6_LOAD.PROG_MASK` [15:0] (R106). -/
def Fld.plotPlotW6LoadProgMask (i : Nat) : Fd := ⟨Reg.plotPlotW6Load i, 0, 16⟩
/-- `PLOT.PLOT_W0` (R106). -/
def Reg.plotPlotW0 (p : Nat) : Nat := 0xc30000 + 0x20 * p
/-- `PLOT_W0.LIVE` [0:0] (R106). -/
def Fld.plotPlotW0Live (p : Nat) : Fd := ⟨Reg.plotPlotW0 p, 0, 1⟩
/-- `PLOT_W0.FN_QUOTA` [13:1] (R106). -/
def Fld.plotPlotW0FnQuota (p : Nat) : Fd := ⟨Reg.plotPlotW0 p, 1, 13⟩
/-- `PLOT.PLOT_W1` (R106). -/
def Reg.plotPlotW1 (i : Nat) : Nat := 0xc30004 + 0x20 * i
/-- `PLOT_W1.SC_BASE` [13:0] (R106). -/
def Fld.plotPlotW1ScBase (i : Nat) : Fd := ⟨Reg.plotPlotW1 i, 0, 14⟩
/-- `PLOT_W1.SC_CNT` [28:14] (R106). -/
def Fld.plotPlotW1ScCnt (i : Nat) : Fd := ⟨Reg.plotPlotW1 i, 14, 15⟩
/-- `PLOT.PLOT_W2` (R106). -/
def Reg.plotPlotW2 (i : Nat) : Nat := 0xc30008 + 0x20 * i
/-- `PLOT_W2.HEDGE_BASE` [17:0] (R106). -/
def Fld.plotPlotW2HedgeBase (i : Nat) : Fd := ⟨Reg.plotPlotW2 i, 0, 18⟩
/-- `PLOT.PLOT_W3` (R106). -/
def Reg.plotPlotW3 (i : Nat) : Nat := 0xc3000c + 0x20 * i
/-- `PLOT_W3.HEDGE_CNT` [18:0] (R106). -/
def Fld.plotPlotW3HedgeCnt (i : Nat) : Fd := ⟨Reg.plotPlotW3 i, 0, 19⟩
/-- `PLOT.PLOT_W4` (R106). -/
def Reg.plotPlotW4 (i : Nat) : Nat := 0xc30010 + 0x20 * i
/-- `PLOT_W4.XT_QUOTA` [17:0] (R106). -/
def Fld.plotPlotW4XtQuota (i : Nat) : Fd := ⟨Reg.plotPlotW4 i, 0, 18⟩
/-- `PLOT.PLOT_W5` (R106). -/
def Reg.plotPlotW5 (i : Nat) : Nat := 0xc30014 + 0x20 * i
/-- `PLOT_W5.RETRY_CR` [10:0] (R106). -/
def Fld.plotPlotW5RetryCr (i : Nat) : Fd := ⟨Reg.plotPlotW5 i, 0, 11⟩
/-- `PLOT_W5.BUF_QUOTA` [23:11] (R106). -/
def Fld.plotPlotW5BufQuota (i : Nat) : Fd := ⟨Reg.plotPlotW5 i, 11, 13⟩
/-- `PLOT.PLOT_W6` (R106). -/
def Reg.plotPlotW6 (i : Nat) : Nat := 0xc30018 + 0x20 * i
/-- `PLOT_W6.PROG_MASK` [15:0] (R106). -/
def Fld.plotPlotW6ProgMask (i : Nat) : Fd := ⟨Reg.plotPlotW6 i, 0, 16⟩
/-- `PLOT.FN_W0_LOAD` (R107). -/
def Reg.plotFnW0Load (i : Nat) : Nat := 0xc60000 + 0x10 * i
/-- `FN_W0_LOAD.PLOT` [11:0] (R107). -/
def Fld.plotFnW0LoadPlot (i : Nat) : Fd := ⟨Reg.plotFnW0Load i, 0, 12⟩
/-- `FN_W0_LOAD.PROG` [15:12] (R107). -/
def Fld.plotFnW0LoadProg (i : Nat) : Fd := ⟨Reg.plotFnW0Load i, 12, 4⟩
/-- `FN_W0_LOAD.ASSIGN` [16:16] (R107). -/
def Fld.plotFnW0LoadAssign (i : Nat) : Fd := ⟨Reg.plotFnW0Load i, 16, 1⟩
/-- `FN_W0_LOAD.XSZ` [17:17] (R107). -/
def Fld.plotFnW0LoadXsz (i : Nat) : Fd := ⟨Reg.plotFnW0Load i, 17, 1⟩
/-- `PLOT.FN_W1_LOAD` (R107). -/
def Reg.plotFnW1Load (i : Nat) : Nat := 0xc60004 + 0x10 * i
/-- `FN_W1_LOAD.SC` [13:0] (R107). -/
def Fld.plotFnW1LoadSc (i : Nat) : Fd := ⟨Reg.plotFnW1Load i, 0, 14⟩
/-- `PLOT.FN_W2_LOAD` (R107). -/
def Reg.plotFnW2Load (i : Nat) : Nat := 0xc60008 + 0x10 * i
/-- `FN_W2_LOAD.XT_BASE` [16:0] (R107). -/
def Fld.plotFnW2LoadXtBase (i : Nat) : Fd := ⟨Reg.plotFnW2Load i, 0, 17⟩
/-- `PLOT.FN_W3_LOAD` (R107). -/
def Reg.plotFnW3Load (i : Nat) : Nat := 0xc6000c + 0x10 * i
/-- `FN_W3_LOAD.XT_CNT` [17:0] (R107). -/
def Fld.plotFnW3LoadXtCnt (i : Nat) : Fd := ⟨Reg.plotFnW3Load i, 0, 18⟩
/-- `PLOT.FN_W0` (R107). -/
def Reg.plotFnW0 (i : Nat) : Nat := 0xc70000 + 0x10 * i
/-- `FN_W0.PLOT` [11:0] (R107). -/
def Fld.plotFnW0Plot (i : Nat) : Fd := ⟨Reg.plotFnW0 i, 0, 12⟩
/-- `FN_W0.PROG` [15:12] (R107). -/
def Fld.plotFnW0Prog (i : Nat) : Fd := ⟨Reg.plotFnW0 i, 12, 4⟩
/-- `FN_W0.ASSIGN` [16:16] (R107). -/
def Fld.plotFnW0Assign (i : Nat) : Fd := ⟨Reg.plotFnW0 i, 16, 1⟩
/-- `FN_W0.XSZ` [17:17] (R107). -/
def Fld.plotFnW0Xsz (i : Nat) : Fd := ⟨Reg.plotFnW0 i, 17, 1⟩
/-- `PLOT.FN_W1` (R107). -/
def Reg.plotFnW1 (i : Nat) : Nat := 0xc70004 + 0x10 * i
/-- `FN_W1.SC` [13:0] (R107). -/
def Fld.plotFnW1Sc (i : Nat) : Fd := ⟨Reg.plotFnW1 i, 0, 14⟩
/-- `PLOT.FN_W2` (R107). -/
def Reg.plotFnW2 (i : Nat) : Nat := 0xc70008 + 0x10 * i
/-- `FN_W2.XT_BASE` [16:0] (R107). -/
def Fld.plotFnW2XtBase (i : Nat) : Fd := ⟨Reg.plotFnW2 i, 0, 17⟩
/-- `PLOT.FN_W3` (R107). -/
def Reg.plotFnW3 (i : Nat) : Nat := 0xc7000c + 0x10 * i
/-- `FN_W3.XT_CNT` [17:0] (R107). -/
def Fld.plotFnW3XtCnt (i : Nat) : Fd := ⟨Reg.plotFnW3 i, 0, 18⟩
/-- `PLOT.FN_LIVE0` (R108). -/
def Reg.plotFnLive0 (i : Nat) : Nat := 0xc80000 + 0x8 * i
/-- `FN_LIVE0.STATE` [1:0] (R108). -/
def Fld.plotFnLive0State (i : Nat) : Fd := ⟨Reg.plotFnLive0 i, 0, 2⟩
/-- `FN_LIVE0.HELD` [2:2] (R108). -/
def Fld.plotFnLive0Held (i : Nat) : Fd := ⟨Reg.plotFnLive0 i, 2, 1⟩
/-- `FN_LIVE0.GEN` [31:16] (R108). -/
def Fld.plotFnLive0Gen (i : Nat) : Fd := ⟨Reg.plotFnLive0 i, 16, 16⟩
/-- `PLOT.FN_LIVE1` (R108). -/
def Reg.plotFnLive1 (i : Nat) : Nat := 0xc80004 + 0x8 * i
/-- `FN_LIVE1.OLDCNT` [15:0] (R108). -/
def Fld.plotFnLive1Oldcnt (i : Nat) : Fd := ⟨Reg.plotFnLive1 i, 0, 16⟩
/-- `FN_LIVE1.GLEAN` [31:16] (R108). -/
def Fld.plotFnLive1Glean (i : Nat) : Fd := ⟨Reg.plotFnLive1 i, 16, 16⟩
/-- `PLOT.VCS_W0_LOAD` (R107). -/
def Reg.plotVcsW0Load (i : Nat) : Nat := 0xc90000 + 0x10 * i
/-- `VCS_W0_LOAD.PLOT` [11:0] (R107). -/
def Fld.plotVcsW0LoadPlot (i : Nat) : Fd := ⟨Reg.plotVcsW0Load i, 0, 12⟩
/-- `VCS_W0_LOAD.PROG` [15:12] (R107). -/
def Fld.plotVcsW0LoadProg (i : Nat) : Fd := ⟨Reg.plotVcsW0Load i, 12, 4⟩
/-- `PLOT.VCS_W1_LOAD` (R107). -/
def Reg.plotVcsW1Load (i : Nat) : Nat := 0xc90004 + 0x10 * i
/-- `VCS_W1_LOAD.SC` [13:0] (R107). -/
def Fld.plotVcsW1LoadSc (i : Nat) : Fd := ⟨Reg.plotVcsW1Load i, 0, 14⟩
/-- `PLOT.VCS_W0` (R107). -/
def Reg.plotVcsW0 (i : Nat) : Nat := 0xc90400 + 0x10 * i
/-- `VCS_W0.PLOT` [11:0] (R107). -/
def Fld.plotVcsW0Plot (i : Nat) : Fd := ⟨Reg.plotVcsW0 i, 0, 12⟩
/-- `VCS_W0.PROG` [15:12] (R107). -/
def Fld.plotVcsW0Prog (i : Nat) : Fd := ⟨Reg.plotVcsW0 i, 12, 4⟩
/-- `PLOT.VCS_W1` (R107). -/
def Reg.plotVcsW1 (i : Nat) : Nat := 0xc90404 + 0x10 * i
/-- `VCS_W1.SC` [13:0] (R107). -/
def Fld.plotVcsW1Sc (i : Nat) : Fd := ⟨Reg.plotVcsW1 i, 0, 14⟩
/-- `PLOT.VCS_LIVE0` (R108). -/
def Reg.plotVcsLive0 (i : Nat) : Nat := 0xc90800 + 0x8 * i
/-- `VCS_LIVE0.STATE` [1:0] (R108). -/
def Fld.plotVcsLive0State (i : Nat) : Fd := ⟨Reg.plotVcsLive0 i, 0, 2⟩
/-- `VCS_LIVE0.HELD` [2:2] (R108). -/
def Fld.plotVcsLive0Held (i : Nat) : Fd := ⟨Reg.plotVcsLive0 i, 2, 1⟩
/-- `VCS_LIVE0.GEN` [31:16] (R108). -/
def Fld.plotVcsLive0Gen (i : Nat) : Fd := ⟨Reg.plotVcsLive0 i, 16, 16⟩
/-- `PLOT.VCS_LIVE1` (R108). -/
def Reg.plotVcsLive1 (i : Nat) : Nat := 0xc90804 + 0x8 * i
/-- `VCS_LIVE1.OLDCNT` [15:0] (R108). -/
def Fld.plotVcsLive1Oldcnt (i : Nat) : Fd := ⟨Reg.plotVcsLive1 i, 0, 16⟩
/-- `VCS_LIVE1.GLEAN` [31:16] (R108). -/
def Fld.plotVcsLive1Glean (i : Nat) : Fd := ⟨Reg.plotVcsLive1 i, 16, 16⟩
/-- `PLOT.PLOT_GLEAN` (R108). -/
def Reg.plotPlotGlean (i : Nat) : Nat := 0xca0000 + 0x4 * i
/-- `PLOT.VPPB_LOAD` (R111). -/
def Reg.plotVppbLoad (i j : Nat) : Nat := 0xcb0000 + 0x80 * i + 0x4 * j
/-- `VPPB_LOAD.LP` [5:0] (R111). -/
def Fld.plotVppbLoadLp (i j : Nat) : Fd := ⟨Reg.plotVppbLoad i j, 0, 6⟩
/-- `VPPB_LOAD.LD` [9:6] (R111). -/
def Fld.plotVppbLoadLd (i j : Nat) : Fd := ⟨Reg.plotVppbLoad i j, 6, 4⟩
/-- `VPPB_LOAD.MLD` [10:10] (R111). -/
def Fld.plotVppbLoadMld (i j : Nat) : Fd := ⟨Reg.plotVppbLoad i j, 10, 1⟩
/-- `VPPB_LOAD.VALID` [11:11] (R111). -/
def Fld.plotVppbLoadValid (i j : Nat) : Fd := ⟨Reg.plotVppbLoad i j, 11, 1⟩
/-- `PLOT.VPPB` (R111). -/
def Reg.plotVppb (i j : Nat) : Nat := 0xcc0000 + 0x80 * i + 0x4 * j
/-- `VPPB.LP` [5:0] (R111). -/
def Fld.plotVppbLp (i j : Nat) : Fd := ⟨Reg.plotVppb i j, 0, 6⟩
/-- `VPPB.LD` [9:6] (R111). -/
def Fld.plotVppbLd (i j : Nat) : Fd := ⟨Reg.plotVppb i j, 6, 4⟩
/-- `VPPB.MLD` [10:10] (R111). -/
def Fld.plotVppbMld (i j : Nat) : Fd := ⟨Reg.plotVppb i j, 10, 1⟩
/-- `VPPB.VALID` [11:11] (R111). -/
def Fld.plotVppbValid (i j : Nat) : Fd := ⟨Reg.plotVppb i j, 11, 1⟩

/-- The rows of block PLOT, part 0. -/
def RegRows.plot0 : List RegRow :=
  [⟨0x0, [], 0x0, 0x0, 0x0, [], 0x0, 0⟩,
   ⟨0x4, [], 0x0, 0x0, 0x2, [], 0x0, 0⟩,
   ⟨0x8, [], 0x0, 0x0, 0x0, [], 0x0, 1⟩,
   ⟨0xc, [], 0x0, 0x0, 0x0, [], 0x0, 0⟩,
   ⟨0x10, [], 0x0, 0x0, 0x0, [], 0x0, 1⟩,
   ⟨0x14, [], 0x0, 0x0, 0x0, [], 0x0, 0⟩,
   ⟨0x18, [], 0x0, 0x0, 0x0, [], 0x0, 0⟩,
   ⟨0x1c, [], 0x0, 0x0, 0x0, [], 0x0, 0⟩,
   ⟨0x20, [], 0x0, 0x0, 0x0, [], 0x0, 0⟩,
   ⟨0x24, [], 0xa, 0x3f, 0x0, [], 0x0, 0⟩,
   ⟨0x28, [], 0x0, 0x0, 0x0, [], 0x0, 1⟩,
   ⟨0x2c, [], 0x0, 0x0, 0x0, [], 0x0, 0⟩,
   ⟨0x30, [], 0x0, 0x0, 0x0, [(0, 32)], 0x0, 0⟩,
   ⟨0x34, [], 0x0, 0x0, 0xffffffff, [], 0x0, 0⟩,
   ⟨0x10000, [], 0x1, 0x0, 0x0, [], 0x3fff, 0⟩,
   ⟨0x10020, [(0x20, 4095)], 0x0, 0x0, 0x0, [], 0x3fff, 0⟩,
   ⟨0x10004, [(0x20, 4096)], 0x0, 0x0, 0x0, [], 0x1fffffff, 0⟩,
   ⟨0x10008, [(0x20, 4096)], 0x0, 0x0, 0x0, [], 0x3ffff, 0⟩,
   ⟨0x1000c, [(0x20, 4096)], 0x0, 0x0, 0x0, [], 0x7ffff, 0⟩,
   ⟨0x10010, [(0x20, 4096)], 0x0, 0x0, 0x0, [], 0x3ffff, 0⟩]

/-- The rows of block PLOT, part 1. -/
def RegRows.plot1 : List RegRow :=
  [⟨0x10014, [(0x20, 4096)], 0x0, 0x0, 0x0, [], 0xffffff, 0⟩,
   ⟨0x10018, [(0x20, 4096)], 0x0, 0x0, 0x0, [], 0xffff, 0⟩,
   ⟨0x30000, [], 0x1, 0x0, 0x0, [], 0x0, 0⟩,
   ⟨0x30020, [(0x20, 4095)], 0x0, 0x0, 0x0, [], 0x0, 0⟩,
   ⟨0x30004, [(0x20, 4096)], 0x0, 0x0, 0x0, [], 0x0, 0⟩,
   ⟨0x30008, [(0x20, 4096)], 0x0, 0x0, 0x0, [], 0x0, 0⟩,
   ⟨0x3000c, [(0x20, 4096)], 0x0, 0x0, 0x0, [], 0x0, 0⟩,
   ⟨0x30010, [(0x20, 4096)], 0x0, 0x0, 0x0, [], 0x0, 0⟩,
   ⟨0x30014, [(0x20, 4096)], 0x0, 0x0, 0x0, [], 0x0, 0⟩,
   ⟨0x30018, [(0x20, 4096)], 0x0, 0x0, 0x0, [], 0x0, 0⟩,
   ⟨0x60000, [(0x10, 4096)], 0x0, 0x0, 0x0, [], 0x3ffff, 0⟩,
   ⟨0x60004, [(0x10, 4096)], 0x0, 0x0, 0x0, [], 0x3fff, 0⟩,
   ⟨0x60008, [(0x10, 4096)], 0x0, 0x0, 0x0, [], 0x1ffff, 0⟩,
   ⟨0x6000c, [(0x10, 4096)], 0x0, 0x0, 0x0, [], 0x3ffff, 0⟩,
   ⟨0x70000, [(0x10, 4096)], 0x0, 0x0, 0x0, [], 0x0, 0⟩,
   ⟨0x70004, [(0x10, 4096)], 0x0, 0x0, 0x0, [], 0x0, 0⟩,
   ⟨0x70008, [(0x10, 4096)], 0x0, 0x0, 0x0, [], 0x0, 0⟩,
   ⟨0x7000c, [(0x10, 4096)], 0x0, 0x0, 0x0, [], 0x0, 0⟩,
   ⟨0x80000, [(0x8, 4096)], 0x0, 0x0, 0x0, [], 0x0, 0⟩,
   ⟨0x80004, [(0x8, 4096)], 0x0, 0x0, 0x0, [(16, 16)], 0x0, 0⟩]

/-- The rows of block PLOT, part 2. -/
def RegRows.plot2 : List RegRow :=
  [⟨0x90000, [(0x10, 64)], 0x0, 0x0, 0x0, [], 0xffff, 0⟩,
   ⟨0x90004, [(0x10, 64)], 0x0, 0x0, 0x0, [], 0x3fff, 0⟩,
   ⟨0x90400, [(0x10, 64)], 0x0, 0x0, 0x0, [], 0x0, 0⟩,
   ⟨0x90404, [(0x10, 64)], 0x0, 0x0, 0x0, [], 0x0, 0⟩,
   ⟨0x90800, [(0x8, 64)], 0x0, 0x0, 0x0, [], 0x0, 0⟩,
   ⟨0x90804, [(0x8, 64)], 0x0, 0x0, 0x0, [(16, 16)], 0x0, 0⟩,
   ⟨0xa0000, [(0x4, 4096)], 0x0, 0x0, 0x0, [(0, 32)], 0x0, 0⟩,
   ⟨0xb0000, [(0x80, 64), (0x4, 30)], 0x0, 0x0, 0x0, [], 0xfff, 0⟩,
   ⟨0xc0000, [(0x80, 64), (0x4, 30)], 0x0, 0x0, 0x0, [], 0x0, 0⟩]

/-- The rows of block PLOT. -/
def RegRows.plot : List RegRow := RegRows.plot0 ++ RegRows.plot1 ++ RegRows.plot2

/-! ### HEDGE (08_access_rules.md) -/

/-- `HEDGE.COMMIT` (R206). -/
def Reg.hedgeCommit : Nat := 0x1000000
/-- `COMMIT.GO` [0:0] (R206). -/
def Fld.hedgeCommitGo : Fd := ⟨Reg.hedgeCommit, 0, 1⟩
/-- `HEDGE.COMMIT_STAT` (R206). -/
def Reg.hedgeCommitStat : Nat := 0x1000004
/-- `COMMIT_STAT.PENDING` [0:0] (R206). -/
def Fld.hedgeCommitStatPending : Fd := ⟨Reg.hedgeCommitStat, 0, 1⟩
/-- `COMMIT_STAT.REFUSED` [1:1] (R206). -/
def Fld.hedgeCommitStatRefused : Fd := ⟨Reg.hedgeCommitStat, 1, 1⟩
/-- `COMMIT_STAT.INFORCE` [2:2] (R206). -/
def Fld.hedgeCommitStatInforce : Fd := ⟨Reg.hedgeCommitStat, 2, 1⟩
/-- `COMMIT_STAT.DRAINING` [3:3] (R206). -/
def Fld.hedgeCommitStatDraining : Fd := ⟨Reg.hedgeCommitStat, 3, 1⟩
/-- `COMMIT_STAT.CAUSE` [5:4] (R206). -/
def Fld.hedgeCommitStatCause : Fd := ⟨Reg.hedgeCommitStat, 4, 2⟩
/-- `HEDGE.COMMIT_TICK_LO` (R206). -/
def Reg.hedgeCommitTickLo : Nat := 0x1000008
/-- `HEDGE.COMMIT_TICK_HI` (R206). -/
def Reg.hedgeCommitTickHi : Nat := 0x100000c
/-- `HEDGE.COMMIT_FURLONG_LO` (R206). -/
def Reg.hedgeCommitFurlongLo : Nat := 0x1000010
/-- `HEDGE.COMMIT_FURLONG_HI` (R206). -/
def Reg.hedgeCommitFurlongHi : Nat := 0x1000014
/-- `HEDGE.CHECK` (R206). -/
def Reg.hedgeCheck : Nat := 0x1000018
/-- `CHECK.GO` [0:0] (R206). -/
def Fld.hedgeCheckGo : Fd := ⟨Reg.hedgeCheck, 0, 1⟩
/-- `CHECK.BUSY` [1:1] (R206). -/
def Fld.hedgeCheckBusy : Fd := ⟨Reg.hedgeCheck, 1, 1⟩
/-- `CHECK.PASS` [2:2] (R206). -/
def Fld.hedgeCheckPass : Fd := ⟨Reg.hedgeCheck, 2, 1⟩
/-- `HEDGE.LOAD_STAT` (R206). -/
def Reg.hedgeLoadStat : Nat := 0x100001c
/-- `LOAD_STAT.VIOL` [7:0] (R206). -/
def Fld.hedgeLoadStatViol : Fd := ⟨Reg.hedgeLoadStat, 0, 8⟩
/-- `LOAD_STAT.INDEX` [25:8] (R206). -/
def Fld.hedgeLoadStatIndex : Fd := ⟨Reg.hedgeLoadStat, 8, 18⟩
/-- `HEDGE.COPY_CTL` (R206). -/
def Reg.hedgeCopyCtl : Nat := 0x1000020
/-- `COPY_CTL.SEED` [0:0] (R206). -/
def Fld.hedgeCopyCtlSeed : Fd := ⟨Reg.hedgeCopyCtl, 0, 1⟩
/-- `COPY_CTL.BUSY` [1:1] (R206). -/
def Fld.hedgeCopyCtlBusy : Fd := ⟨Reg.hedgeCopyCtl, 1, 1⟩
/-- `HEDGE.DRAIN` (R206). -/
def Reg.hedgeDrain : Nat := 0x1000024
/-- `DRAIN.DONE` [0:0] (R206). -/
def Fld.hedgeDrainDone : Fd := ⟨Reg.hedgeDrain, 0, 1⟩
/-- `DRAIN.OVERDUE` [1:1] (R206). -/
def Fld.hedgeDrainOverdue : Fd := ⟨Reg.hedgeDrain, 1, 1⟩
/-- `HEDGE.DRAIN_OLDCNT` (R206). -/
def Reg.hedgeDrainOldcnt : Nat := 0x1000028
/-- `HEDGE.DRAIN_TICK_LO` (R206). -/
def Reg.hedgeDrainTickLo : Nat := 0x100002c
/-- `HEDGE.DRAIN_TICK_HI` (R206). -/
def Reg.hedgeDrainTickHi : Nat := 0x1000030
/-- `HEDGE.DRAIN_TMO` (R206). -/
def Reg.hedgeDrainTmo : Nat := 0x1000034
/-- `DRAIN_TMO.MS` [15:0] (R206). -/
def Fld.hedgeDrainTmoMs : Fd := ⟨Reg.hedgeDrainTmo, 0, 16⟩
/-- `HEDGE.EPOCH` (R206). -/
def Reg.hedgeEpoch : Nat := 0x1000038
/-- `HEDGE.RULE_IDX` (R207). -/
def Reg.hedgeRuleIdx : Nat := 0x1000040
/-- `RULE_IDX.ENTRY` [17:0] (R207). -/
def Fld.hedgeRuleIdxEntry : Fd := ⟨Reg.hedgeRuleIdx, 0, 18⟩
/-- `RULE_IDX.COPY` [18:18] (R207). -/
def Fld.hedgeRuleIdxCopy : Fd := ⟨Reg.hedgeRuleIdx, 18, 1⟩
/-- `HEDGE.RULE_W` (R207). -/
def Reg.hedgeRuleW (i : Nat) : Nat := 0x1000044 + 0x4 * i
/-- `HEDGE.RD_DENY_LO` (R208). -/
def Reg.hedgeRdDenyLo : Nat := 0x1000060
/-- `HEDGE.RD_DENY_HI` (R208). -/
def Reg.hedgeRdDenyHi : Nat := 0x1000064
/-- `HEDGE.WR_DENY_LO` (R208). -/
def Reg.hedgeWrDenyLo : Nat := 0x1000068
/-- `HEDGE.WR_DENY_HI` (R208). -/
def Reg.hedgeWrDenyHi : Nat := 0x100006c
/-- `HEDGE.DEFAULT_LO` (R208). -/
def Reg.hedgeDefaultLo : Nat := 0x1000070
/-- `HEDGE.DEFAULT_HI` (R208). -/
def Reg.hedgeDefaultHi : Nat := 0x1000074
/-- `HEDGE.NOTICE` (R208). -/
def Reg.hedgeNotice (i : Nat) : Nat := 0x1000100 + 0x10 * i
/-- `NOTICE.OPEN` [0:0] (R208). -/
def Fld.hedgeNoticeOpen (i : Nat) : Fd := ⟨Reg.hedgeNotice i, 0, 1⟩
/-- `NOTICE.MULTI` [1:1] (R208). -/
def Fld.hedgeNoticeMulti (i : Nat) : Fd := ⟨Reg.hedgeNotice i, 1, 1⟩
/-- `NOTICE.PLOT` [13:2] (R208). -/
def Fld.hedgeNoticePlot (i : Nat) : Fd := ⟨Reg.hedgeNotice i, 2, 12⟩
/-- `NOTICE.SPACE` [15:14] (R208). -/
def Fld.hedgeNoticeSpace (i : Nat) : Fd := ⟨Reg.hedgeNotice i, 14, 2⟩
/-- `HEDGE.NOTICE_ADDR_LO` (R208). -/
def Reg.hedgeNoticeAddrLo (i : Nat) : Nat := 0x1000104 + 0x10 * i
/-- `HEDGE.NOTICE_ADDR_HI` (R208). -/
def Reg.hedgeNoticeAddrHi (i : Nat) : Nat := 0x1000108 + 0x10 * i
/-- `NOTICE_ADDR_HI.FIRST_ADDR_HI` [19:0] (R208). -/
def Fld.hedgeNoticeAddrHiFirstAddrHi (i : Nat) : Fd := ⟨Reg.hedgeNoticeAddrHi i, 0, 20⟩
/-- `HEDGE.NOTICE_COUNT` (R208). -/
def Reg.hedgeNoticeCount (i : Nat) : Nat := 0x100010c + 0x10 * i
/-- `HEDGE.NOTICE_OPEN_LO` (R208). -/
def Reg.hedgeNoticeOpenLo : Nat := 0x1000500
/-- `HEDGE.NOTICE_OPEN_HI` (R208). -/
def Reg.hedgeNoticeOpenHi : Nat := 0x1000504
/-- `HEDGE.PLOT_DENY` (R208). -/
def Reg.hedgePlotDeny (i : Nat) : Nat := 0x1001000 + 0x4 * i

/-- The rows of block HEDGE, part 0. -/
def RegRows.hedge0 : List RegRow :=
  [⟨0x0, [], 0x0, 0x0, 0x0, [], 0x0, 0⟩,
   ⟨0x4, [], 0x0, 0x0, 0x2, [], 0x0, 0⟩,
   ⟨0x8, [], 0x0, 0x0, 0x0, [], 0x0, 1⟩,
   ⟨0xc, [], 0x0, 0x0, 0x0, [], 0x0, 0⟩,
   ⟨0x10, [], 0x0, 0x0, 0x0, [], 0x0, 1⟩,
   ⟨0x14, [], 0x0, 0x0, 0x0, [], 0x0, 0⟩,
   ⟨0x18, [], 0x0, 0x0, 0x0, [], 0x0, 0⟩,
   ⟨0x1c, [], 0x0, 0x0, 0x0, [], 0x0, 0⟩,
   ⟨0x20, [], 0x0, 0x0, 0x0, [], 0x0, 0⟩,
   ⟨0x24, [], 0x1, 0x0, 0x2, [], 0x0, 0⟩,
   ⟨0x28, [], 0x0, 0x0, 0x0, [], 0x0, 0⟩,
   ⟨0x2c, [], 0x0, 0x0, 0x0, [], 0x0, 1⟩,
   ⟨0x30, [], 0x0, 0x0, 0x0, [], 0x0, 0⟩,
   ⟨0x34, [], 0x64, 0xffff, 0x0, [], 0x0, 0⟩,
   ⟨0x38, [], 0x0, 0x0, 0x0, [], 0x0, 0⟩,
   ⟨0x40, [], 0x0, 0x7ffff, 0x0, [], 0x0, 0⟩,
   ⟨0x44, [(0x4, 4)], 0x0, 0xffffffff, 0x0, [], 0x0, 0⟩,
   ⟨0x60, [], 0x0, 0x0, 0x0, [], 0x0, 1⟩,
   ⟨0x64, [], 0x0, 0x0, 0x0, [], 0x0, 0⟩,
   ⟨0x68, [], 0x0, 0x0, 0x0, [], 0x0, 1⟩]

/-- The rows of block HEDGE, part 1. -/
def RegRows.hedge1 : List RegRow :=
  [⟨0x6c, [], 0x0, 0x0, 0x0, [], 0x0, 0⟩,
   ⟨0x70, [], 0x0, 0x0, 0x0, [], 0x0, 1⟩,
   ⟨0x74, [], 0x0, 0x0, 0x0, [], 0x0, 0⟩,
   ⟨0x100, [(0x10, 64)], 0x0, 0x0, 0x1, [], 0x0, 0⟩,
   ⟨0x104, [(0x10, 64)], 0x0, 0x0, 0x0, [], 0x0, 0⟩,
   ⟨0x108, [(0x10, 64)], 0x0, 0x0, 0x0, [], 0x0, 0⟩,
   ⟨0x10c, [(0x10, 64)], 0x0, 0x0, 0x0, [], 0x0, 0⟩,
   ⟨0x500, [], 0x0, 0x0, 0x0, [], 0x0, 1⟩,
   ⟨0x504, [], 0x0, 0x0, 0x0, [], 0x0, 0⟩,
   ⟨0x1000, [(0x4, 4096)], 0x0, 0x0, 0x0, [(0, 32)], 0x0, 0⟩]

/-- The rows of block HEDGE. -/
def RegRows.hedge : List RegRow := RegRows.hedge0 ++ RegRows.hedge1

/-! ### EXTENT (04_plots_and_presented_devices.md) -/

/-- `EXTENT.POOL_W0_LOAD` (R110). -/
def Reg.extentPoolW0Load (i : Nat) : Nat := 0x1401000 + 0x10 * i
/-- `POOL_W0_LOAD.BASE` [23:0] (R110). -/
def Fld.extentPoolW0LoadBase (i : Nat) : Fd := ⟨Reg.extentPoolW0Load i, 0, 24⟩
/-- `POOL_W0_LOAD.XSZ` [24:24] (R110). -/
def Fld.extentPoolW0LoadXsz (i : Nat) : Fd := ⟨Reg.extentPoolW0Load i, 24, 1⟩
/-- `POOL_W0_LOAD.VALID` [25:25] (R110). -/
def Fld.extentPoolW0LoadValid (i : Nat) : Fd := ⟨Reg.extentPoolW0Load i, 25, 1⟩
/-- `EXTENT.POOL_W1_LOAD` (R110). -/
def Reg.extentPoolW1Load (i : Nat) : Nat := 0x1401004 + 0x10 * i
/-- `POOL_W1_LOAD.LEN` [24:0] (R110). -/
def Fld.extentPoolW1LoadLen (i : Nat) : Fd := ⟨Reg.extentPoolW1Load i, 0, 25⟩
/-- `EXTENT.POOL_W0` (R110). -/
def Reg.extentPoolW0 (i : Nat) : Nat := 0x1402000 + 0x10 * i
/-- `POOL_W0.BASE` [23:0] (R110). -/
def Fld.extentPoolW0Base (i : Nat) : Fd := ⟨Reg.extentPoolW0 i, 0, 24⟩
/-- `POOL_W0.XSZ` [24:24] (R110). -/
def Fld.extentPoolW0Xsz (i : Nat) : Fd := ⟨Reg.extentPoolW0 i, 24, 1⟩
/-- `POOL_W0.VALID` [25:25] (R110). -/
def Fld.extentPoolW0Valid (i : Nat) : Fd := ⟨Reg.extentPoolW0 i, 25, 1⟩
/-- `EXTENT.POOL_W1` (R110). -/
def Reg.extentPoolW1 (i : Nat) : Nat := 0x1402004 + 0x10 * i
/-- `POOL_W1.LEN` [24:0] (R110). -/
def Fld.extentPoolW1Len (i : Nat) : Fd := ⟨Reg.extentPoolW1 i, 0, 25⟩
/-- `EXTENT.MEMBER_W0_LOAD` (R110). -/
def Reg.extentMemberW0Load (pool m : Nat) : Nat := 0x1404000 + 0x100 * pool + 0x10 * m
/-- `MEMBER_W0_LOAD.OFF` [23:0] (R110). -/
def Fld.extentMemberW0LoadOff (pool m : Nat) : Fd := ⟨Reg.extentMemberW0Load pool m, 0, 24⟩
/-- `MEMBER_W0_LOAD.VALID` [24:24] (R110). -/
def Fld.extentMemberW0LoadValid (pool m : Nat) : Fd := ⟨Reg.extentMemberW0Load pool m, 24, 1⟩
/-- `EXTENT.MEMBER_W1_LOAD` (R110). -/
def Reg.extentMemberW1Load (pool m : Nat) : Nat := 0x1404004 + 0x100 * pool + 0x10 * m
/-- `MEMBER_W1_LOAD.LEN` [23:0] (R110). -/
def Fld.extentMemberW1LoadLen (pool m : Nat) : Fd := ⟨Reg.extentMemberW1Load pool m, 0, 24⟩
/-- `EXTENT.MEMBER_W2_LOAD` (R110). -/
def Reg.extentMemberW2Load (pool m : Nat) : Nat := 0x1404008 + 0x100 * pool + 0x10 * m
/-- `MEMBER_W2_LOAD.DPA_BASE` [23:0] (R110). -/
def Fld.extentMemberW2LoadDpaBase (pool m : Nat) : Fd := ⟨Reg.extentMemberW2Load pool m, 0, 24⟩
/-- `EXTENT.MEMBER_W3_LOAD` (R110). -/
def Reg.extentMemberW3Load (pool m : Nat) : Nat := 0x140400c + 0x100 * pool + 0x10 * m
/-- `MEMBER_W3_LOAD.LP` [5:0] (R110). -/
def Fld.extentMemberW3LoadLp (pool m : Nat) : Fd := ⟨Reg.extentMemberW3Load pool m, 0, 6⟩
/-- `MEMBER_W3_LOAD.LD` [9:6] (R110). -/
def Fld.extentMemberW3LoadLd (pool m : Nat) : Fd := ⟨Reg.extentMemberW3Load pool m, 6, 4⟩
/-- `MEMBER_W3_LOAD.MLD` [10:10] (R110). -/
def Fld.extentMemberW3LoadMld (pool m : Nat) : Fd := ⟨Reg.extentMemberW3Load pool m, 10, 1⟩
/-- `EXTENT.MEMBER_W0` (R110). -/
def Reg.extentMemberW0 (pool m : Nat) : Nat := 0x1408000 + 0x100 * pool + 0x10 * m
/-- `MEMBER_W0.OFF` [23:0] (R110). -/
def Fld.extentMemberW0Off (pool m : Nat) : Fd := ⟨Reg.extentMemberW0 pool m, 0, 24⟩
/-- `MEMBER_W0.VALID` [24:24] (R110). -/
def Fld.extentMemberW0Valid (pool m : Nat) : Fd := ⟨Reg.extentMemberW0 pool m, 24, 1⟩
/-- `EXTENT.MEMBER_W1` (R110). -/
def Reg.extentMemberW1 (pool m : Nat) : Nat := 0x1408004 + 0x100 * pool + 0x10 * m
/-- `MEMBER_W1.LEN` [23:0] (R110). -/
def Fld.extentMemberW1Len (pool m : Nat) : Fd := ⟨Reg.extentMemberW1 pool m, 0, 24⟩
/-- `EXTENT.MEMBER_W2` (R110). -/
def Reg.extentMemberW2 (pool m : Nat) : Nat := 0x1408008 + 0x100 * pool + 0x10 * m
/-- `MEMBER_W2.DPA_BASE` [23:0] (R110). -/
def Fld.extentMemberW2DpaBase (pool m : Nat) : Fd := ⟨Reg.extentMemberW2 pool m, 0, 24⟩
/-- `EXTENT.MEMBER_W3` (R110). -/
def Reg.extentMemberW3 (pool m : Nat) : Nat := 0x140800c + 0x100 * pool + 0x10 * m
/-- `MEMBER_W3.LP` [5:0] (R110). -/
def Fld.extentMemberW3Lp (pool m : Nat) : Fd := ⟨Reg.extentMemberW3 pool m, 0, 6⟩
/-- `MEMBER_W3.LD` [9:6] (R110). -/
def Fld.extentMemberW3Ld (pool m : Nat) : Fd := ⟨Reg.extentMemberW3 pool m, 6, 4⟩
/-- `MEMBER_W3.MLD` [10:10] (R110). -/
def Fld.extentMemberW3Mld (pool m : Nat) : Fd := ⟨Reg.extentMemberW3 pool m, 10, 1⟩
/-- `EXTENT.XT_W0_LOAD` (R109). -/
def Reg.extentXtW0Load (i : Nat) : Nat := 0x1420000 + 0x8 * i
/-- `XT_W0_LOAD.PXB` [23:0] (R109). -/
def Fld.extentXtW0LoadPxb (i : Nat) : Fd := ⟨Reg.extentXtW0Load i, 0, 24⟩
/-- `XT_W0_LOAD.POOL` [29:24] (R109). -/
def Fld.extentXtW0LoadPool (i : Nat) : Fd := ⟨Reg.extentXtW0Load i, 24, 6⟩
/-- `XT_W0_LOAD.COH` [30:30] (R109). -/
def Fld.extentXtW0LoadCoh (i : Nat) : Fd := ⟨Reg.extentXtW0Load i, 30, 1⟩
/-- `XT_W0_LOAD.VALID` [31:31] (R109). -/
def Fld.extentXtW0LoadValid (i : Nat) : Fd := ⟨Reg.extentXtW0Load i, 31, 1⟩
/-- `EXTENT.XT_W1_LOAD` (R109). -/
def Reg.extentXtW1Load (i : Nat) : Nat := 0x1420004 + 0x8 * i
/-- `XT_W1_LOAD.PLOT` [11:0] (R109). -/
def Fld.extentXtW1LoadPlot (i : Nat) : Fd := ⟨Reg.extentXtW1Load i, 0, 12⟩
/-- `XT_W1_LOAD.STATE` [13:12] (R109). -/
def Fld.extentXtW1LoadState (i : Nat) : Fd := ⟨Reg.extentXtW1Load i, 12, 2⟩
/-- `XT_W1_LOAD.ALT` [30:14] (R109). -/
def Fld.extentXtW1LoadAlt (i : Nat) : Fd := ⟨Reg.extentXtW1Load i, 14, 17⟩
/-- `EXTENT.XT_W0` (R109). -/
def Reg.extentXtW0 (i : Nat) : Nat := 0x1520000 + 0x8 * i
/-- `XT_W0.PXB` [23:0] (R109). -/
def Fld.extentXtW0Pxb (i : Nat) : Fd := ⟨Reg.extentXtW0 i, 0, 24⟩
/-- `XT_W0.POOL` [29:24] (R109). -/
def Fld.extentXtW0Pool (i : Nat) : Fd := ⟨Reg.extentXtW0 i, 24, 6⟩
/-- `XT_W0.COH` [30:30] (R109). -/
def Fld.extentXtW0Coh (i : Nat) : Fd := ⟨Reg.extentXtW0 i, 30, 1⟩
/-- `XT_W0.VALID` [31:31] (R109). -/
def Fld.extentXtW0Valid (i : Nat) : Fd := ⟨Reg.extentXtW0 i, 31, 1⟩
/-- `EXTENT.XT_W1` (R109). -/
def Reg.extentXtW1 (i : Nat) : Nat := 0x1520004 + 0x8 * i
/-- `XT_W1.PLOT` [11:0] (R109). -/
def Fld.extentXtW1Plot (i : Nat) : Fd := ⟨Reg.extentXtW1 i, 0, 12⟩
/-- `XT_W1.STATE` [13:12] (R109). -/
def Fld.extentXtW1State (i : Nat) : Fd := ⟨Reg.extentXtW1 i, 12, 2⟩
/-- `XT_W1.ALT` [30:14] (R109). -/
def Fld.extentXtW1Alt (i : Nat) : Fd := ⟨Reg.extentXtW1 i, 14, 17⟩

/-- The rows of block EXTENT. -/
def RegRows.extent : List RegRow :=
  [⟨0x1000, [(0x10, 64)], 0x0, 0x0, 0x0, [], 0x3ffffff, 0⟩,
   ⟨0x1004, [(0x10, 64)], 0x0, 0x0, 0x0, [], 0x1ffffff, 0⟩,
   ⟨0x2000, [(0x10, 64)], 0x0, 0x0, 0x0, [], 0x0, 0⟩,
   ⟨0x2004, [(0x10, 64)], 0x0, 0x0, 0x0, [], 0x0, 0⟩,
   ⟨0x4000, [(0x10, 1024)], 0x0, 0x0, 0x0, [], 0x1ffffff, 0⟩,
   ⟨0x4004, [(0x10, 1024)], 0x0, 0x0, 0x0, [], 0xffffff, 0⟩,
   ⟨0x4008, [(0x10, 1024)], 0x0, 0x0, 0x0, [], 0xffffff, 0⟩,
   ⟨0x400c, [(0x10, 1024)], 0x0, 0x0, 0x0, [], 0x7ff, 0⟩,
   ⟨0x8000, [(0x10, 1024)], 0x0, 0x0, 0x0, [], 0x0, 0⟩,
   ⟨0x8004, [(0x10, 1024)], 0x0, 0x0, 0x0, [], 0x0, 0⟩,
   ⟨0x8008, [(0x10, 1024)], 0x0, 0x0, 0x0, [], 0x0, 0⟩,
   ⟨0x800c, [(0x10, 1024)], 0x0, 0x0, 0x0, [], 0x0, 0⟩,
   ⟨0x20000, [(0x8, 131072)], 0x0, 0x0, 0x0, [], 0xffffffff, 0⟩,
   ⟨0x20004, [(0x8, 131072)], 0x0, 0x0, 0x0, [], 0x7fffffff, 0⟩,
   ⟨0x120000, [(0x8, 131072)], 0x0, 0x0, 0x0, [], 0x0, 0⟩,
   ⟨0x120004, [(0x8, 131072)], 0x0, 0x0, 0x0, [], 0x0, 0⟩]

/-! ### HOME (09_coherence_home.md) -/

/-- `HOME.SNP_TMO` (R240). -/
def Reg.homeSnpTmo : Nat := 0x1800000
/-- `SNP_TMO.US` [15:0] (R240). -/
def Fld.homeSnpTmoUs : Fd := ⟨Reg.homeSnpTmo, 0, 16⟩
/-- `HOME.STAT` (R240). -/
def Reg.homeStat : Nat := 0x1800004
/-- `STAT.CFN_REFUSED` [0:0] (R240). -/
def Fld.homeStatCfnRefused : Fd := ⟨Reg.homeStat, 0, 1⟩
/-- `STAT.HALTED` [1:1] (R240). -/
def Fld.homeStatHalted : Fd := ⟨Reg.homeStat, 1, 1⟩
/-- `HOME.SWEEP_LO` (R240). -/
def Reg.homeSweepLo : Nat := 0x1800008
/-- `HOME.SWEEP_HI` (R240). -/
def Reg.homeSweepHi : Nat := 0x180000c
/-- `HOME.OPEN` (R240). -/
def Reg.homeOpen : Nat := 0x1800010
/-- `OPEN.COUNT` [13:0] (R240). -/
def Fld.homeOpenCount : Fd := ⟨Reg.homeOpen, 0, 14⟩
/-- `HOME.PARKED` (R240). -/
def Reg.homeParked : Nat := 0x1800014
/-- `PARKED.CREDITED` [11:0] (R240). -/
def Fld.homeParkedCredited : Fd := ⟨Reg.homeParked, 0, 12⟩
/-- `PARKED.WAITING` [31:16] (R240). -/
def Fld.homeParkedWaiting : Fd := ⟨Reg.homeParked, 16, 16⟩
/-- `HOME.DIR_USED` (R240). -/
def Reg.homeDirUsed : Nat := 0x1800018
/-- `DIR_USED.COUNT` [21:0] (R240). -/
def Fld.homeDirUsedCount : Fd := ⟨Reg.homeDirUsed, 0, 22⟩
/-- `HOME.LOOKUP_LO` (R240). -/
def Reg.homeLookupLo : Nat := 0x1800020
/-- `HOME.LOOKUP_HI` (R240). -/
def Reg.homeLookupHi : Nat := 0x1800024
/-- `HOME.SNOOP_LO` (R240). -/
def Reg.homeSnoopLo : Nat := 0x1800028
/-- `HOME.SNOOP_HI` (R240). -/
def Reg.homeSnoopHi : Nat := 0x180002c
/-- `HOME.RETRY_CNT` (R241). -/
def Reg.homeRetryCnt : Nat := 0x1800030
/-- `RETRY_CNT.START` [7:0] (R241). -/
def Fld.homeRetryCntStart : Fd := ⟨Reg.homeRetryCnt, 0, 8⟩
/-- `RETRY_CNT.CONFLICT` [15:8] (R241). -/
def Fld.homeRetryCntConflict : Fd := ⟨Reg.homeRetryCnt, 8, 8⟩
/-- `RETRY_CNT.SETFULL` [23:16] (R241). -/
def Fld.homeRetryCntSetfull : Fd := ⟨Reg.homeRetryCnt, 16, 8⟩
/-- `RETRY_CNT.TABLE` [31:24] (R241). -/
def Fld.homeRetryCntTable : Fd := ⟨Reg.homeRetryCnt, 24, 8⟩
/-- `HOME.DEAD` (R241). -/
def Reg.homeDead : Nat := 0x1800034
/-- `DEAD.TIMEOUT` [15:0] (R241). -/
def Fld.homeDeadTimeout : Fd := ⟨Reg.homeDead, 0, 16⟩
/-- `DEAD.SWEPT` [31:16] (R241). -/
def Fld.homeDeadSwept : Fd := ⟨Reg.homeDead, 16, 16⟩
/-- `HOME.EXC` (R241). -/
def Reg.homeExc : Nat := 0x1800038
/-- `EXC.NOCFN` [7:0] (R241). -/
def Fld.homeExcNocfn : Fd := ⟨Reg.homeExc, 0, 8⟩
/-- `EXC.BI_STRAY` [15:8] (R241). -/
def Fld.homeExcBiStray : Fd := ⟨Reg.homeExc, 8, 8⟩
/-- `EXC.BADREQ` [23:16] (R241). -/
def Fld.homeExcBadreq : Fd := ⟨Reg.homeExc, 16, 8⟩
/-- `EXC.ATOM_LOCAL` [31:24] (R241). -/
def Fld.homeExcAtomLocal : Fd := ⟨Reg.homeExc, 24, 8⟩
/-- `HOME.ECC` (R241). -/
def Reg.homeEcc : Nat := 0x180003c
/-- `ECC.CORR` [15:0] (R241). -/
def Fld.homeEccCorr : Fd := ⟨Reg.homeEcc, 0, 16⟩
/-- `ECC.UNCORR` [23:16] (R241). -/
def Fld.homeEccUncorr : Fd := ⟨Reg.homeEcc, 16, 8⟩
/-- `ECC.RETIRED` [31:24] (R241). -/
def Fld.homeEccRetired : Fd := ⟨Reg.homeEcc, 24, 8⟩
/-- `HOME.ATOM` (R241). -/
def Reg.homeAtom : Nat := 0x1800040
/-- `ATOM.HOME` [15:0] (R241). -/
def Fld.homeAtomHome : Fd := ⟨Reg.homeAtom, 0, 16⟩
/-- `ATOM.FWD` [31:16] (R241). -/
def Fld.homeAtomFwd : Fd := ⟨Reg.homeAtom, 16, 16⟩
/-- `HOME.CFN` (R242). -/
def Reg.homeCfn (i : Nat) : Nat := 0x1800100 + 0x4 * i
/-- `CFN.FID` [11:0] (R242). -/
def Fld.homeCfnFid (i : Nat) : Fd := ⟨Reg.homeCfn i, 0, 12⟩
/-- `CFN.VALID` [12:12] (R242). -/
def Fld.homeCfnValid (i : Nat) : Fd := ⟨Reg.homeCfn i, 12, 1⟩
/-- `HOME.PORT_LINES` (R242). -/
def Reg.homePortLines (i : Nat) : Nat := 0x1800200 + 0x4 * i
/-- `PORT_LINES.COUNT` [21:0] (R242). -/
def Fld.homePortLinesCount (i : Nat) : Fd := ⟨Reg.homePortLines i, 0, 22⟩
/-- `HOME.DIR_IDX` (R242). -/
def Reg.homeDirIdx : Nat := 0x1800400
/-- `DIR_IDX.SET` [16:0] (R242). -/
def Fld.homeDirIdxSet : Fd := ⟨Reg.homeDirIdx, 0, 17⟩
/-- `DIR_IDX.WAY` [20:17] (R242). -/
def Fld.homeDirIdxWay : Fd := ⟨Reg.homeDirIdx, 17, 4⟩
/-- `HOME.DIR_W0` (R242). -/
def Reg.homeDirW0 : Nat := 0x1800404
/-- `DIR_W0.TAG` [27:0] (R242). -/
def Fld.homeDirW0Tag : Fd := ⟨Reg.homeDirW0, 0, 28⟩
/-- `DIR_W0.STATE` [30:28] (R242). -/
def Fld.homeDirW0State : Fd := ⟨Reg.homeDirW0, 28, 3⟩
/-- `DIR_W0.RETIRED` [31:31] (R242). -/
def Fld.homeDirW0Retired : Fd := ⟨Reg.homeDirW0, 31, 1⟩
/-- `HOME.DIR_W1` (R242). -/
def Reg.homeDirW1 : Nat := 0x1800408
/-- `HOME.DIR_W2` (R242). -/
def Reg.homeDirW2 : Nat := 0x180040c
/-- `HOME.DIR_W3` (R242). -/
def Reg.homeDirW3 : Nat := 0x1800410
/-- `DIR_W3.ECC` [8:0] (R242). -/
def Fld.homeDirW3Ecc : Fd := ⟨Reg.homeDirW3, 0, 9⟩

/-- The rows of block HOME, part 0. -/
def RegRows.home0 : List RegRow :=
  [⟨0x0, [], 0x3e8, 0xffff, 0x0, [], 0x0, 0⟩,
   ⟨0x4, [], 0x0, 0x0, 0x1, [], 0x0, 0⟩,
   ⟨0x8, [], 0x0, 0x0, 0x0, [], 0x0, 1⟩,
   ⟨0xc, [], 0x0, 0x0, 0x0, [], 0x0, 0⟩,
   ⟨0x10, [], 0x0, 0x0, 0x0, [], 0x0, 0⟩,
   ⟨0x14, [], 0x0, 0x0, 0x0, [], 0x0, 0⟩,
   ⟨0x18, [], 0x0, 0x0, 0x0, [], 0x0, 0⟩,
   ⟨0x20, [], 0x0, 0x0, 0x0, [], 0x0, 1⟩,
   ⟨0x24, [], 0x0, 0x0, 0x0, [], 0x0, 0⟩,
   ⟨0x28, [], 0x0, 0x0, 0x0, [], 0x0, 1⟩,
   ⟨0x2c, [], 0x0, 0x0, 0x0, [], 0x0, 0⟩,
   ⟨0x30, [], 0x0, 0x0, 0x0, [(0, 8), (8, 8), (16, 8), (24, 8)], 0x0, 0⟩,
   ⟨0x34, [], 0x0, 0x0, 0x0, [(0, 16), (16, 16)], 0x0, 0⟩,
   ⟨0x38, [], 0x0, 0x0, 0x0, [(0, 8), (8, 8), (16, 8), (24, 8)], 0x0, 0⟩,
   ⟨0x3c, [], 0x0, 0x0, 0x0, [(0, 16), (16, 8)], 0x0, 0⟩,
   ⟨0x40, [], 0x0, 0x0, 0x0, [(0, 16), (16, 16)], 0x0, 0⟩,
   ⟨0x100, [(0x4, 64)], 0x0, 0x1fff, 0x0, [], 0x0, 0⟩,
   ⟨0x200, [(0x4, 64)], 0x0, 0x0, 0x0, [], 0x0, 0⟩,
   ⟨0x400, [], 0x0, 0x1fffff, 0x0, [], 0x0, 0⟩,
   ⟨0x404, [], 0x0, 0x0, 0x0, [], 0x0, 0⟩]

/-- The rows of block HOME, part 1. -/
def RegRows.home1 : List RegRow :=
  [⟨0x408, [], 0x0, 0x0, 0x0, [], 0x0, 0⟩,
   ⟨0x40c, [], 0x0, 0x0, 0x0, [], 0x0, 0⟩,
   ⟨0x410, [], 0x0, 0x0, 0x0, [], 0x0, 0⟩]

/-- The rows of block HOME. -/
def RegRows.home : List RegRow := RegRows.home0 ++ RegRows.home1

/-! ### XBAR (10_crossbar_and_buffers.md) -/

/-- `XBAR.PTR` (R267). -/
def Reg.xbarPtr : Nat := 0x1a00000
/-- `PTR.PTR2` [5:0] (R267). -/
def Fld.xbarPtrPtr2 : Fd := ⟨Reg.xbarPtr, 0, 6⟩
/-- `PTR.PTR1` [13:8] (R267). -/
def Fld.xbarPtrPtr1 : Fd := ⟨Reg.xbarPtr, 8, 6⟩
/-- `PTR.PTR0` [21:16] (R267). -/
def Fld.xbarPtrPtr0 : Fd := ⟨Reg.xbarPtr, 16, 6⟩
/-- `XBAR.BUBBLE_LO` (R267). -/
def Reg.xbarBubbleLo : Nat := 0x1a00010
/-- `XBAR.BUBBLE_HI` (R267). -/
def Reg.xbarBubbleHi : Nat := 0x1a00014
/-- `XBAR.PREEMPT` (R267). -/
def Reg.xbarPreempt : Nat := 0x1a00018
/-- `PREEMPT.PREEMPT` [15:0] (R267). -/
def Fld.xbarPreemptPreempt : Fd := ⟨Reg.xbarPreempt, 0, 16⟩
/-- `PREEMPT.LOCK_WAIT` [31:16] (R267). -/
def Fld.xbarPreemptLockWait : Fd := ⟨Reg.xbarPreempt, 16, 16⟩
/-- `XBAR.OUT_BYTES_LO` (R267). -/
def Reg.xbarOutBytesLo (i : Nat) : Nat := 0x1a00100 + 0x8 * i
/-- `XBAR.OUT_BYTES_HI` (R267). -/
def Reg.xbarOutBytesHi (i : Nat) : Nat := 0x1a00104 + 0x8 * i
/-- `XBAR.IN_BYTES_LO` (R267). -/
def Reg.xbarInBytesLo (i : Nat) : Nat := 0x1a00200 + 0x8 * i
/-- `XBAR.IN_BYTES_HI` (R267). -/
def Reg.xbarInBytesHi (i : Nat) : Nat := 0x1a00204 + 0x8 * i

/-- The rows of block XBAR. -/
def RegRows.xbar : List RegRow :=
  [⟨0x0, [], 0x0, 0x0, 0x0, [], 0x0, 0⟩,
   ⟨0x10, [], 0x0, 0x0, 0x0, [], 0x0, 1⟩,
   ⟨0x14, [], 0x0, 0x0, 0x0, [], 0x0, 0⟩,
   ⟨0x18, [], 0x0, 0x0, 0x0, [(0, 16), (16, 16)], 0x0, 0⟩,
   ⟨0x100, [(0x8, 32)], 0x0, 0x0, 0x0, [], 0x0, 1⟩,
   ⟨0x104, [(0x8, 32)], 0x0, 0x0, 0x0, [], 0x0, 0⟩,
   ⟨0x200, [(0x8, 32)], 0x0, 0x0, 0x0, [], 0x0, 1⟩,
   ⟨0x204, [(0x8, 32)], 0x0, 0x0, 0x0, [], 0x0, 0⟩]

/-! ### BUFFER (10_crossbar_and_buffers.md) -/

/-- `BUFFER.COMMIT` (R268). -/
def Reg.bufferCommit : Nat := 0x1a40000
/-- `COMMIT.GO` [0:0] (R268). -/
def Fld.bufferCommitGo : Fd := ⟨Reg.bufferCommit, 0, 1⟩
/-- `BUFFER.COMMIT_STAT` (R268). -/
def Reg.bufferCommitStat : Nat := 0x1a40004
/-- `COMMIT_STAT.PENDING` [0:0] (R268). -/
def Fld.bufferCommitStatPending : Fd := ⟨Reg.bufferCommitStat, 0, 1⟩
/-- `COMMIT_STAT.REFUSED` [1:1] (R268). -/
def Fld.bufferCommitStatRefused : Fd := ⟨Reg.bufferCommitStat, 1, 1⟩
/-- `COMMIT_STAT.CAUSE` [3:2] (R268). -/
def Fld.bufferCommitStatCause : Fd := ⟨Reg.bufferCommitStat, 2, 2⟩
/-- `BUFFER.COMMIT_TICK_LO` (R268). -/
def Reg.bufferCommitTickLo : Nat := 0x1a40008
/-- `BUFFER.COMMIT_TICK_HI` (R268). -/
def Reg.bufferCommitTickHi : Nat := 0x1a4000c
/-- `BUFFER.COMMIT_FURLONG_LO` (R268). -/
def Reg.bufferCommitFurlongLo : Nat := 0x1a40010
/-- `BUFFER.COMMIT_FURLONG_HI` (R268). -/
def Reg.bufferCommitFurlongHi : Nat := 0x1a40014
/-- `BUFFER.USED` (R268). -/
def Reg.bufferUsed : Nat := 0x1a40018
/-- `USED.CELLS` [18:0] (R268). -/
def Fld.bufferUsedCells : Fd := ⟨Reg.bufferUsed, 0, 19⟩
/-- `BUFFER.RSV_USED` (R268). -/
def Reg.bufferRsvUsed : Nat := 0x1a4001c
/-- `RSV_USED.DEV` [12:0] (R268). -/
def Fld.bufferRsvUsedDev : Fd := ⟨Reg.bufferRsvUsed, 0, 13⟩
/-- `RSV_USED.HARROW` [23:13] (R268). -/
def Fld.bufferRsvUsedHarrow : Fd := ⟨Reg.bufferRsvUsed, 13, 11⟩
/-- `BUFFER.LIMIT_SUM` (R268). -/
def Reg.bufferLimitSum : Nat := 0x1a40020
/-- `LIMIT_SUM.CELLS` [24:0] (R268). -/
def Fld.bufferLimitSumCells : Fd := ⟨Reg.bufferLimitSum, 0, 25⟩
/-- `BUFFER.LIMIT_LOAD` (R268). -/
def Reg.bufferLimitLoad (i j : Nat) : Nat := 0x1a41000 + 0x20 * i + 0x4 * j
/-- `LIMIT_LOAD.CELLS` [18:0] (R268). -/
def Fld.bufferLimitLoadCells (i j : Nat) : Fd := ⟨Reg.bufferLimitLoad i j, 0, 19⟩
/-- `BUFFER.LIMIT` (R268). -/
def Reg.bufferLimit (i j : Nat) : Nat := 0x1a42000 + 0x20 * i + 0x4 * j
/-- `LIMIT.CELLS` [18:0] (R268). -/
def Fld.bufferLimitCells (i j : Nat) : Fd := ⟨Reg.bufferLimit i j, 0, 19⟩
/-- `BUFFER.OCC` (R268). -/
def Reg.bufferOcc (i j : Nat) : Nat := 0x1a43000 + 0x20 * i + 0x4 * j
/-- `OCC.CELLS` [18:0] (R268). -/
def Fld.bufferOccCells (i j : Nat) : Fd := ⟨Reg.bufferOcc i j, 0, 19⟩
/-- `OCC.HWM` [31:19] (R268). -/
def Fld.bufferOccHwm (i j : Nat) : Fd := ⟨Reg.bufferOcc i j, 19, 13⟩

/-- The rows of block BUFFER. -/
def RegRows.buffer : List RegRow :=
  [⟨0x0, [], 0x0, 0x0, 0x0, [], 0x0, 0⟩,
   ⟨0x4, [], 0x0, 0x0, 0x2, [], 0x0, 0⟩,
   ⟨0x8, [], 0x0, 0x0, 0x0, [], 0x0, 1⟩,
   ⟨0xc, [], 0x0, 0x0, 0x0, [], 0x0, 0⟩,
   ⟨0x10, [], 0x0, 0x0, 0x0, [], 0x0, 1⟩,
   ⟨0x14, [], 0x0, 0x0, 0x0, [], 0x0, 0⟩,
   ⟨0x18, [], 0x0, 0x0, 0x0, [], 0x0, 0⟩,
   ⟨0x1c, [], 0x0, 0x0, 0x0, [], 0x0, 0⟩,
   ⟨0x20, [], 0x0, 0x0, 0x0, [], 0x0, 0⟩,
   ⟨0x1000, [(0x20, 64), (0x4, 7)], 0x0, 0x0, 0x0, [], 0x7ffff, 0⟩,
   ⟨0x2000, [(0x20, 64), (0x4, 7)], 0x0, 0x0, 0x0, [], 0x0, 0⟩,
   ⟨0x3000, [(0x20, 64), (0x4, 7)], 0x0, 0x0, 0x0, [(19, 13)], 0x0, 0⟩]

/-! ### HARROW (10_crossbar_and_buffers.md) -/

/-- `HARROW.CTL` (R269). -/
def Reg.harrowCtl (i : Nat) : Nat := 0x1a80000 + 0x100 * i
/-- `CTL.GO` [0:0] (R269). -/
def Fld.harrowCtlGo (i : Nat) : Fd := ⟨Reg.harrowCtl i, 0, 1⟩
/-- `CTL.STOP` [1:1] (R269). -/
def Fld.harrowCtlStop (i : Nat) : Fd := ⟨Reg.harrowCtl i, 1, 1⟩
/-- `CTL.RESUME` [2:2] (R269). -/
def Fld.harrowCtlResume (i : Nat) : Fd := ⟨Reg.harrowCtl i, 2, 1⟩
/-- `CTL.OP` [4:3] (R269). -/
def Fld.harrowCtlOp (i : Nat) : Fd := ⟨Reg.harrowCtl i, 3, 2⟩
/-- `CTL.LOCKED` [5:5] (R269). -/
def Fld.harrowCtlLocked (i : Nat) : Fd := ⟨Reg.harrowCtl i, 5, 1⟩
/-- `CTL.BURST` [10:6] (R269). -/
def Fld.harrowCtlBurst (i : Nat) : Fd := ⟨Reg.harrowCtl i, 6, 5⟩
/-- `HARROW.SRC` (R269). -/
def Reg.harrowSrc (i : Nat) : Nat := 0x1a80004 + 0x100 * i
/-- `SRC.ENTRY` [16:0] (R269). -/
def Fld.harrowSrcEntry (i : Nat) : Fd := ⟨Reg.harrowSrc i, 0, 17⟩
/-- `HARROW.DST` (R269). -/
def Reg.harrowDst (i : Nat) : Nat := 0x1a80008 + 0x100 * i
/-- `DST.ENTRY` [16:0] (R269). -/
def Fld.harrowDstEntry (i : Nat) : Fd := ⟨Reg.harrowDst i, 0, 17⟩
/-- `HARROW.START` (R269). -/
def Reg.harrowStart (i : Nat) : Nat := 0x1a8000c + 0x100 * i
/-- `START.LINE` [23:0] (R269). -/
def Fld.harrowStartLine (i : Nat) : Fd := ⟨Reg.harrowStart i, 0, 24⟩
/-- `HARROW.COUNT` (R269). -/
def Reg.harrowCount (i : Nat) : Nat := 0x1a80010 + 0x100 * i
/-- `COUNT.LINES` [24:0] (R269). -/
def Fld.harrowCountLines (i : Nat) : Fd := ⟨Reg.harrowCount i, 0, 25⟩
/-- `HARROW.RATE` (R269). -/
def Reg.harrowRate (i : Nat) : Nat := 0x1a80014 + 0x100 * i
/-- `RATE.LINES` [10:0] (R269). -/
def Fld.harrowRateLines (i : Nat) : Fd := ⟨Reg.harrowRate i, 0, 11⟩
/-- `HARROW.STAT` (R269). -/
def Reg.harrowStat (i : Nat) : Nat := 0x1a80018 + 0x100 * i
/-- `STAT.STATE` [2:0] (R269). -/
def Fld.harrowStatState (i : Nat) : Fd := ⟨Reg.harrowStat i, 0, 3⟩
/-- `STAT.REFUSED` [3:3] (R269). -/
def Fld.harrowStatRefused (i : Nat) : Fd := ⟨Reg.harrowStat i, 3, 1⟩
/-- `STAT.ERR` [7:4] (R269). -/
def Fld.harrowStatErr (i : Nat) : Fd := ⟨Reg.harrowStat i, 4, 4⟩
/-- `HARROW.PROGRESS` (R269). -/
def Reg.harrowProgress (i : Nat) : Nat := 0x1a8001c + 0x100 * i
/-- `PROGRESS.LINES` [24:0] (R269). -/
def Fld.harrowProgressLines (i : Nat) : Fd := ⟨Reg.harrowProgress i, 0, 25⟩
/-- `HARROW.POISON` (R269). -/
def Reg.harrowPoison (i : Nat) : Nat := 0x1a80020 + 0x100 * i
/-- `POISON.COUNT` [15:0] (R269). -/
def Fld.harrowPoisonCount (i : Nat) : Fd := ⟨Reg.harrowPoison i, 0, 16⟩
/-- `HARROW.FIRST_POISON` (R269). -/
def Reg.harrowFirstPoison (i : Nat) : Nat := 0x1a80024 + 0x100 * i
/-- `FIRST_POISON.LINE` [23:0] (R269). -/
def Fld.harrowFirstPoisonLine (i : Nat) : Fd := ⟨Reg.harrowFirstPoison i, 0, 24⟩
/-- `HARROW.GLOBAL` (R269). -/
def Reg.harrowGlobal : Nat := 0x1a80400
/-- `GLOBAL.PTR` [1:0] (R269). -/
def Fld.harrowGlobalPtr : Fd := ⟨Reg.harrowGlobal, 0, 2⟩
/-- `GLOBAL.RATE_SUM` [12:2] (R269). -/
def Fld.harrowGlobalRateSum : Fd := ⟨Reg.harrowGlobal, 2, 11⟩

/-- The rows of block HARROW. -/
def RegRows.harrow : List RegRow :=
  [⟨0x0, [(0x100, 4)], 0x400, 0x7fc, 0x0, [], 0x0, 0⟩,
   ⟨0x4, [(0x100, 4)], 0x0, 0x1ffff, 0x0, [], 0x0, 0⟩,
   ⟨0x8, [(0x100, 4)], 0x0, 0x1ffff, 0x0, [], 0x0, 0⟩,
   ⟨0xc, [(0x100, 4)], 0x0, 0xffffff, 0x0, [], 0x0, 0⟩,
   ⟨0x10, [(0x100, 4)], 0x0, 0x1ffffff, 0x0, [], 0x0, 0⟩,
   ⟨0x14, [(0x100, 4)], 0x400, 0x7ff, 0x0, [], 0x0, 0⟩,
   ⟨0x18, [(0x100, 4)], 0x0, 0x0, 0x8, [], 0x0, 0⟩,
   ⟨0x1c, [(0x100, 4)], 0x0, 0x0, 0x0, [], 0x0, 0⟩,
   ⟨0x20, [(0x100, 4)], 0x0, 0x0, 0xffff, [], 0x0, 0⟩,
   ⟨0x24, [(0x100, 4)], 0x0, 0x0, 0x0, [], 0x0, 0⟩,
   ⟨0x400, [], 0x0, 0x0, 0x0, [], 0x0, 0⟩]

/-! ### SCHED (11_service_scheduling.md) -/

/-- `SCHED.COMMIT` (R284). -/
def Reg.schedCommit : Nat := 0x1c00000
/-- `COMMIT.GO` [0:0] (R284). -/
def Fld.schedCommitGo : Fd := ⟨Reg.schedCommit, 0, 1⟩
/-- `SCHED.COMMIT_STAT` (R284). -/
def Reg.schedCommitStat : Nat := 0x1c00004
/-- `COMMIT_STAT.PENDING` [0:0] (R284). -/
def Fld.schedCommitStatPending : Fd := ⟨Reg.schedCommitStat, 0, 1⟩
/-- `COMMIT_STAT.REFUSED` [1:1] (R284). -/
def Fld.schedCommitStatRefused : Fd := ⟨Reg.schedCommitStat, 1, 1⟩
/-- `COMMIT_STAT.CAUSE` [3:2] (R284). -/
def Fld.schedCommitStatCause : Fd := ⟨Reg.schedCommitStat, 2, 2⟩
/-- `COMMIT_STAT.KIND` [5:4] (R284). -/
def Fld.schedCommitStatKind : Fd := ⟨Reg.schedCommitStat, 4, 2⟩
/-- `COMMIT_STAT.INDEX` [19:6] (R284). -/
def Fld.schedCommitStatIndex : Fd := ⟨Reg.schedCommitStat, 6, 14⟩
/-- `SCHED.COMMIT_TICK_LO` (R284). -/
def Reg.schedCommitTickLo : Nat := 0x1c00008
/-- `SCHED.COMMIT_TICK_HI` (R284). -/
def Reg.schedCommitTickHi : Nat := 0x1c0000c
/-- `SCHED.COMMIT_FURLONG_LO` (R284). -/
def Reg.schedCommitFurlongLo : Nat := 0x1c00010
/-- `SCHED.COMMIT_FURLONG_HI` (R284). -/
def Reg.schedCommitFurlongHi : Nat := 0x1c00014
/-- `SCHED.COPY_CTL` (R284). -/
def Reg.schedCopyCtl : Nat := 0x1c00018
/-- `COPY_CTL.SEED` [0:0] (R284). -/
def Fld.schedCopyCtlSeed : Fd := ⟨Reg.schedCopyCtl, 0, 1⟩
/-- `COPY_CTL.BUSY` [1:1] (R284). -/
def Fld.schedCopyCtlBusy : Fd := ⟨Reg.schedCopyCtl, 1, 1⟩
/-- `SCHED.SC_W0_LOAD` (R285). -/
def Reg.schedScW0Load (i : Nat) : Nat := 0x1c10000 + 0x8 * i
/-- `SC_W0_LOAD.RATE` [23:0] (R285). -/
def Fld.schedScW0LoadRate (i : Nat) : Fd := ⟨Reg.schedScW0Load i, 0, 24⟩
/-- `SC_W0_LOAD.EN` [24:24] (R285). -/
def Fld.schedScW0LoadEn (i : Nat) : Fd := ⟨Reg.schedScW0Load i, 24, 1⟩
/-- `SC_W0_LOAD.MODE` [25:25] (R285). -/
def Fld.schedScW0LoadMode (i : Nat) : Fd := ⟨Reg.schedScW0Load i, 25, 1⟩
/-- `SCHED.SC_W1_LOAD` (R285). -/
def Reg.schedScW1Load (i : Nat) : Nat := 0x1c10004 + 0x8 * i
/-- `SC_W1_LOAD.DEPTH` [23:0] (R285). -/
def Fld.schedScW1LoadDepth (i : Nat) : Fd := ⟨Reg.schedScW1Load i, 0, 24⟩
/-- `SCHED.SC_W0` (R285). -/
def Reg.schedScW0 (i : Nat) : Nat := 0x1c30000 + 0x8 * i
/-- `SC_W0.RATE` [23:0] (R285). -/
def Fld.schedScW0Rate (i : Nat) : Fd := ⟨Reg.schedScW0 i, 0, 24⟩
/-- `SC_W0.EN` [24:24] (R285). -/
def Fld.schedScW0En (i : Nat) : Fd := ⟨Reg.schedScW0 i, 24, 1⟩
/-- `SC_W0.MODE` [25:25] (R285). -/
def Fld.schedScW0Mode (i : Nat) : Fd := ⟨Reg.schedScW0 i, 25, 1⟩
/-- `SCHED.SC_W1` (R285). -/
def Reg.schedScW1 (i : Nat) : Nat := 0x1c30004 + 0x8 * i
/-- `SC_W1.DEPTH` [23:0] (R285). -/
def Fld.schedScW1Depth (i : Nat) : Fd := ⟨Reg.schedScW1 i, 0, 24⟩
/-- `SCHED.PLOT_W0_LOAD` (R285). -/
def Reg.schedPlotW0Load (i : Nat) : Nat := 0x1c50000 + 0x8 * i
/-- `PLOT_W0_LOAD.RATE` [23:0] (R285). -/
def Fld.schedPlotW0LoadRate (i : Nat) : Fd := ⟨Reg.schedPlotW0Load i, 0, 24⟩
/-- `PLOT_W0_LOAD.EN` [24:24] (R285). -/
def Fld.schedPlotW0LoadEn (i : Nat) : Fd := ⟨Reg.schedPlotW0Load i, 24, 1⟩
/-- `SCHED.PLOT_W1_LOAD` (R285). -/
def Reg.schedPlotW1Load (i : Nat) : Nat := 0x1c50004 + 0x8 * i
/-- `PLOT_W1_LOAD.DEPTH` [23:0] (R285). -/
def Fld.schedPlotW1LoadDepth (i : Nat) : Fd := ⟨Reg.schedPlotW1Load i, 0, 24⟩
/-- `SCHED.PLOT_W0` (R285). -/
def Reg.schedPlotW0 (i : Nat) : Nat := 0x1c58000 + 0x8 * i
/-- `PLOT_W0.RATE` [23:0] (R285). -/
def Fld.schedPlotW0Rate (i : Nat) : Fd := ⟨Reg.schedPlotW0 i, 0, 24⟩
/-- `PLOT_W0.EN` [24:24] (R285). -/
def Fld.schedPlotW0En (i : Nat) : Fd := ⟨Reg.schedPlotW0 i, 24, 1⟩
/-- `SCHED.PLOT_W1` (R285). -/
def Reg.schedPlotW1 (i : Nat) : Nat := 0x1c58004 + 0x8 * i
/-- `PLOT_W1.DEPTH` [23:0] (R285). -/
def Fld.schedPlotW1Depth (i : Nat) : Fd := ⟨Reg.schedPlotW1 i, 0, 24⟩
/-- `SCHED.PORT_W0_LOAD` (R285). -/
def Reg.schedPortW0Load (i : Nat) : Nat := 0x1c60000 + 0x20 * i
/-- `PORT_W0_LOAD.RATE` [23:0] (R285). -/
def Fld.schedPortW0LoadRate (i : Nat) : Fd := ⟨Reg.schedPortW0Load i, 0, 24⟩
/-- `PORT_W0_LOAD.EN` [24:24] (R285). -/
def Fld.schedPortW0LoadEn (i : Nat) : Fd := ⟨Reg.schedPortW0Load i, 24, 1⟩
/-- `SCHED.PORT_W1_LOAD` (R285). -/
def Reg.schedPortW1Load (i : Nat) : Nat := 0x1c60004 + 0x20 * i
/-- `PORT_W1_LOAD.DEPTH` [23:0] (R285). -/
def Fld.schedPortW1LoadDepth (i : Nat) : Fd := ⟨Reg.schedPortW1Load i, 0, 24⟩
/-- `SCHED.PORT_W2_LOAD` (R285). -/
def Reg.schedPortW2Load (i : Nat) : Nat := 0x1c60008 + 0x20 * i
/-- `PORT_W2_LOAD.OVH` [7:0] (R285). -/
def Fld.schedPortW2LoadOvh (i : Nat) : Fd := ⟨Reg.schedPortW2Load i, 0, 8⟩
/-- `SCHED.PORT_W3_LOAD` (R285). -/
def Reg.schedPortW3Load (i : Nat) : Nat := 0x1c6000c + 0x20 * i
/-- `PORT_W3_LOAD.RANK2_BUDGET` [23:0] (R285). -/
def Fld.schedPortW3LoadRank2Budget (i : Nat) : Fd := ⟨Reg.schedPortW3Load i, 0, 24⟩
/-- `SCHED.PORT_W4_LOAD` (R285). -/
def Reg.schedPortW4Load (i : Nat) : Nat := 0x1c60010 + 0x20 * i
/-- `PORT_W4_LOAD.RSV_BOUND` [15:0] (R285). -/
def Fld.schedPortW4LoadRsvBound (i : Nat) : Fd := ⟨Reg.schedPortW4Load i, 0, 16⟩
/-- `SCHED.PORT_W0` (R285). -/
def Reg.schedPortW0 (i : Nat) : Nat := 0x1c60800 + 0x20 * i
/-- `PORT_W0.RATE` [23:0] (R285). -/
def Fld.schedPortW0Rate (i : Nat) : Fd := ⟨Reg.schedPortW0 i, 0, 24⟩
/-- `PORT_W0.EN` [24:24] (R285). -/
def Fld.schedPortW0En (i : Nat) : Fd := ⟨Reg.schedPortW0 i, 24, 1⟩
/-- `SCHED.PORT_W1` (R285). -/
def Reg.schedPortW1 (i : Nat) : Nat := 0x1c60804 + 0x20 * i
/-- `PORT_W1.DEPTH` [23:0] (R285). -/
def Fld.schedPortW1Depth (i : Nat) : Fd := ⟨Reg.schedPortW1 i, 0, 24⟩
/-- `SCHED.PORT_W2` (R285). -/
def Reg.schedPortW2 (i : Nat) : Nat := 0x1c60808 + 0x20 * i
/-- `PORT_W2.OVH` [7:0] (R285). -/
def Fld.schedPortW2Ovh (i : Nat) : Fd := ⟨Reg.schedPortW2 i, 0, 8⟩
/-- `SCHED.PORT_W3` (R285). -/
def Reg.schedPortW3 (i : Nat) : Nat := 0x1c6080c + 0x20 * i
/-- `PORT_W3.RANK2_BUDGET` [23:0] (R285). -/
def Fld.schedPortW3Rank2Budget (i : Nat) : Fd := ⟨Reg.schedPortW3 i, 0, 24⟩
/-- `SCHED.PORT_W4` (R285). -/
def Reg.schedPortW4 (i : Nat) : Nat := 0x1c60810 + 0x20 * i
/-- `PORT_W4.RSV_BOUND` [15:0] (R285). -/
def Fld.schedPortW4RsvBound (i : Nat) : Fd := ⟨Reg.schedPortW4 i, 0, 16⟩
/-- `SCHED.SC_LEVEL` (R286). -/
def Reg.schedScLevel (i : Nat) : Nat := 0x1c70000 + 0x4 * i
/-- `SCHED.PLOT_LEVEL` (R286). -/
def Reg.schedPlotLevel (i : Nat) : Nat := 0x1c80000 + 0x4 * i
/-- `SCHED.PORT_LIVE_LEVEL` (R286). -/
def Reg.schedPortLiveLevel (i : Nat) : Nat := 0x1c88000 + 0x20 * i
/-- `SCHED.PORT_LIVE_WIRE` (R286). -/
def Reg.schedPortLiveWire (i : Nat) : Nat := 0x1c88004 + 0x20 * i
/-- `PORT_LIVE_WIRE.WIRE` [15:0] (R286). -/
def Fld.schedPortLiveWireWire (i : Nat) : Fd := ⟨Reg.schedPortLiveWire i, 0, 16⟩
/-- `SCHED.PORT_LIVE_2` (R286). -/
def Reg.schedPortLive2 (i : Nat) : Nat := 0x1c88008 + 0x20 * i
/-- `PORT_LIVE_2.QRSV_MAX` [15:0] (R286). -/
def Fld.schedPortLive2QrsvMax (i : Nat) : Fd := ⟨Reg.schedPortLive2 i, 0, 16⟩
/-- `PORT_LIVE_2.LATE` [31:16] (R286). -/
def Fld.schedPortLive2Late (i : Nat) : Fd := ⟨Reg.schedPortLive2 i, 16, 16⟩
/-- `SCHED.PORT_LIVE_3` (R286). -/
def Reg.schedPortLive3 (i : Nat) : Nat := 0x1c8800c + 0x20 * i
/-- `PORT_LIVE_3.RANK2_OVER` [15:0] (R286). -/
def Fld.schedPortLive3Rank2Over (i : Nat) : Fd := ⟨Reg.schedPortLive3 i, 0, 16⟩
/-- `PORT_LIVE_3.SELF` [31:16] (R286). -/
def Fld.schedPortLive3Self (i : Nat) : Fd := ⟨Reg.schedPortLive3 i, 16, 16⟩
/-- `SCHED.PORT_LIVE_QIN_LO` (R286). -/
def Reg.schedPortLiveQinLo (i : Nat) : Nat := 0x1c88010 + 0x20 * i
/-- `SCHED.PORT_LIVE_QIN_HI` (R286). -/
def Reg.schedPortLiveQinHi (i : Nat) : Nat := 0x1c88014 + 0x20 * i

/-- The rows of block SCHED, part 0. -/
def RegRows.sched0 : List RegRow :=
  [⟨0x0, [], 0x0, 0x0, 0x0, [], 0x0, 0⟩,
   ⟨0x4, [], 0x0, 0x0, 0x2, [], 0x0, 0⟩,
   ⟨0x8, [], 0x0, 0x0, 0x0, [], 0x0, 1⟩,
   ⟨0xc, [], 0x0, 0x0, 0x0, [], 0x0, 0⟩,
   ⟨0x10, [], 0x0, 0x0, 0x0, [], 0x0, 1⟩,
   ⟨0x14, [], 0x0, 0x0, 0x0, [], 0x0, 0⟩,
   ⟨0x18, [], 0x0, 0x0, 0x0, [], 0x0, 0⟩,
   ⟨0x10000, [(0x8, 16384)], 0x0, 0x0, 0x0, [], 0x3ffffff, 0⟩,
   ⟨0x10004, [(0x8, 16384)], 0x0, 0x0, 0x0, [], 0xffffff, 0⟩,
   ⟨0x30000, [(0x8, 16384)], 0x0, 0x0, 0x0, [], 0x0, 0⟩,
   ⟨0x30004, [(0x8, 16384)], 0x0, 0x0, 0x0, [], 0x0, 0⟩,
   ⟨0x50000, [(0x8, 4096)], 0x0, 0x0, 0x0, [], 0x1ffffff, 0⟩,
   ⟨0x50004, [(0x8, 4096)], 0x0, 0x0, 0x0, [], 0xffffff, 0⟩,
   ⟨0x58000, [(0x8, 4096)], 0x0, 0x0, 0x0, [], 0x0, 0⟩,
   ⟨0x58004, [(0x8, 4096)], 0x0, 0x0, 0x0, [], 0x0, 0⟩,
   ⟨0x60000, [(0x20, 64)], 0x0, 0x0, 0x0, [], 0x1ffffff, 0⟩,
   ⟨0x60004, [(0x20, 64)], 0x0, 0x0, 0x0, [], 0xffffff, 0⟩,
   ⟨0x60008, [(0x20, 64)], 0x0, 0x0, 0x0, [], 0xff, 0⟩,
   ⟨0x6000c, [(0x20, 64)], 0x0, 0x0, 0x0, [], 0xffffff, 0⟩,
   ⟨0x60010, [(0x20, 64)], 0x0, 0x0, 0x0, [], 0xffff, 0⟩]

/-- The rows of block SCHED, part 1. -/
def RegRows.sched1 : List RegRow :=
  [⟨0x60800, [(0x20, 64)], 0x0, 0x0, 0x0, [], 0x0, 0⟩,
   ⟨0x60804, [(0x20, 64)], 0x0, 0x0, 0x0, [], 0x0, 0⟩,
   ⟨0x60808, [(0x20, 64)], 0x0, 0x0, 0x0, [], 0x0, 0⟩,
   ⟨0x6080c, [(0x20, 64)], 0x0, 0x0, 0x0, [], 0x0, 0⟩,
   ⟨0x60810, [(0x20, 64)], 0x0, 0x0, 0x0, [], 0x0, 0⟩,
   ⟨0x70000, [(0x4, 16384)], 0x0, 0x0, 0x0, [], 0x0, 0⟩,
   ⟨0x80000, [(0x4, 4096)], 0x0, 0x0, 0x0, [], 0x0, 0⟩,
   ⟨0x88000, [(0x20, 64)], 0x0, 0x0, 0x0, [], 0x0, 0⟩,
   ⟨0x88004, [(0x20, 64)], 0x200, 0x0, 0x0, [], 0x0, 0⟩,
   ⟨0x88008, [(0x20, 64)], 0x0, 0x0, 0x0, [(0, 16), (16, 16)], 0x0, 0⟩,
   ⟨0x8800c, [(0x20, 64)], 0x0, 0x0, 0x0, [(0, 16), (16, 16)], 0x0, 0⟩,
   ⟨0x88010, [(0x20, 64)], 0x0, 0x0, 0x0, [], 0x0, 1⟩,
   ⟨0x88014, [(0x20, 64)], 0x0, 0x0, 0x0, [], 0x0, 0⟩]

/-- The rows of block SCHED. -/
def RegRows.sched : List RegRow := RegRows.sched0 ++ RegRows.sched1

/-! ### SECURITY (12_trust_and_identity.md) -/

/-- `SECURITY.CMD_CTL` (R318). -/
def Reg.securityCmdCtl : Nat := 0x1e00000
/-- `CMD_CTL.GO` [0:0] (R318). -/
def Fld.securityCmdCtlGo : Fd := ⟨Reg.securityCmdCtl, 0, 1⟩
/-- `SECURITY.CMD_STAT` (R318). -/
def Reg.securityCmdStat : Nat := 0x1e00004
/-- `CMD_STAT.BUSY` [0:0] (R318). -/
def Fld.securityCmdStatBusy : Fd := ⟨Reg.securityCmdStat, 0, 1⟩
/-- `CMD_STAT.RESULT` [15:8] (R318). -/
def Fld.securityCmdStatResult : Fd := ⟨Reg.securityCmdStat, 8, 8⟩
/-- `SECURITY.NONCE_LO` (R318). -/
def Reg.securityNonceLo : Nat := 0x1e00008
/-- `SECURITY.NONCE_HI` (R318). -/
def Reg.securityNonceHi : Nat := 0x1e0000c
/-- `SECURITY.KEYREG_USED` (R318). -/
def Reg.securityKeyregUsed : Nat := 0x1e00010
/-- `KEYREG_USED.MAP` [27:0] (R318). -/
def Fld.securityKeyregUsedMap : Fd := ⟨Reg.securityKeyregUsed, 0, 28⟩
/-- `SECURITY.KEYREG_RETIRED` (R318). -/
def Reg.securityKeyregRetired : Nat := 0x1e00014
/-- `KEYREG_RETIRED.MAP` [27:0] (R318). -/
def Fld.securityKeyregRetiredMap : Fd := ⟨Reg.securityKeyregRetired, 0, 28⟩
/-- `SECURITY.DBG_STAT` (R318). -/
def Reg.securityDbgStat : Nat := 0x1e00018
/-- `DBG_STAT.OPEN` [0:0] (R318). -/
def Fld.securityDbgStatOpen : Fd := ⟨Reg.securityDbgStat, 0, 1⟩
/-- `DBG_STAT.ZEROISED` [1:1] (R318). -/
def Fld.securityDbgStatZeroised : Fd := ⟨Reg.securityDbgStat, 1, 1⟩
/-- `DBG_STAT.DENY` [31:16] (R318). -/
def Fld.securityDbgStatDeny : Fd := ⟨Reg.securityDbgStat, 16, 16⟩
/-- `SECURITY.KSLOT_IDX` (R318). -/
def Reg.securityKslotIdx : Nat := 0x1e00020
/-- `KSLOT_IDX.SLOT` [11:0] (R318). -/
def Fld.securityKslotIdxSlot : Fd := ⟨Reg.securityKslotIdx, 0, 12⟩
/-- `SECURITY.KSLOT_STAT` (R318). -/
def Reg.securityKslotStat : Nat := 0x1e00024
/-- `KSLOT_STAT.STATE` [1:0] (R318). -/
def Fld.securityKslotStatState : Fd := ⟨Reg.securityKslotStat, 0, 2⟩
/-- `SECURITY.KSLOT_TICK_LO` (R318). -/
def Reg.securityKslotTickLo : Nat := 0x1e00028
/-- `SECURITY.KSLOT_TICK_HI` (R318). -/
def Reg.securityKslotTickHi : Nat := 0x1e0002c
/-- `SECURITY.SPDM_STAT` (R318). -/
def Reg.securitySpdmStat : Nat := 0x1e00030
/-- `SPDM_STAT.SESSIONS` [8:0] (R318). -/
def Fld.securitySpdmStatSessions : Fd := ⟨Reg.securitySpdmStat, 0, 9⟩
/-- `SECURITY.MEM_RMW_LO` (R318). -/
def Reg.securityMemRmwLo : Nat := 0x1e00034
/-- `SECURITY.MEM_RMW_HI` (R318). -/
def Reg.securityMemRmwHi : Nat := 0x1e00038
/-- `SECURITY.CMD` (R318). -/
def Reg.securityCmd (i : Nat) : Nat := 0x1e00100 + 0x4 * i
/-- `SECURITY.IDE_CTL` (R319). -/
def Reg.securityIdeCtl (i : Nat) : Nat := 0x1e01000 + 0x10 * i
/-- `IDE_CTL.MODE` [0:0] (R319). -/
def Fld.securityIdeCtlMode (i : Nat) : Fd := ⟨Reg.securityIdeCtl i, 0, 1⟩
/-- `IDE_CTL.EPOCH` [4:1] (R319). -/
def Fld.securityIdeCtlEpoch (i : Nat) : Fd := ⟨Reg.securityIdeCtl i, 1, 4⟩
/-- `IDE_CTL.REQUIRE` [5:5] (R319). -/
def Fld.securityIdeCtlRequire (i : Nat) : Fd := ⟨Reg.securityIdeCtl i, 5, 1⟩
/-- `SECURITY.IDE_STAT` (R319). -/
def Reg.securityIdeStat (i : Nat) : Nat := 0x1e01004 + 0x10 * i
/-- `IDE_STAT.STATE` [1:0] (R319). -/
def Fld.securityIdeStatState (i : Nat) : Fd := ⟨Reg.securityIdeStat i, 0, 2⟩
/-- `IDE_STAT.KSET` [2:2] (R319). -/
def Fld.securityIdeStatKset (i : Nat) : Fd := ⟨Reg.securityIdeStat i, 2, 1⟩
/-- `IDE_STAT.REQ_ROLE` [3:3] (R319). -/
def Fld.securityIdeStatReqRole (i : Nat) : Fd := ⟨Reg.securityIdeStat i, 3, 1⟩
/-- `SECURITY.IDE_ERR` (R319). -/
def Reg.securityIdeErr (i : Nat) : Nat := 0x1e01008 + 0x10 * i
/-- `IDE_ERR.INTEGRITY` [15:0] (R319). -/
def Fld.securityIdeErrIntegrity (i : Nat) : Fd := ⟨Reg.securityIdeErr i, 0, 16⟩
/-- `IDE_ERR.PLAIN` [31:16] (R319). -/
def Fld.securityIdeErrPlain (i : Nat) : Fd := ⟨Reg.securityIdeErr i, 16, 16⟩
/-- `SECURITY.TDI_STAT` (R319). -/
def Reg.securityTdiStat (i : Nat) : Nat := 0x1e02000 + 0x4 * i
/-- `TDI_STAT.STATE` [1:0] (R319). -/
def Fld.securityTdiStatState (i : Nat) : Fd := ⟨Reg.securityTdiStat i, 0, 2⟩

/-- The rows of block SECURITY. -/
def RegRows.security : List RegRow :=
  [⟨0x0, [], 0x0, 0x0, 0x0, [], 0x0, 0⟩,
   ⟨0x4, [], 0x0, 0x0, 0x0, [], 0x0, 0⟩,
   ⟨0x8, [], 0x0, 0x0, 0x0, [], 0x0, 1⟩,
   ⟨0xc, [], 0x0, 0x0, 0x0, [], 0x0, 0⟩,
   ⟨0x10, [], 0x0, 0x0, 0x0, [], 0x0, 0⟩,
   ⟨0x14, [], 0x0, 0x0, 0x0, [], 0x0, 0⟩,
   ⟨0x18, [], 0x0, 0x0, 0x0, [(16, 16)], 0x0, 0⟩,
   ⟨0x20, [], 0x0, 0xfff, 0x0, [], 0x0, 0⟩,
   ⟨0x24, [], 0x0, 0x0, 0x0, [], 0x0, 0⟩,
   ⟨0x28, [], 0x0, 0x0, 0x0, [], 0x0, 1⟩,
   ⟨0x2c, [], 0x0, 0x0, 0x0, [], 0x0, 0⟩,
   ⟨0x30, [], 0x0, 0x0, 0x0, [], 0x0, 0⟩,
   ⟨0x34, [], 0x0, 0x0, 0x0, [], 0x0, 1⟩,
   ⟨0x38, [], 0x0, 0x0, 0x0, [], 0x0, 0⟩,
   ⟨0x100, [(0x4, 64)], 0x0, 0x0, 0x0, [], 0x0, 0⟩,
   ⟨0x1000, [(0x10, 64)], 0x8, 0x3f, 0x0, [], 0x0, 0⟩,
   ⟨0x1004, [(0x10, 64)], 0x0, 0x0, 0x0, [], 0x0, 0⟩,
   ⟨0x1008, [(0x10, 64)], 0x0, 0x0, 0xffffffff, [], 0x0, 0⟩,
   ⟨0x2000, [(0x4, 4096)], 0x0, 0x0, 0x0, [], 0x0, 0⟩]

/-! ### MZ (13_malza_meter.md) -/

/-- `MZ.UID` (R316). -/
def Reg.mzUid (i : Nat) : Nat := 0x1f00000 + 0x4 * i
/-- `MZ.STAT` (R351). -/
def Reg.mzStat : Nat := 0x1f00010
/-- `STAT.STATE` [2:0] (R351). -/
def Fld.mzStatState : Fd := ⟨Reg.mzStat, 0, 3⟩
/-- `STAT.SUPPLY_BAD` [3:3] (R351). -/
def Fld.mzStatSupplyBad : Fd := ⟨Reg.mzStat, 3, 1⟩
/-- `STAT.RTC_BAD` [4:4] (R351). -/
def Fld.mzStatRtcBad : Fd := ⟨Reg.mzStat, 4, 1⟩
/-- `STAT.LINK_LOST` [5:5] (R351). -/
def Fld.mzStatLinkLost : Fd := ⟨Reg.mzStat, 5, 1⟩
/-- `STAT.HOLD_EST` [6:6] (R351). -/
def Fld.mzStatHoldEst : Fd := ⟨Reg.mzStat, 6, 1⟩
/-- `STAT.MEM_BAD` [7:7] (R351). -/
def Fld.mzStatMemBad : Fd := ⟨Reg.mzStat, 7, 1⟩
/-- `STAT.KEY_DESTROYED` [8:8] (R351). -/
def Fld.mzStatKeyDestroyed : Fd := ⟨Reg.mzStat, 8, 1⟩
/-- `STAT.NOKEY` [9:9] (R351). -/
def Fld.mzStatNokey : Fd := ⟨Reg.mzStat, 9, 1⟩
/-- `MZ.BOOT` (R351). -/
def Reg.mzBoot : Nat := 0x1f00014
/-- `MZ.AUDIT_LO` (R351). -/
def Reg.mzAuditLo : Nat := 0x1f00018
/-- `MZ.AUDIT_HI` (R351). -/
def Reg.mzAuditHi : Nat := 0x1f0001c
/-- `MZ.SEQ_LO` (R351). -/
def Reg.mzSeqLo : Nat := 0x1f00020
/-- `MZ.SEQ_HI` (R351). -/
def Reg.mzSeqHi : Nat := 0x1f00024
/-- `MZ.OLDEST_LO` (R351). -/
def Reg.mzOldestLo : Nat := 0x1f00028
/-- `MZ.OLDEST_HI` (R351). -/
def Reg.mzOldestHi : Nat := 0x1f0002c
/-- `MZ.INT_LEN` (R351). -/
def Reg.mzIntLen : Nat := 0x1f00030
/-- `MZ.INT_NO_LO` (R351). -/
def Reg.mzIntNoLo : Nat := 0x1f00038
/-- `MZ.INT_NO_HI` (R351). -/
def Reg.mzIntNoHi : Nat := 0x1f0003c
/-- `MZ.INT_START_LO` (R351). -/
def Reg.mzIntStartLo : Nat := 0x1f00040
/-- `MZ.INT_START_HI` (R351). -/
def Reg.mzIntStartHi : Nat := 0x1f00044
/-- `MZ.NONCE_LO` (R351). -/
def Reg.mzNonceLo : Nat := 0x1f00048
/-- `MZ.NONCE_HI` (R351). -/
def Reg.mzNonceHi : Nat := 0x1f0004c
/-- `MZ.CMD_STAT` (R351). -/
def Reg.mzCmdStat : Nat := 0x1f00050
/-- `CMD_STAT.BUSY` [0:0] (R351). -/
def Fld.mzCmdStatBusy : Fd := ⟨Reg.mzCmdStat, 0, 1⟩
/-- `CMD_STAT.RESULT` [15:8] (R351). -/
def Fld.mzCmdStatResult : Fd := ⟨Reg.mzCmdStat, 8, 8⟩
/-- `MZ.QUEUE` (R351). -/
def Reg.mzQueue : Nat := 0x1f00054
/-- `QUEUE.COUNT` [18:0] (R351). -/
def Fld.mzQueueCount : Fd := ⟨Reg.mzQueue, 0, 19⟩
/-- `QUEUE.OVF` [31:19] (R351). -/
def Fld.mzQueueOvf : Fd := ⟨Reg.mzQueue, 19, 13⟩
/-- `MZ.CUM_SEQ_LO` (R351). -/
def Reg.mzCumSeqLo : Nat := 0x1f00058
/-- `MZ.CUM_SEQ_HI` (R351). -/
def Reg.mzCumSeqHi : Nat := 0x1f0005c
/-- `MZ.MRTC_LO` (R351). -/
def Reg.mzMrtcLo : Nat := 0x1f00060
/-- `MZ.MRTC_HI` (R351). -/
def Reg.mzMrtcHi : Nat := 0x1f00064
/-- `MZ.CERT` (R340). -/
def Reg.mzCert (i : Nat) : Nat := 0x1f01000 + 0x4 * i
/-- `MZ.CERT_LEN` (R351). -/
def Reg.mzCertLen : Nat := 0x1f01800
/-- `CERT_LEN.BYTES` [11:0] (R351). -/
def Fld.mzCertLenBytes : Fd := ⟨Reg.mzCertLen, 0, 12⟩
/-- `MZ.PLOT_MAP` (R324). -/
def Reg.mzPlotMap (i : Nat) : Nat := 0x1f02000 + 0x4 * i
/-- `PLOT_MAP.EVEN` [15:0] (R324). -/
def Fld.mzPlotMapEven (i : Nat) : Fd := ⟨Reg.mzPlotMap i, 0, 16⟩
/-- `PLOT_MAP.ODD` [31:16] (R324). -/
def Fld.mzPlotMapOdd (i : Nat) : Fd := ⟨Reg.mzPlotMap i, 16, 16⟩
/-- `MZ.SC_MAP` (R324). -/
def Reg.mzScMap (i : Nat) : Nat := 0x1f04000 + 0x4 * i
/-- `SC_MAP.EVEN` [15:0] (R324). -/
def Fld.mzScMapEven (i : Nat) : Fd := ⟨Reg.mzScMap i, 0, 16⟩
/-- `SC_MAP.ODD` [31:16] (R324). -/
def Fld.mzScMapOdd (i : Nat) : Fd := ⟨Reg.mzScMap i, 16, 16⟩
/-- `MZ.CUM` (R334). -/
def Reg.mzCum (a q k : Nat) : Nat := 0x1f10000 + 0x48 * a + 0xc * q + 0x4 * k

/-- The rows of block MZ, part 0. -/
def RegRows.mz0 : List RegRow :=
  [⟨0x0, [(0x4, 4)], 0x0, 0x0, 0x0, [], 0x0, 0⟩,
   ⟨0x10, [], 0x0, 0x0, 0x0, [], 0x0, 0⟩,
   ⟨0x14, [], 0x0, 0x0, 0x0, [], 0x0, 0⟩,
   ⟨0x18, [], 0x0, 0x0, 0x0, [], 0x0, 1⟩,
   ⟨0x1c, [], 0x0, 0x0, 0x0, [], 0x0, 0⟩,
   ⟨0x20, [], 0x0, 0x0, 0x0, [], 0x0, 1⟩,
   ⟨0x24, [], 0x0, 0x0, 0x0, [], 0x0, 0⟩,
   ⟨0x28, [], 0x0, 0x0, 0x0, [], 0x0, 1⟩,
   ⟨0x2c, [], 0x0, 0x0, 0x0, [], 0x0, 0⟩,
   ⟨0x30, [], 0x0, 0x0, 0x0, [], 0x0, 0⟩,
   ⟨0x38, [], 0x0, 0x0, 0x0, [], 0x0, 1⟩,
   ⟨0x3c, [], 0x0, 0x0, 0x0, [], 0x0, 0⟩,
   ⟨0x40, [], 0x0, 0x0, 0x0, [], 0x0, 1⟩,
   ⟨0x44, [], 0x0, 0x0, 0x0, [], 0x0, 0⟩,
   ⟨0x48, [], 0x0, 0x0, 0x0, [], 0x0, 1⟩,
   ⟨0x4c, [], 0x0, 0x0, 0x0, [], 0x0, 0⟩,
   ⟨0x50, [], 0x0, 0x0, 0x0, [], 0x0, 0⟩,
   ⟨0x54, [], 0x0, 0x0, 0x0, [], 0x0, 0⟩,
   ⟨0x58, [], 0x0, 0x0, 0x0, [], 0x0, 1⟩,
   ⟨0x5c, [], 0x0, 0x0, 0x0, [], 0x0, 0⟩]

/-- The rows of block MZ, part 1. -/
def RegRows.mz1 : List RegRow :=
  [⟨0x60, [], 0x0, 0x0, 0x0, [], 0x0, 1⟩,
   ⟨0x64, [], 0x0, 0x0, 0x0, [], 0x0, 0⟩,
   ⟨0x1000, [(0x4, 512)], 0x0, 0x0, 0x0, [], 0x0, 0⟩,
   ⟨0x1800, [], 0x0, 0x0, 0x0, [], 0x0, 0⟩,
   ⟨0x2000, [(0x4, 2048)], 0x0, 0x0, 0x0, [], 0x0, 0⟩,
   ⟨0x4000, [(0x4, 8192)], 0x0, 0x0, 0x0, [], 0x0, 0⟩,
   ⟨0x10000, [(0x4, 73728)], 0x0, 0x0, 0x0, [], 0x0, 2⟩]

/-- The rows of block MZ. -/
def RegRows.mz : List RegRow := RegRows.mz0 ++ RegRows.mz1

/-! ### STEWARD (15_steward_endpoint.md) -/

/-- `STEWARD.FW_CTL` (R393). -/
def Reg.stewardFwCtl : Nat := 0x1f80000
/-- `FW_CTL.SWITCH` [0:0] (R393). -/
def Fld.stewardFwCtlSwitch : Fd := ⟨Reg.stewardFwCtl, 0, 1⟩
/-- `FW_CTL.READY` [1:1] (R393). -/
def Fld.stewardFwCtlReady : Fd := ⟨Reg.stewardFwCtl, 1, 1⟩
/-- `STEWARD.FW_STAT` (R393). -/
def Reg.stewardFwStat : Nat := 0x1f80004
/-- `FW_STAT.SLOT` [0:0] (R393). -/
def Fld.stewardFwStatSlot : Fd := ⟨Reg.stewardFwStat, 0, 1⟩
/-- `FW_STAT.VALID_A` [1:1] (R393). -/
def Fld.stewardFwStatValidA : Fd := ⟨Reg.stewardFwStat, 1, 1⟩
/-- `FW_STAT.VALID_B` [2:2] (R393). -/
def Fld.stewardFwStatValidB : Fd := ⟨Reg.stewardFwStat, 2, 1⟩
/-- `FW_STAT.SWITCHING` [3:3] (R393). -/
def Fld.stewardFwStatSwitching : Fd := ⟨Reg.stewardFwStat, 3, 1⟩
/-- `FW_STAT.FALLBACK` [4:4] (R393). -/
def Fld.stewardFwStatFallback : Fd := ⟨Reg.stewardFwStat, 4, 1⟩
/-- `FW_STAT.CODE` [11:8] (R393). -/
def Fld.stewardFwStatCode : Fd := ⟨Reg.stewardFwStat, 8, 4⟩
/-- `FW_STAT.RESTARTS` [23:16] (R393). -/
def Fld.stewardFwStatRestarts : Fd := ⟨Reg.stewardFwStat, 16, 8⟩
/-- `STEWARD.FW_SEQ_A_LO` (R393). -/
def Reg.stewardFwSeqALo : Nat := 0x1f80008
/-- `STEWARD.FW_SEQ_A_HI` (R393). -/
def Reg.stewardFwSeqAHi : Nat := 0x1f8000c
/-- `STEWARD.FW_SEQ_B_LO` (R393). -/
def Reg.stewardFwSeqBLo : Nat := 0x1f80010
/-- `STEWARD.FW_SEQ_B_HI` (R393). -/
def Reg.stewardFwSeqBHi : Nat := 0x1f80014
/-- `STEWARD.WDOG` (R393). -/
def Reg.stewardWdog : Nat := 0x1f80018
/-- `WDOG.MS` [15:0] (R393). -/
def Fld.stewardWdogMs : Fd := ⟨Reg.stewardWdog, 0, 16⟩
/-- `WDOG.KICK` [16:16] (R393). -/
def Fld.stewardWdogKick : Fd := ⟨Reg.stewardWdog, 16, 1⟩
/-- `STEWARD.EP_SELF` (R393). -/
def Reg.stewardEpSelf : Nat := 0x1f80028
/-- `EP_SELF.SOURCE` [1:0] (R393). -/
def Fld.stewardEpSelfSource : Fd := ⟨Reg.stewardEpSelf, 0, 2⟩
/-- `STEWARD.MCTP_STAT` (R393). -/
def Reg.stewardMctpStat : Nat := 0x1f80030
/-- `MCTP_STAT.EID_I3C` [7:0] (R393). -/
def Fld.stewardMctpStatEidI3c : Fd := ⟨Reg.stewardMctpStat, 0, 8⟩
/-- `MCTP_STAT.EID_VDM` [15:8] (R393). -/
def Fld.stewardMctpStatEidVdm : Fd := ⟨Reg.stewardMctpStat, 8, 8⟩
/-- `MCTP_STAT.DA` [22:16] (R393). -/
def Fld.stewardMctpStatDa : Fd := ⟨Reg.stewardMctpStat, 16, 7⟩
/-- `STEWARD.MCTP_DROP` (R393). -/
def Reg.stewardMctpDrop : Nat := 0x1f80034
/-- `MCTP_DROP.TENANT` [15:0] (R393). -/
def Fld.stewardMctpDropTenant : Fd := ⟨Reg.stewardMctpDrop, 0, 16⟩
/-- `MCTP_DROP.OVF` [31:16] (R393). -/
def Fld.stewardMctpDropOvf : Fd := ⟨Reg.stewardMctpDrop, 16, 16⟩
/-- `STEWARD.EP_CFG` (R394). -/
def Reg.stewardEpCfg (i : Nat) : Nat := 0x1f80100 + 0x100 * i
/-- `EP_CFG.LP` [5:0] (R394). -/
def Fld.stewardEpCfgLp (i : Nat) : Fd := ⟨Reg.stewardEpCfg i, 0, 6⟩
/-- `EP_CFG.PRESENT` [6:6] (R394). -/
def Fld.stewardEpCfgPresent (i : Nat) : Fd := ⟨Reg.stewardEpCfg i, 6, 1⟩
/-- `EP_CFG.BME` [7:7] (R394). -/
def Fld.stewardEpCfgBme (i : Nat) : Fd := ⟨Reg.stewardEpCfg i, 7, 1⟩
/-- `EP_CFG.DSTATE` [9:8] (R394). -/
def Fld.stewardEpCfgDstate (i : Nat) : Fd := ⟨Reg.stewardEpCfg i, 8, 2⟩
/-- `EP_CFG.GEN` [31:16] (R394). -/
def Fld.stewardEpCfgGen (i : Nat) : Fd := ⟨Reg.stewardEpCfg i, 16, 16⟩
/-- `STEWARD.EP_STAT` (R394). -/
def Reg.stewardEpStat (i : Nat) : Nat := 0x1f80104 + 0x100 * i
/-- `EP_STAT.BUSY` [0:0] (R394). -/
def Fld.stewardEpStatBusy (i : Nat) : Fd := ⟨Reg.stewardEpStat i, 0, 1⟩
/-- `EP_STAT.PHASE` [2:1] (R394). -/
def Fld.stewardEpStatPhase (i : Nat) : Fd := ⟨Reg.stewardEpStat i, 1, 2⟩
/-- `EP_STAT.BADACC` [15:8] (R394). -/
def Fld.stewardEpStatBadacc (i : Nat) : Fd := ⟨Reg.stewardEpStat i, 8, 8⟩
/-- `STEWARD.EP_LATE` (R394). -/
def Reg.stewardEpLate (i : Nat) : Nat := 0x1f80108 + 0x100 * i
/-- `STEWARD.EP_DISC` (R394). -/
def Reg.stewardEpDisc (i : Nat) : Nat := 0x1f8010c + 0x100 * i
/-- `STEWARD.EP_GLEAN` (R394). -/
def Reg.stewardEpGlean (i : Nat) : Nat := 0x1f80110 + 0x100 * i
/-- `STEWARD.EP_TMO` (R394). -/
def Reg.stewardEpTmo (i : Nat) : Nat := 0x1f80114 + 0x100 * i
/-- `STEWARD.INT_STAT` (R394). -/
def Reg.stewardIntStat (i : Nat) : Nat := 0x1f80118 + 0x100 * i
/-- `INT_STAT.CQ` [15:0] (R394). -/
def Fld.stewardIntStatCq (i : Nat) : Fd := ⟨Reg.stewardIntStat i, 0, 16⟩
/-- `INT_STAT.EVT` [21:16] (R394). -/
def Fld.stewardIntStatEvt (i : Nat) : Fd := ⟨Reg.stewardIntStat i, 16, 6⟩
/-- `STEWARD.WAKE_MASK` (R394). -/
def Reg.stewardWakeMask (i : Nat) : Nat := 0x1f8011c + 0x100 * i
/-- `WAKE_MASK.MASK` [21:0] (R394). -/
def Fld.stewardWakeMaskMask (i : Nat) : Fd := ⟨Reg.stewardWakeMask i, 0, 22⟩
/-- `STEWARD.INT_MAP` (R394). -/
def Reg.stewardIntMap (i j : Nat) : Nat := 0x1f80120 + 0x100 * i + 0x4 * j
/-- `INT_MAP.VECTOR` [5:0] (R394). -/
def Fld.stewardIntMapVector (i j : Nat) : Fd := ⟨Reg.stewardIntMap i j, 0, 6⟩
/-- `INT_MAP.EN` [6:6] (R394). -/
def Fld.stewardIntMapEn (i j : Nat) : Fd := ⟨Reg.stewardIntMap i j, 6, 1⟩
/-- `STEWARD.OUTBOX_THR` (R394). -/
def Reg.stewardOutboxThr (i : Nat) : Nat := 0x1f801a0 + 0x100 * i
/-- `OUTBOX_THR.BYTES` [15:0] (R394). -/
def Fld.stewardOutboxThrBytes (i : Nat) : Fd := ⟨Reg.stewardOutboxThr i, 0, 16⟩
/-- `STEWARD.RING_SQ_BASE_LO` (R394). -/
def Reg.stewardRingSqBaseLo (i j : Nat) : Nat := 0x1f81000 + 0x1000 * i + 0x20 * j
/-- `STEWARD.RING_SQ_BASE_HI` (R394). -/
def Reg.stewardRingSqBaseHi (i j : Nat) : Nat := 0x1f81004 + 0x1000 * i + 0x20 * j
/-- `STEWARD.RING_CQ_BASE_LO` (R394). -/
def Reg.stewardRingCqBaseLo (i j : Nat) : Nat := 0x1f81008 + 0x1000 * i + 0x20 * j
/-- `STEWARD.RING_CQ_BASE_HI` (R394). -/
def Reg.stewardRingCqBaseHi (i j : Nat) : Nat := 0x1f8100c + 0x1000 * i + 0x20 * j
/-- `STEWARD.RING_CFG` (R394). -/
def Reg.stewardRingCfg (i j : Nat) : Nat := 0x1f81010 + 0x1000 * i + 0x20 * j
/-- `RING_CFG.SQ_LOG2` [3:0] (R394). -/
def Fld.stewardRingCfgSqLog2 (i j : Nat) : Fd := ⟨Reg.stewardRingCfg i j, 0, 4⟩
/-- `RING_CFG.CQ_LOG2` [7:4] (R394). -/
def Fld.stewardRingCfgCqLog2 (i j : Nat) : Fd := ⟨Reg.stewardRingCfg i j, 4, 4⟩
/-- `RING_CFG.EN` [8:8] (R394). -/
def Fld.stewardRingCfgEn (i j : Nat) : Fd := ⟨Reg.stewardRingCfg i j, 8, 1⟩
/-- `STEWARD.RING_STAT` (R394). -/
def Reg.stewardRingStat (i j : Nat) : Nat := 0x1f81014 + 0x1000 * i + 0x20 * j
/-- `RING_STAT.SQ_HEAD` [11:0] (R394). -/
def Fld.stewardRingStatSqHead (i j : Nat) : Fd := ⟨Reg.stewardRingStat i j, 0, 12⟩
/-- `RING_STAT.CQ_TAIL` [23:12] (R394). -/
def Fld.stewardRingStatCqTail (i j : Nat) : Fd := ⟨Reg.stewardRingStat i j, 12, 12⟩
/-- `RING_STAT.PHASE` [24:24] (R394). -/
def Fld.stewardRingStatPhase (i j : Nat) : Fd := ⟨Reg.stewardRingStat i j, 24, 1⟩
/-- `RING_STAT.ERR` [25:25] (R394). -/
def Fld.stewardRingStatErr (i j : Nat) : Fd := ⟨Reg.stewardRingStat i j, 25, 1⟩
/-- `STEWARD.MZ_INBOX` (R352). -/
def Reg.stewardMzInbox (i : Nat) : Nat := 0x1fef000 + 0x4 * i
/-- `STEWARD.MZ_INBOX_CTL` (R352). -/
def Reg.stewardMzInboxCtl : Nat := 0x1fef100
/-- `MZ_INBOX_CTL.GO` [0:0] (R352). -/
def Fld.stewardMzInboxCtlGo : Fd := ⟨Reg.stewardMzInboxCtl, 0, 1⟩
/-- `MZ_INBOX_CTL.BUSY` [1:1] (R352). -/
def Fld.stewardMzInboxCtlBusy : Fd := ⟨Reg.stewardMzInboxCtl, 1, 1⟩
/-- `STEWARD.MZ_OUT_WR` (R352). -/
def Reg.stewardMzOutWr : Nat := 0x1fef104
/-- `STEWARD.MZ_OUT_RD` (R352). -/
def Reg.stewardMzOutRd : Nat := 0x1fef108
/-- `STEWARD.MZ_OUTBOX` (R352). -/
def Reg.stewardMzOutbox (i : Nat) : Nat := 0x1ff0000 + 0x4 * i

/-- The rows of block STEWARD, part 0. -/
def RegRows.steward0 : List RegRow :=
  [⟨0x0, [], 0x0, 0x0, 0x0, [], 0x0, 0⟩,
   ⟨0x4, [], 0x0, 0x0, 0xff0010, [], 0x0, 0⟩,
   ⟨0x8, [], 0x0, 0x0, 0x0, [], 0x0, 1⟩,
   ⟨0xc, [], 0x0, 0x0, 0x0, [], 0x0, 0⟩,
   ⟨0x10, [], 0x0, 0x0, 0x0, [], 0x0, 1⟩,
   ⟨0x14, [], 0x0, 0x0, 0x0, [], 0x0, 0⟩,
   ⟨0x18, [], 0x64, 0xffff, 0x0, [], 0x0, 0⟩,
   ⟨0x28, [], 0x0, 0x0, 0x0, [], 0x0, 0⟩,
   ⟨0x30, [], 0x0, 0x0, 0x0, [], 0x0, 0⟩,
   ⟨0x34, [], 0x0, 0x0, 0xffffffff, [], 0x0, 0⟩,
   ⟨0x100, [(0x100, 2)], 0x0, 0x0, 0x0, [], 0x0, 0⟩,
   ⟨0x104, [(0x100, 2)], 0x0, 0x0, 0x0, [(8, 8)], 0x0, 0⟩,
   ⟨0x108, [(0x100, 2)], 0x0, 0x0, 0x0, [(0, 32)], 0x0, 0⟩,
   ⟨0x10c, [(0x100, 2)], 0x0, 0x0, 0x0, [(0, 32)], 0x0, 0⟩,
   ⟨0x110, [(0x100, 2)], 0x0, 0x0, 0x0, [(0, 32)], 0x0, 0⟩,
   ⟨0x114, [(0x100, 2)], 0x0, 0x0, 0x0, [(0, 32)], 0x0, 0⟩,
   ⟨0x118, [(0x100, 2)], 0x0, 0x0, 0x3f0000, [], 0x0, 0⟩,
   ⟨0x11c, [(0x100, 2)], 0x0, 0x3fffff, 0x0, [], 0x0, 0⟩,
   ⟨0x120, [(0x100, 2), (0x4, 32)], 0x0, 0x7f, 0x0, [], 0x0, 0⟩,
   ⟨0x1a0, [(0x100, 2)], 0x1000, 0xffff, 0x0, [], 0x0, 0⟩]

/-- The rows of block STEWARD, part 1. -/
def RegRows.steward1 : List RegRow :=
  [⟨0x1000, [(0x1000, 2), (0x20, 16)], 0x0, 0xffffffff, 0x0, [], 0x0, 1⟩,
   ⟨0x1004, [(0x1000, 2), (0x20, 16)], 0x0, 0xffffffff, 0x0, [], 0x0, 0⟩,
   ⟨0x1008, [(0x1000, 2), (0x20, 16)], 0x0, 0xffffffff, 0x0, [], 0x0, 1⟩,
   ⟨0x100c, [(0x1000, 2), (0x20, 16)], 0x0, 0xffffffff, 0x0, [], 0x0, 0⟩,
   ⟨0x1010, [(0x1000, 2), (0x20, 16)], 0x44, 0x1ff, 0x0, [], 0x0, 0⟩,
   ⟨0x1014, [(0x1000, 2), (0x20, 16)], 0x1000000, 0x0, 0x2000000, [], 0x0, 0⟩,
   ⟨0x6f000, [(0x4, 64)], 0x0, 0xffffffff, 0x0, [], 0x0, 0⟩,
   ⟨0x6f100, [], 0x0, 0x0, 0x0, [], 0x0, 0⟩,
   ⟨0x6f104, [], 0x0, 0x0, 0x0, [], 0x0, 0⟩,
   ⟨0x6f108, [], 0x0, 0xffffffff, 0x0, [], 0x0, 0⟩,
   ⟨0x70000, [(0x4, 16384)], 0x0, 0x0, 0x0, [], 0x0, 0⟩]

/-- The rows of block STEWARD. -/
def RegRows.steward : List RegRow := RegRows.steward0 ++ RegRows.steward1

/-- The block that holds an address: its base and its rows (R446). -/
def regBlock (a : Nat) : Nat × List RegRow :=
  if a < 0x100000 then (0x0, RegRows.global)
  else if a < 0x200000 then (0x100000, RegRows.cpr)
  else if a < 0x300000 then (0x200000, RegRows.fault)
  else if a < 0x400000 then (0x300000, RegRows.cfgstore)
  else if a < 0x600000 then (0x400000, RegRows.port)
  else if a < 0xc00000 then (0x800000, RegRows.coulter)
  else if a < 0x1000000 then (0xc00000, RegRows.plot)
  else if a < 0x1400000 then (0x1000000, RegRows.hedge)
  else if a < 0x1800000 then (0x1400000, RegRows.extent)
  else if a < 0x1a00000 then (0x1800000, RegRows.home)
  else if a < 0x1a40000 then (0x1a00000, RegRows.xbar)
  else if a < 0x1a80000 then (0x1a40000, RegRows.buffer)
  else if a < 0x1c00000 then (0x1a80000, RegRows.harrow)
  else if a < 0x1e00000 then (0x1c00000, RegRows.sched)
  else if a < 0x1f00000 then (0x1e00000, RegRows.security)
  else if a < 0x1f80000 then (0x1f00000, RegRows.mz)
  else if a < 0x2000000 then (0x1f80000, RegRows.steward)
  else (0x2000000, [])

/-- Whether offset `o` from an array's base names one of its elements. -/
def dimsCover : List (Nat × Nat) → Nat → Bool
  | [], o => o = 0
  | (s, c) :: ds, o => decide (o / s < c) && dimsCover ds (o % s)

/-- The row that names the register at address `a`, if any does (R447). -/
def regRow (a : Nat) : Option RegRow :=
  let b := regBlock a
  if a < b.1 then none
  else b.2.find? (fun r => decide (r.off ≤ a - b.1) && dimsCover r.dims (a - b.1 - r.off))

/-- The reset value of the register at address `a`; an address of no register reads 0 (R447). -/
def regReset (a : Nat) : Word :=
  match regRow a with
  | some r => BitVec.ofNat 32 r.reset
  | none => 0

end Sys2Proof
end

