-- ==== Sys2Proof/Machine/Table.lean ====
section
/-! DEFINITION. Sparse tables in one canonical form: numbers strictly rising, no entry equal to what an unlisted number
reads as (`d`). The first entry of a number is the one read, so reads, writes, copies and clears agree in every table. -/

namespace Sys2Proof

/-- What table `t` holds at `k`; `d k` where nothing is listed. -/
def Tbl.get {α : Type} (d : Nat → α) : Tbl α → Nat → α
  | [], k => d k
  | e :: t, k => if k = e.1 then e.2 else Tbl.get d t k

/-- `t` with `v` at `k`. -/
def Tbl.set {α : Type} [DecidableEq α] (d : Nat → α) : Tbl α → Nat → α → Tbl α
  | [], k, v => if v = d k then [] else [(k, v)]
  | e :: t, k, v =>
    if k < e.1 then (if v = d k then e :: t.filter (fun x => x.1 ≠ k) else (k, v) :: e :: t)
    else if k = e.1 then (if v = d k then t.filter (fun x => x.1 ≠ k) else (k, v) :: t)
    else e :: Tbl.set d t k v

/-- The canonical form. -/
abbrev Tbl.wf {α : Type} [DecidableEq α] (d : Nat → α) (t : Tbl α) : Prop :=
  t.Pairwise (fun x y => x.1 < y.1) ∧ ∀ e ∈ t, e.2 ≠ d e.1

/-- `t` with every entry of [src, src + len) copied over [dst, dst + len). -/
def Tbl.copy {α : Type} [DecidableEq α] (d : Nat → α) (t : Tbl α) (src dst len : Nat) : Tbl α :=
  (t.filter (fun e => decide (src ≤ e.1 ∧ e.1 < src + len))).foldr
    (fun e acc => Tbl.set d acc (e.1 - src + dst) e.2)
    (t.filter (fun e => !decide (dst ≤ e.1 ∧ e.1 < dst + len)))

/-- `t` without the entries of [base, base + len). -/
def Tbl.clear {α : Type} (t : Tbl α) (base len : Nat) : Tbl α :=
  t.filter (fun e => !decide (base ≤ e.1 ∧ e.1 < base + len))

/-- The listed entries of [base, base + len). -/
def Tbl.within {α : Type} (t : Tbl α) (base len : Nat) : List (Nat × α) :=
  t.filter (fun e => decide (base ≤ e.1 ∧ e.1 < base + len))

end Sys2Proof
end

