-- ==== Sys2Proof/Machine/State.lean ====
section
/-! DEFINITION. The state of the TV3288 as plain data: the register space, and everything the manual gives the part that
has no register of its own. Reset is the state right after the main die leaves device reset (R14, R423, R424). -/

namespace Sys2Proof.Machine

/-- No command stops the machine with a fault: the manual's fault sources are events the collector records (R395). -/
inductive Fault where
  /-- Raised by nothing: kept so that the type has a value (safe). -/
  | none
deriving DecidableEq, Repr

/-- Why a command has no meaning. -/
inductive Refusal where
  /-- Raised by Dispatch alone, for a command whose meaning is not written yet (safe). -/
  | notModelled (mnemonic : String)
deriving DecidableEq, Repr

/-! ### Faults (16) -/

/-- An event as a block reports it to the collector: source, what it names, and its details (R395, R399). -/
structure FaultEv where
  src    : Nat
  tick   : Nat
  lp     : Option Nat := none
  plot   : Option Nat := none
  fn     : Option (Nat × Nat) := none      -- FID (13 bits), generation
  addr   : Option (Nat × Nat) := none      -- address, space
  tag    : Nat := 0
  inj    : Bool := false
  d0     : Nat := 0
  d1     : Nat := 0
deriving DecidableEq, Repr

/-- The collector: events of this tick not yet ordered, the severities in force, the sheaf's 64 slots of 16 words, and the
first FATAL event while its reaction is due (R396 to R402). -/
structure FaultSt where
  tickEvents : List FaultEv
  sev0       : Word
  sev1       : Word
  sheaf      : Tbl Word
  fatalDue   : Option (Nat × Nat)
  viral      : Bool
deriving DecidableEq, Repr

/-! ### Decoders (04) -/

/-- An HDM decoder (R84, R86, R87): the values a host wrote, those in force, Committed, Error Not Committed, the commit that
is pending (set or cleared), held writes, and the interleave position recorded for snoops (R213). -/
structure Decoder where
  vals    : DecVals := ⟨0, 0, 0, 0⟩
  force   : DecVals := ⟨0, 0, 0, 0⟩
  commit  : Bool := false
  enc     : Bool := false
  pend    : Option Bool := none
  held    : List DecWrite := []
  heldDue : Bool := false
  pos     : Option Nat := none
deriving DecidableEq, Repr

/-! ### Messages (01, 05, 10, 11) -/

/-- Counted parts of a residence (R24), with QIN and QRSV (R277). -/
structure Parts where
  ein   : Nat := 0
  ideh  : Nat := 0
  home  : Nat := 0
  snoop : Nat := 0
  retry : Nat := 0
  cred  : Nat := 0
  queue : Nat := 0
  qin   : Nat := 0
  qrsv  : Nat := 0
deriving DecidableEq, Repr

/-- What a message carries. `grant` is the state a CXL.mem completion grants: 0 none, 1 Cmp-S, 2 Cmp-E (R227); `ld` the LD of an
MLD that it came from (R42). -/
structure Hdr where
  op     : Opn
  opc    : Nat
  mv     : Meta
  addr   : Nat
  size   : Nat
  tag    : Nat
  data   : List Byte
  poison : Bool
  status : CplStatus
  grant  : Nat := 0
  bitag  : Nat := 0
  dest   : IoDest := .memory
  ld     : Option Nat := none
deriving DecidableEq, Repr

/-- How the engine treats a message (R117). `noDecoder` is a CXL.mem message that matches no decoder (R85), `config` a
configuration request, which CONFIG_REQUEST answers (R42). -/
inductive Path where
  | program | noDecoder | response | homePath | steward | config
deriving DecidableEq, Repr

/-- What classification fixes (R21, R85, R88, R201): `fid` is H7's 13-bit field; `epoch` numbers the table copies, `slot`
the program slot in force (none: R137), `parity` the hedge copy. -/
structure Cls where
  lp     : Nat
  path   : Path
  fid    : Nat
  gen    : Nat
  plot   : Nat
  sc     : Nat
  prog   : Nat
  slot   : Option Nat
  parity : Bool
  epoch  : Nat
deriving DecidableEq, Repr

/-- A target as a program names it (R128, R160). -/
inductive Target where
  | pool (index off : Nat)
  | port (d : Nat)
deriving DecidableEq, Repr

/-- Disposition of an action record (R127). -/
inductive Disp where
  | none | drop | psn
  | trap (reason : Nat)
deriving DecidableEq, Repr

/-- The action record (R127). `key` true is the plot key; `atomMem` true is placement at memory. -/
structure Act where
  tgt     : Option Target := Option.none
  twin    : Option Target := Option.none
  home    : Bool := false
  key     : Option Bool := Option.none
  atomMem : Option Bool := Option.none
  mark    : Nat := 0
  disp    : Disp := .none
deriving DecidableEq, Repr

/-- A message's context in the engine (R116), with its place: stages and blocks count from 0, `slot` is the next slot of
the block, `next` the block NEXT named, `due` the lookup results that arrive at the next stage (R123), `looked` how many
lookup slots of the block have passed. -/
structure Ctx where
  stage  : Nat := 0
  block  : Nat := 0
  slot   : Nat := 0
  next   : Nat := 0
  ended  : Bool := false
  g      : Tbl Word := []
  q      : Tbl Bool := []
  t      : Tbl Word := []
  due    : List (Nat × Word) := []
  act    : Act := {}
deriving DecidableEq, Repr

/-- Where a message is. -/
inductive Stage where
  | macHeld      -- received in containment mode; waits for its MAC (R305)
  | unpacked     -- accepted; CLASSIFY is next
  | atEngine     -- classified; ENGINE_ENTRY is next
  | engine       -- in Coulter stages 1 to 4
  | map          -- left the engine; HEDGE_AND_MAP, or RESPONSE_STAGE1 before it, is next
  | home         -- HOME_LOOKUP is next
  | parked       -- in the retry queue (R224)
  | txn          -- waits for its transaction's home actions (R225)
  | blocked      -- made by the device; waits for reserve cells (R255)
  | bid          -- in the shared buffer, bidding from `firstBid`
  | granted      -- granted for the next tick
  | packing      -- first tick traversed; EGRESS_PACK is next
deriving DecidableEq, Repr

/-- Why a message is in the device (R26, R243, R253, R262): it came in at a pin, it is the second issue of one, the device made
it, or the harrow did. -/
inductive Origin where
  | ingress
  | second
  | device
  | harrow
deriving DecidableEq, Repr

/-- Where a message goes (R90): logical port, LD of an MLD, the address it carries there, rank (R245), the pool address of
its first byte, extent entry and line at the home (R210), COH, its tracker entry, the group of a write issued twice (R131),
its home transaction, the byte runs that return 0xFF (R192), messages that must pack before it (R232), whether it waits
for the read that R309 merges it into, the harrow channel and move that it is part of, and whether it completes a trapped request, for
which the meter finds no service context (R326). -/
structure Route where
  lp      : Nat
  ld      : Option Nat := none
  addr    : Nat := 0
  rank    : Nat := 1
  pool    : Option Nat := none
  key     : Option (Nat × Nat) := none
  coh     : Bool := false
  tracker : Option Nat := none
  group   : Option Nat := none
  txn     : Option Nat := none
  denied  : List (Nat × Nat) := []
  after   : List Nat := []
  merging : Bool := false
  move    : Option (Nat × Nat) := none
  trapped : Bool := false
deriving DecidableEq, Repr

/-- A message in flight. `stamp` is I (R22); messages stand in order of arrival; `req` is the header as it arrived, `hdr` as
it goes on; `cells`, `inLp`, `chCls` and `chPlot` are its shared-buffer reservation: the cells, and the logical port, class
and plot they are charged to (R253, R254); `firstBid` the first tick in which it bids; `self` its SELF is counted (R277);
`waited` its wait for a locked transfer is counted (R246); `since` the tick from which RETRY counts (R225), then that of its
grant and its traverse; `merged` that R309 merged it, so that it is not measured; `first` the message whose second issue it is (R131). -/
structure Msg where
  id       : Nat
  stage    : Stage
  origin   : Origin
  stamp    : Nat
  engine   : Nat
  hdr      : Hdr
  req      : Hdr
  cls      : Cls
  ctx      : Ctx := {}
  parts    : Parts := {}
  route    : Option Route := none
  inLp     : Nat
  chCls    : Nat := 0
  chPlot   : Nat := 0
  cells    : Nat := 0
  firstBid : Nat := 0
  self     : Bool := false
  waited   : Bool := false
  since    : Nat := 0
  merged   : Bool := false
  first    : Option Nat := none
deriving DecidableEq, Repr

/-- What a tracker entry's response is for: a request's requester, the merge of write `m` (R309), the read or the write of
the AtomicOp of transaction `t` (with the original operand, R238), a poison write of transaction `t` (R230), or the read or the write
of move `v` of harrow channel `c` (R259). -/
inductive TrkUse where
  | request
  | merge (m : Nat)
  | atomRd (t : Nat)
  | atomWr (t : Nat) (orig : List Byte)
  | poisonWr (t : Nat)
  | harRd (c v : Nat)
  | harWr (c v : Nat)
deriving DecidableEq, Repr

/-- A tracker entry (R96 to R102): an outstanding request that expects a response on logical port `lp` with tag `tag`; `req`
is the request's header as its requester sent it, `grant` the state its response grants (R227), `start` the tick of issue,
`sent` whether it has left the device, `mark` the trace tag that its record carries (R167), `got` the bytes that earlier completions of
the same read have brought (R39). -/
structure Tracker where
  id     : Nat
  lp     : Nat
  tag    : Nat
  cls    : Cls
  req    : Hdr
  use    : TrkUse := .request
  pool   : Option Nat := none
  key    : Option (Nat × Nat) := none
  grant  : Nat := 0
  denied : List (Nat × Nat) := []
  txn    : Option Nat := none
  group  : Option Nat := none
  start  : Nat
  sent   : Bool := false
  mark   : Nat := 0
  got    : Nat := 0
deriving DecidableEq, Repr

/-- A hash entry (R179, R182). -/
structure HEnt where
  key   : Word := 0
  data  : BitVec 63 := 0
  valid : Bool := false
deriving DecidableEq, Repr

/-- The table copies that a switch-over replaced, kept while a message fixed on them is in flight (R21). -/
structure Snap where
  epoch : Nat
  regs  : Tbl Word
  hash  : Tbl HEnt
  decs  : Tbl Decoder
deriving DecidableEq, Repr

/-- Residence totals of an egress logical port (R26, R31, R32): count, sums of EIN IDEH HOME SNOOP RETRY QUEUE CRED, largest,
overruns, and the worst message's stamp, ingress port and plot. -/
structure ResTot where
  count   : Nat := 0
  sums    : Parts := {}
  max     : Nat := 0
  overrun : Nat := 0
  worst   : Nat × Nat × Nat := (0, 0, 0)
deriving DecidableEq, Repr

/-- The datapath: messages in order of arrival, tracker entries, the trap queue with reasons, this tick's placed messages in
walk order with the levels' charges made, the messages whose second tick is still to be granted (R244), messages that lost a grant
to their input's budget this tick (R277), reserved messages whose own level was above 0 at the tick's start, residence totals,
table copies of earlier epochs, ids, how many issues of each group are not complete, the tick of the last arbitration, the
ports of the messages that were classified and that entered stage 1 in this tick (R17, R23), and the tags of entries that ended at
the timeout, whose late responses match no entry: logical port and tag (R102). -/
structure Datapath where
  msgs     : List Msg := []
  trackers : List Tracker := []
  trapQ    : List (Nat × Msg) := []
  bids     : List Nat := []
  cont     : List Nat := []
  qin      : List Nat := []
  rsvUp    : List Nat := []
  res      : Tbl ResTot := []
  snaps    : List Snap := []
  epoch    : Nat := 0
  nextId   : Nat := 0
  legs     : List (Nat × Nat) := []
  arbAt    : Option Nat := none
  classed  : List Nat := []
  entered  : List Nat := []
  lateTags : List (Nat × Nat) := []
deriving DecidableEq, Repr

/-! ### Plots, functions, decoders (04) -/

/-- A commit that is pending, and the furlong at which it is in force (R18). -/
inductive CommitKind where
  | plot | hedge | buffer | sched
  | prog (n p : Nat)
  | ht (p : Nat)
  | decoder (fid : Nat)
deriving DecidableEq, Repr

/-- A DOE mailbox (R39): the words of the request that its host has written, and those of the response still to be read. -/
structure Doe where
  req : List Word := []
  rsp : List Word := []
deriving DecidableEq, Repr

/-- Live objects of chapter 04 that have no register: decoders by FID, VF Enable and NumVFs by logical port, generation
advances that are due or held off, and the tick of each generation's last (R100, R101), error flags raised on AERs and the message
whose header an AER logs (R39), configuration registers by object and number, whether a load copy was written in this tick (R91), DOE
mailboxes by object, the regions of functions (R89), and what stands in their mailboxes: FID, event (0 added, 1 asked back), extent entry. -/
structure FnSt where
  decoders : Tbl Decoder := []
  vf       : Tbl (Bool × Nat) := []
  due      : List Nat := []
  advAt    : Tbl (Option Nat) := []
  aer      : Tbl Nat := []
  aerLog   : Tbl (List Nat) := []
  cfg      : Tbl Word := []
  loadDue  : Bool := false
  doe      : Tbl Doe := []
  regions  : Tbl (Nat × Nat) := []
  mailbox  : List (Nat × Nat × Nat) := []
deriving DecidableEq, Repr

/-! ### Engines, hash tables and the hedge (05, 07, 08) -/

/-- What the loader keeps of an accepted image beside its words and constants (R172, R183): stages, the block counts of the
four stages, tables declared, SHA-384, key slot, TICK in force. -/
structure Image where
  stages  : Nat := 0
  blocks  : List Nat := []
  tables  : Nat := 0
  hash    : BitVec 384 := 0
  keyId   : Nat := 0
  inForce : Nat := 0
deriving DecidableEq, Repr

/-- Engines: the load under way per engine (program, and the engine whose staging window it reads, R136), images per engine, program and slot, the slot last loaded, table
digests, hash entries in the load copy and in force, the seed under way, and what this tick's CNT instructions add to the counter whose
low word stands at an address (R170). -/
structure EngSt where
  loads   : Tbl (Option (Nat × Nat))
  images  : Tbl Image
  last    : Tbl (Option Nat)
  tdigest : Tbl (Option (BitVec 384))
  hashL   : Tbl HEnt
  hashF   : Tbl HEnt
  seeding : Option Nat
  adds    : Tbl Nat := []
deriving DecidableEq, Repr

/-- A denial that a port's notice took in this tick (R197): port, plot, address, space, parts, trace tag, and whether it opened the notice. -/
structure Denial where
  lp     : Nat
  plot   : Nat
  addr   : Nat
  space  : Nat
  parts  : Nat
  tag    : Nat
  opened : Bool
deriving DecidableEq, Repr

/-- The hedge: rule words by 4 × entry + word in copies A and B, whether a write ended the running check's standing (R199), the
messages packed but not yet gone from the egress pins, by parity and the tick they leave in, whether the old-epoch count stood at
0 at the end of the last tick (R202), whether the running drain has been reported overdue (R204), and the denials of this tick that notices took (R197). -/
structure HedgeSt where
  rulesA  : Tbl Word
  rulesB  : Tbl Word
  dirty   : Bool
  leaving : List (Bool × Nat) := []
  drained : Bool := false
  overdue : Bool := false
  denials : List Denial := []
deriving DecidableEq, Repr

/-! ### The coherence home (09) -/

/-- A directory entry (R216, R217, R221): state 0 FREE, 1 SHARED, 2 OWNED, 3 POISON. -/
structure DirEnt where
  tag     : Nat := 0
  state   : Nat := 0
  isOpen  : Bool := false
  sharers : List Nat := []
  retired : Bool := false
deriving DecidableEq, Repr

/-- Request kinds at the home (R226); `poison` is a sweep or victim transaction without a request. -/
inductive HomeKind where
  | rdS | rdE | invE | rdNa | invI | evict | wbKeep | wr | atomic | biconf | specRd | other | poison
deriving DecidableEq, Repr

/-- Back-invalidate snoops (R228). -/
inductive SnpKind where
  | inv | data | cur
deriving DecidableEq, Repr

/-- A snoop issued and not answered: port, BITag, kind, transaction, tick of issue (R228, R229, R234). -/
structure Snoop where
  lp    : Nat
  bitag : Nat
  kind  : SnpKind
  txn   : Nat
  start : Nat
deriving DecidableEq, Repr

/-- A transaction (R222 to R230) on key (e, n): the message it serves (none for a victim or a sweep's poison write), its
kind, COH, the requester's port and whether it is a holder, MetaValue, the directory entry that is its line's, snoops still to
issue, the trackers of writes ordered ahead of its own access, its victim's transaction, the tick its last lookup ended,
whether its home actions have resolved, and the trackers of its own access. -/
structure Txn where
  id      : Nat
  e       : Nat
  n       : Nat
  msg     : Option Nat
  kind    : HomeKind
  coh     : Bool
  q       : Nat
  holder  : Bool
  allocs  : Bool
  mv      : Meta
  way     : Option Nat
  toSnoop : List (Nat × SnpKind) := []
  before  : List Nat := []
  victim  : Option Nat := none
  done    : Bool := false
  mem     : List Nat := []
  lookEnd : Nat
deriving DecidableEq, Repr

/-- Why a message is parked (R223, R220). -/
inductive ParkCause where
  | conflict (e n : Nat)
  | setFull (set : Nat)
  | table
deriving DecidableEq, Repr

/-- A parked message: the credit it holds (none; its port's; its plot's), its cause, whether its wait has ended and the tick in which
it did (R224). -/
structure Parked where
  msg     : Nat
  credit  : Option Bool
  cause   : ParkCause
  ready   : Bool
  readyAt : Nat := 0
deriving DecidableEq, Repr

/-- The coherence home: directory by 16 × set + way, transactions, retry queue in order, pending snoops, the rotating pointer
of R222, for each port under a dead sweep whether its pass has completed and whether the link need not return first, the lookups
made in this tick (R222), the ways of a set in order of use, latest first (R219), and the ways whose poison write waits for its line to
close or for a transaction slot (R235). -/
structure HomeSt where
  dir    : Tbl DirEnt := []
  txns   : List Txn := []
  parked : List Parked := []
  snoops : List Snoop := []
  ptr    : Nat := 0
  sweeps : List (Nat × Bool × Bool) := []
  looked : Nat := 0
  recent : Tbl (List Nat) := []
  poison : List Nat := []
deriving DecidableEq, Repr

/-! ### Crossbar, scheduler and harrow (10, 11) -/

/-- A harrow line move issued and not complete: its number, its line, the plots whose keys its source and its destination entries name
(R262; 0 for none), what it is classified as (its hedge parity among it, R201), the logical port at whose crossbar input its write
enters, where the write goes (none for SCRUB), the mark that keeps its home transaction open until the write has completed (R185, R209), the data
gathered and whether it is poison, whether a burst has taken it up, whether it was read as poison, whether it has completed, and
whether it counts for the present `GO`. -/
structure HMove where
  id     : Nat
  line   : Nat
  plot   : Nat
  dplot  : Nat
  cls    : Cls
  inLp   : Nat
  out    : Option Route := none
  hold   : Option (Nat × Nat) := none
  data   : Option (List Byte × Bool) := none
  taken  : Bool := false
  poison : Bool := false
  done   : Bool := false
  counts : Bool := true
deriving DecidableEq, Repr

/-- A harrow channel: operation and entries as `GO` took them, lines issued and budget left in this furlong (R258), next line to issue and
the end of its range, open moves in order of issue, whether a poisoned line was seen since `GO`, the write messages of the running
burst that have not been granted, and all of them (R264), whether that burst has been granted a tick, whether it is a locked transfer (R246). -/
structure HarrowCh where
  op      : Nat := 0
  src     : Nat := 0
  dst     : Nat := 0
  spent   : Nat := 0
  budget  : Nat := 0
  next    : Nat := 0
  last    : Nat := 0
  moves   : List HMove := []
  seen    : Bool := false
  burst   : List Nat := []
  lines   : List Nat := []
  started : Bool := false
  locked  : Bool := false
deriving DecidableEq, Repr

/-- Cells that a packed message still holds: its reserve or charge, and the tick from which they are free (R253). -/
structure FreedCells where
  origin : Origin
  lp     : Nat
  cls    : Nat
  plot   : Nat
  cells  : Nat
  free   : Nat
deriving DecidableEq, Repr

/-- Harrow channels, rank-2 bytes packed per port in this furlong (R283), lines issued in this tick, the cells that
packed messages still hold (R253), whether BUFFER.LIMIT's load copy was written in this tick (R268), and the shaper levels that this
tick has changed, as they stood at its start (R286). -/
structure XbSt where
  harrow : Tbl HarrowCh := []
  rank2  : Tbl Nat := []
  issued : Nat := 0
  freed  : List FreedCells := []
  sumDue : Bool := false
  levels : List (Nat × Word) := []
deriving DecidableEq, Repr

/-! ### Links (02, 03, 12) -/

/-- Link-layer state of a logical port (R57, R61 to R67): oldest unacknowledged number A, next number N, next expected E; the
tick of the last NAK while E is awaited; NAK or ACK due at once; the tick from which an accepted flit waits for its ACK;
resends from the same A, the tick A last advanced; content bytes packed and not yet in a flit; flits sent since L0 entry; for
each credit class the count last sent and the flit that carried it (from 1); the next kept flit to resend. -/
structure Tfl where
  a       : Nat := 0
  n       : Nat := 0
  e       : Nat := 0
  nak     : Option Nat := none
  nakDue  : Bool := false
  ackDue  : Bool := false
  ackFrom : Option Nat := none
  tries   : Nat := 0
  stall   : Nat := 0
  pend    : Nat := 0
  flits   : Nat := 0
  adv     : Tbl (Nat × Nat) := []
  replay  : Option Nat := none
deriving DecidableEq, Repr

/-- Egress credit of a logical port and class (R66, R257): units consumed, limit, and whether a count has arrived. -/
structure Credit where
  cons  : Word := 0
  limit : Word := 0
  first : Bool := false
deriving DecidableEq, Repr

/-- A link: Recoveries in a row (R58), FEC corrections by lane in the furlong numbered (R56), link-layer state, the credit class
last sent (R61), sparing failures by lane (R71), the partner's announcement (R72), the SPARE items that are due, oldest first, the
tick D of a link down with the reads poisoned and writes lost by it (R74, R77) and whether the requests that depended on the port are
still to be ended, the width that excludes a failing lane (R73), whether training was refused and in which tick (R38), the fraction of a flit slot run
up, the lane whose spare is being compared, the width trained, the ticks in which the running exchange of the receive and of the
transmit pair started (R69), and whether a vPPB's software trigger of DPC waits for the end of a Recovery (R50). -/
structure Link where
  recov    : Nat := 0
  furlong  : Nat := 0
  fec      : Tbl Nat := []
  tfl      : Tfl := {}
  rotate   : Nat := 6
  fails    : Tbl Nat := []
  partner  : Bool := false
  spareDue : List (Nat × Nat) := []
  dropAt   : Option Nat := none
  dropDue  : Bool := false
  ends     : Nat × Nat := (0, 0)
  maxW     : Option Nat := none
  refused  : Bool := false
  slots    : Nat := 0
  cmp      : Option Nat := none
  width    : Nat := 0
  rxAt     : Option Nat := none
  txAt     : Option Nat := none
  trigDue  : Bool := false
  refuseAt : Nat := 0
deriving DecidableEq, Repr

/-- An IDE stream (R304 to R306): whether key sets 0 and 1 are programmed, whether the mode in force is containment, the
MAC-carrying flits whose check is due: their stamps, with the first message number after them, and of the epoch that the device is
sending the flits with content so far and the flit slots without any since the last one. -/
structure Ide where
  set0    : Bool := false
  set1    : Bool := false
  contain : Bool := false
  macs    : List (Nat × Nat) := []
  sent    : Nat := 0
  quiet   : Nat := 0
deriving DecidableEq, Repr

/-- Links by logical port, credits by 8 × port + class, advertised totals likewise, suspect pages by entry (page, port),
whether step 2 of R45 has been taken, and IDE streams (R304). -/
structure LinkSt where
  links    : Tbl Link
  credit   : Tbl Credit
  rxCnt    : Tbl Word
  suspects : Tbl (Option (Nat × Nat))
  released : Bool
  ide      : Tbl Ide
deriving DecidableEq, Repr

/-- What the device sends out, newest first. -/
inductive OutEvent where
  /-- A message in a flit of logical port `lp` whose first bit leaves in `tick`; viral as R402 sets it. -/
  | flit (lp tick : Nat) (ld : Option Nat) (h : Hdr) (viral : Bool)
  /-- The link field of a flit of a fabric port: SEQ, USE, KIND and BODY (R59 to R61). -/
  | link (lp seq : Nat) (use : Bool) (kind body : Nat)
  /-- A standard port's request for the replay of a flit whose CRC failed (R54). -/
  | replay (lp : Nat)
  /-- A standard port's advertisement of the total it has made available in a credit class (R257). -/
  | credit (lp cls total : Nat)
  /-- The next flit of a port in containment mode carries the MAC of the epoch sent (R305). -/
  | mac (lp : Nat)
  /-- Resend of kept flits from a sequence number (R64), or of the standard replay. -/
  | resend (lp first : Nat)
  /-- A sparing exchange item on a standard link (R72): SUB and lane. -/
  | dllp (lp sub lane : Nat)
  /-- An answer to a configuration request. -/
  | config (lp tag : Nat) (status : CplStatus) (value : Word)
  /-- A response of an SPDM endpoint. -/
  | spdm (ep : SpdmEp) (code : Nat) (body : List Byte)
  /-- A response of the FM API: return code and payload. -/
  | fm (code : Nat) (body : List Byte)
  /-- An endpoint's DMA, handed to the datapath, whose flits follow: read of, or bytes written to, host memory. -/
  | dmaRead (inst addr len id : Nat)
  | dmaWrite (inst addr : Nat) (body : List Byte)
  /-- A message interrupt, handed to the datapath: vector; or INTx asserted or deasserted. -/
  | msi (inst vec : Nat)
  | intx (inst : Nat) (on : Bool)
  | pme (inst : Nat)
  | wakeN
  | mctp (vdm : Option Lp) (body : List Word)
  | avs (mv : Nat)
  | heartbeat (tick : Nat)
  | jtag (value : Word)
  | vppb (vcs d : Nat) (bound : Bool)
deriving DecidableEq, Repr

/-! ### Trust and identity (12) -/

/-- A key slot (R310 to R312): state 0 UNUSED, 1 GENERATED, 2 INJECTED, 3 ERASING, the tick of its last change, its pair. -/
structure KSlot where
  state : Nat := 0
  tick  : Nat := 0
  pair  : BitVec 512 := 0
deriving DecidableEq, Repr

/-- JTAG instructions of IEEE 1149.1 (R314). -/
inductive JtagOp where
  | idcode | bypass | sample | extest | clamp | highz
deriving DecidableEq, Repr

/-- A secured SPDM session (R298): its number, the endpoint it was opened on, whether FINISH has completed the handshake, and
how often its keys were updated. -/
structure Session where
  sid     : Nat
  ep      : Nat
  open_   : Bool := false
  updates : Nat := 0
deriving DecidableEq, Repr

/-- Trust: key slots; the 97-byte keys of the key registry's 28 slots; sessions; the operator's certificate chains in slots 1 and
2 (R297); by endpoint the bytes of a request that comes in chunks and the last response (R298); the JTAG instruction;
whether zeroisation is under way, whether the identity secret has been blown (R291), and the ROM patches applied: word number and
word (R371). -/
structure SecSt where
  kslots   : Tbl KSlot
  keys     : Tbl (List Byte)
  sessions : List Session
  certs    : Tbl (List Byte)
  chunks   : Tbl (List Byte)
  last     : Tbl (List Byte)
  jtag     : JtagOp
  zeroDue  : Bool
  gone     : Bool
  patches  : List (Nat × Word) := []
deriving DecidableEq, Repr

/-! ### The steward endpoint (15) -/

/-- Where the command that an instance works on stands (R375, R381): its entry is being read (by DMA read `id`); the entry is
here; its input is being read (reads outstanding, then the address and length of each still to be issued); it carries an FM API
request that is to be answered; it waits for the firmware switch, the program loads or the meter command it started; or its output and
completion are to be written: status, `RESULT`, whether the completion sends no interrupt, output, bytes needed, and the outbox
bytes and trapped messages that its completion consumes. -/
inductive RingPhase where
  | fetch (ring id : Nat)
  | entry (ring : Nat)
  | input (ring : Nat) (c : Instr) (ids : List Nat) (todo : List (Nat × Nat))
  | fm (ring : Nat) (e : SqEntry)
  | switching (ring : Nat) (e : SqEntry)
  | wait (ring : Nat) (c : Instr)
  | ret (ring : Nat) (e : SqEntry) (status result : Nat) (body : List Byte) (need : Nat) (consume : Nat × Nat)
deriving DecidableEq, Repr

/-- An endpoint instance: interrupt mechanism, Interrupt Disable, INTA asserted, MSI-X vectors unmasked and with their pending
bits set, PME_En, PME_Status, a PM_PME message that waits for L0, SQ tails and CQ heads by ring, entries completed without
FLAGS bit 0 and not passed by the CQ head (ring, index), DMA reads outstanding (id, generation, tick of issue), the command under way, an
entry to D3hot that waits for it (R377 to R384), the tick in which the instance got its number (R365), MSI vectors with their pending
bits set (R378), the tick of the last PM_PME (R384), and a clear of Bus Master Enable and a function reset that take effect in the next
tick (R381, R382). -/
structure Ep where
  mech    : IntMech := .intx
  intDis  : Bool := false
  inta    : Bool := false
  umask   : Tbl Bool := []
  vpend   : Tbl Bool := []
  pmeEn   : Bool := false
  pmeStat : Bool := false
  pmeDue  : Bool := false
  tails   : Tbl Nat := []
  heads   : Tbl Nat := []
  cqPend  : List (Nat × Nat) := []
  reads   : List (Nat × Nat × Nat) := []
  cmd     : Option RingPhase := none
  d3Due   : Bool := false
  given   : Option Nat := none
  mpend   : Tbl Bool := []
  pmeAt   : Nat := 0
  bmeDue  : Bool := false
  rstDue  : Bool := false
deriving DecidableEq, Repr

/-- Work that the steward does by a plot commit (R42, R89): the FM API opcode, the load-copy words to write, the function and extent
entry of added or released capacity, and whether the words are written and the commit is accepted. -/
structure FmJob where
  op     : Nat
  writes : List (Nat × Word)
  fid    : Nat := 0
  idx    : Nat := 0
  loaded : Bool := false
deriving DecidableEq, Repr

/-- The steward: its endpoint instances, received MCTP messages waiting with where they came from and their bytes (R386), the FM API's event log, response limit, event
interrupt policy, the last background command (opcode, percent done, code), commits that commands wait for, and the images checked in firmware slots A and B
(R388 to R391), whether the cores have restarted in the other slot and whether they fell back since (R391, R392), the ring last
served, of the 32 of both instances (R374), the tick of the last kick and that in which the cores last restarted (R392). -/
structure StwSt where
  eps     : Tbl Ep
  mctp    : List (Option Nat × Nat × MctpMsg)
  events  : List Nat
  limit   : Nat
  policy  : Nat
  bg      : Option (Nat × Nat × Nat)
  jobs    : List FmJob
  fwSlots : Tbl (BitVec 384)
  fwOpen  : Bool
  fwFell  : Bool
  last    : Nat
  kick    : Nat
  swAt    : Nat := 0
deriving DecidableEq, Repr

/-! ### The configuration store (14) -/

/-- How far the steward is with the sections of step 6 (R361): none to load, writing, awaiting its commits, or done. -/
inductive LoadStep where
  | idle | write | commit | done
deriving DecidableEq, Repr

/-- The flash by byte address, the flash command under way (operation, address), the copy whose check runs (true for B), the
copies that start-up step 4 has still to check, first first, and the copy chosen: its HASH (R353 to R364). `ports` holds the
logical ports that step 7 is to enable (R356), `todo` the register writes of step 6 that are still to be made, and `load` how far that
is (R361). -/
structure CfgSt where
  flash : Tbl Byte
  job   : Option (Nat × Nat)
  check : Option Bool
  boot  : List Bool
  hash  : BitVec 384
  ports : List Nat
  todo  : List (Nat × Word) := []
  load  : LoadStep := .idle
deriving DecidableEq, Repr

/-! ### Clocks, supplies, temperature (17) -/

/-- What the sensors, the AVS master and the clock monitor remember (R412, R418, R420, R425): a gradient above 30 °C not yet back at
25 °C, a reading at 115 °C not yet all below 110 °C, writes in a row that the regulator has not acknowledged, the tick in
which each clock's CLKMON_STAT bit last fell and that in which each rail last tripped, and whether the MZ12's lateness at step 3 has
been raised. -/
structure CprSt where
  grad  : Bool
  hot   : Bool
  noack : Nat
  fell  : Tbl (Option Nat)
  trips : Tbl (Option Nat)
  late  : Bool
deriving DecidableEq, Repr

/-! ### The meter (13) -/

/-- A billing key slot (R342). -/
structure MKey where
  used    : Bool := false
  retired : Bool := false
  key     : List Byte := []
deriving DecidableEq, Repr

/-- The parameters that PARAM_DIGEST covers (R338): interval length, UTC anchor (milliseconds, MRTC), plot map and SC map as
16-bit entries, billing keys. -/
structure MPar where
  len     : Nat := 58593750
  anchor  : Nat × Nat := (0, 0)
  plotMap : Tbl Nat := []
  scMap   : Tbl Nat := []
  keys    : Tbl MKey := []
deriving DecidableEq, Repr

/-- A change that waits for an interval's start (R325). -/
inductive MChange where
  | sc (first count entry : Nat)
  | plot (p entry : Nat)
  | len (l : Nat)
deriving DecidableEq, Repr

/-- What the tally plane queues (R94, R331): an extent entry (its index), the units of it that move between plots, a plot's LIVE, and the holdings that
a rebuild scanned. -/
inductive MEvent where
  | extent (idx units : Nat) (old new : Option Nat)
  | plot (p : Nat) (live : Bool)
  | rebuild (units : Tbl Nat)
deriving DecidableEq, Repr

/-- A counter bank (R327): counts by 8 × account + quantity (0 RD, 1 WR, 2 IN, 3 EV, 4 PSN), UNATTR_EV and MISMATCH_EV. -/
structure MBank where
  counts   : Tbl Nat := []
  unattr   : Nat := 0
  mismatch : Nat := 0
deriving DecidableEq, Repr

/-- An interval that has ended and is not yet in a record: number, first tick, end, MRTC at both, flags, parameters. -/
structure MSpan where
  no    : Nat
  start : Nat
  stop  : Nat
  mrtc0 : Nat
  mrtc1 : Nat
  flags : Nat
  par   : MPar
deriving DecidableEq, Repr

/-- How the meter stood in a tick: number of the interval, MRTC, and the parameters in force (R336). -/
structure MStamp where
  tick : Nat
  no   : Nat
  mrtc : Nat
  par  : MPar
deriving DecidableEq, Repr

/-- The meter: MZ12 and tally plane. A device reset of the main die does not reset the MZ12 (R29). `due` holds changes with the
number of interval starts they still wait for; `idle` the ended intervals that the idle bank holds, `spare` those that the bank
in use holds (R333); `units` U_p, `hold` and `unHold` the holdings integrated since the last close, up to furlong `doneF`;
`ovf` the tick of an overflow whose rebuild is pending; `stopped` the tick and rail of a supply stop, `frozen` the stops that have ended; `ring` the
records kept, `rest` the bytes of record `cur` still to be streamed, `nextRec` the record streamed after it, `sent` streamed
records with the stream count at their ends; `down` the tick at which the link was lost;
`posted` the host's posted messages whose credit is still to be returned: port, service context, plot, bytes (R326); `stamps` how the
meter stood in ticks whose events are still to be recorded, `late` the EVENT records (code, detail, tick) that wait until the MZ12 may
write MRAM and reaches the tally plane (R346, R347). -/
structure Meter where
  ready   : Bool := false
  boot    : Nat := 0
  mrtc    : Nat := 0
  rtcBad  : Bool := false
  memBad  : Bool := false
  keyGone : Bool := false
  closed  : Bool := false
  fault   : Bool := false
  stopped : Option (Nat × Nat) := none
  frozen  : List (Nat × Nat) := []
  down    : Option Nat := none
  lost    : Bool := false
  audit   : Nat := 0
  nonce   : BitVec 64 := 0
  par     : MPar := {}
  due     : List (Nat × MChange) := []
  intNo   : Nat := 0
  start   : Nat := 0
  mrtc0   : Nat := 0
  flags   : Nat := 0
  bankA   : MBank := {}
  bankB   : MBank := {}
  inB     : Bool := false
  idle    : List MSpan := []
  spare   : List MSpan := []
  queue   : List (Nat × MEvent) := []
  ovf     : Option Nat := none
  ovfs    : Nat := 0
  units   : Tbl Nat := []
  hold    : Tbl Nat := []
  unHold  : Nat := 0
  doneF   : Nat := 0
  cum     : Tbl Nat := []
  cumSeq  : Nat := 0
  seq     : Nat := 0
  prev    : BitVec 384 := 0
  ring    : List (Nat × List Byte) := []
  cur     : Nat := 0
  rest    : List Byte := []
  nextRec : Nat := 1
  sent    : List (Nat × Nat) := []
  posted  : List (Nat × Option Nat × Nat × Nat) := []
  beat    : Nat := 0
  stamps  : List MStamp := []
  late    : List (Nat × Nat × Nat) := []
deriving DecidableEq, Repr

/-- The machine. `pending` is the queue of commands, first in first out; `furDone` the furlong whose phase-0 work is done;
`regs` every register that holds a value of its own, by address, `latches` the latches of 64-bit reads by source and
address; `freeCtr` counts draws of free values (the model's own, log 7); `out` what the device sent (the model's own). -/
structure State where
  pending : List Instr
  tick    : Nat
  furDone : Option Nat
  regs    : Tbl Word
  latches : Tbl Word
  freeCtr : Nat
  out     : List OutEvent
  commits : List (CommitKind × Nat)
  flt     : FaultSt
  dp      : Datapath
  fn      : FnSt
  eng     : EngSt
  hedge   : HedgeSt
  home    : HomeSt
  xb      : XbSt
  link    : LinkSt
  stw     : StwSt
  sec     : SecSt
  cfg     : CfgSt
  cpr     : CprSt
  mz      : Meter
deriving DecidableEq, Repr

/-- The state right after the main die leaves device reset: TICK 0, every register at the value `regReset` gives, nothing
in flight. -/
def State.reset : State where
  pending := []
  tick := 0
  furDone := none
  regs := []
  latches := []
  freeCtr := 0
  out := []
  commits := []
  flt := ⟨[], 0xEA6AE558, 0x3BE8, [], none, false⟩
  dp := {}
  fn := {}
  eng := ⟨[], [], [], [], [], [], none, []⟩
  hedge := { rulesA := [], rulesB := [], dirty := false }
  home := {}
  xb := {}
  link := ⟨[], [], [], [], false, []⟩
  stw := ⟨[], [], [], 8, 0, none, [], [], false, false, 31, 0, 0⟩
  sec := ⟨[], [], [], [], [], [], .idcode, false, false, []⟩
  cfg := { flash := [], job := none, check := none, boot := [], hash := 0, ports := [] }
  cpr := ⟨false, false, 0, [], [], false⟩
  mz := {}

end Sys2Proof.Machine
end

