-- ==== Sys2Proof/Machine/Ops.lean ====
section
/-! DEFINITION. Named operations over the state: register words and fields, counters, free values, what is sent out, and
the shapes of messages. -/

namespace Sys2Proof.Machine

/-! ### Words and fields -/

/-- Field [lo + n - 1 : lo] of a word (R9). -/
def fieldGet (w : Word) (lo n : Nat) : Nat := (w.toNat >>> lo) % 2 ^ n

/-- The bits of field [lo + n - 1 : lo]. -/
def fieldMask (lo n : Nat) : Word := BitVec.ofNat 32 ((2 ^ n - 1) <<< lo)

/-- `w` with `v` in field [lo + n - 1 : lo]. -/
def fieldPut (w : Word) (lo n v : Nat) : Word :=
  (w &&& ~~~ fieldMask lo n) ||| BitVec.ofNat 32 ((v % 2 ^ n) <<< lo)

/-- The register at address `a` of a register table. -/
def regAt (t : Tbl Word) (a : Nat) : Word := Tbl.get regReset t a

/-- A field of a register table. -/
def fieldAt (t : Tbl Word) (f : Fd) : Nat := fieldGet (regAt t f.addr) f.lo f.width

/-- The register at address `a`. -/
def State.rd (s : State) (a : Nat) : Word := Tbl.get regReset s.regs a

/-- The register at address `a` set to `v`. -/
def State.wr (s : State) (a : Nat) (v : Word) : State := { s with regs := Tbl.set regReset s.regs a v }

/-- A field's value. -/
def State.getF (s : State) (f : Fd) : Nat := fieldGet (s.rd f.addr) f.lo f.width

/-- A field set to `v`, the register's other bits kept. -/
def State.setF (s : State) (f : Fd) (v : Nat) : State := s.wr f.addr (fieldPut (s.rd f.addr) f.lo f.width v)

/-- Fields set one after another. -/
def State.setFs (s : State) (l : List (Fd × Nat)) : State := l.foldl (fun s x => s.setF x.1 x.2) s

/-- A count field raised by `k`, saturating (R53, R140, R208). -/
def State.addSat (s : State) (f : Fd) (k : Nat) : State := s.setF f (min (s.getF f + k) (2 ^ f.width - 1))

/-- A count field raised by 1, saturating. -/
def State.bump (s : State) (f : Fd) : State := s.addSat f 1

/-- A 64-bit value held in two registers, low half first. -/
def State.get64 (s : State) (lo hi : Nat) : Nat := (s.rd lo).toNat + 2 ^ 32 * (s.rd hi).toNat

/-- A 64-bit value written to two registers. -/
def State.set64 (s : State) (lo hi v : Nat) : State :=
  (s.wr lo (BitVec.ofNat 32 v)).wr hi (BitVec.ofNat 32 (v / 2 ^ 32))

/-- A 64-bit count raised by `k`, saturating (R105; log 80 where no rule says so). -/
def State.add64 (s : State) (lo hi k : Nat) : State := s.set64 lo hi (min (s.get64 lo hi + k) (2 ^ 64 - 1))

/-- 1 or 0. -/
def bit (b : Bool) : Nat := if b then 1 else 0

/-! ### Commands -/

/-- A command's effect `f`: the queue and TICK stay as they were (R14: no command but TICK and a device reset moves
TICK). -/
def act (s : State) (f : State → State) : Host.Outcome State Fault Refusal :=
  .next { f s with pending := s.pending, tick := s.tick }

/-- `f s` when `c` holds; else nothing happens (log 3: a command whose event cannot occur is no event). -/
def State.when (s : State) (c : Bool) (f : State → State) : State := if c then f s else s

/-- Send something out. -/
def State.emit (s : State) (e : OutEvent) : State := { s with out := e :: s.out }

/-- Draw a free value (log 7). -/
def State.draw (s : State) (w : Nat) : BitVec w × State :=
  (Config.freeValue w s.freeCtr, { s with freeCtr := s.freeCtr + 1 })

/-! ### Time (R15, R18) -/

/-- The furlong number. -/
def State.furlong (s : State) : Nat := s.tick / 256

/-- The phase. -/
def State.phase (s : State) : Nat := s.tick % 256

/-- The furlong from whose first tick a commit written in this tick is in force (R18). -/
def State.commitFurlong (s : State) : Nat := if s.phase < 252 then s.furlong + 1 else s.furlong + 2

/-- `t` ticks have passed since tick `start` by AON, whose cycle is ten ticks; a time that ran on its backup oscillator may be 3 % short
(R7, R413; log 57). -/
def State.aonPast (s : State) (start t : Nat) : Bool :=
  decide (start + t ≤ s.tick) ||
  (decide (s.getF Fld.cprClkStatAonBackup = 1) && decide (100 * start + 97 * t ≤ 100 * s.tick))

/-! ### Logical ports (R33, R34) -/

/-- Shape of physical port n: 0 x8, 1 split, 2 x16 lead, 3 x16 follow. -/
def State.shape (s : State) (n : Nat) : Nat := s.getF (Fld.portCfgMode n)

/-- The engine whose program store engine n runs: in an x16 cluster both run the even one's (R136). -/
def State.storeOf (s : State) (n : Nat) : Nat := if s.shape n = 3 then n - 1 else n

/-- Whether logical port `lp` exists in the shapes in force. -/
def State.lpExists (s : State) (lp : Nat) : Bool :=
  if s.shape (lp / 2) = 3 then false else decide (lp % 2 = 0) || decide (s.shape (lp / 2) = 1)

/-- Lanes of a shape. -/
def shapeWidth (mode : Nat) : Nat := if mode = 1 then 4 else if mode = 2 then 16 else 8

/-- Role of a logical port that exists: 0 upstream, 1 downstream, 2 fabric. -/
def State.role (s : State) (lp : Nat) : Nat := s.getF (Fld.portLpCtlRole lp)

/-- An existing logical port of role `r`. -/
def State.isRole (s : State) (lp r : Nat) : Bool := s.lpExists lp && decide (s.role lp = r)

/-- Its link is up: data link layer active. -/
def State.dllUp (s : State) (lp : Nat) : Bool := decide (s.getF (Fld.portLpStatDllUp lp) = 1)

/-- Its link is in L0 or L0p. -/
def State.inL0 (s : State) (lp : Nat) : Bool :=
  decide (s.getF (Fld.portLpStatLtssm lp) = 3 ∨ s.getF (Fld.portLpStatLtssm lp) = 4)

/-- The crossbar port of a logical port. -/
def xbarPort (lp : Nat) : Nat := lp / 2

/-- Physical ports of a logical port's shape. -/
def State.physOf (s : State) (lp : Nat) : List Nat :=
  if s.shape (lp / 2) = 2 then [lp / 2, lp / 2 + 1] else [lp / 2]

/-! ### Message shapes (R65, R120, R190, R243) -/

end Sys2Proof.Machine

namespace Sys2Proof

/-- Class of H0 [11:8] (R120); 0 for what no program meets. -/
def Opn.cls : Opn → Nat
  | .memRd | .memRdData | .memSpecRd | .memInv | .memInvNT | .memClnEvct | .memRdFwd | .memWrFwd | .memOther => 1
  | .memWr | .memWrPtl | .biConflict => 2
  | .ioMemRd => 3
  | .ioMemWr => 4
  | .fetchAdd _ | .swap _ | .cas _ => 5
  | .ioRd | .ioWr => 6
  | .ioMsg => 7
  | _ => 0

/-- A CXL.mem M2S request (Req or RwD). -/
def Opn.isMemReq (o : Opn) : Bool := decide (o.cls = 1 ∨ o.cls = 2)

/-- A CXL.io request. -/
def Opn.isIoReq (o : Opn) : Bool := decide (3 ≤ o.cls ∧ o.cls ≤ 7)

/-- A response on the fixed path (R117). -/
def Opn.isResponse : Opn → Bool
  | .ndr | .drs | .cpl => true
  | _ => false

/-- An M2S BIRsp. -/
def Opn.isBiRsp : Opn → Bool
  | .biRspI | .biRspS | .biRspE | .biRspBlk => true
  | _ => false

/-- CXL.mem traffic. -/
def Opn.isMem : Opn → Bool
  | .ndr | .drs => true
  | o => o.isMemReq || o.isBiRsp

/-- H0 [12]: the request needs a response: every CXL.mem request and every CXL.io non-posted request (R120). -/
def Opn.needsRsp : Opn → Bool
  | .ioMemWr | .ioMsg => false
  | o => decide (1 ≤ o.cls)

/-- A request that returns data: reads of CXL.mem and CXL.io memory (R74). -/
def Opn.isRead : Opn → Bool
  | .memRd | .memRdData | .ioMemRd | .memRdFwd => true
  | _ => false

/-- A CXL.mem write. -/
def Opn.isMemWr : Opn → Bool
  | .memWr | .memWrPtl => true
  | _ => false

/-- A memory write. -/
def Opn.isWrite : Opn → Bool
  | .memWr | .memWrPtl | .ioMemWr => true
  | _ => false

/-- What TWIN may issue twice: classes 0x2 and 0x4, and class 0x1 requests that carry data (R130). -/
def Opn.twins (o : Opn) : Bool := decide (o.cls = 2 ∨ o.cls = 4 ∨ o = .memWrFwd)

/-- An AtomicOp. -/
def Opn.isAtomic (o : Opn) : Bool := decide (o.cls = 5)

/-- Credit class (R65, R254), a BIConflictAck being an S2M NDR of CXL 3.1: 0 IO_P, 1 IO_NP, 2 IO_CPL, 3 MEM_REQ, 4 MEM_RSP, 5 BI_SNP, 6 BI_RSP. -/
def Opn.credit : Opn → Nat
  | .ioMemWr | .ioMsg => 0
  | .cpl => 2
  | .ndr | .drs | .biConflictAck => 4
  | .biSnpInv | .biSnpData | .biSnpCur => 5
  | .biRspI | .biRspS | .biRspE | .biRspBlk => 6
  | .memRd | .memRdData | .memSpecRd | .memInv | .memInvNT | .memClnEvct | .memRdFwd | .memWrFwd | .memOther
  | .memWr | .memWrPtl | .biConflict => 3
  | _ => 1

/-- A whole register as a field. -/
def Fd.whole (a : Nat) : Fd := ⟨a, 0, 32⟩

end Sys2Proof

namespace Sys2Proof.Machine

/-- Credit units: a 16-byte header and the payload, in whole 16-byte units (R65; log 13). -/
def Hdr.units (h : Hdr) : Nat := 1 + (h.data.length + 15) / 16

/-- Bytes in the flit (R243, R271). -/
def Hdr.flitLen (h : Hdr) : Nat := 16 * h.units

/-- Shared-buffer cells (R253). -/
def Hdr.cells (h : Hdr) : Nat := (h.flitLen + 63) / 64

/-- Ticks of traverse (R244). -/
def Hdr.xticks (h : Hdr) : Nat := (h.flitLen + 511) / 512

/-- Little-endian value of bytes. -/
def leNat (l : List Byte) : Nat := l.foldr (fun b acc => b.toNat + 256 * acc) 0

/-- `n` bytes of a value, little-endian. -/
def leBytes : Nat → Nat → List Byte
  | 0, _ => []
  | n + 1, v => BitVec.ofNat 8 v :: leBytes n (v / 256)

/-- Bytes [off, off + len) of a list, absent bytes reading 0. -/
def bytesAt (l : List Byte) (off len : Nat) : List Byte :=
  (List.range len).map (fun i => (l[off + i]?).getD 0)

/-- `l` with `new` from byte `off`. -/
def bytesPut (l : List Byte) (off : Nat) (new : List Byte) : List Byte :=
  l.take off ++ new ++ l.drop (off + new.length)

/-- Data in runs of 512 bytes, the largest payload (R39, R244); none is one empty run. -/
def chunksOf : Nat → List Byte → List (List Byte)
  | 0, l => [l]
  | k + 1, l => if l.length ≤ 512 then [l] else l.take 512 :: chunksOf k (l.drop 512)

/-! ### The datapath's lists -/

/-- The message numbered `m`, if it is in the device. -/
def State.msg? (s : State) (m : Nat) : Option Msg := s.dp.msgs.find? (fun x => x.id = m)

/-- The message numbered `m` replaced by what `f` makes of it. -/
def State.modMsg (s : State) (m : Nat) (f : Msg → Msg) : State :=
  { s with dp := { s.dp with msgs := s.dp.msgs.map (fun x => if x.id = m then f x else x) } }

/-- A new message, after every other in order of arrival; it gets the next number. -/
def State.addMsg (s : State) (f : Nat → Msg) : State :=
  { s with dp := { s.dp with msgs := s.dp.msgs ++ [f s.dp.nextId], nextId := s.dp.nextId + 1 } }

/-- The message numbered `m` taken out. -/
def State.delMsg (s : State) (m : Nat) : State :=
  { s with dp := { s.dp with msgs := s.dp.msgs.filter (fun x => x.id ≠ m) } }

/-- The tracker entry numbered `k`. -/
def State.tracker? (s : State) (k : Nat) : Option Tracker := s.dp.trackers.find? (fun x => x.id = k)

/-- Tables as a message's classification fixed them (R21). -/
def State.regsAt (s : State) (epoch : Nat) : Tbl Word :=
  match s.dp.snaps.find? (fun x => x.epoch = epoch) with
  | some x => x.regs
  | none => s.regs

/-- Hash entries in force as a message's classification fixed them (R21). -/
def State.hashAt (s : State) (epoch : Nat) : Tbl HEnt :=
  match s.dp.snaps.find? (fun x => x.epoch = epoch) with
  | some x => x.hash
  | none => s.eng.hashF

/-- Decoders as a message's classification fixed them (R21, R158). -/
def State.decodersAt (s : State) (epoch : Nat) : Tbl Decoder :=
  match s.dp.snaps.find? (fun x => x.epoch = epoch) with
  | some x => x.decs
  | none => s.fn.decoders

/-- A commit of kind `k` is pending. -/
def State.pendingCommit (s : State) (k : CommitKind) : Bool := s.commits.any (fun x => x.1 = k)

end Sys2Proof.Machine
end

