-- ==== Sys2Proof/Machine/Operands.lean ====
section
/-! DEFINITION. The Coulter instruction word (R142, R143), its load-time checks (R119, R121, R124, R138, R144, R149 to R169),
the message view (R120) and operands (R119). -/

namespace Sys2Proof.Machine

/-- The fields of an instruction word (R142). -/
structure CoW where
  op  : Nat
  dst : Nat
  sa  : Nat
  sb  : Nat
  qi  : Nat
  qs  : Nat
  sz  : Nat
  imm : Nat
deriving DecidableEq, Repr

/-- The word of given fields (R142). -/
def CoW.word (w : CoW) : Nat :=
  w.op * 2 ^ 56 + w.dst * 2 ^ 50 + w.sa * 2 ^ 44 + w.sb * 2 ^ 38 + w.qi * 2 ^ 35 + w.qs * 2 ^ 34 + w.sz * 2 ^ 32 + w.imm

/-- The fields of a 64-bit word (R142). -/
def coFields (x : Nat) : CoW :=
  ⟨x / 2 ^ 56 % 256, x / 2 ^ 50 % 64, x / 2 ^ 44 % 64, x / 2 ^ 38 % 64, x / 2 ^ 35 % 8, x / 2 ^ 34 % 2, x / 2 ^ 32 % 4, x % 2 ^ 32⟩

/-- What an opcode does with DST (R143). -/
inductive DstUse where
  | none | g | q
deriving DecidableEq, Repr

/-- Field use of an opcode: DST, SA, SB, SZ, IMM; SB and SA may depend on the immediate (R143, R152, R169). -/
structure OpUse where
  dst : DstUse
  sa  : Bool
  sb  : Bool
  sz  : Bool
  imm : Bool
deriving DecidableEq, Repr

/-- The opcode map (R143); none where reserved. -/
def opUse (w : CoW) : Option OpUse :=
  let ctl : OpUse := ⟨.none, false, false, false, false⟩
  match w.op with
  | 0x00 => some ctl
  | 0x01 => some ctl
  | 0x03 => some { ctl with imm := true }
  | 0x04 => some { ctl with imm := true }
  | 0x10 => some ⟨.g, true, true, true, false⟩
  | 0x11 => some ⟨.g, true, true, true, false⟩
  | 0x12 => some ⟨.g, true, true, false, false⟩
  | 0x13 => some ⟨.g, true, true, false, false⟩
  | 0x14 => some ⟨.g, true, true, false, false⟩
  | 0x15 => some ⟨.g, true, decide (w.imm / 32 % 2 = 1), false, true⟩
  | 0x16 => some ⟨.g, true, decide (w.imm / 32 % 2 = 1), false, true⟩
  | 0x17 => some ⟨.g, true, false, false, true⟩
  | 0x18 => some ⟨.g, true, true, false, true⟩
  | 0x19 => some ⟨.g, true, false, false, false⟩
  | 0x1A => some ⟨.g, false, false, false, true⟩
  | 0x1B => some ⟨.g, true, false, true, true⟩
  | 0x1C => some ⟨.g, true, false, false, true⟩
  | 0x20 => some ⟨.q, true, true, true, false⟩
  | 0x21 => some ⟨.q, true, true, true, false⟩
  | 0x22 => some ⟨.q, true, true, true, false⟩
  | 0x23 => some ⟨.q, true, true, true, false⟩
  | 0x24 => some ⟨.q, true, true, true, true⟩
  | 0x30 => some { ctl with sa := true }
  | 0x31 => some { ctl with sa := true, imm := true }
  | 0x32 => some { ctl with imm := true }
  | 0x40 => some { ctl with sa := true, sb := decide (w.imm % 4 < 2), imm := true }
  | 0x41 => some { ctl with sa := true, sb := decide (w.imm % 4 < 2), imm := true }
  | 0x42 => some ctl
  | 0x43 => some { ctl with imm := true }
  | 0x44 => some ctl
  | 0x45 => some ctl
  | 0x46 => some { ctl with imm := true }
  | 0x47 => some { ctl with imm := true }
  | 0x48 => some { ctl with imm := true }
  | 0x50 => some { ctl with sa := decide (w.imm / 256 % 2 = 1), imm := true }
  | _ => none

/-- Where a word stands in an image: number of stages, blocks of each, tables declared, and its stage, slot (from 0) and the
lookup words before it in its block. -/
structure CoPlace where
  stages : Nat
  blocks : List Nat
  tables : Nat
  stage  : Nat
  slot   : Nat
  looks  : Nat
deriving DecidableEq, Repr

/-- A lookup opcode (R123). -/
def isLookup (op : Nat) : Bool := decide (op = 0x30 ∨ op = 0x31 ∨ op = 0x32)

/-- An operand code that an instruction of stage `stage` may not read (R119, R138 OPERAND). -/
def badOperand (stage code : Nat) : Bool := decide (0x20 ≤ code) || (decide (stage = 0) && decide (0x18 ≤ code ∧ code ≤ 0x1B))

/-- The immediate is outside what the opcode accepts, for the opcodes R144 checks with IMM (R152, R154, R158, R160, R164,
R166 to R169). -/
def badImm (w : CoW) : Bool :=
  match w.op with
  | 0x15 | 0x16 => decide (64 ≤ w.imm) || (decide (w.imm / 32 % 2 = 1) && decide (w.imm % 32 ≠ 0))
  | 0x17 | 0x18 =>
    let pos := w.imm % 32
    let len := w.imm / 256 % 64
    !(decide (1 ≤ len ∧ len ≤ 32 ∧ pos + len ≤ 32) && decide (w.imm / 32 % 8 = 0 ∧ w.imm < 2 ^ 14))
  | 0x1B => decide (2 ^ szBits w.sz ≤ w.imm)
  | 0x24 => decide (w.imm = 0) || (decide (szBits w.sz < 32) && decide (2 ^ szBits w.sz < w.imm))
  | 0x32 => decide (1 < w.imm)
  | 0x40 | 0x41 => decide (4 ≤ w.imm)
  | 0x43 | 0x48 => decide (1 < w.imm)
  | 0x46 => decide (256 ≤ w.imm)
  | 0x47 => decide (2 ^ 16 ≤ w.imm)
  | 0x50 => decide (2 ^ 9 ≤ w.imm)
  | _ => false

/-- Every refusal code a word meets at its place, lowest first (R138, R144). -/
def coRefusals (p : CoPlace) (w : CoW) : List Nat :=
  match opUse w with
  | none => [0x05]
  | some u =>
    let nop := decide (w.op = 0x00)
    (if u.sz && decide (w.sz = 3) then [0x06] else []) ++
    (if (u.sa && badOperand p.stage w.sa) || (u.sb && badOperand p.stage w.sb) then [0x07] else []) ++
    (match u.dst with
      | .g => if 0x10 ≤ w.dst then [0x08] else []
      | .q => if 6 < w.dst then [0x08] else []
      | .none => if !nop && decide (w.dst ≠ 0) then [0x08] else []) ++
    (if !nop && decide (w.qi = 7 ∧ w.qs = 1) then [0x09] else []) ++
    (if (!u.sa && decide (w.sa ≠ 0)) || (!u.sb && decide (w.sb ≠ 0)) || (!u.sz && decide (w.sz ≠ 0)) ||
        (!u.imm && decide (w.imm ≠ 0)) || (nop && decide (w.word ≠ 0)) then [0x0A] else []) ++
    (if badImm w then [0x0B] else []) ++
    (if decide (w.op = 0x03) && !decide (1 ≤ w.imm ∧ w.imm + p.slot ≤ 7) then [0x0C] else []) ++
    (if decide (w.op = 0x04) && (decide (p.stages ≤ p.stage + 1) || decide ((p.blocks[p.stage + 1]?).getD 0 ≤ w.imm))
      then [0x0D] else []) ++
    (if isLookup w.op && decide (2 ≤ p.looks) then [0x0E] else []) ++
    (if isLookup w.op && decide (p.stages ≤ p.stage + 1) then [0x0F] else []) ++
    (if decide (w.op = 0x31) && (decide (3 < w.imm) || !(Nat.testBit p.tables w.imm)) then [0x10] else []) ++
    (if decide (w.op = 0x50) && decide (31 < w.imm % 256) then [0x11] else [])

/-- The word of slot `slot` of block `b` of stage `k` (from 0) in slot `sl` of program `p` of engine `n` (R141, R172). -/
def State.storeWord (s : State) (n p sl k b slot : Nat) : Nat :=
  let a := Reg.coulterStore n p sl (32 * k + 8 * b + slot)
  (s.rd a).toNat + 2 ^ 32 * (s.rd (a + 4)).toNat

/-- The message view H0 to H7 (R88, R120). -/
def Msg.view (m : Msg) (k : Nat) : Word :=
  let h := m.hdr
  match k with
  | 0 => BitVec.ofNat 32 (h.opc % 256 + h.op.cls * 2 ^ 8 + bit h.op.needsRsp * 2 ^ 12)
  | 1 => BitVec.ofNat 32 (h.addr % 2 ^ 32)
  | 2 => BitVec.ofNat 32 (h.addr / 2 ^ 32 % 2 ^ 20)
  | 3 => BitVec.ofNat 32 (h.size % 2 ^ 13)
  | 4 => BitVec.ofNat 32 (h.tag % 2 ^ 14)
  | 5 => BitVec.ofNat 32 m.cls.lp
  | 6 => BitVec.ofNat 32 m.cls.plot
  | _ => BitVec.ofNat 32 (m.cls.gen % 2 ^ 16 + m.cls.fid % 2 ^ 13 * 2 ^ 16)

/-- The value of an operand code (R119). -/
def State.operand (s : State) (m : Msg) (code : Nat) : Word :=
  if code < 0x10 then Tbl.get (fun _ => 0) m.ctx.g code
  else if code < 0x18 then m.view (code - 0x10)
  else if code < 0x1C then Tbl.get (fun _ => 0) m.ctx.t (code - 0x18)
  else if code < 0x20 then s.rd (Reg.coulterKconst (s.storeOf m.engine) m.cls.prog (m.cls.slot.getD 0) (code - 0x1C))
  else 0

/-- Q[i]; Q7 is always true (R121). -/
def Ctx.pred (c : Ctx) (i : Nat) : Bool := decide (i = 7) || Tbl.get (fun _ => false) c.q i

/-- The instruction executes: Q[QI] XOR QS is 1 (R121). -/
def CoW.executes (w : CoW) (c : Ctx) : Bool := c.pred w.qi != decide (w.qs = 1)

end Sys2Proof.Machine
end

