-- ==== Sys2Proof/Machine/Irq.lean ====
section
/-! DEFINITION. Interrupt sources of the steward endpoint instances (R377, R378). -/

namespace Sys2Proof.Machine

/-- An endpoint instance's state. -/
def State.ep (s : State) (i : Nat) : Ep := Tbl.get (fun _ => {}) s.stw.eps i

/-- An endpoint instance changed. -/
def State.setEp (s : State) (i : Nat) (e : Ep) : State :=
  { s with stw := { s.stw with eps := Tbl.set (fun _ => {}) s.stw.eps i e } }

/-- Whether source `src` of instance `i` is pending: its bit of INT_STAT (R377, R394). -/
def State.srcPending (s : State) (i src : Nat) : Bool :=
  if src < 16 then (Nat.testBit (s.getF (Fld.stewardIntStatCq i)) src)
  else Nat.testBit (s.getF (Fld.stewardIntStatEvt i)) (src - 16)

/-- An enabled source of the instance (INT_MAP.EN). -/
def State.srcEnabled (s : State) (i src : Nat) : Bool := decide (s.getF (Fld.stewardIntMapEn i src) = 1)

/-- Interrupts may be sent: Bus Master Enable is 1 and the instance is in D0 (R378). -/
def State.mayInterrupt (s : State) (i : Nat) : Bool :=
  decide (s.getF (Fld.stewardEpCfgBme i) = 1 ∧ s.getF (Fld.stewardEpCfgDstate i) = 0)

/-- An instance is presented (R365). -/
def State.epPresent (s : State) (i : Nat) : Bool := decide (s.getF (Fld.stewardEpCfgPresent i) = 1)

/-- The upstream logical port of an instance. -/
def State.epLp (s : State) (i : Nat) : Nat := s.getF (Fld.stewardEpCfgLp i)

/-- The instance presented on a logical port, if any. -/
def State.instOf (s : State) (lp : Nat) : Option Nat :=
  [0, 1].find? (fun i => s.epPresent i && decide (s.epLp i = lp))

/-- The configuration object of an instance, and that of its MSI-X table (log 20). -/
def epObj (i : Nat) : Nat := 0x3000 + i

/-- The object of an instance's MSI-X table. -/
def msixObj (i : Nat) : Nat := 0x3010 + i

/-- A word of an instance's configuration space or of its MSI-X table. -/
def State.epWord (s : State) (obj reg : Nat) : Nat := (Tbl.get (fun _ => 0) s.fn.cfg (1024 * obj + reg)).toNat

/-! ### What an instance sends (R270, R378, R384) -/

/-- The header of a CXL.io request of an instance. -/
def epHdr (op : Opn) (addr size tag : Nat) (data : List Byte) : Hdr :=
  { op := op, opc := 0, mv := .invalid, addr := addr, size := size, tag := tag, data := data, poison := false, status := .sc }

/-- An instance's request goes toward its host as a message of rank 1 that the device makes: it waits for reserve cells and passes the wire gate
(R245, R253, R270); over a link that is down it goes nowhere. -/
def State.epSend (s : State) (i : Nat) (h : Hdr) : State :=
  let lp := s.epLp i
  if !s.dllUp lp then s
  else s.addMsg (fun k => {
    id := k, stage := .blocked, origin := .device, stamp := s.tick, engine := 0, hdr := h, req := h,
    cls := ⟨lp, .homePath, 0x1FFF, 0, 0, 0, 0, none, false, s.dp.epoch⟩, route := some { lp := lp, rank := 1 }, inLp := lp, cells := h.cells })

/-- A DMA write of an instance: what it writes, in requests of at most 512 bytes (R39). -/
def State.dmaWrite (s : State) (i addr : Nat) (body : List Byte) : State :=
  ((chunksOf (body.length / 512) body).foldl (fun x c => (x.1.epSend i (epHdr .ioMemWr x.2 c.length 0 c), x.2 + c.length))
    (s.emit (.dmaWrite i addr body), addr)).1

/-- A message interrupt of an instance: a write of its vector's data to its vector's address (R378; PCIe places, log 20). -/
def State.sendMsi (s : State) (i v : Nat) : State :=
  let x : Nat × Nat := match (s.ep i).mech with
    | .msix => (s.epWord (msixObj i) (4 * v) + 2 ^ 32 * s.epWord (msixObj i) (4 * v + 1), s.epWord (msixObj i) (4 * v + 2))
    | _ => (s.epWord (epObj i) 37 + 2 ^ 32 * s.epWord (epObj i) 38, s.epWord (epObj i) 39 + v)
  (s.emit (.msi i v)).epSend i (epHdr .ioMemWr x.1 4 0 (leBytes 4 x.2))

/-- A PCI Express message of an instance (R378, R384). -/
def State.sendMsg (s : State) (i : Nat) (e : OutEvent) (data : List Byte) : State := (s.emit e).epSend i (epHdr .ioMsg 0 data.length 0 data)

/-- Signal one pending source under the mechanism in force (R378). -/
def State.signal (s : State) (i src : Nat) : State :=
  if s.mayInterrupt i && s.srcEnabled i src && s.srcPending i src then
    let v := s.getF (Fld.stewardIntMapVector i src)
    let e := s.ep i
    match e.mech with
    | .msix =>
      if Tbl.get (fun _ => false) e.umask v then s.sendMsi i v
      else s.setEp i { e with vpend := Tbl.set (fun _ => false) e.vpend v true }
    | .msi m =>
      let k := v % 2 ^ m.val
      if Nat.testBit (s.epWord (epObj i) 40) k then s.setEp i { e with mpend := Tbl.set (fun _ => false) e.mpend k true }
      else s.sendMsi i k
    | .intx => if e.intDis || e.inta then s else (s.setEp i { e with inta := true }).sendMsg i (.intx i true) []
  else s

/-- INTA follows the sources: deasserted when no enabled source is pending (R378). -/
def State.intaUpdate (s : State) (i : Nat) : State :=
  let e := s.ep i
  if e.inta && !((List.range 22).any (fun k => s.srcEnabled i k && s.srcPending i k) && !e.intDis &&
      decide (e.mech = .intx))
  then (s.setEp i { e with inta := false }).sendMsg i (.intx i false) [] else s

/-- The instance drives WAKE_N low: D3cold with PME_Status and PME_En both 1 (R384). -/
def State.wakeN (s : State) (i : Nat) : Bool :=
  s.epPresent i && !s.dllUp (s.epLp i) && (s.ep i).pmeStat && (s.ep i).pmeEn

/-- PM_PME goes upstream, or waits for the link to be in L0 (R384). -/
def State.sendPme (s : State) (i : Nat) : State :=
  if s.inL0 (s.epLp i) then (s.setEp i { s.ep i with pmeDue := false, pmeAt := s.tick }).sendMsg i (.pme i) []
  else s.setEp i { s.ep i with pmeDue := true }

/-- A wake event of an instance: PME_Status is set, and PM_PME is sent in D3hot or WAKE_N driven in D3cold (R384). -/
def State.wake (s : State) (i : Nat) : State :=
  if (s.ep i).pmeEn then
    let s := s.setEp i { s.ep i with pmeStat := true }
    if s.wakeN i then s.emit .wakeN
    else if s.getF (Fld.stewardEpCfgDstate i) = 3 then s.sendPme i
    else s
  else s

/-- Source `src` of instance `i` becomes pending, and is signalled; one enabled in WAKE_MASK is a wake event (R377, R378,
R384). -/
def State.pendSource (s : State) (i src : Nat) : State :=
  if !s.epPresent i then s
  else
    let was := s.srcPending i src
    let f := if src < 16 then Fld.stewardIntStatCq i else Fld.stewardIntStatEvt i
    let s := (s.setF f (s.getF f ||| (1 <<< (src % 16)))).signal i src
    if !was && Nat.testBit (s.getF (Fld.stewardWakeMaskMask i)) src then s.wake i else s

/-- A device event: source `src` becomes pending in both instances. -/
def State.pendAll (s : State) (src : Nat) : State := (s.pendSource 0 src).pendSource 1 src

/-- An event enters the FM API's log of 256 entries, and source 19 is pending (R388, R377): `kind` 1 hot plug, 2 link down,
3 a committed bind; `n` what it names. -/
def State.fmEvent (s : State) (kind n : Nat) : State :=
  let s := if s.stw.events.length < 256 then { s with stw := { s.stw with events := s.stw.events ++ [kind * 65536 + n] } } else s
  s.pendAll 19

/-! ### Function reset of an instance (R382) -/

/-- An instance's configuration registers and MSI-X table take their reset values (log 20). -/
def State.epCfgReset (s : State) (i : Nat) : State :=
  { s with fn := { s.fn with cfg := Tbl.clear (Tbl.clear s.fn.cfg (1024 * epObj i) 1024) (1024 * msixObj i) 1024 } }

/-- A function reset of an instance: GEN advances, an entry that already holds the new value is released as gleaned, rings and
registers take their reset values, pending interrupts and held output go; sticky bits stay. -/
def State.epReset (s : State) (i : Nat) : State :=
  if !s.epPresent i then s
  else
    let e := s.ep i
    let g := (s.getF (Fld.stewardEpCfgGen i) + 1) % 65536
    let old := (e.reads.filter (fun r => decide (r.2.1 = g))).length
    let mask := s.rd (Reg.stewardWakeMask i)
    let cfg := s.rd (Reg.stewardEpCfg i)
    let s := if e.inta then s.sendMsg i (.intx i false) [] else s
    let s := { s with regs := Tbl.clear (Tbl.clear s.regs (Reg.stewardEpCfg i) 0x100) (Reg.stewardRingSqBaseLo i 0) 0x200 }
    let s := ((s.wr (Reg.stewardWakeMask i) mask).wr (Reg.stewardEpCfg i) (fieldPut cfg 7 3 0)).setF (Fld.stewardEpCfgGen i) g
    let s := s.addSat (Fd.whole (Reg.stewardEpGlean i)) old
    (s.epCfgReset i).setEp i { pmeEn := e.pmeEn, pmeStat := e.pmeStat, reads := e.reads.filter (fun r => decide (r.2.1 ≠ g)) }

/-- A function reset of an instance is accepted: it is done in the next tick (R382). -/
def State.epResetDue (s : State) (i : Nat) : State := if s.epPresent i then s.setEp i { s.ep i with rstDue := true } else s

end Sys2Proof.Machine
end

