-- ==== Sys2Proof/Machine/Fault.lean ====
section
/-! DEFINITION. The fault collector (16): raising an event, ordering and recording a tick's events, the first-error latch,
and the commands of the FAULT block but the safe-state reaction (Machine/Safe.lean). -/

namespace Sys2Proof.Machine

/-- A block reports an event: it joins the events of this tick (R397; log 4). -/
def State.raise (s : State) (e : FaultEv) : State :=
  { s with flt := { s.flt with tickEvents := s.flt.tickEvents ++ [e] } }

/-- Severity in force of a source: 0 MASKED, 1 NOTE, 2 DEGRADED, 3 FATAL (R396); source 0x16 is always FATAL. -/
def State.severity (s : State) (src : Nat) : Nat :=
  if src = 0x16 then 3
  else if src < 16 then fieldGet s.flt.sev0 (2 * src) 2
  else fieldGet s.flt.sev1 (2 * (src - 16)) 2

/-- A key of R397: a named value comes before a missing one. -/
def orderKey (o : Option Nat) : Nat := match o with | some v => v | none => 2 ^ 64

/-- The order keys of R397 of an event. -/
def FaultEv.keys (e : FaultEv) : List Nat :=
  [e.src, orderKey e.lp, orderKey e.plot, orderKey (e.fn.map (·.1)), orderKey (e.addr.map (·.1)), e.d0]

/-- Lexicographic order of key lists. -/
def keysLt : List Nat → List Nat → Bool
  | a :: as, b :: bs => decide (a < b) || (decide (a = b) && keysLt as bs)
  | _, _ => false

/-- Insert an event after every event that does not come after it. -/
def insertEv (e : FaultEv) : List FaultEv → List FaultEv
  | [] => [e]
  | x :: xs => if keysLt e.keys x.keys then e :: x :: xs else x :: insertEv e xs

/-- The events of a tick in the order of R397. -/
def orderEvs (l : List FaultEv) : List FaultEv := l.foldl (fun acc e => insertEv e acc) []

/-- 1 where a value is named. -/
def named {α : Type} (o : Option α) : Nat := bit o.isSome

/-- The words W0 to W9 of a record (R399). -/
def FaultEv.words (e : FaultEv) (seq sev : Nat) : List Nat :=
  let fn := e.fn.getD (0, 0)
  let ad := e.addr.getD (0, 0)
  [seq, e.tick, e.tick / 2 ^ 32,
   e.src + sev * 2 ^ 8 + (e.lp.getD 0) * 2 ^ 10 + (e.plot.getD 0) * 2 ^ 16 + named e.lp * 2 ^ 28 +
     named e.plot * 2 ^ 29 + named e.fn * 2 ^ 30 + named e.addr * 2 ^ 31,
   fn.1 % 2 ^ 13 + fn.2 * 2 ^ 16,
   ad.1 % 2 ^ 32, (ad.1 / 2 ^ 32) % 2 ^ 20 + (ad.2 % 4) * 2 ^ 20,
   e.tag % 2 ^ 16 + bit e.inj * 2 ^ 16, e.d0, e.d1]

/-- Write words at consecutive keys of a word table of default 0. -/
def putWords (t : Tbl Word) (k : Nat) : List Nat → Tbl Word
  | [] => t
  | w :: ws => putWords (Tbl.set (fun _ => 0) t k (BitVec.ofNat 32 w)) (k + 1) ws

/-- Make a sheaf record of an event (R398, R399). -/
def State.record (s : State) (e : FaultEv) : State :=
  let seq := (s.rd Reg.faultSheafSeq).toNat + 1
  let s := s.wr Reg.faultSheafSeq (BitVec.ofNat 32 seq)
  let seq := seq % 2 ^ 32
  let s := { s with flt := { s.flt with sheaf := putWords s.flt.sheaf (16 * (seq % 64)) (e.words seq (s.severity e.src)) } }
  s.pendAll 16

/-- The first-error latch takes an event, or notes that it came too late (R400). -/
def State.latch (s : State) (e : FaultEv) : State :=
  let sev := s.severity e.src
  if decide (0 < sev) && decide (max 1 (s.getF Fld.faultCtlFerrMin) ≤ sev) then
    if s.getF Fld.faultFerrValid = 1 then s.setF Fld.faultFerrOvf 1
    else
      let s := s.setFs [(Fld.faultFerrSrc, e.src), (Fld.faultFerrSev, sev), (Fld.faultFerrValid, 1)]
      (s.wr Reg.faultFerrDetail (BitVec.ofNat 32 e.d0)).set64 Reg.faultFerrTickLo Reg.faultFerrTickHi e.tick
  else s

/-- Handle one event of a tick: count it, record it while fewer than 4 records were made in the tick, latch it, act on its
severity (R395, R397, R400 to R402). The count of records made comes and goes with it. -/
def State.collect (x : State × Nat) (e : FaultEv) : State × Nat :=
  let s := x.1.bump (Fld.faultCntCount e.src)
  let sev := s.severity e.src
  let made := decide (0 < sev) && decide (x.2 < 4)
  let s := if made then s.record e else if 0 < sev then s.bump Fld.faultSheafLostDropped else s
  let s := s.latch e
  let s := if 2 ≤ sev then s.setF Fld.faultStatDegraded 1 else s
  let s := if sev = 3 ∧ s.flt.fatalDue = none ∧ s.getF Fld.faultStatFatal = 0
    then { s with flt := { s.flt with fatalDue := some (s.tick, e.src) } } else s
  (s, if made then x.2 + 1 else x.2)

/-- The end of a tick for the collector: its events are taken in order, and severity writes of the tick come into force
(R396, R397). -/
def State.flushFaults (s : State) : State :=
  let s := ((orderEvs s.flt.tickEvents).foldl State.collect (s, 0)).1
  { s with flt := { s.flt with tickEvents := [], sev0 := s.rd Reg.faultSev0, sev1 := s.rd Reg.faultSev1 } }

/-! ### Commands of the FAULT block -/

/-- The pulse that began in tick F has lasted 250 AON cycles, 2,500 ticks (R402, R403). -/
def State.pulseOver (s : State) : Bool :=
  s.aonPast (s.get64 Reg.faultFatalTickLo Reg.faultFatalTickHi + 1) 2500

/-- FAULT_N_PULSE_END: the pulse ends, and the pin follows LEVEL (R403). -/
def execFaultNPulseEnd (s : State) : Host.Outcome State Fault Refusal :=
  act s (fun s => if s.pulseOver then s.setF Fld.faultFltPinPulse 0 else s)

/-- FLT_PIN_WRITE: LEVEL takes the written bit, and governs outside the pulse (R403, R407). -/
def execFltPinWrite (v : Word) (s : State) : Host.Outcome State Fault Refusal :=
  act s (fun s => s.setF Fld.faultFltPinLevel (fieldGet v 0 1))

/-- FAULT_N is driven low: during the pulse, and outside it while LEVEL is 1 (R403). -/
def State.faultN (s : State) : Bool :=
  decide (s.getF Fld.faultFltPinPulse = 1) || decide (s.getF Fld.faultFltPinLevel = 1)

/-- The effect of a write of FAULT.CTL: its RW fields take the value, and FORCE raises source 0x16 with the written
FORCE_CODE (R404, R407). -/
def State.faultCtlWrite (s : State) (v : Word) : State :=
  let s := s.setFs [(Fld.faultCtlFerrMin, fieldGet v 0 2), (Fld.faultCtlForceCode, fieldGet v 8 8)]
  if fieldGet v 2 1 = 1 then s.raise { src := 0x16, tick := s.tick, d0 := s.getF Fld.faultCtlForceCode } else s

/-- FORCE: a write of CTL.FORCE raises source 0x16 (R404). -/
def execForce (v : Word) (s : State) : Host.Outcome State Fault Refusal := act s (·.faultCtlWrite v)

/-- Fault injection is enabled: MANUFACTURE, or BLANK with TESTMODE high (R405). -/
def State.injEnabled (s : State) : Bool :=
  decide (s.getF Fld.globalLifecycleState = 1) ||
    (decide (s.getF Fld.globalLifecycleState = 0) && decide (s.getF Fld.globalLifecycleTestmode = 1))

/-- The effect of a write of FAULT.INJ (R405, R406, R408): nothing unless injection is enabled. -/
def State.injWrite (s : State) (v : Word) : State :=
  if s.injEnabled then
    let s := s.setFs [(Fld.faultInjSrc, fieldGet v 0 8), (Fld.faultInjLp, fieldGet v 8 6)]
    let src := s.getF Fld.faultInjSrc
    if fieldGet v 14 1 = 1 ∧ 0 < src ∧ src ≤ 0x16 then
      s.raise { src := src, tick := s.tick, lp := some (s.getF Fld.faultInjLp), inj := true,
                d0 := (s.rd Reg.faultInjDetail).toNat }
    else s
  else s

/-- INJ_GO: a write of FAULT.INJ (R406). -/
def execInjGo (v : Word) (s : State) : Host.Outcome State Fault Refusal := act s (·.injWrite v)

/-- FERR.VALID written 1: the whole latch clears (R400). -/
def State.ferrClear (s : State) : State :=
  (((s.wr Reg.faultFerr 0).wr Reg.faultFerrDetail 0).wr Reg.faultFerrTickLo 0).wr Reg.faultFerrTickHi 0

/-- FERR_CLEAR (R400). -/
def execFerrClear (s : State) : Host.Outcome State Fault Refusal := act s (·.ferrClear)

/-- The effect of a write of severity register `n`: fields of codes in use take the value; source 0x16 keeps FATAL; in force
from the next tick (R396, R408). -/
def State.sevWrite (s : State) (n : Nat) (v : Word) : State :=
  if n = 0 then s.setF ⟨Reg.faultSev0, 2, 30⟩ (fieldGet v 2 30)
  else if n = 1 then s.setF ⟨Reg.faultSev1, 0, 12⟩ (fieldGet v 0 12)
  else s

/-- SEV_WRITE (R396). -/
def execSevWrite (n : Fin 4) (v : Word) (s : State) : Host.Outcome State Fault Refusal := act s (·.sevWrite n.val v)

/-- The effect of a write of SHEAF_IDX: SLOT, and the slot's record copied into the view (R408). -/
def State.sheafIdxWrite (s : State) (v : Word) : State :=
  let k := fieldGet v 0 6
  (List.range 16).foldl (fun s i => s.wr (Reg.faultSheafW i) (Tbl.get (fun _ => 0) s.flt.sheaf (16 * k + i)))
    (s.setF Fld.faultSheafIdxSlot k)

/-- SHEAF_IDX_WRITE (R408). -/
def execSheafIdxWrite (v : Word) (s : State) : Host.Outcome State Fault Refusal := act s (·.sheafIdxWrite v)

end Sys2Proof.Machine
end

