-- ==== Sys2Proof/Machine/Plot.lean ====
section
/-! DEFINITION. Plots and presented devices (04): the check of the load copies, PLOT.COMMIT and its seed, function states and
generations, resets, HDM decoders, and the resolution of pool addresses. -/

namespace Sys2Proof.Machine

/-! ### Listed entries of a table -/

/-- Numbers of the elements of an array of registers that have a listed word, ascending. -/
def listed (t : Tbl Word) (base stride count : Nat) : List Nat :=
  ((Tbl.within t base (stride * count)).foldl
    (fun acc e => match acc with
      | x :: _ => if x = (e.1 - base) / stride then acc else (e.1 - base) / stride :: acc
      | [] => [(e.1 - base) / stride]) []).reverse

/-- Plots whose load entry lists a word, with plot 0. -/
def plotsL (t : Tbl Word) : List Nat := (0 :: listed t (Reg.plotPlotW0Load 0) 0x20 4096).eraseDups

/-- Extent entries whose load copy is valid. -/
def extentsL (t : Tbl Word) : List Nat :=
  (listed t (Reg.extentXtW0Load 0) 8 131072).filter (fun i => fieldAt t (Fld.extentXtW0LoadValid i) = 1)

/-- Valid extent entries in force. -/
def extentsF (t : Tbl Word) : List Nat :=
  (listed t (Reg.extentXtW0 0) 8 131072).filter (fun i => fieldAt t (Fld.extentXtW0Valid i) = 1)

/-- Functions whose load copy is assigned. -/
def fnsL (t : Tbl Word) : List Nat :=
  (listed t (Reg.plotFnW0Load 0) 0x10 4096).filter (fun i => fieldAt t (Fld.plotFnW0LoadAssign i) = 1)

/-- Pools whose load copy is valid. -/
def poolsL (t : Tbl Word) : List Nat :=
  (listed t (Reg.extentPoolW0Load 0) 0x10 64).filter (fun i => fieldAt t (Fld.extentPoolW0LoadValid i) = 1)

/-- A plot is LIVE in the load copy. -/
def liveL (t : Tbl Word) (p : Nat) : Bool := decide (fieldAt t (Fld.plotPlotW0LoadLive p) = 1)

/-- Existing upstream logical ports: those whose VCS entry counts as assigned (R103). -/
def State.upstreams (s : State) : List Nat := (List.range 64).filter (fun l => s.isRole l 0)

/-! ### Violations (R81 to R84, R92, R111) -/

/-- Half-open runs share a member. -/
def runsMeet (a m b n : Nat) : Bool := decide (0 < m ∧ 0 < n ∧ a < b + n ∧ b < a + m)

/-- Range violations of codes 0x01 and 0x02: plots whose range passes the limit, and the higher plot of the first
overlapping pair. -/
def rangeViol (ps : List Nat) (base cnt : Nat → Nat) (limit : Nat) : List Nat :=
  ps.filter (fun p => decide (limit < base p + cnt p)) ++
  ((ps.flatMap (fun p => (ps.filter (fun q => decide (p < q) && runsMeet (base p) (cnt p) (base q) (cnt q))))).take 1)

/-- The lowest plot at which a quota's running sum passes its limit. -/
def sumViol (ps : List Nat) (quota : Nat → Nat) (limit : Nat) : List Nat :=
  ((ps.foldl (fun (acc : Nat × List Nat) p =>
    let t := acc.1 + quota p
    (t, if limit < t then acc.2 ++ [p] else acc.2)) (0, [])).2).take 1

/-- The program or service context an entry names lies outside its plot's (code 0x07). -/
def bindViol (t : Tbl Word) (plot prog sc : Nat) : Bool :=
  !(Nat.testBit (fieldAt t (Fld.plotPlotW6LoadProgMask plot)) prog) ||
  !decide (fieldAt t (Fld.plotPlotW1LoadScBase plot) ≤ sc ∧
    sc < fieldAt t (Fld.plotPlotW1LoadScBase plot) + fieldAt t (Fld.plotPlotW1LoadScCnt plot))

/-- Extent size bit of an entry's pool. -/
def xszL (t : Tbl Word) (i : Nat) : Nat := fieldAt t (Fld.extentPoolW0LoadXsz (fieldAt t (Fld.extentXtW0LoadPool i)))

/-- Code 0x08 of an assigned function: its list passes the table, or holds a valid entry of another plot or size. -/
def listViol (t : Tbl Word) (xs : List Nat) (f : Nat) : Bool :=
  let b := fieldAt t (Fld.plotFnW2LoadXtBase f)
  let c := fieldAt t (Fld.plotFnW3LoadXtCnt f)
  decide (131072 < b + c) || xs.any (fun i => decide (b ≤ i ∧ i < b + c) &&
    (decide (fieldAt t (Fld.extentXtW1LoadPlot i) ≠ fieldAt t (Fld.plotFnW0LoadPlot f)) ||
     decide (xszL t i ≠ fieldAt t (Fld.plotFnW0LoadXsz f))))

/-- Code 0x09: an extent entry breaks R82 or R83. -/
def extentViol (t : Tbl Word) (i : Nat) : Bool :=
  let q := fieldAt t (Fld.extentXtW0LoadPool i)
  let x := fieldAt t (Fld.extentXtW0LoadPxb i)
  let b := fieldAt t (Fld.extentPoolW0LoadBase q)
  let st := fieldAt t (Fld.extentXtW1LoadState i)
  let a := fieldAt t (Fld.extentXtW1LoadAlt i)
  decide (fieldAt t (Fld.extentPoolW0LoadValid q) = 0) ||
  !decide (b ≤ x ∧ x < b + fieldAt t (Fld.extentPoolW1LoadLen q)) ||
  (decide (xszL t i = 1) && decide (x % 4 ≠ 0)) || decide (st = 3) ||
  (decide (st = 1) && !(decide (fieldAt t (Fld.extentXtW0LoadValid a) = 1) &&
    decide (fieldAt t (Fld.extentXtW1LoadPlot a) = fieldAt t (Fld.extentXtW1LoadPlot i)) &&
    decide (xszL t a = xszL t i)))

/-- The valid members of a pool: (OFF, LEN, DPA_BASE, LP). -/
def membersL (t : Tbl Word) (q : Nat) : List (Nat × Nat × Nat × Nat) :=
  ((List.range 16).filter (fun m => fieldAt t (Fld.extentMemberW0LoadValid q m) = 1)).map (fun m =>
    (fieldAt t (Fld.extentMemberW0LoadOff q m), fieldAt t (Fld.extentMemberW1LoadLen q m),
     fieldAt t (Fld.extentMemberW2LoadDpaBase q m), fieldAt t (Fld.extentMemberW3LoadLp q m)))

/-- The pairs of a list, each with a later member. -/
def pairsOf {α : Type} : List α → List (α × α)
  | [] => []
  | x :: xs => xs.map (fun y => (x, y)) ++ pairsOf xs

/-- Code 0x0A: a pool breaks R81, or a member's port is not downstream or fabric. -/
def State.poolViol (s : State) (t : Tbl Word) (q : Nat) : Bool :=
  let len := fieldAt t (Fld.extentPoolW1LoadLen q)
  let b := fieldAt t (Fld.extentPoolW0LoadBase q)
  let ms := membersL t q
  let big := decide (fieldAt t (Fld.extentPoolW0LoadXsz q) = 1)
  !decide ((ms.map (fun m => m.2.1)).sum = len) ||
  ms.any (fun m => decide (len < m.1 + m.2.1)) ||
  (pairsOf ms).any (fun x => runsMeet x.1.1 x.1.2.1 x.2.1 x.2.2.1) ||
  (big && (decide (b % 4 ≠ 0 ∨ len % 4 ≠ 0) ||
    ms.any (fun m => decide (m.1 % 4 ≠ 0 ∨ m.2.1 % 4 ≠ 0 ∨ m.2.2.1 % 4 ≠ 0)))) ||
  (poolsL t).any (fun r => decide (r ≠ q) && runsMeet b len (fieldAt t (Fld.extentPoolW0LoadBase r))
    (fieldAt t (Fld.extentPoolW1LoadLen r))) ||
  ms.any (fun m => !(s.isRole m.2.2.2 1 || s.isRole m.2.2.2 2))

/-- Valid vPPB bindings of the load copy: (VCS, d), d from 2. -/
def bindsL (t : Tbl Word) : List (Nat × Nat) :=
  ((listed t (Reg.plotVppbLoad 0 0) 4 2048).map (fun k => (k / 32, k % 32))).filter
    (fun x => decide (x.2 < 30) && decide (fieldAt t (Fld.plotVppbLoadValid x.1 x.2) = 1))

/-- The port or LD that a binding names: (LP, MLD, LD). -/
def bindPlace (t : Tbl Word) (x : Nat × Nat) : Nat × Nat × Nat :=
  (fieldAt t (Fld.plotVppbLoadLp x.1 x.2), fieldAt t (Fld.plotVppbLoadMld x.1 x.2),
   if fieldAt t (Fld.plotVppbLoadMld x.1 x.2) = 1 then fieldAt t (Fld.plotVppbLoadLd x.1 x.2) else 0)

/-- Code 0x0F: a valid binding breaks R111. -/
def State.vppbViol (s : State) (t : Tbl Word) (x : Nat × Nat) : Bool :=
  let p := bindPlace t x
  !(s.isRole x.1 0) || !(s.isRole p.1 1) ||
  (bindsL t).any (fun y => decide (y ≠ x) && (decide (bindPlace t y = p) ||
    (decide ((bindPlace t y).1 = p.1) && decide ((bindPlace t y).2.1 ≠ p.2.1)))) ||
  (poolsL t).any (fun q => (List.range 16).any (fun m =>
    decide (fieldAt t (Fld.extentMemberW0LoadValid q m) = 1 ∧ fieldAt t (Fld.extentMemberW3LoadLp q m) = p.1) &&
    decide (fieldAt t (Fld.extentMemberW3LoadMld q m) = 0 ∨ p.2.1 = 0 ∨
      fieldAt t (Fld.extentMemberW3LoadLd q m) = p.2.2)))

/-- A FREE plot with an allocation that is not 0 (code 0x0D). -/
def hasAlloc (t : Tbl Word) (p : Nat) : Bool :=
  decide (fieldAt t (Fld.plotPlotW0LoadFnQuota p) ≠ 0) ||
  [Reg.plotPlotW1Load p, Reg.plotPlotW2Load p, Reg.plotPlotW3Load p, Reg.plotPlotW4Load p, Reg.plotPlotW5Load p,
   Reg.plotPlotW6Load p].any (fun a => decide (regAt t a ≠ 0))

/-- A function's state (R96, R108): 0 VACANT, 1 ACTIVE, 2 FALLOW. -/
def State.fnState (s : State) (fid : Nat) : Nat := s.getF (Fld.plotFnLive0State fid)

/-- Code 0x0C but for function states: a plot goes FREE while something still names it. -/
def State.freeViol (s : State) (t : Tbl Word) (p : Nat) : Bool :=
  decide (s.getF (Fld.plotPlotW0Live p) = 1) && !liveL t p &&
  ((fnsL t).any (fun f => fieldAt t (Fld.plotFnW0LoadPlot f) = p) ||
   s.upstreams.any (fun l => fieldAt t (Fld.plotVcsW0LoadPlot l) = p) ||
   (extentsL t).any (fun i => fieldAt t (Fld.extentXtW1LoadPlot i) = p) ||
   decide (fieldAt t (Fld.plotPlotW3LoadHedgeCnt p) ≠ 0))

/-- Every standing violation as (code, INDEX) (R92). Checks of function and key slot states are made at the commit. Codes 0x07 and 0x08
are checked for assigned functions, and code 0x09 for valid extent entries: an entry that stands for nothing breaks no rule (DESIGN
CHOICE, log 81). -/
def State.violations (s : State) : List (Nat × Nat) :=
  let t := s.regs
  let ps := plotsL t
  let live := ps.filter (liveL t)
  let xs := extentsL t
  let fs := fnsL t
  let code (c : Nat) (l : List Nat) := l.map (fun i => (c, i))
  code 1 (rangeViol live (fun p => fieldAt t (Fld.plotPlotW1LoadScBase p)) (fun p => fieldAt t (Fld.plotPlotW1LoadScCnt p)) 16384) ++
  code 2 (rangeViol live (fun p => fieldAt t (Fld.plotPlotW2LoadHedgeBase p))
    (fun p => fieldAt t (Fld.plotPlotW3LoadHedgeCnt p)) 262144) ++
  code 3 ((ps ++ (xs.map (fun i => fieldAt t (Fld.extentXtW1LoadPlot i)))).filter (fun p =>
    decide (fieldAt t (Fld.plotPlotW4LoadXtQuota p) < (xs.filter (fun i => fieldAt t (Fld.extentXtW1LoadPlot i) = p)).length)) ++
    sumViol ps (fun p => fieldAt t (Fld.plotPlotW4LoadXtQuota p)) 131072) ++
  code 4 ((ps ++ (fs.map (fun f => fieldAt t (Fld.plotFnW0LoadPlot f)))).filter (fun p =>
    decide (fieldAt t (Fld.plotPlotW0LoadFnQuota p) < (fs.filter (fun f => fieldAt t (Fld.plotFnW0LoadPlot f) = p)).length)) ++
    sumViol ps (fun p => fieldAt t (Fld.plotPlotW0LoadFnQuota p)) 4096) ++
  code 5 (sumViol ps (fun p => fieldAt t (Fld.plotPlotW5LoadRetryCr p)) 1024) ++
  code 6 (sumViol ps (fun p => fieldAt t (Fld.plotPlotW5LoadBufQuota p)) 6144) ++
  code 7 (fs.filter (fun f => bindViol t (fieldAt t (Fld.plotFnW0LoadPlot f)) (fieldAt t (Fld.plotFnW0LoadProg f))
      (fieldAt t (Fld.plotFnW1LoadSc f))) ++
    s.upstreams.filter (fun l => bindViol t (fieldAt t (Fld.plotVcsW0LoadPlot l)) (fieldAt t (Fld.plotVcsW0LoadProg l))
      (fieldAt t (Fld.plotVcsW1LoadSc l)))) ++
  code 8 (fs.filter (listViol t xs)) ++
  code 9 (xs.filter (extentViol t)) ++
  code 10 ((poolsL t).filter (s.poolViol t)) ++
  code 11 (fs.filter (fun f => !(s.isRole (f / 64) 0))) ++
  code 12 (ps.filter (s.freeViol t)) ++
  code 13 ((if liveL t 0 then [] else [0]) ++ ps.filter (fun p => !liveL t p && hasAlloc t p)) ++
  code 15 ((bindsL t).filter (s.vppbViol t) |>.map (fun x => 32 * x.1 + x.2 + 2))

/-- The least of (code, INDEX) pairs: lowest code, then lowest INDEX (R91). -/
def leastViol (l : List (Nat × Nat)) : Nat × Nat :=
  match l with
  | [] => (0, 0)
  | v :: vs => vs.foldl (fun a b => if b.1 < a.1 ∨ (b.1 = a.1 ∧ b.2 < a.2) then b else a) v

/-- LOAD_STAT shows a violation. -/
def State.showViol (s : State) (v : Nat × Nat) : State :=
  s.setFs [(Fld.plotLoadStatViol, v.1), (Fld.plotLoadStatIndex, v.2)]

/-- LOAD_STAT taken again (R91). -/
def State.loadCheck (s : State) : State := s.showViol (leastViol s.violations)

/-- A load copy was written: LOAD_STAT follows in the next tick (R91). -/
def State.loadTouch (s : State) : State := { s with fn := { s.fn with loadDue := true } }

/-- LOAD_STAT follows the load-copy writes of the last tick (R91). -/
def State.loadTick (s : State) : State :=
  if s.fn.loadDue then { s.loadCheck with fn := { s.fn with loadDue := false } } else s

/-- A copy that the hedge's check reads changes: its result no longer stands (R199). -/
def State.hedgeTouch (s : State) : State :=
  { s.setF Fld.hedgeCheckPass 0 with hedge := { s.hedge with dirty := true } }

/-- State of key slot `p` (R311): 0 UNUSED, else as SECURITY.KSLOT_STAT reads it. -/
def State.kslotState (s : State) (p : Nat) : Nat := (Tbl.get (fun _ => {}) s.sec.kslots p).state

/-- Violations that depend on function and key slot states, taken in the tick of the commit write (R91; codes 0x0B, 0x0C,
0x0E). -/
def State.commitViolations (s : State) : List (Nat × Nat) :=
  let t := s.regs
  let fs := (listed t (Reg.plotFnW0Load 0) 0x10 4096 ++ listed t (Reg.plotFnW0 0) 0x10 4096).eraseDups
  let ps := (plotsL t ++ listed t (Reg.plotPlotW0 0) 0x20 4096).eraseDups
  (fs.filter (fun f => decide (fieldAt t (Fld.plotFnW0LoadPlot f) ≠ fieldAt t (Fld.plotFnW0Plot f)) &&
    decide (s.fnState f ≠ 0))).map (fun f => (11, f)) ++
  (ps.filter (fun p => decide (s.getF (Fld.plotPlotW0Live p) = 1) && !liveL t p &&
    fs.any (fun f => decide (fieldAt t (Fld.plotFnW0LoadPlot f) = p) && decide (s.fnState f ≠ 0)))).map (fun p => (12, p)) ++
  (ps.filter (fun p => decide (s.getF (Fld.plotPlotW0Live p) = 0) && liveL t p && decide (s.kslotState p = 3))).map
    (fun p => (14, p))

/-! ### The commit and its seed -/

/-- A commit is accepted: it is pending, and its tick and furlong are recorded (R18). `f` is the block's PENDING field,
then its four status registers. -/
def State.acceptCommit (s : State) (k : CommitKind) (pend : Fd) (tl th fl fh : Nat) : State :=
  let f := s.commitFurlong
  let s := ((s.setF pend 1).set64 tl th s.tick).set64 fl fh f
  { s with commits := s.commits ++ [(k, f)] }

/-- A write of PLOT.COMMIT.GO (R20, R91, R105). A violation written in this very tick refuses it too, before LOAD_STAT shows it
(DEDUCED, log 81). A code that the commit itself reports stays in LOAD_STAT until the next write of a load copy (DESIGN CHOICE, log 81). -/
def State.plotCommit (s : State) : State :=
  if s.getF Fld.plotCommitStatPending = 1 ∨ s.getF Fld.plotLoadStatViol ≠ 0 ∨ (s.fn.loadDue = true ∧ s.violations ≠ [])
  then s.setF Fld.plotCommitStatRefused 1
  else match s.commitViolations with
    | [] => s.acceptCommit .plot Fld.plotCommitStatPending Reg.plotCommitTickLo Reg.plotCommitTickHi
        Reg.plotCommitFurlongLo Reg.plotCommitFurlongHi
    | v => (s.showViol (leastViol v)).setF Fld.plotCommitStatRefused 1

/-- PLOT_COMMIT (R91). -/
def execPlotCommit (s : State) : Host.Outcome State Fault Refusal := act s (·.plotCommit)

/-- The load copies and copies in force of chapter 04: (load base, in-force base, bytes). -/
def plotTables : List (Nat × Nat × Nat) :=
  [(0xC10000, 0xC30000, 0x20000), (0xC60000, 0xC70000, 0x10000), (0xC90000, 0xC90400, 0x400),
   (0xCB0000, 0xCC0000, 0x2000), (0x1401000, 0x1402000, 0x400), (0x1404000, 0x1408000, 0x4000),
   (0x1420000, 0x1520000, 0x100000)]

/-- Every table of a list copied from its first address to its second. -/
def State.copyTables (s : State) (l : List (Nat × Nat × Nat)) : State :=
  { s with regs := l.foldl (fun t x => Tbl.copy regReset t x.1 x.2.1 x.2.2) s.regs }

/-- PLOT_SEED: a write of COPY_CTL.SEED starts the copy, unless a commit is pending (R105); it ends the hedge check's
standing (R199). -/
def State.plotSeed (s : State) : State :=
  if s.getF Fld.plotCommitStatPending = 1 then s
  else (s.setF Fld.plotCopyCtlBusy 1).hedgeTouch

/-- PLOT_SEED (R105). -/
def execPlotSeed (s : State) : Host.Outcome State Fault Refusal := act s (·.plotSeed)

/-- PLOT_SEED_DONE: the copy is complete and BUSY clears (R105). A commit accepted while the seed ran keeps the content that was
committed (R20), so the copy then stops short of it (log 81). -/
def State.plotSeedDone (s : State) : State :=
  if s.getF Fld.plotCopyCtlBusy = 1 then
    let s := s.setF Fld.plotCopyCtlBusy 0
    if s.getF Fld.plotCommitStatPending = 1 then s
    else (s.copyTables (plotTables.map (fun x => (x.2.1, x.1, x.2.2)))).loadTouch.hedgeTouch
  else s

/-- PLOT_SEED_DONE (R105). -/
def execPlotSeedDone (s : State) : Host.Outcome State Fault Refusal := act s (·.plotSeedDone)

/-! ### Function states and generations (R96 to R104) -/

/-- The live registers of a function (13-bit FID; 0x1000 + LP is a VCS entry): STATE, HELD, GEN, OLDCNT, GLEAN. -/
def liveFd (fn : Nat) : Fd × Fd × Fd × Fd × Fd :=
  if fn < 0x1000 then
    (Fld.plotFnLive0State fn, Fld.plotFnLive0Held fn, Fld.plotFnLive0Gen fn, Fld.plotFnLive1Oldcnt fn, Fld.plotFnLive1Glean fn)
  else
    let l := fn - 0x1000
    (Fld.plotVcsLive0State l, Fld.plotVcsLive0Held l, Fld.plotVcsLive0Gen l, Fld.plotVcsLive1Oldcnt l, Fld.plotVcsLive1Glean l)

/-- Current generation of a function. -/
def State.gen (s : State) (fn : Nat) : Nat := s.getF (liveFd fn).2.2.1

/-- VF Enable and NumVFs of a logical port's PF0. -/
def State.vf (s : State) (lp : Nat) : Bool × Nat := Tbl.get (fun _ => (false, 0)) s.fn.vf lp

/-- VF Enable and NumVFs set. -/
def State.setVf (s : State) (lp : Nat) (v : Bool × Nat) : State :=
  { s with fn := { s.fn with vf := Tbl.set (fun _ => (false, 0)) s.fn.vf lp v } }

/-- A function is assigned: by the function table in force, below an existing upstream port (R84), or as the VCS entry of one
(R103). -/
def State.assigned (s : State) (fn : Nat) : Bool :=
  if fn < 0x1000 then decide (s.getF (Fld.plotFnW0Assign fn) = 1) && s.isRole (fn / 64) 0 else s.isRole (fn - 0x1000) 0

/-- A function is enabled (R96, R103). -/
def State.enabled (s : State) (fn : Nat) : Bool :=
  if fn < 0x1000 then
    s.dllUp (fn / 64) && (decide (fn % 64 = 0) || ((s.vf (fn / 64)).1 && decide (fn % 64 ≤ (s.vf (fn / 64)).2)))
  else s.dllUp (fn - 0x1000)

/-- Tracker entries of a function whose generation is not its current one (OLDCNT, R96). -/
def State.oldCount (s : State) (fn : Nat) : Nat :=
  (s.dp.trackers.filter (fun t => decide (t.cls.fid = fn) && decide (t.cls.gen ≠ s.gen fn))).length

/-- OLDCNT and STATE of a function taken again (R96, R99). -/
def State.refreshFn (s : State) (fn : Nat) : State :=
  if 0x1040 ≤ fn then s else
  let f := liveFd fn
  let old := s.oldCount fn
  let s := s.setF f.2.2.2.1 (min old 0xFFFF)
  s.setF f.1 (if 0 < old then 2 else if s.assigned fn && s.enabled fn then 1 else 0)

/-- The states of a port's functions and VCS entry taken again. -/
def State.refreshPort (s : State) (lp : Nat) : State :=
  ((List.range 64).foldl (fun s f => s.refreshFn (64 * lp + f)) s).refreshFn (0x1000 + lp)

/-- The next generation equals that of a live tracker entry of the function: the advance is held off (R101). -/
def State.mustHold (s : State) (fn : Nat) : Bool :=
  s.dp.trackers.any (fun t => decide (t.cls.fid = fn) && decide (t.cls.gen = (s.gen fn + 1) % 65536))

/-- The generation has advanced in this tick (R100). -/
def State.advancedNow (s : State) (fn : Nat) : Bool := decide (Tbl.get (fun _ => none) s.fn.advAt fn = some s.tick)

/-- A reset event of R96: an advance is due; events before it takes place, and in the tick in which it does, merge (R100,
R101). -/
def State.resetEvent (s : State) (fn : Nat) : State :=
  if s.fn.due.any (fun x => x = fn) || s.advancedNow fn then s
  else
    let s := { s with fn := { s.fn with due := s.fn.due ++ [fn] } }
    if s.mustHold fn then (s.setF (liveFd fn).2.1 1).bump (Fd.whole Reg.plotHoldoff) else s

/-- Reset events of all the VFs of a logical port. -/
def State.resetVfs (s : State) (lp : Nat) : State :=
  (List.range 63).foldl (fun s f => s.resetEvent (64 * lp + f + 1)) s

/-- VF Enable and NumVFs clear; each VF is reset when VF Enable was set (R96; log 14). -/
def State.clearVfs (s : State) (lp : Nat) : State :=
  if (s.vf lp).1 then (s.setVf lp (false, 0)).resetVfs lp else s.setVf lp (false, 0)

/-- A conventional reset of the presented device of a port: every function and the VCS entry (R74, R96, R103). -/
def State.resetPort (s : State) (lp : Nat) : State :=
  let s := s.setVf lp (false, 0)
  ((List.range 64).foldl (fun s f => s.resetEvent (64 * lp + f)) s).resetEvent (0x1000 + lp)

/-- A function reset of a presented function (R96). -/
def State.flr (s : State) (fid : Nat) : State :=
  if fid % 64 = 0 then (s.resetEvent fid).clearVfs (fid / 64) else s.resetEvent fid

/-- FN_RESET: a write of PLOT.FN_RESET.GO (R96, R105). -/
def execFnReset (fid : Fid) (vcs : Bool) (s : State) : Host.Outcome State Fault Refusal :=
  act s (fun s => s.resetEvent (if vcs then 0x1000 + fid.val % 64 else fid.val))

/-- FUNCTION_LEVEL_RESET: an FLR that a host may send, the function being assigned and enabled (R96, R97). -/
def execFunctionLevelReset (fid : Fid) (s : State) : Host.Outcome State Fault Refusal :=
  act s (·.when (s.assigned fid.val && s.enabled fid.val) (·.flr fid.val))

/-- VF_ENABLE_CLEAR: the host of a port clears VF Enable (R96). -/
def execVfEnableClear (lp : Lp) (s : State) : Host.Outcome State Fault Refusal :=
  act s (·.when (s.enabled (64 * lp.val)) (fun s => (s.clearVfs lp.val).refreshPort lp.val))

/-- A generation advances by 1 modulo 65,536, a function's TDI goes to CONFIG_UNLOCKED, its configuration registers take their
reset values, and the state is taken again (R96, R302; log 20). -/
def State.advance (s : State) (fn : Nat) : State :=
  let s := s.setFs [((liveFd fn).2.2.1, (s.gen fn + 1) % 65536), ((liveFd fn).2.1, 0)]
  let s := if fn < 0x1000 then s.setF (Fld.securityTdiStatState fn) 0 else s
  let f := s.fn
  ({ s with fn := { f with
      due := f.due.filter (fun x => x ≠ fn), advAt := Tbl.set (fun _ => none) f.advAt fn (some s.tick),
      cfg := if fn < 0x1000 then Tbl.clear f.cfg (1024 * fn) 1024 else f.cfg } }).refreshFn fn

/-! ### Decoders (R84 to R87) -/

/-- A function's decoder. -/
def State.decoder (s : State) (fid : Nat) : Decoder := Tbl.get (fun _ => {}) s.fn.decoders fid

/-- A function's decoder set. -/
def State.setDecoder (s : State) (fid : Nat) (d : Decoder) : State :=
  { s with fn := { s.fn with decoders := Tbl.set (fun _ => {}) s.fn.decoders fid d } }

/-- Ways that an encoding names (CXL 3.1; R84): 0 where none. -/
def waysOf (w : BitVec 4) : Nat :=
  ([1, 2, 4, 8, 16, 0, 0, 0, 3, 6, 12][w.toNat]?).getD 0

/-- Decoder values R84 allows (R87). -/
def decOk (v : DecVals) : Bool :=
  decide (v.base.toNat % 2 ^ 28 = 0 ∧ v.size.toNat % 2 ^ 28 = 0 ∧ v.gran.toNat ≤ 6) &&
  decide (waysOf v.ways ≠ 0)

/-- Values after a write. -/
def mergeDec (v : DecVals) (w : DecWrite) : DecVals :=
  ⟨w.base.getD v.base, w.size.getD v.size, w.ways.getD v.ways, w.gran.getD v.gran⟩

/-- A commit of a decoder, or of its clearing, is pending (R86). -/
def State.decoderPend (s : State) (fid : Nat) (set : Bool) : State :=
  let s := s.setDecoder fid { s.decoder fid with enc := false, pend := some set }
  { s with commits := s.commits ++ [(.decoder fid, s.commitFurlong)] }

/-- One decoder write that is not held (R86, R87): values, and Commit set, or cleared where it was set. -/
def State.decoderWrite (s : State) (fid : Nat) (w : DecWrite) : State :=
  let d := s.decoder fid
  let v := mergeDec d.vals w
  let s := s.setDecoder fid { d with vals := v }
  match w.commit with
  | some true => if decOk v then s.decoderPend fid true else s.setDecoder fid { d with vals := v, enc := true }
  | some false => if d.commit then s.decoderPend fid false else s
  | none => s

/-- The header log of an AER takes what names the message of the first error, none standing (R39; log 20). -/
def State.aerNote (s : State) (obj : Nat) (h : Hdr) : State :=
  if Tbl.get (fun _ => 0) s.fn.aer obj = 0 then
    { s with fn := { s.fn with aerLog := Tbl.set (fun _ => []) s.fn.aerLog obj [h.opc, h.addr, h.size, h.tag] } }
  else s

/-- Raise an error flag on a function's, port's or instance's AER: kind by number, bit by bit (R39, R40, R87, R379). -/
def State.aerFlag (s : State) (obj b : Nat) : State :=
  { s with fn := { s.fn with aer := Tbl.set (fun _ => 0) s.fn.aer obj (Tbl.get (fun _ => 0) s.fn.aer obj ||| (1 <<< b)) } }

/-- AER objects: functions by FID, logical ports from 0x2000, endpoint instances from 0x3000. -/
def aerPort (lp : Nat) : Nat := 0x2000 + lp

/-- A host's decoder write: applied, or held while a commit is pending, up to 16; a further one is discarded with an
uncorrectable internal error (R87). -/
def State.decoderHost (s : State) (fid : Nat) (w : DecWrite) : State :=
  let d := s.decoder fid
  if d.pend.isSome || d.heldDue then
    if d.held.length < 16 then s.setDecoder fid { d with held := d.held ++ [w] } else s.aerFlag fid 22
  else s.decoderWrite fid w

/-- DECODER_COMMIT (R86). -/
def execDecoderCommit (fid : Fid) (w : DecWrite) (s : State) : Host.Outcome State Fault Refusal :=
  act s (·.when (s.assigned fid.val && s.enabled fid.val) (·.decoderHost fid.val w))

/-- Held writes applied in order until one makes a commit pending (R87). -/
def State.applyHeld (s : State) (fid : Nat) : List DecWrite → State
  | [] => s.setDecoder fid { s.decoder fid with held := [], heldDue := false }
  | w :: ws =>
    let s := s.decoderWrite fid w
    if (s.decoder fid).pend.isSome then s.setDecoder fid { s.decoder fid with held := ws, heldDue := false }
    else s.applyHeld fid ws

/-- DECODER_HELD_WRITE_APPLY: in the tick after the pending commit came into force, which it did at phase 0 (R87). -/
def execDecoderHeldWriteApply (fid : Fid) (s : State) : Host.Outcome State Fault Refusal :=
  act s (·.when ((s.decoder fid.val).heldDue && decide (s.phase ≠ 0)) (fun s => s.applyHeld fid.val (s.decoder fid.val).held))

/-- Granularity in bytes. -/
def granBytes (v : DecVals) : Nat := 256 * 2 ^ v.gran.toNat

/-- Committed as a host reads it: 0 while a commit or a clear is pending (R86, R87). -/
def Decoder.committed (d : Decoder) : Bool := d.commit && d.pend.isNone

/-- The decoder matches a host address (R85, R86). -/
def Decoder.matches (d : Decoder) (hpa : Nat) : Bool :=
  d.commit && decide (d.force.base.toNat ≤ hpa ∧ hpa < d.force.base.toNat + d.force.size.toNat)

/-- Host address to DPA (R84): the chunk index divided by the ways. -/
def Decoder.dpa (d : Decoder) (hpa : Nat) : Nat :=
  let off := hpa - d.force.base.toNat
  let g := granBytes d.force
  (off / g / waysOf d.force.ways) * g + off % g

/-- Target position of a host address. -/
def Decoder.position (d : Decoder) (hpa : Nat) : Nat :=
  ((hpa - d.force.base.toNat) / granBytes d.force) % waysOf d.force.ways

/-- DPA to host address with a recorded position (R213). -/
def Decoder.hpa (d : Decoder) (dpa : Nat) : Nat :=
  let g := granBytes d.force
  d.force.base.toNat + ((dpa / g) * waysOf d.force.ways + d.pos.getD 0) * g + dpa % g

/-! ### From extent entry to pool address and member (R81, R82, R90) -/

/-- Extent size of an entry in force: its pool's XSZ. -/
def xszAt (t : Tbl Word) (i : Nat) : Nat :=
  if fieldAt t (Fld.extentPoolW0Xsz (fieldAt t (Fld.extentXtW0Pool i))) = 1 then 2 ^ 30 else 2 ^ 28

/-- The member that covers a pool address: (LP, LD when an MLD, device address). -/
def memberOf (t : Tbl Word) (q addr : Nat) : Option (Nat × Option Nat × Nat) :=
  let unit := addr / 2 ^ 28
  let b := fieldAt t (Fld.extentPoolW0Base q)
  let hit := (List.range 16).find? (fun m =>
    decide (fieldAt t (Fld.extentMemberW0Valid q m) = 1) &&
    decide (b + fieldAt t (Fld.extentMemberW0Off q m) ≤ unit ∧
      unit < b + fieldAt t (Fld.extentMemberW0Off q m) + fieldAt t (Fld.extentMemberW1Len q m)))
  hit.map (fun m =>
    (fieldAt t (Fld.extentMemberW3Lp q m),
     if fieldAt t (Fld.extentMemberW3Mld q m) = 1 then some (fieldAt t (Fld.extentMemberW3Ld q m)) else none,
     (unit - b - fieldAt t (Fld.extentMemberW0Off q m) + fieldAt t (Fld.extentMemberW2DpaBase q m)) * 2 ^ 28 +
       addr % 2 ^ 28))

/-- The valid pool that holds a pool address, if any. -/
def poolOf (t : Tbl Word) (addr : Nat) : Option Nat :=
  (List.range 64).find? (fun q =>
    decide (fieldAt t (Fld.extentPoolW0Valid q) = 1) &&
    decide (fieldAt t (Fld.extentPoolW0Base q) ≤ addr / 2 ^ 28 ∧
      addr / 2 ^ 28 < fieldAt t (Fld.extentPoolW0Base q) + fieldAt t (Fld.extentPoolW1Len q)))

/-- The binding in force of vPPB d of a VCS: (LP, LD when an MLD) (R111, R128). -/
def bindingOf (t : Tbl Word) (vcs d : Nat) : Option (Nat × Option Nat) :=
  if d < 2 ∨ 31 < d ∨ fieldAt t (Fld.plotVppbValid vcs (d - 2)) = 0 then none
  else some (fieldAt t (Fld.plotVppbLp vcs (d - 2)),
    if fieldAt t (Fld.plotVppbMld vcs (d - 2)) = 1 then some (fieldAt t (Fld.plotVppbLd vcs (d - 2))) else none)

/-- The VCS whose vPPB binds a downstream port, or the LD of its MLD that a message comes from, if any (R42). -/
def vcsOf (t : Tbl Word) (lp : Nat) (ld : Option Nat) : Option (Nat × Nat) :=
  ((listed t (Reg.plotVppb 0 0) 4 2048).map (fun k => (k / 32, k % 32))).find? (fun x =>
    decide (x.2 < 30) && match bindingOf t x.1 (x.2 + 2) with
      | some (l, none) => decide (l = lp)
      | some (l, some d) => decide (l = lp ∧ ld = some d)
      | none => false)

end Sys2Proof.Machine
end

