-- ==== Sys2Proof/Machine/Coulter.lean ====
section
/-! DEFINITION. Execution of Coulter instructions (05, 06): one effect for each opcode on a message's context, the slot each
command executes, and the engine's advance at a tick. -/

namespace Sys2Proof.Machine

/-! ### Context updates -/

/-- A message's context changed. -/
def State.setCtx (s : State) (m : Nat) (f : Ctx → Ctx) : State := s.modMsg m (fun x => { x with ctx := f x.ctx })

/-- G[k] set (R151). -/
def Ctx.setG (c : Ctx) (k : Nat) (v : Word) : Ctx := { c with g := Tbl.set (fun _ => 0) c.g k v }

/-- Q[k] set (R153). -/
def Ctx.setQ (c : Ctx) (k : Nat) (v : Bool) : Ctx := { c with q := Tbl.set (fun _ => false) c.q k v }

/-- Execution of the message ends (R115). -/
def Ctx.finish (c : Ctx) : Ctx := { c with ended := true }

/-- The T pair of the lookup in this slot: 0 for the block's first lookup word, 2 for its second (R123). -/
def State.pairOf (s : State) (m : Msg) : Nat :=
  let looks := (List.range m.ctx.slot).filter (fun i =>
    isLookup (coFields (s.storeWord (s.storeOf m.engine) m.cls.prog (m.cls.slot.getD 0) m.ctx.stage m.ctx.block i)).op)
  if looks.length = 0 then 0 else 2

/-- A lookup's result is due at cycle 0 of the next stage (R123, R155). -/
def Ctx.lookup (c : Ctx) (pair : Nat) (even odd : Word) : Ctx := { c with due := c.due ++ [(pair, even), (pair + 1, odd)] }

/-- A message classified to a presented function of a tenant plot (R126). -/
def Msg.tenantFn (m : Msg) : Bool := decide (m.cls.fid < 0x1000 ∧ m.cls.plot ≠ 0)

/-- The extent entry an index names for a message, none on a miss (R126, R156). -/
def State.extentIndex (s : State) (m : Msg) (a : Nat) : Option Nat :=
  let t := s.regsAt m.cls.epoch
  if m.tenantFn then
    if a < fieldAt t (Fld.plotFnW3XtCnt m.cls.fid) then some (fieldAt t (Fld.plotFnW2XtBase m.cls.fid) + a) else none
  else if a < 131072 then some a else none

/-- LXT's result (R156). -/
def State.lxt (s : State) (m : Msg) (a : Nat) : Word × Word :=
  match s.extentIndex m a with
  | some i => (regAt (s.regsAt m.cls.epoch) (Reg.extentXtW0 i), regAt (s.regsAt m.cls.epoch) (Reg.extentXtW1 i))
  | none => (0, 0)

/-- The bucket of a key in a table of 2^n entries (R180). -/
def htBucket (n : Nat) (v : Word) : Nat :=
  if n = 2 then 0 else (v.toNat * 0x9E3779B1) % 2 ^ 32 / 2 ^ (34 - n)

/-- LHT's result: the first matching valid entry of the key's bucket (R157, R179, R180). -/
def State.lht (s : State) (m : Msg) (v : Word) (t : Nat) : Word × Word :=
  let r := s.regsAt m.cls.epoch
  let al := regAt r (Reg.coulterHtAlloc m.cls.prog t)
  let n := fieldGet al 0 5
  if n < 2 ∨ 16 < n then (0, 0)
  else
    let b := fieldGet al 5 17 + 4 * htBucket n v
    let hits := ((List.range 4).map (fun i => Tbl.get (fun _ => {}) (s.hashAt m.cls.epoch) (b + i))).filter
      (fun (e : HEnt) => e.valid && decide (e.key = v))
    match hits.map (·.data) with
    | d :: _ => (BitVec.ofNat 32 d.toNat, BitVec.ofNat 32 (2 ^ 31 + d.toNat / 2 ^ 32))
    | [] => (0, 0)

/-- LFN's result (R158). -/
def State.lfn (s : State) (m : Msg) (sel : Nat) : Word × Word :=
  let r := s.regsAt m.cls.epoch
  let f := m.cls.fid
  if f < 0x1000 then
    if sel = 0 then (regAt r (Reg.plotFnW0 f), regAt r (Reg.plotFnW3 f))
    else
      let d := Tbl.get (fun _ => {}) (s.decodersAt m.cls.epoch) f
      (BitVec.ofNat 32 (d.force.ways.toNat + 16 * d.force.gran.toNat + bit d.commit * 2 ^ 31),
       BitVec.ofNat 32 (d.force.size.toNat / 2 ^ 28))
  else if sel = 0 then (regAt r (Reg.plotVcsW0 (f - 0x1000)), 0) else (0, 0)

/-- The entry a pool form names (R160, R161): the index's own, or with form 1 its ALT when that entry is MIGRATING. -/
def State.targetEntry (s : State) (m : Msg) (form a : Nat) : Option Nat :=
  match s.extentIndex m a with
  | none => none
  | some i =>
    if form = 0 then some i
    else
      let t := s.regsAt m.cls.epoch
      if fieldAt t (Fld.extentXtW1State i) = 1 then some (fieldAt t (Fld.extentXtW1Alt i)) else none

/-- A target of the record as TGT and TWIN write it (R160, R161): an extent entry and offset, or a port (64 + d is
vPPB d of the message's VCS; 200 is no target). -/
def State.coTarget (s : State) (m : Msg) (form : Nat) (a b : Word) : Target :=
  match form with
  | 2 =>
    if 0x1000 ≤ m.cls.fid then
      match bindingOf (s.regsAt m.cls.epoch) (m.cls.fid - 0x1000) a.toNat with
      | some _ => .port (64 + a.toNat)
      | none => .port 200
    else .port 200
  | 3 => if m.cls.plot = 0 ∧ a.toNat < 64 then .port a.toNat else .port 200
  | f =>
    match s.targetEntry m f a.toNat with
    | some i => .pool i (b.toNat % xszAt (s.regsAt m.cls.epoch) i)
    | none => .port 200

/-! ### The effect of each opcode on the context (R147 to R168) -/

/-- END (R148). -/
def coEnd (_ : CoW) (_ : State) (m : Msg) : Ctx := m.ctx.finish
/-- SKIP n: slots s + 1 to s + n execute nothing (R149). The slot itself advances by 1 afterwards. -/
def coSkip (w : CoW) (_ : State) (m : Msg) : Ctx := { m.ctx with slot := m.ctx.slot + w.imm }
/-- NEXT b (R150). -/
def coNext (w : CoW) (_ : State) (m : Msg) : Ctx := { m.ctx with next := w.imm }
/-- ADD (R151). -/
def coAdd (w : CoW) (s : State) (m : Msg) : Ctx := m.ctx.setG w.dst (addW (szBits w.sz) (s.operand m w.sa) (s.operand m w.sb))
/-- SUB (R151). -/
def coSub (w : CoW) (s : State) (m : Msg) : Ctx := m.ctx.setG w.dst (subW (szBits w.sz) (s.operand m w.sa) (s.operand m w.sb))
/-- AND (R151). -/
def coAnd (w : CoW) (s : State) (m : Msg) : Ctx := m.ctx.setG w.dst (s.operand m w.sa &&& s.operand m w.sb)
/-- OR (R151). -/
def coOr (w : CoW) (s : State) (m : Msg) : Ctx := m.ctx.setG w.dst (s.operand m w.sa ||| s.operand m w.sb)
/-- XOR (R151). -/
def coXor (w : CoW) (s : State) (m : Msg) : Ctx := m.ctx.setG w.dst (s.operand m w.sa ^^^ s.operand m w.sb)
/-- The shift count: IMM[4:0], or bits [4:0] of SB when IMM[5] is 1 (R152). -/
def coCount (w : CoW) (s : State) (m : Msg) : Nat :=
  if w.imm / 32 % 2 = 1 then (s.operand m w.sb).toNat % 32 else w.imm % 32
/-- SHL (R151, R152). -/
def coShl (w : CoW) (s : State) (m : Msg) : Ctx := m.ctx.setG w.dst (s.operand m w.sa <<< coCount w s m)
/-- SHR (R151, R152). -/
def coShr (w : CoW) (s : State) (m : Msg) : Ctx := m.ctx.setG w.dst (s.operand m w.sa >>> coCount w s m)
/-- EXT (R151, R152). -/
def coExt (w : CoW) (s : State) (m : Msg) : Ctx := m.ctx.setG w.dst (extField (s.operand m w.sa) (w.imm % 32) (w.imm / 256 % 64))
/-- INS (R151, R152). -/
def coIns (w : CoW) (s : State) (m : Msg) : Ctx :=
  m.ctx.setG w.dst (insField (s.operand m w.sa) (s.operand m w.sb) (w.imm % 32) (w.imm / 256 % 64))
/-- MOV (R151). -/
def coMov (w : CoW) (s : State) (m : Msg) : Ctx := m.ctx.setG w.dst (s.operand m w.sa)
/-- LDI (R151). -/
def coLdi (w : CoW) (_ : State) (m : Msg) : Ctx := m.ctx.setG w.dst (BitVec.ofNat 32 w.imm)
/-- ADDI (R151). -/
def coAddi (w : CoW) (s : State) (m : Msg) : Ctx :=
  m.ctx.setG w.dst (addW (szBits w.sz) (s.operand m w.sa) (BitVec.ofNat 32 w.imm))
/-- ANDI (R151). -/
def coAndi (w : CoW) (s : State) (m : Msg) : Ctx := m.ctx.setG w.dst (s.operand m w.sa &&& BitVec.ofNat 32 w.imm)
/-- A compare (R153, R154). -/
def coCompare (c : Cond) (w : CoW) (s : State) (m : Msg) : Ctx :=
  m.ctx.setQ w.dst (c.holds (szBits w.sz) (s.operand m w.sa) (s.operand m w.sb) w.imm)
/-- LXT (R156). -/
def coLxt (w : CoW) (s : State) (m : Msg) : Ctx :=
  let r := s.lxt m (s.operand m w.sa).toNat
  m.ctx.lookup (s.pairOf m) r.1 r.2
/-- LHT (R157). -/
def coLht (w : CoW) (s : State) (m : Msg) : Ctx :=
  let r := s.lht m (s.operand m w.sa) w.imm
  m.ctx.lookup (s.pairOf m) r.1 r.2
/-- LFN (R158). -/
def coLfn (w : CoW) (s : State) (m : Msg) : Ctx :=
  let r := s.lfn m w.imm
  m.ctx.lookup (s.pairOf m) r.1 r.2
/-- The action record changed (R127). -/
def Ctx.setAct (c : Ctx) (f : Act → Act) : Ctx := { c with act := f c.act }
/-- TGT (R160). -/
def coTgt (w : CoW) (s : State) (m : Msg) : Ctx :=
  m.ctx.setAct (fun a => { a with tgt := some (s.coTarget m (w.imm % 4) (s.operand m w.sa) (s.operand m w.sb)) })
/-- TWIN (R162). -/
def coTwin (w : CoW) (s : State) (m : Msg) : Ctx :=
  m.ctx.setAct (fun a => { a with twin := some (s.coTarget m (w.imm % 4) (s.operand m w.sa) (s.operand m w.sb)) })
/-- HOME (R163). -/
def coHome (_ : CoW) (_ : State) (m : Msg) : Ctx := m.ctx.setAct (fun a => { a with home := true })
/-- KEY: 0 the plot key, 1 none (R164). -/
def coKey (w : CoW) (_ : State) (m : Msg) : Ctx := m.ctx.setAct (fun a => { a with key := some (decide (w.imm = 0)) })
/-- DROP (R165). -/
def coDrop (_ : CoW) (_ : State) (m : Msg) : Ctx := (m.ctx.setAct (fun a => { a with disp := .drop })).finish
/-- PSN (R165). -/
def coPsn (_ : CoW) (_ : State) (m : Msg) : Ctx := (m.ctx.setAct (fun a => { a with disp := .psn })).finish
/-- TRAP (R166). -/
def coTrap (w : CoW) (_ : State) (m : Msg) : Ctx := (m.ctx.setAct (fun a => { a with disp := .trap (w.imm % 256) })).finish
/-- MARK (R167). -/
def coMark (w : CoW) (_ : State) (m : Msg) : Ctx := m.ctx.setAct (fun a => { a with mark := w.imm % 2 ^ 16 })
/-- ATOM: 0 at the home, 1 at memory (R168). -/
def coAtom (w : CoW) (_ : State) (m : Msg) : Ctx := m.ctx.setAct (fun a => { a with atomMem := some (decide (w.imm = 1)) })
/-- NOP, and what CNT does to the context: nothing (R147, R169). -/
def coNop (_ : CoW) (_ : State) (m : Msg) : Ctx := m.ctx

/-- An addition to the counter whose low word stands at address `a`: it is counted at the end of the tick, after a clear of the tick (R170). -/
def State.countLater (s : State) (a n : Nat) : State :=
  { s with eng := { s.eng with adds := Tbl.set (fun _ => 0) s.eng.adds a (Tbl.get (fun _ => 0) s.eng.adds a + n) } }

/-- The additions of the tick are counted; a counter wraps modulo 2^64 (R169, R170). -/
def State.countTick (s : State) : State :=
  let s' := s.eng.adds.foldl (fun s e => s.set64 e.1 (e.1 + 4) ((s.get64 e.1 (e.1 + 4) + e.2) % 2 ^ 64)) s
  { s' with eng := { s'.eng with adds := [] } }

/-- What CNT adds to its counter: 1, or the value of SA (R169). -/
def coCntAmount (w : CoW) (s : State) (m : Msg) : Nat := if w.imm / 256 % 2 = 1 then (s.operand m w.sa).toNat else 1

/-- CNT: counter k of the program in the message's engine, 64 bits, wrapping (R169). -/
def coCnt (w : CoW) (s : State) (m : Msg) : State :=
  s.countLater (Reg.coulterCntLo m.engine m.cls.prog (w.imm % 256)) (coCntAmount w s m)

/-! ### One slot -/

/-- The message is in a stage of its program with a slot still to execute (R113 to R115). -/
def State.running (s : State) (m : Msg) : Bool :=
  decide (m.stage = .engine) && decide (m.cls.path = .program) && m.cls.slot.isSome && !m.ctx.ended &&
  decide (m.ctx.slot < 8) &&
  decide (m.ctx.stage < (Tbl.get (fun _ => {}) s.eng.images (s.storeOf m.engine * 32 + m.cls.prog * 2 + m.cls.slot.getD 0)).stages)

/-- The word in the message's slot, from the program slot fixed for it (R21, R115). -/
def State.slotWord (s : State) (m : Msg) : CoW :=
  coFields (s.storeWord (s.storeOf m.engine) m.cls.prog (m.cls.slot.getD 0) m.ctx.stage m.ctx.block m.ctx.slot)

/-- Execute a slot with an effect on the context: predicated, unless the word is NOP; then the next slot (R113, R121). -/
def State.slotCtx (s : State) (m : Msg) (w : CoW) (eff : CoW → State → Msg → Ctx) : State :=
  let c := if w.executes m.ctx then eff w s m else m.ctx
  s.setCtx m.id (fun _ => { c with slot := c.slot + 1 })

/-- Execute a CNT slot. -/
def State.slotCnt (s : State) (m : Msg) (w : CoW) : State :=
  (if w.executes m.ctx then coCnt w s m else s).slotCtx m w coNop

/-- The effect of an opcode on the context. -/
def coEffect (op : Nat) : CoW → State → Msg → Ctx :=
  match op with
  | 0x01 => coEnd
  | 0x03 => coSkip
  | 0x04 => coNext
  | 0x10 => coAdd
  | 0x11 => coSub
  | 0x12 => coAnd
  | 0x13 => coOr
  | 0x14 => coXor
  | 0x15 => coShl
  | 0x16 => coShr
  | 0x17 => coExt
  | 0x18 => coIns
  | 0x19 => coMov
  | 0x1A => coLdi
  | 0x1B => coAddi
  | 0x1C => coAndi
  | 0x20 => coCompare .eq
  | 0x21 => coCompare .ne
  | 0x22 => coCompare .lt
  | 0x23 => coCompare .ge
  | 0x24 => coCompare .rng
  | 0x30 => coLxt
  | 0x31 => coLht
  | 0x32 => coLfn
  | 0x40 => coTgt
  | 0x41 => coTwin
  | 0x42 => coHome
  | 0x43 => coKey
  | 0x44 => coDrop
  | 0x45 => coPsn
  | 0x46 => coTrap
  | 0x47 => coMark
  | 0x48 => coAtom
  | _ => coNop

/-- A command names message `m` and word `w`: the slot executes when the message's slot holds that word (log 3). -/
def State.atSlot (s : State) (m : Nat) (w : CoW) (f : State → Msg → State) : State :=
  match s.msg? m with
  | none => s
  | some x => if s.running x ∧ s.slotWord x = w then f s x else s

/-- The width code of a command's width (R142). -/
def szCode (w : Width) : Nat := match w with | .w8 => 0 | .w16 => 1 | .w32 => 2

/-- A predicated word. -/
def coWord (op : Nat) (p : Pred) (d a b : BitVec 6) (sz : Nat) (imm : Word) : CoW :=
  ⟨op, d.toNat, a.toNat, b.toNat, p.qi.val, bit p.qs, sz, imm.toNat⟩

/-! ### The commands -/

/-- NOP (R147): the all-zero word. -/
def execNop (m : Nat) (s : State) : Host.Outcome State Fault Refusal :=
  act s (fun s => s.atSlot m ⟨0, 0, 0, 0, 0, 0, 0, 0⟩ (fun s x => s.slotCtx x ⟨0, 0, 0, 0, 0, 0, 0, 0⟩ coNop))

/-- END (R148). -/
def execEndExec (m : Nat) (p : Pred) (s : State) : Host.Outcome State Fault Refusal :=
  act s (fun s => s.atSlot m (coWord 0x01 p 0 0 0 0 0) (fun s x => s.slotCtx x (coWord 0x01 p 0 0 0 0 0) coEnd))

/-- SKIP (R149). -/
def execSkip (m : Nat) (p : Pred) (n : Word) (s : State) : Host.Outcome State Fault Refusal :=
  act s (fun s => s.atSlot m (coWord 0x03 p 0 0 0 0 n) (fun s x => s.slotCtx x (coWord 0x03 p 0 0 0 0 n) coSkip))

/-- NEXT (R150). -/
def execNext (m : Nat) (p : Pred) (b : Word) (s : State) : Host.Outcome State Fault Refusal :=
  act s (fun s => s.atSlot m (coWord 0x04 p 0 0 0 0 b) (fun s x => s.slotCtx x (coWord 0x04 p 0 0 0 0 b) coNext))

/-- ADD (R151). -/
def execAdd (m : Nat) (p : Pred) (w : Width) (d a b : BitVec 6) (s : State) : Host.Outcome State Fault Refusal :=
  act s (fun s => s.atSlot m (coWord 0x10 p d a b (szCode w) 0) (fun s x => s.slotCtx x (coWord 0x10 p d a b (szCode w) 0) coAdd))

/-- SUB (R151). -/
def execSub (m : Nat) (p : Pred) (w : Width) (d a b : BitVec 6) (s : State) : Host.Outcome State Fault Refusal :=
  act s (fun s => s.atSlot m (coWord 0x11 p d a b (szCode w) 0) (fun s x => s.slotCtx x (coWord 0x11 p d a b (szCode w) 0) coSub))

/-- AND (R151). -/
def execAndOp (m : Nat) (p : Pred) (d a b : BitVec 6) (s : State) : Host.Outcome State Fault Refusal :=
  act s (fun s => s.atSlot m (coWord 0x12 p d a b 0 0) (fun s x => s.slotCtx x (coWord 0x12 p d a b 0 0) coAnd))

/-- OR (R151). -/
def execOrOp (m : Nat) (p : Pred) (d a b : BitVec 6) (s : State) : Host.Outcome State Fault Refusal :=
  act s (fun s => s.atSlot m (coWord 0x13 p d a b 0 0) (fun s x => s.slotCtx x (coWord 0x13 p d a b 0 0) coOr))

/-- XOR (R151). -/
def execXorOp (m : Nat) (p : Pred) (d a b : BitVec 6) (s : State) : Host.Outcome State Fault Refusal :=
  act s (fun s => s.atSlot m (coWord 0x14 p d a b 0 0) (fun s x => s.slotCtx x (coWord 0x14 p d a b 0 0) coXor))

/-- SHL (R151, R152). -/
def execShl (m : Nat) (p : Pred) (d a b : BitVec 6) (imm : Word) (s : State) : Host.Outcome State Fault Refusal :=
  act s (fun s => s.atSlot m (coWord 0x15 p d a b 0 imm) (fun s x => s.slotCtx x (coWord 0x15 p d a b 0 imm) coShl))

/-- SHR (R151, R152). -/
def execShr (m : Nat) (p : Pred) (d a b : BitVec 6) (imm : Word) (s : State) : Host.Outcome State Fault Refusal :=
  act s (fun s => s.atSlot m (coWord 0x16 p d a b 0 imm) (fun s x => s.slotCtx x (coWord 0x16 p d a b 0 imm) coShr))

/-- EXT (R151, R152). -/
def execExt (m : Nat) (p : Pred) (d a : BitVec 6) (imm : Word) (s : State) : Host.Outcome State Fault Refusal :=
  act s (fun s => s.atSlot m (coWord 0x17 p d a 0 0 imm) (fun s x => s.slotCtx x (coWord 0x17 p d a 0 0 imm) coExt))

/-- INS (R151, R152). -/
def execIns (m : Nat) (p : Pred) (d a b : BitVec 6) (imm : Word) (s : State) : Host.Outcome State Fault Refusal :=
  act s (fun s => s.atSlot m (coWord 0x18 p d a b 0 imm) (fun s x => s.slotCtx x (coWord 0x18 p d a b 0 imm) coIns))

/-- MOV (R151). -/
def execMov (m : Nat) (p : Pred) (d a : BitVec 6) (s : State) : Host.Outcome State Fault Refusal :=
  act s (fun s => s.atSlot m (coWord 0x19 p d a 0 0 0) (fun s x => s.slotCtx x (coWord 0x19 p d a 0 0 0) coMov))

/-- LDI (R151). -/
def execLdi (m : Nat) (p : Pred) (d : BitVec 6) (imm : Word) (s : State) : Host.Outcome State Fault Refusal :=
  act s (fun s => s.atSlot m (coWord 0x1A p d 0 0 0 imm) (fun s x => s.slotCtx x (coWord 0x1A p d 0 0 0 imm) coLdi))

/-- ADDI (R151). -/
def execAddi (m : Nat) (p : Pred) (w : Width) (d a : BitVec 6) (imm : Word) (s : State) : Host.Outcome State Fault Refusal :=
  act s (fun s => s.atSlot m (coWord 0x1B p d a 0 (szCode w) imm) (fun s x => s.slotCtx x (coWord 0x1B p d a 0 (szCode w) imm) coAddi))

/-- ANDI (R151). -/
def execAndi (m : Nat) (p : Pred) (d a : BitVec 6) (imm : Word) (s : State) : Host.Outcome State Fault Refusal :=
  act s (fun s => s.atSlot m (coWord 0x1C p d a 0 0 imm) (fun s x => s.slotCtx x (coWord 0x1C p d a 0 0 imm) coAndi))

/-- CEQ (R153). -/
def execCeq (m : Nat) (p : Pred) (w : Width) (d a b : BitVec 6) (s : State) : Host.Outcome State Fault Refusal :=
  act s (fun s => s.atSlot m (coWord 0x20 p d a b (szCode w) 0) (fun s x => s.slotCtx x (coWord 0x20 p d a b (szCode w) 0) (coCompare .eq)))

/-- CNE (R153). -/
def execCne (m : Nat) (p : Pred) (w : Width) (d a b : BitVec 6) (s : State) : Host.Outcome State Fault Refusal :=
  act s (fun s => s.atSlot m (coWord 0x21 p d a b (szCode w) 0) (fun s x => s.slotCtx x (coWord 0x21 p d a b (szCode w) 0) (coCompare .ne)))

/-- CLT (R153). -/
def execClt (m : Nat) (p : Pred) (w : Width) (d a b : BitVec 6) (s : State) : Host.Outcome State Fault Refusal :=
  act s (fun s => s.atSlot m (coWord 0x22 p d a b (szCode w) 0) (fun s x => s.slotCtx x (coWord 0x22 p d a b (szCode w) 0) (coCompare .lt)))

/-- CGE (R153). -/
def execCge (m : Nat) (p : Pred) (w : Width) (d a b : BitVec 6) (s : State) : Host.Outcome State Fault Refusal :=
  act s (fun s => s.atSlot m (coWord 0x23 p d a b (szCode w) 0) (fun s x => s.slotCtx x (coWord 0x23 p d a b (szCode w) 0) (coCompare .ge)))

/-- CRNG (R154). -/
def execCrng (m : Nat) (p : Pred) (w : Width) (d a b : BitVec 6) (span : Word) (s : State) : Host.Outcome State Fault Refusal :=
  act s (fun s => s.atSlot m (coWord 0x24 p d a b (szCode w) span) (fun s x => s.slotCtx x (coWord 0x24 p d a b (szCode w) span) (coCompare .rng)))

/-- LXT (R156). -/
def execLxt (m : Nat) (p : Pred) (a : BitVec 6) (s : State) : Host.Outcome State Fault Refusal :=
  act s (fun s => s.atSlot m (coWord 0x30 p 0 a 0 0 0) (fun s x => s.slotCtx x (coWord 0x30 p 0 a 0 0 0) coLxt))

/-- LHT (R157). -/
def execLht (m : Nat) (p : Pred) (a : BitVec 6) (t : Word) (s : State) : Host.Outcome State Fault Refusal :=
  act s (fun s => s.atSlot m (coWord 0x31 p 0 a 0 0 t) (fun s x => s.slotCtx x (coWord 0x31 p 0 a 0 0 t) coLht))

/-- LFN (R158). -/
def execLfn (m : Nat) (p : Pred) (sel : Word) (s : State) : Host.Outcome State Fault Refusal :=
  act s (fun s => s.atSlot m (coWord 0x32 p 0 0 0 0 sel) (fun s x => s.slotCtx x (coWord 0x32 p 0 0 0 0 sel) coLfn))

/-- TGT (R160). -/
def execTgt (m : Nat) (p : Pred) (a b : BitVec 6) (form : Word) (s : State) : Host.Outcome State Fault Refusal :=
  act s (fun s => s.atSlot m (coWord 0x40 p 0 a b 0 form) (fun s x => s.slotCtx x (coWord 0x40 p 0 a b 0 form) coTgt))

/-- TWIN (R162). -/
def execTwin (m : Nat) (p : Pred) (a b : BitVec 6) (form : Word) (s : State) : Host.Outcome State Fault Refusal :=
  act s (fun s => s.atSlot m (coWord 0x41 p 0 a b 0 form) (fun s x => s.slotCtx x (coWord 0x41 p 0 a b 0 form) coTwin))

/-- HOME (R163). -/
def execHome (m : Nat) (p : Pred) (s : State) : Host.Outcome State Fault Refusal :=
  act s (fun s => s.atSlot m (coWord 0x42 p 0 0 0 0 0) (fun s x => s.slotCtx x (coWord 0x42 p 0 0 0 0 0) coHome))

/-- KEY (R164). -/
def execKey (m : Nat) (p : Pred) (k : Word) (s : State) : Host.Outcome State Fault Refusal :=
  act s (fun s => s.atSlot m (coWord 0x43 p 0 0 0 0 k) (fun s x => s.slotCtx x (coWord 0x43 p 0 0 0 0 k) coKey))

/-- DROP (R165). -/
def execDrop (m : Nat) (p : Pred) (s : State) : Host.Outcome State Fault Refusal :=
  act s (fun s => s.atSlot m (coWord 0x44 p 0 0 0 0 0) (fun s x => s.slotCtx x (coWord 0x44 p 0 0 0 0 0) coDrop))

/-- PSN (R165). -/
def execPsn (m : Nat) (p : Pred) (s : State) : Host.Outcome State Fault Refusal :=
  act s (fun s => s.atSlot m (coWord 0x45 p 0 0 0 0 0) (fun s x => s.slotCtx x (coWord 0x45 p 0 0 0 0 0) coPsn))

/-- TRAP (R166). -/
def execTrap (m : Nat) (p : Pred) (r : Word) (s : State) : Host.Outcome State Fault Refusal :=
  act s (fun s => s.atSlot m (coWord 0x46 p 0 0 0 0 r) (fun s x => s.slotCtx x (coWord 0x46 p 0 0 0 0 r) coTrap))

/-- MARK (R167). -/
def execMark (m : Nat) (p : Pred) (v : Word) (s : State) : Host.Outcome State Fault Refusal :=
  act s (fun s => s.atSlot m (coWord 0x47 p 0 0 0 0 v) (fun s x => s.slotCtx x (coWord 0x47 p 0 0 0 0 v) coMark))

/-- ATOM (R168). -/
def execAtom (m : Nat) (p : Pred) (place : Word) (s : State) : Host.Outcome State Fault Refusal :=
  act s (fun s => s.atSlot m (coWord 0x48 p 0 0 0 0 place) (fun s x => s.slotCtx x (coWord 0x48 p 0 0 0 0 place) coAtom))

/-- CNT (R169). -/
def execCnt (m : Nat) (p : Pred) (a : BitVec 6) (imm : Word) (s : State) : Host.Outcome State Fault Refusal :=
  act s (fun s => s.atSlot m (coWord 0x50 p 0 a 0 0 imm) (fun s x => s.slotCnt x (coWord 0x50 p 0 a 0 0 imm)))

/-! ### The words of the commands -/

end Sys2Proof.Machine

namespace Sys2Proof

open Sys2Proof.Machine

/-- The instruction word that a Coulter command names (R142, R143); none for another command. -/
def Instr.coWord? : Instr → Option CoW
  | .nop _ => some ⟨0, 0, 0, 0, 0, 0, 0, 0⟩
  | .endExec _ p => some (coWord 0x01 p 0 0 0 0 0)
  | .skip _ p n => some (coWord 0x03 p 0 0 0 0 n)
  | .next _ p b => some (coWord 0x04 p 0 0 0 0 b)
  | .add _ p w d a b => some (coWord 0x10 p d a b (szCode w) 0)
  | .sub _ p w d a b => some (coWord 0x11 p d a b (szCode w) 0)
  | .andOp _ p d a b => some (coWord 0x12 p d a b 0 0)
  | .orOp _ p d a b => some (coWord 0x13 p d a b 0 0)
  | .xorOp _ p d a b => some (coWord 0x14 p d a b 0 0)
  | .shl _ p d a b imm => some (coWord 0x15 p d a b 0 imm)
  | .shr _ p d a b imm => some (coWord 0x16 p d a b 0 imm)
  | .ext _ p d a imm => some (coWord 0x17 p d a 0 0 imm)
  | .ins _ p d a b imm => some (coWord 0x18 p d a b 0 imm)
  | .mov _ p d a => some (coWord 0x19 p d a 0 0 0)
  | .ldi _ p d imm => some (coWord 0x1A p d 0 0 0 imm)
  | .addi _ p w d a imm => some (coWord 0x1B p d a 0 (szCode w) imm)
  | .andi _ p d a imm => some (coWord 0x1C p d a 0 0 imm)
  | .ceq _ p w d a b => some (coWord 0x20 p d a b (szCode w) 0)
  | .cne _ p w d a b => some (coWord 0x21 p d a b (szCode w) 0)
  | .clt _ p w d a b => some (coWord 0x22 p d a b (szCode w) 0)
  | .cge _ p w d a b => some (coWord 0x23 p d a b (szCode w) 0)
  | .crng _ p w d a b span => some (coWord 0x24 p d a b (szCode w) span)
  | .lxt _ p a => some (coWord 0x30 p 0 a 0 0 0)
  | .lht _ p a t => some (coWord 0x31 p 0 a 0 0 t)
  | .lfn _ p sel => some (coWord 0x32 p 0 0 0 0 sel)
  | .tgt _ p a b form => some (coWord 0x40 p 0 a b 0 form)
  | .twin _ p a b form => some (coWord 0x41 p 0 a b 0 form)
  | .home _ p => some (coWord 0x42 p 0 0 0 0 0)
  | .key _ p k => some (coWord 0x43 p 0 0 0 0 k)
  | .drop _ p => some (coWord 0x44 p 0 0 0 0 0)
  | .psn _ p => some (coWord 0x45 p 0 0 0 0 0)
  | .trap _ p r => some (coWord 0x46 p 0 0 0 0 r)
  | .mark _ p v => some (coWord 0x47 p 0 0 0 0 v)
  | .atom _ p place => some (coWord 0x48 p 0 0 0 0 place)
  | .cnt _ p a imm => some (coWord 0x50 p 0 a 0 0 imm)
  | _ => none

/-- The message that a Coulter command runs in; none for another command. -/
def Instr.coMsg? : Instr → Option Nat
  | .nop m => some m
  | .endExec m _ => some m
  | .skip m _ _ => some m
  | .next m _ _ => some m
  | .add m _ _ _ _ _ => some m
  | .sub m _ _ _ _ _ => some m
  | .andOp m _ _ _ _ => some m
  | .orOp m _ _ _ _ => some m
  | .xorOp m _ _ _ _ => some m
  | .shl m _ _ _ _ _ => some m
  | .shr m _ _ _ _ _ => some m
  | .ext m _ _ _ _ => some m
  | .ins m _ _ _ _ _ => some m
  | .mov m _ _ _ => some m
  | .ldi m _ _ _ => some m
  | .addi m _ _ _ _ _ => some m
  | .andi m _ _ _ _ => some m
  | .ceq m _ _ _ _ _ => some m
  | .cne m _ _ _ _ _ => some m
  | .clt m _ _ _ _ _ => some m
  | .cge m _ _ _ _ _ => some m
  | .crng m _ _ _ _ _ _ => some m
  | .lxt m _ _ => some m
  | .lht m _ _ _ => some m
  | .lfn m _ _ => some m
  | .tgt m _ _ _ _ => some m
  | .twin m _ _ _ _ => some m
  | .home m _ => some m
  | .key m _ _ => some m
  | .drop m _ => some m
  | .psn m _ => some m
  | .trap m _ _ => some m
  | .mark m _ _ => some m
  | .atom m _ _ => some m
  | .cnt m _ _ _ => some m
  | _ => none

end Sys2Proof

namespace Sys2Proof.Machine

/-- The width of a width code; none for the reserved code (R142). -/
def szWidth (sz : Nat) : Option Width :=
  match sz with | 0 => some .w8 | 1 => some .w16 | 2 => some .w32 | _ => none

/-- The command that a word spells for message `m` (R142, R143); none for a reserved opcode or width. Fields that the opcode does not
use are the loader's to check (R144). -/
def coDecode (m : Nat) (w : CoW) : Option Instr :=
  let p : Pred := ⟨Fin.ofNat 8 w.qi, decide (w.qs = 1)⟩
  let d := BitVec.ofNat 6 w.dst
  let a := BitVec.ofNat 6 w.sa
  let b := BitVec.ofNat 6 w.sb
  let imm := BitVec.ofNat 32 w.imm
  match w.op with
  | 0x00 => some (.nop m)
  | 0x01 => some (.endExec m p)
  | 0x03 => some (.skip m p imm)
  | 0x04 => some (.next m p imm)
  | 0x10 => (szWidth w.sz).map (fun z => .add m p z d a b)
  | 0x11 => (szWidth w.sz).map (fun z => .sub m p z d a b)
  | 0x12 => some (.andOp m p d a b)
  | 0x13 => some (.orOp m p d a b)
  | 0x14 => some (.xorOp m p d a b)
  | 0x15 => some (.shl m p d a b imm)
  | 0x16 => some (.shr m p d a b imm)
  | 0x17 => some (.ext m p d a imm)
  | 0x18 => some (.ins m p d a b imm)
  | 0x19 => some (.mov m p d a)
  | 0x1A => some (.ldi m p d imm)
  | 0x1B => (szWidth w.sz).map (fun z => .addi m p z d a imm)
  | 0x1C => some (.andi m p d a imm)
  | 0x20 => (szWidth w.sz).map (fun z => .ceq m p z d a b)
  | 0x21 => (szWidth w.sz).map (fun z => .cne m p z d a b)
  | 0x22 => (szWidth w.sz).map (fun z => .clt m p z d a b)
  | 0x23 => (szWidth w.sz).map (fun z => .cge m p z d a b)
  | 0x24 => (szWidth w.sz).map (fun z => .crng m p z d a b imm)
  | 0x30 => some (.lxt m p a)
  | 0x31 => some (.lht m p a imm)
  | 0x32 => some (.lfn m p imm)
  | 0x40 => some (.tgt m p a b imm)
  | 0x41 => some (.twin m p a b imm)
  | 0x42 => some (.home m p)
  | 0x43 => some (.key m p imm)
  | 0x44 => some (.drop m p)
  | 0x45 => some (.psn m p)
  | 0x46 => some (.trap m p imm)
  | 0x47 => some (.mark m p imm)
  | 0x48 => some (.atom m p imm)
  | 0x50 => some (.cnt m p a imm)
  | _ => none

/-! ### The tick -/

/-- Execute the word in a message's slot, whatever it is. -/
def State.runSlot (s : State) (m : Nat) : State :=
  match s.msg? m with
  | none => s
  | some x =>
    if s.running x then
      let w := s.slotWord x
      if w.op = 0x50 then s.slotCnt x w else s.slotCtx x w (coEffect w.op)
    else s

/-- The slots of a message's block that have not executed yet execute before the tick ends (R113). -/
def State.finishBlock (s : State) (m : Nat) : State := (List.range 8).foldl (fun s _ => s.runSlot m) s

/-- The next stage: its block is the one NEXT named, lookup results arrive (R115, R123). -/
def Ctx.nextStage (c : Ctx) : Ctx :=
  { c with stage := c.stage + 1, block := c.next, next := 0, slot := 0, due := [],
           t := c.due.foldl (fun t x => Tbl.set (fun _ => 0) t x.1 x.2) c.t }

/-- A message in an engine at the end of a tick: it moves on one stage, and leaves after the fourth (R112). -/
def State.engineTick (s : State) (m : Nat) : State :=
  let s := s.finishBlock m
  s.modMsg m (fun x => if x.stage = .engine then
    if x.ctx.stage < 3 then { x with ctx := x.ctx.nextStage } else { x with stage := .map } else x)

end Sys2Proof.Machine
end

