-- ==== Sys2Proof/Machine/Loader.lean ====
section
/-! DEFINITION. Loading and committing programs and their hash tables (05, 07). -/

namespace Sys2Proof.Machine

/-! ### The image (R171 to R173) -/

/-- Byte b of engine n's staging window. -/
def State.stagingByte (s : State) (n b : Nat) : Nat := fieldGet (s.rd (Reg.coulterStaging n (b / 4))) (8 * (b % 4)) 8

/-- Bytes [off, off + len) of the staging window. -/
def State.staging (s : State) (n off len : Nat) : List Byte :=
  (List.range len).map (fun i => BitVec.ofNat 8 (s.stagingByte n (off + i)))

/-- Little-endian field of the header. -/
def State.stagingLe (s : State) (n off len : Nat) : Nat := leNat (s.staging n off len)

/-- Big-endian value of bytes. -/
def beNat (l : List Byte) : Nat := l.foldl (fun acc b => 256 * acc + b.toNat) 0

/-- Block counts of the four stages. -/
def State.imageBlocks (s : State) (n : Nat) : List Nat := (List.range 4).map (fun k => s.stagingByte n (8 + k))

/-- FORMAT: magic, version, stage count or block counts invalid (R138, R171). -/
def State.imageFormatBad (s : State) (n : Nat) : Bool :=
  let st := s.stagingByte n 7
  decide (s.stagingLe n 0 4 ≠ 0x43525A50 ∨ s.stagingLe n 4 2 ≠ 1 ∨ st = 0 ∨ 4 < st) ||
  (List.range 4).any (fun k => if k < st then decide (s.stagingByte n (8 + k) = 0 ∨ 4 < s.stagingByte n (8 + k))
    else decide (s.stagingByte n (8 + k) ≠ 0))

/-- Blocks of stages before stage k. -/
def blocksBefore (l : List Nat) (k : Nat) : Nat := (l.take k).sum

/-- The words of an image with their places: (stage, block, slot). -/
def imagePlaces (stages : Nat) (blocks : List Nat) : List (Nat × Nat × Nat) :=
  (List.range stages).flatMap (fun k => (List.range ((blocks[k]?).getD 0)).flatMap (fun b =>
    (List.range 8).map (fun i => (k, b, i))))

/-- Image word at a place (R172). -/
def State.imageWord (s : State) (n : Nat) (blocks : List Nat) (x : Nat × Nat × Nat) : Nat :=
  s.stagingLe n (0x80 + 64 * (blocksBefore blocks x.1 + x.2.1) + 8 * x.2.2) 8

/-- The first word refused: (code, index) (R138, R144). -/
def State.imageWordBad (s : State) (n : Nat) : Option (Nat × Nat) :=
  let st := s.stagingByte n 7
  let bl := s.imageBlocks n
  ((imagePlaces st bl).filterMap (fun x =>
    let looks := ((List.range x.2.2).filter (fun i => isLookup (coFields (s.imageWord n bl (x.1, x.2.1, i))).op)).length
    match coRefusals ⟨st, bl, s.stagingByte n 0xC, x.1, x.2.2, looks⟩ (coFields (s.imageWord n bl x)) with
    | c :: _ => some (c, 32 * x.1 + 8 * x.2.1 + x.2.2)
    | [] => none)).head?

/-- Total blocks of the image. -/
def State.imageTotal (s : State) (n : Nat) : Nat := (s.imageBlocks n).sum

/-- SHA-384 over the header's covered bytes and the body (R173). -/
def State.imageHash (s : State) (n : Nat) : BitVec 384 :=
  Config.sha384 (s.staging n 0 0x30 ++ s.staging n 0x60 0x20 ++ s.staging n 0x80 (64 * s.imageTotal n))

/-- The public key registered in a slot of the key registry, none when unused or retired (R292). -/
def State.regKey (s : State) (slot : Nat) : Option (List Byte) :=
  if Nat.testBit (s.rd Reg.securityKeyregUsed).toNat slot && !(Nat.testBit (s.rd Reg.securityKeyregRetired).toNat slot)
  then some (Tbl.get (fun _ => []) s.sec.keys slot) else none

/-- The signature verifies under Crauz key KEYID (R173, R292): Crauz keys are registry slots 8 to 23. -/
def State.imageSigOk (s : State) (n : Nat) : Bool :=
  let k := s.stagingByte n 0x60
  if k < 16 then
    match s.regKey (8 + k) with
    | some key => Config.ecdsaVerify key (s.staging n 0x30 48) (s.staging n (0x80 + 64 * s.imageTotal n) 96)
    | none => false
  else false

/-- Sequence number of a slot. -/
def State.slotSeq (s : State) (n p sl : Nat) : Nat :=
  if sl = 0 then s.get64 (Reg.coulterSeqALo n p) (Reg.coulterSeqAHi n p)
  else s.get64 (Reg.coulterSeqBLo n p) (Reg.coulterSeqBHi n p)

/-- A program has a slot in force in an engine (R141). -/
def State.progLive (s : State) (n p : Nat) : Bool := decide (s.getF (Fld.coulterProgStatLive n p) = 1)

/-- The slot in force of a live program. -/
def State.progInForce (s : State) (n p : Nat) : Nat := s.getF (Fld.coulterProgStatInforce n p)

/-- The loader's verdict on the staging window of engine n for program p of engine k, which compares SEQ with itself only: (code,
word index) (R138, R174, R176). Codes 0x12 and 0x13, which no instruction fails, have word 0 (DESIGN CHOICE, log 83). -/
def State.loadVerdict (s : State) (n k p : Nat) : Nat × Nat :=
  if s.imageFormatBad n then (0x03, 0)
  else if s.stagingByte n 6 ≠ p then (0x12, 0)
  else if s.stagingLe n 0x18 4 ≠ 0x80 + 64 * s.imageTotal n + 96 ∨
      s.imageHash n ≠ BitVec.ofNat 384 (beNat (s.staging n 0x30 48)) then (0x02, 0)
  else if !s.imageSigOk n then (0x01, 0)
  else if s.stagingLe n 0x10 8 ≤ (if s.progLive k p then s.slotSeq k p (s.progInForce k p) else 0) then (0x04, 0)
  else if s.pendingCommit (.prog k p) then (0x13, 0)
  else (s.imageWordBad n).getD (0, 0)

/-- The slot a load fills (R175). -/
def State.inactiveSlot (s : State) (n p : Nat) : Nat := if s.progLive n p then 1 - s.progInForce n p else 0

/-- Messages that fixed a slot and are still at the engine input or in a stage (R175). -/
def State.slotBusy (s : State) (n p sl : Nat) : Bool :=
  s.dp.msgs.any (fun m => decide ((m.engine = n ∨ s.storeOf m.engine = n) ∧ m.cls.prog = p ∧ m.cls.slot = some sl) &&
    decide (m.stage = .atEngine ∨ m.stage = .engine))

/-- Key of an image: engine, program, slot. -/
def imageKey (n p sl : Nat) : Nat := n * 32 + p * 2 + sl

/-- Write the image in engine `src`'s staging window into slot `sl` of program `p` of engine `n` (R172, R175, R183). -/
def State.writeSlot (s : State) (src n p sl : Nat) : State :=
  let bl := s.imageBlocks src
  let places := imagePlaces (s.stagingByte src 7) bl
  let ws := places.map (fun x => (32 * x.1 + 8 * x.2.1 + x.2.2, s.imageWord src bl x))
  let seq := s.stagingLe src 0x10 8
  let img : Image := ⟨s.stagingByte src 7, bl, s.stagingByte src 0xC, s.imageHash src, s.stagingByte src 0x60, 0⟩
  let ks := (List.range 4).map (fun k => s.stagingLe src (0x20 + 4 * k) 4)
  let s := { s with regs := Tbl.clear s.regs (Reg.coulterStore n p sl 0) 0x400 }
  let s := ws.foldl (fun s x => s.set64 (Reg.coulterStore n p sl x.1) (Reg.coulterStore n p sl x.1 + 4) x.2) s
  let s := (List.range 4).foldl (fun s k => s.wr (Reg.coulterKconst n p sl k) (BitVec.ofNat 32 ((ks[k]?).getD 0))) s
  let s := if sl = 0 then (s.set64 (Reg.coulterSeqALo n p) (Reg.coulterSeqAHi n p) seq).setF (Fld.coulterProgStatValidA n p) 1
    else (s.set64 (Reg.coulterSeqBLo n p) (Reg.coulterSeqBHi n p) seq).setF (Fld.coulterProgStatValidB n p) 1
  { s with eng := { s.eng with images := Tbl.set (fun _ => {}) s.eng.images (imageKey n p sl) img,
                               last := Tbl.set (fun _ => none) s.eng.last (n * 16 + p) (some sl) } }

/-- The engines that a load or commit write to block n reaches (R136). -/
def State.enginesOf (s : State) (n : Nat) : List Nat := if s.shape n = 2 then [n, n + 1] else [n]

/-- The load under way in an engine: program, and the engine whose staging window it reads. -/
def State.loadOf (s : State) (k : Nat) : Option (Nat × Nat) := Tbl.get (fun _ => none) s.eng.loads k

/-- A write of LOAD_CTL.GO (R136, R139, R174): ignored while a load runs in an engine that it would reach. -/
def State.loadGo (s : State) (n p : Nat) : State :=
  if s.shape n = 3 ∨ (s.enginesOf n).any (fun k => decide (s.getF (Fld.coulterLoadStatBusy k) = 1)) then s.setF (Fld.coulterStatRefused n) 1
  else (s.enginesOf n).foldl (fun s k =>
    let s := s.setFs [(Fld.coulterLoadStatBusy k, 1), (Fld.coulterLoadStatProg k, p)]
    { s with eng := { s.eng with loads := Tbl.set (fun _ => none) s.eng.loads k (some (p, n)) } }) s

/-- LOAD (R174). -/
def execLoad (n : Phys) (p : ProgNo) (s : State) : Host.Outcome State Fault Refusal := act s (·.loadGo n.val p.val)

/-- A load ends: its result shown, BUSY clear. -/
def State.loadEnd (s : State) (n : Nat) (r : Nat × Nat) : State :=
  let s := s.setFs [(Fld.coulterLoadStatBusy n, 0), (Fld.coulterLoadStatCode n, r.1), (Fld.coulterLoadStatWord n, r.2)]
  { s with eng := { s.eng with loads := Tbl.set (fun _ => none) s.eng.loads n none } }

/-- LOAD_DONE: the loader reports a refusal, or writes the inactive slot once no message that fixed it is at the engine input or in a
stage (R174, R175); until then BUSY stays 1. Both engines of a cluster that was x16 at the GO take the image of engine 2c in the same
tick (R136). -/
def State.loadDone (s : State) (n : Nat) : State :=
  match s.loadOf n with
  | none => s
  | some (p, src) =>
    let vs := ((List.range 32).filter (fun k => decide (s.loadOf k = some (p, src)))).map (fun k => (k, s.loadVerdict src k p))
    if vs.any (fun x => decide (x.2.1 = 0) && s.slotBusy x.1 p (s.inactiveSlot x.1 p)) then s
    else vs.foldl (fun s x =>
      if x.2.1 ≠ 0 then s.loadEnd x.1 x.2 else (s.writeSlot src x.1 p (s.inactiveSlot x.1 p)).loadEnd x.1 (0, 0)) s

/-- LOAD_DONE (R175). -/
def execLoadDone (n : Phys) (s : State) : Host.Outcome State Fault Refusal :=
  act s (·.loadDone n.val)

/-- A commit of program p is refused in engine n (R20, R139): a commit of it pending, no slot loaded or valid, the slot in
force already, or a load of it running. -/
def State.progCommitBad (s : State) (n p : Nat) : Bool :=
  s.pendingCommit (.prog n p) || decide ((s.loadOf n).map (·.1) = some p) ||
  match Tbl.get (fun _ => none) s.eng.last (n * 16 + p) with
  | none => true
  | some sl => (s.progLive n p && decide (s.progInForce n p = sl)) ||
      decide (s.getF (if sl = 0 then Fld.coulterProgStatValidA n p else Fld.coulterProgStatValidB n p) = 0)

/-- One engine takes a program commit (R177). -/
def State.progCommitOne (s : State) (n p : Nat) : State :=
  if s.progCommitBad n p then s.setF (Fld.coulterCommitStatRefused n) 1
  else
    let s := s.acceptCommit (.prog n p) (Fld.coulterCommitStatPending n) (Reg.coulterCommitTickLo n)
      (Reg.coulterCommitTickHi n) (Reg.coulterCommitFurlongLo n) (Reg.coulterCommitFurlongHi n)
    s.setFs [(Fld.coulterCommitStatProg n, p), (Fld.coulterProgStatPending n p, 1)]

/-- A write of COULTER.COMMIT.GO (R136, R177). -/
def State.progCommit (s : State) (n p : Nat) : State :=
  if s.shape n = 3 then s.setF (Fld.coulterStatRefused n) 1
  else (s.enginesOf n).foldl (fun s k => s.progCommitOne k p) s

/-- PROGRAM_COMMIT (R177). -/
def execProgramCommit (n : Phys) (p : ProgNo) (s : State) : Host.Outcome State Fault Refusal :=
  act s (·.progCommit n.val p.val)

/-- The boundary of a program commit (R177, R183). -/
def State.progSwitch (s : State) (n p : Nat) : State :=
  let sl := (Tbl.get (fun _ => none) s.eng.last (n * 16 + p)).getD 0
  let img := Tbl.get (fun _ => {}) s.eng.images (imageKey n p sl)
  let s := s.setFs [(Fld.coulterProgStatInforce n p, sl), (Fld.coulterProgStatLive n p, 1),
    (Fld.coulterProgStatStages n p, img.stages), (Fld.coulterProgStatPending n p, 0),
    (Fld.coulterCommitStatPending n, bit (s.commits.any (fun c => match c.1 with
      | .prog m q => decide (m = n ∧ q ≠ p) | _ => false)))]
  { s with eng := { s.eng with images := Tbl.set (fun _ => {}) s.eng.images (imageKey n p sl) { img with inForce := s.tick } } }

/-- COUNTER_CLEAR: a write of any 1 to a counter's low word clears the counter as the tick's start left it; additions of the tick are counted
after the clear (R141, R170). -/
def execCounterClear (n : Phys) (p : ProgNo) (k : Fin 32) (s : State) : Host.Outcome State Fault Refusal :=
  act s (·.set64 (Reg.coulterCntLo n.val p.val k.val) (Reg.coulterCntHi n.val p.val k.val) 0)

/-! ### Hash tables (R179 to R183) -/

/-- The allocations of a program in a copy: (base, entries) of its allocated tables. -/
def State.htAllocs (s : State) (load : Bool) (p : Nat) : List (Nat × Nat) :=
  ((List.range 4).map (fun t => s.rd (if load then Reg.coulterHtAllocLoad p t else Reg.coulterHtAlloc p t))).filterMap
    (fun w => if fieldGet w 0 5 = 0 then none else some (fieldGet w 5 17, 2 ^ fieldGet w 0 5))

/-- A commit of program p's tables is pending. -/
def State.htPending (s : State) (p : Nat) : Bool := s.pendingCommit (.ht p)

/-- A size code other than 0 or 2 to 16, or a base that is no multiple of its size (R181). -/
def State.htSizeBad (s : State) (p : Nat) : Bool :=
  (List.range 4).any (fun t =>
    let w := s.rd (Reg.coulterHtAllocLoad p t)
    let n := fieldGet w 0 5
    decide (n ≠ 0) && (decide (n < 2 ∨ 16 < n) || decide (fieldGet w 5 17 % 2 ^ n ≠ 0)))

/-- Two of its allocations overlap, or one overlaps another program's as they will stand (R181). -/
def State.htOverlap (s : State) (p : Nat) : Bool :=
  let mine := s.htAllocs true p
  (pairsOf mine).any (fun x => runsMeet x.1.1 x.1.2 x.2.1 x.2.2) ||
  (List.range 16).any (fun q => decide (q ≠ p) &&
    (s.htAllocs (s.htPending q) q).any (fun y => mine.any (fun x => runsMeet x.1 x.2 y.1 y.2)))

/-- A write of HT_COMMIT.GO (R181, R182). -/
def State.htCommit (s : State) (p : Nat) : State :=
  if s.htPending p then s.setFs [(Fld.coulterHtStatRefused, 1), (Fld.coulterHtStatViol, 0)]
  else if s.htSizeBad p then s.setFs [(Fld.coulterHtStatRefused, 1), (Fld.coulterHtStatViol, 1)]
  else if s.htOverlap p then s.setFs [(Fld.coulterHtStatRefused, 1), (Fld.coulterHtStatViol, 2)]
  else
    let s := s.acceptCommit (.ht p) Fld.coulterHtStatPending Reg.coulterHtCommitTickLo Reg.coulterHtCommitTickHi
      Reg.coulterHtCommitFurlongLo Reg.coulterHtCommitFurlongHi
    s.setFs [(Fld.coulterHtStatProg, p), (Fld.coulterHtStatPendMap, s.getF Fld.coulterHtStatPendMap ||| 2 ^ p)]

/-- HT_COMMIT (R181). -/
def execHtCommit (p : ProgNo) (s : State) : Host.Outcome State Fault Refusal := act s (·.htCommit p.val)

/-- Entries of the given runs copied from one copy of the hash store to the other. -/
def copyRuns (src dst : Tbl HEnt) (runs : List (Nat × Nat)) : Tbl HEnt :=
  runs.foldl (fun t r => (Tbl.within src r.1 r.2).foldl (fun t e => Tbl.set (fun _ => {}) t e.1 e.2) (Tbl.clear t r.1 r.2)) dst

/-- The boundary of a table commit: allocations and entries are in force, and TDIGEST is to be computed (R181, R183). -/
def State.htSwitch (s : State) (p : Nat) : State :=
  let runs := s.htAllocs true p
  let s := { s with regs := Tbl.copy regReset s.regs (Reg.coulterHtAllocLoad p 0) (Reg.coulterHtAlloc p 0) 16 }
  let map := s.getF Fld.coulterHtStatPendMap &&& (0xFFFF - 2 ^ p)
  let s := s.setFs [(Fld.coulterHtStatPendMap, map), (Fld.coulterHtStatPending, bit (decide (map ≠ 0)))]
  { s with eng := { s.eng with hashF := copyRuns s.eng.hashL s.eng.hashF runs,
                               tdigest := Tbl.set (fun _ => none) s.eng.tdigest p none } }

/-- A write of HT_CTL: PROG; and SEED starts a seed unless the program's commit is pending (R182), or a seed runs, which goes on (DESIGN
CHOICE, log 83). -/
def State.htSeed (s : State) (p : Nat) : State :=
  let s := s.setF Fld.coulterHtCtlProg p
  if s.htPending p || s.eng.seeding.isSome then s
  else { s.setF Fld.coulterHtCtlBusy 1 with eng := { s.eng with seeding := some p } }

/-- HT_SEED (R181). -/
def execHtSeed (p : ProgNo) (s : State) : Host.Outcome State Fault Refusal := act s (·.htSeed p.val)

/-- The seed ends: allocations and entries in force are in the load copy (R181). A load copy whose commit has become pending keeps the
content committed (R20; DESIGN CHOICE, log 83). -/
def State.htSeedDone (s : State) : State :=
  match s.eng.seeding with
  | none => s
  | some p =>
    if s.htPending p then { s.setF Fld.coulterHtCtlBusy 0 with eng := { s.eng with seeding := none } } else
    let runs := s.htAllocs false p
    let s := { s with regs := Tbl.copy regReset s.regs (Reg.coulterHtAlloc p 0) (Reg.coulterHtAllocLoad p 0) 16 }
    { s.setF Fld.coulterHtCtlBusy 0 with
      eng := { s.eng with seeding := none, hashL := copyRuns s.eng.hashF s.eng.hashL runs } }

/-- HT_SEED_DONE (R181). -/
def execHtSeedDone (s : State) : Host.Outcome State Fault Refusal := act s (·.htSeedDone)

/-- The entry lies in a load-copy allocation of a program whose commit is pending (R181). -/
def State.htEntryLocked (s : State) (e : Nat) : Bool :=
  (List.range 16).any (fun p => s.htPending p && (s.htAllocs true p).any (fun r => decide (r.1 ≤ e ∧ e < r.1 + r.2)))

/-- A write of HT_DATA_HI: key, data and valid bit stored at ENTRY of the load copy, ENTRY raised by 1; ignored for the copy
in force, during a seed and while the entry's program has a commit pending (R181, R182). -/
def State.htDataHiWrite (s : State) (v : Word) : State :=
  let e := s.getF Fld.coulterHtIdxEntry
  if s.getF Fld.coulterHtIdxCopy = 1 ∨ s.getF Fld.coulterHtCtlBusy = 1 ∨ s.htEntryLocked e then s
  else
    let s := s.wr Reg.coulterHtDataHi v
    let ent : HEnt := ⟨s.rd Reg.coulterHtKey,
      BitVec.ofNat 63 ((s.rd Reg.coulterHtDataLo).toNat + 2 ^ 32 * fieldGet v 0 31), decide (fieldGet v 31 1 = 1)⟩
    { s.setF Fld.coulterHtIdxEntry ((e + 1) % 131072) with
      eng := { s.eng with hashL := Tbl.set (fun _ => {}) s.eng.hashL e ent } }

/-- HT_DATA_HI_WRITE (R182). -/
def execHtDataHiWrite (v : Word) (s : State) : Host.Outcome State Fault Refusal := act s (·.htDataHiWrite v)

/-- A write of HT_IDX loads the entry into the view (R182). -/
def State.htIdxWrite (s : State) (v : Word) : State :=
  let s := s.setFs [(Fld.coulterHtIdxEntry, fieldGet v 0 17), (Fld.coulterHtIdxCopy, fieldGet v 17 1)]
  let ent := Tbl.get (fun _ => ({} : HEnt)) (if fieldGet v 17 1 = 1 then s.eng.hashF else s.eng.hashL) (fieldGet v 0 17)
  ((s.wr Reg.coulterHtKey ent.key).wr Reg.coulterHtDataLo (BitVec.ofNat 32 ent.data.toNat)).wr Reg.coulterHtDataHi
    (BitVec.ofNat 32 (ent.data.toNat / 2 ^ 32 + bit ent.valid * 2 ^ 31))

/-- HT_IDX_WRITE (R182). -/
def execHtIdxWrite (v : Word) (s : State) : Host.Outcome State Fault Refusal := act s (·.htIdxWrite v)

/-- The bytes TDIGEST covers: for each table its allocation word, then each valid entry in index order (R183). -/
def State.tdigestBytes (s : State) (p : Nat) : List Byte :=
  (List.range 4).flatMap (fun t =>
    let w := s.rd (Reg.coulterHtAlloc p t)
    leBytes 4 w.toNat ++
    (if fieldGet w 0 5 = 0 then [] else
      ((Tbl.within s.eng.hashF (fieldGet w 5 17) (2 ^ fieldGet w 0 5)).filter (fun e => e.2.valid)).flatMap (fun e =>
        leBytes 4 e.2.key.toNat ++ leBytes 4 (e.2.data.toNat % 2 ^ 32) ++ leBytes 4 (e.2.data.toNat / 2 ^ 32))))

/-- TDIGEST_DONE: TDIGEST of a program is that of its tables in force (R183). -/
def execTdigestDone (p : ProgNo) (s : State) : Host.Outcome State Fault Refusal :=
  act s (fun s => { s with eng := { s.eng with
    tdigest := Tbl.set (fun _ => none) s.eng.tdigest p.val (some (Config.sha384 (s.tdigestBytes p.val))) } })

end Sys2Proof.Machine
end

