-- ==== Sys2Proof/Machine/Msgs.lean ====
section
/-! DEFINITION. Messages in the shared buffer: what they hold of it, the messages the device makes, egress credit, tracker
entries, suspect pages, and memory encryption. -/

namespace Sys2Proof.Machine

/-! ### Free bytes, occupancy (R253 to R256) -/

/-- `n` bytes nobody fixes: the data of a poisoned completion (log 7). -/
def State.freeBytes (s : State) (n : Nat) : List Byte × State :=
  let x := s.draw (8 * n)
  (leBytes n x.1.toNat, x.2)

/-- A message of the two reserves is not charged to a port. -/
def Msg.made (m : Msg) : Bool := decide (m.origin = .device ∨ m.origin = .harrow)

/-- Cells held by messages in the buffer that `f` picks. -/
def State.cellsOf (s : State) (f : Msg → Bool) : Nat := ((s.dp.msgs.filter f).map (·.cells)).sum

/-- Cells still held by packed messages that `f` picks (R253). -/
def State.cellsFreed (s : State) (f : FreedCells → Bool) : Nat := ((s.xb.freed.filter f).map (·.cells)).sum

/-- A packed message's cells were charged to a port. -/
def FreedCells.charged (x : FreedCells) : Bool := decide (x.origin = .ingress ∨ x.origin = .second)

/-- Cells charged to (logical port, class) now (OCC, R268). -/
def State.occ (s : State) (lp k : Nat) : Nat :=
  s.cellsOf (fun m => !m.made && decide (m.inLp = lp ∧ m.chCls = k)) +
  s.cellsFreed (fun x => x.charged && decide (x.lp = lp ∧ x.cls = k))

/-- Cells charged to a plot now. -/
def State.plotCells (s : State) (p : Nat) : Nat :=
  s.cellsOf (fun m => !m.made && decide (m.chPlot = p)) + s.cellsFreed (fun x => x.charged && decide (x.plot = p))

/-- Device reserve cells in use (R253, R268). -/
def State.devCells (s : State) : Nat :=
  s.cellsOf (fun m => decide (m.origin = .device ∧ m.stage ≠ .blocked)) + s.cellsFreed (fun x => decide (x.origin = .device))

/-- Cells that a move holds for its data until its write takes them: two for 80 bytes (R253). -/
def HMove.cells (v : HMove) : Nat := if v.taken || v.done then 0 else 2

/-- Harrow reserve cells in use: reads, writes, and the space of data still to come or to be sent (R253, R268). -/
def State.harCells (s : State) : Nat :=
  s.cellsOf (fun m => decide (m.origin = .harrow)) + s.cellsFreed (fun x => decide (x.origin = .harrow)) +
  (s.xb.harrow.map (fun e => (e.2.moves.map (·.cells)).sum)).sum

/-- Cells in use in the whole buffer (USED, R268). -/
def State.usedCells (s : State) : Nat :=
  s.cellsOf (fun m => decide (m.stage ≠ .blocked)) + s.cellsFreed (fun _ => true) +
  (s.xb.harrow.map (fun e => (e.2.moves.map (·.cells)).sum)).sum

/-- The limit in force of (logical port, class) and the quota of a message's plot, in the copies of `epoch`, admit `c` cells more (R21, R254,
R256). -/
def State.admits (s : State) (lp k plot epoch c : Nat) : Bool :=
  decide (s.occ lp k + c ≤ s.getF (Fld.bufferLimitCells lp k)) &&
  decide (s.plotCells plot + c ≤ 64 * fieldAt (s.regsAt epoch) (Fld.plotPlotW5BufQuota plot))

/-- The high-water mark of (logical port, class) takes the present occupancy (R268). -/
def State.highWater (s : State) (lp k : Nat) : State :=
  s.setF (Fld.bufferOccHwm lp k) (max (s.getF (Fld.bufferOccHwm lp k)) (min (s.occ lp k / 64) 0x1FFF))

/-! ### Messages the device makes (R26, R243, R253, R255) -/

/-- A message the device makes for logical port `lp`: it takes reserve cells, or waits for them, and bids from the next
tick. `req` is the request it answers, if any. -/
def State.make (s : State) (cls : Cls) (hdr : Hdr) (r : Route) (req : Hdr := hdr) : State :=
  let room := decide (s.devCells + hdr.cells ≤ 4096)
  s.addMsg (fun i => { id := i, stage := if room then .bid else .blocked, origin := .device, stamp := s.tick,
                       engine := 0, hdr := hdr, req := req, cls := cls, route := some r, inLp := cls.lp,
                       cells := hdr.cells, firstBid := s.tick + 1 })

/-- Waiting messages of the device take reserve cells that have become free, oldest first (R255). -/
def State.admitMade (s : State) : State :=
  (s.dp.msgs.filter (fun m => decide (m.stage = .blocked))).foldl (fun s m =>
    if s.devCells + m.cells ≤ 4096 then s.modMsg m.id (fun x => { x with stage := .bid, firstBid := s.tick + 1 }) else s) s

/-- The header of a response or completion to a request. -/
def replyHdr (req : Hdr) (data : List Byte) (poison : Bool) (st : CplStatus) (grant : Nat) : Hdr where
  op := if req.op.isMem then (if req.op.isRead then .drs else .ndr) else .cpl
  opc := 0
  mv := .invalid
  addr := 0
  size := data.length
  tag := req.tag
  data := data
  poison := poison
  status := st
  grant := grant

/-- A request that gets an answer at all: MemSpecRd gets none (R74, R226). -/
def Hdr.answered (h : Hdr) : Bool := h.op.needsRsp && decide (h.op ≠ .memSpecRd)

/-- The device answers a request: rank 2 toward the requester's port (R245). -/
def State.reply (s : State) (cls : Cls) (req : Hdr) (data : List Byte) (poison : Bool) (st : CplStatus) (grant : Nat)
    (key : Option (Nat × Nat)) : State :=
  if req.answered then
    s.make cls (replyHdr req data poison st grant) { lp := cls.lp, rank := 2, key := key } req
  else s

/-- The device answers a read with data, in as many completions as the largest payload needs (R39, R244). -/
def State.replyData (s : State) (cls : Cls) (req : Hdr) (data : List Byte) (poison : Bool) (grant : Nat) (key : Option (Nat × Nat)) :
    State :=
  (chunksOf (data.length / 512) data).foldl (fun s c => s.reply cls req c poison .sc grant key) s

/-- A request completes: a read with poison, a CXL.mem request without data with Cmp, any other non-posted request with the
status given (R74, R102, R129, R192); `key` is its line at the home. -/
def State.replyPoison (s : State) (cls : Cls) (req : Hdr) (st : CplStatus) (key : Option (Nat × Nat) := none) : State :=
  if req.op.isRead then
    let x := s.freeBytes req.size
    x.2.replyData cls req x.1 true 0 key
  else s.reply cls req [] false (if req.op.isMem then .sc else st) 0 key

/-! ### Egress credit (R66, R67, R257) -/

/-- Egress credit of a logical port and class. -/
def State.credit (s : State) (lp k : Nat) : Credit := Tbl.get (fun _ => {}) s.link.credit (8 * lp + k)

/-- Egress credit set. -/
def State.setCredit (s : State) (lp k : Nat) (c : Credit) : State :=
  { s with link := { s.link with credit := Tbl.set (fun _ => {}) s.link.credit (8 * lp + k) c } }

/-- A harrow channel. -/
def State.har (s : State) (c : Nat) : HarrowCh := Tbl.get (fun _ => {}) s.xb.harrow c

/-- A message is a line of a locked burst that has been granted a tick: it will be granted whatever happens (R246). -/
def State.lockedLine (s : State) (m : Msg) : Bool :=
  match m.route.bind (·.move) with
  | some x => (s.har x.1).locked && (s.har x.1).started && (s.har x.1).burst.contains m.id
  | none => false

/-- Units of messages of a class granted toward a port, or certain to be, and not yet packed. -/
def State.unitsAhead (s : State) (lp k : Nat) : Nat :=
  ((s.dp.msgs.filter (fun m => (decide (m.stage = .granted ∨ m.stage = .packing) || s.lockedLine m) &&
    decide (m.hdr.op.credit = k) && decide (m.route.map (·.lp) = some lp))).map (fun m => m.hdr.units)).sum

/-- The port holds credit for a message (R66): a message of n units may be sent if LIMIT − (CONS + n) is below 2^31. -/
def State.hasCredit (s : State) (lp : Nat) (h : Hdr) : Bool :=
  let c := s.credit lp h.op.credit
  let n := s.unitsAhead lp h.op.credit + h.units
  c.first && decide ((c.limit - (c.cons + BitVec.ofNat 32 n)).toNat < 2 ^ 31)

/-- Sending a message consumes its units (R66). -/
def State.consume (s : State) (lp : Nat) (h : Hdr) : State :=
  let c := s.credit lp h.op.credit
  s.setCredit lp h.op.credit { c with cons := c.cons + BitVec.ofNat 32 h.units }

/-! ### Links -/

/-- A fatal fault is in force or its reaction is due: R402 governs what has not been sent (R77). -/
def State.fatalRules (s : State) : Bool := s.flt.fatalDue.isSome || decide (s.getF Fld.faultStatFatal = 1)

/-- A logical port's link. -/
def State.lnk (s : State) (lp : Nat) : Link := Tbl.get (fun _ => {}) s.link.links lp

/-- A link changed. -/
def State.modLnk (s : State) (lp : Nat) (f : Link → Link) : State :=
  { s with link := { s.link with links := Tbl.set (fun _ => {}) s.link.links lp (f (s.lnk lp)) } }

/-- One more read poisoned, or write lost, by a port's link down; while its handling runs it counts in the record too (R74, R77,
R78). -/
def State.dropCount (s : State) (lp : Nat) (rd : Bool) : State :=
  let s := s.bump (if rd then Fld.portLpDropStatRdPoison lp else Fld.portLpDropStatWrSuspect lp)
  if (s.lnk lp).dropAt.isNone then s
  else s.modLnk lp (fun l => { l with ends := if rd then (l.ends.1 + 1, l.ends.2) else (l.ends.1, l.ends.2 + 1) })

/-! ### Tracker entries (R96 to R102) -/

/-- A message granted or beyond: it traverses, and its grant or its egress pack ends it where its link is down (R250, R252). -/
def Msg.onItsWay (m : Msg) : Bool := decide (m.stage = .granted ∨ m.stage = .packing)

/-- The message of a tracker entry that is already on its way. -/
def State.trackerOnWay (s : State) (t : Tracker) : Bool :=
  s.dp.msgs.any (fun m => m.onItsWay && decide ((m.route.bind (·.tracker)) = some t.id))

/-- The lowest tag of a logical port that no tracker entry of it holds and no late response may bear (R102; log 15). -/
def State.freeTag (s : State) (lp : Nat) : Nat :=
  let used := (s.dp.trackers.filter (fun t => decide (t.lp = lp))).map (·.tag) ++
    (s.dp.lateTags.filter (fun x => decide (x.1 = lp))).map (·.2)
  ((List.range (used.length + 1)).find? (fun k => !used.contains k)).getD 0

/-- A new tracker entry; its number and tag. -/
def State.track (s : State) (f : Nat → Nat → Tracker) (lp : Nat) : State × Nat × Nat :=
  let id := s.dp.nextId
  let tag := s.freeTag lp
  ({ s with dp := { s.dp with trackers := s.dp.trackers ++ [f id tag], nextId := id + 1 } }, id, tag)

/-- A tracker entry is released; OLDCNT and the state of its function are taken again (R99). -/
def State.untrack (s : State) (k : Nat) : State :=
  match s.tracker? k with
  | none => s
  | some t =>
    ({ s with dp := { s.dp with trackers := s.dp.trackers.filter (fun x => x.id ≠ k) } }).refreshFn t.cls.fid

/-- A tracker entry's generation is its function's current one (R98). -/
def State.current (s : State) (c : Cls) : Bool := decide (c.gen = s.gen c.fid)

/-- A gleaned response is counted in its function, its plot and the device (R98). -/
def State.glean (s : State) (c : Cls) : State :=
  ((s.bump (liveFd c.fid).2.2.2.2).bump (Fd.whole (Reg.plotPlotGlean c.plot))).add64 Reg.plotGleanLo Reg.plotGleanHi 1

/-! ### Suspect pages (R75, R76, R79) -/

/-- A suspect entry. -/
def State.suspect (s : State) (k : Nat) : Option (Nat × Nat) := Tbl.get (fun _ => none) s.link.suspects k

/-- A suspect entry set, and COUNT with it. -/
def State.setSuspect (s : State) (k : Nat) (v : Option (Nat × Nat)) : State :=
  let t := Tbl.set (fun _ => none) s.link.suspects k v
  ({ s with link := { s.link with suspects := t } }).setF Fld.portSuspectStatCount t.length

/-- A logical port's whole memory is suspect. -/
def State.portSuspect (s : State) (lp : Nat) : Bool := decide (s.getF (Fld.portLpDropStatPortSuspect lp) = 1)

/-- A read of page `pg` through port `lp` returns poison (R75, R76). -/
def State.isSuspect (s : State) (lp pg : Nat) : Bool :=
  s.portSuspect lp || s.link.suspects.any (fun e => decide (e.2.map (·.1) = some pg))

/-- Mark a page suspect: the lowest free entry, or the whole port when none is left (R76, R79). -/
def State.markPage (s : State) (lp pg : Nat) : State :=
  if s.link.suspects.any (fun e => decide (e.2 = some (pg, lp))) then s
  else if 4096 ≤ s.link.suspects.length then
    (s.setF (Fld.portLpDropStatPortSuspect lp) 1).setF Fld.portSuspectStatOvf 1
  else
    let free := ((List.range 4096).find? (fun k => decide (s.suspect k = none))).getD 0
    s.setSuspect free (some (pg, lp))

/-- Mark every 4 KiB pool page a write touches. -/
def State.markPages (s : State) (lp : Nat) (pool : Option Nat) (len : Nat) : State :=
  match pool with
  | none => s
  | some a => (List.range ((a + (max len 1) - 1) / 4096 - a / 4096 + 1)).foldl (fun s i => s.markPage lp (a / 4096 + i)) s

/-! ### Memory encryption (R308) -/

/-- The key pair of a plot, none for plot 0 (R130, R310). -/
def State.keyPair (s : State) (plot : Nat) : Option (BitVec 512) :=
  if plot = 0 then none else some (Tbl.get (fun _ => {}) s.sec.kslots plot).pair

/-- Data through AES-256-XTS, line by line from a pool address: each line of 64 bytes is a data unit, its tweak the line's
pool address (R308). The first argument bounds the number of lines. -/
def xtsLines (pair : BitVec 512) (dec : Bool) : Nat → Nat → List Byte → List Byte
  | 0, _, l => l
  | k + 1, a, l =>
    let n := min l.length (64 - a % 64)
    if l.length = 0 then []
    else bytesAt (Config.xts pair dec (a / 64) (l.take n)) 0 n ++ xtsLines pair dec k (a + n) (l.drop n)

/-- Data encrypted or decrypted with a plot's key at a pool address. -/
def State.cipher (s : State) (plot : Nat) (dec : Bool) (pool : Option Nat) (data : List Byte) : List Byte :=
  match s.keyPair plot, pool with
  | some k, some a => xtsLines k dec (data.length + 1) a data
  | _, _ => data

end Sys2Proof.Machine
end

