-- ==== Sys2Proof/Machine/Home.lean ====
section
/-! DEFINITION. The coherence home (09): the directory, transactions, lookups, parking, snoops, AtomicOps, and how a tracker
entry's response is taken. -/

namespace Sys2Proof.Machine

/-! ### The directory (R216, R217) -/

/-- Set of a key (e, n). -/
def keySet (e n : Nat) : Nat := (n % 2 ^ 17) ^^^ (e % 2 ^ 17)

/-- Tag of a key. -/
def keyTag (e n : Nat) : Nat := e % 2 ^ 17 + 2 ^ 17 * (n / 2 ^ 17 % 128)

/-- The key that a set and a tag recover. -/
def keyOf (set tag : Nat) : Nat × Nat :=
  (tag % 2 ^ 17, (set ^^^ (tag % 2 ^ 17)) + 2 ^ 17 * (tag / 2 ^ 17 % 128))

/-- Directory entry at 16 × set + way. -/
def State.dirAt (s : State) (i : Nat) : DirEnt := Tbl.get (fun _ => {}) s.home.dir i

/-- Directory entry set: without a sharer it is FREE unless it is POISON, and a FREE way that no transaction holds is unused (R217). -/
def State.setDir (s : State) (i : Nat) (d : DirEnt) : State :=
  let d := if d.sharers.isEmpty && decide (d.state ≠ 3) then { d with state := 0 } else d
  let d := if d.isOpen || decide (d.state ≠ 0) then d else { retired := d.retired }
  { s with home := { s.home with dir := Tbl.set (fun _ => {}) s.home.dir i d } }

/-- The way that holds a key, if any. -/
def State.wayOf (s : State) (e n : Nat) : Option Nat :=
  ((List.range 16).map (fun w => 16 * keySet e n + w)).find? (fun i =>
    let d := s.dirAt i
    decide (d.tag = keyTag e n) && (d.isOpen || decide (d.state ≠ 0)) && !d.retired)

/-- Lines a port holds (PORT_LINES, R242). -/
def State.portLines (s : State) (lp : Nat) : Nat := (s.home.dir.filter (fun e => e.2.sharers.contains lp)).length

/-- Entries not FREE (DIR_USED, R240). -/
def State.dirUsed (s : State) : Nat := (s.home.dir.filter (fun e => decide (e.2.state ≠ 0))).length

/-! ### Sweeps and coherent functions (R213, R235) -/

/-- The word and bit of a logical port in a map of two registers. -/
def mapBit (lo hi lp : Nat) : Fd := if lp < 32 then ⟨lo, lp, 1⟩ else ⟨hi, lp - 32, 1⟩

/-- A dead sweep of the port runs. -/
def State.sweeping (s : State) (lp : Nat) : Bool := decide (s.getF (mapBit Reg.homeSweepLo Reg.homeSweepHi lp) = 1)

/-- The SWEEP bit set. -/
def State.setSweep (s : State) (lp : Nat) (b : Bool) : State := s.setF (mapBit Reg.homeSweepLo Reg.homeSweepHi lp) (bit b)

/-- A message comes from its port's coherent function (R213). -/
def State.fromCfn (s : State) (c : Cls) : Bool :=
  decide (s.getF (Fld.homeCfnValid c.lp) = 1 ∧ s.getF (Fld.homeCfnFid c.lp) = c.fid)

/-! ### Transactions -/

/-- The open transaction on a key. -/
def State.txnOn (s : State) (e n : Nat) : Option Txn := s.home.txns.find? (fun t => decide (t.e = e ∧ t.n = n))

/-- The transaction numbered `k`. -/
def State.txn? (s : State) (k : Nat) : Option Txn := s.home.txns.find? (fun t => t.id = k)

/-- A transaction changed. -/
def State.modTxn (s : State) (k : Nat) (f : Txn → Txn) : State :=
  { s with home := { s.home with txns := s.home.txns.map (fun t => if t.id = k then f t else t) } }

/-- A parked message's wait ends when a transaction on key (e, n) closes (R224). -/
def ParkCause.endedBy (c : ParkCause) (e n : Nat) : Bool :=
  match c with
  | .conflict e' n' => decide (e' = e ∧ n' = n)
  | .setFull k => decide (k = keySet e n)
  | .table => true

/-- A transaction closes: OPEN is cleared, and the waits that it ended are over (R222, R224, R227). -/
def State.closeTxn (s : State) (k : Nat) : State :=
  match s.txn? k with
  | none => s
  | some t =>
    let s := { s with
      home := { s.home with
      txns := s.home.txns.filter (fun x => x.id ≠ k),
      parked := s.home.parked.map (fun p =>
        if !p.ready && p.cause.endedBy t.e t.n then { p with ready := true, readyAt := s.tick } else p) } }
    match t.way with
    | none => s
    | some w => s.setDir w { s.dirAt w with isOpen := false }

/-- A transaction closes when its home actions have resolved and no memory response is outstanding (R222). -/
def State.closeIfDone (s : State) (k : Nat) : State :=
  match s.txn? k with
  | some t => if t.done && t.mem.isEmpty then s.closeTxn k else s
  | none => s

/-! ### Requests that end without memory -/

/-- The outcome of a request not sent, whose logical port `lp` is down (R74, R77, R236): reads complete with poison, writes
complete and mark their pages, other requests end by their kind. Once a fatal fault has occurred writes are discarded (R77). -/
def State.endUnsent (s : State) (cls : Cls) (req : Hdr) (lp : Nat) (pool : Option Nat) (last : Bool) (key : Option (Nat × Nat)) :
    State :=
  let fatal := s.fatalRules
  if req.op.isRead then
    (if fatal then s else s.dropCount lp true).replyPoison cls req .ur key
  else if req.op.isWrite || decide (req.op = .ioMsg) then
    if fatal then s
    else
      let s := (if req.op.isMemWr then s.markPages lp pool req.data.length else s).dropCount lp false
      if last then s.reply cls req [] false .sc 0 key else s
  else s.replyPoison cls req (if fatal then .ca else .ur) key

/-- One issue of a write issued twice has completed; the flag says whether the write has (R131). -/
def State.legDone (s : State) (g : Option Nat) : State × Bool :=
  match g with
  | none => (s, true)
  | some g =>
    match s.dp.legs.find? (fun x => x.1 = g) with
    | none => (s, true)
    | some x =>
      if 1 < x.2 then
        ({ s with dp := { s.dp with legs := s.dp.legs.map (fun y => if y.1 = g then (g, y.2 - 1) else y) } }, false)
      else ({ s with dp := { s.dp with legs := s.dp.legs.filter (fun y => y.1 ≠ g) } }, true)

/-! ### Issue toward the target -/

/-- A message goes to its target: with a tracker entry when an answer is due, its data encrypted for pool memory, bidding from
the next tick; when the target's link is down it ends instead (R74, R236). -/
def State.issueCore (s : State) (m : Msg) (r : Route) (grant : Nat) : State :=
  if !s.dllUp r.lp then
    let x := s.legDone r.group
    (x.1.endUnsent m.cls m.req r.lp r.pool x.2 r.key).delMsg m.id
  else
    let data := if m.hdr.op.isWrite && !m.hdr.poison then s.cipher m.cls.plot false r.pool m.hdr.data else m.hdr.data
    if m.req.answered then
      let x := s.track (fun id tag => {
        id := id, lp := r.lp, tag := tag, cls := m.cls, req := m.req, pool := r.pool,
        key := r.key, grant := grant, denied := r.denied, txn := r.txn, group := r.group, start := s.tick,
        mark := m.ctx.act.mark }) r.lp
      let s := x.1.modMsg m.id (fun y => { y with
        stage := .bid, firstBid := s.tick + 1, hdr := { m.hdr with addr := r.addr, tag := x.2.2, data := data },
        route := some { r with tracker := some x.2.1, merging := false } })
      match r.txn with
      | some k => s.modTxn k (fun t => { t with mem := t.mem ++ [x.2.1] })
      | none => s
    else
      s.modMsg m.id (fun y => { y with
        stage := .bid, firstBid := s.tick + 1, hdr := { m.hdr with addr := r.addr, data := data },
        route := some { r with merging := false } })

/-- The bytes of a keyed write do not fill its lines (R309). -/
def Msg.partialWrite (m : Msg) (r : Route) : Bool :=
  decide (m.cls.plot ≠ 0) && m.hdr.op.isWrite && !m.hdr.poison &&
  match r.pool with
  | some a => decide (a % 64 ≠ 0 ∨ m.hdr.data.length % 64 ≠ 0)
  | none => false

/-- Header of a memory read or write that the device makes itself. -/
def memHdr (op : Opn) (addr tag size : Nat) (data : List Byte) (poison : Bool) : Hdr :=
  { op := op, opc := 0, mv := .invalid, addr := addr, size := size, tag := tag, data := data, poison := poison, status := .sc }

/-! ### Harrow moves (R259, R262 to R264) -/

/-- A channel changed. -/
def State.modHar (s : State) (c : Nat) (f : HarrowCh → HarrowCh) : State :=
  { s with xb := { s.xb with harrow := Tbl.set (fun _ => {}) s.xb.harrow c (f (s.har c)) } }

/-- Move `v` of a channel. -/
def State.move? (s : State) (c v : Nat) : Option HMove := (s.har c).moves.find? (fun x => x.id = v)

/-- A move changed. -/
def State.modMove (s : State) (c v : Nat) (f : HMove → HMove) : State :=
  s.modHar c (fun h => { h with moves := h.moves.map (fun x => if x.id = v then f x else x) })

/-- A move's line is moved: its mark in its home transaction goes (R185, R222). -/
def State.moveEnd (s : State) (c v : Nat) : State :=
  match s.move? c v with
  | none => s
  | some x =>
    let s := s.modMove c v (fun x => { x with done := true, hold := none })
    match x.hold with
    | some t => (s.modTxn t.1 (fun y => { y with mem := y.mem.filter (fun k => k ≠ t.2) })).closeIfDone t.1
    | none => s

/-- A move's data is gathered in the harrow reserve (R264); a SCRUB discards it, and that is all of the move (R259). -/
def State.moveData (s : State) (c v : Nat) (data : List Byte) (poison : Bool) : State :=
  let s := s.modMove c v (fun x => { x with data := some (data, poison), poison := poison })
  if (s.move? c v).any (fun x => x.out.isNone) then s.moveEnd c v else s

/-- A move's mark keeps its home transaction open until its write has completed: its read and its write are one sequence (R185). -/
def State.moveHold (s : State) (c v : Nat) (txn : Option Nat) : State :=
  match txn, (s.move? c v).bind (·.out) with
  | some k, some _ =>
    let h := s.dp.nextId
    let s := { s with dp := { s.dp with nextId := h + 1 } }
    (s.modTxn k (fun t => { t with mem := t.mem ++ [h] })).modMove c v (fun x => { x with hold := some (k, h) })
  | _, _ => s

/-- A move may access memory: a ZERO line is there at once, a read bids; one that is denied, or meets a suspect page or a link that is
down, returns poison (R74, R75, R192, R259). -/
def State.moveIssue (s : State) (m : Msg) (r : Route) (c v : Nat) : State :=
  let s := s.moveHold c v r.txn
  if m.hdr.op.isMemWr then (s.delMsg m.id).moveData c v m.hdr.data false
  else if !r.denied.isEmpty || s.isSuspect r.lp (r.pool.getD 0 / 4096) || !s.dllUp r.lp then
    let x := (if s.dllUp r.lp || !r.denied.isEmpty then s else s.dropCount r.lp true).freeBytes 64
    (x.2.delMsg m.id).moveData c v x.1 true
  else
    let x := s.track (fun id tag => {
      id := id, lp := r.lp, tag := tag, cls := m.cls, req := m.hdr, use := .harRd c v, pool := r.pool, txn := r.txn,
      start := s.tick }) r.lp
    let s := x.1.modMsg m.id (fun y => { y with
      stage := .bid, firstBid := s.tick + 1, hdr := { m.hdr with addr := r.addr, tag := x.2.2 },
      route := some { r with tracker := some x.2.1 } })
    match r.txn with
    | some k => s.modTxn k (fun t => { t with mem := t.mem ++ [x.2.1] })
    | none => s

/-- The read of a write that R309 merges: made by the device, of the lines that the write touches. -/
def State.mergeRead (s : State) (m : Msg) (r : Route) : State :=
  let a := r.pool.getD 0
  let len := (a % 64 + m.hdr.data.length + 63) / 64 * 64
  let s := s.modMsg m.id (fun y => { y with stage := .txn, route := some { r with merging := true } })
  let rd := memHdr .memRd (r.addr - a % 64) 0 len [] false
  let x := s.track (fun id tag => {
    id := id, lp := r.lp, tag := tag, cls := m.cls, req := rd, use := .merge m.id,
    pool := some (a - a % 64), txn := r.txn, start := s.tick }) r.lp
  let s := match r.txn with
    | some k => x.1.modTxn k (fun t => { t with mem := t.mem ++ [x.2.1] })
    | none => x.1
  s.make m.cls { rd with tag := x.2.2 } { lp := r.lp, ld := r.ld, tracker := some x.2.1, pool := some (a - a % 64) }

/-- A message is sent to its target. A keyed write that does not cover its lines first reads them; lines of a suspect page read as poison,
so that the write goes as poison (R75, R309; log 16). A harrow move goes its own way. -/
def State.issue (s : State) (m : Msg) (r : Route) (grant : Nat) : State :=
  match r.move with
  | some x => s.moveIssue m r x.1 x.2
  | none =>
    if m.partialWrite r && s.dllUp r.lp then
      let s := (s.add64 Reg.securityMemRmwLo Reg.securityMemRmwHi 1).modMsg m.id (fun y => { y with merged := true })
      if s.isSuspect r.lp (r.pool.getD 0 / 4096) then s.issueCore { m with hdr := { m.hdr with poison := true } } r grant
      else s.mergeRead m r
    else s.issueCore m r grant

/-! ### The home's own accesses (R228, R230, R234, R236, R238) -/

/-- What became of an access that the home makes: its entry resolves to no member, the member's link is down (R236), or it has been
sent with a tracker entry. -/
inductive Access where
  | absent | lost
  | sent (k : Nat)
deriving DecidableEq, Repr

/-- A memory access that the home makes for a transaction on key (e, n), through the member that holds the line in the copies of its
classification (R21, R228, R234, R238); toward a link that is down it is lost (R74, R236). -/
def State.homeAccess (s : State) (cls : Cls) (e n : Nat) (op : Opn) (data : List Byte) (poison : Bool) (use : TrkUse)
    (rank : Nat) : State × Access :=
  let t := s.regsAt cls.epoch
  let pool := fieldAt t (Fld.extentXtW0Pxb e) * 2 ^ 28 + 64 * n
  match memberOf t (fieldAt t (Fld.extentXtW0Pool e)) pool with
  | none => (s, .absent)
  | some d =>
    if !s.dllUp d.1 then
      (if op.isMemWr then (s.markPages d.1 (some pool) 64).dropCount d.1 false else s.dropCount d.1 true, .lost)
    else
      let h := memHdr op d.2.2 0 64 (if poison then data else s.cipher cls.plot false (some pool) data) poison
      let x := s.track (fun id tag => {
        id := id, lp := d.1, tag := tag, cls := cls, req := h, use := use,
        pool := some pool, start := s.tick }) d.1
      (x.1.make cls { h with tag := x.2.2 } { lp := d.1, ld := d.2.1, rank := rank, tracker := some x.2.1, pool := some pool },
       .sent x.2.1)

/-- The poison write of a line has completed: the line is FREE but for its transaction (R217, R227). -/
def State.poisonDone (s : State) (way : Option Nat) : State :=
  match way with
  | some w => let d := s.dirAt w; if d.state = 3 then s.setDir w { d with state := 0 } else s
  | none => s

/-- The line of a transaction is written to memory as poison, ahead of the transaction's own access (R228, R234). -/
def State.poisonWrite (s : State) (t : Txn) (cls : Cls) : State :=
  let x := s.freeBytes 64
  let y := x.2.homeAccess cls t.e t.n .memWr x.1 true (.poisonWr t.id) 2
  match y.2 with
  | .sent k => y.1.modTxn t.id (fun t => { t with before := t.before ++ [k] })
  | .lost => y.1.poisonDone t.way
  | .absent => y.1

/-- The classification that the home's own accesses carry when no request is behind them: the extent's plot, no function. -/
def State.ownCls (s : State) (e lp : Nat) : Cls :=
  ⟨lp, .homePath, 0x1FFF, 0, fieldAt s.regs (Fld.extentXtW1Plot e), 0, 0, none, decide (s.getF Fld.hedgeCommitStatInforce = 1),
   s.dp.epoch⟩

/-! ### Snoops (R228 to R234) -/

/-- The extent size of an entry in force, in bytes. -/
def State.xsz (s : State) (e : Nat) : Nat := xszAt s.regs e

/-- Host address of a line for a port's coherent function (R213). -/
def State.snoopAddr (s : State) (e n lp : Nat) : Nat :=
  let f := s.getF (Fld.homeCfnFid lp)
  let dpa := (e - s.getF (Fld.plotFnW2XtBase f)) * s.xsz e + 64 * n
  (s.decoder f).hpa dpa

/-- The lowest free BITag of a port. -/
def State.freeBitag (s : State) (lp : Nat) : Option Nat :=
  (List.range 4096).find? (fun k => !(s.home.snoops.any (fun x => decide (x.lp = lp ∧ x.bitag = k))))

/-- The pending snoops changed. -/
def State.setSnoops (s : State) (l : List Snoop) : State := { s with home := { s.home with snoops := l } }

/-- The snoop opcodes. -/
def SnpKind.opn : SnpKind → Opn
  | .inv => .biSnpInv
  | .data => .biSnpData
  | .cur => .biSnpCur

/-- The change R235 makes to a transaction's line for a port that is not snooped: an OWNED line becomes POISON with its poison
write ordered ahead, a SHARED line loses the bit (R228). -/
def State.deadLine (s : State) (t : Txn) (lp : Nat) : State :=
  match t.way with
  | none => s
  | some w =>
    let d := s.dirAt w
    if d.state = 2 then
      let s := (s.setDir w { d with state := 3, sharers := [] }).bump Fld.homeDeadSwept
      s.poisonWrite t (s.ownCls t.e lp)
    else s.setDir w { d with sharers := d.sharers.filter (fun x => x ≠ lp) }

/-- One snoop of a transaction issues, or the port counts as dead, or it waits for a BITag or a reserve cell (R228, R255). -/
def State.issueSnoop (s : State) (k : Nat) (x : Nat × SnpKind) : State :=
  match s.txn? k with
  | none => s
  | some t =>
    let drop (s : State) := s.modTxn k (fun t => { t with toSnoop := t.toSnoop.filter (fun y => y ≠ x) })
    if s.getF (Fld.homeCfnValid x.1) = 0 ∨ s.sweeping x.1 = true then (drop s).deadLine t x.1
    else match s.freeBitag x.1 with
      | none => s
      | some b =>
        if 4096 ≤ s.devCells then s
        else
          let h := { memHdr x.2.opn (s.snoopAddr t.e t.n x.1) 0 64 [] false with bitag := b }
          let s := (drop s).make (s.ownCls t.e x.1) h { lp := x.1, rank := 2, key := some (t.e, t.n) }
          let s := s.setSnoops (s.home.snoops ++ [⟨x.1, b, x.2, k, s.tick + 1⟩])
          s.add64 Reg.homeSnoopLo Reg.homeSnoopHi 1

/-- The snoops that a transaction still has to issue. -/
def State.issueSnoops (s : State) (k : Nat) : State :=
  match s.txn? k with
  | none => s
  | some t => t.toSnoop.foldl (fun s x => s.issueSnoop k x) s

/-- A snoop ends as dead (R234): the bit clears, the line is written as poison, and a record is made; the counter depends on
whether a timeout or a sweep ended it. -/
def State.deadSnoop (s : State) (p : Snoop) (count : Fd) : State :=
  let s := s.setSnoops (s.home.snoops.filter (fun x => !decide (x.lp = p.lp ∧ x.bitag = p.bitag)))
  match s.txn? p.txn with
  | none => s
  | some t =>
    let s := match t.way with
      | some w => let d := s.dirAt w; s.setDir w { d with sharers := d.sharers.filter (fun x => x ≠ p.lp) }
      | none => s
    let s := s.poisonWrite t (s.ownCls t.e p.lp)
    (s.raise { src := 0x08, tick := p.start, lp := some p.lp, d0 := t.e, d1 := t.n }).bump count

/-! ### Resolution (R227, R230) -/

/-- Every home action of a transaction but its victim's has resolved (R230). -/
def State.actionsDone (s : State) (t : Txn) : Bool :=
  t.toSnoop.isEmpty && t.before.isEmpty && !(s.home.snoops.any (fun x => x.txn = t.id))

/-- Every home action of a transaction has resolved (R230). -/
def State.txnReady (s : State) (t : Txn) : Bool :=
  s.actionsDone t && match t.victim with
    | none => true
    | some v => match s.txn? v with
      | some x => s.actionsDone x
      | none => true

/-- Insert a port in a sharer list, ascending. -/
def addSharer (l : List Nat) (q : Nat) : List Nat :=
  l.filter (fun x => x < q) ++ [q] ++ l.filter (fun x => q < x)

/-- The directory entry after a request (R227). -/
def newEntry (t : Txn) (d : DirEnt) : DirEnt :=
  let others := d.sharers.filter (fun x => x ≠ t.q)
  let without := { d with sharers := others, state := if others.isEmpty then 0 else d.state }
  match t.kind with
  | .rdS => { d with sharers := addSharer d.sharers t.q, state := 1 }
  | .rdE | .invE => { d with sharers := [t.q], state := 2 }
  | .rdNa => if t.holder then without else d
  | .evict => if t.holder then without else d
  | .wbKeep =>
    { d with sharers := addSharer d.sharers t.q, state := if others.isEmpty ∧ t.mv = .any then 2 else 1 }
  | .wr =>
    if t.allocs then { d with sharers := [t.q], state := if t.mv = .shared then 1 else 2 }
    else { d with sharers := [], state := 0 }
  | .invI | .atomic => { d with sharers := [], state := 0 }
  | .biconf | .specRd | .other | .poison => d

/-- The state a response grants (R227). -/
def HomeKind.grant (k : HomeKind) : Nat :=
  match k with
  | .rdS => 1
  | .rdE | .invE => 2
  | _ => 0

/-- The times at the home that the first issue of a write counted are also its second issue's (R24, R26). -/
def Msg.shareWaits (y : Msg) (p : Parts) : Msg :=
  { y with parts := { y.parts with home := p.home, snoop := p.snoop, retry := p.retry } }

/-- Second issues of group `g` that wait for their first at the home. -/
def State.matesOf (s : State) (g : Option Nat) : List Msg :=
  s.dp.msgs.filter (fun y => decide (g ≠ none ∧ y.origin = .second ∧ y.stage = .txn ∧ (y.route.bind (·.group)) = g) &&
    !((y.route.map (·.merging)).getD false))

/-- The second issue of a write whose home transaction `txn` resolves goes with the first, whose waits were `p` (R185, R210). -/
def State.issueMates (s : State) (p : Parts) (g txn : Option Nat) : State :=
  (s.matesOf g).foldl (fun s y => match y.route with
    | some r => (s.modMsg y.id (·.shareWaits p)).issue (y.shareWaits p) { r with txn := txn } 0
    | none => s) s

/-- The second issue goes with a first that ends at the home. -/
def State.dropMates (s : State) (g : Option Nat) : State := (s.matesOf g).foldl (fun s y => s.delMsg y.id) s

/-- A transaction's memory access, once its home actions have resolved (R227, R230, R238). -/
def State.txnAccess (s : State) (t : Txn) : State :=
  match t.msg.bind (fun i => s.msg? i) with
  | none => s.closeIfDone t.id
  | some m =>
    match m.route with
    | none => s
    | some r =>
      match t.kind with
      | .atomic =>
        if s.isSuspect r.lp (r.pool.getD 0 / 4096) then ((s.reply m.cls m.req [] false .ca 0 r.key).delMsg m.id).closeTxn t.id
        else
          let x := s.homeAccess m.cls t.e t.n .memRd [] false (.atomRd t.id) 1
          match x.2 with
          | .sent k => x.1.modTxn t.id (fun t => { t with mem := [k] })
          | _ => ((x.1.reply m.cls m.req [] false .ca 0 r.key).delMsg m.id).closeTxn t.id
      | .invE | .invI =>
        ((s.reply m.cls m.req [] false .sc t.kind.grant r.key).delMsg m.id).closeTxn t.id
      | _ =>
        if m.req.op = .memClnEvct then ((s.reply m.cls m.req [] false .sc 0 r.key).delMsg m.id).closeTxn t.id
        else ((s.issue m { r with txn := some t.id } t.kind.grant).issueMates m.parts r.group (some t.id)).closeIfDone t.id

/-- A transaction's home actions resolve: a recalled way is taken, the sharers are written, SNOOP is counted, and the memory
access may bid (R219, R225, R227, R230). -/
def State.resolveTxn (s : State) (k : Nat) (waited : Bool) : State :=
  match s.txn? k with
  | none => s
  | some t =>
    let s := match t.victim with
      | some v => match s.txn? v with
        | some x =>
          let s := (s.modTxn v (fun y => { y with way := none })).closeTxn v
          match x.way with
          | some w => s.setDir w { tag := keyTag t.e t.n, isOpen := true }
          | none => s
        | none => s
      | none => s
    let s := match t.way with
      | some w => s.setDir w (newEntry t (s.dirAt w))
      | none => s
    let s := s.modTxn k (fun t => { t with done := true, victim := none })
    let s := match t.msg with
      | some i => if waited then s.modMsg i (fun m => { m with parts := { m.parts with snoop := s.tick - t.lookEnd } }) else s
      | none => s
    s.txnAccess { t with done := true }

/-! ### AtomicOps (R238) -/

/-- Bytes of the operand. -/
def atomWidth (o : Opn) : Nat :=
  match o with
  | .fetchAdd w | .swap w => if w then 8 else 4
  | .cas k => if k.val = 0 then 4 else if k.val = 1 then 8 else 16
  | _ => 0

/-- The new value of the operand: sum, exchange, or exchange if the first half of the data equals the old value. -/
def atomNew (o : Opn) (old data : List Byte) : List Byte :=
  let w := (atomWidth o)
  match o with
  | .fetchAdd _ => leBytes w ((leNat old + leNat (bytesAt data 0 w)) % 2 ^ (8 * w))
  | .swap _ => bytesAt data 0 w
  | .cas _ => if bytesAt data 0 w = old then bytesAt data w w else old
  | _ => old

/-- Offset of the operand in its line, naturally aligned, from its pool address (R238; log 17). -/
def atomOff (o : Opn) (addr : Nat) : Nat := addr % 64 / max 1 (atomWidth o) * max 1 (atomWidth o)

/-- The requester's message of an AtomicOp's transaction is answered, and the transaction closes. -/
def State.atomEnd (s : State) (k : Nat) (data : List Byte) (st : CplStatus) : State :=
  match s.txn? k with
  | none => s
  | some t =>
    let s := match t.msg.bind (fun i => s.msg? i) with
      | some m => (s.reply m.cls m.req data false st 0 (some (t.e, t.n))).delMsg m.id
      | none => s
    s.closeTxn k

/-- The line an AtomicOp reads has come: compute, write the whole line back, and count it, as one at memory on an entry without COH in
EXC.ATOM_LOCAL too (R238, R239, R241). -/
def State.atomRead (s : State) (k : Nat) (line : List Byte) (poison : Bool) : State :=
  match s.txn? k with
  | none => s
  | some t =>
    match t.msg.bind (fun i => s.msg? i) with
    | none => s.closeTxn k
    | some m =>
      if poison then s.atomEnd k [] .ca
      else
        let s := (s.bump Fld.homeAtomHome).when (!t.coh && decide (m.ctx.act.atomMem = some true)) (·.bump Fld.homeExcAtomLocal)
        let off := atomOff m.req.op ((m.route.bind (·.pool)).getD m.req.addr)
        let w := (atomWidth m.req.op)
        let old := bytesAt line off w
        let new := bytesPut (bytesAt line 0 64) off (atomNew m.req.op old m.req.data)
        let x := s.homeAccess m.cls t.e t.n .memWr new false (.atomWr k old) 1
        match x.2 with
        | .sent i => x.1.modTxn k (fun t => { t with mem := [i] })
        | _ => x.1.atomEnd k [] .ca

/-! ### Responses (R118, R131, R230) -/

/-- What a response brings: data as the requester sees it, poison, status. -/
structure Answer where
  data   : List Byte
  poison : Bool
  status : CplStatus
deriving DecidableEq, Repr

/-- Where the bytes that were read stand in what their requester asked for: after a run of denied bytes at its start (R192). -/
def keptFrom (denied : List (Nat × Nat)) : Nat := ((denied.find? (fun r => r.1 = 0)).map (·.2)).getD 0

/-- Bytes that a read still reads once its denied ones are left out (R192). -/
def Tracker.want (t : Tracker) : Nat := t.req.size - (t.denied.map (·.2)).sum

/-- Read data as its requester receives it: decrypted, with the denied bytes, 0xFF, before the first and after the last of what was
read (R192, R308). -/
def State.readData (s : State) (t : Tracker) (data : List Byte) (poison : Bool) : List Byte :=
  let d := if poison then data else s.cipher t.cls.plot true (t.pool.map (· + t.got)) data
  let ff (n : Nat) : List Byte := List.replicate n (0xFF : Byte)
  (if t.got = 0 then ff (keptFrom t.denied) else []) ++ d ++
    (if t.want ≤ t.got + data.length then ff ((t.denied.map (·.2)).sum - keptFrom t.denied) else [])

/-- The merge of R309: the line read, with the write's bytes in it. -/
def State.mergeWrite (s : State) (i : Nat) (line : List Byte) (poison : Bool) : State :=
  match s.msg? i with
  | none => s
  | some m =>
    match m.route with
    | none => s
    | some r =>
      let a := r.pool.getD 0
      let hdr := if poison then { m.hdr with poison := true } else { m.hdr with data := bytesPut line (a % 64) m.hdr.data }
      let r := if poison then r else { r with pool := some (a - a % 64), addr := r.addr - a % 64 }
      s.issueCore { m with hdr := hdr } r 0

/-- Writes that transactions waited for as `k` are waited for as `l` (R230). -/
def State.swapWrite (s : State) (k : Nat) (l : List Nat) : State :=
  let f (x : Txn) : Txn := { x with before := x.before.flatMap (fun y => if y = k then l else [y]) }
  { s with home := { s.home with txns := s.home.txns.map f } }

/-- A write that transactions waited for has completed (R230). -/
def State.forgetWrite (s : State) (k : Nat) : State := s.swapWrite k []

/-- A tracker entry's response passes stage 1: the entry is released, what depends on it goes on, and the answer that goes to
the requester, if one does now, is given (R99, R131, R230, R238, R309). -/
def State.finishTracker (s : State) (t : Tracker) (a : Answer) : State × Option Answer :=
  let s := s.untrack t.id
  let drop (s : State) := match t.txn with
    | some k => s.modTxn k (fun x => { x with mem := x.mem.filter (fun y => y ≠ t.id) })
    | none => s
  match t.use with
  | .request =>
    let s := drop s
    let s := s.forgetWrite t.id
    let s := match t.txn with | some k => s.closeIfDone k | none => s
    let x := s.legDone t.group
    (x.1, if x.2 then some { a with data := if t.req.op.isRead then s.readData t a.data a.poison else a.data } else none)
  | .merge m =>
    let s := (drop s).mergeWrite m (s.readData t a.data a.poison) a.poison
    let s := s.swapWrite t.id (((s.msg? m).bind (fun x => x.route.bind (·.tracker))).toList)
    (match t.txn with | some k => s.closeIfDone k | none => s, none)
  | .atomRd k => (s.atomRead k (s.readData t a.data a.poison) a.poison, none)
  | .atomWr k orig => (s.atomEnd k (if a.status = .ca then [] else orig) a.status, none)
  | .poisonWr k =>
    let s := s.modTxn k (fun x => { x with before := x.before.filter (fun y => y ≠ t.id) })
    match s.txn? k with
    | some x =>
      let s := s.poisonDone x.way
      (if x.msg.isNone && x.done && x.before.isEmpty then s.closeIfDone k else s, none)
    | none => (s, none)
  | .harRd c v =>
    let plot := ((s.move? c v).map (·.plot)).getD 0
    let s := (drop s).moveData c v (if a.poison then a.data else s.cipher plot true t.pool a.data) a.poison
    (match t.txn with | some k => s.closeIfDone k | none => s, none)
  | .harWr c v => (s.moveEnd c v, none)

/-! ### Lookup (R222 to R226) -/

/-- The request's kind (R226), and whether R214 makes it non-allocating. -/
def State.homeKind (s : State) (m : Msg) (coh holder : Bool) : HomeKind × Bool :=
  let can := coh && s.fromCfn m.cls && !s.sweeping m.cls.lp && decide (m.cls.plot ≠ 0)
  let lost := coh && !s.fromCfn m.cls && decide (m.cls.plot ≠ 0)
  let keep := decide (m.req.mv ≠ .invalid)
  match m.req.op with
  | .biConflict => (.biconf, false)
  | .fetchAdd _ | .swap _ | .cas _ => (.atomic, false)
  | .memSpecRd => (.specRd, false)
  | .ioMemRd => (.rdNa, false)
  | .ioMemWr => (.wr, false)
  | .memRd | .memRdData =>
    if keep then (if can then (if m.req.mv = .shared then .rdS else .rdE, false) else (.rdNa, lost)) else (.rdNa, false)
  | .memInv | .memInvNT => if keep then (if can then (.invE, false) else (.invI, lost)) else (.invI, false)
  | .memWr | .memWrPtl =>
    if holder then (if keep then .wbKeep else .evict, false) else (.wr, keep && lost)
  | .memClnEvct => (.evict, false)
  | _ => (.other, false)

/-- A request that will hold the line (R214, R219). -/
def State.allocates (s : State) (m : Msg) (k : HomeKind) (coh : Bool) : Bool :=
  match k with
  | .rdS | .rdE | .invE => true
  | .wr => coh && s.fromCfn m.cls && !s.sweeping m.cls.lp && decide (m.cls.plot ≠ 0) && decide (m.req.mv ≠ .invalid) &&
      m.req.op.isMemWr
  | _ => false

/-- Snoops a request needs, by the state of the line and the other ports that hold it (R227). -/
def snoopsFor (k : HomeKind) (state : Nat) (others : List Nat) : List (Nat × SnpKind) :=
  match k with
  | .rdE | .invE | .invI | .wr | .atomic => others.map (fun x => (x, SnpKind.inv))
  | .rdS => if state = 2 then others.map (fun x => (x, SnpKind.data)) else []
  | .rdNa => if state = 2 then others.map (fun x => (x, SnpKind.cur)) else []
  | _ => []

/-- The port whose credits a message may take: a harrow move has none (R224). -/
def Msg.creditPort (m : Msg) : Option Nat := if m.origin = .harrow then none else some m.inLp

/-- Messages parked before `m` that wait for a credit, in order. -/
def State.creditWaiters (s : State) (m : Msg) : List Msg :=
  ((s.home.parked.takeWhile (fun p => p.msg ≠ m.id)).filter (fun p => p.credit.isNone)).filterMap (fun p => s.msg? p.msg)

/-- Of messages that wait, in order, those whose turn it is at their port. -/
def firstOfPorts (l : List Msg) : List Msg :=
  l.foldl (fun acc x => if acc.any (fun y => decide (y.creditPort = x.creditPort)) then acc else acc ++ [x]) []

/-- A free credit of a parked message: its port's 16, then its plot's; a harrow move takes plot 0's. One that waits takes it before those
that come later: per port in order, and for a plot's credits the first of each port (R224). -/
def State.parkCredit (s : State) (m : Msg) : Option Bool :=
  let held (b : Bool) (f : Msg → Bool) := (s.home.parked.filter (fun p => decide (p.credit = some b) &&
    match s.msg? p.msg with | some x => f x | none => false)).length
  let wait := s.creditWaiters m
  if wait.any (fun x => decide (x.creditPort = m.creditPort)) then none
  else if m.creditPort.isSome && decide (held false (fun x => decide (x.creditPort = m.creditPort)) < 16) then some false
  else if (firstOfPorts wait).any (fun x => decide (x.cls.plot = m.cls.plot)) then none
  else if held true (fun x => decide (x.cls.plot = m.cls.plot)) <
      fieldAt (s.regsAt m.cls.epoch) (Fld.plotPlotW5RetryCr m.cls.plot) then some true
  else none

/-- The counter of a cause. -/
def ParkCause.count (c : ParkCause) : Fd :=
  match c with
  | .conflict _ _ => Fld.homeRetryCntConflict
  | .setFull _ => Fld.homeRetryCntSetfull
  | .table => Fld.homeRetryCntTable

/-- The retry queue changed. -/
def State.setParked (s : State) (l : List Parked) : State := { s with home := { s.home with parked := l } }

/-- A message is parked, or parked again in its place (R223, R224). -/
def State.park (s : State) (m : Msg) (c : ParkCause) : State :=
  let s := s.bump c.count
  if s.home.parked.any (fun p => p.msg = m.id) then
    s.setParked (s.home.parked.map (fun p => if p.msg = m.id then { p with cause := c, ready := false } else p))
  else
    let cr := s.parkCredit m
    (s.modMsg m.id (fun x => { x with stage := .parked })).setParked (s.home.parked ++ [⟨m.id, cr, c, false, 0⟩])

/-- A message leaves the retry queue, its credit free. -/
def State.unpark (s : State) (i : Nat) : State := s.setParked (s.home.parked.filter (fun p => p.msg ≠ i))

/-- The ways of a set in order of use, latest first (R219). -/
def State.recentWays (s : State) (set : Nat) : List Nat := Tbl.get (fun _ => []) s.home.recent set

/-- A way is used: it is its set's latest (R219). -/
def State.useWay (s : State) (w : Nat) : State :=
  let l := w :: (s.recentWays (w / 16)).filter (fun x => x ≠ w)
  { s with home := { s.home with recent := Tbl.set (fun _ => []) s.home.recent (w / 16) l } }

/-- The victim among ways that may be taken: by pseudo-LRU, so never the latest used where there is another; of the others, by the
order of use, in a way that the manual does not fix (R219; log 7). -/
def State.pickVictim (s : State) (set : Nat) (ways : List Nat) : Option Nat :=
  let l := s.recentWays set
  let cs := if 1 < ways.length then ways.filter (fun w => decide (l.head? ≠ some w)) else ways
  cs[Config.pseudoLru l cs % max 1 cs.length]?

/-- The way for an allocation: a FREE way, or a victim by pseudo-LRU among the ways not open (R219). -/
def State.chooseWay (s : State) (e n : Nat) : Option (Nat × Bool) :=
  let ways := ((List.range 16).map (fun w => 16 * keySet e n + w)).filter (fun i => !(s.dirAt i).retired && !(s.dirAt i).isOpen)
  match ways.find? (fun i => decide ((s.dirAt i).state = 0)) with
  | some i => some (i, false)
  | none => (s.pickVictim (keySet e n) ways).map (fun i => (i, true))

/-- A victim's line is opened as a transaction of its own: its holders are snooped, or its poison write is made (R219). -/
def State.openVictim (s : State) (w id : Nat) : State :=
  let d := s.dirAt w
  let key := keyOf (w / 16) d.tag
  let t : Txn := {
    id := id, e := key.1, n := key.2, msg := none, kind := .poison, coh := true, q := 64, holder := false,
    allocs := false, mv := .invalid, way := some w, toSnoop := d.sharers.map (fun x => (x, SnpKind.inv)), lookEnd := s.tick }
  let s := (s.setDir w { d with isOpen := true })
  let s := { s with home := { s.home with txns := s.home.txns ++ [t] } }
  let s := if d.state = 3 then s.poisonWrite t (s.ownCls t.e 0) else s
  s.issueSnoops id

/-- A message's transaction opens, and its home actions start (R217, R219, R223, R228). -/
def State.openTxn (s : State) (m : Msg) (r : Route) (e n : Nat) (k : HomeKind) (holder allocs : Bool)
    (way : Option (Nat × Bool)) : State :=
  let id := s.dp.nextId
  let s := { s with dp := { s.dp with nextId := id + 2 } }
  let old : DirEnt := match way with
    | some x => s.dirAt x.1
    | none => {}
  let victim := (way.map (·.2)).getD false
  let others := if victim then [] else old.sharers.filter (fun x => !(holder && decide (x = m.cls.lp)))
  let t : Txn := {
    id := id, e := e, n := n, msg := some m.id, kind := k, coh := r.coh, q := m.cls.lp, holder := holder,
    allocs := allocs, mv := m.req.mv, way := way.map (·.1),
    toSnoop := if r.coh && !victim then snoopsFor k old.state others else [],
    victim := if victim then some (id + 1) else none, lookEnd := s.tick }
  let s := { s with home := { s.home with txns := s.home.txns ++ [t] } }
  let s := match way with
    | some (w, false) => (s.useWay w).setDir w { old with tag := keyTag e n, isOpen := true }
    | some (w, true) => (s.useWay w).openVictim w (id + 1)
    | none => s
  let s := if !victim && decide (old.state = 3) then s.poisonWrite t m.cls else s
  let s := s.issueSnoops id
  let s := s.modMsg m.id (fun x => { x with stage := .txn, route := some { r with txn := some id } })
  match s.txn? id with
  | some t => if s.txnReady t then s.resolveTxn id false else s
  | none => s

/-- Tracker entries of a write under way: its own, its second issue's, and those of the reads that R309 merges them into. -/
def State.writesOf (s : State) (m : Nat) (g : Option Nat) : List Nat :=
  let mine (x : Msg) : Bool := decide (x.id = m) || (g.isSome && decide ((x.route.bind (·.group)) = g))
  let ms := s.dp.msgs.filter mine
  (s.dp.trackers.filter (fun t =>
    ms.any (fun x => decide ((x.route.bind (·.tracker)) = some t.id) || decide (t.use = .merge x.id)))).map (·.id)

/-- A write or eviction of a holder whose line is open is accepted at once: the bit changes, and its data is written ahead of
the open transaction's access (R223, R227, R233). -/
def State.acceptAtOnce (s : State) (m : Msg) (r : Route) (t : Txn) (k : HomeKind) : State :=
  let s := match t.way with
    | some w => s.setDir w (newEntry { t with kind := k, q := m.cls.lp, holder := true, mv := m.req.mv } (s.dirAt w))
    | none => s
  if m.req.op = .memClnEvct then (s.reply m.cls m.req [] false .sc 0 r.key).delMsg m.id
  else
    let s := (s.issue m r 0).issueMates m.parts r.group none
    let l := s.writesOf m.id r.group
    s.modTxn t.id (fun x => { x with before := if x.done then x.before else x.before ++ l })

/-- A BIConflict is answered; the ack leaves after the responses already released to the port for the line (R232). -/
def State.biConflictAck (s : State) (m : Msg) (r : Route) : State :=
  let after := (s.dp.msgs.filter (fun x => x.hdr.op.isResponse &&
    decide ((x.route.map (·.lp)) = some m.cls.lp ∧ (x.route.bind (·.key)) = r.key))).map (·.id)
  let h := { memHdr .biConflictAck 0 m.req.tag 0 [] false with bitag := m.req.bitag }
  (s.make m.cls h { lp := m.cls.lp, rank := 2, after := after }).delMsg m.id

/-- Time at the home: HOME is 4 for the first lookup; RETRY is what the first lookup started late, and each tick from the end of one lookup to
that of the next (R225). -/
def State.lookTime (s : State) (m : Msg) (parked : Bool) : State :=
  s.modMsg m.id (fun x => { x with
    since := s.tick,
    parts := { x.parts with
      home := 4, retry := if parked then x.parts.retry + (s.tick - m.since) else (s.tick - m.since) - 4 } })

/-- A lookup whose message must not wait behind an open transaction: discarded kinds and BIConflict; else the lookup of a
request (R223). -/
def State.lookupReq (s : State) (m : Msg) (r : Route) (e n : Nat) : State :=
  let way := if r.coh then s.wayOf e n else none
  let s := (way.map s.useWay).getD s
  let ent := (way.map s.dirAt).getD {}
  let holder := r.coh && s.fromCfn m.cls && ent.sharers.contains m.cls.lp
  let kl := s.homeKind m r.coh holder
  match kl.1 with
  | .biconf => (s.biConflictAck m r).dropMates r.group
  | .specRd => s.delMsg m.id
  | .other =>
    let s := (s.bump Fld.homeExcBadreq).dropMates r.group
    (if m.req.op.isRead then s.replyPoison m.cls m.req .ur
     else s.reply m.cls m.req [] true (if m.req.op.isMem then .sc else .ur) 0 none).delMsg m.id
  | k =>
    match s.txnOn e n with
    | some t =>
      if holder && (decide (k = .evict) || decide (k = .wbKeep)) then (s.unpark m.id).acceptAtOnce m r t k
      else s.park m (.conflict e n)
    | none =>
      let allocs := s.allocates m k r.coh
      let room (n : Nat) : Bool := decide (s.home.txns.length + n ≤ 8192)
      if k = .atomic ∧ ent.state = 3 then (((s.unpark m.id).reply m.cls m.req [] false .ca 0 r.key).delMsg m.id)
      else if !room 1 then s.park m .table
      else
        let t := if kl.2 then s.bump Fld.homeExcNocfn else s
        if allocs && way.isNone then
          match s.chooseWay e n with
          | none => s.park m (.setFull (keySet e n))
          | some w => if w.2 && !room 2 then s.park m .table else (t.unpark m.id).openTxn m r e n k holder allocs (some w)
        else (t.unpark m.id).openTxn m r e n k holder allocs (way.map (fun w => (w, false)))

/-- A directory entry read by a lookup comes up to date with a sweep that runs: a swept port's OWNED line becomes POISON and
its bit in a SHARED line clears (R235). -/
def State.sweepEntry (s : State) (w : Nat) : State :=
  let d := s.dirAt w
  let dead := d.sharers.filter (fun x => s.sweeping x)
  if dead.isEmpty || d.isOpen then s
  else if d.state = 2 then (s.setDir w { d with state := 3, sharers := [] }).bump Fld.homeDeadSwept
  else s.setDir w { d with sharers := d.sharers.filter (fun x => !dead.contains x) }

/-- A way of a set that a lookup reads shows a correctable or (`x.2`) an uncorrectable error. At a severity of source 0x07 below
FATAL, taken in this tick, an uncorrectable one retires the way: its line is no longer tracked (R221, R396). -/
def State.dirError (s : State) (set : Nat) (x : Fin 16 × Bool) : State :=
  let w := 16 * set + x.1.val
  if (s.dirAt w).retired then s
  else if !x.2 then s.bump Fld.homeEccCorr
  else
    let s := (s.raise { src := 0x07, tick := s.tick, d0 := set, d1 := x.1.val }).bump Fld.homeEccUncorr
    if s.severity 0x07 = 3 then s
    else
      let s := (s.setDir w { retired := true }).bump Fld.homeEccRetired
      { s with home := { s.home with
        txns := s.home.txns.map (fun t => if t.way = some w then { t with way := none } else t) } }

/-- The rotating pointer of lookups at a port (R222). -/
def State.pointTo (s : State) (lp : Nat) : State := { s with home := { s.home with ptr := lp } }

/-- A lookup starts: it is counted, the set's errors show (R221), the pointer moves on, and a wait for its start is counted. -/
def State.lookStart (s : State) (m : Msg) (late : Bool) (set : Nat) (ecc : List (Fin 16 × Bool)) : State :=
  let s := ecc.foldl (fun s x => s.dirError set x) (s.add64 Reg.homeLookupLo Reg.homeLookupHi 1)
  let s := { s with home := { s.home with looked := s.home.looked + 1 } }
  (s.pointTo ((m.inLp + 1) % 64)).when late (·.bump Fld.homeRetryCntStart)

/-- The first message parked on a line (R224). -/
def State.firstOnKey (s : State) (m : Msg) : Bool :=
  decide (((s.home.parked.find? (fun q => decide (((s.msg? q.msg).bind (fun x => x.route.bind (·.key))) =
    m.route.bind (·.key)))).map (·.msg)) = some m.id)

/-- The place of a message whose lookup can end in this tick among those that can: replays before arrivals before harrow moves, then
from the pointer, then by arrival (R222); none for any other message. -/
def State.lookKey (s : State) (m : Msg) : Option (List Nat) :=
  let at_ (g : Nat) : List Nat := [g, (m.inLp + 64 - s.home.ptr) % 64, m.id]
  if m.stage = .home then
    if m.since + 4 ≤ s.tick then some (at_ (if m.origin = .harrow then 2 else 1)) else none
  else if m.stage = .parked then
    match s.home.parked.find? (fun p => p.msg = m.id) with
    | some p => if p.credit.isSome && p.ready && decide (p.readyAt + 4 ≤ s.tick) && s.firstOnKey m then some (at_ 0) else none
    | none => none
  else none

/-- A message's lookup may end now: four at most in a tick, in the order of R222, none after a fatal fault (R237). -/
def State.mayLook (s : State) (m : Msg) : Bool :=
  match s.lookKey m with
  | none => false
  | some k => decide (s.home.looked < 4 ∧ s.getF Fld.homeStatHalted = 0) &&
      s.dp.msgs.all (fun x => match s.lookKey x with
        | some y => !keysLt y k
        | none => true)

/-- The entry of a key, if the directory holds it, comes up to date with running sweeps (R235). -/
def State.sweepKey (s : State) (e n : Nat) : State :=
  match s.wayOf e n with
  | some w => s.sweepEntry w
  | none => s

/-- A lookup (R222, R223), which reads the key's set with the errors it shows (R221). -/
def State.lookup (s : State) (m : Msg) (parked : Bool) (ecc : List (Fin 16 × Bool)) : State :=
  match m.route.bind (·.key), m.route with
  | some (e, n), some r =>
    let s := s.lookStart m (!parked && decide (m.since + 4 < s.tick)) (keySet e n) ecc
    let s := (s.sweepKey e n).lookTime m parked
    match s.msg? m.id with
    | some m => s.lookupReq m r e n
    | none => s
  | _, _ => s

/-- HOME_LOOKUP: the lookup of a message that came from hedge and map, or of a harrow move, ends, when its turn has come (R222, R223;
log 18). -/
def execHomeLookup (m : Nat) (ecc : List (Fin 16 × Bool)) (s : State) : Host.Outcome State Fault Refusal :=
  act s (fun s => match s.msg? m with
    | some x => if x.stage = .home ∧ s.mayLook x = true then s.lookup x false ecc else s
    | none => s)

/-- RETRY_REPLAY: a parked message that holds a credit and whose wait has ended is looked up again when its turn has come, in the order
parked on its key (R222, R224). -/
def execRetryReplay (m : Nat) (ecc : List (Fin 16 × Bool)) (s : State) : Host.Outcome State Fault Refusal :=
  act s (fun s => match s.msg? m with
    | some x => if x.stage = .parked ∧ s.mayLook x = true then s.lookup x true ecc else s
    | none => s)

/-- RETRY_CREDIT_TAKEN: a message that found no credit takes one of its port or plot that is free, in arrival order per port
(R224). -/
def execRetryCreditTaken (m : Nat) (s : State) : Host.Outcome State Fault Refusal :=
  act s (fun s => match s.msg? m with
    | some x =>
      if s.home.parked.any (fun p => decide (p.msg = m) && p.credit.isNone) then
        let cr := s.parkCredit x
        s.setParked (s.home.parked.map (fun p => if p.msg = m then { p with credit := cr } else p))
      else s
    | none => s)

/-- The line after a BIRsp from a port that holds it (R229). -/
def birspEntry (d : DirEnt) (lp : Nat) (op : Opn) (k : SnpKind) : DirEnt :=
  let rest := d.sharers.filter (fun x => x ≠ lp)
  if op = Opn.biRspS then { d with state := 1 }
  else if op = Opn.biRspE ∧ k = SnpKind.cur then { d with state := 2 }
  else { d with sharers := rest, state := if rest.isEmpty then 0 else d.state }

/-- A BIRsp is matched with its snoop and changes the line (R229); one that matches none is stray. -/
def State.takeBirsp (s : State) (lp : Nat) (h : Hdr) : State :=
  if h.op = Opn.biRspBlk then s.bump Fld.homeExcBiStray
  else match s.home.snoops.find? (fun x => decide (x.lp = lp ∧ x.bitag = h.bitag)) with
    | none => s.bump Fld.homeExcBiStray
    | some p =>
      let rest := s.home.snoops.filter (fun x => !decide (x.lp = lp ∧ x.bitag = h.bitag))
      let s := s.setSnoops rest
      let s := match (s.txn? p.txn).bind (·.way) with
        | none => s
        | some w => if (s.dirAt w).sharers.contains lp then s.setDir w (birspEntry (s.dirAt w) lp h.op p.kind) else s
      s.home.txns.foldl (fun s t => s.issueSnoops t.id) s

/-- BIRSP: a BIRsp reaches the home in stage 1 (R117, R229). -/
def execBirsp (m : Nat) (s : State) : Host.Outcome State Fault Refusal :=
  act s (fun s => match s.msg? m with
    | some x => if x.cls.path = .homePath ∧ (x.stage = .engine ∨ x.stage = .map)
        then (s.takeBirsp x.cls.lp x.hdr).delMsg m else s
    | none => s)

/-- SNOOPS_RESOLVE: a transaction's home actions resolve (R230); snoops that waited for a BITag or a cell issue first. A
transaction of a victim resolves with the request it serves. -/
def execSnoopsResolve (t : Nat) (s : State) : Host.Outcome State Fault Refusal :=
  act s (fun s =>
    let s := s.issueSnoops t
    match s.txn? t with
    | some x => if !x.done && decide (x.kind ≠ .poison) && s.txnReady x && decide (s.getF Fld.homeStatHalted = 0)
        then s.resolveTxn t true else s
    | none => s)

/-- The snoop timeout in ticks: SNP_TMO, from 16 µs to 64 ms (R231, R240). -/
def State.snoopTicks (s : State) : Nat := 250 * max 16 (min 64000 (s.getF Fld.homeSnpTmoUs))

/-- SNOOP_TIMEOUT: a pending snoop reaches its timeout, and its port is dead for the line (R231, R234). -/
def execSnoopTimeout (lp : Lp) (bitag : Fin 4096) (s : State) : Host.Outcome State Fault Refusal :=
  act s (fun s => match s.home.snoops.find? (fun x => decide (x.lp = lp.val ∧ x.bitag = bitag.val)) with
    | some p => if s.getF Fld.homeStatHalted = 0 ∧ s.aonPast p.start s.snoopTicks = true then s.deadSnoop p Fld.homeDeadTimeout else s
    | none => s)

/-- The list of running sweeps changed. -/
def State.setSweeps (s : State) (l : List (Nat × Bool × Bool)) : State := { s with home := { s.home with sweeps := l } }

/-- A dead sweep of a port starts: SWEEP is set and its pending snoops end as dead (R235). `stays` says that the event leaves the
link up; with it down, or an earlier sweep waiting for its return, the bit waits for L0 all the same. -/
def State.sweepStart (s : State) (lp : Nat) (stays : Bool) : State :=
  let keep := stays && s.dllUp lp && !s.home.sweeps.any (fun x => decide (x.1 = lp) && !x.2.2)
  let s := (s.setSweep lp true).setSweeps (s.home.sweeps.filter (fun x => x.1 ≠ lp) ++ [(lp, false, keep)])
  (s.home.snoops.filter (fun x => x.lp = lp)).foldl (fun s p => s.deadSnoop p Fld.homeDeadSwept) s

/-- The poison write of a POISON line that nothing holds open, as a transaction of its own (R235). -/
def State.poisonTxn (s : State) (w : Nat) : State :=
  let d := s.dirAt w
  let key := keyOf (w / 16) d.tag
  let id := s.dp.nextId
  let t : Txn := {
    id := id, e := key.1, n := key.2, msg := none, kind := .poison, coh := true, q := 64, holder := false,
    allocs := false, mv := .invalid, way := some w, done := true, lookEnd := s.tick }
  let s := { s with dp := { s.dp with nextId := id + 1 }, home := { s.home with txns := s.home.txns ++ [t] } }
  let s := (s.setDir w { d with isOpen := true }).poisonWrite t (s.ownCls key.1 0)
  if (s.txn? id).any (fun t => t.before.isEmpty) then s.closeTxn id else s

/-- The poison writes that a sweep left are issued as slots are free and lines close (R235). -/
def State.poisonTick (s : State) : State :=
  s.home.poison.foldl (fun s w =>
    let drop (s : State) := { s with home := { s.home with poison := s.home.poison.filter (fun x => x ≠ w) } }
    if (s.dirAt w).state ≠ 3 then drop s
    else if (s.dirAt w).isOpen || decide (8192 ≤ s.home.txns.length) || decide (s.getF Fld.homeStatHalted = 1) then s
    else (drop s).poisonTxn w) s

/-- A sweep's pass changes one entry of the port: an OWNED line becomes POISON, and its poison write is to be issued; a SHARED line
loses the bit (R235). -/
def State.sweepLine (s : State) (lp : Nat) (x : Nat × DirEnt) : State :=
  let d := x.2
  if !d.sharers.contains lp then s
  else if d.state = 2 then
    let s := (s.setDir x.1 { d with state := 3, sharers := [] }).bump Fld.homeDeadSwept
    { s with home := { s.home with poison := s.home.poison ++ [x.1] } }
  else s.setDir x.1 { d with sharers := d.sharers.filter (fun y => y ≠ lp) }

/-- DEAD_SWEEP_DONE: the pass of a port's dead sweep completes, with the errors that its reads showed (R221); the SWEEP bit clears when the
link need not return (R235). After a fatal fault the directory keeps its content (R237). -/
def execDeadSweepDone (p : SweepPass) (s : State) : Host.Outcome State Fault Refusal :=
  act s (fun s => match s.home.sweeps.find? (fun x => decide (x.1 = p.lp.val) && !x.2.1) with
    | some x =>
      if s.getF Fld.homeStatHalted = 1 then s
      else
        let s := p.ecc.foldl (fun s e => s.dirError e.1.val e.2) s
        let s := (s.home.dir.foldl (fun s e => s.sweepLine p.lp.val e) s).poisonTick
        let rest := s.home.sweeps.filter (fun y => y.1 ≠ p.lp.val)
        if x.2.2 then (s.setSweeps rest).setSweep p.lp.val false
        else s.setSweeps (rest ++ [(p.lp.val, true, false)])
    | none => s)

/-- The link of a port returns: a sweep whose pass has completed ends, and one whose pass runs ends with it (R235). -/
def State.sweepReturn (s : State) (lp : Nat) : State :=
  match s.home.sweeps.find? (fun x => decide (x.1 = lp)) with
  | some x =>
    if x.2.1 then (s.setSweeps (s.home.sweeps.filter (fun y => y.1 ≠ lp))).setSweep lp false
    else s.setSweeps (s.home.sweeps.map (fun y => if y.1 = lp then (lp, false, true) else y))
  | none => s

/-- The coherent function of a port is lost: VALID clears and a dead sweep starts (R215). -/
def State.cfnLoss (s : State) (lp : Nat) : State := (s.setF (Fld.homeCfnValid lp) 0).sweepStart lp true

/-- A write of HOME.CFN (R215, R242). -/
def State.cfnWrite (s : State) (lp : Nat) (v : Word) : State :=
  let fid := fieldGet v 0 12
  if s.portLines lp ≠ 0 ∨ (fieldGet v 12 1 = 1 ∧ !(s.isRole lp 0 && decide (fid / 64 = lp)))
  then s.setF Fld.homeStatCfnRefused 1
  else s.setFs [(Fld.homeCfnFid lp, fid), (Fld.homeCfnValid lp, fieldGet v 12 1)]

/-- CFN_WRITE (R215). -/
def execCfnWrite (lp : Lp) (v : Word) (s : State) : Host.Outcome State Fault Refusal := act s (·.cfnWrite lp.val v)

/-- A write of DIR_IDX reads and shows an entry; its ECC field, and whether the read shows an error, are the device's own (R216, R221,
R242; log 7). -/
def State.dirIdxWrite (s : State) (v : Word) : State :=
  let s := s.setFs [(Fld.homeDirIdxSet, fieldGet v 0 17), (Fld.homeDirIdxWay, fieldGet v 17 4)]
  let d := s.dirAt (16 * fieldGet v 0 17 + fieldGet v 17 4 % 16)
  let map := d.sharers.foldl (fun a x => a + 2 ^ x) 0
  let x := s.draw 9
  let s := x.2.setFs [(Fld.homeDirW0Tag, d.tag), (Fld.homeDirW0State, d.state + 4 * bit d.isOpen),
    (Fld.homeDirW0Retired, bit d.retired), (Fld.homeDirW3Ecc, x.1.toNat)]
  let y := ((s.wr Reg.homeDirW1 (BitVec.ofNat 32 map)).wr Reg.homeDirW2 (BitVec.ofNat 32 (map / 2 ^ 32))).draw 2
  if y.1 = 1 ∨ y.1 = 2 then y.2.dirError (fieldGet v 0 17) (Fin.ofNat 16 (fieldGet v 17 4), decide (y.1 = 2)) else y.2

end Sys2Proof.Machine
end

