-- ==== Sys2Proof/Machine/Map.lean ====
section
/-! DEFINITION. Hedge and map (08, R127 to R132): resolving targets, the rule check, its records and notices, the action record
applied; and the end of tracker entries by their responses or by timeout (R118, R102). -/

namespace Sys2Proof.Machine

/-! ### Rules (R188 to R190) -/

/-- A rule entry's fields (R188). -/
structure Rule where
  index : Nat
  base  : Nat
  space : Nat
  lp    : Nat
  ld    : Nat
  plot  : Nat
  count : Nat
  perm  : Nat
  mld   : Bool
  rsv   : Nat
  valid : Bool
deriving DecidableEq, Repr

/-- Rule entry `i` of a copy (R188). -/
def ruleAt (t : Tbl Word) (i : Nat) : Rule :=
  let w (k : Nat) := Tbl.get (fun _ => 0) t (4 * i + k)
  { index := i
    base := (w 0).toNat + 2 ^ 32 * fieldGet (w 1) 0 8
    space := fieldGet (w 1) 8 2
    lp := fieldGet (w 1) 10 6
    ld := fieldGet (w 1) 16 4
    plot := fieldGet (w 1) 20 12
    count := (w 2).toNat + 2 ^ 32 * fieldGet (w 3) 0 8
    perm := fieldGet (w 3) 8 3
    mld := decide (fieldGet (w 3) 11 1 = 1)
    rsv := fieldGet (w 3) 12 19
    valid := decide (fieldGet (w 3) 31 1 = 1) }

/-- Indexes of the entries of a run that a copy lists, ascending. -/
def ruleIdx (t : Tbl Word) (base cnt : Nat) : List Nat :=
  ((Tbl.within t (4 * base) (4 * cnt)).foldl (fun acc e => match acc with
    | x :: _ => if x = e.1 / 4 then acc else e.1 / 4 :: acc
    | [] => [e.1 / 4]) []).reverse

/-- Valid rules of a run. -/
def rulesIn (t : Tbl Word) (base cnt : Nat) : List Rule :=
  ((ruleIdx t base cnt).map (ruleAt t)).filter (·.valid)

/-- The rule copy of a parity: A for 0, B for 1 (R201). -/
def State.ruleCopy (s : State) (parity : Bool) : Tbl Word := if parity then s.hedge.rulesB else s.hedge.rulesA

/-- A checked place: a space, and in the port spaces a logical port with an LD of an MLD (R187). -/
structure Place where
  space : Nat
  lp    : Nat := 0
  ld    : Option Nat := none
deriving DecidableEq, Repr

/-- The rule names the place (R189). -/
def Rule.names (r : Rule) (p : Place) : Bool :=
  decide (r.space = p.space) &&
  (decide (p.space = 0) || (decide (r.lp = p.lp) && match p.ld with
    | none => !r.mld
    | some d => r.mld && decide (r.ld = d)))

/-- The plot's rules in the copies fixed for a message (R189). -/
def State.plotRules (s : State) (c : Cls) : List Rule :=
  let t := s.regsAt c.epoch
  (rulesIn (s.ruleCopy c.parity) (fieldAt t (Fld.plotPlotW2HedgeBase c.plot)) (fieldAt t (Fld.plotPlotW3HedgeCnt c.plot))).filter
    (fun r => r.plot = c.plot)

/-- Permission a request needs, as R 1, W 2, A 4 (R190). -/
def permOf (o : Opn) : Nat :=
  match o with
  | .memWr | .memWrPtl | .biConflict | .ioMemWr | .ioWr | .ioMsg => 2
  | .fetchAdd _ | .swap _ | .cas _ => 4
  | _ => 1

/-- The check of one part at an address: allowed by a rule, allowed by the default map of plot 0, or denied (R189, R190,
R193). `served` says that the default map serves the access. -/
def State.checkPart (s : State) (c : Cls) (served : Bool) (p : Place) (addr need : Nat) (msg : Bool) : Option Bool :=
  let hit := (s.plotRules c).find? (fun r =>
    if msg then decide (r.space = 1 ∧ r.perm / 2 % 2 = 1) && r.names { p with space := 1 } && decide (p.space ≠ 0)
    else r.names p && decide (addr < 2 ^ 52 ∧ r.base ≤ addr / 4096 ∧ addr / 4096 < r.base + r.count))
  match hit with
  | some r => if r.perm &&& (if msg then 2 else need) ≠ 0 then some false else none
  | none =>
    if c.plot = 0 ∧ served = true then
      if p.space ≠ 0 ∨ (poolOf (s.regsAt c.epoch) addr).isSome then some true else none
    else none

/-! ### Targets (R90, R128, R161, R187, R191) -/

/-- Parts of an access at 4 KiB page boundaries of its address: (offset, length) (R191). The first argument bounds them. -/
def partsOf : Nat → Nat → Nat → Nat → List (Nat × Nat)
  | 0, _, _, _ => []
  | k + 1, addr, off, len =>
    let n := min len (4096 - (addr + off) % 4096)
    if len = 0 then [] else (off, n) :: partsOf k addr (off + n) (len - n)

/-- Parts of an access of `len` bytes, one at least; a CXL.mem access is always one (R191). -/
def accessParts (o : Opn) (addr len : Nat) : List (Nat × Nat) :=
  if o.isMem then [(0, max 1 len)] else partsOf (len / 4096 + 2) addr 0 (max 1 len)

/-- A target resolved and checked: its place, checked address, route, and its parts with what the check gave each. -/
structure Resolved where
  place : Place
  addr  : Nat
  route : Route
  parts : List ((Nat × Nat) × Option Bool)
deriving DecidableEq, Repr

/-- Every part denied: no matching rule (R90, R192). -/
def denyAll (o : Opn) (place : Place) (addr len : Nat) (r : Route) : Resolved :=
  ⟨place, addr, r, (accessParts o addr len).map (fun p => (p, none))⟩

/-- An extent entry at an offset, resolved (R83, R90, R161) and checked. -/
def State.resolvePool (s : State) (m : Msg) (i off : Nat) : Resolved :=
  let t := s.regsAt m.cls.epoch
  let addr := fieldAt t (Fld.extentXtW0Pxb i) * 2 ^ 28 + off
  let len := m.hdr.size
  let tenant := decide (m.cls.plot ≠ 0)
  let bad := decide (fieldAt t (Fld.extentXtW0Valid i) = 0) ||
    (tenant && decide (fieldAt t (Fld.extentXtW1Plot i) ≠ m.cls.plot ∨ fieldAt t (Fld.extentXtW1State i) = 2))
  match memberOf t (fieldAt t (Fld.extentXtW0Pool i)) addr with
  | none => denyAll m.hdr.op ⟨0, 0, none⟩ addr len { lp := 64 }
  | some d =>
    let r : Route := { lp := d.1, ld := d.2.1, addr := d.2.2, pool := some addr, key := some (i, off / 64),
                       coh := decide (fieldAt t (Fld.extentXtW0Coh i) = 1) }
    if bad then denyAll m.hdr.op ⟨0, 0, none⟩ addr len r
    else ⟨⟨0, 0, none⟩, addr, r, (accessParts m.hdr.op addr len).map (fun p =>
      (p, if xszAt t i ≤ off + p.1 then none
          else s.checkPart m.cls true ⟨0, 0, none⟩ (addr + p.1) (permOf m.hdr.op) (decide (m.hdr.op = .ioMsg))))⟩

/-- A logical port or LD, checked in its port space at the address the message carries (R187). -/
def State.resolvePort (s : State) (m : Msg) (lp : Nat) (ld : Option Nat) : Resolved :=
  let place : Place := ⟨if m.hdr.op.cls = 6 then 2 else 1, lp, ld⟩
  let msg := decide (m.hdr.op = .ioMsg)
  ⟨place, m.hdr.addr, { lp := lp, ld := ld, addr := m.hdr.addr },
   (if msg then [(0, 1)] else accessParts m.hdr.op m.hdr.addr m.hdr.size).map (fun p =>
     (p, s.checkPart m.cls true place (m.hdr.addr + p.1) (permOf m.hdr.op) msg))⟩

/-- A target of the action record, resolved; none when it is no target (R128, R161). -/
def State.resolve (s : State) (m : Msg) (t : Target) : Option Resolved :=
  match t with
  | .pool i off => some (s.resolvePool m i off)
  | .port d =>
    if d < 64 then some (s.resolvePort m d none)
    else if d < 96 then
      (bindingOf (s.regsAt m.cls.epoch) (m.cls.fid - 0x1000) (d - 64)).map (fun b => s.resolvePort m b.1 b.2)
    else none

/-- An access that no target resolves: it is handled as one with no matching rule (R85, R129, R137). -/
def noTarget (m : Msg) : Resolved :=
  denyAll m.hdr.op ⟨if m.hdr.op.isMem then 0 else if m.hdr.op.cls = 6 then 2 else 1, 0, none⟩ m.hdr.addr m.hdr.size { lp := 64 }

/-- Denied parts. -/
def Resolved.denied (r : Resolved) : List (Nat × Nat) := (r.parts.filter (fun p => p.2.isNone)).map (·.1)

/-- Allowed parts. -/
def Resolved.allowed (r : Resolved) : List (Nat × Nat) := (r.parts.filter (fun p => p.2.isSome)).map (·.1)

/-! ### Records, notices, counts (R193, R196 to R198) -/

/-- A denied access whose row of R192 is precise. -/
def preciseOp (o : Opn) : Bool := decide (o.cls = 1 ∨ o.cls = 3 ∨ o.cls = 5 ∨ o.cls = 6)

/-- A denied part is a read (R198). -/
def readPartOp (o : Opn) : Bool := decide (o.cls = 1 ∨ o.cls = 3) || decide (o = .ioRd)

/-- An imprecise denial opens or updates its ingress port's notice (R197). -/
def State.notice (s : State) (lp plot : Nat) (addr space n tag : Nat) : State :=
  let opened := decide (s.getF (Fld.hedgeNoticeOpen lp) = 0)
  let d : Denial := ⟨lp, plot, addr, space, n, tag, opened⟩
  let s := { s with hedge := { s.hedge with denials := s.hedge.denials ++ [d] } }
  if opened then
    let s := s.setFs [(Fld.hedgeNoticeOpen lp, 1), (Fld.hedgeNoticeMulti lp, 0), (Fld.hedgeNoticePlot lp, plot),
      (Fld.hedgeNoticeSpace lp, space), (Fd.whole (Reg.hedgeNoticeAddrLo lp), addr),
      (Fld.hedgeNoticeAddrHiFirstAddrHi lp, addr / 2 ^ 32), (Fd.whole (Reg.hedgeNoticeCount lp), n),
      (mapBit Reg.hedgeNoticeOpenLo Reg.hedgeNoticeOpenHi lp, 1)]
    s.raise { src := 0x05, tick := s.tick, lp := some lp, plot := some plot, addr := some (addr, space), tag := tag }
  else
    let s := if s.getF (Fld.hedgeNoticePlot lp) ≠ plot then s.setF (Fld.hedgeNoticeMulti lp) 1 else s
    s.addSat (Fd.whole (Reg.hedgeNoticeCount lp)) n

/-- Denials are reported (R192, R196, R197), those of plot 0 as R193 has it too, and a tenant's, or one of a message that matched no decoder,
counted (R198; log 82). -/
def State.reportDenied (s : State) (m : Msg) (r : Resolved) : State :=
  match r.denied with
  | [] => s
  | p :: ps =>
    let n := ps.length + 1
    let s := s.when (decide (m.cls.plot ≠ 0 ∨ m.cls.path = .noDecoder)) (fun s =>
      let s := s.addSat (Fd.whole (Reg.hedgePlotDeny m.cls.plot)) n
      if readPartOp m.hdr.op then s.add64 Reg.hedgeRdDenyLo Reg.hedgeRdDenyHi n
      else s.add64 Reg.hedgeWrDenyLo Reg.hedgeWrDenyHi n)
    if preciseOp m.hdr.op then
      s.raise { src := 0x04, tick := s.tick, lp := some m.inLp, plot := some m.cls.plot, fn := some (m.cls.fid, m.cls.gen),
                addr := some (r.addr + p.1, r.place.space), tag := m.ctx.act.mark, d0 := (permOf m.hdr.op), d1 := n }
    else s.notice m.inLp m.cls.plot (r.addr + p.1) r.place.space n m.ctx.act.mark

/-- Parts that the default map allowed are counted (R193). -/
def State.countDefault (s : State) (r : Resolved) : State :=
  match (r.parts.filter (fun p => decide (p.2 = some true))).length with
  | 0 => s
  | n + 1 => s.add64 Reg.hedgeDefaultLo Reg.hedgeDefaultHi (n + 1)

/-! ### Application (R129 to R132, R192, R194, R195) -/

/-- A request that is not forwarded ends as its program or a full trap queue had it (R129, R132): a CXL.mem read with poison,
a CXL.mem write with Cmp, a CXL.io request with Unsupported Request. -/
def State.replyDropped (s : State) (m : Msg) : State :=
  if m.req.op.isMem then s.replyPoison m.cls m.req .sc else s.reply m.cls m.req [] false .ur 0 none

/-- The outcome for the requester of an access of which nothing is performed (R192). -/
def State.replyDenied (s : State) (m : Msg) : State := s.replyPoison m.cls m.req .ur

/-- What is left of an access to perform: the message with its allowed bytes and its route; none when nothing is (R192). -/
def forwardable (m : Msg) (r : Resolved) : Option (Msg × Route) :=
  match r.allowed with
  | [] => none
  | p :: ps =>
    if r.denied.isEmpty then some (m, r.route)
    else if m.hdr.op.isWrite then
      let len := (ps.foldl (fun a q => a + q.2) p.2)
      some ({ m with hdr := { m.hdr with data := bytesAt m.hdr.data p.1 len, size := len } },
            { r.route with addr := r.route.addr + p.1, pool := r.route.pool.map (· + p.1) })
    else if m.hdr.op.isRead then
      some ({ m with hdr := { m.hdr with size := ps.foldl (fun a q => a + q.2) p.2 } },
            { r.route with addr := r.route.addr + p.1, pool := r.route.pool.map (· + p.1), denied := r.denied })
    else none

/-- A read meets a suspect page in an allowed part (R75, R194). -/
def State.meetsSuspect (s : State) (m : Msg) (r : Resolved) : Bool :=
  m.hdr.op.isRead && match r.route.pool with
    | some a => r.allowed.any (fun p => s.isSuspect r.route.lp ((a + p.1) / 4096))
    | none => s.portSuspect r.route.lp

/-- The message passes the home (R90, R163, R168, R209, R239). -/
def homeRouted (m : Msg) (r : Route) : Bool :=
  r.key.isSome && (r.coh || m.ctx.act.home || m.hdr.op.isAtomic)

/-- One issue goes on: to the home, or to its target (R129, R209). -/
def State.sendOn (s : State) (m : Msg) (r : Route) (homed : Bool) : State :=
  let s := if m.hdr.op.isAtomic && r.key.isNone then s.bump Fld.homeAtomFwd else s
  if homed then
    s.modMsg m.id (fun _ => { m with stage := .home, route := some r, since := s.tick })
  else (s.modMsg m.id (fun _ => { m with route := some r })).issue m r 0

/-- A write issued twice: the second issue is a message of its own with the first's stamp; through the home it waits for the first
(R26, R131, R210). -/
def State.sendTwice (s : State) (a b : Msg × Route) (homed : Bool) : State :=
  let g := s.dp.nextId
  let s := { s with dp := { s.dp with nextId := g + 1, legs := if a.1.req.answered then s.dp.legs ++ [(g, 2)] else s.dp.legs } }
  let i := s.dp.nextId
  let m2 : Msg := { b.1 with id := i, origin := .second, cells := 0, first := some a.1.id, route := some { b.2 with group := some g } }
  let r1 : Route := { a.2 with group := some g }
  let s := s.addMsg (fun _ => { m2 with stage := .txn })
  if homed then s.sendOn a.1 r1 true
  else (s.sendOn a.1 r1 false).sendOn { m2 with stage := .map } { b.2 with group := some g } false

/-- The route of a second issue: on the key of the primary's line when that passes the home (R210). -/
def mateRoute (first b : Route) (homed : Bool) : Route := if homed then { b with key := first.key, coh := first.coh } else b

/-- An access with its primary target and perhaps a second: the hedge check, its reports, and what is performed (R187, R192,
R194, R195). Whether it passes the home is the primary's (R163, R209). -/
def State.access (s : State) (m : Msg) (first : Resolved) (second : Option Resolved) : State :=
  let homed := homeRouted m first.route
  let s := (s.countDefault first).reportDenied m first
  let s := match second with
    | some r => (s.countDefault r).reportDenied m r
    | none => s
  if s.meetsSuspect m first then (s.replyPoison m.cls m.req .ur).delMsg m.id
  else match forwardable m first, second.bind (forwardable m) with
    | some a, some b => s.sendTwice a (b.1, mateRoute first.route b.2 homed) homed
    | some a, none => s.sendOn a.1 a.2 homed
    | none, some b => s.sendOn b.1 (mateRoute first.route b.2 homed) homed
    | none, none => (s.replyDenied m).delMsg m.id

/-- The two targets name the same extent entry or logical port (R130). -/
def sameTarget (x y : Target) (a b : Resolved) : Bool :=
  match x, y with
  | .pool i _, .pool j _ => decide (i = j)
  | .port _, .port _ => decide (a.route.lp = b.route.lp)
  | _, _ => false

/-- Conflicts of the record with fixed hardware are counted (R130). -/
def State.countExc (s : State) (m : Msg) (prim : Option Resolved) (twinBad : Bool) : State :=
  let a := m.ctx.act
  let n := m.engine
  let s := match a.key with
    | some k => if k ≠ decide (m.cls.plot ≠ 0) then s.bump (Fld.coulterExcKey n) else s
    | none => s
  let s := if twinBad then s.bump (Fld.coulterExcTwin n) else s
  match a.atomMem with
  | none => s
  | some mem =>
    if !m.hdr.op.isAtomic then s.bump (Fld.coulterExcAtom n)
    else if mem && (prim.bind (fun r => r.route.key)).isSome then s.bump (Fld.coulterExcAtom n)
    else s

/-- The action record applied to a message that ran a program (R129 to R132, R162). Under POISON a write goes on with its data poisoned, and one
without a primary target, or that the hedge denies, is reported as any access is; a read completes with poison; any other request
completes as one that is not performed (DESIGN CHOICE, log 45). -/
def State.applyRecord (s : State) (m : Msg) : State :=
  let a := m.ctx.act
  let prim := a.tgt.bind (fun t => s.resolve m t)
  let sec := a.twin.bind (fun t => s.resolve m t)
  let dup := match a.tgt, a.twin, prim, sec with | some t, some u, some x, some y => sameTarget t u x y | _, _, _, _ => false
  let keep := m.hdr.op.twins && prim.isSome && !dup
  let s := s.countExc m prim (a.twin.isSome && !keep)
  let sec := if keep then sec else none
  match a.disp with
  | .none => s.access m (prim.getD (noTarget m)) sec
  | .drop => ((s.bump (Fld.coulterDispDrop m.engine)).replyDropped m).delMsg m.id
  | .psn =>
    let s := s.bump (Fld.coulterDispPsn m.engine)
    if m.hdr.op.twins || decide (m.hdr.op = .ioMsg ∨ m.hdr.op = .ioWr) then
      s.access { m with hdr := { m.hdr with poison := true } } (prim.getD (noTarget m)) sec
    else if m.hdr.op = .ioRd then
      let x := s.freeBytes m.req.size
      (x.2.reply m.cls m.req x.1 true .sc 0 none).delMsg m.id
    else (s.replyPoison m.cls m.req .ur).delMsg m.id
  | .trap reason =>
    if s.dp.trapQ.length < 1024 then
      let s := { s with dp := { s.dp with trapQ := s.dp.trapQ ++ [(reason, m)] } }
      (s.delMsg m.id).pendAll 17
    else ((s.bump (Fld.coulterDispTrapOvf m.engine)).replyDropped m).delMsg m.id

/-- A message leaves the engine for hedge and map (R22, R117, R129, R137): a response enters the buffer; steward and
configuration traffic leaves the datapath; a request is checked and goes on. -/
def State.hedgeMap (s : State) (m : Msg) : State :=
  match m.cls.path with
  | .response => if m.route.isSome then s.modMsg m.id (fun x => { x with stage := .bid, firstBid := s.tick + 1 }) else s
  | .steward | .config => s.delMsg m.id
  | .homePath => s
  | .noDecoder => s.access m (noTarget m) none
  | .program => if m.cls.slot.isNone then s.access m (noTarget m) none else s.applyRecord m

/-! ### Responses and the end of tracker entries (R98, R99, R102, R118) -/

/-- A completion brings only a part of what its CXL.io read asked for: more will follow (R39). -/
def Tracker.partial (t : Tracker) (h : Hdr) : Bool :=
  decide (t.use = .request ∧ t.req.op = .ioMemRd ∧ h.status = .sc ∧ 0 < h.data.length ∧ t.got + h.data.length < t.want)

/-- A tracker entry counts what a completion brought. -/
def State.gotMore (s : State) (t : Tracker) (n : Nat) : State :=
  { s with dp := { s.dp with trackers := s.dp.trackers.map (fun x => if x.id = t.id then { x with got := x.got + n } else x) } }

/-- A response goes on to the requester: with the requester's tag and port (R118), what exceeds the largest payload in completions that
follow (R39, R244). -/
def State.deliver (s : State) (m : Msg) (t : Tracker) (a : Answer) : State :=
  let s := s.modMsg m.id (fun y => { y with
    hdr := { m.hdr with tag := t.req.tag, data := a.data.take 512, poison := a.poison, status := a.status, grant := t.grant },
    req := t.req,
    cls := { t.cls with path := .response },
    route := some { lp := t.cls.lp, rank := 2, key := t.key } })
  if a.data.length ≤ 512 then s else s.replyData t.cls t.req (a.data.drop 512) a.poison t.grant t.key

/-- A response in stage 1: it matches its entry and is gleaned, taken, or sent on; one without an entry is late. -/
def State.responseStage1 (s : State) (m : Msg) : State :=
  match s.dp.trackers.find? (fun t => decide (t.lp = m.cls.lp ∧ t.tag = m.hdr.tag)) with
  | none =>
    let late := s.dp.lateTags.erase (m.cls.lp, m.hdr.tag)
    ({ s with dp := { s.dp with lateTags := late } }.bump (Fd.whole Reg.plotLate)).delMsg m.id
  | some t =>
    let old := !s.current t.cls && decide (t.use = .request)
    let s := if old then s.glean t.cls else s
    if t.partial m.hdr && !old then
      (s.gotMore t m.hdr.data.length).deliver m t ⟨s.readData t m.hdr.data m.hdr.poison, m.hdr.poison, m.hdr.status⟩
    else
      let x := s.finishTracker t ⟨m.hdr.data, m.hdr.poison, m.hdr.status⟩
      match x.2, old with
      | some a, false => x.1.deliver m t a
      | _, _ => x.1.delMsg m.id

/-- RESPONSE_STAGE1 (R118). -/
def execResponseStage1 (m : Nat) (s : State) : Host.Outcome State Fault Refusal :=
  act s (fun s => match s.msg? m with
    | some x =>
      if x.cls.path = .response ∧ x.route = none ∧ (x.stage = .engine ∨ x.stage = .map) then s.responseStage1 x else s
    | none => s)

/-- A request whose entry ends without its response: reads complete with poison, CXL.mem writes complete and mark their pages,
other requests complete with the status given (R74, R102); a message still waiting for a grant is taken away, a granted one traverses
(R250). -/
def State.endTracker (s : State) (t : Tracker) (st : CplStatus) : State :=
  let waits (m : Msg) : Bool := !m.onItsWay && decide ((m.route.bind (·.tracker)) = some t.id)
  let s := { s with dp := { s.dp with msgs := s.dp.msgs.filter (fun m => !waits m) } }
  let s := if t.req.op.isMemWr then s.markPages t.lp t.pool t.req.data.length else s
  let x := s.freeBytes (t.want - t.got)
  let status := match t.use with
    | .atomWr _ _ => .ca
    | _ => if t.req.op.isMem || t.req.op.isRead then .sc else st
  let y := x.2.finishTracker t ⟨if t.req.op.isRead then x.1 else [], t.req.op.isRead, status⟩
  match y.2 with
  | some a => if t.req.op.isRead then y.1.replyData t.cls t.req a.data a.poison t.grant t.key
              else y.1.reply t.cls t.req a.data a.poison a.status t.grant t.key
  | none => y.1

/-- The tag of an entry that ends at the timeout stays out of use: a response that bears it matches no entry (R102). -/
def State.tagLate (s : State) (t : Tracker) : State :=
  if t.sent || s.trackerOnWay t then { s with dp := { s.dp with lateTags := s.dp.lateTags ++ [(t.lp, t.tag)] } } else s

/-- TRACKER_TIMEOUT: an entry still live at the timeout is released: recorded where its generation is current, counted as gleaned where it
is old (R102). A read or write that the device makes itself for the request goes on to its end. -/
def execTrackerTimeout (id : Nat) (s : State) : Host.Outcome State Fault Refusal :=
  act s (fun s => match s.tracker? id with
    | none => s
    | some t =>
      if !s.aonPast t.start (250000 * max 1 (min 50 (s.getF Fld.plotTrkTmoMs))) then s else
      let s := s.tagLate t
      if s.current t.cls then
        let s := s.raise { src := 0x03, tick := s.tick, fn := some (t.cls.fid, t.cls.gen), tag := t.mark,
                           d0 := max 1 (min 50 (s.getF Fld.plotTrkTmoMs)) }
        s.endTracker t .ca
      else if t.use = .request then
        ((s.glean t.cls).finishTracker t ⟨[], true, .sc⟩).1
      else (s.glean t.cls).endTracker t .ca)

end Sys2Proof.Machine
end

