-- ==== Sys2Proof/Machine/Harrow.lean ====
section
/-! DEFINITION. The harrow (10): its channels, the line moves they issue and complete, and how they end. -/

namespace Sys2Proof.Machine

/-- Lines per furlong of a channel: 0 counts as 1 (R269). -/
def State.harRate (s : State) (c : Nat) : Nat := max 1 (s.getF (Fld.harrowRateLines c))

/-- Burst length of a channel: 0 counts as 1, above 16 as 16 (R269). -/
def State.harBurst (s : State) (c : Nat) : Nat := min 16 (max 1 (s.getF (Fld.harrowCtlBurst c)))

/-- One more line move of this tick (R258). -/
def State.countIssue (s : State) : State := { s with xb := { s.xb with issued := s.xb.issued + 1 } }

/-- Channel state field. -/
def State.harState (s : State) (c : Nat) : Nat := s.getF (Fld.harrowStatState c)

/-- GLOBAL.RATE_SUM taken again over the running channels (R269). -/
def State.rateSum (s : State) : State :=
  s.setF Fld.harrowGlobalRateSum (((List.range 4).filter (fun c => s.harState c = 1)).map s.harRate).sum

/-- A channel's state set. -/
def State.setHarState (s : State) (c v : Nat) : State := (s.setF (Fld.harrowStatState c) v).rateSum

/-- Lines of an extent entry in force. -/
def State.extentLines (s : State) (e : Nat) : Nat := s.xsz e / 64

/-! ### GO and STOP (R258 to R260, R265) -/

/-- The entry of a channel's operation is in the state the operation needs (R260, R261). -/
def State.harEntryOk (s : State) (op src dst : Nat) : Bool :=
  let v := decide (s.getF (Fld.extentXtW0Valid src) = 1)
  let st := s.getF (Fld.extentXtW1State src)
  if op = 0 then v && decide (st = 1 ∧ s.getF (Fld.extentXtW1Alt src) = dst)
  else if op = 1 then v && decide (st = 2)
  else v

/-- The refusal of a GO: none, or its ERR code; a channel that is busy has none of its own (R260, R269). -/
def State.harRefusal (s : State) (c : Nat) : Option Nat :=
  let op := s.getF (Fld.harrowCtlOp c)
  let src := s.getF (Fld.harrowSrcEntry c)
  let dst := s.getF (Fld.harrowDstEntry c)
  let start := s.getF (Fld.harrowStartLine c)
  let cnt := s.getF (Fld.harrowCountLines c)
  let lines := s.extentLines src
  if s.harState c = 1 ∨ s.harState c = 2 then some (s.getF (Fld.harrowStatErr c))
  else if op = 3 then some 7
  else if !s.harEntryOk op src dst then some 1
  else if op = 0 ∧ s.xsz src ≠ s.xsz dst then some 3
  else if lines ≤ start ∨ lines < start + cnt then some 2
  else if 1024 < s.harRate c + (((List.range 4).filter (fun k => k ≠ c ∧ s.harState k = 1)).map s.harRate).sum then some 8
  else none

/-- A channel ends in ERROR. -/
def State.harErr (s : State) (c code : Nat) : State :=
  let s := (s.setF (Fld.harrowStatErr c) code).setHarState c 5
  if code = 4 then s.raise { src := 0x09, tick := s.tick, d0 := c, d1 := code } else s

/-- A write of CTL.GO (R260). Lines of an earlier `GO` that are still moving count no more; after a fatal fault the channel goes to ERROR
again at once, since it issues nothing more (R266; DEDUCED, log 55). -/
def State.harrowGo (s : State) (c : Nat) : State :=
  match s.harRefusal c with
  | some e => s.setFs [(Fld.harrowStatRefused c, 1), (Fld.harrowStatErr c, e)]
  | none =>
    let s := if s.getF (Fld.harrowCtlResume c) = 1 then s else s.setF (Fld.harrowProgressLines c) 0
    let start := s.getF (Fld.harrowStartLine c)
    let cnt := s.getF (Fld.harrowCountLines c)
    let src := s.getF (Fld.harrowSrcEntry c)
    let first := start + s.getF (Fld.harrowProgressLines c)
    let last := if cnt = 0 then s.extentLines src else start + cnt
    let s := (s.modHar c (fun h => { h with
      op := s.getF (Fld.harrowCtlOp c), src := src, dst := s.getF (Fld.harrowDstEntry c), budget := s.harRate c - h.spent,
      next := first, last := last, seen := false, moves := h.moves.map (fun v => { v with counts := false }) })).setF
      (Fld.harrowStatErr c) 0
    if s.getF Fld.faultStatFatal = 1 then s.harErr c 5 else s.setHarState c (if last ≤ first then 3 else 1)

/-- HARROW_GO (R260). -/
def execHarrowGo (c : Chan) (s : State) : Host.Outcome State Fault Refusal := act s (·.harrowGo c.val)

/-- A write of CTL.STOP: a running channel issues no more (R265). -/
def State.harrowStop (s : State) (c : Nat) : State :=
  if s.harState c = 1 then s.setHarState c (if (s.har c).moves.any (·.counts) then 2 else 4) else s

/-- HARROW_STOP (R265). -/
def execHarrowStop (c : Chan) (s : State) : Host.Outcome State Fault Refusal := act s (·.harrowStop c.val)

/-- A write of CTL: RESUME, OP, LOCKED and BURST take the value, then GO or STOP acts (R269). -/
def State.harrowCtlWrite (s : State) (c : Nat) (v : Word) : State :=
  let s := s.setF ⟨Reg.harrowCtl c, 2, 9⟩ (fieldGet v 2 9)
  let s := if fieldGet v 1 1 = 1 then s.harrowStop c else s
  if fieldGet v 0 1 = 1 then s.harrowGo c else s

/-! ### Issue (R258, R261, R262) -/

/-- A line counted as read poisoned; the first since GO is recorded (R259, R263). -/
def State.harPoison (s : State) (c line : Nat) : State :=
  let s := s.bump (Fld.harrowPoisonCount c)
  if (s.har c).seen then s
  else (s.setF (Fld.harrowFirstPoisonLine c) line).modHar c (fun h => { h with seen := true })

/-- The classification of a harrow move whose lines come from a port: plot 0, the copies in force (R201, R261, R262). -/
def State.harCls (s : State) (lp : Nat) : Cls :=
  ⟨lp, .homePath, 0x1FFF, 0, 0, 0, 0, none, decide (s.getF Fld.hedgeCommitStatInforce = 1), s.dp.epoch⟩

/-- A line of an extent entry in force, as a target: at rank 0, on its key at the home; toward no port where no member holds it. -/
def State.lineAt (s : State) (e n : Nat) : Route :=
  let pool := fieldAt s.regs (Fld.extentXtW0Pxb e) * 2 ^ 28 + 64 * n
  let r : Route := { lp := 64, rank := 0, pool := some pool, key := some (e, n), coh := decide (s.getF (Fld.extentXtW0Coh e) = 1) }
  match memberOf s.regs (fieldAt s.regs (Fld.extentXtW0Pool e)) pool with
  | some d => { r with lp := d.1, ld := d.2.1, addr := d.2.2 }
  | none => r

/-- The hedge check of one access of a move, as a message of plot 0: counted where the default map allows it (R193, R262). -/
def State.harCheck (s : State) (r : Route) (need : Nat) : State × Bool :=
  let res := if r.lp = 64 then none else s.checkPart (s.harCls r.lp) true ⟨0, 0, none⟩ (r.pool.getD 0) need false
  (s.when (decide (res = some true)) (·.add64 Reg.hedgeDefaultLo Reg.hedgeDefaultHi 1), res.isSome)

/-- A denied read of a move has its record (R192, R193, R196): it has no ingress port and no function. -/
def State.harDenied (s : State) (r : Route) : State :=
  s.raise { src := 0x04, tick := s.tick, plot := some 0, addr := some (r.pool.getD 0, 0), d0 := 1, d1 := 1 }

/-- A move starts: its read, or its ZERO write, as a message, through the home always for COPY, and on a COH entry for ZERO (as WR) and SCRUB
(as RD_NA) (R209, R262). A denied read is one that returns poison; a denied write is dropped, so that the line is only read, or, for
ZERO, that nothing of it is done (R192). -/
def State.harStart (s : State) (c n : Nat) (a b : Route) (rdOk wrOk : Bool) : State :=
  let h := s.har c
  let id := s.dp.nextId
  let s := { s with dp := { s.dp with nextId := id + 1 } }
  let zero := decide (h.op = 1)
  let from_ := if zero || decide (a.lp = 64) then b else a
  let v : HMove := {
    id := id, line := n
    plot := if h.op = 2 then 0 else s.getF (Fld.extentXtW1Plot h.src)
    dplot := s.getF (Fld.extentXtW1Plot (if h.op = 0 then h.dst else h.src))
    cls := s.harCls from_.lp, inLp := from_.lp
    out := if h.op = 2 ∨ wrOk = false then none else some b }
  let s := s.modHar c (fun h => { h with moves := h.moves ++ [v] })
  if zero && !wrOk then s.moveEnd c id
  else
    let hdr := if zero then memHdr .memWr b.addr 0 64 (List.replicate 64 0) false else memHdr .memRd a.addr 0 64 [] false
    let r : Route := { a with move := some (c, id), denied := if zero || rdOk then [] else [(0, 64)] }
    let homed := decide (h.op = 0) || a.coh
    let m (i : Nat) : Msg := {
      id := i, stage := if homed then .home else .map, origin := .harrow, stamp := s.tick, engine := xbarPort from_.lp,
      hdr := hdr, req := hdr, cls := v.cls, route := some r, inLp := from_.lp, cells := if zero then 0 else 1, since := s.tick }
    let i := s.dp.nextId
    let s := s.addMsg m
    if homed then s else s.issue (m i) r 0

/-- The next line of a channel is issued, or the channel finds its entry in another state or a member's link down (R261, R266). -/
def State.harIssue (s : State) (c : Nat) : State :=
  let h := s.har c
  let n := h.next
  let a := s.lineAt h.src n
  let b := s.lineAt (if h.op = 0 then h.dst else h.src) n
  if !s.harEntryOk h.op h.src h.dst then s.harErr c 6
  else if (a.lp ≠ 64 ∧ s.dllUp a.lp = false) ∨ (b.lp ≠ 64 ∧ s.dllUp b.lp = false) then s.harErr c 4
  else
    let s := (s.modHar c (fun h => { h with next := n + 1, spent := h.spent + 1, budget := h.budget - 1 })).countIssue
    let x := if h.op = 1 then (s, true) else s.harCheck a 1
    let s := if x.2 then x.1 else x.1.harDenied a
    let y := if h.op = 2 then (s, true) else s.harCheck b 2
    y.1.harStart c n a b x.2 y.2

/-- A channel that may issue: running, with budget and lines left, and reserve cells free for a read and its data (R255, R258). -/
def State.harWants (s : State) (c : Nat) : Bool :=
  decide (s.harState c = 1) && decide (0 < (s.har c).budget) && decide ((s.har c).next < (s.har c).last) &&
  decide (s.harCells + 3 ≤ 1024)

/-- One of the tick's four line moves goes to the first channel from the pointer that wants it; the pointer moves past a winner over
another (R249, R258). -/
def State.harOne (s : State) : State :=
  if 4 ≤ s.xb.issued ∨ s.getF Fld.faultStatFatal = 1 then s
  else
    let p := s.getF Fld.harrowGlobalPtr
    match ((List.range 4).map (fun i => (p + i) % 4)).filter s.harWants with
    | [] => s
    | c :: rest =>
      let t := s.harIssue c
      if rest.isEmpty || decide (t.xb.issued = s.xb.issued) then t else t.setF Fld.harrowGlobalPtr ((c + 1) % 4)

/-- HARROW_MOVE_ISSUE: the line moves of this tick (R258, R261); a channel that goes to ERROR takes none. -/
def execHarrowMoveIssue (s : State) : Host.Outcome State Fault Refusal :=
  act s (fun s => ((List.range 8).foldl (fun s _ => s.harOne) s))

/-! ### Bursts (R264) -/

/-- The lines of a channel's next burst: in order of issue, of one source and one destination port, and all gathered; a whole burst, or what
is left when no further line can join it (R264, R265; log 55). -/
def State.nextBurst (s : State) (c : Nat) : List HMove :=
  let h := s.har c
  let l := h.moves.filter (fun v => !v.taken && !v.done && v.out.isSome)
  match l with
  | [] => []
  | v :: _ =>
    let b := (l.takeWhile (fun x => decide (x.inLp = v.inLp ∧ x.out.map (·.lp) = v.out.map (·.lp)))).take (s.harBurst c)
    let more := decide (b.length < s.harBurst c ∧ b.length = l.length ∧ s.harState c = 1 ∧ h.next < h.last)
    if more || b.any (fun x => x.data.isNone) then [] else b

/-- The write of a gathered line: encrypted with the key of the plot that its entry names, poison staying poison (R262, R263); toward a link
that is down it ends (R74). -/
def State.moveWrite (s : State) (c : Nat) (v : HMove) : State :=
  match v.out, v.data with
  | some r, some d =>
    let s := s.modMove c v.id (fun x => { x with taken := true })
    if !s.dllUp r.lp then (((s.markPages r.lp r.pool 64).dropCount r.lp false).moveEnd c v.id)
    else
      let hdr := memHdr .memWr r.addr 0 64 (if d.2 then d.1 else s.cipher v.dplot false r.pool d.1) d.2
      let x := s.track (fun id tag => {
        id := id, lp := r.lp, tag := tag, cls := v.cls, req := hdr, use := .harWr c v.id, pool := r.pool, start := s.tick }) r.lp
      let i := x.1.dp.nextId
      let s := x.1.addMsg (fun i => {
        id := i, stage := .bid, origin := .harrow, stamp := s.tick, engine := xbarPort v.inLp, hdr := { hdr with tag := x.2.2 },
        req := hdr, cls := v.cls, route := some { r with tracker := some x.2.1, move := some (c, v.id) }, inLp := v.inLp,
        cells := 2, firstBid := s.tick + 1 })
      s.modHar c (fun h => { h with burst := h.burst ++ [i], lines := h.lines ++ [i] })
  | _, _ => s

/-- A channel without a running burst starts its next one, locked as CTL has it now (R246, R264). -/
def State.harGather (s : State) (c : Nat) : State :=
  if !(s.har c).burst.isEmpty then s
  else match s.nextBurst c with
    | [] => s
    | l =>
      let lock := decide (s.getF (Fld.harrowCtlLocked c) = 1)
      l.foldl (fun s v => s.moveWrite c v) (s.modHar c (fun h => { h with lines := [], started := false, locked := lock }))

/-- The place of a write message in its channel's running burst. -/
def State.burstPlace (s : State) (m : Msg) : Option (HarrowCh × Nat) :=
  (m.route.bind (·.move)).bind (fun x =>
    let h := s.har x.1
    if m.hdr.op.isMemWr then (h.burst.idxOf? m.id).map (fun k => (h, k)) else none)

/-- A locked burst's first tick has traversed, and lines of it are left: it completes whatever happens (R246, R251). -/
def State.lockedGoing (s : State) (c : Nat) : Bool :=
  let h := s.har c
  h.locked && h.lines.any (fun i => match s.msg? i with
    | some m => decide (m.stage = .packing)
    | none => true)

/-- A message is a line of a locked burst that goes on. -/
def State.onGoing (s : State) (m : Msg) : Bool :=
  match m.route.bind (·.move) with
  | some x => s.lockedGoing x.1 && (s.har x.1).lines.contains m.id
  | none => false

/-! ### Completion (R263, R265, R266) -/

/-- A move of a channel completes: its line is counted, and as poison where it was read so (R259, R263). -/
def State.harEnd (s : State) (c : Nat) (v : HMove) : State :=
  let s := s.modHar c (fun h => { h with moves := h.moves.filter (fun x => x.id ≠ v.id) })
  if !v.counts then s
  else (if v.poison then s.harPoison c v.line else s).bump (Fld.harrowProgressLines c)

/-- The channel goes on to DONE or STOPPED when nothing remains (R265). -/
def State.harSettle (s : State) (c : Nat) : State :=
  let h := s.har c
  if h.moves.any (·.counts) then s
  else if s.harState c = 2 then s.setHarState c 4
  else if s.harState c = 1 ∧ h.last ≤ h.next then s.setHarState c 3
  else s

/-- HARROW_MOVE_COMPLETE: a channel's line that has been moved completes (R263, R265); lines may complete in any order. -/
def execHarrowMoveComplete (c : Chan) (line : Nat) (s : State) : Host.Outcome State Fault Refusal :=
  act s (fun s => match (s.har c.val).moves.find? (fun v => v.done && decide (v.line = line)) with
    | some v => (s.harEnd c.val v).harSettle c.val
    | none => s)

/-- A move reads or writes through a port. -/
def HMove.through (v : HMove) (lp : Nat) : Bool := decide (v.inLp = lp ∨ v.out.map (·.lp) = some lp)

/-- A member's link goes down under a channel (R266): the channel goes to ERROR; its moves through the port end as R74 has it, with the
other requests of the port. -/
def State.harLinkDown (s : State) (lp : Nat) : State :=
  (List.range 4).foldl (fun s c =>
    if (s.har c).moves.any (fun v => !v.done && v.through lp) && decide (s.harState c = 1 ∨ s.harState c = 2) then s.harErr c 4
    else s) s

/-- A fatal fault: every channel goes to ERROR, and its moves are gone but for the rest of a locked burst that goes on (R251, R266). -/
def State.harFatal (s : State) : State :=
  (List.range 4).foldl (fun s c =>
    let going := s.lockedGoing c
    (s.modHar c (fun h => if going then { h with moves := [] } else { h with moves := [], burst := [], lines := [] })).harErr c 5) s

/-- Budgets renewed at phase 0 (R258). -/
def State.harRefill (s : State) : State := (List.range 4).foldl (fun s c => s.modHar c (fun h => { h with spent := 0, budget := s.harRate c })) s

end Sys2Proof.Machine
end

