-- ==== Sys2Proof/Machine/Rom.lean ====
section
/-! DEFINITION. The on-die ROM (15, R369 to R371): the expansion ROM image with the Turavo Resource Table, its patches, and the CRC-32 of
R288. -/

namespace Sys2Proof.Machine

/-! ### CRC-32 (R288) -/

/-- One bit of the CRC-32 of R288, least significant bit first. -/
def crcBit (c : Word) : Word := if c.getLsbD 0 then (c >>> 1) ^^^ 0xEDB88320#32 else c >>> 1

/-- One byte of the CRC-32. -/
def crcByte (c : Word) (b : Byte) : Word := (List.range 8).foldl (fun c _ => crcBit c) (c ^^^ BitVec.setWidth 32 b)

/-- CRC-32 (R288). -/
def crc32 (l : List Byte) : Word := l.foldl crcByte 0xFFFFFFFF#32 ^^^ 0xFFFFFFFF#32

/-- Big-endian bytes of a value, `n` of them. -/
def beBytes (n v : Nat) : List Byte := (leBytes n v).reverse

/-! ### Patches (R371) -/

/-- Start-up step 2 applies the patch records that OTP holds, at most 32 of them (R371). -/
def State.applyPatches (s : State) : State := { s with sec := { s.sec with patches := Config.romPatches.take 32 } }

/-- The bytes of the patch records applied (R370). -/
def State.patchBytes (s : State) : List Byte := s.sec.patches.flatMap (fun x => Config.patchRecord x.1 x.2)

/-- Byte `n` of the expansion ROM's image, `b` in the ROM as made: a patch replaces an aligned word of the on-die ROM (R371). -/
def State.patched (s : State) (n : Nat) (b : Byte) : Byte :=
  match s.sec.patches.find? (fun x => x.1 = Config.romBase + n / 4) with
  | some x => BitVec.ofNat 8 (x.2.toNat / 2 ^ (8 * (n % 4)))
  | none => b

/-! ### The Turavo Resource Table (R369, R370) -/

/-- The register blocks: base and size (R446). -/
def romBlocks : List (Nat × Nat) :=
  [(0, 0x100000), (0x100000, 0x100000), (0x200000, 0x100000), (0x300000, 0x100000)] ++
  (List.range 32).map (fun n => (0x400000 + 0x10000 * n, 0x10000)) ++
  (List.range 32).map (fun n => (0x800000 + 0x20000 * n, 0x20000)) ++
  [(0xC00000, 0x400000), (0x1000000, 0x400000), (0x1400000, 0x400000), (0x1800000, 0x200000), (0x1A00000, 0x40000),
   (0x1A40000, 0x40000), (0x1A80000, 0x180000), (0x1C00000, 0x200000), (0x1E00000, 0x100000), (0x1F00000, 0x80000),
   (0x1F80000, 0x6F000), (0x1FEF000, 0x11000)]

/-- The counts of LIMITS (R370). -/
def romLimits : List Nat := [32, 64, 4096, 4096, 16384, 131072, 262144, 2097152, 8192, 16, 16, 64]

/-- The content of an entry: 1 IDENTITY, 2 BLOCKS, 3 LIMITS, 4 RINGS, 5 PATCHES (R370). The widths of the numbers in RINGS and of the count
in PATCHES, and what BLOCKS gives as code and version, are not stated (log 20). -/
def State.resEntry (s : State) (ty : Nat) : List Byte :=
  if ty = 1 then leBytes 16 (Config.uid 0).toNat ++ leBytes 16 (Config.uid 1).toNat ++ [0xA1]
  else if ty = 2 then
    romBlocks.flatMap (fun b => leBytes 4 b.1 ++ leBytes 4 b.2 ++ leBytes 2 (Config.blockCode b.1).toNat ++
      leBytes 2 (Config.blockVersion b.1).toNat)
  else if ty = 3 then romLimits.flatMap (leBytes 4)
  else if ty = 4 then [64, 16, 4096, 0x7FF].flatMap (leBytes 4)
  else leBytes 4 s.sec.patches.length ++ beBytes 48 (Config.sha384 s.patchBytes).toNat

/-- A list in the order that a number names: each element stands in it once. -/
def orderBy : Nat → List Nat → Nat → List Nat
  | 0, _, _ => []
  | k + 1, l, n =>
    match l[n % l.length]? with
    | some x => x :: orderBy k (l.erase x) (n / l.length)
    | none => []

/-- The directory's entry types in order, each exactly once (R370; the order is not stated). -/
def resTypes : List Nat := orderBy 5 [1, 2, 3, 4, 5] Config.tableOrder

/-- The directory and the contents from `off` on of the entries listed (R369). -/
def State.resParts (s : State) (off : Nat) : List Nat → List Byte × List Byte
  | [] => ([], [])
  | ty :: l =>
    let gap := (Config.romGap ty).take 64
    let body := s.resEntry ty
    let x := s.resParts (off + gap.length + body.length) l
    (leBytes 2 ty ++ leBytes 2 (Config.entryVersion ty).toNat ++ leBytes 2 (off + gap.length) ++ leBytes 2 body.length ++ x.1,
     gap ++ body ++ x.2)

/-- The table from 0x0040 on with its CRC field 0, as patched (R369, R371). -/
def State.resTable (s : State) : List Byte :=
  let x := s.resParts 0x38 resTypes
  let n := 16 + x.1.length + x.2.length
  let t := leBytes 4 0x54525431 ++ leBytes 2 1 ++ leBytes 2 n ++ leBytes 2 5 ++ leBytes 4 0 ++ leBytes 2 0 ++ x.1 ++ x.2
  (List.range n).map (fun k => if 10 ≤ k ∧ k < 14 then 0 else s.patched (0x40 + k) ((t[k]?).getD 0))

/-- Known bytes of the ROM image before the table: (first, bytes). -/
def romKnown : List (Nat × List Byte) :=
  [(0x00, [0x55, 0xAA]), (0x18, [0x20, 0x00]), (0x20, [0x50, 0x43, 0x49, 0x52, 0x9C, 0x1E, 0x89, 0x32]),
   (0x2D, [0x00, 0x80, 0x08]), (0x30, [0x20, 0x00]), (0x34, [0x70, 0x80])]

/-- A byte of the expansion ROM: the table's CRC is over the table as patched (R369, R371). -/
def State.romByte (s : State) (n : Nat) : Byte :=
  if 0x4000 ≤ n then 0
  else if n < 0x40 then
    match romKnown.find? (fun x => decide (x.1 ≤ n ∧ n < x.1 + x.2.length)) with
    | some x => s.patched n ((x.2[n - x.1]?).getD 0)
    | none => s.patched n (Config.rom n)
  else
    let t := s.resTable
    if 0x4A ≤ n ∧ n < 0x4E then ((leBytes 4 (crc32 t).toNat)[n - 0x4A]?).getD 0
    else match t[n - 0x40]? with
      | some b => b
      | none => s.patched n (Config.rom n)

/-! ### Measurement (R299) -/

/-- Measurement index 1: the digest of the main die's ROM and the patches applied (R299, R371). -/
def State.romDigest (s : State) : List Byte := beBytes 48 (Config.romDigest s.patchBytes).toNat

end Sys2Proof.Machine
end

