-- ==== Sys2Proof/Machine/Meter.lean ====
section
/-! DEFINITION. The Malza meter (13): taps and counter banks, holdings and the event queue, intervals, records and their
stream, signed commands, and what the world around the meter does to it. -/

namespace Sys2Proof.Machine

/-! ### Small operations -/

/-- The meter changed. -/
def State.setMz (s : State) (f : Meter → Meter) : State := { s with mz := f s.mz }

/-- The tally plane counts (R344 to R348). -/
def Meter.counting (m : Meter) : Bool := m.ready && !m.fault && !m.closed && !m.memBad && m.stopped.isNone

/-- The MZ12 can reach the tally plane and write MRAM. -/
def Meter.working (m : Meter) : Bool := m.ready && m.down.isNone && m.stopped.isNone && !m.memBad

/-- An entry of a count table. -/
def cnt (t : Tbl Nat) (k : Nat) : Nat := Tbl.get (fun _ => 0) t k

/-- An entry of a count table raised. -/
def cntAdd (t : Tbl Nat) (k n : Nat) : Tbl Nat := Tbl.set (fun _ => 0) t k (cnt t k + n)

/-- The account of a map entry, none when invalid (R324). -/
def acctOf (e : Nat) : Option Nat := if e / 2 ^ 15 % 2 = 1 then some (e % 4096) else none

/-- Events that wait and count in QUEUE.COUNT. -/
def MEvent.queued : MEvent → Bool
  | .rebuild _ => false
  | _ => true

/-! ### The mirror (R322, R351) -/

/-- The meter's state as STAT shows it. -/
def Meter.stateCode (m : Meter) : Nat :=
  if !m.ready then 0 else if m.closed then 4 else if m.fault then 3 else if m.stopped.isSome then 2 else 1

/-- The mirror's scalar registers follow the MZ12 while the link is up and the MZ12 is ready. -/
def State.mirror (s : State) : State :=
  let m := s.mz
  if !m.ready || m.down.isSome then s
  else
    let s := s.setFs [(Fld.mzStatState, m.stateCode), (Fld.mzStatSupplyBad, bit m.stopped.isSome), (Fld.mzStatRtcBad, bit m.rtcBad),
      (Fld.mzStatLinkLost, bit m.lost), (Fld.mzStatHoldEst, bit m.ovf.isSome), (Fld.mzStatMemBad, bit m.memBad),
      (Fld.mzStatKeyDestroyed, bit m.keyGone), (Fld.mzStatNokey, bit (!(m.par.keys.any (fun k => k.2.used)))),
      (Fld.mzQueueCount, (m.queue.filter (fun x => x.2.queued)).length), (Fld.mzQueueOvf, m.ovfs), (Fd.whole Reg.mzBoot, m.boot),
      (Fd.whole Reg.mzIntLen, m.par.len)]
    let s := (s.set64 Reg.mzAuditLo Reg.mzAuditHi m.audit).set64 Reg.mzSeqLo Reg.mzSeqHi m.seq
    let s := s.set64 Reg.mzOldestLo Reg.mzOldestHi ((m.ring.head?.map (·.1)).getD 0)
    let s := (s.set64 Reg.mzIntNoLo Reg.mzIntNoHi m.intNo).set64 Reg.mzIntStartLo Reg.mzIntStartHi m.start
    (s.set64 Reg.mzNonceLo Reg.mzNonceHi m.nonce.toNat).set64 Reg.mzMrtcLo Reg.mzMrtcHi m.mrtc

/-- A map's mirror rewritten: two entries to a word. -/
def mirrorMap (regs : Tbl Word) (base words : Nat) (map : Tbl Nat) : Tbl Word :=
  map.foldl (fun t e =>
    let a := base + 4 * (e.1 / 2)
    Tbl.set regReset t a (fieldPut (regAt t a) (16 * (e.1 % 2)) 16 e.2)) (Tbl.clear regs base (4 * words))

/-- The mirror's map copies show the maps in force (R325). -/
def State.mirrorMaps (s : State) : State :=
  { s with regs := mirrorMap (mirrorMap s.regs (Reg.mzPlotMap 0) 2048 s.mz.par.plotMap) (Reg.mzScMap 0) 8192 s.mz.par.scMap }

/-- The cumulative registers and the SEQ behind them are rewritten together (R350). -/
def State.mirrorCum (s : State) : State :=
  let s := s.mz.cum.foldl (fun s e => (List.range 3).foldl (fun s k =>
    s.wr (Reg.mzCum (e.1 / 6) (e.1 % 6) k) (BitVec.ofNat 32 (e.2 / 2 ^ (32 * k)))) s) s
  s.set64 Reg.mzCumSeqLo Reg.mzCumSeqHi s.mz.cumSeq

/-! ### Taps (R324, R326, R327) -/

/-- A tap's amounts. -/
structure Tap where
  sc   : Option Nat := none
  plot : Nat := 0
  rd   : Nat := 0
  wr   : Nat := 0
  inn  : Nat := 0
  psn  : Nat := 0
deriving DecidableEq, Repr

/-- A tap event added to a bank under the maps in force. -/
def MBank.add (b : MBank) (p : MPar) (t : Tap) : MBank :=
  match t.sc with
  | none => { b with unattr := b.unattr + 1 }
  | some sc =>
    match acctOf (cnt p.scMap sc), acctOf (cnt p.plotMap t.plot) with
    | some a, some a' =>
      if a = a' then
        let c := cntAdd (cntAdd (cntAdd b.counts (8 * a) t.rd) (8 * a + 1) t.wr) (8 * a + 2) t.inn
        { b with counts := cntAdd (cntAdd c (8 * a + 3) 1) (8 * a + 4) t.psn }
      else { b with mismatch := b.mismatch + 1 }
    | _, _ => { b with mismatch := b.mismatch + 1 }

/-! ### Intervals (R325, R327, R328, R333) -/

/-- A change to the parameters comes into force. -/
def MPar.apply (p : MPar) (c : MChange) : MPar :=
  match c with
  | .sc f n e => { p with scMap := (List.range n).foldl (fun t i => Tbl.set (fun _ => 0) t (f + i) e) p.scMap }
  | .plot q e => { p with plotMap := Tbl.set (fun _ => 0) p.plotMap q e }
  | .len l => { p with len := l }

/-- An interval starts at TICK t: changes whose turn it is are in force (R325, R328). -/
def Meter.startInterval (m : Meter) (no t : Nat) : Meter :=
  let now := m.due.filter (fun x => x.1 ≤ 1)
  { m with intNo := no, start := t, mrtc0 := m.mrtc, flags := 0,
           par := now.foldl (fun p x => p.apply x.2) m.par,
           due := (m.due.filter (fun x => 1 < x.1)).map (fun x => (x.1 - 1, x.2)) }

/-- The open interval ends at TICK t with flags: it goes with its bank when the idle one is empty, else it is merged (R333). -/
def Meter.endInterval (m : Meter) (t flags : Nat) : Meter :=
  let x : MSpan := ⟨m.intNo, m.start, t, m.mrtc0, m.mrtc, m.flags ||| flags ||| (bit m.ovf.isSome * 32), m.par⟩
  if m.idle.isEmpty then { m with idle := m.spare ++ [x], spare := [], inB := !m.inB } else { m with spare := m.spare ++ [x] }

/-- The open interval ends in or before this tick, and has not been ended (R328). -/
def Meter.intervalOver (m : Meter) (now : Nat) : Bool :=
  m.ready && !m.fault && !m.closed && decide (m.start + 256 * m.par.len ≤ now)

/-- An interval that is over has ended, and the next one runs (R327, R328). -/
def Meter.roll (m : Meter) (now : Nat) : Meter :=
  if m.intervalOver now then (m.endInterval (m.start + 256 * m.par.len) 0).startInterval (m.intNo + 1) (m.start + 256 * m.par.len) else m

/-- How the meter stands now. -/
def Meter.stampNow (m : Meter) (now : Nat) : MStamp := ⟨now, (m.roll now).intNo, m.mrtc, (m.roll now).par⟩

/-- How the meter stands in this tick is kept for an EVENT record that is made later. -/
def Meter.keepStamp (m : Meter) (now : Nat) : Meter :=
  if m.stamps.any (fun x => x.tick = now) then m else { m with stamps := m.stamps ++ [m.stampNow now] }

/-- How the meter stood in a tick: as kept, or as it stands. -/
def Meter.stampAt (m : Meter) (t now : Nat) : MStamp := (m.stamps.find? (fun x => decide (x.tick = t))).getD (m.stampNow now)

/-- Nothing of an earlier tick is still to be recorded. -/
def Meter.stampsDone (m : Meter) : Meter :=
  if m.queue.isEmpty && m.ovf.isNone && m.stopped.isNone && m.down.isNone && m.late.isEmpty then { m with stamps := [] } else m

/-! ### Tap events -/

/-- A tap fires: in the bank of the interval that its TICK lies in (R8, R327). -/
def State.tap (s : State) (t : Tap) : State :=
  s.setMz (fun m =>
    let m := m.roll s.tick
    if m.counting then
      (if m.inB then { m with bankB := m.bankB.add m.par t } else { m with bankA := m.bankA.add m.par t }) else m)

/-- A posted message's credit is due: its tap fires with the next flit of its port (R326). -/
def State.postedDue (s : State) (lp : Nat) (sc : Option Nat) (plot bytes : Nat) : State :=
  s.setMz (fun m => { m with posted := m.posted ++ [(lp, sc, plot, bytes)] })

/-- The taps of posted messages whose credit a flit of the port returns. -/
def State.postedTaps (s : State) (lp : Nat) : State :=
  let l := s.mz.posted.filter (fun x => x.1 = lp)
  let s := s.setMz (fun m => { m with posted := m.posted.filter (fun x => x.1 ≠ lp) })
  l.foldl (fun s x => s.tap { sc := x.2.1, plot := x.2.2.1, wr := if x.2.1.isSome then x.2.2.2 else 0 }) s

/-! ### Holdings (R329 to R331) -/

/-- Furlongs g with a ≤ g < b whose first tick lies in [lo, hi). -/
def furlongsIn (a b lo hi : Nat) : Nat := min b ((hi + 255) / 256) - max a ((lo + 255) / 256)

/-- Ticks of [a, b) in which counting was frozen, with the stop still running up to `now`. -/
def Meter.frozenAll (m : Meter) (now : Nat) : List (Nat × Nat) :=
  m.frozen ++ (match m.stopped with | some x => [(x.1, now)] | none => [])

/-- Holdings integrated up to furlong f under a plot map (R329, R346). -/
def Meter.integrate (m : Meter) (map : Tbl Nat) (f now : Nat) : Meter :=
  let n := (f - m.doneF) - ((m.frozenAll now).map (fun r => furlongsIn m.doneF f r.1 r.2)).sum
  let m := m.units.foldl (fun m u => match acctOf (cnt map u.1) with
    | some a => { m with hold := cntAdd m.hold a (n * u.2) }
    | none => { m with unHold := m.unHold + n * u.2 }) m
  { m with doneF := max m.doneF f }

/-- The plot map under which a tick is counted: that of the ended interval it lies in, else the one in force. -/
def Meter.mapAt (m : Meter) (t : Nat) : Tbl Nat :=
  match (m.idle ++ m.spare).find? (fun x => t < x.stop) with
  | some x => x.par.plotMap
  | none => m.par.plotMap

/-- Holdings integrated up to furlong f, interval by interval. -/
def Meter.integrateTo (m : Meter) (f now : Nat) : Meter :=
  let m := (m.idle ++ m.spare).foldl (fun m x =>
    if x.stop < 256 * f then m.integrate x.par.plotMap ((x.stop + 255) / 256) now else m) m
  m.integrate (m.mapAt (256 * f - 1)) f now

/-- A queued event applied to the holdings (R329). -/
def Meter.applyEv (m : Meter) (x : Nat × MEvent) (now : Nat) : Meter :=
  let m := m.integrateTo ((x.1 + 255) / 256) now
  match x.2 with
  | .extent _ u old new =>
    let t := match old with | some p => Tbl.set (fun _ => 0) m.units p (cnt m.units p - u) | none => m.units
    { m with units := match new with | some p => cntAdd t p u | none => t }
  | .plot _ _ => m
  | .rebuild t => { m with units := t }

/-- The holdings that a scan of the extent table in force finds (R331). -/
def State.scanUnits (s : State) : Tbl Nat :=
  ((listed s.regs (Reg.extentXtW0 0) 8 131072).filter (fun i => fieldAt s.regs (Fld.extentXtW0Valid i) = 1)).foldl
    (fun t i => cntAdd t (fieldAt s.regs (Fld.extentXtW1Plot i)) (xszAt s.regs i / 2 ^ 28)) []

/-! ### Records (R335 to R339) -/

/-- The bytes that PARAM_DIGEST covers (R338). -/
def MPar.bytes (p : MPar) : List Byte :=
  leBytes 4 p.len ++ leBytes 8 p.anchor.1 ++ leBytes 8 p.anchor.2 ++
  (List.range 4096).flatMap (fun i => leBytes 2 (cnt p.plotMap i)) ++
  (List.range 16384).flatMap (fun i => leBytes 2 (cnt p.scMap i)) ++
  (List.range 4).flatMap (fun i =>
    let k := Tbl.get (fun _ => ({} : MKey)) p.keys i
    leBytes 1 (bit k.used + 2 * bit k.retired) ++ (if k.used then bytesAt k.key 0 97 else List.replicate 97 0))

/-- What a record's header and body hold beside the common fields (R336). -/
structure MRec where
  kind  : Nat
  flags : Nat := 0
  no    : Nat
  t0    : Nat
  t1    : Nat
  mrtc0 : Nat
  mrtc1 : Nat
  par   : MPar
  count : Nat := 0
  tots  : List Nat := [0, 0, 0, 0]
  body  : List Byte
deriving DecidableEq, Repr

/-- A record's bytes before its signature (R336, R337). -/
def Meter.recBytes (m : Meter) (r : MRec) (seq : Nat) : List Byte :=
  leBytes 4 0x31525A4D ++ leBytes 2 1 ++ leBytes 1 r.kind ++ leBytes 1 (r.flags ||| (bit m.rtcBad * 64)) ++ leBytes 8 seq ++
  beBytes 48 m.prev.toNat ++ leBytes 16 (Config.uid 1).toNat ++ leBytes 16 (Config.uid 0).toNat ++ leBytes 4 m.boot ++
  leBytes 4 0 ++ leBytes 8 m.audit ++ leBytes 8 r.no ++ leBytes 8 r.t0 ++ leBytes 8 r.t1 ++ leBytes 8 r.mrtc0 ++
  leBytes 8 r.mrtc1 ++ beBytes 48 (Config.sha384 r.par.bytes).toNat ++ leBytes 4 r.count ++
  leBytes 4 (0x100 + r.body.length + 96) ++ r.tots.flatMap (leBytes 8) ++ List.replicate 16 0 ++ r.body

/-- The oldest records leave the ring until it fits in 1,280 KiB (R335); the first argument bounds how many. -/
def fitRing : Nat → List (Nat × List Byte) → List (Nat × List Byte)
  | 0, l => l
  | _, [] => []
  | k + 1, x :: l => if 1310720 < ((x :: l).map (·.2.length)).sum then fitRing k l else x :: l

/-- A record is made, signed, chained and put in the ring (R335, R339); none once the secret or the memory is gone. -/
def State.makeRec (s : State) (r : MRec) : State :=
  s.setMz (fun m =>
    if m.memBad || m.keyGone then m
    else
      let b := m.recBytes r (m.seq + 1)
      let b := b ++ bytesAt (Config.ecdsaSign 1 b) 0 96
      let l := m.ring ++ [(m.seq + 1, b)]
      { m with seq := m.seq + 1, prev := Config.sha384 b, lost := false, ring := fitRing l.length l })

/-- An EVENT record of tick `t`, with the meter as it stood then (R336, R337); while the MZ12 may not write MRAM, or the link is lost, it
waits (R346, R347). -/
def State.eventRec (s : State) (code detail t : Nat) : State :=
  let m := s.mz
  if m.stopped.isSome || m.down.isSome then
    s.setMz (fun m => { m.keepStamp s.tick with late := m.late ++ [(code, detail, t)] })
  else
    let x := m.stampAt t s.tick
    s.makeRec { kind := 3, no := x.no, t0 := t, t1 := t, mrtc0 := x.mrtc, mrtc1 := x.mrtc, par := x.par,
                body := leBytes 4 code ++ leBytes 12 detail }

/-- The EVENT records that waited are made. -/
def State.lateRecs (s : State) : State :=
  s.mz.late.foldl (fun s x => s.eventRec x.1 x.2.1 x.2.2) (s.setMz (fun m => { m with late := [] }))

/-! ### The event queue (R331) -/

/-- An event arrives at the queue; at a full one the queue is discarded with it and an overflow is counted. Events between an
overflow and its rebuild are discarded. -/
def State.meterEvent (s : State) (e : MEvent) : State :=
  let m := s.mz
  if !m.ready || m.ovf.isSome then s
  else if 262144 ≤ (m.queue.filter (fun x => x.2.queued)).length then
    (s.setMz (fun m => { (m.roll s.tick).keepStamp s.tick with
      queue := [], ovf := some s.tick, ovfs := min (m.ovfs + 1) 0x1FFF, flags := (m.roll s.tick).flags ||| 32 })).mirror
  else
    let keep (m : Meter) : Meter := match e with
      | .plot _ _ => m.keepStamp s.tick
      | _ => m
    s.setMz (fun m => { keep m with queue := m.queue ++ [(s.tick, e)] })

/-- The event at the queue's front is applied; a plot event makes its record (R329, R335). -/
def State.applyFront (s : State) : State :=
  match s.mz.queue with
  | [] => s
  | x :: xs =>
    let s := s.setMz (fun m => { m.applyEv x s.tick with queue := xs })
    let s := match x.2 with
      | .plot p live => s.eventRec (if live then 9 else 10) p x.1
      | _ => s
    s.setMz Meter.stampsDone

/-- BINDING_EVENT_APPLY: the front event is applied unless it belongs after a close that is due (R331, R332). -/
def execBindingEventApply (s : State) : Host.Outcome State Fault Refusal :=
  act s (fun s => match s.mz.queue with
    | [] => s
    | x :: _ =>
      let first := match (s.mz.roll s.tick).idle.getLast? with | some i => decide (x.1 < i.stop) | none => true
      if s.mz.working && first then (s.setMz (fun m => m.roll s.tick)).applyFront.mirror else s)

/-- HOLDING_REBUILD: at a furlong boundary strictly after the tick of the overflow (R331). -/
def execHoldingRebuild (s : State) : Host.Outcome State Fault Refusal :=
  act s (fun s => match s.mz.ovf with
    | none => s
    | some o =>
      if o < s.tick ∧ s.phase = 0 then
        let t := s.scanUnits
        (((s.setMz (fun m =>
          let m := m.roll s.tick
          { m with
            ovf := none, queue := m.queue ++ [(s.tick, .rebuild t)],
            flags := if m.start < s.tick then m.flags ||| 32 else m.flags })).eventRec 7 0 o)).mirror
      else s)

/-! ### Closing intervals (R328, R332, R333) -/

/-- INTERVAL_END: the first tick of the next interval (R327, R328). A tap of that tick may have come before it. -/
def execIntervalEnd (s : State) : Host.Outcome State Fault Refusal :=
  act s (fun s => if s.mz.ready then ((s.setMz (fun m => m.roll s.tick)).mirrorMaps).mirror else s)

/-- Ticks of an interval in which counting was frozen (UNCOUNTED). -/
def Meter.uncounted (m : Meter) (a b now : Nat) : Nat :=
  ((m.frozenAll now).map (fun r => min b r.2 - max a r.1)).sum

/-- One account's deltas: five counted quantities and the holding. -/
def accountDeltas (b : MBank) (hold : Tbl Nat) (a : Nat) : List Nat :=
  (List.range 5).map (fun q => cnt b.counts (8 * a + q)) ++ [cnt hold a]

/-- An account's units held under a plot map. -/
def Meter.held (m : Meter) (map : Tbl Nat) (a : Nat) : Nat :=
  ((m.units.filter (fun u => acctOf (cnt map u.1) = some a)).map (·.2)).sum

/-- The bytes of an account entry (R337). -/
def accountEntry (a held : Nat) (d c : List Nat) : List Byte :=
  leBytes 2 a ++ leBytes 2 0 ++ leBytes 4 held ++ d.flatMap (leBytes 8) ++ c.flatMap (leBytes 12)

/-- The ended intervals `l` of a bank go into a record (R332): events stamped below the end are applied, deltas added to the
cumulative registers, the record made, the mirror rewritten. -/
def State.closeSpans (s : State) (l : List MSpan) (b : MBank) : State :=
  match l.head?, l.getLast? with
  | some x, some y =>
    let s := s.mz.queue.foldl (fun s e => if e.1 < y.stop then s.applyFront else s) s
    let m := (s.mz.integrateTo ((y.stop + 255) / 256) s.tick)
    let un := m.uncounted x.start y.stop s.tick
    let flags := l.foldl (fun f z => f ||| z.flags) 0 ||| (bit (decide (1 < l.length)) * 16) ||| (bit (decide (0 < un)) * 8)
    let accts := (List.range 4096).filter (fun a =>
      (accountDeltas b m.hold a).any (fun d => decide (d ≠ 0)) || decide (m.held y.par.plotMap a ≠ 0))
    let cum := accts.foldl (fun t a => (List.range 6).foldl (fun t q =>
      cntAdd t (6 * a + q) (((accountDeltas b m.hold a)[q]?).getD 0)) t) m.cum
    let body := accts.flatMap (fun a => accountEntry a (m.held y.par.plotMap a) (accountDeltas b m.hold a)
      ((List.range 6).map (fun q => cnt cum (6 * a + q))))
    let r : MRec := { kind := 1, flags := flags, no := y.no, t0 := x.start, t1 := y.stop, mrtc0 := x.mrtc0, mrtc1 := y.mrtc1,
                      par := y.par, count := accts.length,
                      tots := [b.unattr, b.mismatch, m.unHold, un], body := body }
    let s := (s.setMz (fun _ => { m with cum := cum, hold := [], unHold := 0 })).makeRec r
    (s.setMz (fun m => { m with cumSeq := m.seq, frozen := m.frozen.filter (fun z => y.stop < z.2) })).mirrorCum
  | _, _ => s

/-- The idle bank is emptied into its record. -/
def State.closeIdle (s : State) : State :=
  let m := s.mz
  if m.idle.isEmpty then s
  else
    let s := s.closeSpans m.idle (if m.inB then m.bankA else m.bankB)
    s.setMz (fun m => if m.inB then { m with idle := [], bankA := {} } else { m with idle := [], bankB := {} })

/-- Every ended interval is recorded, the bank in use too: no interval is open. -/
def State.closeAll (s : State) : State :=
  let s := s.closeIdle
  let m := s.mz
  if m.spare.isEmpty then s
  else
    let s := s.closeSpans m.spare (if m.inB then m.bankB else m.bankA)
    s.setMz (fun m => if m.inB then { m with spare := [], bankB := {} } else { m with spare := [], bankA := {} })

/-- INTERVAL_CLOSE (R332); while the meter cannot reach its banks it waits (R333, R346). -/
def execIntervalClose (s : State) : Host.Outcome State Fault Refusal :=
  act s (fun s =>
    if s.mz.working then (if s.mz.fault || s.mz.closed then s.closeAll else s.closeIdle).mirror else s)

/-! ### The record stream (R352) -/

/-- Bytes written into the outbox. -/
def State.outboxPut (s : State) (l : List Byte) : State :=
  l.foldl (fun s b =>
    let c := (s.rd Reg.stewardMzOutWr).toNat
    (s.setF ⟨Reg.stewardMzOutbox (c % 65536 / 4), 8 * (c % 4), 8⟩ b.toNat).wr Reg.stewardMzOutWr (BitVec.ofNat 32 (c + 1))) s

/-- The next record of the stream is taken up: the one wanted, or the oldest kept when it has left the ring. -/
def Meter.nextRest (m : Meter) : Meter :=
  if !m.rest.isEmpty then m
  else match m.ring.find? (fun r => m.nextRec ≤ r.1) with
    | some r => { m with cur := r.1, rest := r.2, nextRec := r.1 + 1 }
    | none => m

/-- Up to `n` bytes of the current record are streamed. -/
def State.streamStep (x : State × Nat) : State × Nat :=
  let s := x.1.setMz Meter.nextRest
  let k := min x.2 s.mz.rest.length
  let s := (s.outboxPut (s.mz.rest.take k)).setMz (fun m => { m with rest := m.rest.drop k })
  let done := decide (0 < k) && s.mz.rest.isEmpty
  (if done then s.setMz (fun m => { m with sent := m.sent ++ [(m.cur, (s.rd Reg.stewardMzOutWr).toNat)] }) else s, x.2 - k)

/-- Source 18 of each instance whose threshold the unread bytes reach (R377, R394). -/
def State.outboxDue (s : State) : State :=
  let n := (s.rd Reg.stewardMzOutWr - s.rd Reg.stewardMzOutRd).toNat
  [0, 1].foldl (fun s i => if max 1 (s.getF (Fld.stewardOutboxThrBytes i)) ≤ n then s.pendSource i 18 else s) s

/-- RECORD_STREAM: up to `n` bytes, while the outbox has room (R352). -/
def execRecordStream (n : Nat) (s : State) : Host.Outcome State Fault Refusal :=
  act s (fun s =>
    if s.mz.ready && s.mz.down.isNone then
      let room := 65536 - (s.rd Reg.stewardMzOutWr - s.rd Reg.stewardMzOutRd).toNat
      (((List.range (s.mz.ring.length + 1)).foldl (fun x _ => State.streamStep x) (s, min n room)).1).outboxDue
    else s)

/-- A write of MZ_OUT_RD: the steward has consumed up to there (R352). -/
def State.mzOutRdWrite (s : State) (v : Word) : State :=
  (s.wr Reg.stewardMzOutRd v).setMz (fun m => { m with
    sent := m.sent.filter (fun x => decide (2 ^ 31 ≤ (v - BitVec.ofNat 32 x.2).toNat)) })

/-- MZ_OUT_RD_WRITE (R352). -/
def execMzOutRdWrite (v : Word) (s : State) : Host.Outcome State Fault Refusal := act s (·.mzOutRdWrite v)

/-- The stream starts again at the oldest record not read in full (R352). -/
def Meter.streamReset (m : Meter) : Meter :=
  let next := match m.sent.head? with
    | some x => x.1
    | none => if m.rest.isEmpty then m.nextRec else m.cur
  { m with sent := [], rest := [], nextRec := next }

/-! ### Signed commands (R341 to R343) -/

/-- The command in the inbox. -/
def State.inbox (s : State) : List Byte :=
  (List.range 60).flatMap (fun i => leBytes 4 (s.rd (Reg.stewardMzInbox i)).toNat)

/-- A 4-byte field of the command. -/
def mArg (c : List Byte) (off : Nat) : Nat := leNat (bytesAt c off 4)

/-- Bits an argument may use: by code, ARG0 and ARG1 (R342; a bit no argument names is reserved). -/
def mArgMasks (code : Nat) : Option (Nat × Nat) :=
  match code with
  | 0x01 => some (2 ^ 32 - 1, 0)
  | 0x02 => some (2 ^ 32 - 1, 0)
  | 0x03 => some (0x3FFF, 0x8FFF7FFF)
  | 0x04 => some (0xFFF, 0x80000FFF)
  | 0x05 => some (2 ^ 32 - 1, 0)
  | 0x06 => some (2 ^ 32 - 1, 2 ^ 32 - 1)
  | 0x10 => some (2 ^ 32 - 1, 2 ^ 32 - 1)
  | _ => none

/-- FORMAT fails: unknown code, or reserved bits not 0. -/
def mFormatBad (c : List Byte) : Bool :=
  match mArgMasks (mArg c 0) with
  | none => true
  | some k =>
    decide (mArg c 4 &&& k.1 ≠ mArg c 4) || decide (mArg c 8 &&& k.2 ≠ mArg c 8) || decide (3 < mArg c 12) ||
    (bytesAt c 0x89 7).any (fun b => b ≠ 0) ||
    (decide (mArg c 0 ≠ 1) && (bytesAt c 0x28 97).any (fun b => b ≠ 0))

/-- A billing key slot. -/
def Meter.key (m : Meter) (k : Nat) : MKey := Tbl.get (fun _ => {}) m.par.keys k

/-- A used and unretired slot. -/
def MKey.live (k : MKey) : Bool := k.used && !k.retired

/-- The command must be signed: every one but READ_FROM, and ADD_BKEY while no slot is used (R342). -/
def Meter.mustSign (m : Meter) (code : Nat) : Bool :=
  decide (code ≠ 0x10) && !(decide (code = 1) && !(m.par.keys.any (fun k => k.2.used)))

/-- The state of the slot acted on does not permit the command (R343, 6). -/
def Meter.slotBad (m : Meter) (c : List Byte) : Bool :=
  let k := m.key (mArg c 4)
  if mArg c 0 = 1 then k.used else if mArg c 0 = 2 then !k.live else false

/-- An argument lies outside its range (R343, 7). -/
def Meter.rangeBad (m : Meter) (c : List Byte) : Bool :=
  let a := mArg c 4
  let b := mArg c 8
  match mArg c 0 with
  | 0x01 | 0x02 => decide (3 < a)
  | 0x03 =>
    let n := b % 2 ^ 15
    decide (n = 0 ∨ 16384 < n ∨ 16384 < a + n)
  | 0x05 => decide (a < 65536)
  | 0x10 => decide (m.seq < a + 2 ^ 32 * b)
  | _ => false

/-- The first failure of a command, 0 when it is accepted (R343). -/
def Meter.verdict (m : Meter) (c : List Byte) : Nat :=
  let code := mArg c 0
  let signer := m.key (mArg c 12)
  if mFormatBad c then 0x04
  else if leNat (bytesAt c 0x18 16) ≠ (Config.uid 1).toNat then 0x03
  else if leNat (bytesAt c 0x10 8) ≠ m.nonce.toNat then 0x02
  else if m.mustSign code && !signer.live then 0x05
  else if m.mustSign code && !(Config.ecdsaVerify signer.key (bytesAt c 0 0x90) (bytesAt c 0x90 96)) then 0x01
  else if m.slotBad c then 0x05
  else if m.rangeBad c then 0x06
  else if code = 2 ∧ (m.par.keys.filter (fun k => k.2.live && decide (k.1 ≠ mArg c 4))).isEmpty then 0x08
  else if m.closed ∧ code ≠ 0x10 then 0x07
  else if code = 0x10 ∧ !(m.ring.any (fun r => r.1 = mArg c 4 + 2 ^ 32 * mArg c 8)) then 0x09
  else 0

/-- Interval starts that a change accepted at TICK t waits for (R325). -/
def Meter.wait (m : Meter) (t : Nat) : Nat := if t + 262144 < m.start + 256 * m.par.len then 1 else 2

/-- The change that a map or length command makes. -/
def mChange (c : List Byte) : Option MChange :=
  let b := mArg c 8
  match mArg c 0 with
  | 0x03 => some (.sc (mArg c 4) (b % 2 ^ 15) (b / 2 ^ 31 * 2 ^ 15 + b / 2 ^ 16 % 4096))
  | 0x04 => some (.plot (mArg c 4) (b / 2 ^ 31 * 2 ^ 15 + b % 4096))
  | 0x05 => some (.len (mArg c 4))
  | _ => none

/-- The effect of an accepted signed command on the parameters, and the interval starts it waits for. -/
def Meter.accept (m : Meter) (c : List Byte) (t : Nat) : Meter × Nat :=
  let setKey (k : Nat) (v : MKey) : Meter := { m with par := { m.par with keys := Tbl.set (fun _ => {}) m.par.keys k v } }
  match mArg c 0 with
  | 0x01 => (setKey (mArg c 4) ⟨true, false, bytesAt c 0x28 97⟩, 0)
  | 0x02 => (setKey (mArg c 4) { m.key (mArg c 4) with retired := true }, 0)
  | 0x06 => ({ m with par := { m.par with anchor := (mArg c 4 + 2 ^ 32 * mArg c 8, m.mrtc) } }, 0)
  | _ => match mChange c with
    | some x => ({ m with due := m.due ++ [(m.wait t, x)] }, m.wait t)
    | none => (m, 0)

/-- The parameter set after a change, with every change that waits (R336). -/
def Meter.parAfter (m : Meter) : MPar := m.due.foldl (fun p x => p.apply x.2) m.par

/-- A command is checked and takes its effect; the nonce is drawn anew (R343). -/
def State.meterCommand (s : State) : State :=
  let s := s.setMz (fun m => m.roll s.tick)
  let c := s.inbox
  let v := s.mz.verdict c
  let s :=
    if v ≠ 0 then s
    else if mArg c 0 = 0x10 then s.setMz (fun m => { m with nextRec := mArg c 4 + 2 ^ 32 * mArg c 8 })
    else
      let x := s.mz.accept c s.tick
      let s := s.setMz (fun _ => { x.1 with audit := x.1.audit + 1 })
      let m := s.mz
      s.makeRec { kind := 2, no := m.intNo, t0 := s.tick, t1 := s.tick, mrtc0 := m.mrtc, mrtc1 := m.mrtc, par := m.parAfter,
                  body := c ++ leBytes 4 m.boot ++ leBytes 4 0 ++ leBytes 8 (m.intNo + x.2) }
  let d := s.draw 64
  ((d.2.setMz (fun m => { m with nonce := d.1 })).setFs
    [(Fld.mzCmdStatBusy, 0), (Fld.mzCmdStatResult, v), (Fld.stewardMzInboxCtlBusy, 0)]).mirror

/-- The MZ12 checks the command in the inbox when it is the row's (R341 to R343). -/
def State.meterRow (s : State) (code : Nat) : State :=
  if s.getF Fld.stewardMzInboxCtlBusy = 1 ∧ s.mz.working ∧ mArg s.inbox 0 = code then s.meterCommand else s

/-- A write of MZ_INBOX_CTL.GO: a command of no row is answered FORMAT (R343, R352). -/
def State.meterGo (s : State) : State :=
  if s.getF Fld.stewardMzInboxCtlBusy = 1 then s
  else
    let s := s.setFs [(Fld.stewardMzInboxCtlBusy, 1), (Fld.mzCmdStatBusy, 1)]
    if s.mz.working ∧ mArgMasks (mArg s.inbox 0) = none then s.meterCommand else s

/-- ADD_BKEY (R342). -/
def execAddBkey (s : State) : Host.Outcome State Fault Refusal := act s (·.meterRow 0x01)
/-- RETIRE_BKEY (R342). -/
def execRetireBkey (s : State) : Host.Outcome State Fault Refusal := act s (·.meterRow 0x02)
/-- SET_SC_MAP (R325, R342). -/
def execSetScMap (s : State) : Host.Outcome State Fault Refusal := act s (·.meterRow 0x03)
/-- SET_PLOT_MAP (R325, R342). -/
def execSetPlotMap (s : State) : Host.Outcome State Fault Refusal := act s (·.meterRow 0x04)
/-- SET_INTERVAL (R328, R342). -/
def execSetInterval (s : State) : Host.Outcome State Fault Refusal := act s (·.meterRow 0x05)
/-- SET_ANCHOR (R342). -/
def execSetAnchor (s : State) : Host.Outcome State Fault Refusal := act s (·.meterRow 0x06)
/-- READ_FROM (R342). -/
def execReadFrom (s : State) : Host.Outcome State Fault Refusal := act s (·.meterRow 0x10)

/-! ### The world around the meter (R344 to R348) -/

/-- The heartbeat of a furlong boundary: the meter takes the furlong, and MRTC as it then stands (R322, R323; log 7). -/
def State.meterBeat (s : State) : State :=
  if !s.mz.ready || s.mz.down.isSome then s
  else
    let x := s.draw 1
    (x.2.setMz (fun m => { m with beat := s.furlong, mrtc := if m.rtcBad then m.mrtc else m.mrtc + x.1.toNat })).mirror

/-- METER_SUPPLY_TRIP: a rail monitor trips, and the tally plane stops (R346). -/
def execMeterSupplyTrip (io : Bool) (s : State) : Host.Outcome State Fault Refusal :=
  act s (fun s => if s.mz.stopped.isSome || !s.mz.ready then s
    else
      let s := s.setMz (fun m => { m.keepStamp s.tick with stopped := some (s.tick, bit io) })
      s.mirror)

/-- METER_SUPPLY_RESUME: counting resumes at a furlong boundary, and the crossings are recorded (R346). -/
def execMeterSupplyResume (s : State) : Host.Outcome State Fault Refusal :=
  act s (fun s => match s.mz.stopped with
    | none => s
    | some x =>
      if s.phase = 0 then
        let s := s.setMz (fun m => { m with stopped := none, frozen := m.frozen ++ [(x.1, s.tick)] })
        (((s.eventRec 2 x.2 x.1).lateRecs.eventRec 3 x.2 s.tick).setMz Meter.stampsDone).mirror
      else s)

/-- The meter link is lost (R347). -/
def State.meterLinkLoss (s : State) : State :=
  if s.mz.down.isSome then s
  else
    let s := s.setF Fld.mzStatLinkLost (bit s.mz.ready)
    (s.setMz (fun m => { m.keepStamp s.tick with down := some s.tick, lost := true })).raise { src := 0x15, tick := s.tick }

/-- METER_LINK_LOSS (R347). -/
def execMeterLinkLoss (s : State) : Host.Outcome State Fault Refusal := act s (·.meterLinkLoss)

/-- METER_LINK_RETURN: LINK_DOWN and LINK_UP records are made; a meter clock that had tripped is in range again, and the tally PLL
leaves holdover (R347, R412, R413). -/
def execMeterLinkReturn (s : State) : Host.Outcome State Fault Refusal :=
  act s (fun s => match s.mz.down with
    | none => s
    | some t =>
      let s := s.setMz (fun m => { m with down := none })
      let s := if s.getF Fld.cprClkmonStatMeter = 0 then s
        else { s with cpr := { s.cpr with fell := Tbl.set (fun _ => none) s.cpr.fell 17 (some s.tick) } }
      let s := s.setFs [(Fld.cprClkmonStatMeter, 0), (Fld.cprClkStatTallyHoldover, 0)]
      if s.mz.ready then (((((s.eventRec 5 0 t).lateRecs.eventRec 6 0 s.tick).setMz Meter.stampsDone)).mirrorMaps).mirror else s)

/-- MRTC_STOPPED (R347). -/
def execMrtcStopped (s : State) : Host.Outcome State Fault Refusal :=
  act s (fun s => if s.mz.rtcBad then s
    else ((s.setMz (fun m => { m with rtcBad := true })).eventRec 8 0 s.tick).mirror)

/-- MRAM_BOTH_COPIES_BAD (R347). -/
def execMramBothCopiesBad (s : State) : Host.Outcome State Fault Refusal :=
  act s (fun s => (s.setMz (fun m => { m with memBad := true })).mirror)

/-- A fatal fault's reaction starts in this tick (R344, R345): counting freezes, the interval closes, FATAL is recorded. -/
def State.meterFatal (s : State) : State :=
  if !s.mz.ready || s.mz.fault || s.mz.closed then s
  else
    let s := s.setMz (fun m => { (m.roll s.tick).endInterval s.tick 4 with fault := true })
    if s.mz.working then (s.closeAll.eventRec 4 0 s.tick).mirror else s.eventRec 4 0 s.tick

/-- Entry to RETURNED (R348). -/
def State.meterReturn (s : State) : State :=
  if !s.mz.ready || s.mz.closed then s
  else
    let s := if s.mz.fault then s else s.setMz (fun m => (m.roll s.tick).endInterval s.tick 128)
    let s := s.closeAll
    let m := s.mz
    let s := s.makeRec { kind := 4, no := m.intNo, t0 := s.tick, t1 := s.tick, mrtc0 := m.mrtc, mrtc1 := m.mrtc, par := m.par,
                         body := List.replicate 16 0 }
    (s.setMz (fun m => { m with closed := true, keyGone := true })).mirror

/-- A main-die reset (R344): the open interval closes TRUNCATED, holdings start again from 0, the stream resumes at the oldest
record not read in full. `held` says that VDD_AON stayed in range until the banks were empty. -/
def State.meterReset (s : State) (held : Bool) : State :=
  let s := if s.mz.ready && !s.mz.fault && !s.mz.closed then
      let stop := if held then s.tick + 1 else 256 * (s.mz.beat + 1)
      let s := if held then s else s.setMz (fun m => { m with bankA := {}, bankB := {}, queue := [] })
      let lost (x : MSpan) : MSpan := { x with flags := x.flags ||| bit (!held) }
      let s := s.setMz (fun m =>
        let m := (m.roll s.tick).endInterval (max stop (m.roll s.tick).start) (2 + bit (!held))
        { m with idle := m.idle.map lost, spare := m.spare.map lost })
      s.closeAll
    else s
  s.setMz (fun m => { m.streamReset with
    ready := false, fault := false, idle := [], spare := [], queue := [], ovf := none, units := [], hold := [], unHold := 0,
    doneF := 0, frozen := [], bankA := {}, bankB := {}, inB := false, posted := [], beat := 0 })

/-- A supply stop or a link loss that was not over at the reset is over once the MZ12 is ready: its records are made (R346, R347). -/
def State.crossings (s : State) : State :=
  let st := s.mz.stopped
  let dn := s.mz.down
  let s := s.setMz (fun m => { m with stopped := none, down := none })
  let s := match st with
    | some x => s.eventRec 2 x.2 x.1
    | none => s
  let s := (match dn with
    | some t => s.eventRec 5 0 t
    | none => s).lateRecs
  let s := match st with
    | some x => s.eventRec 3 x.2 s.tick
    | none => s
  (match dn with
    | some _ => s.eventRec 6 0 s.tick
    | none => s).setMz Meter.stampsDone

/-- The MZ12 is ready at start-up step 3 (R323, R328): the boot number rises, interval 0 of the boot starts at TICK 0, BOOT is
recorded and the mirror is filled. The nonce is new when the MZ12 itself has just started (R343), which a main-die reset does not make it
do (R323): the model's MZ12 starts once. -/
def State.meterBoot (s : State) : State :=
  let d := s.crossings.draw 64
  let s := d.2.setMz (fun m => { (if m.closed then m else m.startInterval 0 0) with
    ready := true, boot := (m.boot + 1) % 2 ^ 32, nonce := if m.boot = 0 then d.1 else m.nonce })
  let s := (s.eventRec 1 0 s.tick).mirrorMaps.mirrorCum
  let u := (Config.uid 1).toNat
  let s := (List.range 4).foldl (fun s i => s.wr (Reg.mzUid i) (BitVec.ofNat 32 (u / 2 ^ (32 * i)))) s
  let cert := Config.certificate 1
  let s := (List.range 512).foldl (fun s i => s.wr (Reg.mzCert i) (BitVec.ofNat 32 (leNat (bytesAt cert (4 * i) 4)))) s
  (s.setF Fld.mzCertLenBytes (min cert.length 2048)).mirror

end Sys2Proof.Machine
end

