-- ==== Sys2Proof/Machine/Drop.lean ====
section
/-! DEFINITION. Link down with requests outstanding (03: R74 to R77, R452): how requests and messages of a dropped port end, the
link down itself, and its end. -/

namespace Sys2Proof.Machine

/-! ### vPPB events (R42, R47) -/

/-- Every vPPB bound in force to a downstream port or to an LD of it: (VCS, d). -/
def bindersOf (t : Tbl Word) (lp : Nat) : List (Nat × Nat) :=
  (((listed t (Reg.plotVppb 0 0) 4 2048).map (fun k => (k / 32, k % 32))).filter (fun x =>
    decide (x.2 < 30) && decide (fieldAt t (Fld.plotVppbValid x.1 x.2) = 1 ∧ fieldAt t (Fld.plotVppbLp x.1 x.2) = lp))).map
    (fun x => (x.1, x.2 + 2))

/-- The configuration object of the vPPB at internal device d of a VCS (R41). -/
def vppbObj (vcs d : Nat) : Nat := 0x4000 + 32 * vcs + d

/-- The slot register of a vPPB's configuration space, with the slot status in its upper half (PCIe layout; log 20). -/
def slotReg : Nat := 22

/-- A configuration register's stored word. -/
def State.cfgWord (s : State) (obj reg : Nat) : Word := Tbl.get (fun _ => 0) s.fn.cfg (1024 * obj + reg)

/-- A configuration register's stored word set. -/
def State.setCfgWord (s : State) (obj reg : Nat) (v : Word) : State :=
  { s with fn := { s.fn with cfg := Tbl.set (fun _ => 0) s.fn.cfg (1024 * obj + reg) v } }

/-- The configuration object of the upstream vPPB of a VCS. -/
def upObj (vcs : Nat) : Nat := 0x5000 + vcs

/-- The configuration registers of a VCS's vPPBs take their reset values (PCIe; log 20). -/
def State.vcsCfgReset (s : State) (vcs : Nat) : State :=
  { s with fn := { s.fn with cfg := Tbl.clear (Tbl.clear s.fn.cfg (1024 * vppbObj vcs 0) (1024 * 32)) (1024 * upObj vcs) 1024 } }

/-- A slot status bit set in the vPPB of every VCS bound to a port: bit 3 Presence Detect Changed, bit 8 Data Link Layer State
Changed (R47). -/
def State.slotEvent (s : State) (lp b : Nat) : State :=
  (bindersOf s.regs lp).foldl (fun s x =>
    s.setCfgWord (vppbObj x.1 x.2) slotReg (s.cfgWord (vppbObj x.1 x.2) slotReg ||| BitVec.ofNat 32 (2 ^ (16 + b)))) s

/-! ### How messages and requests of a dropped port end (R74, R452) -/

/-- A request sent or waiting on a dropped port ends by its kind, the device's own reads and writes of memory as well (R74, R78). -/
def State.dropTracker (s : State) (t : Tracker) : State :=
  let s := if t.req.op.isRead then s.dropCount t.lp true
    else if t.req.op.isMemWr then s.dropCount t.lp false else s
  s.endTracker t .ur

/-- A response's request was classified through a function or VCS entry of port `lp`. -/
def Cls.ofPort (c : Cls) (lp : Nat) : Bool :=
  decide (c.fid = 0x1000 + lp ∨ (c.fid < 0x1000 ∧ c.fid / 64 = lp))

/-- A message that waits for a dropped port, or has been granted or has traversed toward it, ends (R74, R452): a response whose
function's or VCS entry's generation the link down advances is gleaned, any other discarded. A CXL.io request of a downstream device
toward an upstream port, for which R74 has no row, ends as toward a downstream port (DESIGN CHOICE, log 39). -/
def State.dropMsg (s : State) (m : Msg) : State :=
  let lp := (m.route.map (·.lp)).getD 64
  match m.route.bind (fun r => r.tracker.bind (fun k => s.tracker? k)) with
  | some t => (s.dropTracker t).delMsg m.id
  | none =>
    let s := s.delMsg m.id
    if m.hdr.op.isResponse then (if m.cls.ofPort lp && decide (s.role lp ≠ 1) then s.glean m.cls else s)
    else if (m.hdr.op.cls = 4 ∨ m.hdr.op = .ioMsg) && !m.made then s.dropCount lp false
    else s

/-- Every request and message that depends on a dropped port, but those on their way, ends: in tick D + 1, and all in one (R74). With
a fatal fault only the requests already sent end here (R77). -/
def State.dropAll (s : State) (lp : Nat) : State :=
  let fatal := s.fatalRules
  let s := s.modLnk lp (fun l => { l with dropDue := false })
  let ts := s.dp.trackers.filter (fun t => decide (t.lp = lp) && !s.trackerOnWay t && (t.sent || !fatal))
  let s := ts.foldl (fun s t => match s.tracker? t.id with
    | some t => s.dropTracker t
    | none => s) s
  let ms := s.dp.msgs.filter (fun m => decide ((m.route.map (·.lp)) = some lp) && !m.onItsWay && !fatal &&
    decide (m.stage = .bid ∨ m.stage = .blocked))
  ms.foldl (fun s m => match s.msg? m.id with
    | some m => s.dropMsg m
    | none => s) s

/-- The requests of ports whose links went down in the last tick end (R74). -/
def State.dropTick (s : State) : State :=
  (s.link.links.filter (fun e => e.2.dropDue)).foldl (fun s e => s.dropAll e.1) s

/-- Both spare pairs of a port's exchange return to standby (R71). -/
def State.spareReset (s : State) (lp : Nat) : State :=
  (s.wr (Reg.portLpSpare lp) 0).modLnk lp (fun l => { l with fails := [], spareDue := [], cmp := none, rxAt := none, txAt := none })

/-- What a downstream vPPB bound to a whole port holds its link in: Hot Reset by Secondary Bus Reset, Disabled by Link Disable (R50; PCIe
places, log 20); none where neither is set. -/
def State.vppbHold (s : State) (lp : Nat) : Option Nat :=
  let vs := (bindersOf s.regs lp).filter (fun x => decide (bindingOf s.regs x.1 x.2 = some (lp, none)))
  if vs.any (fun x => fieldGet (s.cfgWord (vppbObj x.1 x.2) 15) 22 1 = 1) then some 6
  else if vs.any (fun x => fieldGet (s.cfgWord (vppbObj x.1 x.2) 20) 4 1 = 1) then some 7
  else none

/-- LTSSM of a port that is down: Detect, or where a vPPB holds it (R53). -/
def State.restState (s : State) (lp : Nat) : Nat := if s.isRole lp 1 then (s.vppbHold lp).getD 0 else 0

/-- An IDE stream. -/
def State.ide (s : State) (lp : Nat) : Ide := Tbl.get (fun _ => {}) s.link.ide lp

/-- An IDE stream changed. -/
def State.modIde (s : State) (lp : Nat) (f : Ide → Ide) : State :=
  { s with link := { s.link with ide := Tbl.set (fun _ => {}) s.link.ide lp (f (s.ide lp)) } }

/-- Messages that wait for their MAC are discarded (R305, R306): no further flit of the port brings it. -/
def State.dropHeld (s : State) (lp : Nat) : State :=
  let s := s.modIde lp (fun i => { i with macs := [] })
  { s with dp := { s.dp with msgs := s.dp.msgs.filter (fun m => !decide (m.stage = .macHeld ∧ m.inLp = lp)) } }

/-- The link goes down in this tick D (R74): the requests that depended on the port end from the next tick on, the host of an upstream
port is reset and dead, what a fabric port's peer asked for is gleaned in the same way, harrow channels through the port stop, an
endpoint instance on it is reset (R382), and the port is held in Detect while BUSY is 1. -/
def State.linkDown (s : State) (lp : Nat) : State :=
  if !s.dllUp lp then s.setF (Fld.portLpStatLtssm lp) (s.restState lp)
  else
    let s := s.setFs [(Fld.portLpStatDllUp lp, 0), (Fld.portLpStatLtssm lp, s.restState lp), (Fld.portLpStatSpeed lp, 0),
      (Fld.portLpStatWidth lp, 0), (Fld.portLpEvtLinkdown lp, 1), (Fld.portLpDropStatBusy lp, 1)]
    let s := s.modLnk lp (fun l => { l with
      dropAt := some s.tick, dropDue := true, ends := (0, 0), recov := 0, tfl := {}, maxW := none, fec := [], trigDue := false })
    let s := ((s.spareReset lp).slotEvent lp 8).dropHeld lp
    let s := if s.role lp = 0 then (s.resetPort lp).vcsCfgReset lp else if s.role lp = 2 then s.resetEvent (0x1000 + lp) else s
    let s := if s.role lp = 1 then s else s.sweepStart lp false
    let s := (s.harLinkDown lp).refreshPort lp
    let s := match s.instOf lp with
      | some i => s.epResetDue i
      | none => s
    s.fmEvent 2 lp

/-- LINK_DROP_END: the handling, which starts in tick D + 1, finishes, BUSY clears, and the sheaf record of source "link down" is made
(R74, R77). -/
def execLinkDropEnd (lp : Lp) (s : State) : Host.Outcome State Fault Refusal :=
  act s (fun s => match (s.lnk lp.val).dropAt with
    | none => s
    | some d =>
      if (s.lnk lp.val).dropDue then s else
      let e := (s.lnk lp.val).ends
      let s := (s.setF (Fld.portLpDropStatBusy lp.val) 0).modLnk lp.val (fun l => { l with dropAt := none })
      s.raise { src := 0x02, tick := d, lp := some lp.val, d0 := e.1, d1 := e.2 })

/-! ### Suspect pages (R76, R79) -/

/-- A write of SUSPECT_CLR.ONE: the entry selected by SUSPECT_IDX is free (R79). -/
def State.suspectOne (s : State) : State := s.setSuspect (s.getF Fld.portSuspectIdxEntry) none

/-- A write of SUSPECT_CLR.ALL: every entry of a port is free, and the port is not suspect whole (R79). -/
def State.suspectAll (s : State) (lp : Nat) : State :=
  let l := s.link.suspects.filter (fun e => decide (e.2.map (·.2) ≠ some lp))
  (({ s with link := { s.link with suspects := l } }).setF Fld.portSuspectStatCount l.length).setF
    (Fld.portLpDropStatPortSuspect lp) 0

/-- The view follows the selected entry (R79). -/
def State.suspectView (s : State) : State :=
  match s.suspect (s.getF Fld.portSuspectIdxEntry) with
  | some e => (s.wr Reg.portSuspectPgLo (BitVec.ofNat 32 e.1)).setFs [(Fld.portSuspectPgHiPage, e.1 / 2 ^ 32),
      (Fld.portSuspectPgHiLp, e.2), (Fld.portSuspectPgHiValid, 1)]
  | none => (s.wr Reg.portSuspectPgLo 0).wr Reg.portSuspectPgHi 0

/-- SUSPECT_CLR_ONE (R79). -/
def execSuspectClrOne (s : State) : Host.Outcome State Fault Refusal := act s (·.suspectOne)

/-- SUSPECT_CLR_ALL (R79). -/
def execSuspectClrAll (lp : Lp) (s : State) : Host.Outcome State Fault Refusal := act s (·.suspectAll lp.val)

end Sys2Proof.Machine
end

