-- ==== Sys2Proof/Machine/Sched.lean ====
section
/-! DEFINITION. The service scheduler (11): levels, charges, bid lists, and the commit and seed of its tables. -/

namespace Sys2Proof.Machine

/-! ### Levels (R272, R274) -/

/-- Signed value of a level register. -/
def State.level (s : State) (a : Nat) : Int := (s.rd a).toInt

/-- A level as it stands is kept, unless this tick has changed it already: SC_LEVEL and PLOT_LEVEL show it (R286). -/
def State.keepLevel (s : State) (a : Nat) : State :=
  if s.xb.levels.any (fun x => x.1 = a) then s else { s with xb := { s.xb with levels := (a, s.rd a) :: s.xb.levels } }

/-- A level set, saturating at the low end (R272). -/
def State.setLevel (s : State) (a : Nat) (v : Int) : State := (s.keepLevel a).wr a (BitVec.ofInt 32 (max v (-(2 ^ 31 : Int))))

/-- A wire gate's level W. -/
def State.wire (s : State) (e : Nat) : Int := (BitVec.ofNat 16 (s.getF (Fld.schedPortLiveWireWire e))).toInt

/-- A wire gate set, capped at 512 (R274). -/
def State.setWire (s : State) (e : Nat) (v : Int) : State :=
  s.setF (Fld.schedPortLiveWireWire e) (BitVec.ofInt 16 (min v 512)).toNat

/-- A bucket in force: its level's address, RATE, EN and DEPTH. -/
structure Bucket where
  lvl   : Nat
  rate  : Nat
  en    : Bool
  depth : Nat
deriving DecidableEq, Repr

/-- A service context's bucket. -/
def State.scBucket (s : State) (k : Nat) : Bucket :=
  ⟨Reg.schedScLevel k, s.getF (Fld.schedScW0Rate k), decide (s.getF (Fld.schedScW0En k) = 1), s.getF (Fld.schedScW1Depth k)⟩

/-- A plot's bucket. -/
def State.plotBucket (s : State) (p : Nat) : Bucket :=
  ⟨Reg.schedPlotLevel p, s.getF (Fld.schedPlotW0Rate p), decide (s.getF (Fld.schedPlotW0En p) = 1), s.getF (Fld.schedPlotW1Depth p)⟩

/-- An egress port's bucket. -/
def State.portBucket (s : State) (e : Nat) : Bucket :=
  ⟨Reg.schedPortLiveLevel e, s.getF (Fld.schedPortW0Rate e), decide (s.getF (Fld.schedPortW0En e) = 1), s.getF (Fld.schedPortW1Depth e)⟩

/-- A bucket does not hold: disabled, or its level is above 0 (R272, R273). -/
def State.allows (s : State) (b : Bucket) : Bool := !b.en || decide (0 < s.level b.lvl)

/-- A bucket charged (or given back, for a negative amount). -/
def State.chargeBucket (s : State) (b : Bucket) (n : Int) : State := if b.en then s.setLevel b.lvl (s.level b.lvl - n) else s

/-- An enabled bucket's level set to DEPTH; a disabled one reads 0 (R272, R280). -/
def State.fillLevel (s : State) (b : Bucket) : State := if b.en then s.setLevel b.lvl (b.depth : Int) else s

/-- The refill of a bucket at phase 0 (R272). -/
def State.refill (s : State) (b : Bucket) : State :=
  if b.en && decide (s.level b.lvl < (b.depth : Int)) then
    s.setLevel b.lvl (min (s.level b.lvl + (b.rate : Int)) (b.depth : Int))
  else s

/-- Service contexts, plots and ports with a listed entry in force. -/
def State.schedListed (s : State) : List Nat × List Nat × List Nat :=
  (listed s.regs (Reg.schedScW0 0) 8 16384, listed s.regs (Reg.schedPlotW0 0) 8 4096, listed s.regs (Reg.schedPortW0 0) 0x20 64)

/-- Every bucket refilled (R272); after a fatal fault levels keep their values (R251, R280). -/
def State.refillAll (s : State) : State :=
  if s.getF Fld.faultStatFatal = 1 then s else
  let l := s.schedListed
  let s := l.1.foldl (fun s k => s.refill (s.scBucket k)) s
  let s := l.2.1.foldl (fun s k => s.refill (s.plotBucket k)) s
  l.2.2.foldl (fun s k => s.refill (s.portBucket k)) s

/-! ### What a message is charged (R270, R271) -/

/-- Data a read asks for (R271). -/
def Hdr.askedFor (h : Hdr) : Nat := if h.op.isRead then h.size else 0

/-- The service context in force for a message's function or VCS entry (R103, R107); responses take none. -/
def Msg.hasSc (m : Msg) : Bool := !m.made && decide (m.cls.path = .program) && decide (m.cls.fid < 0x1040)

/-- Rank of a message. -/
def Msg.rank (m : Msg) : Nat := (m.route.map (·.rank)).getD 1

/-- Egress logical port of a message. -/
def Msg.out (m : Msg) : Nat := (m.route.map (·.lp)).getD 64

/-- A rank 1 message whose service context is in reserved mode (R270). -/
def State.reserved (s : State) (m : Msg) : Bool :=
  decide (m.rank = 1) && m.hasSc && decide (s.getF (Fld.schedScW0Mode m.cls.sc) = 1)

/-- Counted length of a message at an egress port (R271). -/
def State.counted (s : State) (m : Msg) : Nat := m.hdr.flitLen + m.hdr.askedFor + s.getF (Fld.schedPortW2Ovh m.out)

/-- Every level that holds a message is above 0 (R270, R273). -/
def State.levelsOpen (s : State) (m : Msg) : Bool :=
  decide (0 < s.wire m.out) &&
  (if m.rank = 1 && m.hasSc then
    s.allows (s.scBucket m.cls.sc) &&
    (s.reserved m || (s.allows (s.plotBucket m.cls.plot) && s.allows (s.portBucket m.out)))
  else true)

/-- The charges of a message, `sign` 1 to charge and −1 to give back (R273). -/
def State.charge (s : State) (m : Msg) (sign : Int) : State :=
  let s := if m.rank = 1 && m.hasSc then
      let n := sign * (s.counted m : Int)
      ((s.chargeBucket (s.scBucket m.cls.sc) n).chargeBucket (s.plotBucket m.cls.plot) n).chargeBucket (s.portBucket m.out) n
    else s
  s.setWire m.out (s.wire m.out - sign * (m.hdr.flitLen : Int))

/-! ### Candidates (R247, R275, R276) -/

/-- The stream of a port is not Secure while the port requires it (R307). -/
def State.idePlain (s : State) (lp : Nat) : Bool :=
  decide (s.getF (Fld.securityIdeCtlRequire lp) = 1 ∧ s.getF (Fld.securityIdeStatState lp) ≠ 1)

/-- Kinds that a fatal fault's reaction still lets through (R251): the completions R402 makes and BIConflictAck, which the device
makes, and completions of writes. -/
def Msg.afterFatal (m : Msg) : Bool :=
  decide (m.rank = 2) && (decide (m.hdr.op = .biConflictAck) || (m.hdr.op.isResponse && (m.made || m.hdr.data.isEmpty)))

/-- The link layer of a port takes more content: fewer flits than its window are unacknowledged (R57, R62). -/
def State.windowOpen (s : State) (lp : Nat) : Bool :=
  let t := (Tbl.get (fun _ => ({} : Link)) s.link.links lp).tfl
  if s.role lp = 2 then decide ((t.n + 4096 - t.a) % 4096 + (t.pend + 235) / 236 < 1024)
  else decide ((t.n + 1024 - t.a) % 1024 + (t.pend + 235) / 236 < 384)

/-- The port holds credit for `units` of the message's class beyond what the tick's placed messages of the class take (R66, R247). -/
def State.creditFor (s : State) (m : Msg) (units : Nat) : Bool :=
  let ahead := ((s.dp.msgs.filter (fun x => s.dp.bids.contains x.id && decide (x.out = m.out) &&
    decide (x.hdr.op.credit = m.hdr.op.credit))).map (fun x => x.hdr.units)).sum
  let c := s.credit m.out m.hdr.op.credit
  let n := s.unitsAhead m.out m.hdr.op.credit + ahead + units
  c.first && decide ((c.limit - (c.cons + BitVec.ofNat 32 n)).toNat < 2 ^ 31)

/-- The port holds credit for the message beyond what the tick's placed messages take. -/
def State.creditBeyond (s : State) (m : Msg) : Bool := s.creditFor m m.hdr.units

/-- A message's number in order of arrival: a second issue arrived with its first (R26, R275). -/
def Msg.order (m : Msg) : Nat := m.first.getD m.id

/-- A message that the egress port could take: in L0, with credit and link window, every message it must follow gone, and not
held behind a merge of its line (R66, R232, R247, R307, R309). -/
def State.mayBid (s : State) (m : Msg) : Bool :=
  decide (m.stage = .bid) && decide (m.firstBid ≤ s.tick) && s.inL0 m.out && s.windowOpen m.out && s.creditBeyond m &&
  (!s.idePlain m.out || m.hdr.op.isResponse) &&
  (decide (s.getF Fld.faultStatFatal = 0) || m.afterFatal) &&
  !(((m.route.map (·.after)).getD []).any (fun k => (s.msg? k).isSome)) &&
  !(s.dp.msgs.any (fun x => decide (x.order < m.order ∧ x.inLp = m.inLp) && ((x.route.map (·.merging)).getD false) &&
    match x.route.bind (·.pool), m.route.bind (·.pool) with
    | some a, some b => decide (a / 64 ≤ (b + max 1 m.hdr.size - 1) / 64 ∧ b / 64 ≤ (a + max 1 x.hdr.data.length - 1) / 64)
    | _, _ => false))

/-- An older message of the same path and class, IO_P or IO_CPL, is not placed (R276). -/
def State.mustFollow (s : State) (m : Msg) : Bool :=
  (decide (m.hdr.op.credit = 0 ∨ m.hdr.op.credit = 2)) &&
  s.dp.msgs.any (fun x => decide (x.order < m.order ∧ x.inLp = m.inLp ∧ x.out = m.out ∧ x.hdr.op.credit = m.hdr.op.credit ∧
    x.stage = .bid) && decide (x.made = m.made) && !s.dp.bids.contains x.id)

/-- Order keys of a candidate (R275): reserved first, then first bid, then ingress port, then arrival. -/
def State.bidKeys (s : State) (m : Msg) : List Nat := [bit (!s.reserved m), m.firstBid, m.inLp, m.order]

/-- Insert a candidate after those that do not come after it. -/
def insertBid (keys : Msg → List Nat) (m : Msg) : List Msg → List Msg
  | [] => [m]
  | x :: xs => if keysLt (keys m) (keys x) then m :: x :: xs else x :: insertBid keys m xs

/-- Place one candidate unless a level or its order holds it; the first tick its own level holds a reserved one adds to SELF
(R273, R276, R277). -/
def State.place (s : State) (m : Msg) : State :=
  if !s.mayBid m then s
  else if s.reserved m && !s.allows (s.scBucket m.cls.sc) then
    s.when (!m.self) (fun s => (s.bump (Fld.schedPortLive3Self m.out)).modMsg m.id (fun x => { x with self := true }))
  else if s.mustFollow m || !s.levelsOpen m then s
  else
    let s := s.charge m 1
    { s with dp := { s.dp with bids := s.dp.bids ++ [m.id] } }

/-- The first tick of a locked burst is one bid: its lines are placed together, with credit for the whole burst, or not at all (R246,
R264; DEDUCED, log 55). -/
def State.placeLocked (s : State) (h : HarrowCh) : State :=
  let lines := h.burst.filterMap s.msg?
  match lines with
  | [] => s
  | m :: _ =>
    if (lines.take 4).all s.mayBid && s.creditFor m (lines.map (·.hdr.units)).sum && s.levelsOpen m then
      (lines.take 4).foldl (fun s m => let t := s.charge m 1; { t with dp := { t.dp with bids := t.dp.bids ++ [m.id] } }) s
    else s

/-- Place one candidate of rank 0: a read, or a line of a burst's next tick; a locked burst bids with its first tick alone (R246, R264). -/
def State.placeHar (s : State) (m : Msg) : State :=
  match s.burstPlace m with
  | none => s.place m
  | some (h, k) =>
    if h.locked then (if !h.started && decide (k = 0) then s.placeLocked h else s)
    else if k < 4 then s.place m else s

/-- One rank's pass for one egress port. -/
def State.placePort (s : State) (r e : Nat) : State :=
  ((s.dp.msgs.filter (fun m => decide (m.stage = .bid ∧ m.rank = r ∧ m.out = e))).foldl
    (fun acc m => insertBid s.bidKeys m acc) []).foldl (fun s m => if r = 0 then s.placeHar m else s.place m) s

/-- The pointer of a rank. -/
def ptrFd (r : Nat) : Fd := if r = 2 then Fld.xbarPtrPtr2 else if r = 1 then Fld.xbarPtrPtr1 else Fld.xbarPtrPtr0

/-- Egress logical ports from a rank's pointer upward (R248). -/
def State.walk (s : State) (r : Nat) : List Nat := (List.range 64).map (fun i => (s.getF (ptrFd r) + i) % 64)

/-- Reserved messages whose own level is above 0 as the tick starts, or has no bucket (R277). -/
def State.rsvAbove (s : State) : List Nat :=
  (s.dp.msgs.filter (fun m => decide (m.stage = .bid) && s.reserved m && s.allows (s.scBucket m.cls.sc))).map (·.id)

/-- BID_LIST_BUILD: the passes of ranks 2, 1 and 0; then bursts that are gathered come to bid from the next tick (R264, R275). -/
def execBidListBuild (s : State) : Host.Outcome State Fault Refusal :=
  act s (fun s =>
    let s := s.dp.bids.foldl (fun s i => match s.msg? i with
      | some m => s.charge m (-1)
      | none => s) s
    let s := { s with dp := { s.dp with bids := [], qin := [], rsvUp := s.rsvAbove } }
    let s := (s.walk 2).foldl (fun s e => s.placePort 2 e) s
    let s := (s.walk 1).foldl (fun s e => s.placePort 1 e) s
    let s := (s.walk 0).foldl (fun s e => s.placePort 0 e) s
    (List.range 4).foldl (fun s c => s.harGather c) s)

/-! ### Commit and seed of the tables (R278, R284) -/

/-- The first entry of the load copy with EN 1 and DEPTH 0: (KIND, INDEX). -/
def State.schedViol (s : State) : Option (Nat × Nat) :=
  let bad (k base stride count : Nat) := ((listed s.regs base stride count).filter (fun i =>
    decide (s.getF ⟨base + stride * i, 24, 1⟩ = 1 ∧ s.getF ⟨base + stride * i + 4, 0, 24⟩ = 0))).map (fun i => (k, i))
  (bad 0 (Reg.schedScW0Load 0) 8 16384 ++ bad 1 (Reg.schedPlotW0Load 0) 8 4096 ++ bad 2 (Reg.schedPortW0Load 0) 0x20 64).head?

/-- A write of SCHED.COMMIT.GO (R278). -/
def State.schedCommit (s : State) : State :=
  if s.getF Fld.schedCommitStatPending = 1 then s.setFs [(Fld.schedCommitStatRefused, 1), (Fld.schedCommitStatCause, 1)]
  else match s.schedViol with
    | some v => s.setFs [(Fld.schedCommitStatRefused, 1), (Fld.schedCommitStatCause, 2), (Fld.schedCommitStatKind, v.1),
        (Fld.schedCommitStatIndex, v.2)]
    | none => s.acceptCommit .sched Fld.schedCommitStatPending Reg.schedCommitTickLo Reg.schedCommitTickHi
        Reg.schedCommitFurlongLo Reg.schedCommitFurlongHi

/-- SCHED_COMMIT (R278). -/
def execSchedCommit (s : State) : Host.Outcome State Fault Refusal := act s (·.schedCommit)

/-- The shaper tables: (load base, in-force base, bytes). -/
def schedTables : List (Nat × Nat × Nat) :=
  [(Reg.schedScW0Load 0, Reg.schedScW0 0, 0x20000), (Reg.schedPlotW0Load 0, Reg.schedPlotW0 0, 0x8000),
   (Reg.schedPortW0Load 0, Reg.schedPortW0 0, 0x800)]

/-- A write of SCHED.COPY_CTL.SEED: ignored while a commit is pending (R284). -/
def State.schedSeed (s : State) : State :=
  if s.getF Fld.schedCommitStatPending = 1 then s else s.setF Fld.schedCopyCtlBusy 1

/-- SCHED_SEED (R284). -/
def execSchedSeed (s : State) : Host.Outcome State Fault Refusal := act s (·.schedSeed)

/-- The seed of the shaper tables ends: it copies nothing over a load copy whose commit is pending (R20; DESIGN CHOICE, log 81). -/
def State.schedSeedDone (s : State) : State :=
  if s.getF Fld.schedCopyCtlBusy = 0 then s
  else
    let s := if s.getF Fld.schedCommitStatPending = 1 then s else s.copyTables (schedTables.map (fun x => (x.2.1, x.1, x.2.2)))
    s.setF Fld.schedCopyCtlBusy 0

/-- SCHED_SEED_DONE (R284). -/
def execSchedSeedDone (s : State) : Host.Outcome State Fault Refusal := act s (·.schedSeedDone)

/-- A bucket's level at a boundary, by EN before and after (R279). -/
def State.levelAt (s : State) (b : Bucket) (was : Bool) : State :=
  if was && b.en then s else if b.en then s.setLevel b.lvl (b.depth : Int) else s.setLevel b.lvl 0

/-- The boundary of a shaper commit (R279). -/
def State.schedSwitch (s : State) : State :=
  let old := s
  let s := s.copyTables schedTables
  let a := old.schedListed
  let b := s.schedListed
  let s := (a.1 ++ b.1).eraseDups.foldl (fun s k => s.levelAt (s.scBucket k) (old.scBucket k).en) s
  let s := (a.2.1 ++ b.2.1).eraseDups.foldl (fun s k => s.levelAt (s.plotBucket k) (old.plotBucket k).en) s
  let s := (a.2.2 ++ b.2.2).eraseDups.foldl (fun s k => s.levelAt (s.portBucket k) (old.portBucket k).en) s
  s.setF Fld.schedCommitStatPending 0

/-! ### BUFFER.LIMIT (R256) -/

/-- The sum of the load copy's limits. -/
def State.limitSum (s : State) : Nat :=
  ((List.range 64).flatMap (fun l => (List.range 7).map (fun k => s.getF (Fld.bufferLimitLoadCells l k)))).sum

/-- A write of BUFFER.COMMIT.GO (R256). -/
def State.bufferCommit (s : State) : State :=
  if s.getF Fld.bufferCommitStatPending = 1 then s.setFs [(Fld.bufferCommitStatRefused, 1), (Fld.bufferCommitStatCause, 1)]
  else if 388096 < s.limitSum then s.setFs [(Fld.bufferCommitStatRefused, 1), (Fld.bufferCommitStatCause, 2)]
  else s.acceptCommit .buffer Fld.bufferCommitStatPending Reg.bufferCommitTickLo Reg.bufferCommitTickHi
    Reg.bufferCommitFurlongLo Reg.bufferCommitFurlongHi

/-- BUFFER_COMMIT (R256). -/
def execBufferCommit (s : State) : Host.Outcome State Fault Refusal := act s (·.bufferCommit)

/-- The boundary of a limit commit. -/
def State.bufferSwitch (s : State) : State :=
  (s.copyTables [(Reg.bufferLimitLoad 0 0, Reg.bufferLimit 0 0, 0x800)]).setF Fld.bufferCommitStatPending 0

end Sys2Proof.Machine
end

