-- ==== Sys2Proof/Machine/Link.lean ====
section
/-! DEFINITION. Links (03): acknowledgement, replay, cumulative credits, Recovery, the link items a fabric port sends, and lane
sparing. -/

namespace Sys2Proof.Machine

/-! ### Acknowledgement and replay (R57, R62, R64) -/

/-- Sequence numbers of a port: 4,096 on TFL, 1,024 in standard flit mode (R57, R62). -/
def State.seqMod (s : State) (lp : Nat) : Nat := if s.role lp = 2 then 4096 else 1024

/-- A port's link-layer state changed. -/
def State.modTfl (s : State) (lp : Nat) (f : Tfl → Tfl) : State := s.modLnk lp (fun l => { l with tfl := f l.tfl })

/-- Flits sent and not acknowledged. -/
def State.unacked (s : State) (lp : Nat) : Nat :=
  let m := s.seqMod lp
  let t := (s.lnk lp).tfl
  (t.n + m - t.a % m) % m

/-- A link item that a rule forbids is counted (R60, R64, R66). -/
def State.badLink (s : State) (lp : Nat) : State := s.bump (Fld.portLpCrcCntBadlink lp)

/-- A moves on to `a`: the entries before it are free (R64). -/
def Tfl.advance (t : Tfl) (m a now : Nat) : Tfl :=
  if t.a = a then t
  else
    let gone := (a + m - t.a) % m
    let left := t.replay.bind (fun r => if (r + m - t.a) % m < gone then (if a = t.n then none else some a) else some r)
    { t with a := a, tries := 0, stall := now, replay := left }

/-- An ACK (R64). -/
def State.tflAck (s : State) (lp q : Nat) : State :=
  let m := s.seqMod lp
  let t := (s.lnk lp).tfl
  if (q + m - t.a % m) % m < s.unacked lp then s.modTfl lp (fun t => t.advance m ((q + 1) % m) s.tick) else s.badLink lp

/-- TFL_ACK (R64; on a standard port it stands for the acknowledgement of PCIe 6.x: log 12). -/
def execTflAck (lp : Lp) (q : Fin 4096) (s : State) : Host.Outcome State Fault Refusal :=
  act s (·.when (s.inL0 lp.val) (·.tflAck lp.val q.val))

/-- Every kept flit from A on is sent again (R64). -/
def State.resend (s : State) (lp : Nat) : State :=
  let a := (s.lnk lp).tfl.a
  ((s.modTfl lp (fun t => { t with replay := some a, tries := t.tries + 1 })).bump (Fld.portLpReplayCntReplay lp)).emit (.resend lp a)

/-- A cumulative count of a class (R66). -/
def State.tflCredit (s : State) (lp k : Nat) (v : Word) : State :=
  let c := s.credit lp k
  if 2 ^ 31 ≤ (v - c.limit).toNat then s
  else if 2 ^ 24 < (v - c.cons).toNat then (s.badLink lp).linkDown lp
  else s.setCredit lp k { c with limit := v, first := true }

/-- TFL_CREDIT (R66; on a standard port it stands for the credit forms of PCIe 6.x and CXL 3.1: log 12). -/
def execTflCredit (lp : Lp) (cls : Fin 7) (v : Word) (s : State) : Host.Outcome State Fault Refusal :=
  act s (·.when (s.inL0 lp.val) (·.tflCredit lp.val cls.val v))

/-! ### Recovery (R58) -/

/-- The link enters Recovery; too many in a row take it down (R58). -/
def State.enterRecovery (s : State) (lp : Nat) : State :=
  if !s.inL0 lp then s
  else
    let s := s.setFs [(Fld.portLpStatLtssm lp, 5), (Fld.portLpStatSpeed lp, 0), (Fld.portLpStatWidth lp, 0)]
    let s := (s.bump (Fld.portLpReplayCntRecov lp)).modLnk lp (fun l => { l with recov := l.recov + 1 })
    if max 1 (s.getF (Fld.portLpRelCtlRecovMax lp)) ≤ (s.lnk lp).recov then s.linkDown lp else s

/-- A sparing exchange is in progress on a port. -/
def State.sparing (s : State) (lp : Nat) : Bool :=
  [Fld.portLpSpareS0Rx lp, Fld.portLpSpareS0Tx lp, Fld.portLpSpareS1Rx lp, Fld.portLpSpareS1Tx lp].any (fun f => s.getF f = 1)

/-- The replay timeout of a port in ticks (R64, R78). -/
def State.replayTmo (s : State) (lp : Nat) : Nat :=
  if s.getF (Fld.portLpRelCtlReplayTmo lp) = 0 then 0x200 else s.getF (Fld.portLpRelCtlReplayTmo lp)

/-- The kept flits are due to be sent again from A: nothing where none is kept; after four resends from the same A without progress
the link goes to Recovery instead, unless a sparing exchange runs (R64). -/
def State.escalate (s : State) (lp : Nat) : State :=
  if s.unacked lp = 0 then s
  else if (s.lnk lp).tfl.tries < 4 || s.sparing lp then s.resend lp
  else (s.modTfl lp (fun t => { t with tries := 0, stall := s.tick })).enterRecovery lp

/-- A NAK (R64): A moves on to the number that it asks for, and the kept flits are sent again. -/
def State.tflNak (s : State) (lp e : Nat) : State :=
  let m := s.seqMod lp
  let t := (s.lnk lp).tfl
  if (e + m - t.a % m) % m ≤ s.unacked lp then (s.modTfl lp (fun t => t.advance m (e % m) s.tick)).escalate lp
  else s.badLink lp

/-- TFL_NAK (R64; log 12). -/
def execTflNak (lp : Lp) (e : Fin 4096) (s : State) : Host.Outcome State Fault Refusal :=
  act s (·.when (s.inL0 lp.val) (·.tflNak lp.val e.val))

/-- REPLAY_TIMEOUT: A has not advanced for REPLAY_TMO ticks; the transmitter resends from A (R64), and the timeout runs anew. -/
def execReplayTimeout (lp : Lp) (s : State) : Host.Outcome State Fault Refusal :=
  act s (fun s =>
    let t := (s.lnk lp.val).tfl
    if s.inL0 lp.val && decide (0 < s.unacked lp.val ∧ t.stall + s.replayTmo lp.val ≤ s.tick) then
      (s.modTfl lp.val (fun t => { t with stall := s.tick })).escalate lp.val
    else s)

/-! ### What a port sends in a flit slot (R61, R62, R67) -/

/-- The receive buffer's share of a class in credit units of 16 bytes: IO_P, IO_NP, IO_CPL, MEM_REQ, MEM_RSP, BI_SNP, BI_RSP
(R257). -/
def rxShare (k : Nat) : Nat := ([256, 128, 384, 1536, 1536, 128, 128][k]?).getD 0

/-- Units a port has ever made available in a class: its share of the receive buffer, and every unit freed since (R67, R257). -/
def State.rxTotal (s : State) (lp k : Nat) : Word :=
  let share := if s.shape (lp / 2) = 1 then rxShare k / 2 else if s.shape (lp / 2) = 2 then rxShare k * 2 else rxShare k
  BitVec.ofNat 32 share + Tbl.get (fun _ => 0) s.link.rxCnt (8 * lp + k)

/-- A class whose count has changed since it was last sent; its count before the first sending is none (R61). -/
def State.adChanged (s : State) (lp k : Nat) : Bool :=
  let x := Tbl.get (fun _ => ((0, 0) : Nat × Nat)) (s.lnk lp).tfl.adv k
  decide (x.2 = 0 ∨ x.1 ≠ (s.rxTotal lp k).toNat)

/-- A class not sent in the last 64 flits. -/
def State.adOld (s : State) (lp k : Nat) : Bool :=
  let t := (s.lnk lp).tfl
  decide ((Tbl.get (fun _ => ((0, 0) : Nat × Nat)) t.adv k).2 + 64 ≤ t.flits)

/-- The first credit class in rotation that meets a condition. -/
def State.adPick (s : State) (lp : Nat) (p : Nat → Bool) : Option Nat :=
  ((List.range 7).map (fun i => ((s.lnk lp).rotate + 1 + i) % 7)).find? p

/-- The item of a flit: KIND and BODY, with the link's state after it (R61). -/
def State.linkItem (s : State) (lp : Nat) : State × Nat × Nat :=
  let l := s.lnk lp
  let t := l.tfl
  let ack := (s.modTfl lp (fun t => { t with ackFrom := none, ackDue := false }), 0, 1 + ((t.e + 4095) % 4096) * 16)
  let credit (k : Nat) :=
    let v := (s.rxTotal lp k).toNat
    (s.modLnk lp (fun l => { l with
      rotate := k,
      tfl := { l.tfl with adv := Tbl.set (fun _ => ((0, 0) : Nat × Nat)) l.tfl.adv k (v, l.tfl.flits + 1) } }), k + 1, v)
  if t.nakDue then (s.modTfl lp (fun t => { t with nakDue := false, nak := some s.tick }), 0, 2 + t.e * 16)
  else match l.spareDue with
    | x :: rest => (s.modLnk lp (fun l => { l with spareDue := rest }), 0, x.1 + x.2 * 65536)
    | [] =>
      if t.ackDue || (match t.ackFrom with | some f => decide (f + 8 ≤ s.tick) | none => false) then ack
      else match s.adPick lp (s.adChanged lp) with
        | some k => credit k
        | none => match s.adPick lp (s.adOld lp) with
          | some k => credit k
          | none => if t.ackFrom.isSome then ack else (s, 0, 0)

/-- What the data-link bytes of a standard port's flit carry beside what PCIe 6.x defines: a replay request that is due (R54), or the
receive space of a class whose total has changed (R257). -/
def State.standardItem (s : State) (lp : Nat) : State :=
  if (s.lnk lp).tfl.nakDue then (s.modTfl lp (fun t => { t with nakDue := false })).emit (.replay lp)
  else match s.adPick lp (s.adChanged lp) with
    | none => s
    | some k =>
      let v := (s.rxTotal lp k).toNat
      (s.modLnk lp (fun l => { l with
        rotate := k,
        tfl := { l.tfl with adv := Tbl.set (fun _ => ((0, 0) : Nat × Nat)) l.tfl.adv k (v, l.tfl.flits + 1) } })).emit (.credit lp k v)

/-- The sequence number of the next flit, and whether it uses it: a kept flit to resend goes first; then content, while the window lets
it; an empty flit otherwise, which names the next number to assign (R57, R59, R62). -/
def State.nextSeq (s : State) (lp : Nat) : Nat × Bool :=
  let t := (s.lnk lp).tfl
  match t.replay with
  | some r => (r, true)
  | none => (t.n, decide (0 < t.pend ∧ s.unacked lp < (if s.role lp = 2 then 1024 else 384)))

/-- Flits of a containment epoch as IDE_CTL.EPOCH gives it (R319). -/
def State.epochLen (s : State) (lp : Nat) : Nat := max 1 (min 8 (s.getF (Fld.securityIdeCtlEpoch lp)))

/-- A flit slot that the device sends in containment mode: the epoch's last flit carries its MAC; so does the next flit once two slots
in a row had no content (R305). -/
def State.macSlot (s : State) (lp : Nat) (content : Bool) : State :=
  let i := s.ide lp
  if s.getF (Fld.securityIdeStatState lp) ≠ 1 ∨ i.contain = false then s
  else if 0 < i.sent ∧ 2 ≤ i.quiet then (s.emit (.mac lp)).modIde lp (fun i => { i with sent := bit content, quiet := 0 })
  else if content then
    if s.epochLen lp ≤ i.sent + 1 then (s.emit (.mac lp)).modIde lp (fun i => { i with sent := 0, quiet := 0 })
    else s.modIde lp (fun i => { i with sent := i.sent + 1, quiet := 0 })
  else s.modIde lp (fun i => { i with quiet := if 0 < i.sent then i.quiet + 1 else 0 })

/-- One flit slot of a port: the flit's link item and its content (R57, R59, R61, R62). -/
def State.flitSlot (s : State) (lp : Nat) : State :=
  let m := s.seqMod lp
  let q := s.nextSeq lp
  let s := if s.role lp = 2 then (let x := s.linkItem lp; x.1.emit (.link lp q.1 q.2 x.2.1 x.2.2)) else s.standardItem lp
  let s := if ((s.lnk lp).tfl.replay).isSome then s else s.macSlot lp q.2
  s.modTfl lp (fun t =>
    let t := { t with flits := t.flits + 1 }
    match t.replay with
    | some r => { t with replay := if (r + 1) % m = t.n then none else some ((r + 1) % m) }
    | none =>
      if q.2 then
        { t with n := (t.n + 1) % m, pend := t.pend - min t.pend 236, stall := if t.a = t.n then s.tick else t.stall }
      else t)

/-- Lane rate code in units of half a gigatransfer: 5 for 2.5 GT/s to 128 for 64 GT/s. -/
def halfGts (code : Nat) : Nat := ([0, 5, 10, 16, 32, 64, 128][code]?).getD 0

/-- The flit slots of a tick: at x8 and 64 GT/s one; each slot gives the wire gate 236 bytes (R13, R274). -/
def State.linkTick (s : State) (lp : Nat) : State :=
  if !s.inL0 lp then s
  else
    let run := (s.lnk lp).slots + s.getF (Fld.portLpStatWidth lp) * halfGts (s.getF (Fld.portLpStatSpeed lp))
    let n := run / 1024
    let s := s.modLnk lp (fun l => { l with slots := run % 1024 })
    let s := s.modTfl lp (fun t => match t.nak with
      | some k => if k + 64 ≤ s.tick then { t with nakDue := true } else t
      | none => t)
    let held := min n (((s.lnk lp).tfl.replay.map (fun r => ((s.lnk lp).tfl.n + s.seqMod lp - r) % s.seqMod lp)).getD 0)
    let s := (List.range n).foldl (fun s _ => s.flitSlot lp) s
    if n = 0 then s else s.setWire lp (s.wire lp + 236 * ((n - held : Nat) : Int))

/-! ### Lane sparing (R68 to R73) -/

/-- The fields of the spare that serves a lane: receive pair and its lane, transmit pair and its lane (R33). -/
def spareFds (lp lane : Nat) : (Fd × Fd) × (Fd × Fd) :=
  if lane < 8 then
    ((Fld.portLpSpareS0Rx lp, Fld.portLpSpareS0RxLane lp), (Fld.portLpSpareS0Tx lp, Fld.portLpSpareS0TxLane lp))
  else ((Fld.portLpSpareS1Rx lp, Fld.portLpSpareS1RxLane lp), (Fld.portLpSpareS1Tx lp, Fld.portLpSpareS1TxLane lp))

/-- A pair code that leaves the pair in standby: standby, or aborted (R71). -/
def inStandby (v : Nat) : Bool := decide (v = 0 ∨ v = 3)

/-- The other half of a split port. -/
def otherHalf (lp : Nat) : Nat := if lp % 2 = 0 then lp + 1 else lp - 1

/-- The spare pair is in standby, in the other half of a split port too (R69). -/
def State.spareFree (s : State) (lp : Nat) (f : Nat → Fd) : Bool :=
  inStandby (s.getF (f lp)) && (decide (s.shape (lp / 2) ≠ 1) || inStandby (s.getF (f (otherHalf lp))))

/-- The partner takes part in sparing: every fabric port, and a standard partner that has announced it (R72). -/
def State.sparePartner (s : State) (lp : Nat) : Bool := decide (s.role lp = 2) || (s.lnk lp).partner

/-- A sparing item is due: in a link field on TFL, in a vendor-specific DLLP on a standard link (R61, R72). -/
def State.spareItem (s : State) (lp sub lane : Nat) : State :=
  if s.role lp = 2 then s.modLnk lp (fun l => { l with spareDue := l.spareDue ++ [(sub, lane)] }) else s.emit (.dllp lp sub lane)

/-- The upper half of a split port started an exchange on the pair in this tick, and gives it up to LP(2n), which finds a lane failing in
the same tick (R69). -/
def State.yields (s : State) (lp : Nat) (f : Nat → Fd) (start : Link → Option Nat) : Bool :=
  decide (s.shape (lp / 2) = 1 ∧ lp % 2 = 0) && decide (s.getF (f (otherHalf lp)) = 1 ∧ start (s.lnk (otherHalf lp)) = some s.tick)

/-- The next narrower width (R73). -/
def narrower (w : Nat) : Nat := if w = 16 then 8 else w / 2

/-- The narrowest width a port accepts (R52). -/
def State.minWidth (s : State) (lp : Nat) : Nat :=
  let full := shapeWidth (s.shape (lp / 2))
  let v := s.getF (Fld.portLpTrainMinWidth lp)
  if [1, 2, 4, 8, 16].contains v && decide (v ≤ full) then v else full

/-- A failing lane that no spare replaces: Recovery, and a width without it, or Detect (R73). -/
def State.retrainNarrow (s : State) (lp : Nat) : State :=
  let w := narrower (s.lnk lp).width
  if w < s.minWidth lp then (s.linkDown lp).setF (Fld.portLpEvtNarrow lp) 1
  else (s.modLnk lp (fun l => { l with maxW := some w })).enterRecovery lp

/-- The half of a split port that started in the same tick as LP(2n) gives the receive pair up, and handles its lane without a spare
(R69, R73). -/
def State.yieldRx (s : State) (lp : Nat) (f : Nat → Fd) : State :=
  if s.yields lp f Link.rxAt then
    let o := otherHalf lp
    ((s.setF (f o) 0).modLnk o (fun l => { l with spareDue := l.spareDue.filter (fun x => x.1 ≠ 3), rxAt := none })).retrainNarrow o
  else s

/-- A receive lane is failing: sparing starts when R68 lets it, else the link retrains narrower (R68, R69, R73). A lane whose
exchange already runs is not found again. -/
def State.laneFailing (s : State) (lp lane : Nat) : State :=
  let f := (spareFds lp lane).1
  let pair (l : Nat) := (spareFds l lane).1.1
  if !s.inL0 lp || decide ((s.lnk lp).width ≤ lane) || decide (s.getF f.1 = 1 ∧ s.getF f.2 = lane) then s
  else if decide (s.getF (Fld.portLpRelCtlSpareEn lp) = 1) &&
      (s.spareFree lp pair || (inStandby (s.getF f.1) && s.yields lp pair Link.rxAt)) &&
      decide (s.getF (Fld.portLpStatLtssm lp) = 3) && s.sparePartner lp then
    (((s.yieldRx lp pair).setFs [(f.1, 1), (f.2, lane)]).modLnk lp (fun l => { l with
      cmp := none, rxAt := some s.tick,
      fails := Tbl.set (fun _ => 0) l.fails lane 0 })).spareItem lp 3 lane
  else s.retrainNarrow lp

/-- LANE_FAILING (R68). -/
def execLaneFailing (lp : Lp) (lane : Fin 16) (s : State) : Host.Outcome State Fault Refusal :=
  act s (·.laneFailing lp.val lane.val)

/-- A write of LP_SPARE_CMD: LANE is latched, and GO treats the lane as failing (R68, R78). -/
def State.spareCmd (s : State) (lp lane : Nat) : State := s.laneFailing lp lane

/-- SPARE_CMD (R68). -/
def execSpareCmd (lp : Lp) (lane : Fin 16) (s : State) : Host.Outcome State Fault Refusal :=
  act s (·.spareCmd lp.val lane.val)

/-- Sparing is not paused on the port: L0, not L0p (R39), with a partner that takes part. -/
def State.spareRuns (s : State) (lp : Nat) : Bool := decide (s.getF (Fld.portLpStatLtssm lp) = 3) && s.sparePartner lp

/-- The pair works on the lane and is equalising or comparing. -/
def State.pairOn (s : State) (f : Fd × Fd) (lane : Nat) : Bool := decide (s.getF f.1 = 1 ∧ s.getF f.2 = lane)

/-- SPARE_REQ arrives: the T-side wakes its spare transmit pair (step 2 of sparing); of two halves asked in one tick LP(2n) gets it
(R69). -/
def State.spareReq (s : State) (lp lane : Nat) : State :=
  let f := (spareFds lp lane).2
  let pair (l : Nat) := (spareFds l lane).2.1
  let wake (s : State) := (s.setFs [(f.1, 1), (f.2, lane)]).modLnk lp (fun l => { l with txAt := some s.tick })
  if !s.spareRuns lp then s
  else if s.spareFree lp pair then wake s
  else if inStandby (s.getF f.1) && s.yields lp pair Link.txAt then wake (s.setF (pair (otherHalf lp)) 0)
  else s

/-- SPARE_REQ (R69). -/
def execSpareReq (lp : Lp) (lane : Fin 16) (s : State) : Host.Outcome State Fault Refusal := act s (·.spareReq lp.val lane.val)

/-- SPARE_EQ_DONE: the T-side starts its copy of the lane, and SPARE_ACK is due (step 4). -/
def execSpareEqDone (lp : Lp) (lane : Fin 16) (s : State) : Host.Outcome State Fault Refusal :=
  act s (fun s => if s.spareRuns lp.val && s.pairOn (spareFds lp.val lane.val).2 lane.val then s.spareItem lp.val 4 lane.val else s)

/-- SPARE_ACK arrives: the R-side's comparison starts (step 5). -/
def State.spareAck (s : State) (lp lane : Nat) : State :=
  if s.spareRuns lp && s.pairOn (spareFds lp lane).1 lane then s.modLnk lp (fun l => { l with cmp := some lane }) else s

/-- SPARE_ACK (R69). -/
def execSpareAck (lp : Lp) (lane : Fin 16) (s : State) : Host.Outcome State Fault Refusal := act s (·.spareAck lp.val lane.val)

/-- SPARE_COMPARE_DONE: the spare takes the lane's place, by a Recovery on a standard link; or the exchange starts again, three
failures aborting it (steps 5 and 6, R71, R72). -/
def execSpareCompareDone (lp : Lp) (lane : Fin 16) (pass : Bool) (s : State) : Host.Outcome State Fault Refusal :=
  act s (fun s =>
    let p := lp.val
    let k := lane.val
    let f := (spareFds p k).1
    if s.spareRuns p && s.pairOn f k && decide ((s.lnk p).cmp = some k) then
      let s := s.modLnk p (fun l => { l with cmp := none })
      if pass then
        let s := (s.setF f.1 2).spareItem p 5 k
        if s.role p = 2 then s else s.enterRecovery p
      else
        let n := Tbl.get (fun _ => 0) (s.lnk p).fails k + 1
        let s := s.modLnk p (fun l => { l with fails := Tbl.set (fun _ => 0) l.fails k n })
        if n < 3 then s.spareItem p 3 k else (s.setF f.1 3).spareItem p 6 k
    else s)

/-- SPARE_DONE arrives: the T-side stops driving the lane; its spare is in service (step 7). -/
def State.spareDone (s : State) (lp lane : Nat) : State :=
  let f := (spareFds lp lane).2
  if s.spareRuns lp && s.pairOn f lane then s.setF f.1 2 else s

/-- SPARE_DONE (R69). -/
def execSpareDone (lp : Lp) (lane : Fin 16) (s : State) : Host.Outcome State Fault Refusal := act s (·.spareDone lp.val lane.val)

/-- SPARE_ABORT: the pair that works on the lane goes back to standby, shown as aborted (R71, R78). -/
def State.spareAbort (s : State) (lp lane : Nat) : State :=
  let x := spareFds lp lane
  let s := if s.pairOn x.2 lane then s.setF x.2.1 3 else s
  if s.pairOn x.1 lane then (s.setF x.1.1 3).modLnk lp (fun l => { l with cmp := none }) else s

/-- SPARE_ABORT (R71). -/
def execSpareAbort (lp : Lp) (lane : Fin 16) (s : State) : Host.Outcome State Fault Refusal :=
  act s (·.when (s.dllUp lp.val) (·.spareAbort lp.val lane.val))

/-- HALEUS_SPARING_DLLP: a standard partner announces that it takes part in sparing (R72). -/
def execHaleusSparingDllp (lp : Lp) (s : State) : Host.Outcome State Fault Refusal :=
  act s (·.when (s.inL0 lp.val && decide (s.role lp.val ≠ 2)) (·.modLnk lp.val (fun l => { l with partner := true })))

/-! ### The link field of a received flit (R59 to R66) -/

/-- A flit's link field, handled (R60, R63): an item of KIND 0 by its SUB, a credit count otherwise. -/
def State.linkField (s : State) (lp f : Nat) : State :=
  let kind := f / 2 ^ 13 % 8
  let body := f / 2 ^ 16 % 2 ^ 32
  if kind ≠ 0 then s.tflCredit lp (kind - 1) (BitVec.ofNat 32 body)
  else
    let aseq := body / 16 % 4096
    let lane := body / 65536 % 16
    match body % 16 with
    | 0 => s
    | 1 => s.tflAck lp aseq
    | 2 => s.tflNak lp aseq
    | 3 => s.spareReq lp lane
    | 4 => s.spareAck lp lane
    | 5 => s.spareDone lp lane
    | 6 => s.spareAbort lp lane
    | _ => s.badLink lp

/-- NAK(E) is due, and is repeated until the flit expected arrives (R63); on a standard port a request for replay is due (R54). -/
def State.nakDue (s : State) (lp : Nat) : State :=
  s.modTfl lp (fun t => { t with nakDue := true, nak := if s.role lp = 2 then some (t.nak.getD s.tick) else none })

/-- A flit that passed its CRC on a fabric port: whether its content is accepted (R63). -/
def State.tflReceive (s : State) (lp f : Nat) : State × Bool :=
  let q := f % 4096
  let t := (s.lnk lp).tfl
  if f / 4096 % 2 = 0 then (s.linkField lp f, false)
  else if q = t.e then
    let s := s.modTfl lp (fun t => { t with
      e := (t.e + 1) % 4096, nak := none, nakDue := false,
      ackFrom := match t.ackFrom with | some k => some k | none => some s.tick })
    (s.linkField lp f, true)
  else if (t.e + 4096 - q) % 4096 ≤ 1024 then ((s.modTfl lp (fun t => { t with ackDue := true })).linkField lp f, false)
  else ((s.linkField lp f).nakDue lp, false)

end Sys2Proof.Machine
end

