-- ==== Sys2Proof/Machine/Ports.lean ====
section
/-! DEFINITION. Ports (02): shapes, roles, endpoint instances, training, presence, PERST, DPC, L0p. -/

namespace Sys2Proof.Machine

/-! ### Pins (R43, R44) -/

/-- CLKREQ_N follows the enabled logical ports of a physical port (R44). -/
def State.clkreq (s : State) (n : Nat) : State :=
  let k := if s.shape n = 3 then n - 1 else n
  let on := [2 * k, 2 * k + 1].any (fun l => s.lpExists l && decide (s.getF (Fld.portLpCtlEnable l) = 1))
  s.setF (Fld.portPinStatClkreq n) (bit on)

/-- Both pins of a cluster. -/
def State.clkreqs (s : State) (n : Nat) : State := (s.clkreq (n / 2 * 2)).clkreq (n / 2 * 2 + 1)

/-! ### Endpoint instances (R365) -/

/-- An instance takes a logical port. -/
def State.epGive (s : State) (i lp : Nat) : State :=
  (s.setFs [(Fld.stewardEpCfgLp i, lp), (Fld.stewardEpCfgPresent i, 1)]).setEp i { s.ep i with given := some s.tick }

/-- A port whose STEWARD_EP comes to 1 gets the free number; of two in one tick the lower port gets number 0 (R365). -/
def State.epAppear (s : State) (lp : Nat) : State :=
  if s.epPresent 0 then
    if decide ((s.ep 0).given = some s.tick) && decide (lp < s.epLp 0) then (s.epGive 1 (s.epLp 0)).epGive 0 lp
    else s.epGive 1 lp
  else s.epGive 0 lp

/-- The instance of a port goes away. -/
def State.epVanish (s : State) (lp : Nat) : State :=
  match s.instOf lp with
  | none => s
  | some i =>
    let s := s.epReset i
    (s.setFs [(Fld.stewardEpCfgLp i, 0), (Fld.stewardEpCfgPresent i, 0)]).setEp i
      { reads := (s.ep i).reads }

/-! ### Shape (R33, R37, R51) -/

/-- Logical ports that a change of shape of physical port `n` affects. -/
def State.affected (s : State) (n mode : Nat) : List Nat :=
  if mode = 2 ∨ s.shape n = 2 then (List.range 4).map (fun i => n / 2 * 4 + i) else [2 * n, 2 * n + 1]

/-- A write of CFG.MODE that R37 or R51 refuses. -/
def State.modeRefused (s : State) (n mode : Nat) : Bool :=
  decide (mode = 3 ∨ (mode = 2 ∧ n % 2 = 1) ∨ s.shape n = 3) ||
  (s.affected n mode).any (fun l => s.lpExists l && decide (s.getF (Fld.portLpCtlEnable l) = 1))

/-- The logical-port registers of a logical port take their reset values. -/
def State.lpRegsReset (s : State) (lp : Nat) : State := { s with regs := Tbl.clear s.regs (Reg.portLpCtl lp) 0x80 }

/-- A new shape takes effect (R37, R51): logical ports that cease to exist, and those of an odd port that leaves x16, take their
reset values, and MIN_WIDTH of every logical port of the new shape is its full width. A ROLE of fabric stays on LP(2n) when an x8 port
becomes split, though R36 does not permit it there: no rule says what it becomes (DESIGN CHOICE, log 32). The program stores stay as
they are: engine 2c + 1 shows its own once x16 is left (DESIGN CHOICE, log 32). -/
def State.setShape (s : State) (n mode : Nat) : State :=
  let lps := s.affected n mode
  let was16 := decide (s.shape n = 2)
  let s := s.setF (Fld.portCfgMode n) mode
  let s := if mode = 2 then s.setF (Fld.portCfgMode (n + 1)) 3 else if was16 then s.setF (Fld.portCfgMode (n + 1)) 0 else s
  let s := lps.foldl (fun s l =>
    if s.lpExists l && !(was16 && decide (2 * n + 1 < l)) then s else (s.epVanish l).lpRegsReset l) s
  let s := lps.foldl (fun s l => if s.lpExists l then s.setF (Fld.portLpTrainMinWidth l) (shapeWidth (s.shape (l / 2))) else s) s
  lps.foldl (fun s l => s.refreshPort l) (s.clkreqs n)

/-- A write of PORT.CFG: REFUSED clears where written 1; a MODE that differs changes the shape or is refused (R37, R51). -/
def State.cfgModeWrite (s : State) (n : Nat) (v : Word) : State :=
  let s := if fieldGet v 2 1 = 1 then s.setF (Fld.portCfgRefused n) 0 else s
  let mode := fieldGet v 0 2
  if mode = s.shape n then s
  else if s.modeRefused n mode then s.setF (Fld.portCfgRefused n) 1
  else s.setShape n mode

/-- CFG_MODE_WRITE (R37). -/
def execCfgModeWrite (n : Phys) (v : Word) (s : State) : Host.Outcome State Fault Refusal := act s (·.cfgModeWrite n.val v)

/-! ### LP_CTL (R36, R37, R52) -/

/-- Logical ports other than `lp` with STEWARD_EP 1. -/
def State.stewardPorts (s : State) (lp : Nat) : Nat :=
  ((List.range 64).filter (fun l => decide (l ≠ lp) && s.lpExists l && decide (s.getF (Fld.portLpCtlStewardEp l) = 1))).length

/-- A write of LP_CTL that is refused whole (R36, R37, R52). -/
def State.lpCtlRefused (s : State) (lp : Nat) (v : Word) : Bool :=
  let role := fieldGet v 1 2
  let ep := fieldGet v 3 1
  let newRole := decide (role ≠ s.role lp)
  let newEp := decide (ep ≠ s.getF (Fld.portLpCtlStewardEp lp))
  (decide (s.getF (Fld.portLpCtlEnable lp) = 1) && (newRole || newEp)) ||
  (newRole && decide (role = 3 ∨ (role = 2 ∧ s.shape (lp / 2) = 1))) ||
  (newEp && decide (ep = 1) && decide (role ≠ 0 ∨ 2 ≤ s.stewardPorts lp))

/-- A write of PORT.LP_CTL of an existing logical port (R37, R52). -/
def State.lpCtlWrite (s : State) (lp : Nat) (v : Word) : State :=
  if !s.lpExists lp then s
  else if s.lpCtlRefused lp v then s.setF (Fld.portCfgRefused (lp / 2)) 1
  else
    let was := s.getF (Fld.portLpCtlEnable lp)
    let had := (s.instOf lp).isSome
    let s := s.setFs [(Fld.portLpCtlEnable lp, fieldGet v 0 1), (Fld.portLpCtlRole lp, fieldGet v 1 2),
      (Fld.portLpCtlStewardEp lp, fieldGet v 3 1)]
    let s := if fieldGet v 1 2 = 1 then s else s.setF (Fld.portLpStatDpc lp) 0
    let want := decide (fieldGet v 1 2 = 0 ∧ fieldGet v 3 1 = 1)
    let s := if want && !had then s.epAppear lp else if had && !want then s.epVanish lp else s
    let s := if was = 1 ∧ fieldGet v 0 1 = 0 then
        (if s.dllUp lp ∨ s.role lp = 1 then s.linkDown lp else (s.linkDown lp).sweepStart lp false)
      else s
    (s.clkreqs (lp / 2)).refreshPort lp

/-- LP_CTL_WRITE (R37). -/
def execLpCtlWrite (lp : Lp) (v : Word) (s : State) : Host.Outcome State Fault Refusal := act s (·.lpCtlWrite lp.val v)

/-! ### PERST_N (R43) -/

/-- The pin that governs a logical port is asserted. -/
def State.perst (s : State) (lp : Nat) : Bool := decide (s.getF (Fld.portPinStatPerst (lp / 2)) = 1)

/-- PERST_ASSERT: the pin's logical ports are held in Detect; a running link goes down. In x16 the odd pin is ignored (R43). -/
def execPerstAssert (n : Phys) (s : State) : Host.Outcome State Fault Refusal :=
  act s (fun s =>
    let s := s.setF (Fld.portPinStatPerst n.val) 1
    [2 * n.val, 2 * n.val + 1].foldl (fun s l => if s.lpExists l then s.linkDown l else s) s)

/-- PERST_DEASSERT: the ports may train (R43). -/
def execPerstDeassert (n : Phys) (s : State) : Host.Outcome State Fault Refusal :=
  act s (·.setF (Fld.portPinStatPerst n.val) 0)

/-! ### Training (R38, R39, R43, R45, R49, R50) -/

/-- The lifecycle state lets ports switch: MANUFACTURE, PROVISIONED or DEPLOYED (R289). -/
def State.maySwitch (s : State) : Bool := decide (1 ≤ s.getF Fld.globalLifecycleState ∧ s.getF Fld.globalLifecycleState ≤ 3)

/-- The port may leave Detect: enabled, its pin released, no link-drop handling, no containment, its cluster PLL locked, no
refusal to wait for, no vPPB that holds it in Hot Reset or Disabled, start-up in step 7, and an upstream port released by step 2 of R45
(R43, R45, R50, R74, R413, R426). -/
def State.mayTrain (s : State) (lp : Nat) : Bool :=
  s.lpExists lp && decide (s.getF (Fld.portLpCtlEnable lp) = 1) && !s.perst lp && s.maySwitch &&
  decide (s.getF (Fld.portLpDropStatBusy lp) = 0) && decide (s.getF (Fld.portLpStatDpc lp) = 0) && decide (s.restState lp = 0) &&
  Nat.testBit (s.getF Fld.cprClkStatLinkLock) (lp / 4) && !(s.lnk lp).refused &&
  decide (s.getF Fld.cprStartStep = 7) && (decide (s.role lp ≠ 0) || s.link.released)

/-- A port's rate limit (R52). -/
def State.maxSpeed (s : State) (lp : Nat) : Nat :=
  let v := s.getF (Fld.portLpTrainMaxSpeed lp)
  if 1 ≤ v ∧ v ≤ 6 then v else 6

/-- Training is refused; the port waits for RETRY_MS in Detect (R38, R39). -/
def State.trainRefused (s : State) (lp : Nat) (f : Fd) : State :=
  (s.setFs [(f, 1), (Fld.portLpStatLtssm lp, 0)]).modLnk lp (fun l => { l with refused := true, refuseAt := s.tick })

/-- The link is in L0 at a rate and width; the wire gate is full (R274), and a waiting PM_PME goes out (R384). -/
def State.enterL0 (s : State) (lp speed width : Nat) : State :=
  let s := s.setFs [(Fld.portLpStatLtssm lp, 3), (Fld.portLpStatSpeed lp, speed), (Fld.portLpStatWidth lp, width)]
  let s := (s.setWire lp 512).modLnk lp (fun l => { l with width := width, slots := 0 })
  match s.instOf lp with
  | some i => if (s.ep i).pmeDue then s.sendPme i else s
  | none => s

/-- Egress credit and advertised counts start anew, and no response of the time before can come (R63, R66, R67, R102). -/
def State.linkFresh (s : State) (lp : Nat) : State :=
  let s := s.modLnk lp (fun l => { l with tfl := {}, recov := 0, rotate := 6 })
  { s with
    link := { s.link with credit := Tbl.clear s.link.credit (8 * lp) 8, rxCnt := Tbl.clear s.link.rxCnt (8 * lp) 8 }
    dp := { s.dp with lateTags := s.dp.lateTags.filter (fun x => x.1 ≠ lp) } }

/-- The presence of a partner changes: shown, reported in the vPPBs bound to the port, and on a downstream port a hot plug of the FM API
(R47, R49, R53, R388). -/
def State.presence (s : State) (lp : Nat) (present : Bool) : State :=
  if s.getF (Fld.portLpStatPresent lp) = bit present then s
  else
    let s := (s.setFs [(Fld.portLpStatPresent lp, bit present), (Fld.portLpEvtPresence lp, 1)]).slotEvent lp 3
    if s.role lp = 1 then s.fmEvent 1 lp else s

/-- The link comes up from Detect, which finds the partner present (R38, R45, R53, R235). -/
def State.linkFirst (s : State) (lp speed width : Nat) : State :=
  let s := ((s.linkFresh lp).presence lp true).setF (Fld.portLpStatDllUp lp) 1
  let s := ((s.enterL0 lp speed width).slotEvent lp 8).sweepReturn lp
  s.refreshPort lp

/-- Containment of a downstream port (R39). -/
def State.dpcTrigger (s : State) (lp : Nat) : State :=
  if s.isRole lp 1 then (s.linkDown lp).setF (Fld.portLpStatDpc lp) 1 else s

/-- What the vPPBs of a downstream port ask of its link takes effect: a hold by Link Disable or Secondary Bus Reset, the end of one, a
software trigger of DPC that waited (R39, R50). -/
def State.vppbLink (s : State) (lp : Nat) : State :=
  if !s.isRole lp 1 then s
  else
    let s := if (s.lnk lp).trigDue then (s.modLnk lp (fun l => { l with trigDue := false })).dpcTrigger lp else s
    if (s.vppbHold lp).isSome || !s.dllUp lp then s.linkDown lp else s

/-- A write of a vPPB has its effect on the link at once, unless the link is in Recovery: then once it is back in L0 (R50). -/
def State.vppbWritten (s : State) (lp : Nat) : State :=
  if s.getF (Fld.portLpStatLtssm lp) = 5 then s else s.vppbLink lp

/-- A port's uncorrectable error: flagged on its AER with the message's header, and, where a bound vPPB leaves the error unmasked and has
DPC enabled, containment of a downstream port (R39, R40; PCIe places, log 20). -/
def State.portError (s : State) (lp b : Nat) (h : Hdr) : State :=
  let s := (s.aerNote (aerPort lp) h).aerFlag (aerPort lp) b
  if (bindersOf s.regs lp).any (fun x => decide (fieldGet (s.cfgWord (vppbObj x.1 x.2) 66) b 1 = 0 ∧
      fieldGet (s.cfgWord (vppbObj x.1 x.2) 129) 16 2 ≠ 0)) then s.dpcTrigger lp else s

/-- LINK_UP: training ends with a partner of a given rate, width and flit mode, or a Recovery ends (R38, R39, R52). -/
def State.linkUp (s : State) (lp speed width : Nat) (flit : Bool) : State :=
  let w := min (min width (shapeWidth (s.shape (lp / 2)))) ((s.lnk lp).maxW.getD 16)
  let v := min speed (s.maxSpeed lp)
  if !([1, 2, 4, 8, 16].contains width && decide (0 < speed)) then s
  else if s.dllUp lp then
    if s.getF (Fld.portLpStatLtssm lp) ≠ 5 then s
    else if w < s.minWidth lp then (s.linkDown lp).setF (Fld.portLpEvtNarrow lp) 1
    else ((s.enterL0 lp v w).sweepReturn lp).vppbLink lp
  else if s.lpExists lp ∧ s.getF (Fld.portLpStatDpc lp) = 1 then s.slotEvent lp 8
  else if !s.mayTrain lp then s
  else if !flit then s.trainRefused lp (Fld.portLpEvtNoflit lp)
  else if w < s.minWidth lp then s.trainRefused lp (Fld.portLpEvtNarrow lp)
  else s.linkFirst lp v w

/-- LINK_UP (R38). -/
def execLinkUp (lp : Lp) (speed : Fin 7) (width : Fin 17) (flit : Bool) (s : State) : Host.Outcome State Fault Refusal :=
  act s (·.linkUp lp.val speed.val width.val flit)

/-- FLIT_MODE_RETRY: once RETRY_MS has passed, the port may train again (R38, R52). -/
def execFlitModeRetry (lp : Lp) (s : State) : Host.Outcome State Fault Refusal :=
  act s (·.when (s.aonPast (s.lnk lp.val).refuseAt (250000 * s.getF (Fld.portLpTrainRetryMs lp.val)))
    (·.modLnk lp.val (fun l => { l with refused := false })))

/-! ### Presence and DPC (R39, R47, R48, R50) -/

/-- PRESENCE_CHANGE: a partner is found, or removed by surprise (R47, R48, R53). -/
def execPresenceChange (lp : Lp) (present : Bool) (s : State) : Host.Outcome State Fault Refusal :=
  act s (fun s =>
    let p := lp.val
    if !s.lpExists p || decide (s.getF (Fld.portLpStatPresent p) = bit present) then s
    else
      let s := s.presence p present
      if present then s else (s.linkDown p).modLnk p (fun l => { l with partner := false }))

/-- DPC_TRIGGER (R39). -/
def execDpcTrigger (lp : Lp) (s : State) : Host.Outcome State Fault Refusal := act s (·.dpcTrigger lp.val)

/-- LINK_DOWN: DLL_UP falls for the given cause (R74). -/
def execLinkDown (lp : Lp) (_ : DownCause) (s : State) : Host.Outcome State Fault Refusal :=
  act s (·.when (s.dllUp lp.val) (·.linkDown lp.val))

/-! ### L0p and margining (R39) -/

/-- L0P_WIDTH_CHANGE: the port narrows or widens with its partner, up to the width it trained at; at that width it is back in
L0. -/
def execL0pWidthChange (lp : Lp) (width : Fin 17) (s : State) : Host.Outcome State Fault Refusal :=
  act s (fun s =>
    let full := (s.lnk lp.val).width
    if s.inL0 lp.val && [1, 2, 4, 8, 16].contains width.val && decide (width.val ≤ full) then
      s.setFs [(Fld.portLpStatWidth lp.val, width.val), (Fld.portLpStatLtssm lp.val, if width.val = full then 3 else 4)]
    else s)

/-- LANE_MARGINING: the partner steps a lane's sampling point; no state that the manual gives changes (R39). -/
def execLaneMargining (_ : Lp) (_ : Fin 16) (s : State) : Host.Outcome State Fault Refusal := act s (fun s => s)

end Sys2Proof.Machine
end

