-- ==== Sys2Proof/Machine/Ingress.lean ====
section
/-! DEFINITION. Ingress (R22, R54 to R56, R305 to R307, R85, R117, R134, R135): received flits, the MAC check of containment,
classification, and entry into the engine. -/

namespace Sys2Proof.Machine

/-! ### Flits (R54 to R56, R58, R63) -/

/-- The header that a message carries; a CXL.mem request is of 64 bytes (R120). -/
def hdrOf (m : MsgIn) : Hdr where
  op := m.op
  opc := m.opc.toNat
  mv := m.mv
  addr := m.addr.toNat
  size := if m.op.cls = 1 ∨ m.op.cls = 2 then 64 else if m.data.isEmpty then m.size.val else m.data.length
  tag := m.tag.toNat
  data := m.data
  poison := m.poison
  status := m.status
  bitag := m.bitag.val
  dest := m.dest
  ld := m.ld.map (·.val)

/-- What an unclassified message, and a message that no function or VCS entry stands for, carries: plot 0, no program. -/
def bareCls (lp : Nat) (path : Path) : Cls :=
  { lp := lp, path := path, fid := 0x1FFF, gen := 0, plot := 0, sc := 0, prog := 0, slot := none, parity := false, epoch := 0 }

/-- Corrections of a port by lane in the present furlong (R56). -/
def State.fecNow (s : State) (lp : Nat) : Tbl Nat := if (s.lnk lp).furlong = s.furlong then (s.lnk lp).fec else []

/-- FEC corrections are counted in all and by lane (R56). -/
def State.fecCount (s : State) (lp : Nat) (lanes : List (Fin 16)) : State :=
  let now := lanes.foldl (fun t k => cntAdd t k.val 1) (s.fecNow lp)
  (s.addSat (Fd.whole (Reg.portLpFecCnt lp)) lanes.length).modLnk lp (fun l => { l with furlong := s.furlong, fec := now })

/-- The lanes that these corrections bring above SPARE_THR in the furlong (R68). -/
def State.fecOver (s : State) (lp : Nat) (lanes : List (Fin 16)) : List Nat :=
  let thr := s.getF (Fld.portLpRelCtlSpareThr lp)
  let n (k : Nat) := Tbl.get (fun _ => 0) (s.fecNow lp) k
  (lanes.map (·.val)).eraseDups.filter (fun k =>
    decide (n k ≤ thr ∧ thr < n k + (lanes.filter (fun l => l.val = k)).length))

/-- The port's stream is Secure and in containment mode. -/
def State.contained (s : State) (lp : Nat) : Bool :=
  decide (s.getF (Fld.securityIdeStatState lp) = 1) && (s.ide lp).contain

/-- The messages of an accepted flit, with its tick as their stamp (R22, R55); in containment mode they wait for their MAC
(R305). -/
def State.unpack (s : State) (lp : Nat) (f : Flit) : State :=
  let st : Stage := if s.contained lp then .macHeld else .unpacked
  let s := f.msgs.foldl (fun s m => s.addMsg (fun i =>
    { id := i, stage := st, origin := .ingress, stamp := s.tick, engine := lp / 2, hdr := hdrOf m, req := hdrOf m,
      cls := bareCls lp .program, inLp := lp })) s
  let s := if f.macEnd && s.contained lp then s.modIde lp (fun i => { i with macs := i.macs ++ [(s.tick, s.dp.nextId)] }) else s
  if f.viral && decide (s.role lp = 1) then s.raise { src := 0x0E, tick := s.tick, lp := some lp } else s

/-- A flit at the ingress pins of a port in L0, once FEC is counted (R54): CRC, the data-link or link field, then its content. A run of Recoveries (R58)
ends when content is accepted; an empty flit of a fabric port does not end it (DESIGN CHOICE, log 38). -/
def State.flitBody (s : State) (lp : Nat) (f : Flit) : State :=
  if !f.crcOk then (s.bump (Fld.portLpCrcCntFail lp)).nakDue lp
  else
    let x := if s.role lp = 2 then s.tflReceive lp f.link.toNat else (s, true)
    if x.2 && x.1.inL0 lp then (x.1.modLnk lp (fun l => { l with recov := 0 })).unpack lp f else x.1

/-- A flit at the ingress pins of a port in L0: at most one symbol of each codeword is corrected and counted, the flit is taken, and the
lanes that came above the threshold are failing (R54, R56, R68). -/
def State.flitIn (s : State) (lp : Nat) (f : Flit) : State :=
  let lanes := f.corrected.take 3
  (s.fecOver lp lanes).foldl (fun s k => s.laneFailing lp k) ((s.fecCount lp lanes).flitBody lp f)

/-- FLIT_RECEIVED (R54). -/
def execFlitReceived (lp : Lp) (f : Flit) (s : State) : Host.Outcome State Fault Refusal :=
  act s (·.when (s.lpExists lp.val && s.inL0 lp.val) (·.flitIn lp.val f))

/-! ### The MAC check (R305, R306) -/

/-- A stream's integrity fails (R306): Insecure, counted, recorded, the link down. `side` is 0 at ingress, 1 at egress. -/
def State.ideFail (s : State) (lp side : Nat) : State :=
  let s := (s.setF (Fld.securityIdeStatState lp) 2).bump (Fld.securityIdeErrIntegrity lp)
  let s := s.raise { src := 0x0A, tick := s.tick, lp := some lp, d0 := side, d1 := (s.rd (Reg.securityIdeStat lp)).toNat }
  (s.dropHeld lp).linkDown lp

/-- The messages that the oldest MAC covers go on; each has waited from its stamp to that of the MAC's flit (R305). -/
def State.macRelease (s : State) (lp : Nat) : State :=
  match (s.ide lp).macs with
  | [] => s
  | x :: rest =>
    let s := s.modIde lp (fun i => { i with macs := rest })
    { s with
      dp := { s.dp with
        msgs := s.dp.msgs.map (fun m =>
      if m.stage = .macHeld ∧ m.inLp = lp ∧ m.id < x.2 then
        { m with stage := .unpacked, parts := { m.parts with ideh := x.1 - m.stamp } } else m) } }

/-- IDE_MAC_CHECK: the check of a Secure stream's next MAC (R305, R306). -/
def execIdeMacCheck (lp : Lp) (ok : Bool) (s : State) : Host.Outcome State Fault Refusal :=
  act s (fun s =>
    if s.getF (Fld.securityIdeStatState lp.val) ≠ 1 then s
    else if ok then s.macRelease lp.val
    else s.ideFail lp.val 0)

/-! ### Classification (R40, R85, R88, R103, R117, R137, R303, R307, R402) -/

/-- Service context, plot and bytes of the tap that a posted message's credit return fires; only messages of a host have one
(R326). -/
def State.postedIn (s : State) (m : Msg) (sc : Option Nat) (plot : Nat) : State :=
  if decide (m.hdr.op.credit = 0) && s.isRole m.inLp 0 then s.postedDue m.inLp sc plot m.hdr.data.length else s

/-- A message's units of the receive buffer are free, so its credit is returned (R67, R135, R257). -/
def State.freeRx (s : State) (m : Msg) : State :=
  let k := 8 * m.inLp + m.hdr.op.credit
  let v := Tbl.get (fun _ => 0) s.link.rxCnt k + BitVec.ofNat 32 m.hdr.units
  { s with link := { s.link with rxCnt := Tbl.set (fun _ => 0) s.link.rxCnt k v } }

/-- A message is discarded before classification ends; its credit is returned. -/
def State.discardIn (s : State) (m : Msg) : State := ((s.freeRx m).postedIn m none 0).delMsg m.id

/-- The classification through a VCS entry (R103). -/
def State.vcsCls (s : State) (lp vcs : Nat) (path : Path) : Cls :=
  let n := lp / 2
  let prog := s.getF (Fld.plotVcsW0Prog vcs)
  { lp := lp, path := path, fid := 0x1000 + vcs, gen := s.gen (0x1000 + vcs), plot := s.getF (Fld.plotVcsW0Plot vcs),
    sc := s.getF (Fld.plotVcsW1Sc vcs), prog := prog,
    slot := if s.progLive n prog then some (s.progInForce n prog) else none,
    parity := decide (s.getF Fld.hedgeCommitStatInforce = 1), epoch := s.dp.epoch }

/-- The classification through a presented function (R85, R107). -/
def State.fnCls (s : State) (lp fid : Nat) (path : Path) : Cls :=
  let n := lp / 2
  let prog := s.getF (Fld.plotFnW0Prog fid)
  { s.vcsCls lp lp path with
    fid := fid, gen := s.gen fid, plot := s.getF (Fld.plotFnW0Plot fid), sc := s.getF (Fld.plotFnW1Sc fid), prog := prog,
    slot := if s.progLive n prog then some (s.progInForce n prog) else none }

/-- The presented function of a port whose decoder matches a host address (R85). -/
def State.decodeHpa (s : State) (lp hpa : Nat) : Option Nat :=
  ((List.range 64).map (fun f => 64 * lp + f)).find? (fun f =>
    s.assigned f && s.enabled f && (s.decoder f).matches hpa)

/-- A TDI is in ERROR (R303). -/
def State.tdiError (s : State) (fid : Nat) : Bool := decide (s.getF (Fld.securityTdiStatState fid) = 3)

/-- A message of an unsupported protocol is dropped and counted (R40). -/
def State.dropUnsup (s : State) (m : Msg) : State :=
  ((s.bump (Fld.portLpEvtUnsup m.inLp)).discardIn m).portError m.inLp 20 m.hdr

/-- A message that R117 drops from a downstream port. -/
def State.dropUnsol (s : State) (m : Msg) : State :=
  ((s.bump (Fld.coulterDispUnsol m.engine)).discardIn m).portError m.inLp 20 m.hdr

/-- A message goes on to the engine input as classified. -/
def State.classed (s : State) (m : Msg) (c : Cls) (h : Hdr) : State :=
  s.modMsg m.id (fun x => { x with stage := .atEngine, cls := { c with epoch := s.dp.epoch }, hdr := h })

/-- The first CXL.mem request of a function after its decoder's commit records the position bits of its address (R213). -/
def State.notePos (s : State) (f hpa : Nat) : State :=
  let d := s.decoder f
  if d.pos.isSome then s else s.setDecoder f { d with pos := some (d.position hpa) }

/-- A CXL.mem request of an upstream or fabric port (R85, R303): by the decoder that matches; without one, or for a function
whose TDI is in ERROR, as an access with no matching rule. -/
def State.classifyMem (s : State) (m : Msg) : State :=
  match s.decodeHpa m.inLp m.hdr.addr with
  | none => s.classed m (s.vcsCls m.inLp m.inLp .noDecoder) m.hdr
  | some f =>
    let path : Path := if s.tdiError f then .noDecoder else .program
    (s.notePos f m.hdr.addr).classed m (s.fnCls m.inLp f path) { m.hdr with addr := (s.decoder f).dpa m.hdr.addr }

/-- A CXL.io request of an upstream or fabric port (R117): by where it is routed; one that no route takes is an access with no
matching rule. -/
def State.classifyIo (s : State) (m : Msg) : State :=
  if s.role m.inLp ≠ 0 then s.classed m (s.vcsCls m.inLp m.inLp .noDecoder) m.hdr
  else match m.hdr.dest with
    | .vppb => s.classed m (s.vcsCls m.inLp m.inLp .program) m.hdr
    | .stewardEp => s.classed m (bareCls m.inLp .steward) m.hdr
    | .bar0 f =>
      let fid := 64 * m.inLp + f.val
      if s.tdiError fid then (s.reply (bareCls m.inLp .steward) m.hdr [] false .ur 0 none).discardIn m
      else s.classed m (s.fnCls m.inLp fid .steward) m.hdr
    | .memory => s.classed m (s.vcsCls m.inLp m.inLp .noDecoder) m.hdr

/-- Configuration and steward traffic, which R307 and the ingress stop of R402 let through. -/
def Hdr.stewardBound (h : Hdr) : Bool :=
  match h.op with
  | .cfgRd | .cfgWr => true
  | o => o.isIoReq && (match h.dest with
    | .stewardEp => true
    | .bar0 _ => true
    | _ => false)

/-- A message is classified by its port's role and what it is (R117). -/
def State.classifyRole (s : State) (m : Msg) : State :=
  let o := m.hdr.op
  if o.isResponse then
    let plot := match s.dp.trackers.find? (fun t => decide (t.lp = m.inLp ∧ t.tag = m.hdr.tag)) with
      | some t => t.cls.plot
      | none => 0
    s.classed m { bareCls m.inLp .response with plot := plot } m.hdr
  else if s.role m.inLp = 1 then
    match vcsOf s.regs m.inLp m.hdr.ld with
    | some x => if o.isIoReq then s.classed m (s.vcsCls m.inLp x.1 .program) m.hdr else s.dropUnsol m
    | none => s.dropUnsol m
  else if o.isBiRsp then s.classed m (bareCls m.inLp .homePath) m.hdr
  else if o.isMemReq then s.classifyMem m
  else if o.isIoReq then s.classifyIo m
  else match o with
    | .cfgRd => s.classed m (bareCls m.inLp .config) m.hdr
    | .cfgWr => s.classed m (bareCls m.inLp .config) m.hdr
    | _ => s.dropUnsup m

/-- A message in tick I + 4: the ingress stop of a fatal fault, the IDE requirement, unsupported protocols, then its port's
path. -/
def State.classifyMsg (s : State) (m : Msg) : State :=
  if decide (s.getF Fld.faultStatFatal = 1) && !m.hdr.stewardBound then s.discardIn m
  else if s.idePlain m.inLp && !decide (m.hdr.op = .cfgRd ∨ m.hdr.op = .cfgWr) then
    let s := s.bump (Fld.securityIdeErrPlain m.inLp)
    let c := bareCls m.inLp .noDecoder
    let s := if m.hdr.op.isRead && m.hdr.op.isMem then s.replyPoison c m.hdr .ur
      else if m.hdr.op.isIoReq then s.reply c m.hdr [] false .ur 0 none
      else s
    s.discardIn m
  else if m.hdr.op = .unsupported then s.dropUnsup m
  else s.classifyRole m

/-- The engine input of a port classifies in this tick as well: fewer than four messages of the engine, eight of an x16 port's two,
were classified in it (R17, R23). -/
def State.mayClassify (s : State) (lp : Nat) : Bool :=
  decide ((s.dp.classed.filter (fun k => decide (k / 2 = lp / 2))).length < (if s.shape (lp / 2) = 2 then 8 else 4))

/-- CLASSIFY: in tick I + 4, later by the hold of containment, or by the classifier's own limit (R17, R22, R85). -/
def execClassify (m : Nat) (s : State) : Host.Outcome State Fault Refusal :=
  act s (fun s => match s.msg? m with
    | some x =>
      if x.stage = .unpacked ∧ x.stamp + 4 + x.parts.ideh ≤ s.tick ∧ s.mayClassify x.inLp then
        let y := s.classifyMsg x
        { y with dp := { y.dp with classed := y.dp.classed ++ [x.inLp] } }
      else s
    | none => s)

/-! ### Entry into the engine (R23, R134 to R137, R140, R254) -/

/-- Engine lanes of a logical port (R23, R34). -/
def State.lanes (s : State) (lp : Nat) : Nat :=
  match s.shape (lp / 2) with
  | 1 => 2
  | 2 => 8
  | _ => 4

/-- Messages of a port that entered stage 1 in this tick, those that left the device in it among them. -/
def State.enteredNow (s : State) (lp : Nat) : Nat := (s.dp.entered.filter (fun k => decide (k = lp))).length

/-- An earlier message of the same port and class is not in the engine yet. -/
def State.heldBack (s : State) (m : Msg) : Bool :=
  s.dp.msgs.any (fun x => decide (x.id < m.id ∧ x.inLp = m.inLp ∧ x.hdr.op.credit = m.hdr.op.credit) &&
    decide (x.stage = .macHeld ∨ x.stage = .unpacked ∨ x.stage = .atEngine))

/-- The engine's counts of an entry (R140). -/
def State.entryCounts (s : State) (n : Nat) (c : Cls) (ein : Nat) : State :=
  let s := match c.path with
    | .program =>
      let s := s.add64 (Reg.coulterMsgLo n) (Reg.coulterMsgHi n) 1
      if c.slot.isNone then s.bump (Fld.coulterExcNoprog n) else s
    | .noDecoder => s
    | _ => s.add64 (Reg.coulterFixedLo n) (Reg.coulterFixedHi n) 1
  if ein = 0 then s
  else (s.bump (Fld.coulterEinWaited n)).setF (Fld.coulterEinMax n) (max (s.getF (Fld.coulterEinMax n)) (min ein 0xFFFF))

/-- Cells a message takes as it enters: the data of a harrow read has its space already (R253). -/
def State.cellsFor (s : State) (m : Msg) : Nat :=
  let own := m.hdr.op.isResponse && s.dp.trackers.any (fun t => decide (t.lp = m.inLp ∧ t.tag = m.hdr.tag) &&
    match t.use with | .harRd _ _ => true | _ => false)
  if own then 0 else m.hdr.cells

/-- A message enters stage 1: its cells are reserved, its credit returned, its wait counted. -/
def State.enter (s : State) (m : Msg) : State :=
  let n := if s.shape (m.inLp / 2) = 2 then m.inLp / 2 + s.enteredNow m.inLp / 4 else m.inLp / 2
  let k := m.hdr.op.credit
  let ein := s.tick - (m.stamp + 5 + m.parts.ideh)
  let tapped := decide (m.cls.path = .program ∨ m.cls.path = .noDecoder)
  let c := s.cellsFor m
  let s := (s.freeRx m).postedIn m (if tapped then some m.cls.sc else none) m.cls.plot
  let s := s.entryCounts n m.cls ein
  let s := s.modMsg m.id (fun x => { x with stage := .engine, engine := n, ctx := {}, cells := c, chCls := k,
                                            chPlot := m.cls.plot, parts := { x.parts with ein := ein } })
  let s := { s with dp := { s.dp with entered := s.dp.entered ++ [m.inLp] } }
  s.highWater m.inLp k

/-- ENGINE_ENTRY: a message whose turn it is, in tick I + 5 or later, with a free lane, room in the buffer and none of its class
waiting before it (R22, R23, R135). -/
def execEngineEntry (m : Nat) (s : State) : Host.Outcome State Fault Refusal :=
  act s (fun s => match s.msg? m with
    | some x =>
      if decide (x.stage = .atEngine ∧ x.stamp + 5 + x.parts.ideh ≤ s.tick) && !s.heldBack x && decide (s.enteredNow x.inLp < s.lanes x.inLp) &&
          s.admits x.inLp x.hdr.op.credit x.cls.plot x.cls.epoch (s.cellsFor x)
      then s.enter x else s
    | none => s)

end Sys2Proof.Machine
end

