-- ==== Sys2Proof/Machine/Xbar.lean ====
section
/-! DEFINITION. Crossbar, arbitration and egress pack (10, R25, R26, R98, R247 to R252, R277, R283, R326). -/

namespace Sys2Proof.Machine

/-! ### Budgets (R243, R244, R248) -/

/-- A grant of this tick: crossbar input and output, bytes and messages taken, rank, egress logical port, and whether it is the
next tick of a locked transfer already started. -/
structure Grant where
  inp    : Nat
  out    : Nat
  bytes  : Nat
  msgs   : Nat := 1
  rank   : Nat := 3
  lp     : Nat := 64
  locked : Bool := false
deriving DecidableEq, Repr

/-- Crossbar input of a message: the port of its engine, of its own egress for what the device makes (R243), and for the harrow of the
port that carries a read's data back or that its write enters at (R264). -/
def Msg.inPort (m : Msg) : Nat :=
  if m.origin = .device then xbarPort m.out else if m.origin = .harrow then xbarPort m.inLp else m.engine

/-- Crossbar output of a message. -/
def Msg.outPort (m : Msg) : Nat := xbarPort m.out

/-- Bytes and messages of an output's budget (R243). -/
def State.outBudget (s : State) (e : Nat) : Nat × Nat := if s.shape e = 2 then (1024, 8) else (512, 4)

/-- What a list of grants has taken of an input. -/
def usedIn (l : List Grant) (p : Nat) : Nat × Nat :=
  (((l.filter (fun g => g.inp = p)).map (·.bytes)).sum, ((l.filter (fun g => g.inp = p)).map (·.msgs)).sum)

/-- What a list of grants has taken of an output. -/
def usedOut (l : List Grant) (p : Nat) : Nat × Nat :=
  (((l.filter (fun g => g.out = p)).map (·.bytes)).sum, ((l.filter (fun g => g.out = p)).map (·.msgs)).sum)

/-- A grant fits the input's budget beside those made. -/
def fitsIn (l : List Grant) (g : Grant) : Bool :=
  decide ((usedIn l g.inp).1 + g.bytes ≤ 512 ∧ (usedIn l g.inp).2 + g.msgs ≤ 4)

/-- A grant fits the output's budget beside those made. -/
def State.fitsOut (s : State) (l : List Grant) (g : Grant) : Bool :=
  decide ((usedOut l g.out).1 + g.bytes ≤ (s.outBudget g.out).1 ∧ (usedOut l g.out).2 + g.msgs ≤ (s.outBudget g.out).2)

/-- A grant fits both. -/
def State.fits (s : State) (l : List Grant) (g : Grant) : Bool := fitsIn l g && s.fitsOut l g

/-- The bid of a message: its first tick (R244). -/
def Msg.bidGrant (m : Msg) : Grant :=
  { inp := m.inPort, out := m.outPort, bytes := min 512 m.hdr.flitLen, rank := m.rank, lp := m.out }

/-- What a bid needs to fit: its first tick; for a line of a locked burst's first tick, that line and those after it in the tick (R246). -/
def State.bidNeed (s : State) (m : Msg) : Grant :=
  match s.burstPlace m with
  | some (h, k) => if h.locked then { m.bidGrant with bytes := (min 4 h.burst.length - k) * m.hdr.flitLen, msgs := min 4 h.burst.length - k }
                   else m.bidGrant
  | none => m.bidGrant

/-- The messages of a bid: a burst's lines are one (R246). -/
def State.bidMates (s : State) (m : Msg) : List Nat :=
  match s.burstPlace m with
  | some (h, _) => h.lines
  | none => [m.id]

/-! ### Granting messages (R246, R248) -/

/-- The arbiter at work: the machine, the grants made, and the first winner of the rank. -/
structure Arb where
  s     : State
  gs    : List Grant := []
  first : Option Nat := none
deriving DecidableEq, Repr

/-- The bid of this rank that took the budget a bid lacked (R248). -/
def State.takerOf (s : State) (gs : List Grant) (g : Grant) : Option Nat :=
  ((gs.find? (fun w => decide (w.rank = g.rank) && ((!fitsIn gs g && decide (w.inp = g.inp)) ||
    (!s.fitsOut gs g && decide (w.out = g.out))))).map (·.lp))

/-- A bid that does not fit: the first winner is kept, a wait for a locked transfer counted once, an input that is spent noted
(R246, R248, R277). The bids behind it in its list lose by the list's order, not by their input's budget: their tick is QOUT
(DEDUCED, log 80). -/
def Arb.lose (a : Arb) (m : Msg) : Arb :=
  let g := a.s.bidNeed m
  let s := a.s
  let s := if !m.waited && s.fits (a.gs.filter (fun x => !x.locked)) g then
      (s.bidMates m).foldl (fun s i => s.modMsg i (fun x => { x with waited := true })) (s.bump Fld.xbarPreemptLockWait) else s
  let s := if fitsIn a.gs g then s else { s with dp := { s.dp with qin := s.dp.qin ++ [m.id] } }
  { a with
    s := s, first := match a.first with
    | some f => some f
    | none => a.s.takerOf a.gs g }

/-- A granted message: its first tick is granted for the next tick, and a second tick follows a message above 512 B (R244). -/
def Arb.win (a : Arb) (m : Msg) : Arb :=
  let g := m.bidGrant
  let s := a.s.modMsg m.id (fun x => { x with stage := .granted, since := a.s.tick })
  let s := if 512 < m.hdr.flitLen then
      { s with dp := { s.dp with cont := s.dp.cont ++ [m.id] } } else s
  { a with s := s, gs := a.gs ++ [g] }

/-- One list, in order, until a bid does not fit (R248). -/
def Arb.runList (a : Arb) : List Nat → Arb
  | [] => a
  | i :: is =>
    match a.s.msg? i with
    | none => a.runList is
    | some m => if a.s.fits a.gs (a.s.bidNeed m) then (a.win m).runList is else a.lose m

/-- The placed messages of a rank and egress port, in the list's order. -/
def State.bidsOf (s : State) (r e : Nat) : List Nat :=
  s.dp.bids.filter (fun i => match s.msg? i with
    | some m => decide (m.rank = r ∧ m.out = e)
    | none => false)

/-- The rank's pointer moves past the first winner (R248). -/
def Arb.movePtr (a : Arb) (r : Nat) : Arb :=
  match a.first with
  | some f => { a with s := a.s.setF (ptrFd r) ((f + 1) % 64), first := none }
  | none => a

/-- One rank. -/
def Arb.runRank (a : Arb) (r : Nat) : Arb :=
  ((a.s.walk r).foldl (fun a e => a.runList (a.s.bidsOf r e)) a).movePtr r

/-! ### Harrow bursts (R246, R264) -/

/-- The next tick of a locked burst already started: nothing takes its budget, and its lines are charged and never held (R246, R270). -/
def Arb.lockedBurst (a : Arb) (c : Nat) : Arb :=
  let h := a.s.har c
  if h.locked && h.started then
    (h.burst.take 4).foldl (fun a i => match a.s.msg? i with
      | some m =>
        let x := { a with s := a.s.charge m 1 }.win m
        { x with gs := x.gs.dropLast ++ [{ m.bidGrant with rank := 3, locked := true }] }
      | none => a) a
  else a

/-- After the tick's grants a channel's burst is what has not been granted; a preemptible one that was placed and received less than its
share is counted (R246, R267). -/
def State.burstEnd (s : State) (c : Nat) : State :=
  let h := s.har c
  let waits (i : Nat) : Bool := match s.msg? i with
    | some m => decide (m.stage = .bid)
    | none => false
  let rest := h.burst.filter waits
  let less := !h.locked && rest.any (fun i => s.dp.bids.contains i)
  let s := s.when less (·.bump Fld.xbarPreemptPreempt)
  s.modHar c (fun x => { x with burst := rest, started := x.started || decide (rest.length < h.burst.length) })

/-! ### ARBITRATE -/

/-- A granted message whose egress port went down in or before the tick of its grant is cancelled (R250). -/
def State.cancelled (s : State) (m : Msg) : Bool :=
  !s.dllUp m.out && (match (s.lnk m.out).dropAt with
    | some d => decide (d ≤ m.since)
    | none => true)

/-- The second tick of a message above 512 B, unless its first was cancelled (R244, R250). -/
def State.secondTick (s : State) (i : Nat) : Option Grant :=
  match s.msg? i with
  | some m => if m.stage = .granted ∧ s.cancelled m then none
              else some { inp := m.inPort, out := m.outPort, bytes := m.hdr.flitLen - 512, locked := true }
  | none => none

/-- The arbiter as a tick starts: the second ticks of messages above 512 B are granted already (R244). -/
def State.arbStart (s : State) : Arb where
  s := { s with dp := { s.dp with cont := [], arbAt := some s.tick } }
  gs := s.dp.cont.filterMap s.secondTick

/-- Locked transfers already started, then ranks 2, 1 and 0 (R246, R247). -/
def Arb.run (a : Arb) : Arb := ((((List.range 4).foldl (fun a c => a.lockedBurst c) a).runRank 2).runRank 1).runRank 0

/-- The charges of placed messages that were not granted are returned, and the list is gone (R273). -/
def State.giveBack (s : State) : State :=
  let s := s.dp.bids.foldl (fun s i => match s.msg? i with
    | some m => if m.stage = .bid then s.charge m (-1) else s
    | none => s) s
  { s with dp := { s.dp with bids := [] } }

/-- One arbitration (R247, R248, R273). -/
def State.arbitrate (s : State) : State := ((List.range 4).foldl (fun s c => s.burstEnd c) s.arbStart.run.s).giveBack

/-- ARBITRATE: once in a tick (R247). -/
def execArbitrate (s : State) : Host.Outcome State Fault Refusal :=
  act s (·.when (decide (s.dp.arbAt ≠ some s.tick)) (·.arbitrate))

/-! ### Traverse (R250, R252, R267) -/

/-- Bytes of a message counted through its crossbar input and output (R243). -/
def State.xbarBytes (s : State) (m : Msg) (n : Nat) : State :=
  (s.add64 (Reg.xbarInBytesLo m.inPort) (Reg.xbarInBytesHi m.inPort) n).add64
    (Reg.xbarOutBytesLo m.outPort) (Reg.xbarOutBytesHi m.outPort) n

/-- A granted message's tick: its first 512 B traverse, or its grant becomes a bubble and the message ends under R74. -/
def State.traverse (s : State) (m : Msg) : State :=
  if s.cancelled m then (s.add64 Reg.xbarBubbleLo Reg.xbarBubbleHi 1).dropMsg m
  else
    (s.xbarBytes m (min 512 m.hdr.flitLen)).modMsg m.id (fun x => { x with stage := .packing, since := s.tick })

/-- CROSSBAR_TRAVERSE: in a tick after that of the grant (R244). -/
def execCrossbarTraverse (m : Nat) (s : State) : Host.Outcome State Fault Refusal :=
  act s (fun s => match s.msg? m with
    | some x => if x.stage = .granted ∧ x.since < s.tick then s.traverse x else s
    | none => s)

/-! ### Egress pack (R25, R26, R98, R277, R283, R326) -/

/-- A response whose function's generation has advanced is gleaned at egress pack (R98). -/
def State.gleaned (s : State) (m : Msg) : Bool :=
  m.hdr.op.isResponse && decide (m.cls.fid < 0x1040) && !s.current m.cls

/-- Sum of the counted parts of a residence (R24). -/
def Parts.sum (p : Parts) : Nat := p.ein + p.ideh + p.home + p.snoop + p.retry + p.cred + p.queue

/-- Parts added. -/
def Parts.add (a b : Parts) : Parts :=
  ⟨a.ein + b.ein, a.ideh + b.ideh, a.home + b.home, a.snoop + b.snoop, a.retry + b.retry, a.cred + b.cred, a.queue + b.queue,
   a.qin + b.qin, a.qrsv + b.qrsv⟩

/-- Residence totals of an egress logical port. -/
def State.resTot (s : State) (lp : Nat) : ResTot := Tbl.get (fun _ => {}) s.dp.res lp

/-- Residence totals set. -/
def State.setResTot (s : State) (lp : Nat) (r : ResTot) : State :=
  { s with dp := { s.dp with res := Tbl.set (fun _ => {}) s.dp.res lp r } }

/-- A measured message added to totals; the first of equal largest residences stays the worst (R32). -/
def ResTot.add (r : ResTot) (m : Msg) (res : Nat) : ResTot :=
  let r := { r with count := r.count + 1, sums := r.sums.add m.parts }
  if r.max < res then { r with max := res, worst := (m.stamp, m.inLp, m.cls.plot) } else r

/-- The residence check and totals of a measured message, whose first bit leaves three ticks from now (R22, R25, R31). -/
def State.measure (s : State) (m : Msg) : State :=
  if m.made || m.merged then s
  else
    let res := s.tick + 3 - m.stamp
    let fixed := res - m.parts.sum
    let s := if s.getF Fld.globalResCtlEnable = 1 then s.setResTot m.out ((s.resTot m.out).add m res) else s
    if 15 < fixed then
      let r := s.resTot m.out
      (s.setResTot m.out { r with overrun := r.overrun + 1 }).raise
        { src := 0x01, tick := s.tick, lp := some m.out, plot := some m.cls.plot, d0 := m.stamp, d1 := fixed }
    else s

/-- The check of a reserved message's queueing, and QIN (R277, R283). -/
def State.qrsvCheck (s : State) (m : Msg) : State :=
  let e := m.out
  let s := s.add64 (Reg.schedPortLiveQinLo e) (Reg.schedPortLiveQinHi e) m.parts.qin
  if s.reserved m then
    let q := m.parts.qrsv
    let s := s.setF (Fld.schedPortLive2QrsvMax e) (max (s.getF (Fld.schedPortLive2QrsvMax e)) (min q 0xFFFF))
    let b := s.getF (Fld.schedPortW4RsvBound e)
    if b ≠ 0 ∧ b < q then s.bump (Fld.schedPortLive2Late e) else s
  else s

/-- The tap amounts of a message packed at an upstream egress (R326). -/
def Msg.tapOf (m : Msg) : Tap :=
  let sc := if m.cls.fid < 0x1040 then some m.cls.sc else none
  let t : Tap := { sc := sc, plot := m.cls.plot }
  if (m.route.map (·.trapped)).getD false then { sc := none }
  else if m.hdr.op.isResponse then
    let rd := m.req.op.isRead || decide (m.req.op = .ioRd)
    let wr := m.req.op.isMemWr || decide (m.req.op = .ioWr)
    if m.hdr.status ≠ .sc then t
    else if rd then (if m.hdr.poison then { t with psn := 1 } else { t with rd := m.hdr.data.length })
    else if wr then { t with wr := m.req.data.length }
    else if m.req.op.isAtomic then { t with rd := m.hdr.data.length, wr := m.req.data.length }
    else t
  else if m.made then { sc := none }
  else { t with inn := if m.hdr.data.isEmpty then (if m.hdr.op = .ioMemRd ∨ m.hdr.op = .ioRd then m.hdr.size else 0)
                       else m.hdr.data.length }

/-- A message that carries a parity: classified to a function or VCS entry, or matching no decoder, and not yet answered. -/
def Msg.carriesParity (m : Msg) : Bool :=
  !m.made && decide (m.cls.path = .program ∨ m.cls.path = .noDecoder) && decide (m.stage ≠ .macHeld ∧ m.stage ≠ .unpacked)

/-- A message's own tracker entry is live. -/
def State.onTracker (s : State) (m : Msg) : Bool := (m.route.bind (·.tracker)).any (fun k => (s.tracker? k).isSome)

/-- The bytes of a rank 2 message counted at its egress port (R283). -/
def State.countRank2 (s : State) (m : Msg) : State :=
  if m.rank = 2 then { s with xb := { s.xb with rank2 := cntAdd s.xb.rank2 m.out m.hdr.flitLen } } else s

/-- A packed message's cells, free from tick `t` (R253). -/
def Msg.freed (m : Msg) (t : Nat) : FreedCells := ⟨m.origin, m.inLp, m.chCls, m.chPlot, m.cells, t⟩

/-- The message leaves: checks, taps, credit, its tracker entry marked sent, and the flit; its cells are free in the tick after its last
byte is packed (R253). -/
def State.packMsg (s : State) (m : Msg) : State :=
  let e := m.out
  let s := (s.measure m).qrsvCheck m
  let s := if s.isRole e 0 then (s.tap m.tapOf).postedTaps e else s
  let s := s.consume e m.hdr
  let s := s.countRank2 m
  let s := match m.route.bind (·.tracker) with
    | some k =>
      let mark (t : Tracker) : Tracker := if t.id = k then { t with sent := true } else t
      { s with dp := { s.dp with trackers := s.dp.trackers.map mark } }
    | none => s
  let s := s.modTfl e (fun t => { t with pend := t.pend + m.hdr.flitLen })
  let s := if m.carriesParity && !s.onTracker m then
      { s with hedge := { s.hedge with leaving := s.hedge.leaving ++ [(m.cls.parity, s.tick + 3)] } } else s
  let s := { s with xb := { s.xb with freed := s.xb.freed ++ [m.freed (s.tick + m.hdr.xticks)] } }
  (s.emit (.flit e (s.tick + 3) (m.route.bind (·.ld)) m.hdr s.flt.viral)).delMsg m.id

/-- EGRESS_PACK: in the tick after the first of traverse, in which what is left of a longer message traverses; a link that is down
ends the message under R74 (R244, R252). -/
def State.egressPack (s : State) (m : Msg) : State :=
  let s := if 512 < m.hdr.flitLen then s.xbarBytes m (m.hdr.flitLen - 512) else s
  if !s.dllUp m.out then s.dropMsg m
  else if s.gleaned m then (s.glean m.cls).delMsg m.id
  else s.packMsg m

/-- EGRESS_PACK (R25). -/
def execEgressPack (m : Nat) (s : State) : Host.Outcome State Fault Refusal :=
  act s (fun s => match s.msg? m with
    | some x => if x.stage = .packing ∧ x.since < s.tick then s.egressPack x else s
    | none => s)

/-! ### The residence view (R31, R32) -/

/-- The registers of the view take a port's totals; RES_OVERRUN shows the low 32 bits of its count, whose end of range the spec does not
give (DESIGN CHOICE, log 80). -/
def State.resShow (s : State) (r : ResTot) : State :=
  let s := (s.set64 Reg.globalResCountLo Reg.globalResCountHi r.count).wr Reg.globalResMax (BitVec.ofNat 32 (min r.max 0xFFFFFFFF))
  let s := s.wr Reg.globalResOverrun (BitVec.ofNat 32 r.overrun)
  let s := (s.set64 Reg.globalResEinLo Reg.globalResEinHi r.sums.ein).set64 Reg.globalResIdehLo Reg.globalResIdehHi r.sums.ideh
  let s := (s.set64 Reg.globalResHomeLo Reg.globalResHomeHi r.sums.home).set64 Reg.globalResSnoopLo Reg.globalResSnoopHi r.sums.snoop
  let s := (s.set64 Reg.globalResRetryLo Reg.globalResRetryHi r.sums.retry).set64 Reg.globalResQueueLo Reg.globalResQueueHi r.sums.queue
  let s := (s.set64 Reg.globalResCredLo Reg.globalResCredHi r.sums.cred).set64 Reg.globalResWorstTickLo Reg.globalResWorstTickHi r.worst.1
  s.setFs [(Fld.globalResWorstInfoLp, r.worst.2.1), (Fld.globalResWorstInfoPlot, r.worst.2.2)]

/-- A write of RES_SEL: PORT, and that port's totals in the view (R31). -/
def State.resSelWrite (s : State) (v : Word) : State :=
  (s.setF Fld.globalResSelPort (fieldGet v 0 6)).resShow (s.resTot (fieldGet v 0 6))

/-- RES_SEL_WRITE (R31). -/
def execResSelWrite (v : Word) (s : State) : Host.Outcome State Fault Refusal := act s (·.resSelWrite v)

/-- A write of RES_CTL.CLEAR: every port's totals and the view are 0 (R31, R32). -/
def State.resClear (s : State) : State := ({ s with dp := { s.dp with res := [] } }).resShow {}

/-- RES_CLEAR (R31). -/
def execResClear (s : State) : Host.Outcome State Fault Refusal := act s (·.resClear)

end Sys2Proof.Machine
end

