-- ==== Sys2Proof/Machine/Safe.lean ====
section
/-! DEFINITION. The safe-state reaction to the first FATAL event (R402), with what the home (R237), the arbiter (R251) and the
meter (R345) do in it. -/

namespace Sys2Proof.Machine

/-- A message that the reaction leaves alone: not classified yet (CLASSIFY discards it), with its first tick traversed, or bound for the
device's own endpoints (R402). -/
def Msg.untouched (m : Msg) : Bool :=
  decide (m.stage = .macHeld ∨ m.stage = .unpacked ∨ m.stage = .packing ∨ m.cls.path = .steward ∨ m.cls.path = .config)

/-- A request ends by its kind (R402): reads with poison, other CXL.io non-posted requests with Completer Abort, writes without
completion. -/
def State.safeEnd (s : State) (cls : Cls) (req : Hdr) : State :=
  if req.op.isWrite then s else s.replyPoison cls req .ca

/-- A write is past recall: its first tick has traversed. -/
def State.writeSent (s : State) (t : Tracker) : Bool :=
  t.sent || s.dp.msgs.any (fun m => decide (m.stage = .packing) && decide ((m.route.bind (·.tracker)) = some t.id))

/-- What of a read has not gone on to its requester (R39). -/
def Tracker.left (t : Tracker) : Hdr :=
  { t.req with size := t.req.size - (if t.got = 0 then 0 else keptFrom t.denied + t.got) }

/-- A message leaves the arbiter: a grant that it had is a bubble (R251). -/
def State.bubbleOut (s : State) (m : Msg) : State :=
  (if m.stage = .granted then s.add64 Reg.xbarBubbleLo Reg.xbarBubbleHi 1 else s).delMsg m.id

/-- A tracker entry is ended by the reaction (R237, R402); `done` holds the groups of writes issued twice already completed, `keep` the
messages that the reaction leaves alone. Another message that waits with the entry is discarded. -/
def State.safeTracker (keep : List Nat) (x : State × List Nat) (t : Tracker) : State × List Nat :=
  let s := x.1
  let w := s.dp.msgs.filter (fun m => !keep.contains m.id && decide ((m.route.bind (·.tracker)) = some t.id))
  let sent := s.writeSent t
  let s := (w.foldl State.bubbleOut s).untrack t.id
  if t.use ≠ .request then (s, x.2)
  else if t.req.op.isWrite then
    match t.group with
    | some g => if !sent || x.2.contains g then (s, x.2) else (s.reply t.cls t.req [] false .sc 0 none, x.2 ++ [g])
    | none => (if sent then s.reply t.cls t.req [] false .sc 0 none else s, x.2)
  else (s.safeEnd t.cls t.left, x.2)

/-- A response past stage 1 (R251, R402). A completion of a write leaves from the buffer as it is, and before the buffer the device makes
it; every other one is discarded, a grant it had being a bubble, and its request ends by its kind: what it brought of a read as poison.
-/
def State.safeResponse (s : State) (m : Msg) (waits : Bool) : State :=
  if m.req.op.isWrite then
    if waits then s else (s.delMsg m.id).reply m.cls m.req [] false m.hdr.status m.hdr.grant (m.route.bind (·.key))
  else (s.bubbleOut m).safeEnd m.cls (if m.hdr.data.isEmpty then m.req else { m.req with size := m.hdr.data.length })

/-- A message ends by its place and kind (R251, R402). Its receive credit returns when it has not entered an engine. -/
def State.safeMsg (keep : List Nat) (s : State) (m : Msg) : State :=
  let waits := decide (m.stage = .bid ∨ m.stage = .blocked ∨ m.stage = .granted)
  if keep.contains m.id || decide (m.hdr.op = .biConflictAck) then s
  else if m.hdr.op.isResponse then (if waits || m.route.isSome then s.safeResponse m waits else s.delMsg m.id)
  else
    let s := if m.stage = .atEngine then s.discardIn m else s.bubbleOut m
    if m.made || decide (m.origin = .second) then s else s.safeEnd m.cls m.req

/-- Every request and message of the datapath ends by its kind, and the home halts with its directory kept (R237, R402). -/
def State.safeData (s : State) : State :=
  let ms := s.dp.msgs.map (·.id)
  let keep := (s.dp.msgs.filter (fun m => m.untouched || s.onGoing m)).map (·.id)
  let s := (s.dp.trackers.foldl (State.safeTracker keep) (s, [])).1
  let s := ms.foldl (fun s i => match s.msg? i with
    | some m => s.safeMsg keep m
    | none => s) s
  let s := s.dp.trapQ.foldl (fun s x => s.safeEnd x.2.cls x.2.req) s
  { s with
    home := { s.home with txns := [], parked := [], snoops := [], poison := [] },
    dp := { s.dp with legs := [], bids := [] } }

/-- The reaction to a FATAL event of tick `T` and source `src`; it starts in tick F = T + 1 (R402). -/
def State.safeReaction (s : State) (T src : Nat) : State :=
  let s := { s with flt := { s.flt with fatalDue := none, viral := true } }
  let s := s.setFs [(Fld.faultStatFatal, 1), (Fld.faultStatFatalSrc, src), (Fld.faultFltPinPulse, 1),
    (Fld.faultFltPinLevel, 1), (Fld.homeStatHalted, 1)]
  let s := s.set64 Reg.faultFatalTickLo Reg.faultFatalTickHi T
  ((s.harFatal.safeData).meterFatal)

/-- SAFE_STATE_REACTION: in the tick after the first FATAL event since device reset (R402). -/
def execSafeStateReaction (s : State) : Host.Outcome State Fault Refusal :=
  act s (fun s => match s.flt.fatalDue with
    | some d => if d.1 < s.tick ∧ s.getF Fld.faultStatFatal = 0 then s.safeReaction d.1 d.2 else s
    | none => s)

end Sys2Proof.Machine
end

