-- ==== Sys2Proof/Machine/Security.lean ====
section
/-! DEFINITION. Signed commands, lifecycle, debug and JTAG (R289 to R295, R313, R314), link IDE keys (R304), and the key slots of
plots (R310, R311). -/

namespace Sys2Proof.Machine

/-! ### Signed commands (R292 to R295) -/

/-- Lifecycle state: 0 BLANK, 1 MANUFACTURE, 2 PROVISIONED, 3 DEPLOYED, 4 RETURNED (R316). -/
def State.lifecycle (s : State) : Nat := s.getF Fld.globalLifecycleState

/-- PROVISIONED or DEPLOYED. -/
def State.shipped (s : State) : Bool := decide (s.lifecycle = 2 ∨ s.lifecycle = 3)

/-- Bytes of the command window. -/
def State.cmdBytes (s : State) : List Byte := (List.range 58).flatMap (fun i => leBytes 4 (s.rd (Reg.securityCmd i)).toNat)

/-- A field of the command, little-endian. -/
def State.cmdLe (s : State) (off len : Nat) : Nat := leNat (bytesAt s.cmdBytes off len)

/-- Code of the command. -/
def State.cmdCode (s : State) : Nat := s.cmdLe 0 4

/-- First registry slot of a class, and the number of its slots (R292, R318). -/
def keyClass (c : Nat) : Nat × Nat := if c = 0 then (0, 4) else if c = 1 then (4, 4) else if c = 2 then (8, 16) else (24, 4)

/-- Class and slot that the command's ARG names. -/
def State.cmdArg (s : State) : Nat × Nat := (s.cmdLe 4 4 % 4, s.cmdLe 4 4 / 16 % 16)

/-- A registry slot's used fuse. -/
def State.keyUsed (s : State) (k : Nat) : Bool := Nat.testBit (s.rd Reg.securityKeyregUsed).toNat k

/-- A registry slot's retired fuse. -/
def State.keyRetired (s : State) (k : Nat) : Bool := Nat.testBit (s.rd Reg.securityKeyregRetired).toNat k

/-- Slots of a class that are used and not retired. -/
def State.liveKeys (s : State) (c : Nat) : List Nat :=
  ((List.range (keyClass c).2).map (fun i => (keyClass c).1 + i)).filter (fun k => s.keyUsed k && !s.keyRetired k)

/-- A command has a code of R294. -/
def State.cmdKnown (s : State) : Bool := decide (1 ≤ s.cmdCode ∧ s.cmdCode ≤ 6)

/-- FORMAT: an unknown code, or a reserved byte that is not 0 (R293, R295). -/
def State.cmdFormatBad (s : State) : Bool :=
  !s.cmdKnown || decide (s.cmdLe 0x81 7 ≠ 0) || decide (s.cmdLe 4 4 / 4 % 4 ≠ 0 ∨ s.cmdLe 4 4 / 256 ≠ 0)

/-- The signature verifies under a key of a class. -/
def State.cmdSigned (s : State) (c : Nat) : Bool :=
  (s.liveKeys c).any (fun k => Config.ecdsaVerify (Tbl.get (fun _ => []) s.sec.keys k) (bytesAt s.cmdBytes 0 0x88)
    (bytesAt s.cmdBytes 0x88 96))

/-- The command is signed as R294 asks. -/
def State.cmdSigOk (s : State) : Bool :=
  match s.cmdCode with
  | 1 => s.cmdSigned 0 || (decide (s.lifecycle = 2) && decide (s.cmdArg.1 = 0) && (List.range 4).all (fun k => !s.keyUsed k))
  | 4 => s.cmdSigned 0 || Config.ecdsaVerify Config.returnKey (bytesAt s.cmdBytes 0 0x88) (bytesAt s.cmdBytes 0x88 96)
  | 5 => s.cmdSigned 3
  | 6 => true
  | _ => s.cmdSigned 0

/-- The lifecycle state permits the command (R294). -/
def State.cmdStateOk (s : State) : Bool :=
  match s.cmdCode with
  | 3 => decide (s.lifecycle = 2)
  | 6 => true
  | _ => s.shipped

/-- The registry's slots permit the command (R294). -/
def State.cmdSlotOk (s : State) : Bool :=
  let c := s.cmdArg.1
  let k := (keyClass c).1 + s.cmdArg.2
  let there := decide (s.cmdArg.2 < (keyClass c).2)
  match s.cmdCode with
  | 1 => there && !s.keyUsed k && !s.keyRetired k
  | 2 => there && s.keyUsed k
  | 3 => !(s.liveKeys 1).isEmpty && !(s.liveKeys 2).isEmpty
  | _ => true

/-- The command would retire the last ROOT key. -/
def State.cmdLastRoot (s : State) : Bool :=
  decide (s.cmdCode = 2 ∧ s.cmdArg.1 = 0) && (s.liveKeys 0).all (fun k => decide (k = s.cmdArg.2))

/-- The first failure, in the order of R295; 0 for none. -/
def State.cmdResult (s : State) : Nat :=
  if s.cmdFormatBad then 6
  else if s.cmdLe 0x10 16 ≠ (Config.uid 0).toNat then 3
  else if s.cmdLe 8 8 ≠ s.get64 Reg.securityNonceLo Reg.securityNonceHi then 2
  else if !s.cmdSigOk then 1
  else if !s.cmdStateOk then 4
  else if !s.cmdSlotOk then 5
  else if s.cmdLastRoot then 7
  else 0

/-- A new random nonce (R295; log 7). -/
def State.newNonce (s : State) : State :=
  let d := s.draw 64
  d.2.set64 Reg.securityNonceLo Reg.securityNonceHi d.1.toNat

/-- A command ends with a result, and the nonce is new (R295). -/
def State.cmdDone (s : State) (r : Nat) : State :=
  (s.setFs [(Fld.securityCmdStatBusy, 0), (Fld.securityCmdStatResult, r)]).newNonce

/-- A write of CMD_CTL.GO: the command in CMD runs; one whose code is unknown ends at once with FORMAT (R293, R295, R318). -/
def State.cmdGo (s : State) : State :=
  if s.getF Fld.securityCmdStatBusy = 1 then s
  else if s.cmdKnown then s.setF Fld.securityCmdStatBusy 1
  else s.cmdDone 6

/-- The running command, if it has code `c`, completes: its effect where it is accepted, and its result. -/
def State.cmdRun (s : State) (c : Nat) (f : State → State) : State :=
  if s.getF Fld.securityCmdStatBusy = 1 ∧ s.cmdCode = c then
    let r := s.cmdResult
    (if r = 0 then f s else s).cmdDone r
  else s

/-- The command's key is registered, and its slot is used (R292, R294). -/
def State.addKey (s : State) : State :=
  let k := (keyClass s.cmdArg.1).1 + s.cmdArg.2
  let key := bytesAt s.cmdBytes 0x20 97
  { s.setF ⟨Reg.securityKeyregUsed, k, 1⟩ 1 with sec := { s.sec with keys := Tbl.set (fun _ => []) s.sec.keys k key } }

/-- The command's slot is retired (R294, R295). -/
def State.retireKey (s : State) : State := s.setF ⟨Reg.securityKeyregRetired, (keyClass s.cmdArg.1).1 + s.cmdArg.2, 1⟩ 1

/-- ADD_KEY (R294). -/
def execAddKey (s : State) : Host.Outcome State Fault Refusal := act s (·.cmdRun 1 (·.addKey))

/-- RETIRE_KEY (R294). -/
def execRetireKey (s : State) : Host.Outcome State Fault Refusal := act s (·.cmdRun 2 (·.retireKey))

/-- EXTEST, CLAMP and HIGHZ are available (R314). -/
def State.pinTest (s : State) : Bool :=
  decide (s.lifecycle = 0 ∨ s.lifecycle = 1 ∨ s.lifecycle = 4) ||
    (decide (s.lifecycle = 2) && decide (s.getF Fld.securityDbgStatOpen = 1))

/-- The JTAG instruction in force. -/
def State.setJtag (s : State) (j : JtagOp) : State := { s with sec := { s.sec with jtag := j } }

/-- An instruction that drives the pins acts as BYPASS once it is no longer available (R314). -/
def State.pinCheck (s : State) : State :=
  match s.sec.jtag with
  | .extest | .clamp | .highz => if s.pinTest then s else s.setJtag .bypass
  | _ => s

/-- LC_DEPLOY: the device is DEPLOYED (R289, R290, R294). -/
def execLcDeploy (s : State) : Host.Outcome State Fault Refusal :=
  act s (·.cmdRun 3 (fun s => (s.setF Fld.globalLifecycleState 3).pinCheck))

/-- Entry to RETURNED (R291, R348): the meter closes, the fatal-fault reaction runs at once, and zeroisation starts. -/
def State.lcReturn (s : State) : State :=
  let s := (s.setF Fld.globalLifecycleState 4).meterReturn
  let s := if s.getF Fld.faultStatFatal = 1 then s else s.safeReaction s.tick 0
  { s with sec := { s.sec with zeroDue := true } }

/-- LC_RETURN (R291, R294). -/
def execLcReturn (s : State) : Host.Outcome State Fault Refusal := act s (·.cmdRun 4 (·.lcReturn))

/-- Every key and secret is gone, the identity secret is blown, and the links, whose keys are gone too, are in Detect (R289,
R291). -/
def State.zeroise (s : State) : State :=
  let s := (List.range 64).foldl (fun s l => if s.lpExists l then s.linkDown l else s) s
  let s := (List.range 64).foldl (fun s l => s.setFs [(Fld.securityIdeStatState l, 0), (Fld.securityIdeStatKset l, 0)]) s
  let s := { s with
    link := { s.link with ide := [] },
    sec := { s.sec with kslots := [], sessions := [], chunks := [], last := [], zeroDue := false, gone := true } }
  s.setFs [(Fld.securitySpdmStatSessions, 0), (Fld.securityDbgStatZeroised, 1)]

/-- ZEROISATION_DONE (R291). -/
def execZeroisationDone (s : State) : Host.Outcome State Fault Refusal := act s (fun s => s.when s.sec.zeroDue (·.zeroise))

/-- DEBUG_UNLOCK: a debug master is open (R294, R313). -/
def execDebugUnlock (s : State) : Host.Outcome State Fault Refusal := act s (·.cmdRun 5 (·.setF Fld.securityDbgStatOpen 1))

/-- DEBUG_LOCK: the debug master closes (R294, R313). -/
def execDebugLock (s : State) : Host.Outcome State Fault Refusal := act s (·.cmdRun 6 (fun s => (s.setF Fld.securityDbgStatOpen 0).pinCheck))

/-! ### Debug and JTAG (R313, R314) -/

/-- A debug master is open: in BLANK and MANUFACTURE always, in RETURNED once zeroised, else after DEBUG_UNLOCK (R313). -/
def State.debugOpen (s : State) : Bool :=
  if s.lifecycle ≤ 1 then true
  else if s.lifecycle = 4 then decide (s.getF Fld.securityDbgStatZeroised = 1)
  else decide (s.getF Fld.securityDbgStatOpen = 1)

/-- IDCODE: the main die's identification code is shifted out (R314). -/
def execIdcode (s : State) : Host.Outcome State Fault Refusal := act s (fun s => (s.setJtag .idcode).emit (.jtag 0x03288139))

/-- BYPASS (R314). -/
def execBypass (s : State) : Host.Outcome State Fault Refusal := act s (·.setJtag .bypass)

/-- SAMPLE/PRELOAD: the pins' levels are shifted out; the manual does not list the chain (R314; log 7). -/
def execSamplePreload (s : State) : Host.Outcome State Fault Refusal :=
  act s (fun s => let d := s.draw 32; (d.2.setJtag .sample).emit (.jtag d.1))

/-- An instruction that drives the pins, or BYPASS where it is not available (R314). -/
def State.pinJtag (s : State) (j : JtagOp) : State := s.setJtag (if s.pinTest then j else .bypass)

/-- EXTEST (R314). -/
def execExtest (s : State) : Host.Outcome State Fault Refusal := act s (·.pinJtag .extest)

/-- CLAMP (R314). -/
def execClamp (s : State) : Host.Outcome State Fault Refusal := act s (·.pinJtag .clamp)

/-- HIGHZ (R314). -/
def execHighz (s : State) : Host.Outcome State Fault Refusal := act s (·.pinJtag .highz)

/-! ### Link IDE keys (R304, R306) -/

/-- A key set of a stream is programmed. -/
def Ide.has (i : Ide) (k : Bool) : Bool := if k then i.set1 else i.set0

/-- A stream's keys are programmed. The device is the IDE_KM requester of a downstream port; of a fabric port when its identity is
the lower one, and the partner's is not known here (R304; log 7). -/
def State.ideKeys (s : State) (lp : Nat) (k : Bool) : State :=
  if !s.lpExists lp then s
  else
    let d := s.draw 1
    let s := if s.role lp = 2 then d.2.setF (Fld.securityIdeStatReqRole lp) d.1.toNat
      else s.setF (Fld.securityIdeStatReqRole lp) (bit (decide (s.role lp = 1)))
    s.modIde lp (fun i => if k then { i with set1 := true } else { i with set0 := true })

/-- IDE_KM_KEY_PROG (R304). -/
def execIdeKmKeyProg (lp : Lp) (k : Bool) (s : State) : Host.Outcome State Fault Refusal := act s (·.ideKeys lp.val k)

/-- A stream moves to the other key set: the mode that IDE_CTL gives applies, and the stream is Secure (R304, R319). A running
stream told to use a set without keys is inconsistent (R306). -/
def State.kSetGo (s : State) (lp : Nat) (k : Bool) : State :=
  let i := s.ide lp
  let secure := decide (s.getF (Fld.securityIdeStatState lp) = 1)
  if secure && decide (s.getF (Fld.securityIdeStatKset lp) = bit k) then s
  else if i.has k then
    (s.setFs [(Fld.securityIdeStatState lp, 1), (Fld.securityIdeStatKset lp, bit k)]).modIde lp (fun i => { i with
      contain := decide (s.getF (Fld.securityIdeCtlMode lp) = 1) })
  else if secure then s.ideFail lp 0
  else s

/-- K_SET_GO (R304). -/
def execKSetGo (lp : Lp) (k : Bool) (s : State) : Host.Outcome State Fault Refusal := act s (·.kSetGo lp.val k)

/-! ### Key slots (R310, R311) -/

/-- A key slot. -/
def State.kslot (s : State) (p : Nat) : KSlot := Tbl.get (fun _ => {}) s.sec.kslots p

/-- A key slot set. -/
def State.setKslot (s : State) (p : Nat) (k : KSlot) : State :=
  { s with sec := { s.sec with kslots := Tbl.set (fun _ => {}) s.sec.kslots p k } }

/-- A message, request or harrow move in flight uses a plot's key slot (R311). -/
def State.slotInUse (s : State) (p : Nat) : Bool :=
  s.dp.msgs.any (fun m => decide (m.cls.plot = p)) || s.dp.trackers.any (fun t => decide (t.cls.plot = p)) ||
  (List.range 4).any (fun c => (s.har c).moves.any (fun v => decide (v.plot = p ∨ v.dplot = p)))

/-- A fresh pair is written to a slot (R310, R311). -/
def State.freshKey (s : State) (p : Nat) : State :=
  let d := s.draw 512
  d.2.setKslot p ⟨1, s.tick, d.1⟩

/-- KEY_SLOT_REGENERATE: an ERASING slot that nothing uses any more (R311). -/
def execKeySlotRegenerate (p : PlotNo) (s : State) : Host.Outcome State Fault Refusal :=
  act s (fun s => if (s.kslot p.val).state = 3 ∧ !s.slotInUse p.val then s.freshKey p.val else s)

end Sys2Proof.Machine
end

