-- ==== Sys2Proof/Machine/CfgStore.lean ====
section
/-! DEFINITION. The configuration store (14): the flash, checks of a copy, the choice at start-up step 4 (R359), and flash
commands. -/

namespace Sys2Proof.Machine

/-! ### The flash (R353 to R355) -/

/-- The store's state changed. -/
def State.setCfg (s : State) (f : CfgSt → CfgSt) : State := { s with cfg := f s.cfg }

/-- Base address of a copy; true names B (R353). -/
def copyBase (b : Bool) : Nat := if b then 0x2000000 else 0

/-- Bytes of the flash; an erased byte is 0xFF (log 9). -/
def State.flashBytes (s : State) (a n : Nat) : List Byte := (List.range n).map (fun i => Tbl.get (fun _ => 0xFF) s.cfg.flash (a + i))

/-- Bytes of the flash changed. -/
def State.flashPut (s : State) (a : Nat) (l : List Byte) : State :=
  s.setCfg (fun c => { c with
    flash := ((List.range l.length).foldl (fun t i =>
    Tbl.set (fun _ => 0xFF) t (a + i) ((l[i]?).getD 0xFF)) c.flash) })

/-- A little-endian field of a copy. -/
def State.copyLe (s : State) (b : Bool) (off len : Nat) : Nat := leNat (s.flashBytes (copyBase b + off) len)

/-- A copy's header has the right MAGIC (R354). -/
def State.copyMagic (s : State) (b : Bool) : Bool := decide (s.copyLe b 0 4 = 0x54464343)

/-- Header fields of a copy (R354). -/
def State.copySeq (s : State) (b : Bool) : Nat := s.copyLe b 8 8
/-- Body length of a copy (R354). -/
def State.copyLen (s : State) (b : Bool) : Nat := s.copyLe b 0x10 4
/-- CONFIG slot of a copy (R354). -/
def State.copyKey (s : State) (b : Bool) : Nat := s.copyLe b 6 1

/-- A directory entry of a copy: type, offset, length, reserved word (R355). -/
def State.section (s : State) (b : Bool) (i : Nat) : Nat × Nat × Nat × Nat :=
  (s.copyLe b (0x100 + 16 * i) 4, s.copyLe b (0x104 + 16 * i) 4, s.copyLe b (0x108 + 16 * i) 4, s.copyLe b (0x10C + 16 * i) 4)

/-- The directory of a copy. -/
def State.sections (s : State) (b : Bool) : List (Nat × Nat × Nat × Nat) :=
  (List.range (s.copyLe b 0x14 4)).map (s.section b)

/-- The bytes of a copy's section of a type, if it has one. -/
def State.sectionBytes (s : State) (b : Bool) (ty : Nat) : Option (List Byte) :=
  ((s.sections b).find? (fun x => x.1 = ty)).map (fun x => s.flashBytes (copyBase b + x.2.1) x.2.2.1)

/-! ### Checking a copy (R357, R358) -/

/-- The directory has a fault (code 0x07). -/
def State.dirBad (s : State) (b : Bool) : Bool :=
  let l := s.sections b
  let stop := 0x100 + s.copyLen b
  l.any (fun x => decide (x.2.1 < 0x100 ∨ stop < x.2.1 + x.2.2.1 ∨ x.2.2.2 ≠ 0)) ||
  (pairsOf l).any (fun p => decide (p.1.1 = p.2.1) || runsMeet p.1.2.1 p.1.2.2.1 p.2.2.1 p.2.2.2.1)

/-- The HASH of a copy's covered bytes (R354). -/
def State.copyHash (s : State) (b : Bool) : BitVec 384 :=
  Config.sha384 (s.flashBytes (copyBase b) 0x30 ++ s.flashBytes (copyBase b + 0x100) (s.copyLen b))

/-- The code of a check of a copy: its first failure (R357). -/
def State.checkCode (s : State) (b : Bool) : Nat :=
  let base := copyBase b
  if !s.copyMagic b || decide (s.copyLe b 4 2 ≠ 1 ∨ s.copyLe b 7 1 ≠ 0 ∨ s.copyLe b 0x18 0x18 ≠ 0) then 2
  else match (if s.copyKey b < 4 then s.regKey (4 + s.copyKey b) else none) with
    | none => 3
    | some key =>
      if s.copyLen b < 0x100 ∨ 0x1FFFF00 < s.copyLen b ∨ s.copyLe b 0x14 4 < 1 ∨ 16 < s.copyLe b 0x14 4 then 4
      else if s.copyHash b ≠ BitVec.ofNat 384 (beNat (s.flashBytes (base + 0x30) 48)) then 5
      else if !Config.ecdsaVerify key (s.flashBytes (base + 0x30) 48) (s.flashBytes (base + 0x60) 96) then 6
      else if s.dirBad b then 7
      else match s.sectionBytes b 1 with
        | none => 8
        | some fw => if Config.fwCheck 1 fw then 0 else 8

/-- Reason field of a copy. -/
def reasonFd (b : Bool) : Fd := if b then Fld.cfgstoreReasonB else Fld.cfgstoreReasonA

/-- VALID bit of a copy. -/
def validFd (b : Bool) : Fd := if b then Fld.cfgstoreStatValidB else Fld.cfgstoreStatValidA

/-- The preferred copy from the present check results: 0 none, 1 A, 2 B (R362). -/
def State.prefNow (s : State) : Nat :=
  let va := s.getF Fld.cfgstoreStatValidA
  let vb := s.getF Fld.cfgstoreStatValidB
  let sa := s.get64 Reg.cfgstoreSeqALo Reg.cfgstoreSeqAHi
  let sb := s.get64 Reg.cfgstoreSeqBLo Reg.cfgstoreSeqBHi
  if va = 1 ∧ vb = 1 then (if sa < sb then 2 else 1) else if va = 1 then 1 else if vb = 1 then 2 else 0

/-- PREF follows the check results. -/
def State.prefer (s : State) : State := s.setF Fld.cfgstoreStatPref s.prefNow

/-- SEQ of a copy's header as read, 0 when its MAGIC is wrong (R364). -/
def State.readSeq (s : State) (b : Bool) : State :=
  let v := if s.copyMagic b then s.copySeq b else 0
  if b then s.set64 Reg.cfgstoreSeqBLo Reg.cfgstoreSeqBHi v else s.set64 Reg.cfgstoreSeqALo Reg.cfgstoreSeqAHi v

/-- A check of a copy ends: its code, VALID, SEQ and PREF (R357, R362), and source 21 is pending (R377). -/
def State.checked (s : State) (b : Bool) : State :=
  let c := s.checkCode b
  ((((s.setFs [(reasonFd b, c), (validFd b, bit (decide (c = 0)))]).readSeq b).prefer).setCfg (fun c => { c with
    check := none })).pendAll 21

/-! ### Start-up step 4 (R359, R360) -/

/-- A start-up step completes, and the next begins (R424). -/
def State.stepDone (s : State) (k : Nat) : State :=
  (s.set64 (Reg.cprStepDoneLo (k - 1)) (Reg.cprStepDoneHi (k - 1)) s.tick).setF Fld.cprStartStep (k + 1)

/-- Start-up halts (R425). -/
def State.haltStart (s : State) (cause : Nat) : State := s.setFs [(Fld.cprStartHalt, 1), (Fld.cprStartHaltCause, cause)]

/-- Step 4 begins: both headers are read, and the copies are checked in the order of R359. -/
def State.chooseBegin (s : State) : State :=
  let s := (s.readSeq false).readSeq true
  let bFirst := s.copyMagic true && (!s.copyMagic false || decide (s.copySeq false < s.copySeq true))
  (s.setCfg (fun c => { c with boot := if bFirst then [true, false] else [false, true] })).setF Fld.cfgstoreCheckBusy 1

/-- A copy is chosen: the steward boots from its firmware, and SPDM slots 1 and 2 are loaded (R297, R359, R361; log 10). -/
def State.choose (s : State) (b : Bool) : State :=
  let fw := (s.sectionBytes b 1).getD []
  let s := s.setFs [(Fld.cfgstoreStatBootSel, 1 + bit b), (Fld.cfgstoreStatKeyslot, s.copyKey b),
    (Fld.cfgstoreStatUnknown, bit ((s.sections b).any (fun x => decide (x.1 = 0 ∨ 9 < x.1)))), (Fld.stewardFwStatValidA, 1)]
  let s := s.set64 Reg.stewardFwSeqALo Reg.stewardFwSeqAHi (Config.fwSeq fw).toNat
  let certs := match s.sectionBytes b 9 with
    | some l => [1, 2].foldl (fun t k => Tbl.set (fun _ => []) t k (Config.standardBody 8 (k :: l.map (·.toNat)))) s.sec.certs
    | none => s.sec.certs
  let s := { s with
    sec := { s.sec with certs := certs },
    stw := { s.stw with fwSlots := Tbl.set (fun _ => 0) s.stw.fwSlots 0 (Config.sha384 fw) } }
  (s.setCfg (fun c => { c with boot := [], hash := s.copyHash b })).stepDone 4

/-- A check of step 4 ends: the copy is chosen, the other is checked next, or none is valid (R359, R360). -/
def State.chooseNext (s : State) (b : Bool) (rest : List Bool) : State :=
  let s := s.checked b
  if s.getF (reasonFd b) = 0 then (s.choose b).setF Fld.cfgstoreCheckBusy 0
  else if !rest.isEmpty then s.setCfg (fun c => { c with boot := rest })
  else
    let s := ((s.setCfg (fun c => { c with boot := [] })).setF Fld.cfgstoreCheckBusy 0).haltStart 2
    s.raise { src := 0x0C, tick := s.tick, d0 := (s.rd Reg.cfgstoreReason).toNat }

/-! ### Commands -/

/-- A flash command or a check is running. -/
def State.storeBusy (s : State) : Bool := s.cfg.job.isSome || s.cfg.check.isSome || !s.cfg.boot.isEmpty

/-- A refused command (R363, R364). -/
def State.storeRefuse (s : State) (cause : Nat) : State :=
  s.setFs [(Fld.cfgstoreFlashStatRefused, 1), (Fld.cfgstoreFlashStatCause, cause)]

/-- A write of CHECK: COPY takes the written bit, and GO checks that copy; one that comes while a command or check runs is ignored
(R363, R364). -/
def State.checkWrite (s : State) (b go : Bool) : State :=
  if go && s.storeBusy then s.storeRefuse 1
  else
  let s := s.setF Fld.cfgstoreCheckCopy (bit b)
  if !go then s
  else (s.setCfg (fun c => { c with check := some b })).setF Fld.cfgstoreCheckBusy 1

/-- CHECK (R364). -/
def execCheck (b : Bool) (s : State) : Host.Outcome State Fault Refusal := act s (·.checkWrite b true)

/-- CHECK_DONE: the running check ends, or one of start-up step 4 does (R357, R359). -/
def execCheckDone (s : State) : Host.Outcome State Fault Refusal :=
  act s (fun s => match s.cfg.boot, s.cfg.check with
    | b :: rest, _ => s.chooseNext b rest
    | [], some b => (s.checked b).setF Fld.cfgstoreCheckBusy 0
    | [], none => s)

/-- A copy is erased or programmed: it is not valid until it is checked again (R357, R362). -/
def State.spoil (s : State) (b : Bool) : State := (s.setFs [(reasonFd b, 9), (validFd b, 0)]).prefer

/-- Address of a flash command: a page, or a 64 KiB sector for ERASE (R364). -/
def State.flashAddr (s : State) (op : Nat) : Nat :=
  let p := s.getF Fld.cfgstoreFlashAddrPage
  if op = 2 then p / 256 * 65536 else p * 256

/-- FLASH_CTL.GO with an OP; one that comes while a command or check runs is ignored (R362, R363, R364). -/
def State.flashGo (s : State) (op : Nat) : State :=
  if s.storeBusy then s.storeRefuse 1
  else
  let s := s.setF Fld.cfgstoreFlashCtlOp op
  let a := s.flashAddr op
  let b := decide (0x2000000 ≤ a)
  if op = 3 then s.storeRefuse 3
  else if op ≠ 0 ∧ s.prefNow = 1 + bit b then s.storeRefuse 2
  else
    let s := if op = 0 then s else s.spoil b
    (s.setCfg (fun c => { c with job := some (op, a) })).setF Fld.cfgstoreFlashStatBusy 1

/-- FLASH_READ (R364). -/
def execFlashRead (s : State) : Host.Outcome State Fault Refusal := act s (·.flashGo 0)

/-- FLASH_PROGRAM (R362, R364). -/
def execFlashProgram (s : State) : Host.Outcome State Fault Refusal := act s (·.flashGo 1)

/-- FLASH_ERASE (R362, R364). -/
def execFlashErase (s : State) : Host.Outcome State Fault Refusal := act s (·.flashGo 2)

/-- The page in FLASH_DATA. -/
def State.flashData (s : State) : List Byte := (List.range 64).flatMap (fun i => leBytes 4 (s.rd (Reg.cfgstoreFlashData i)).toNat)

/-- FLASH_DONE: the page is read, the page's bits are programmed, or the sector is erased (R364; log 9). -/
def execFlashDone (s : State) : Host.Outcome State Fault Refusal :=
  act s (fun s => match s.cfg.job with
    | none => s
    | some (op, a) =>
      let s := (s.setCfg (fun c => { c with job := none })).setF Fld.cfgstoreFlashStatBusy 0
      match op with
      | 0 => (List.range 64).foldl (fun s i =>
          s.wr (Reg.cfgstoreFlashData i) (BitVec.ofNat 32 (leNat (s.flashBytes (a + 4 * i) 4)))) s
      | 1 => s.flashPut a (((s.flashBytes a 256).zip s.flashData).map (fun x => x.1 &&& x.2))
      | _ => s.setCfg (fun c => { c with flash := Tbl.clear c.flash a 65536 }))

/-- A device reset cuts a flash command short: what its page or sector then holds is not known (R363, R426; log 7). -/
def State.flashCut (s : State) : State :=
  match s.cfg.job with
  | some (op, a) =>
    let n := if op = 0 then 0 else if op = 1 then 256 else 65536
    let x := s.freeBytes n
    x.2.flashPut a x.1
  | none => s

end Sys2Proof.Machine
end

