-- ==== Sys2Proof/Machine/Endpoint.lean ====
section
/-! DEFINITION. The steward endpoint's ring registers, DMA and RETURN phase (R372 to R376, R381), its interrupts (R377, R378) and
its power states (R383, R384). The commands that rings carry are in Machine/Rings.lean. -/

namespace Sys2Proof.Machine

/-! ### Rings (R372, R373) -/

/-- Entries of a ring of a size field: 2^n, n from 4 to 12 (R394). -/
def ringSize (n : Nat) : Nat := 2 ^ max 4 (min 12 n)

/-- Entries of a submission queue. -/
def State.sqSize (s : State) (i r : Nat) : Nat := ringSize (s.getF (Fld.stewardRingCfgSqLog2 i r))

/-- Entries of a completion queue. -/
def State.cqSize (s : State) (i r : Nat) : Nat := ringSize (s.getF (Fld.stewardRingCfgCqLog2 i r))

/-- A ring pair runs. -/
def State.ringOn (s : State) (i r : Nat) : Bool := s.epPresent i && decide (s.getF (Fld.stewardRingCfgEn i r) = 1)

/-- An instance is served: present, Bus Master Enable 1, in D0 (R381, R383). -/
def State.epServed (s : State) (i : Nat) : Bool :=
  s.epPresent i && decide (s.getF (Fld.stewardEpCfgBme i) = 1 ∧ s.getF (Fld.stewardEpCfgDstate i) = 0)

/-- The steward's image runs and no firmware switch is under way (R391, R424). -/
def State.stewardUp (s : State) : Bool :=
  decide (6 ≤ s.getF Fld.cprStartStep ∧ s.getF Fld.cprStartHalt = 0 ∧ s.getF Fld.stewardFwStatSwitching = 0)

/-- A command of an instance changed. -/
def State.setCmd (s : State) (i : Nat) (c : Option RingPhase) : State := s.setEp i { s.ep i with cmd := c }

/-- Tail of a submission queue as the host's doorbell gave it. -/
def State.sqTail (s : State) (i r : Nat) : Nat := Tbl.get (fun _ => 0) (s.ep i).tails r

/-- A read by DMA: its tracker entry, with the generation, and its number (R379, R382). -/
def State.dmaRead (s : State) (i addr len : Nat) : State × Nat :=
  let id := s.dp.nextId
  let e := s.ep i
  let s := s.setEp i { e with reads := e.reads ++ [(id, s.getF (Fld.stewardEpCfgGen i), s.tick)] }
  (({ s with dp := { s.dp with nextId := id + 1 } }.emit (.dmaRead i addr len id)).epSend i (epHdr .ioMemRd addr len id []), id)

/-- A ring with an entry to fetch. -/
def State.sqWaiting (s : State) (i r : Nat) : Bool :=
  s.ringOn i r && s.epServed i && decide ((s.ep i).cmd = none) &&
  decide (s.getF (Fld.stewardRingStatSqHead i r) ≠ s.sqTail i r) && decide ((s.ep i).reads.length < 64)

/-- A command of an instance is under way and not held. -/
def State.epActive (s : State) (i : Nat) : Bool := (s.ep i).cmd.isSome && s.epServed i

/-- The steward fetches the next entry, in rotation over the 32 rings from the one after that last served, one command at a time
(R374, R375). -/
def State.serve (s : State) : State :=
  if !s.stewardUp || s.epActive 0 || s.epActive 1 then s
  else match ((List.range 32).map (fun k => (s.stw.last + 1 + k) % 32)).find? (fun k => s.sqWaiting (k / 16) (k % 16)) with
    | none => s
    | some k =>
      let i := k / 16
      let r := k % 16
      let base := s.get64 (Reg.stewardRingSqBaseLo i r) (Reg.stewardRingSqBaseHi i r) / 4096 * 4096
      let x := s.dmaRead i (base + 64 * s.getF (Fld.stewardRingStatSqHead i r)) 64
      { x.1 with stw := { x.1.stw with last := k } }.setCmd i (some (.fetch r x.2))

/-- A doorbell's index is in range (R372). -/
def doorbellOk (idx : Word) (size : Nat) : Bool := decide (idx.toNat < size)

/-- A doorbell that reaches the instance: present and not in D3hot (R368). -/
def State.doorbell (s : State) (i r : Nat) (idx : Word) (size : Nat) (f : State → State) : State :=
  if !s.epPresent i ∨ s.getF (Fld.stewardEpCfgDstate i) = 3 then s
  else if s.ringOn i r && doorbellOk idx size then f s
  else s.setF (Fld.stewardRingStatErr i r) 1

/-- A submission tail's doorbell (R372). -/
def State.sqTailDoor (s : State) (i r : Nat) (idx : Word) : State :=
  s.doorbell i r idx (s.sqSize i r) (fun s =>
    (s.setEp i { s.ep i with tails := Tbl.set (fun _ => 0) (s.ep i).tails r idx.toNat }).serve)

/-- SQ_TAIL_DOORBELL (R372). -/
def execSqTailDoorbell (i : Inst) (r : Ring) (idx : Word) (s : State) : Host.Outcome State Fault Refusal :=
  act s (·.sqTailDoor i.val r.val idx)

/-- The entries of a ring that a CQ head has passed on its way from `old` to `new`. -/
def passed (old new size k : Nat) : Bool := decide ((k + size - old) % size < (new + size - old) % size)

/-- A CQ head moves: sources whose entries are all passed are not pending any more (R377). -/
def State.cqHead (s : State) (i r idx : Nat) : State :=
  let e := s.ep i
  let old := Tbl.get (fun _ => 0) e.heads r
  let l := e.cqPend.filter (fun x => !(decide (x.1 = r) && passed old idx (s.cqSize i r) x.2))
  let s := s.setEp i { e with heads := Tbl.set (fun _ => 0) e.heads r idx, cqPend := l }
  let s := if l.any (fun x => x.1 = r) then s
    else s.setF ⟨Reg.stewardIntStat i, r, 1⟩ 0
  s.intaUpdate i

/-- A completion head's doorbell (R372). -/
def State.cqHeadDoor (s : State) (i r : Nat) (idx : Word) : State :=
  s.doorbell i r idx (s.cqSize i r) (fun s => s.cqHead i r idx.toNat)

/-- CQ_HEAD_DOORBELL (R372, R377). -/
def execCqHeadDoorbell (i : Inst) (r : Ring) (idx : Word) (s : State) : Host.Outcome State Fault Refusal :=
  act s (·.cqHeadDoor i.val r.val idx)

/-- The ring that a command came from. -/
def RingPhase.ring : RingPhase → Nat
  | .fetch r _ => r
  | .entry r => r
  | .input r _ _ _ => r
  | .fm r _ => r
  | .switching r _ => r
  | .wait r _ => r
  | .ret r _ _ _ _ _ _ => r

/-- The command is in FETCH. -/
def RingPhase.fetching : RingPhase → Bool
  | .fetch _ _ => true
  | .entry _ => true
  | .input _ _ _ _ => true
  | _ => false

/-- The command is in APPLY. -/
def RingPhase.applying : RingPhase → Bool
  | .fm _ _ => true
  | .switching _ _ => true
  | .wait _ _ => true
  | _ => false

/-- A write of RING_CFG: sizes while EN is 0; EN rising starts both queues anew, EN falling abandons what has not completed
(R372, R373, R394). -/
def State.ringCfgWrite (s : State) (i r : Nat) (v : Word) : State :=
  if !s.epPresent i then s
  else
    let on := s.ringOn i r
    let en := decide (fieldGet v 8 1 = 1)
    if on then
      if en then s
      else
        let s := s.setF (Fld.stewardRingCfgEn i r) 0
        match (s.ep i).cmd with
        | some c => if c.ring = r then (s.setCmd i none).serve else s
        | none => s
    else
      let s := s.setFs [(Fld.stewardRingCfgSqLog2 i r, fieldGet v 0 4), (Fld.stewardRingCfgCqLog2 i r, fieldGet v 4 4),
        (Fld.stewardRingCfgEn i r, bit en)]
      if !en then s
      else
        let e := s.ep i
        let s := s.setEp i { e with
          tails := Tbl.set (fun _ => 0) e.tails r 0, heads := Tbl.set (fun _ => 0) e.heads r 0,
          cqPend := e.cqPend.filter (fun x => x.1 ≠ r) }
        (s.setFs [(Fld.stewardRingStatSqHead i r, 0), (Fld.stewardRingStatCqTail i r, 0), (Fld.stewardRingStatPhase i r, 1),
          (⟨Reg.stewardIntStat i, r, 1⟩, 0)]).intaUpdate i

/-- RING_CFG_WRITE (R372). -/
def execRingCfgWrite (i : Inst) (r : Ring) (v : Word) (s : State) : Host.Outcome State Fault Refusal :=
  act s (·.ringCfgWrite i.val r.val v)

/-! ### RETURN (R373, R375, R376) -/

/-- The steward completes a trapped request (R166): with what, the manual does not say, so status, poison and data are free (log 84). -/
def State.completeTrapped (s : State) (m : Msg) : State :=
  if !m.req.answered then s
  else
    let x := s.draw 2
    let st : CplStatus := if m.req.op.isMem || decide (x.1 = 0 ∨ x.1 = 3) then .sc else if x.1 = 1 then .ur else .ca
    let y := x.2.freeBytes (if m.req.op.isRead && decide (st = .sc) then m.req.size else 0)
    let t := if m.req.op.isRead && decide (st = .sc) then y.2.replyData m.cls m.req y.1 (decide (x.1 = 3)) 0 none
      else y.2.reply m.cls m.req [] false st 0 none
    let mark (z : Msg) : Msg := if s.dp.nextId ≤ z.id then { z with route := z.route.map (fun r => { r with trapped := true }) } else z
    { t with dp := { t.dp with msgs := t.dp.msgs.map mark } }

/-- Bytes of the outbox and trapped messages that a completion consumes (R352, R375); the steward completes trapped requests then, but
those that a fatal fault has ended (R166, R402). -/
def State.consumeOut (s : State) (c : Nat × Nat) : State :=
  let s := if c.1 = 0 then s else s.mzOutRdWrite (BitVec.ofNat 32 ((s.rd Reg.stewardMzOutRd).toNat + c.1))
  if c.2 = 0 then s
  else
    let l := if s.getF Fld.faultStatFatal = 1 then [] else s.dp.trapQ.take c.2
    l.foldl (fun s x => s.completeTrapped x.2) { s with dp := { s.dp with trapQ := s.dp.trapQ.drop c.2 } }

/-- The completion entry is written; the queue's tail and PHASE move on (R373). -/
def State.writeCq (s : State) (i r : Nat) (e : SqEntry) (status result len : Nat) : State :=
  let t := s.getF (Fld.stewardRingStatCqTail i r)
  let ph := s.getF (Fld.stewardRingStatPhase i r)
  let base := s.get64 (Reg.stewardRingCqBaseLo i r) (Reg.stewardRingCqBaseHi i r) / 4096 * 4096
  let entry := leBytes 2 e.cid.toNat ++ leBytes 2 status ++ leBytes 2 (s.getF (Fld.stewardRingStatSqHead i r)) ++
    leBytes 2 ph ++ leBytes 4 result ++ leBytes 4 len
  let s := s.dmaWrite i (base + 16 * t) entry
  let wrap := decide (s.cqSize i r ≤ t + 1)
  let s := s.setFs [(Fld.stewardRingStatCqTail i r, if wrap then 0 else t + 1),
    (Fld.stewardRingStatPhase i r, if wrap then 1 - ph else ph)]
  if e.noInt then s
  else
    let p := s.ep i
    (s.setEp i { p with cqPend := p.cqPend ++ [(r, t)] }).pendSource i r

/-- An entry to D3hot that waited takes place (R383). -/
def State.d3Late (s : State) (i : Nat) : State :=
  if (s.ep i).d3Due then (s.setEp i { s.ep i with d3Due := false }).setF (Fld.stewardEpCfgDstate i) 3 else s

/-- RETURN of an instance's command, when it may be written: output, completion, and what it consumes (R375, R376, R381). -/
def State.finishRet (s : State) (i : Nat) : State :=
  match (s.ep i).cmd with
  | some (.ret r e status result body need consume) =>
    if !s.epServed i then s
    else
      let s := s.setCmd i none
      let fits := decide (body.length ≤ e.outLen.toNat)
      if status = 0 ∧ !fits then s.writeCq i r e 6 result need
      else
        let s := if body.isEmpty then s else s.dmaWrite i e.outAddr.toNat body
        ((s.writeCq i r e status result body.length).consumeOut consume)
  | _ => s

/-- A command's APPLY is done: it goes to RETURN, and the steward to the next command (R374, R375). -/
def State.applied (s : State) (i r : Nat) (e : SqEntry) (status result : Nat) (body : List Byte) (consume : Nat × Nat := (0, 0)) :
    State :=
  (((s.setCmd i (some (.ret r e status result body body.length consume))).d3Late i).finishRet i).serve

/-- SQ_HEAD passes the entry when its command is applied or ended (R381). -/
def State.passEntry (s : State) (i r : Nat) : State :=
  s.setF (Fld.stewardRingStatSqHead i r) ((s.getF (Fld.stewardRingStatSqHead i r) + 1) % s.sqSize i r)

/-- The submission entry of a ring command. -/
def entryOf : Instr → SqEntry
  | .ringNop _ _ e => e
  | .fmapi _ _ e => e
  | .regWrite _ _ e _ => e
  | .regRead _ _ e _ => e
  | .progLoad _ _ e _ _ _ => e
  | .fwLoad _ _ e _ => e
  | .fwActivate _ _ e => e
  | .mzCmd _ _ e _ => e
  | .records _ _ e => e
  | .traps _ _ e => e
  | .cfgWrite _ _ e _ _ => e
  | _ => ⟨false, 0, 0, 0, 0, 0⟩

/-- A command whose DMA read failed (R376); of an entry that was not read the identifier is not known (log 7). -/
def State.fetchFailed (s : State) (i : Nat) : State :=
  match (s.ep i).cmd with
  | some (.fetch r _) =>
    let d := s.draw 16
    (d.2.passEntry i r).applied i r ⟨false, d.1, 0, 0, 0, 0⟩ 3 0 []
  | some (.input r c _ _) =>
    (s.passEntry i r).applied i r (entryOf c) 3 0 []
  | _ => s

/-! ### Bus Master Enable, timeouts, resets (R379 to R382) -/

/-- An instance's DMA read is released. -/
def State.dropRead (s : State) (i id : Nat) : State :=
  s.setEp i { s.ep i with reads := (s.ep i).reads.filter (fun x => x.1 ≠ id) }

/-- The instance's command waits for DMA read `id`. -/
def State.waitsFor (s : State) (i id : Nat) : Bool :=
  match (s.ep i).cmd with
  | some (.fetch _ k) => decide (k = id)
  | some (.input _ _ ids _) => ids.contains id
  | _ => false

/-- AER object of an instance's configuration space. -/
def aerEp (i : Nat) : Nat := epObj i

/-- The completion timeout that an instance's Device Control 2 sets, in ticks (R379; PCIe place, log 20). -/
def State.epTmo (s : State) (i : Nat) : Nat :=
  250000 * (match s.epWord (epObj i) 26 % 16 with
    | 5 => 32
    | 6 => 128
    | 9 => 512
    | 10 => 2000
    | 13 => 8000
    | 14 => 32000
    | _ => 50)

/-- EP_COMPLETION_TIMEOUT, once the timeout has passed since the issue of the read: a read of the current generation ends its command, an
old one is gleaned (R379, R382). -/
def execEpCompletionTimeout (i : Inst) (id : Nat) (s : State) : Host.Outcome State Fault Refusal :=
  act s (fun s =>
    let k := i.val
    match (s.ep k).reads.find? (fun x => x.1 = id) with
    | none => s
    | some x =>
      if !s.aonPast x.2.2 (s.epTmo k) then s
      else if x.2.1 ≠ s.getF (Fld.stewardEpCfgGen k) then (s.dropRead k id).bump (Fd.whole (Reg.stewardEpGlean k))
      else
        let hit := s.waitsFor k id
        let s := ((s.dropRead k id).bump (Fd.whole (Reg.stewardEpTmo k))).aerFlag (aerEp k) 14
        if hit then s.fetchFailed k else s)

/-- Bus Master Enable clears: a command in FETCH is abandoned, to be fetched again (R381). -/
def State.bmeClear (s : State) (i : Nat) : State :=
  if !s.epPresent i then s
  else
    let s := s.setF (Fld.stewardEpCfgBme i) 0
    match (s.ep i).cmd with
    | some c => if c.fetching then s.setCmd i none else s
    | none => s

/-- A clear of Bus Master Enable or a function reset that was accepted in the last tick takes effect; of both, the reset governs
(R381, R382). -/
def State.epDue (s : State) (i : Nat) : State :=
  let e := s.ep i
  if e.rstDue then s.epReset i
  else if e.bmeDue then (s.setEp i { e with bmeDue := false }).bmeClear i
  else s

/-- BUS_MASTER_ENABLE_CLEAR (R381). -/
def execBusMasterEnableClear (i : Inst) (s : State) : Host.Outcome State Fault Refusal := act s (fun s => (s.bmeClear i.val).serve)

/-- EP_FUNCTION_RESET (R382). -/
def execEpFunctionReset (i : Inst) (s : State) : Host.Outcome State Fault Refusal := act s (fun s => (s.epReset i.val).serve)

/-! ### Power states and wake (R383, R384) -/

/-- WAKE_EVENT: a source becomes pending; one enabled in WAKE_MASK wakes (R384). -/
def execWakeEvent (i : Inst) (src : Fin 32) (s : State) : Host.Outcome State Fault Refusal :=
  act s (·.when (decide (src.val < 22)) (·.pendSource i.val src.val))

/-- PM_PME_RESEND: every 512 ms in D3hot while PME_Status is set (R384). -/
def execPmPmeResend (i : Inst) (s : State) : Host.Outcome State Fault Refusal :=
  act s (fun s => s.when (s.epPresent i.val && (s.ep i.val).pmeStat && (s.ep i.val).pmeEn &&
    decide (s.getF (Fld.stewardEpCfgDstate i.val) = 3) && s.aonPast (s.ep i.val).pmeAt 128000000) (·.sendPme i.val))

/-! ### Interrupt mechanism (R378) -/

/-- Every source still pending is signalled once (R378). -/
def State.signalAll (s : State) (i : Nat) : State := (List.range 22).foldl (fun s k => s.signal i k) s

/-- The interrupt mechanism of an instance changes: what is pending is signalled once under the new one (R378). -/
def State.setMech (s : State) (i : Nat) (mech : IntMech) : State :=
  if !s.epPresent i ∨ (s.ep i).mech = mech then s
  else ((s.setEp i { s.ep i with mech := mech }).intaUpdate i).signalAll i

/-- INTERRUPT_MECHANISM_CHANGE (R378). -/
def execInterruptMechanismChange (i : Inst) (mech : IntMech) (s : State) : Host.Outcome State Fault Refusal :=
  act s (·.setMech i.val mech)

/-- MSI vectors that their mask register no longer masks: a message held back is sent if a source of the vector is still pending (R378). -/
def State.msiUnmask (s : State) (i : Nat) : State :=
  (List.range 32).foldl (fun s k =>
    let e := s.ep i
    if !Tbl.get (fun _ => false) e.mpend k || Nat.testBit (s.epWord (epObj i) 40) k then s
    else
      let s := s.setEp i { e with mpend := Tbl.set (fun _ => false) e.mpend k false }
      let here := match e.mech with
        | .msi m => (List.range 22).any (fun x => s.srcEnabled i x && s.srcPending i x &&
            decide (s.getF (Fld.stewardIntMapVector i x) % 2 ^ m.val = k))
        | _ => false
      if here && s.mayInterrupt i then s.sendMsi i k else s) s

/-- MSIX_VECTOR_UNMASK: a message held back is sent if a source of the vector is still pending (R378). -/
def State.unmask (s : State) (i v : Nat) : State :=
  let e := s.ep i
  let held := Tbl.get (fun _ => false) e.vpend v
  let s := s.setEp i { e with umask := Tbl.set (fun _ => false) e.umask v true, vpend := Tbl.set (fun _ => false) e.vpend v false }
  if held && s.mayInterrupt i && decide (e.mech = .msix) && (List.range 22).any (fun k => s.srcEnabled i k && s.srcPending i k &&
      decide (s.getF (Fld.stewardIntMapVector i k) = v)) then s.sendMsi i v else s

/-- MSIX_VECTOR_UNMASK (R378). -/
def execMsixVectorUnmask (i : Inst) (vec : Fin 64) (s : State) : Host.Outcome State Fault Refusal :=
  act s (·.when (s.epPresent i.val) (·.unmask i.val vec.val))

end Sys2Proof.Machine
end

