-- ==== Sys2Proof/Machine/Hedge.lean ====
section
/-! DEFINITION. The hedge's copies (08, R199 to R208): check, commit, drain, seed, rule access, notices. -/

namespace Sys2Proof.Machine

/-- The load copy of the rules (R199). -/
def State.loadRules (s : State) : Tbl Word :=
  if s.getF Fld.hedgeCommitStatInforce = 1 then s.hedge.rulesA else s.hedge.rulesB

/-- The copy in force. -/
def State.forceRules (s : State) : Tbl Word := s.ruleCopy (decide (s.getF Fld.hedgeCommitStatInforce = 1))

/-- The load copy set. -/
def State.setLoadRules (s : State) (t : Tbl Word) : State :=
  { s with hedge := if s.getF Fld.hedgeCommitStatInforce = 1 then { s.hedge with rulesA := t } else { s.hedge with rulesB := t } }

/-! ### The check (R199) -/

/-- Order key of a rule within its plot's range. -/
def Rule.key (r : Rule) : List Nat := [r.space, bit r.mld, r.lp, r.ld, r.base]

/-- Two rules are in the same space and place. -/
def Rule.samePlace (a b : Rule) : Bool :=
  decide (a.space = b.space) &&
  (decide (a.space = 0) || (decide (a.lp = b.lp ∧ a.mld = b.mld) && (!a.mld || decide (a.ld = b.ld))))

/-- The pages of two rules overlap. -/
def Rule.overlaps (a b : Rule) : Bool := runsMeet a.base a.count b.base b.count

/-- A rule lies in its plot's range of the PLOT load copy, and that plot is LIVE there. -/
def State.ruleInRange (s : State) (r : Rule) : Bool :=
  let base := fieldAt s.regs (Fld.plotPlotW2LoadHedgeBase r.plot)
  let cnt := fieldAt s.regs (Fld.plotPlotW3LoadHedgeCnt r.plot)
  liveL s.regs r.plot && decide (base ≤ r.index ∧ r.index < base + cnt)

/-- The plots whose ranges of the PLOT load copy hold a rule index. -/
def State.rangesOf (s : State) (i : Nat) : List Nat :=
  (plotsL s.regs).filter (fun p =>
    let base := fieldAt s.regs (Fld.plotPlotW2LoadHedgeBase p)
    decide (base ≤ i ∧ i < base + fieldAt s.regs (Fld.plotPlotW3LoadHedgeCnt p)))

/-- The codes that stand at a rule, given the valid rules below it, lowest first (R199). -/
def State.ruleCodes (s : State) (before : List Rule) (r : Rule) : List Nat :=
  let mine := s.rangesOf r.index
  (if s.ruleInRange r then [] else [1]) ++
  (if r.count = 0 ∨ 2 ^ 40 < r.base + r.count then [2] else []) ++
  (if r.space = 3 ∨ r.rsv ≠ 0 ∨ (r.space = 0 ∧ (r.lp ≠ 0 ∨ r.ld ≠ 0 ∨ r.mld = true)) then [3] else []) ++
  (if before.any (fun a => (s.rangesOf a.index).any (fun p => mine.contains p) &&
      (!keysLt a.key r.key || (a.samePlace r && a.overlaps r))) then [4] else []) ++
  (let other := before.filter (fun a => decide (a.plot ≠ 0 ∧ r.plot ≠ 0 ∧ a.plot ≠ r.plot) && a.samePlace r && a.overlaps r)
   if other.isEmpty then [] else if r.space = 0 then [5] else [6])

/-- The violation at the lowest rule index: (code, index). -/
def State.hedgeViolAux (s : State) (before : List Rule) : List Rule → Option (Nat × Nat)
  | [] => none
  | r :: rs => match s.ruleCodes before r with
    | c :: _ => some (c, r.index)
    | [] => s.hedgeViolAux (before ++ [r]) rs

/-- The violation of the load copy, if any. -/
def State.hedgeViol (s : State) : Option (Nat × Nat) := s.hedgeViolAux [] (rulesIn s.loadRules 0 262144)

/-- A hedge commit is pending (R200, R203). -/
def State.hedgePending (s : State) : Bool := decide (s.getF Fld.hedgeCommitStatPending = 1)

/-- A write of CHECK.GO (R199, R203). -/
def State.hedgeCheckGo (s : State) : State :=
  if s.hedgePending || decide (s.getF Fld.hedgeCheckBusy = 1) then s
  else { s.setF Fld.hedgeCheckBusy 1 with hedge := { s.hedge with dirty := false } }

/-- HEDGE_CHECK (R199). -/
def execHedgeCheck (s : State) : Host.Outcome State Fault Refusal := act s (·.hedgeCheckGo)

/-- The check ends (R199). -/
def State.hedgeCheckEnd (s : State) : State :=
  let v := s.hedgeViol
  s.setFs [(Fld.hedgeCheckBusy, 0), (Fld.hedgeLoadStatViol, (v.map (·.1)).getD 0), (Fld.hedgeLoadStatIndex, (v.map (·.2)).getD 0),
    (Fld.hedgeCheckPass, bit (v.isNone && !s.hedge.dirty))]

/-- HEDGE_CHECK_DONE (R199). -/
def execHedgeCheckDone (s : State) : Host.Outcome State Fault Refusal :=
  act s (·.when (decide (s.getF Fld.hedgeCheckBusy = 1)) (·.hedgeCheckEnd))

/-! ### Commit and drain (R200 to R204) -/

/-- A write of COMMIT.GO (R200). -/
def State.hedgeCommit (s : State) : State :=
  if s.hedgePending then s.setFs [(Fld.hedgeCommitStatRefused, 1), (Fld.hedgeCommitStatCause, 1)]
  else if s.getF Fld.hedgeCheckPass = 0 then s.setFs [(Fld.hedgeCommitStatRefused, 1), (Fld.hedgeCommitStatCause, 2)]
  else s.acceptCommit .hedge Fld.hedgeCommitStatPending Reg.hedgeCommitTickLo Reg.hedgeCommitTickHi
    Reg.hedgeCommitFurlongLo Reg.hedgeCommitFurlongHi

/-- HEDGE_COMMIT (R200). -/
def execHedgeCommit (s : State) : Host.Outcome State Fault Refusal := act s (·.hedgeCommit)

/-- The boundary of a hedge commit (R200): the copies change roles, EPOCH rises, the drain begins; what is now the load copy has
not been checked. -/
def State.hedgeSwitch (s : State) : State :=
  let s := s.setFs [(Fld.hedgeCommitStatInforce, 1 - s.getF Fld.hedgeCommitStatInforce), (Fld.hedgeCommitStatDraining, 1),
    (Fld.hedgeDrainDone, 0)]
  let s := { s with hedge := { s.hedge with drained := false, overdue := false } }
  (s.wr Reg.hedgeEpoch (s.rd Reg.hedgeEpoch + 1)).hedgeTouch

/-- A request's own tracker entry counts as an old-epoch item, once for the request and its message (R202). -/
def Tracker.counts (t : Tracker) : Bool :=
  decide (t.use = .request) && decide (t.cls.path = .program ∨ t.cls.path = .noDecoder)

/-- Old-epoch items: tracker entries of requests, messages without one up to the tick in which they leave the egress pins, and harrow moves,
of the previous parity (R202). -/
def State.oldItems (s : State) : Nat :=
  if s.getF Fld.hedgeCommitStatDraining = 0 then 0
  else
    let now := decide (s.getF Fld.hedgeCommitStatInforce = 1)
    (s.dp.msgs.filter (fun m => m.carriesParity && decide (m.cls.parity ≠ now) && !s.onTracker m)).length +
    (s.hedge.leaving.filter (fun e => decide (e.1 ≠ now ∧ s.tick < e.2))).length +
    (s.dp.trackers.filter (fun t => t.counts && decide (t.cls.parity ≠ now))).length +
    ((s.xb.harrow.map (fun e => (e.2.moves.filter (fun v => decide (v.cls.parity ≠ now) && !v.done)).length)).sum)

/-- What the end of a tick notes for the drain: whether the count stood at 0 in it (R202). -/
def State.drainTick (s : State) : State :=
  { s with hedge := { s.hedge with
      leaving := s.hedge.leaving.filter (fun e => decide (s.tick + 1 < e.2))
      drained := decide (s.getF Fld.hedgeCommitStatDraining = 1 ∧ s.oldItems = 0) } }

/-- DRAIN_DONE: the tick after the count of old-epoch items reached 0 (R202). -/
def execDrainDone (s : State) : Host.Outcome State Fault Refusal :=
  act s (·.when (decide (s.getF Fld.hedgeCommitStatDraining = 1 ∧ s.oldItems = 0) && s.hedge.drained) (fun s =>
    (s.setFs [(Fld.hedgeDrainDone, 1), (Fld.hedgeCommitStatDraining, 0), (Fld.hedgeCommitStatPending, 0)]).set64
      Reg.hedgeDrainTickLo Reg.hedgeDrainTickHi s.tick))

/-- The drain has lasted longer than DRAIN_TMO since its boundary, by AON, and has not been reported (R204). -/
def State.drainLate (s : State) : Bool :=
  let start := 256 * s.get64 Reg.hedgeCommitFurlongLo Reg.hedgeCommitFurlongHi
  decide (s.getF Fld.hedgeCommitStatDraining = 1 ∧ s.getF Fld.hedgeDrainTmoMs ≠ 0) && !s.hedge.overdue &&
  s.aonPast start (250000 * s.getF Fld.hedgeDrainTmoMs)

/-- DRAIN_OVERDUE: DRAIN_TMO has passed since the boundary (R204). -/
def execDrainOverdue (s : State) : Host.Outcome State Fault Refusal :=
  act s (·.when s.drainLate (fun s =>
    ({ s with hedge := { s.hedge with overdue := true } }.setF Fld.hedgeDrainOverdue 1).raise
      { src := 0x06, tick := s.tick, d0 := s.oldItems, d1 := (s.rd Reg.hedgeEpoch).toNat }))

/-! ### Seed and rule access (R203, R207) -/

/-- A write of COPY_CTL.SEED (R203): itself a change of the load copy. -/
def State.hedgeSeed (s : State) : State := if s.hedgePending then s else (s.setF Fld.hedgeCopyCtlBusy 1).hedgeTouch

/-- HEDGE_SEED (R203). -/
def execHedgeSeed (s : State) : Host.Outcome State Fault Refusal := act s (·.hedgeSeed)

/-- HEDGE_SEED_DONE (R203). -/
def execHedgeSeedDone (s : State) : Host.Outcome State Fault Refusal :=
  act s (·.when (decide (s.getF Fld.hedgeCopyCtlBusy = 1)) (fun s =>
    ((s.setLoadRules s.forceRules).setF Fld.hedgeCopyCtlBusy 0).hedgeTouch))

/-- Writes to the load copy are ignored (R203, R206). -/
def State.rulesLocked (s : State) : Bool :=
  s.hedgePending || decide (s.getF Fld.hedgeCheckBusy = 1 ∨ s.getF Fld.hedgeCopyCtlBusy = 1 ∨ s.getF Fld.hedgeRuleIdxCopy = 1)

/-- A write of RULE_W3: the four words go to the load copy at ENTRY, and ENTRY rises (R207). -/
def State.ruleW3Write (s : State) (v : Word) : State :=
  if s.rulesLocked then s
  else
    let s := s.wr (Reg.hedgeRuleW 3) v
    let e := s.getF Fld.hedgeRuleIdxEntry
    let t := (List.range 4).foldl (fun t k => Tbl.set (fun _ => 0) t (4 * e + k) (s.rd (Reg.hedgeRuleW k))) s.loadRules
    ((s.setLoadRules t).setF Fld.hedgeRuleIdxEntry (e + 1)).hedgeTouch

/-- RULE_W3_WRITE (R207). -/
def execRuleW3Write (v : Word) (s : State) : Host.Outcome State Fault Refusal := act s (·.ruleW3Write v)

/-- A write of RULE_IDX loads the entry it selects into the words (R207). -/
def State.ruleIdxWrite (s : State) (v : Word) : State :=
  let s := s.setFs [(Fld.hedgeRuleIdxEntry, fieldGet v 0 18), (Fld.hedgeRuleIdxCopy, fieldGet v 18 1)]
  let t := if fieldGet v 18 1 = 1 then s.forceRules else s.loadRules
  (List.range 4).foldl (fun s k => s.wr (Reg.hedgeRuleW k) (Tbl.get (fun _ => 0) t (4 * fieldGet v 0 18 + k))) s

/-- RULE_IDX_WRITE (R207). -/
def execRuleIdxWrite (v : Word) (s : State) : Host.Outcome State Fault Refusal := act s (·.ruleIdxWrite v)

/-! ### Notices (R197) -/

/-- A notice closed, with every field 0. -/
def State.noticeZero (s : State) (lp : Nat) : State :=
  ((((s.wr (Reg.hedgeNotice lp) 0).wr (Reg.hedgeNoticeAddrLo lp) 0).wr (Reg.hedgeNoticeAddrHi lp) 0).wr
    (Reg.hedgeNoticeCount lp) 0).setF (mapBit Reg.hedgeNoticeOpenLo Reg.hedgeNoticeOpenHi lp) 0

/-- A write of 1 to NOTICE.OPEN closes the notice at the start of the tick: denials of the port already taken in this tick open a new one,
unless the notice was closed when they came (R197). -/
def State.noticeClose (s : State) (lp : Nat) : State :=
  let mine := s.hedge.denials.filter (fun d => d.lp = lp)
  if mine.any (·.opened) then s
  else
    let s := { s with hedge := { s.hedge with denials := s.hedge.denials.filter (fun d => d.lp ≠ lp) } }
    mine.foldl (fun s d => s.notice d.lp d.plot d.addr d.space d.parts d.tag) (s.noticeZero lp)

/-- NOTICE_CLOSE (R197). -/
def execNoticeClose (lp : Lp) (s : State) : Host.Outcome State Fault Refusal := act s (·.noticeClose lp.val)

end Sys2Proof.Machine
end

