-- ==== Sys2Proof/Machine/Regs.lean ====
section
/-! DEFINITION. The register space as an access meets it: what a register reads as, the latches of multi-word values, and writes
under the access codes (R10, R11, R367, R447 to R451). -/

namespace Sys2Proof.Machine

/-- The debug master's own number beside those of EP_SELF. -/
def srcNo : Source → Nat
  | .inst0 => 0
  | .inst1 => 1
  | .sideband => 2
  | .steward => 3
  | .debug => 4

/-! ### Absent registers (R33, R394, R447) -/

/-- A register of a PORT block that R33 or the block's offsets declare absent in the shape in force. -/
def State.portAbsent (s : State) (a : Nat) : Bool :=
  let n := (a - 0x400000) / 0x10000
  let o := (a - 0x400000) % 0x10000
  if o = 4 then decide (s.shape n = 3)
  else if 0x100 ≤ o ∧ o < 0x200 then !s.lpExists (2 * n + (o - 0x100) / 0x80)
  else false

/-- A register of an endpoint instance that is not present. -/
def State.epAbsent (s : State) (a : Nat) : Bool :=
  let o := a - 0x1F80000
  if 0x100 ≤ o ∧ o < 0x300 then !s.epPresent ((o - 0x100) / 0x100)
  else if 0x1000 ≤ o ∧ o < 0x3000 then !s.epPresent ((o - 0x1000) / 0x1000)
  else false

/-- The address names no register now. -/
def State.regAbsent (s : State) (a : Nat) : Bool :=
  (regRow a).isNone || (decide (0x400000 ≤ a ∧ a < 0x600000) && s.portAbsent a) ||
  (decide (0x1F80000 ≤ a ∧ a < 0x2000000) && s.epAbsent a)

/-! ### Reads -/

/-- Phase of an instance's command: 0 none, 1 FETCH, 2 APPLY, 3 RETURN (R375, R394). -/
def Ep.phaseNo (e : Ep) : Nat :=
  match e.cmd with
  | none => 0
  | some c => if c.fetching then 1 else if c.applying then 2 else 3

/-- Half `h` of a 64-bit value. -/
def halfOf (v h : Nat) : Word := BitVec.ofNat 32 (v / 2 ^ (32 * h))

/-- Registers of the time base, crossbar, home, hedge and security blocks that show a live value (R30, R139, R240, R242, R268,
R318, R405); none where the register reads as it is held. -/
def State.liveView (s : State) (a : Nat) : Option Word :=
  if a = Reg.globalTickLo then some (halfOf s.tick 0)
  else if a = Reg.globalTickHi then some (halfOf s.tick 1)
  else if a = Reg.globalFurlongLo then some (halfOf s.furlong 0)
  else if a = Reg.globalFurlongHi then some (halfOf (s.furlong % 2 ^ 56) 1)
  else if a = Reg.globalTimeStat then some (BitVec.ofNat 32 (s.phase + 256 * bit (decide (252 ≤ s.phase))))
  else if a = Reg.homeOpen then some (BitVec.ofNat 32 s.home.txns.length)
  else if a = Reg.homeParked then
    let c := (s.home.parked.filter (fun p => p.credit.isSome)).length
    some (BitVec.ofNat 32 (c + 65536 * min (s.home.parked.length - c) 0xFFFF))
  else if a = Reg.homeDirUsed then some (BitVec.ofNat 32 s.dirUsed)
  else if Reg.homePortLines 0 ≤ a ∧ a < Reg.homePortLines 64 then
    some (BitVec.ofNat 32 (s.portLines ((a - Reg.homePortLines 0) / 4)))
  else if a = Reg.bufferUsed then some (BitVec.ofNat 32 s.usedCells)
  else if a = Reg.bufferRsvUsed then some (BitVec.ofNat 32 (s.devCells + 2 ^ 13 * s.harCells))
  else if Reg.bufferOcc 0 0 ≤ a ∧ a < Reg.bufferOcc 64 0 then
    let o := a - Reg.bufferOcc 0 0
    some (fieldPut (s.rd a) 0 19 (s.occ (o / 0x20) (o % 0x20 / 4)))
  else if Reg.schedScLevel 0 ≤ a ∧ a < Reg.schedPlotLevel 4096 then (s.xb.levels.find? (fun x => decide (x.1 = a))).map (·.2)
  else if a = Reg.hedgeDrainOldcnt then some (BitVec.ofNat 32 s.oldItems)
  else if a = Reg.mzQueue ∧ s.mz.ready ∧ s.mz.down.isNone then
    some (fieldPut (s.rd a) 0 19 (s.mz.queue.filter (fun x => x.2.queued)).length)
  else if a = Reg.securityKslotStat then some (BitVec.ofNat 32 (s.kslot (s.getF Fld.securityKslotIdxSlot)).state)
  else if a = Reg.securityKslotTickLo then some (halfOf (s.kslot (s.getF Fld.securityKslotIdxSlot)).tick 0)
  else if a = Reg.securityKslotTickHi then some (halfOf (s.kslot (s.getF Fld.securityKslotIdxSlot)).tick 1)
  else if a = Reg.securityDbgStat then some (fieldPut (s.rd a) 0 1 (bit s.debugOpen))
  else if Reg.securityCmd 0 ≤ a ∧ a < Reg.securityCmd 64 then some 0
  else if (a = Reg.faultInj ∨ a = Reg.faultInjDetail) ∧ !s.injEnabled then some 0
  else none

/-- What the register at an address of no absent register reads as for a source. -/
def State.regView (s : State) (src : Source) (a : Nat) : Word :=
  match s.liveView a with
  | some v => v
  | none =>
    if 0x800000 ≤ a ∧ a < 0xC00000 ∧ a % 0x20000 = 0 then fieldPut (s.rd a) 0 2 (s.shape ((a - 0x800000) / 0x20000))
    else if a = Reg.stewardEpStat 0 ∨ a = Reg.stewardEpStat 1 then
      let k := (s.ep ((a - Reg.stewardEpStat 0) / 0x100)).phaseNo
      fieldPut (s.rd a) 0 3 (bit (decide (0 < k)) + 2 * k)
    else if a = Reg.stewardEpSelf then BitVec.ofNat 32 (srcNo src % 4)
    else if a = Reg.portSuspectPgLo ∨ a = Reg.portSuspectPgHi then s.suspectView.rd a
    else s.rd a

/-- Place of the latch that a source holds for a word (R448). -/
def latchKey (src : Source) (a : Nat) : Nat := 0x2000000 * srcNo src + a

/-- The low word whose read latches the word at `a`, if the word is a latched one (R448, R449). -/
def latched (a : Nat) : Bool :=
  let lo (d : Nat) (k : Nat) : Bool := match regRow (a - d) with
    | some r => decide (r.pair = k)
    | none => false
  if Reg.mzCum 0 0 0 ≤ a ∧ a < Reg.mzCum 4096 0 0 then decide ((a - Reg.mzCum 0 0 0) / 4 % 3 ≠ 0)
  else decide (4 ≤ a) && lo 4 1

/-- Words that a read of the word at `a` latches. -/
def latchWords (a : Nat) : List Nat :=
  match regRow a with
  | some r => if r.pair = 1 then [a + 4] else if r.pair = 2 ∧ !latched a then [a + 4, a + 8] else []
  | none => []

/-- A read of a register by a source (R10, R447 to R451). EP_SELF gives a debug master, which has no number, a value that the
manual does not state (log 7). -/
def State.regRead (s : State) (src : Source) (a : Nat) : Word × State :=
  if a % 4 ≠ 0 ∨ s.regAbsent a then (0, s)
  else if src = .debug ∧ a = Reg.stewardEpSelf then
    let d := s.draw 2
    (BitVec.setWidth 32 d.1, d.2)
  else if latched a then (Tbl.get (fun _ => 0) s.latches (latchKey src a), s)
  else
    let t := (latchWords a).foldl (fun t k => Tbl.set (fun _ => 0) t (latchKey src k) (s.regView src k)) s.latches
    (s.regView src a, { s with latches := t })

/-- Reads of consecutive registers, in order. -/
def State.regReads (s : State) (src : Source) : List Nat → List Word × State
  | [] => ([], s)
  | a :: l =>
    let x := s.regRead src a
    let y := x.2.regReads src l
    (x.1 :: y.1, y.2)

/-! ### Writes under the access codes (R11) -/

/-- The register's value after a write of `v`: RW bits take it, RW1C bits written 1 clear, a count field written with any 1 clears
whole; RWL bits take it unless `locked`. -/
def rowWritten (r : RegRow) (cur v : Word) (locked : Bool) : Word :=
  let rw := BitVec.ofNat 32 (r.rw ||| (if locked then 0 else r.rwl))
  let x := ((cur &&& ~~~rw) ||| (v &&& rw)) &&& ~~~(v &&& BitVec.ofNat 32 r.w1c)
  r.cnt.foldl (fun x f => if fieldGet v f.1 f.2 = 0 then x else fieldPut x f.1 f.2 0) x

/-- A write that acts by the access codes alone. -/
def State.plainWrite (s : State) (a : Nat) (v : Word) (locked : Bool := false) : State :=
  match regRow a with
  | some r => s.wr a (rowWritten r (s.rd a) v locked)
  | none => s

end Sys2Proof.Machine
end

