-- ==== Sys2Proof/Machine/Firmware.lean ====
section
/-! DEFINITION. Steward firmware: loading an image, the live switch, the watchdog (R390 to R392), and the steward's part of start-up
(R45, R356, R361, R424). -/

namespace Sys2Proof.Machine

/-! ### Slots (R390, R391) -/

/-- A change to the steward's state. -/
def State.setStw (s : State) (f : StwSt → StwSt) : State := { s with stw := f s.stw }

/-- VALID bit of a slot: 0 A, 1 B. -/
def fwValidFd (k : Nat) : Fd := if k = 0 then Fld.stewardFwStatValidA else Fld.stewardFwStatValidB

/-- Sequence number of a slot's image. -/
def State.fwSeqOf (s : State) (k : Nat) : Nat :=
  if k = 0 then s.get64 Reg.stewardFwSeqALo Reg.stewardFwSeqAHi else s.get64 Reg.stewardFwSeqBLo Reg.stewardFwSeqBHi

/-- Sequence number of a slot's image set. -/
def State.setFwSeq (s : State) (k v : Nat) : State :=
  if k = 0 then s.set64 Reg.stewardFwSeqALo Reg.stewardFwSeqAHi v else s.set64 Reg.stewardFwSeqBLo Reg.stewardFwSeqBHi v

/-- The slot not in use. -/
def State.fwOther (s : State) : Nat := 1 - s.getF Fld.stewardFwStatSlot

/-- The verdict on an image (R390): its format and length, its signature, its sequence number, a switch under way; 0 accepts. -/
def State.fwVerdict (s : State) (image : List Byte) : Nat :=
  if !Config.fwCheck 0 image || decide (0x200000 < image.length) then 1
  else if !Config.fwCheck 1 image then 2
  else if (Config.fwSeq image).toNat ≤ s.fwSeqOf (s.getF Fld.stewardFwStatSlot) then 3
  else if s.getF Fld.stewardFwStatSwitching = 1 then 4
  else 0

/-- FW_LOAD's effect (R390): an accepted image fills the slot not in use; a refused one leaves both unchanged. -/
def State.fwLoad (s : State) (image : List Byte) : State :=
  let c := s.fwVerdict image
  let s := s.setF Fld.stewardFwStatCode c
  if c ≠ 0 then s
  else
    let k := s.fwOther
    ((s.setF (fwValidFd k) 1).setFwSeq k (Config.fwSeq image).toNat).setStw (fun t => { t with
      fwSlots := Tbl.set (fun _ => 0) t.fwSlots k (Config.sha384 image) })

/-- A background command runs (R389). -/
def State.bgRuns (s : State) : Bool :=
  match s.stw.bg with
  | some (_, p, _) => decide (p < 100)
  | none => false

/-- A switch cannot start: another runs, or a background command does (R389, R391). -/
def State.fwBusy (s : State) : Bool := s.bgRuns || decide (s.getF Fld.stewardFwStatSwitching = 1)

/-- A command in APPLY that the steward completes before the cores restart (R391). -/
def State.applying (s : State) : Bool := [0, 1].any (fun i => match (s.ep i).cmd with
  | some (.wait _ _) => true
  | some (.fm _ _) => true
  | _ => false)

/-- Hardware restarts the cores in the other slot once every command in APPLY is complete (R391, steps 2 and 3). -/
def State.fwRestart (s : State) : State :=
  if s.getF Fld.stewardFwStatSwitching = 1 ∧ s.stw.fwOpen = false ∧ s.applying = false then
    s.setStw (fun t => { t with fwOpen := true, swAt := s.tick })
  else s

/-- The steward serves commands in APPLY: it runs, or a switch has not restarted it yet (R391). -/
def State.stewardApplies (s : State) : Bool :=
  decide (6 ≤ s.getF Fld.cprStartStep ∧ s.getF Fld.cprStartHalt = 0) &&
  (decide (s.getF Fld.stewardFwStatSwitching = 0) || !s.stw.fwOpen)

/-- A write of FW_CTL.SWITCH (R391): refused while busy, and with CODE 5 when the other slot holds no valid image; else the cores
restart in it. -/
def State.fwSwitch (s : State) : State :=
  if s.fwBusy then s
  else if s.getF (fwValidFd s.fwOther) = 0 then s.setF Fld.stewardFwStatCode 5
  else ((s.setFs [(Fld.stewardFwStatSwitching, 1), (Fld.stewardFwStatCode, 0)]).setStw (fun t => { t with
    fwOpen := false, fwFell := false })).fwRestart

/-- SWITCH: a write of FW_CTL.SWITCH by any source (R391, R393). -/
def execSwitch (_ : Source) (s : State) : Host.Outcome State Fault Refusal := act s (·.fwSwitch)

/-! ### Section 0x02 at start-up (R45, R356, R361) -/

/-- Number of the element of an array of registers that lies at an address. -/
def findReg (f : Nat → Nat) (n a : Nat) : Option Nat := (List.range n).find? (fun k => decide (f k = a))

/-- The registers of a type 0x02 section that a write acts on by the access codes alone. -/
def sectPlain (a : Nat) : Bool :=
  (findReg Reg.portLpTrain 64 a).isSome || (findReg Reg.portLpRelCtl 64 a).isSome || (findReg Reg.securityIdeCtl 64 a).isSome ||
  [Reg.portGlobalWait, Reg.homeSnpTmo, Reg.plotTrkTmo, Reg.hedgeDrainTmo].contains a

/-- An entry of a type 0x02 section written by the steward; none when the apply fails (R356). ENABLE is written 0, and the ports
whose entry sets it are remembered for step 7. -/
def State.sectWrite (s : State) (a : Nat) (v : Word) : Option State :=
  match findReg Reg.portCfg 32 a, findReg Reg.portLpCtl 64 a, findReg Reg.homeCfn 64 a with
  | some n, _, _ =>
    if fieldGet v 0 2 ≠ s.shape n ∧ s.modeRefused n (fieldGet v 0 2) then none else some (s.cfgModeWrite n v)
  | _, some l, _ =>
    let w := v &&& ~~~1#32
    if !s.lpExists l then some s
    else if s.lpCtlRefused l w then none
    else
      let rest := s.cfg.ports.filter (fun x => decide (x ≠ l))
      some ((s.lpCtlWrite l w).setCfg (fun c => { c with ports := if fieldGet v 0 1 = 1 then rest ++ [l] else rest }))
  | _, _, some l =>
    let t := s.cfnWrite l v
    if t.getF Fld.homeStatCfnRefused = 1 then none else some t
  | _, _, _ => if sectPlain a then some (if s.regAbsent a then s else s.plainWrite a v) else none

/-- Applying a section of a type failed: start-up halts in step 6 (R361, R425). -/
def State.applyFail (s : State) (ty : Nat) : State :=
  (s.setFs [(Fld.cfgstoreStatApplyFail, 1), (Fld.cfgstoreStatApplySect, ty)]).haltStart 3

/-- The entries of a type 0x02 section, in list order (R356). -/
def State.sectApply (s : State) : List Byte → Nat → State
  | _, 0 => s
  | [], _ + 1 => s
  | l, n + 1 =>
    match s.sectWrite (leNat (bytesAt l 0 4)) (BitVec.ofNat 32 (leNat (bytesAt l 4 4))) with
    | some t => t.sectApply (l.drop 8) n
    | none => s.applyFail 2

/-- The registers of the owner of a section's type (R355): PLOT with EXTENT, HEDGE, COULTER, SCHED, BUFFER. -/
def sectOwner (ty a : Nat) : Bool :=
  let in_ (lo hi : Nat) := decide (lo ≤ a ∧ a < hi)
  if ty = 3 then in_ 0xC00000 0x1000000 || in_ 0x1400000 0x1800000
  else if ty = 4 then in_ 0x1000000 0x1400000
  else if ty = 5 ∨ ty = 6 then in_ 0x800000 0xC00000
  else if ty = 7 then in_ 0x1C00000 0x1E00000
  else in_ 0x1A40000 0x1A80000

/-- The steward's writes for the sections of types 0x03 to 0x08, in type order, and the check of the hedge rules (R205, R361). -/
def State.sectWrites (s : State) : List (Nat × Word) :=
  [3, 4, 5, 6, 7, 8].flatMap (fun ty => match s.sectionBytes (decide (s.getF Fld.cfgstoreStatBootSel = 2)) ty with
    | none => []
    | some l => (Config.sectionWrites ty l).filter (fun x => sectOwner ty x.1) ++ (if ty = 4 then [(Reg.hedgeCheck, 1)] else []))

/-- The chosen copy has a section that step 6 commits (R356, R361). -/
def State.hasTables (s : State) : Bool :=
  [3, 4, 5, 6, 7, 8].any (fun ty => (s.sectionBytes (decide (s.getF Fld.cfgstoreStatBootSel = 2)) ty).isSome)

/-- The type 0x02 section of the chosen copy is applied (R356). -/
def State.sectTwo (s : State) : State :=
  match s.sectionBytes (decide (s.getF Fld.cfgstoreStatBootSel = 2)) 2 with
  | none => s
  | some l => if l.length % 8 ≠ 0 then s.applyFail 2 else s.sectApply l (l.length / 8)

/-- Step 6 begins: the type 0x02 section is applied, and the others are to be loaded (R356, R361). -/
def State.sectBegin (s : State) : State :=
  let s := s.sectTwo
  if s.hasTables then s.setCfg (fun c => { c with todo := s.sectWrites, load := .write }) else s

/-- ENABLE of a logical port is set. -/
def State.enableLp (s : State) (lp : Nat) : State := s.lpCtlWrite lp (s.rd (Reg.portLpCtl lp) ||| 1)

/-- Step 7 begins: fabric and downstream ports are enabled together (R45, R424). -/
def State.enterStep7 (s : State) : State :=
  s.cfg.ports.foldl (fun s l => if s.role l = 0 then s else s.enableLp l) s

/-- Type of a section whose load, check or commit the device refused in step 6, if any (R361). -/
def State.applyRefused (s : State) : Option Nat :=
  let eng (f : Nat → Fd) : Bool := (List.range 32).any (fun n => decide (s.getF (f n) ≠ 0))
  if s.getF Fld.plotCommitStatRefused = 1 then some 3
  else if s.getF Fld.hedgeCommitStatRefused = 1 ∨ (s.getF Fld.hedgeCheckBusy = 0 ∧ s.getF Fld.hedgeLoadStatViol ≠ 0) then some 4
  else if eng Fld.coulterLoadStatCode || eng Fld.coulterCommitStatRefused then some 5
  else if s.getF Fld.coulterHtStatRefused = 1 then some 6
  else if s.getF Fld.schedCommitStatRefused = 1 then some 7
  else if s.getF Fld.bufferCommitStatRefused = 1 then some 8
  else none

/-- The steward meets a refusal in step 6 (R361). -/
def State.applyCheck (s : State) : State :=
  if s.getF Fld.cprStartStep = 6 ∧ s.getF Fld.cprStartHalt = 0 then
    match s.applyRefused with
    | some ty => s.applyFail ty
    | none => s
  else s

/-- Every fabric and downstream port that step 7 enabled has reached L0 or spent GLOBAL_WAIT in training; one whose PERST is asserted holds
nothing back (R45). -/
def State.mayRelease (s : State) : Bool :=
  let t := s.get64 (Reg.cprStepDoneLo 5) (Reg.cprStepDoneHi 5)
  s.cfg.ports.all (fun l => decide (s.role l = 0) || s.dllUp l || s.perst l) ||
  s.aonPast t (250000 * s.getF Fld.portGlobalWaitMs)

/-- UPSTREAM_RELEASE: step 2 of R45, once, in start-up step 7. -/
def execUpstreamRelease (s : State) : Host.Outcome State Fault Refusal :=
  act s (fun s =>
    if s.getF Fld.cprStartStep = 7 ∧ !s.link.released ∧ s.mayRelease then
      let s := { s with link := { s.link with released := true } }
      s.cfg.ports.foldl (fun s l => if s.role l = 0 then s.enableLp l else s) s
    else s)

/-! ### READY, fallback, watchdog (R391, R392) -/

/-- FW_ACTIVATE commands complete. -/
def State.switchDone (s : State) (status result : Nat) : State :=
  [0, 1].foldl (fun s i => match (s.ep i).cmd with
    | some (.switching r e) => s.applied i r e status result []
    | _ => s) s

/-- A write of FW_CTL.READY: start-up step 5 completes, or a switch ends, in the new slot or back in the old one (R391, R392,
R424). -/
def State.fwReady (s : State) : State :=
  let s := s.setStw (fun t => { t with kick := s.tick })
  if s.getF Fld.cprStartStep = 5 ∧ s.getF Fld.cprStartHalt = 0 then ((s.setF Fld.stewardFwStatSlot 0).stepDone 5).sectBegin
  else if s.getF Fld.stewardFwStatSwitching = 1 ∧ s.stw.fwOpen then
    let fell := s.stw.fwFell
    let s := if fell then s.setFs [(Fld.stewardFwStatFallback, 1), (Fld.stewardFwStatCode, 6)]
      else s.setF Fld.stewardFwStatSlot s.fwOther
    let s := ((s.setF Fld.stewardFwStatSwitching 0).setStw (fun t => { t with fwOpen := false, fwFell := false })).pendAll 20
    let s := if fell then s.switchDone 4 6 else s.switchDone 0 (s.fwSeqOf (s.getF Fld.stewardFwStatSlot) % 2 ^ 32)
    s.serve
  else s

/-- READY (R391). -/
def execReady (s : State) : Host.Outcome State Fault Refusal := act s (·.fwReady)

/-- FW_FALLBACK: READY was not written within 1 s of the restart, and the cores restart in the previous slot (R392). -/
def execFwFallback (s : State) : Host.Outcome State Fault Refusal :=
  act s (fun s => s.when (decide (s.getF Fld.stewardFwStatSwitching = 1) && s.stw.fwOpen && s.aonPast s.stw.swAt 250000000)
    (·.setStw (fun t => { t with fwFell := true })))

/-- A write of WDOG.KICK (R392). -/
def State.wdogKick (s : State) : State := s.setStw (fun t => { t with kick := s.tick })

/-- WDOG_KICK (R392). -/
def execWdogKick (s : State) : Host.Outcome State Fault Refusal := act s (·.wdogKick)

/-- The watchdog's period in ticks. -/
def State.wdogTicks (s : State) : Nat := max 1 (s.getF Fld.stewardWdogMs) * 250000

/-- WATCHDOG_EXPIRY: the cores restart in the slot in use (R392, R395). -/
def execWatchdogExpiry (s : State) : Host.Outcome State Fault Refusal :=
  act s (fun s =>
    if 6 ≤ s.getF Fld.cprStartStep ∧ s.getF Fld.stewardFwStatSwitching = 0 ∧ s.aonPast s.stw.kick s.wdogTicks = true then
      let s := (s.bump Fld.stewardFwStatRestarts).wdogKick
      s.raise { src := 0x0D, tick := s.tick, d0 := s.getF Fld.stewardFwStatSlot, d1 := s.getF Fld.stewardFwStatRestarts }
    else s)

end Sys2Proof.Machine
end

