-- ==== Sys2Proof/Machine/Cpr.lean ====
section
/-! DEFINITION. Clocks, supplies, temperature and resets (17), and start-up steps 1 to 3 (R424, R425). -/

namespace Sys2Proof.Machine

/-! ### Clocks (R409, R412, R413) -/

/-- What the clock monitor and the sensors remember, changed. -/
def State.setCpr (s : State) (f : CprSt → CprSt) : State := { s with cpr := f s.cpr }

/-- Bit of a clock in CLKMON_STAT and CLKMON_EVT (R427). -/
def clkBit : Clk → Nat
  | .refclk c => c.val
  | .main => 16
  | .meter => 17

/-- Domain number of a monitored clock (R409). -/
def clkDomain : Clk → Nat
  | .refclk c => 2 + c.val
  | .main => 21
  | .meter => 24

/-- Ticks of the monitor's window: 65,536 cycles of REFCLK_MAIN (R412). -/
def clkWindow : Nat := 163840

/-- The clock's CLKMON_STAT bit. -/
def clkFd (b : Nat) : Fd := ⟨Reg.cprClkmonStat, b, 1⟩

/-- The monitor trips for a clock: source 0x11, but not again until its bit has been 0 for a whole window (R412). -/
def State.clkTrip (s : State) (k : Clk) : State :=
  let b := clkBit k
  if s.getF (clkFd b) = 1 then s
  else
    let s := s.setFs [(clkFd b, 1), (⟨Reg.cprClkmonEvt, b, 1⟩, 1)]
    let again := match Tbl.get (fun _ => none) s.cpr.fell b with
      | some t => decide (t + clkWindow ≤ s.tick)
      | none => true
    if again then s.raise { src := 0x11, tick := s.tick, d0 := clkDomain k } else s

/-- A clock is in range again: its bit falls. -/
def State.clkGood (s : State) (b : Nat) : State :=
  if s.getF (clkFd b) = 0 then s
  else (s.setF (clkFd b) 0).setCpr (fun c => { c with fell := Tbl.set (fun _ => none) c.fell b (some s.tick) })

/-- Every link of a list of logical ports goes to Recovery. -/
def State.recoverAll (s : State) (l : List Nat) : State := l.foldl (fun s p => if s.lpExists p then s.enterRecovery p else s) s

/-- Logical ports of a cluster. -/
def clusterLps (c : Nat) : List Nat := (List.range 4).map (fun i => 4 * c + i)

/-- CLOCK_MONITOR_TRIP: the clock is out of range and still present (R412, R413). -/
def execClockMonitorTrip (clk : Clk) (s : State) : Host.Outcome State Fault Refusal :=
  act s (fun s =>
    if s.getF (clkFd (clkBit clk)) = 1 then s
    else match clk with
      | .refclk c => (s.clkTrip clk).recoverAll (clusterLps c.val)
      | .main => (s.clkTrip clk).recoverAll (List.range 64)
      | .meter => s.clkTrip clk)

/-- REFCLK_LOSS: the clock is absent (R413). -/
def execRefclkLoss (clk : Clk) (s : State) : Host.Outcome State Fault Refusal :=
  act s (fun s =>
    let s := s.clkTrip clk
    match clk with
    | .refclk c =>
      (clusterLps c.val).foldl (fun s p => if s.lpExists p then s.linkDown p else s) (s.setF ⟨Reg.cprClkStat, 3 + c.val, 1⟩ 0)
    | .main =>
      if s.getF Fld.cprClkStatAonBackup = 1 then s
      else (s.setFs [(Fld.cprClkStatAonBackup, 1), (Fld.cprClkStatHoldover, 1)]).recoverAll (List.range 64)
    | .meter => (s.setF Fld.cprClkStatTallyHoldover 1).meterLinkLoss)

/-- REFCLK_MAIN_RETURN: the reference has been in range for a whole window, so a new trip is raised again; AON returns to it and the
PLLs relock (R412, R413). -/
def execRefclkMainReturn (s : State) : Host.Outcome State Fault Refusal :=
  act s (fun s => ((s.clkGood 16).setCpr (fun c => { c with fell := Tbl.set (fun _ => none) c.fell 16 none })).setFs
    [(Fld.cprClkStatAonBackup, 0), (Fld.cprClkStatHoldover, 0)])

/-- CLUSTER_PLL_RELOCK: the cluster's ports may leave Detect again (R413, R427). -/
def execClusterPllRelock (c : Fin 16) (s : State) : Host.Outcome State Fault Refusal :=
  act s (fun s => if s.getF Fld.cprClkStatCoreLock = 1 then (s.clkGood c.val).setF ⟨Reg.cprClkStat, 3 + c.val, 1⟩ 1 else s)

/-! ### Supplies (R414, R415) -/

/-- SUPPLY_MONITOR_TRIP: a rail trips its monitor; the source is raised again only 1 ms by AON after the rail's last trip, in which it
has stayed in range (R415; log 60). -/
def execSupplyMonitorTrip (rail : Rail) (s : State) : Host.Outcome State Fault Refusal :=
  act s (fun s =>
    let again := match Tbl.get (fun _ => none) s.cpr.trips rail.val with
      | some t => s.aonPast t 250000
      | none => true
    let s := (s.setFs [(⟨Reg.cprSupplyStat, rail.val, 1⟩, 0), (⟨Reg.cprSupplyEvt, rail.val, 1⟩, 1)]).setCpr
      (fun c => { c with trips := Tbl.set (fun _ => none) c.trips rail.val (some s.tick) })
    if again then s.raise { src := 0x14, tick := s.tick, d0 := rail.val } else s)

/-! ### Temperature and voltage (R417 to R420) -/

/-- A temperature as the registers hold it: 8 bits, two's complement. -/
def degBits (c : Int) : Nat := (BitVec.ofInt 8 c).toNat

/-- Valid readings with their sensors. -/
def validReadings (l : List Sensor) : List (Nat × Int) :=
  (List.range 16).filterMap (fun i => match l[i]? with
    | some x => if x.valid then some (i, x.degC) else none
    | none => none)

/-- The hottest reading; of equal ones the lowest sensor. -/
def hottest : List (Nat × Int) → Option (Nat × Int)
  | [] => none
  | x :: l => match hottest l with
    | some y => if x.2 < y.2 then some y else some x
    | none => some x

/-- The coolest reading. -/
def coolest : List (Nat × Int) → Option Int
  | [] => none
  | x :: l => match coolest l with
    | some y => some (min x.2 y)
    | none => some x.2

/-- The AVS target of R417 in mV from the corner class and the hottest reading. -/
def avsWant (corner : Nat) (hot : Int) : Nat :=
  let base := if corner = 1 then 900 else if corner = 2 then 880 else 930
  let add := if hot < 0 then 30 else if hot < 60 then 0 else 15
  min 960 ((base + add + 4) / 5 * 5)

/-- One step of at most 5 mV toward a target (R418). -/
def avsStep (cur want : Nat) : Nat := if cur < want then min (cur + 5) want else max (cur - 5) want

/-- Registers of the sensors (R419, R427). -/
def State.senseRegs (s : State) (l : List Sensor) : State :=
  (List.range 16).foldl (fun s i => match l[i]? with
    | some x => if x.valid then s.setFs [(Fld.cprTsenseReading i, degBits x.degC), (Fld.cprTsenseValid i, 1)]
      else s.setF (Fld.cprTsenseValid i) 0
    | none => s.setF (Fld.cprTsenseValid i) 0) s

/-- The gradient's check (R420). -/
def State.gradCheck (s : State) (g hotIdx : Nat) : State :=
  let s := s.setF Fld.cprThermStatGradient g
  if g ≤ 25 then s.setCpr (fun c => { c with grad := false })
  else if 30 < g ∧ !s.cpr.grad then
    (s.setCpr (fun c => { c with grad := true })).raise { src := 0x12, tick := s.tick, d0 := g, d1 := hotIdx }
  else s

/-- The over-temperature check (R420). -/
def State.hotCheck (s : State) (i : Nat) (t : Int) : State :=
  if t < 110 then s.setCpr (fun c => { c with hot := false })
  else if 115 ≤ t ∧ !s.cpr.hot then
    (s.setCpr (fun c => { c with hot := true })).raise { src := 0x13, tick := s.tick, d0 := i, d1 := t.toNat }
  else s

/-- The thermal checks of a sample on its valid readings (R420). -/
def State.thermCheck (s : State) (l : List (Nat × Int)) : State :=
  let s := s.setFs [(Fld.cprThermStatValidCnt, l.length), (Fld.cprThermStatWarn,
    bit (l.any (fun x => decide ((s.getF Fld.cprThermCtlWarnC : Int) ≤ x.2))))]
  match hottest l, coolest l with
  | some h, some c =>
    let s := s.setFs [(Fld.cprThermStatHottest, degBits h.2), (Fld.cprThermStatHotIdx, h.1)]
    (s.gradCheck (h.2 - c).toNat h.1).hotCheck h.1 h.2
  | _, _ => s

/-- The AVS master's part of a sample (R417, R418); `early` is whether the gradient was over its limit before this sample. -/
def State.avsSample (s : State) (l : List (Nat × Int)) (early acked : Bool) (mv : Nat) : State :=
  let n := if acked then 0 else s.cpr.noack + 1
  let s := s.setCpr (fun c => { c with noack := n })
  let s := if 3 ≤ n then s.setF Fld.cprAvsStatNoack 1 else s
  let en := decide (s.getF Fld.cprAvsCtlEn = 1)
  let man := decide (s.getF Fld.cprAvsCtlManual = 1)
  let fixed := decide (l.length < 12) || (!en && !man) || decide (3 ≤ n) || (early && s.cpr.grad)
  let cur := s.getF Fld.cprAvsStatTargetMv
  let want := if en then avsWant (s.getF Fld.cprAvsStatCorner) (((hottest l).map (·.2)).getD 0)
    else max 880 (min 960 (s.getF Fld.cprAvsCtlManualMv))
  let t := if fixed then 960 else avsStep cur want
  (s.setFs [(Fld.cprAvsStatTargetMv, t), (Fld.cprAvsStatReadMv, mv), (Fld.cprAvsStatFixed, bit fixed)]).emit (.avs t)

/-- SENSOR_SAMPLE (R417 to R420). -/
def execSensorSample (sensors : List Sensor) (acked : Bool) (readMv : BitVec 10) (s : State) :
    Host.Outcome State Fault Refusal :=
  act s (fun s =>
    let l := validReadings sensors
    let early := s.cpr.grad
    (((s.senseRegs sensors).thermCheck l).avsSample l early acked readMv.toNat))

/-! ### Device reset (R14, R344, R422, R423, R427) -/

/-- Registers that a device reset does not set to a reset value: fuses, the lifecycle state, pins, and the tally mirror while the
island stays powered. -/
def State.keptRegs (s : State) (held : Bool) : List (Nat × Word) :=
  [(Reg.securityKeyregUsed, s.rd Reg.securityKeyregUsed), (Reg.securityKeyregRetired, s.rd Reg.securityKeyregRetired),
   (Reg.globalLifecycle, fieldPut (s.rd Reg.globalLifecycle) 3 1 0)] ++
  (List.range 32).map (fun n => (Reg.portPinStat n, fieldPut (s.rd (Reg.portPinStat n)) 1 1 0)) ++
  (if held then Tbl.within s.regs 0x1F00000 0x80000 else [])

/-- A device reset: everything is as after power-on but the fuses, the flash, the MZ12, the pins, and what has been sent and is
still to come (R344, R422, R426). `por`: by PWRGOOD. -/
def State.deviceReset (s : State) (por held : Bool) : State :=
  let waiting := s.pending
  let s := s.flashCut.meterReset held
  let regs := (s.keptRegs held).foldl (fun t e => Tbl.set regReset t e.1 e.2) []
  let r := { State.reset with
    pending := waiting, out := s.out, freeCtr := s.freeCtr, regs := regs, mz := s.mz,
    sec := { State.reset.sec with keys := s.sec.keys, gone := s.sec.gone },
    cfg := { State.reset.cfg with flash := s.cfg.flash } }
  r.setFs [(Fld.cprResetCausePor, bit por), (Fld.cprResetCauseSys, bit (!por))]

/-- PWRGOOD_LOW (R422): a device reset. -/
def execPwrgoodLow (aonHeld : Bool) (s : State) : Host.Outcome State Fault Refusal := .next (s.deviceReset true aonHeld)

/-- SYS_RST_N_ASSERT (R422): a device reset with power kept. -/
def execSysRstNAssert (aonHeld : Bool) (s : State) : Host.Outcome State Fault Refusal := .next (s.deviceReset false aonHeld)

/-! ### Start-up steps 1 to 3 (R288, R290, R291, R323, R424, R425) -/

/-- An identity passes its check: bits [31:0] are the CRC of bits [127:32], most significant byte first (R287, R288). -/
def uidGood (u : BitVec 128) : Bool := decide (crc32 (beBytes 12 (u.toNat / 2 ^ 32)) = BitVec.setWidth 32 u)

/-- An identity failed: start-up halts at the step under way (R288, R425). -/
def State.uidFail (s : State) : State := (s.setF Fld.globalLifecycleUidBad 1).haltStart 1

/-- The main die is in start-up step 1, held by a device reset (R424). -/
def State.inReset (s : State) : Bool := decide (s.getF Fld.cprStartStep = 1 ∧ s.getF Fld.cprStartHalt = 0)

/-- The PLLs lock and step 1 completes; step 2 reads the fuses, checks the main die's identity and applies the ROM's
patches (R288, R290, R371, R424). -/
def State.resetRelease (s : State) (uidOk : Bool) : State :=
  let s := s.setFs [(Fld.cprClkStatCoreLock, 1), (Fld.cprClkStatStewardLock, 1), (Fld.cprClkStatLinkLock, 0xFFFF)]
  let s := (s.stepDone 1).newNonce
  let s := (List.range 4).foldl (fun s i => s.wr (Reg.globalUid i) (BitVec.ofNat 32 ((Config.uid 0).toNat / 2 ^ (32 * i)))) s
  let s := s.setF Fld.cprAvsStatCorner Config.corner.toNat
  if !uidOk then s.uidFail
  else
    let s := s.applyPatches.stepDone 2
    if s.lifecycle = 4 then s.lcReturn else s

/-- DEVICE_RESET_RELEASE: TICK is 0 in the first tick after the main die leaves device reset (R14, R424). -/
def execDeviceResetRelease (uidOk : Bool) (s : State) : Host.Outcome State Fault Refusal :=
  if s.inReset then .next { ({ s with tick := 0 } : State).resetRelease uidOk with pending := s.pending, tick := 0 }
  else .next s

/-- The plots' keys are generated, in lifecycle states 1 to 3 (R310). -/
def State.plotKeys (s : State) : State :=
  if 1 ≤ s.lifecycle ∧ s.lifecycle ≤ 3 then (List.range 4095).foldl (fun s k => s.freshKey (k + 1)) s else s

/-- Step 3 as the MZ12 becomes ready: the boot number is taken, the MZ12's identity is checked and the plots' keys are generated (R288,
R289, R310, R323, R424). -/
def State.mz12Ready (s : State) : State :=
  if s.getF Fld.cprStartStep ≠ 3 ∨ s.getF Fld.cprStartHalt = 1 then s
  else
    let s := s.meterBoot.setF Fld.cprClkStatTallyLock 1
    if !uidGood (Config.uid 1) then s.uidFail
    else (s.plotKeys.stepDone 3).chooseBegin

/-- MZ12_READY (R424). -/
def execMz12Ready (s : State) : Host.Outcome State Fault Refusal := act s (·.mz12Ready)

/-- MZ12_NOT_READY: the MZ12 is not ready 100 ms after step 3 began, as step 2 was done; source 0x15 is raised once (R425). -/
def execMz12NotReady (s : State) : Host.Outcome State Fault Refusal :=
  act s (fun s =>
    if s.getF Fld.cprStartStep = 3 ∧ s.getF Fld.cprStartHalt = 0 ∧ !s.cpr.late ∧
        s.aonPast (s.get64 (Reg.cprStepDoneLo 1) (Reg.cprStepDoneHi 1)) 25000000 then
      (s.setCpr (fun c => { c with late := true })).raise { src := 0x15, tick := s.tick }
    else s)

end Sys2Proof.Machine
end

