-- ==== Sys2Proof/Machine/RegWrite.lean ====
section
/-! DEFINITION. Writes to the register space (R11, R447): every register whose write does more than its access codes say, the command
REGISTER_WRITE, and the debug master (R313 to R315, R450). -/

namespace Sys2Proof.Machine

/-- Bit `b` of a written value. -/
def wbit (v : Word) (b : Nat) : Bool := decide (fieldGet v b 1 = 1)

/-- A write of a block GLOBAL register (R31). -/
def State.globalWrite (s : State) (a : Nat) (v : Word) : State :=
  if a = Reg.globalResCtl then
    let s := s.plainWrite a v
    if wbit v 1 then s.resClear else s
  else if a = Reg.globalResSel then s.resSelWrite v
  else s.plainWrite a v

/-- A write of a FAULT register (R407, R408). -/
def State.faultWrite (s : State) (a : Nat) (v : Word) : State :=
  if a = Reg.faultFerr then (if wbit v 31 then s.ferrClear else s)
  else if a = Reg.faultCtl then s.faultCtlWrite v
  else if a = Reg.faultFltPin then s.setF Fld.faultFltPinLevel (fieldGet v 0 1)
  else if a = Reg.faultSheafIdx then s.sheafIdxWrite v
  else if a = Reg.faultInj then s.injWrite v
  else if a = Reg.faultInjDetail then (if s.injEnabled then s.wr a v else s)
  else if a = Reg.faultSev0 then s.sevWrite 0 v
  else if a = Reg.faultSev1 then s.sevWrite 1 v
  else s.plainWrite a v

/-- A write of a CFGSTORE register (R364). -/
def State.storeWrite (s : State) (a : Nat) (v : Word) : State :=
  if a = Reg.cfgstoreCheck then s.checkWrite (wbit v 1) (wbit v 0)
  else if a = Reg.cfgstoreFlashCtl then
    if wbit v 2 then s.flashGo (fieldGet v 0 2) else s.plainWrite a v
  else if Reg.cfgstoreFlashData 0 ≤ a ∧ a < Reg.cfgstoreFlashData 64 then
    if s.getF Fld.cfgstoreFlashStatBusy = 1 then s else s.plainWrite a v
  else s.plainWrite a v

/-- A write of a PORT register (R37, R51 to R53, R78, R79). -/
def State.portWrite (s : State) (a : Nat) (v : Word) : State :=
  let n := (a - 0x400000) / 0x10000
  let o := (a - 0x400000) % 0x10000
  let lp := 2 * n + (o - 0x100) / 0x80
  if o = 0 then s.cfgModeWrite n v
  else if a = Reg.portSuspectClr then
    let s := if wbit v 6 then s.suspectOne else s
    if wbit v 7 then s.suspectAll (fieldGet v 0 6) else s
  else if o = 0x100 ∨ o = 0x180 then s.lpCtlWrite lp v
  else if o = 0x124 ∨ o = 0x1A4 then (if wbit v 4 then s.spareCmd lp (fieldGet v 0 4) else s)
  else s.plainWrite a v

/-- A write of a hash store register (R181, R182). -/
def State.hashWrite (s : State) (a : Nat) (v : Word) : State :=
  if a = Reg.coulterHtCtl then
    if wbit v 4 then s.htSeed (fieldGet v 0 4) else s.plainWrite a v
  else if a = Reg.coulterHtCommit then (if wbit v 4 then s.htCommit (fieldGet v 0 4) else s)
  else if a = Reg.coulterHtIdx then s.htIdxWrite v
  else if a = Reg.coulterHtDataHi then s.htDataHiWrite v
  else if Reg.coulterHtAllocLoad 0 0 ≤ a ∧ a < Reg.coulterHtAllocLoad 16 0 then
    s.plainWrite a v (decide (s.getF Fld.coulterHtCtlBusy = 1) || s.htPending ((a - Reg.coulterHtAllocLoad 0 0) / 0x10))
  else s.plainWrite a v

/-- A write of a COULTER register (R136, R139 to R141). -/
def State.coulterWrite (s : State) (a : Nat) (v : Word) : State :=
  let n := (a - 0x800000) / 0x20000
  let o := (a - 0x800000) % 0x20000
  if o = 4 then
    if s.shape n = 3 then s.setF (Fld.coulterStatRefused n) 1
    else if wbit v 4 then s.loadGo n (fieldGet v 0 4) else s
  else if o = 0xC then
    if s.shape n = 3 then s.setF (Fld.coulterStatRefused n) 1
    else if wbit v 4 then s.progCommit n (fieldGet v 0 4) else s
  else if 0x1000 ≤ o ∧ o < 0x2000 ∧ o % 8 = 0 then (if v = 0 then s else s.set64 a (a + 4) 0)
  else if 0x2000 ≤ o ∧ o < 0x4000 then (if s.getF (Fld.coulterLoadStatBusy n) = 1 then s else s.plainWrite a v)
  else if 0x10000 ≤ o then s.hashWrite a v
  else s.plainWrite a v

/-- The load copies of chapter 04 are locked: a commit is pending or a seed runs (R105). -/
def State.plotLocked (s : State) : Bool := decide (s.getF Fld.plotCommitStatPending = 1 ∨ s.getF Fld.plotCopyCtlBusy = 1)

/-- A write to a load copy of chapter 04: ignored while locked; a plot entry ends the standing of the hedge check (R105, R199). -/
def State.plotLoadWrite (s : State) (a : Nat) (v : Word) : State :=
  if s.plotLocked then s
  else
    let s := (s.plainWrite a v).loadTouch
    if 0xC10000 ≤ a ∧ a < 0xC30000 then s.hedgeTouch else s

/-- A write of a PLOT register (R105 to R111). -/
def State.plotWrite (s : State) (a : Nat) (v : Word) : State :=
  let o := a - 0xC00000
  if a = Reg.plotCommit then (if wbit v 0 then s.plotCommit else s)
  else if a = Reg.plotCopyCtl then (if wbit v 0 then s.plotSeed else s)
  else if a = Reg.plotFnReset then
    if wbit v 12 then s.resetEvent (if wbit v 13 then 0x1000 + fieldGet v 0 12 % 64 else fieldGet v 0 12) else s
  else if (0x10000 ≤ o ∧ o < 0x30000) ∨ (0x60000 ≤ o ∧ o < 0x70000) ∨ (0x90000 ≤ o ∧ o < 0x90400) ∨ (0xB0000 ≤ o ∧ o < 0xC0000)
  then s.plotLoadWrite a v
  else s.plainWrite a v

/-- A write of a HEDGE register (R203, R206 to R208). -/
def State.hedgeWrite (s : State) (a : Nat) (v : Word) : State :=
  if a = Reg.hedgeCommit then (if wbit v 0 then s.hedgeCommit else s)
  else if a = Reg.hedgeCheck then (if wbit v 0 then s.hedgeCheckGo else s)
  else if a = Reg.hedgeCopyCtl then (if wbit v 0 then s.hedgeSeed else s)
  else if a = Reg.hedgeRuleIdx then s.ruleIdxWrite v
  else if a = Reg.hedgeRuleW 3 then s.ruleW3Write v
  else if Reg.hedgeNotice 0 ≤ a ∧ a < Reg.hedgeNotice 64 ∧ a % 16 = 0 then
    if wbit v 0 then s.noticeClose ((a - Reg.hedgeNotice 0) / 16) else s
  else s.plainWrite a v

/-- A write of an EXTENT register (R109, R110). -/
def State.extentWrite (s : State) (a : Nat) (v : Word) : State :=
  let o := a - 0x1400000
  if (0x1000 ≤ o ∧ o < 0x2000) ∨ (0x4000 ≤ o ∧ o < 0x8000) ∨ (0x20000 ≤ o ∧ o < 0x120000) then s.plotLoadWrite a v
  else s.plainWrite a v

/-- A write of a HOME register (R215, R240 to R242). -/
def State.homeWrite (s : State) (a : Nat) (v : Word) : State :=
  if Reg.homeCfn 0 ≤ a ∧ a < Reg.homeCfn 64 then s.cfnWrite ((a - Reg.homeCfn 0) / 4) v
  else if a = Reg.homeDirIdx then s.dirIdxWrite v
  else s.plainWrite a v

/-- A write of a BUFFER register (R256, R268): a cleared high-water mark takes the present occupancy, the highest since the clear. -/
def State.bufferWrite (s : State) (a : Nat) (v : Word) : State :=
  if a = Reg.bufferCommit then (if wbit v 0 then s.bufferCommit else s)
  else
    let t := s.plainWrite a v (decide (s.getF Fld.bufferCommitStatPending = 1))
    let t := if Reg.bufferLimitLoad 0 0 ≤ a ∧ a < Reg.bufferLimitLoad 64 0 then { t with xb := { t.xb with sumDue := true } } else t
    if Reg.bufferOcc 0 0 ≤ a ∧ a < Reg.bufferOcc 64 0 ∧ (regRow a).isSome ∧ fieldGet v 19 13 ≠ 0 then
      t.highWater ((a - Reg.bufferOcc 0 0) / 0x20) ((a - Reg.bufferOcc 0 0) % 0x20 / 4)
    else t

/-- A write of a HARROW register (R269). -/
def State.harrowWrite (s : State) (a : Nat) (v : Word) : State :=
  let c := (a - 0x1A80000) / 0x100
  let o := (a - 0x1A80000) % 0x100
  if c < 4 ∧ o = 0 then s.harrowCtlWrite c v
  else if c < 4 ∧ o = 0x14 then (s.plainWrite a v).rateSum
  else s.plainWrite a v

/-- A write of a SCHED register (R284, R285). -/
def State.schedWrite (s : State) (a : Nat) (v : Word) : State :=
  if a = Reg.schedCommit then (if wbit v 0 then s.schedCommit else s)
  else if a = Reg.schedCopyCtl then (if wbit v 0 then s.schedSeed else s)
  else s.plainWrite a v (decide (s.getF Fld.schedCommitStatPending = 1 ∨ s.getF Fld.schedCopyCtlBusy = 1))

/-- A write of a SECURITY register (R318, R319). -/
def State.securityWrite (s : State) (a : Nat) (v : Word) : State :=
  if a = Reg.securityCmdCtl then (if wbit v 0 then s.cmdGo else s)
  else if Reg.securityCmd 0 ≤ a ∧ a < Reg.securityCmd 64 then
    if s.getF Fld.securityCmdStatBusy = 1 then s else s.wr a v
  else s.plainWrite a v

/-- A write of the registers of an endpoint instance (R394). Under INTx, INTA follows. -/
def State.instWrite (s : State) (i a : Nat) (v : Word) : State :=
  let s := (s.plainWrite a v).intaUpdate i
  if (s.ep i).mech = .intx then s.signalAll i else s

/-- A write of a ring register (R372, R394). -/
def State.ringRegWrite (s : State) (i r a : Nat) (v : Word) : State :=
  if a = Reg.stewardRingCfg i r then s.ringCfgWrite i r v
  else if a = Reg.stewardRingStat i r then s.plainWrite a v
  else if s.ringOn i r then s
  else s.plainWrite a v

/-- A write of the meter's inbox and outbox registers (R352). -/
def State.inboxWrite (s : State) (a : Nat) (v : Word) : State :=
  if a = Reg.stewardMzInboxCtl then (if wbit v 0 then s.meterGo else s)
  else if a = Reg.stewardMzOutRd then s.mzOutRdWrite v
  else if a < Reg.stewardMzInboxCtl then (if s.getF Fld.stewardMzInboxCtlBusy = 1 then s else s.plainWrite a v)
  else s

/-- A write of a STEWARD register (R393, R394). -/
def State.stewardWrite (s : State) (a : Nat) (v : Word) : State :=
  let o := a - 0x1F80000
  if a = Reg.stewardFwCtl then
    let s := if wbit v 0 then s.fwSwitch else s
    if wbit v 1 then s.fwReady else s
  else if a = Reg.stewardWdog then
    let s := s.plainWrite a v
    if wbit v 16 then s.wdogKick else s
  else if 0x100 ≤ o ∧ o < 0x300 then s.instWrite ((o - 0x100) / 0x100) a v
  else if 0x1000 ≤ o ∧ o < 0x3000 then s.ringRegWrite ((o - 0x1000) / 0x1000) ((o - 0x1000) % 0x1000 / 0x20) a v
  else if 0x6F000 ≤ o then s.inboxWrite a v
  else s.plainWrite a v

/-- A write that reaches the register space (R11, R447, R451). -/
def State.regWrite (s : State) (a : Nat) (v : Word) : State :=
  if a % 4 ≠ 0 ∨ s.regAbsent a then s
  else if a < 0x100000 then s.globalWrite a v
  else if a < 0x200000 then s.plainWrite a v
  else if a < 0x300000 then s.faultWrite a v
  else if a < 0x400000 then s.storeWrite a v
  else if a < 0x600000 then s.portWrite a v
  else if a < 0xC00000 then s.coulterWrite a v
  else if a < 0x1000000 then s.plotWrite a v
  else if a < 0x1400000 then s.hedgeWrite a v
  else if a < 0x1800000 then s.extentWrite a v
  else if a < 0x1A00000 then s.homeWrite a v
  else if a < 0x1A40000 then s.plainWrite a v
  else if a < 0x1A80000 then s.bufferWrite a v
  else if a < 0x1C00000 then s.harrowWrite a v
  else if a < 0x1E00000 then s.schedWrite a v
  else if a < 0x1F00000 then s.securityWrite a v
  else if a < 0x1F80000 then s
  else s.stewardWrite a v

/-! ### Sources (R313 to R315, R367, R368, R451) -/

/-- An instance answers memory requests: present, and not in D3hot (R368). -/
def State.bar (s : State) (i : Nat) : Bool := s.epPresent i && decide (s.getF (Fld.stewardEpCfgDstate i) ≠ 3)

/-- A write of 4 bytes through an instance's BAR 0: a misaligned one is discarded and counted (R367). -/
def State.barWrite (s : State) (i a : Nat) (v : Word) : State :=
  if !s.bar i then s
  else if a % 4 ≠ 0 then s.bump (Fld.stewardEpStatBadacc i)
  else s.regWrite a v

/-- An address that is locked against a debug master now (R207, R315, R450). -/
def State.debugLocked (s : State) (a : Nat) : Bool :=
  decide (s.lifecycle = 3) &&
  (decide (0x1F00000 ≤ a ∧ a < 0x1F80000) || decide (0x1FEF000 ≤ a ∧ a < 0x2000000) ||
   (decide (Reg.hedgeRuleW 0 ≤ a ∧ a < Reg.hedgeRuleW 4) &&
     decide (s.getF Fld.hedgeRuleIdxCopy = 1 ∨ s.getF Fld.hedgeCommitStatDraining = 1)))

/-- A debug master's access: nothing unless one is open; a locked region reads 0, ignores writes, and is recorded (R313, R315,
R395). -/
def State.debugAccess (s : State) (a : Nat) (wr : Option Word) : State :=
  if !s.debugOpen then s
  else if s.debugLocked a then
    let s := (s.bump Fld.securityDbgStatDeny).raise
      { src := 0x0B, tick := s.tick, addr := some (a, 3), d0 := bit wr.isSome }
    if wr.isSome then s else s.emit (.jtag 0)
  else match wr with
    | some v => s.regWrite a v
    | none =>
      let x := s.regRead .debug a
      x.2.emit (.jtag x.1)

/-- DEBUG_MASTER_ACCESS (R315). -/
def execDebugMasterAccess (addr : Nat) (wr : Option Word) (s : State) : Host.Outcome State Fault Refusal :=
  act s (·.debugAccess addr wr)

/-- A register write by a source. -/
def State.srcWrite (s : State) (src : Source) (a : Nat) (v : Word) : State :=
  match src with
  | .inst0 => s.barWrite 0 a v
  | .inst1 => s.barWrite 1 a v
  | .debug => s.debugAccess a (some v)
  | .sideband => s.regWrite a v
  | .steward => s.regWrite a v

/-- REGISTER_WRITE (R11). -/
def execRegisterWrite (src : Source) (addr : Nat) (v : Word) (s : State) : Host.Outcome State Fault Refusal :=
  act s (·.srcWrite src addr v)

end Sys2Proof.Machine
end

