-- ==== Sys2Proof/Machine/Spdm.lean ====
section
/-! DEFINITION. The SPDM responder (R296 to R299), tenant records (R300), KEY_INJECT (R312) and TDISP (R301, R303). Response and
error codes are those of DSP0274 and of TDISP 1.0 (log 10). -/

namespace Sys2Proof.Machine

/-! ### Endpoints and responses -/

/-- Number of an SPDM endpoint. -/
def epNo : SpdmEp → Nat
  | .doeSteward i => i.val
  | .doePf0 lp => 2 + lp.val
  | .mctp => 66

/-- The endpoint exists: the steward endpoint's instance, or the PF0 of an upstream port whose link is up (R298, R365). -/
def State.epThere (s : State) : SpdmEp → Bool
  | .doeSteward i => s.epPresent i.val
  | .doePf0 lp => s.isRole lp.val 0 && s.dllUp lp.val
  | .mctp => true

/-- A response; it is kept for CHUNK_GET. -/
def State.respond (s : State) (ep : SpdmEp) (code : Nat) (body : List Byte) : State :=
  { s with sec := { s.sec with last := Tbl.set (fun _ => []) s.sec.last (epNo ep) body } }.emit (.spdm ep code body)

/-- An ERROR response: 1 InvalidRequest, 2 InvalidSession, 5 Unspecified, 6 DecryptError, 7 UnsupportedRequest, 10
SessionLimitExceeded, 65 VersionMismatch. -/
def State.spdmErr (s : State) (ep : SpdmEp) (e : Nat) : State := s.respond ep 0x7F [BitVec.ofNat 8 e]

/-- A request at an endpoint that exists. -/
def State.spdm (s : State) (ep : SpdmEp) (f : State → State) : State := s.when (s.epThere ep) f

/-- The identity key exists: generated on entry to PROVISIONED, and its secret not blown (R289, R291, R296). -/
def State.hasIdentity (s : State) : Bool := decide (2 ≤ s.lifecycle) && !s.sec.gone

/-- A response signed by the identity key, or an error where there is none (R296). -/
def State.respondSigned (s : State) (ep : SpdmEp) (code : Nat) (body : List Byte) : State :=
  if s.hasIdentity then s.respond ep code (body ++ bytesAt (Config.ecdsaSign 0 body) 0 96) else s.spdmErr ep 5

/-- The certificate chain of a slot (R297). -/
def State.chain (s : State) (slot : Nat) : List Byte :=
  if slot = 0 then Config.certificate 0 else if slot ≤ 2 then Tbl.get (fun _ => []) s.sec.certs slot else []

/-- SHA-384 as 48 bytes. -/
def sha (l : List Byte) : List Byte := beBytes 48 (Config.sha384 l).toNat

/-- The digest of a slot's chain. -/
def State.chainDigest (s : State) (slot : Nat) : List Byte := sha (s.chain slot)

/-- A slot that holds a chain: slot 0 from the entry to PROVISIONED on (R289, R297). -/
def State.hasChain (s : State) (slot : Nat) : Bool :=
  if slot = 0 then decide (2 ≤ s.lifecycle) else decide (slot ≤ 2) && !(s.chain slot).isEmpty

/-! ### Version, capabilities, certificates (R296 to R298) -/

/-- GET_VERSION: SPDM 1.2 and 1.3 (R298). -/
def execGetVersion (ep : SpdmEp) (s : State) : Host.Outcome State Fault Refusal :=
  act s (·.spdm ep (·.respond ep 0x04 [0x12, 0x13]))

/-- GET_CAPABILITIES: CTExponent 17 and the supported messages; a version other than 1.2 and 1.3 mismatches (R298). -/
def execGetCapabilities (ep : SpdmEp) (version : BitVec 8) (s : State) : Host.Outcome State Fault Refusal :=
  act s (·.spdm ep (fun s =>
    if version = 0x12 ∨ version = 0x13 then s.respond ep 0x61 (17 :: Config.standardBody 0 [version.toNat])
    else s.spdmErr ep 65))

/-- NEGOTIATE_ALGORITHMS: the one suite of R298, when the requester offers it. -/
def execNegotiateAlgorithms (ep : SpdmEp) (offered : Bool) (s : State) : Host.Outcome State Fault Refusal :=
  act s (·.spdm ep (fun s => if offered then s.respond ep 0x63 (Config.standardBody 1 []) else s.spdmErr ep 1))

/-- GET_DIGESTS: slots 0 to 2 that hold a chain (R298). -/
def execGetDigests (ep : SpdmEp) (s : State) : Host.Outcome State Fault Refusal :=
  act s (·.spdm ep (fun s => s.respond ep 0x01 (((List.range 3).filter s.hasChain).flatMap s.chainDigest)))

/-- GET_CERTIFICATE (R297). -/
def execGetCertificate (ep : SpdmEp) (slot : Fin 8) (s : State) : Host.Outcome State Fault Refusal :=
  act s (·.spdm ep (fun s => if s.hasChain slot.val then s.respond ep 0x02 (s.chain slot.val) else s.spdmErr ep 1))

/-- CHALLENGE (R296). -/
def execChallenge (ep : SpdmEp) (slot : Fin 8) (s : State) : Host.Outcome State Fault Refusal :=
  act s (·.spdm ep (fun s =>
    if s.hasChain slot.val then s.respondSigned ep 0x03 (s.chainDigest slot.val) else s.spdmErr ep 1))

/-- Operator slots are reached over MCTP and the steward endpoint only (R298). -/
def operatorEp : SpdmEp → Bool
  | .doePf0 _ => false
  | _ => true

/-- GET_CSR: slots 1 and 2 (R297, R298). -/
def execGetCsr (ep : SpdmEp) (slot : Fin 8) (s : State) : Host.Outcome State Fault Refusal :=
  act s (·.spdm ep (fun s =>
    if !operatorEp ep then s.spdmErr ep 7
    else if slot.val = 1 ∨ slot.val = 2 then s.respondSigned ep 0x6D (Config.standardBody 2 [slot.val])
    else s.spdmErr ep 1))

/-- SET_CERTIFICATE: a chain whose leaf certifies the identity key goes into slot 1 or 2 (R297, R298). -/
def execSetCertificate (ep : SpdmEp) (slot : Fin 8) (chain : List Byte) (certifies : Bool) (s : State) :
    Host.Outcome State Fault Refusal :=
  act s (·.spdm ep (fun s =>
    if !operatorEp ep then s.spdmErr ep 7
    else if (slot.val = 1 ∨ slot.val = 2) ∧ certifies ∧ chain.length ≤ 16384 then
      { s with sec := { s.sec with certs := Tbl.set (fun _ => []) s.sec.certs slot.val chain } }.respond ep 0x6E
        [BitVec.ofNat 8 slot.val]
    else s.spdmErr ep 1))

/-- Bytes of a request that has come in chunks so far. -/
def State.chunk (s : State) (ep : SpdmEp) : List Byte := Tbl.get (fun _ => []) s.sec.chunks (epNo ep)

/-- CHUNK_SEND: messages of up to 16 KiB are gathered; the request they carry comes as its own command (R298). -/
def execChunkSend (ep : SpdmEp) (bytes : List Byte) (last : Bool) (s : State) : Host.Outcome State Fault Refusal :=
  act s (·.spdm ep (fun s =>
    let l := s.chunk ep ++ bytes
    let put (l : List Byte) (s : State) : State :=
      { s with sec := { s.sec with chunks := Tbl.set (fun _ => []) s.sec.chunks (epNo ep) l } }
    if 16384 < l.length then (put [] s).spdmErr ep 1
    else (put (if last then [] else l) s).respond ep 0x05 (leBytes 2 l.length)))

/-- CHUNK_GET: chunk `n` of the last response; the manual gives no chunk length (R298; log 10). -/
def execChunkGet (ep : SpdmEp) (n : Nat) (s : State) : Host.Outcome State Fault Refusal :=
  act s (·.spdm ep (fun s =>
    s.emit (.spdm ep 0x06 (Config.standardBody 3 (n :: (Tbl.get (fun _ => []) s.sec.last (epNo ep)).map (·.toNat))))))

/-- SPDM_UNSUPPORTED_REQUEST (R298). -/
def execSpdmUnsupportedRequest (ep : SpdmEp) (_ : BitVec 8) (s : State) : Host.Outcome State Fault Refusal :=
  act s (·.spdm ep (·.spdmErr ep 7))

/-! ### Sessions (R298) -/

/-- The sessions, and SPDM_STAT with them. -/
def State.setSessions (s : State) (l : List Session) : State :=
  { s with sec := { s.sec with sessions := l } }.setF Fld.securitySpdmStatSessions l.length

/-- A session of an endpoint. -/
def State.session (s : State) (ep : SpdmEp) (sid : Nat) : Option Session :=
  s.sec.sessions.find? (fun x => decide (x.sid = sid ∧ x.ep = epNo ep))

/-- A session of an endpoint whose handshake is complete. -/
def State.secured (s : State) (ep : SpdmEp) (sid : Nat) : Bool :=
  match s.session ep sid with
  | some x => x.open_
  | none => false

/-- The lowest session number not in use. -/
def State.freeSid (s : State) : Nat :=
  ((List.range 257).find? (fun k => !s.sec.sessions.any (fun x => x.sid = k))).getD 256

/-- KEY_EXCHANGE: a session opens, or the 256 are all taken (R298). -/
def execKeyExchange (ep : SpdmEp) (slot : Fin 8) (s : State) : Host.Outcome State Fault Refusal :=
  act s (·.spdm ep (fun s =>
    if 256 ≤ s.sec.sessions.length then s.spdmErr ep 10
    else if !s.hasChain slot.val then s.spdmErr ep 1
    else if !s.hasIdentity then s.spdmErr ep 5
    else
      let sid := s.freeSid
      let d := s.draw 256
      let s := d.2.setSessions (d.2.sec.sessions ++ [{ sid := sid, ep := epNo ep }])
      s.respondSigned ep 0x64 (leBytes 2 sid ++ leBytes 32 d.1.toNat ++ s.chainDigest slot.val)))

/-- FINISH: the handshake is complete, or the session ends when its check fails (R298). -/
def execFinish (ep : SpdmEp) (sid : Nat) (ok : Bool) (s : State) : Host.Outcome State Fault Refusal :=
  act s (·.spdm ep (fun s =>
    match s.session ep sid with
    | none => s.spdmErr ep 2
    | some x =>
      if ok then
        (s.setSessions (s.sec.sessions.map (fun y => if y = x then { x with open_ := true } else y))).respond ep 0x65 []
      else (s.setSessions (s.sec.sessions.filter (fun y => y ≠ x))).spdmErr ep 6))

/-- END_SESSION (R298). -/
def execEndSession (ep : SpdmEp) (sid : Nat) (s : State) : Host.Outcome State Fault Refusal :=
  act s (·.spdm ep (fun s =>
    match s.session ep sid with
    | none => s.spdmErr ep 2
    | some x => (s.setSessions (s.sec.sessions.filter (fun y => y ≠ x))).respond ep 0x6C []))

/-- HEARTBEAT (R298). -/
def execHeartbeat (ep : SpdmEp) (sid : Nat) (s : State) : Host.Outcome State Fault Refusal :=
  act s (·.spdm ep (fun s => if s.secured ep sid then s.respond ep 0x68 [] else s.spdmErr ep 2))

/-- KEY_UPDATE (R298). -/
def execKeyUpdate (ep : SpdmEp) (sid : Nat) (s : State) : Host.Outcome State Fault Refusal :=
  act s (·.spdm ep (fun s =>
    if s.secured ep sid then
      (s.setSessions (s.sec.sessions.map (fun y =>
        if y.sid = sid ∧ y.ep = epNo ep then { y with updates := y.updates + 1 } else y))).respond ep 0x69 []
    else s.spdmErr ep 2))

/-! ### Measurements (R183, R184, R299, R300) -/

/-- The measurement record of the slot in force of a program in an engine (R183); zeros where no slot is in force. -/
def State.progRec (s : State) (n p : Nat) : List Byte :=
  if s.progLive n p then
    let sl := s.progInForce n p
    let img := Tbl.get (fun _ => ({} : Image)) s.eng.images (imageKey n p sl)
    let t := Tbl.get (fun _ => none) s.eng.tdigest p
    leBytes 1 n ++ leBytes 1 p ++ leBytes 1 sl ++ leBytes 8 (s.slotSeq n p sl) ++ beBytes 48 img.hash.toNat ++
      leBytes 1 img.keyId ++ leBytes 8 img.inForce ++ leBytes 1 (bit t.isSome) ++ beBytes 48 ((t.getD 0).toNat)
  else List.replicate 117 0

/-- SHA-384 over a plot's valid rules in the copy in force, in index order (R300). -/
def State.hedgeDigest (s : State) (p : Nat) : List Byte :=
  let t := s.ruleCopy (decide (s.getF Fld.hedgeCommitStatInforce = 1))
  let rs := (rulesIn t (s.getF (Fld.plotPlotW2HedgeBase p)) (s.getF (Fld.plotPlotW3HedgeCnt p))).filter (fun r => r.plot = p)
  sha (rs.flatMap (fun r => (List.range 4).flatMap (fun k => leBytes 4 (Tbl.get (fun _ => 0) t (4 * r.index + k)).toNat)))

/-- The tenant record of a function or VCS entry of logical port `lp` (R300). -/
def State.tenantRecord (s : State) (lp fn : Nat) : List Byte :=
  let vcs := decide (0x1000 ≤ fn)
  let plot := if vcs then s.getF (Fld.plotVcsW0Plot lp) else s.getF (Fld.plotFnW0Plot fn)
  let prog := if vcs then s.getF (Fld.plotVcsW0Prog lp) else s.getF (Fld.plotFnW0Prog fn)
  let k := s.kslot plot
  leBytes 2 fn ++ leBytes 2 (s.gen fn) ++ leBytes 1 (s.getF (liveFd fn).1) ++
    leBytes 1 (if vcs then 0 else s.getF (Fld.securityTdiStatState fn)) ++ leBytes 2 plot ++ s.progRec (lp / 2) prog ++
    leBytes 4 (s.rd Reg.hedgeEpoch).toNat ++ s.hedgeDigest plot ++
    leBytes 1 (if k.state = 1 ∨ k.state = 2 then k.state else 0) ++ leBytes 8 k.tick

/-- The identity of a die, 16 bytes little-endian. -/
def uidBytes (die : Nat) : List Byte := leBytes 16 (Config.uid die).toNat

/-- Digest of the key registry: each slot's used and retired fuses, then its key (R299). -/
def State.registryDigest (s : State) : List Byte :=
  sha ((List.range 28).flatMap (fun k => leBytes 1 (bit (s.keyUsed k) + 2 * bit (s.keyRetired k)) ++
    bytesAt (Tbl.get (fun _ => []) s.sec.keys k) 0 97))

/-- The logical port that an endpoint's sessions run on. -/
def State.epPort (s : State) : SpdmEp → Option Nat
  | .doeSteward i => some (s.epLp i.val)
  | .doePf0 lp => some lp.val
  | .mctp => none

/-- Sequence number of the firmware image in use. -/
def State.fwSeqNow (s : State) : Nat :=
  if s.getF Fld.stewardFwStatSlot = 0 then s.get64 Reg.stewardFwSeqALo Reg.stewardFwSeqAHi
  else s.get64 Reg.stewardFwSeqBLo Reg.stewardFwSeqBHi

/-- A measurement block (R299). -/
def State.measurement (s : State) (ep : SpdmEp) (i : Nat) : List Byte :=
  let lp := (s.epPort ep).getD 0
  match i with
  | 1 => s.romDigest
  | 2 => Config.standardBody 5 []
  | 3 => beBytes 48 (Tbl.get (fun _ => 0) s.stw.fwSlots (s.getF Fld.stewardFwStatSlot)).toNat ++ leBytes 8 s.fwSeqNow
  | 4 =>
    let b := s.getF Fld.cfgstoreStatBootSel
    beBytes 48 s.cfg.hash.toNat ++
      leBytes 8 (if b = 2 then s.get64 Reg.cfgstoreSeqBLo Reg.cfgstoreSeqBHi else s.get64 Reg.cfgstoreSeqALo Reg.cfgstoreSeqAHi) ++
      leBytes 1 (s.getF Fld.cfgstoreStatKeyslot)
  | 5 => leBytes 1 s.lifecycle ++ leBytes 4 (fieldPut (s.rd Reg.securityDbgStat) 0 1 (bit s.debugOpen)).toNat ++ uidBytes 0 ++ uidBytes 1
  | 6 => s.registryDigest
  | 7 => match s.epPort ep with
    | some lp => leBytes 4 (s.rd (Reg.securityIdeStat lp)).toNat
    | none => leBytes 4 0
  | _ => if i = 0x80 then s.tenantRecord lp (0x1000 + lp) else s.tenantRecord lp (64 * lp + (i - 0x40))

/-- Indices that an endpoint may read (R299). -/
def indicesOf : SpdmEp → List Nat
  | .doePf0 _ => (List.range 7).map (· + 1) ++ (List.range 65).map (· + 0x40)
  | _ => (List.range 7).map (· + 1)

/-- GET_MEASUREMENTS: index 0 asks for their number, 0xFF for all, any other for one (R299). -/
def execGetMeasurements (ep : SpdmEp) (index : Fin 256) (signed : Bool) (s : State) : Host.Outcome State Fault Refusal :=
  act s (·.spdm ep (fun s =>
    let l := indicesOf ep
    let send (b : List Byte) : State := if signed then s.respondSigned ep 0x60 b else s.respond ep 0x60 b
    if index.val = 0 then send [BitVec.ofNat 8 l.length]
    else if index.val = 0xFF then send (l.flatMap (s.measurement ep))
    else if l.contains index.val then send (s.measurement ep index.val)
    else s.spdmErr ep 1))

/-! ### KEY_INJECT (R312) -/

/-- The endpoint is the PF0 of a function's port, and the session is one of its secured sessions. -/
def State.onPort (s : State) (ep : SpdmEp) (sid fid : Nat) : Bool :=
  match ep with
  | .doePf0 lp => decide (fid / 64 = lp.val) && s.secured ep sid
  | _ => false

/-- Every condition of R312 holds. -/
def State.mayInject (s : State) (ep : SpdmEp) (sid fid : Nat) (pair : BitVec 512) : Bool :=
  let p := s.getF (Fld.plotFnW0Plot fid)
  s.onPort ep sid fid && s.shipped && decide (s.getF (Fld.securityTdiStatState fid) = 1) &&
  decide (s.getF (Fld.plotPlotW0Live p) = 1) &&
  !(extentsF s.regs).any (fun e => decide (s.getF (Fld.extentXtW1Plot e) = p)) &&
  !s.slotInUse p && decide (pair.toNat % 2 ^ 256 ≠ pair.toNat / 2 ^ 256) && decide ((s.kslot p).state = 1)

/-- KEY_INJECT (R312). -/
def execKeyInject (ep : SpdmEp) (sid : Nat) (fid : Fid) (pair : BitVec 512) (s : State) : Host.Outcome State Fault Refusal :=
  act s (·.spdm ep (fun s =>
    if s.mayInject ep sid fid.val pair then
      (s.setKslot (s.getF (Fld.plotFnW0Plot fid.val)) ⟨2, s.tick, pair⟩).respond ep 0x7E []
    else s.spdmErr ep 1))

/-! ### TDISP (R301, R303) -/

/-- A TDISP message on a secured session of the function's port, for an assigned function (R301). -/
def State.tdisp (s : State) (ep : SpdmEp) (sid : Nat) (fid : Fid) (f : State → State) : State :=
  s.spdm ep (fun s => if s.onPort ep sid fid.val && s.assigned fid.val then f s else s.spdmErr ep 1)

/-- A TDISP response, in a VENDOR_DEFINED_RESPONSE. -/
def State.tdispSay (s : State) (ep : SpdmEp) (code : Nat) (body : List Byte) : State :=
  s.respond ep 0x7E (BitVec.ofNat 8 code :: body)

/-- TDI state of a function: 0 CONFIG_UNLOCKED, 1 CONFIG_LOCKED, 2 RUN, 3 ERROR (R300). -/
def State.tdi (s : State) (fid : Nat) : Nat := s.getF (Fld.securityTdiStatState fid)

/-- TDI state set. -/
def State.setTdi (s : State) (fid v : Nat) : State := s.setF (Fld.securityTdiStatState fid) v

/-- GET_TDISP_VERSION: 1.0 (R301). -/
def execGetTdispVersion (ep : SpdmEp) (sid : Nat) (fid : Fid) (s : State) : Host.Outcome State Fault Refusal :=
  act s (·.tdisp ep sid fid (·.tdispSay ep 0x01 [0x10]))

/-- GET_TDISP_CAPABILITIES (R301). -/
def execGetTdispCapabilities (ep : SpdmEp) (sid : Nat) (fid : Fid) (s : State) : Host.Outcome State Fault Refusal :=
  act s (·.tdisp ep sid fid (·.tdispSay ep 0x02 (Config.standardBody 6 [])))

/-- LOCK_INTERFACE_REQUEST: CONFIG_UNLOCKED becomes CONFIG_LOCKED (R301). -/
def execLockInterfaceRequest (ep : SpdmEp) (sid : Nat) (fid : Fid) (s : State) : Host.Outcome State Fault Refusal :=
  act s (·.tdisp ep sid fid (fun s =>
    if s.tdi fid.val = 0 then
      let d := s.draw 256
      (d.2.setTdi fid.val 1).tdispSay ep 0x03 (leBytes 32 d.1.toNat)
    else s.tdispSay ep 0x7F [4]))

/-- GET_DEVICE_INTERFACE_REPORT: the mailbox range and the tenant record (R301). -/
def execGetDeviceInterfaceReport (ep : SpdmEp) (sid : Nat) (fid : Fid) (s : State) : Host.Outcome State Fault Refusal :=
  act s (·.tdisp ep sid fid (fun s =>
    if s.tdi fid.val = 1 ∨ s.tdi fid.val = 2 then
      s.tdispSay ep 0x04 (Config.standardBody 7 [fid.val] ++ s.tenantRecord (fid.val / 64) fid.val)
    else s.tdispSay ep 0x7F [4]))

/-- GET_DEVICE_INTERFACE_STATE (R301). -/
def execGetDeviceInterfaceState (ep : SpdmEp) (sid : Nat) (fid : Fid) (s : State) : Host.Outcome State Fault Refusal :=
  act s (·.tdisp ep sid fid (fun s => s.tdispSay ep 0x05 (leBytes 1 (s.tdi fid.val))))

/-- START_INTERFACE_REQUEST: CONFIG_LOCKED becomes RUN (R301). -/
def execStartInterfaceRequest (ep : SpdmEp) (sid : Nat) (fid : Fid) (s : State) : Host.Outcome State Fault Refusal :=
  act s (·.tdisp ep sid fid (fun s =>
    if s.tdi fid.val = 1 then (s.setTdi fid.val 2).tdispSay ep 0x06 [] else s.tdispSay ep 0x7F [4]))

/-- STOP_INTERFACE_REQUEST: to CONFIG_UNLOCKED (R301, R303). -/
def execStopInterfaceRequest (ep : SpdmEp) (sid : Nat) (fid : Fid) (s : State) : Host.Outcome State Fault Refusal :=
  act s (·.tdisp ep sid fid (fun s => (s.setTdi fid.val 0).tdispSay ep 0x07 []))

end Sys2Proof.Machine
end

