-- ==== Sys2Proof/Machine/Rings.lean ====
section
/-! DEFINITION. The commands that rings carry (R373 to R376), the completions of endpoint DMA (R379 to R381), D-states (R383) and
MCTP packets (R385 to R387). -/

namespace Sys2Proof.Machine

/-! ### FETCH of a command's input (R375) -/

/-- Lengths of the reads that fetch `len` bytes from `addr`: within 256-byte blocks (DEDUCED from the worked example). -/
def chunks : Nat → Nat → Nat → List (Nat × Nat)
  | 0, _, _ => []
  | _, _, 0 => []
  | n + 1, addr, len =>
    let k := min len (256 - addr % 256)
    (addr, k) :: chunks n (addr + k) (len - k)

/-- Reads are issued while fewer than 64 are outstanding (R378). -/
def State.issueReads (s : State) (i : Nat) (ids : List Nat) : List (Nat × Nat) → State × List Nat × List (Nat × Nat)
  | [] => (s, ids, [])
  | x :: l =>
    if 64 ≤ (s.ep i).reads.length then (s, ids, x :: l)
    else
      let y := s.dmaRead i x.1 x.2
      y.1.issueReads i (ids ++ [y.2]) l

/-- Input bytes that a command's operands stand for; none where the command takes no input. -/
def inputLen : Instr → Option Nat
  | .regWrite _ _ _ pairs => some (8 * pairs.length)
  | .regRead _ _ _ addrs => some (4 * addrs.length)
  | .progLoad _ _ _ _ _ image => some image.length
  | .fwLoad _ _ _ image => some image.length
  | .mzCmd _ _ _ cmd => some (if cmd.length = 240 then 240 else 65537)
  | .cfgWrite _ _ _ _ image => some image.length
  | _ => none

/-- A field of the entry is out of range: a length above 65,536, or an input that is no list of the command's items (R373, R376). -/
def rangeBad (c : Instr) : Bool :=
  let e := entryOf c
  decide (65536 < e.inLen.toNat ∨ 65536 < e.outLen.toNat) || (match inputLen c with
    | some n => decide (e.inLen.toNat ≠ n)
    | none => false) || (match c with
    | .progLoad _ _ _ _ p image => decide (16 ≤ p.toNat ∨ 8192 < image.length)
    | .cfgWrite _ _ _ copy _ => decide (2 ≤ copy.toNat)
    | _ => false)

/-! ### APPLY (R374 to R376) -/

/-- Trapped messages as TRAPS returns them, 64 bytes each: reason, port, header, FID, generation, plot, program and trace tag (R166, R167;
log 10). -/
def trapBytes (x : Nat × Msg) : List Byte :=
  let h := x.2.hdr
  bytesAt (Config.standardBody 9 ([x.1, x.2.inLp, h.opc, h.addr, h.size, h.tag, x.2.cls.fid, x.2.cls.gen, x.2.cls.plot,
    x.2.cls.prog, x.2.ctx.act.mark] ++
    h.data.map (·.toNat))) 0 64

/-- Unread bytes of the outbox (R352). -/
def State.outboxBytes (s : State) : List Byte :=
  let r := (s.rd Reg.stewardMzOutRd).toNat
  let n := (s.rd Reg.stewardMzOutWr - s.rd Reg.stewardMzOutRd).toNat
  (List.range n).map (fun k =>
    let c := (r + k) % 65536
    BitVec.ofNat 8 (s.getF ⟨Reg.stewardMzOutbox (c / 4), 8 * (c % 4), 8⟩))

/-- Words written to consecutive registers, by the steward cores. -/
def State.writeWords (s : State) (a : Nat) (l : List Byte) : State :=
  (List.range ((l.length + 3) / 4)).foldl (fun s k => s.regWrite (a + 4 * k) (BitVec.ofNat 32 (leNat (bytesAt l (4 * k) 4)))) s

/-- Engines of a mask. -/
def maskEngines (mask : Word) : List Nat := (List.range 32).filter (fun n => Nat.testBit mask.toNat n)

/-- The first non-zero load code of a mask's engines, with the engine (R374). -/
def State.loadResult (s : State) (mask : Word) : Nat :=
  match (maskEngines mask).find? (fun n => decide (s.getF (Fld.coulterLoadStatCode n) ≠ 0)) with
  | some n => s.getF (Fld.coulterLoadStatCode n) + 256 * n
  | none => 0

/-- CFG_WRITE (R362, R363, R374): the copy is erased, written and checked; refused for the preferred copy and while the store is
busy. The status and `RESULT`. -/
def State.cfgCopy (s : State) (b : Bool) (image : List Byte) : State × Nat × Nat :=
  if s.storeBusy then (s, 4, 1)
  else if s.prefNow = 1 + bit b then (s, 4, 2)
  else
    let s := s.spoil b
    let s := s.setCfg (fun c => { c with flash := Tbl.clear c.flash (copyBase b) 0x2000000 })
    let s := (s.flashPut (copyBase b) image).checked b
    (s, 0, s.getF (reasonFd b))

/-- The command of an instance still stands: its writes did not end it. -/
def State.stands (s : State) (i r : Nat) (c : Instr) : Bool := decide ((s.ep i).cmd = some (.input r c [] []))

/-- A command's APPLY ends, unless what it wrote ended the command itself (R372, R382). -/
def State.appliedIf (s : State) (i r : Nat) (c : Instr) (status result : Nat) (body : List Byte) (consume : Nat × Nat := (0, 0)) :
    State :=
  if s.stands i r c then s.applied i r (entryOf c) status result body consume else s.serve

/-- APPLY of a command whose input is here. -/
def State.ringApply (s : State) (i r : Nat) (c : Instr) : State :=
  let s := (s.setCmd i (some (.input r c [] []))).passEntry i r
  let e := entryOf c
  if rangeBad c then s.applied i r e 2 0 []
  else match c with
    | .fmapi _ _ _ => s.setCmd i (some (.fm r e))
    | .regWrite _ _ _ pairs =>
      (pairs.foldl (fun s p => s.regWrite p.1 p.2) s).appliedIf i r c 0 pairs.length []
    | .regRead _ _ _ addrs =>
      let x := s.regReads .steward addrs
      x.2.appliedIf i r c 0 0 (x.1.flatMap (fun w => leBytes 4 w.toNat))
    | .progLoad _ _ _ mask p image =>
      let s := (maskEngines mask).foldl (fun s n => (s.writeWords (Reg.coulterStaging n 0) image).loadGo n p.toNat) s
      s.setCmd i (some (.wait r c))
    | .fwLoad _ _ _ image =>
      let s := s.fwLoad image
      let k := s.getF Fld.stewardFwStatCode
      s.appliedIf i r c (if k = 0 then 0 else 4) k []
    | .fwActivate _ _ _ =>
      if s.fwBusy then s.appliedIf i r c 5 0 []
      else
        let s := s.fwSwitch
        if s.getF Fld.stewardFwStatSwitching = 1 then s.setCmd i (some (.switching r e)) else s.appliedIf i r c 4 5 []
    | .mzCmd _ _ _ cmd => ((s.writeWords (Reg.stewardMzInbox 0) cmd).meterGo).setCmd i (some (.wait r c))
    | .records _ _ _ =>
      let l := s.outboxBytes
      s.appliedIf i r c 0 0 l (l.length, 0)
    | .traps _ _ _ => s.appliedIf i r c 0 0 (s.dp.trapQ.flatMap trapBytes) (0, s.dp.trapQ.length)
    | .cfgWrite _ _ _ copy image =>
      let x := s.cfgCopy (decide (copy.toNat = 1)) image
      x.1.appliedIf i r c x.2.1 x.2.2 []
    | _ => s.appliedIf i r c 0 0 []

/-- A command that started a load or a meter command completes once that is done (R374). -/
def State.waitEnd (s : State) (i r : Nat) (c : Instr) : State :=
  match c with
  | .progLoad _ _ e mask _ _ =>
    if (maskEngines mask).any (fun n => decide (s.getF (Fld.coulterLoadStatBusy n) = 1)) then s
    else
      let k := s.loadResult mask
      s.applied i r e (if k = 0 then 0 else 4) k []
  | .mzCmd _ _ e _ =>
    if s.getF Fld.stewardMzInboxCtlBusy = 1 then s
    else
      let k := s.getF Fld.mzCmdStatResult
      s.applied i r e (if k = 0 then 0 else 4) k []
  | _ => s

/-- A command whose hardware is free for it: the meter's inbox takes one command at a time (R352), and a program whose commit is pending is
not loaded (R389). -/
def State.mayApply (s : State) (c : Instr) : Bool :=
  match c with
  | .mzCmd _ _ _ _ => decide (s.getF Fld.stewardMzInboxCtlBusy = 0)
  | .progLoad _ _ _ mask p _ => !s.commits.any (fun x => match x.1 with
      | .prog n q => Nat.testBit mask.toNat n && decide (q = p.toNat)
      | _ => false)
  | _ => true

/-- What an instance's command can do now: APPLY once its input is here, or its end once what it waits for is done. -/
def State.ringPoll (s : State) (i : Nat) : State :=
  match (s.ep i).cmd with
  | some (.input r c [] []) => if s.stewardUp && s.epServed i && s.mayApply c then s.ringApply i r c else s
  | some (.wait r c) => if s.stewardApplies then s.waitEnd i r c else s
  | _ => s

/-- A ring command whose entry has been read: its input is fetched, then it is applied (R375). -/
def State.ringRow (s : State) (i r : Nat) (c : Instr) : State :=
  if (s.ep i).cmd = some (.entry r) ∧ s.epServed i then
    let e := entryOf c
    let todo := if 65536 < e.inLen.toNat then [] else chunks 258 e.inAddr.toNat e.inLen.toNat
    let x := s.issueReads i [] todo
    (x.1.setCmd i (some (.input r c x.2.1 x.2.2))).ringPoll i
  else s

/-- RING_NOP (R374). -/
def execRingNop (i : Inst) (r : Ring) (e : SqEntry) (s : State) : Host.Outcome State Fault Refusal :=
  act s (·.ringRow i.val r.val (.ringNop i r e))

/-- FMAPI: the request is the FM API command that comes next (R374, R388). -/
def execFmapi (i : Inst) (r : Ring) (e : SqEntry) (s : State) : Host.Outcome State Fault Refusal :=
  act s (·.ringRow i.val r.val (.fmapi i r e))

/-- REG_WRITE (R374). -/
def execRegWrite (i : Inst) (r : Ring) (e : SqEntry) (pairs : List (Nat × Word)) (s : State) : Host.Outcome State Fault Refusal :=
  act s (·.ringRow i.val r.val (.regWrite i r e pairs))

/-- REG_READ (R374). -/
def execRegRead (i : Inst) (r : Ring) (e : SqEntry) (addrs : List Nat) (s : State) : Host.Outcome State Fault Refusal :=
  act s (·.ringRow i.val r.val (.regRead i r e addrs))

/-- PROG_LOAD (R374). -/
def execProgLoad (i : Inst) (r : Ring) (e : SqEntry) (mask p : Word) (image : List Byte) (s : State) :
    Host.Outcome State Fault Refusal :=
  act s (·.ringRow i.val r.val (.progLoad i r e mask p image))

/-- FW_LOAD (R374, R390). -/
def execFwLoad (i : Inst) (r : Ring) (e : SqEntry) (image : List Byte) (s : State) : Host.Outcome State Fault Refusal :=
  act s (·.ringRow i.val r.val (.fwLoad i r e image))

/-- FW_ACTIVATE (R374, R391). -/
def execFwActivate (i : Inst) (r : Ring) (e : SqEntry) (s : State) : Host.Outcome State Fault Refusal :=
  act s (·.ringRow i.val r.val (.fwActivate i r e))

/-- MZ_CMD (R341, R374). -/
def execMzCmd (i : Inst) (r : Ring) (e : SqEntry) (cmd : List Byte) (s : State) : Host.Outcome State Fault Refusal :=
  act s (·.ringRow i.val r.val (.mzCmd i r e cmd))

/-- RECORDS (R374, R375). -/
def execRecords (i : Inst) (r : Ring) (e : SqEntry) (s : State) : Host.Outcome State Fault Refusal :=
  act s (·.ringRow i.val r.val (.records i r e))

/-- TRAPS (R374, R375). -/
def execTraps (i : Inst) (r : Ring) (e : SqEntry) (s : State) : Host.Outcome State Fault Refusal :=
  act s (·.ringRow i.val r.val (.traps i r e))

/-- CFG_WRITE (R362, R363, R374). -/
def execCfgWrite (i : Inst) (r : Ring) (e : SqEntry) (copy : Word) (image : List Byte) (s : State) :
    Host.Outcome State Fault Refusal :=
  act s (·.ringRow i.val r.val (.cfgWrite i r e copy image))

/-! ### Completions of the endpoint's DMA (R379 to R382) -/

/-- A completion of the current generation reaches the command that waits for it. -/
def State.dmaArrived (s : State) (i id : Nat) (ok : Bool) : State :=
  if !s.waitsFor i id then s
  else if !ok then s.fetchFailed i
  else match (s.ep i).cmd with
    | some (.fetch r _) => s.setCmd i (some (.entry r))
    | some (.input r c ids todo) =>
      let x := s.issueReads i (ids.filter (fun k => decide (k ≠ id))) todo
      (x.1.setCmd i (some (.input r c x.2.1 x.2.2))).ringPoll i
    | _ => s

/-- EP_DMA_COMPLETION: accepted, discarded, gleaned, or too late (R380 to R382). -/
def execEpDmaCompletion (i : Inst) (id : Nat) (ok : Bool) (s : State) : Host.Outcome State Fault Refusal :=
  act s (fun s =>
    let k := i.val
    match (s.ep k).reads.find? (fun x => decide (x.1 = id)) with
    | none => s.bump (Fd.whole (Reg.stewardEpLate k))
    | some x =>
      let s := s.dropRead k id
      if x.2.1 ≠ s.getF (Fld.stewardEpCfgGen k) then s.bump (Fd.whole (Reg.stewardEpGlean k))
      else if s.getF (Fld.stewardEpCfgBme k) = 0 then s.bump (Fd.whole (Reg.stewardEpDisc k))
      else s.dmaArrived k id ok)

/-! ### D-states (R383) -/

/-- What an instance held goes on: interrupts, a command's RETURN, a fetch (R381, R383). -/
def State.epResume (s : State) (i : Nat) : State := ((((s.signalAll i).intaUpdate i).finishRet i).ringPoll i).serve

/-- An instance goes to D3hot, once a command in APPLY is done, or back to D0, where what was held goes on (R381, R383). -/
def State.setD (s : State) (i : Nat) (d : DState) : State :=
  if !s.epPresent i then s
  else match d with
    | .d3hot =>
      match (s.ep i).cmd with
      | some c => if c.applying then s.setEp i { s.ep i with d3Due := true } else s.setF (Fld.stewardEpCfgDstate i) 3
      | none => s.setF (Fld.stewardEpCfgDstate i) 3
    | .d0 =>
      ((s.setEp i { s.ep i with d3Due := false }).setF (Fld.stewardEpCfgDstate i) 0).epResume i

/-- D_STATE_CHANGE (R383). -/
def execDStateChange (i : Inst) (d : DState) (s : State) : Host.Outcome State Fault Refusal := act s (·.setD i.val d)

/-! ### MCTP (R385 to R387) -/

/-- A message on MCTP is answered: registers by the bridge or the steward, an EID assignment by its binding; others are FM API, SPDM
and Haleus commands, which come as commands of their own (R385, R387). -/
def State.mctpServe (s : State) (lp : Option Nat) (m : MctpMsg) : State :=
  let src : Source := if lp.isNone then .sideband else .steward
  let out (s : State) (l : List Word) : State :=
    let e : OutEvent := .mctp (lp.map (fun p => Fin.ofNat 64 p)) l
    match lp.bind s.instOf with
    | some i => s.sendMsg i e (l.flatMap (fun w => leBytes 4 w.toNat))
    | none => s.emit e
  match m with
  | .regRead a =>
    let x := s.regRead src a
    out x.2 [x.1]
  | .regWrite a v => out (s.regWrite a v) []
  | .setEid e => out (s.setF (if lp.isNone then Fld.stewardMctpStatEidI3c else Fld.stewardMctpStatEidVdm) e.toNat) []
  | .other => s

/-- Bytes of packets that wait (R386). -/
def State.mctpBytes (s : State) : Nat := (s.stw.mctp.map (fun x => x.2.1)).sum

/-- Waiting messages are served while the steward runs. -/
def State.mctpDrain (s : State) : State :=
  if s.stewardUp then
    let l := s.stw.mctp
    l.foldl (fun s x => s.mctpServe x.1 x.2.2) (s.setStw (fun t => { t with mctp := [] }))
  else s

/-- MCTP_PACKET (R386, R387). -/
def execMctpPacket (lp : Option Lp) (bytes : Nat) (msg : MctpMsg) (s : State) : Host.Outcome State Fault Refusal :=
  act s (fun s =>
    let p := lp.map (·.val)
    let direct := p.isNone && (match msg with
      | .regRead _ => true
      | .regWrite _ _ => true
      | _ => false)
    if (match p with | some k => s.isRole k 0 && (s.instOf k).isNone | none => false) then s.bump Fld.stewardMctpDropTenant
    else if (match p with | some k => (s.instOf k).isNone | none => false) then s
    else if direct then s.mctpServe p msg
    else if 16384 < s.mctpBytes + bytes then s.bump Fld.stewardMctpDropOvf
    else (s.setStw (fun t => { t with mctp := t.mctp ++ [(p, bytes, msg)] })).mctpDrain)

/-- DYNAMIC_ADDRESS_ASSIGNMENT: SETDASA or ENTDAA (R385, R393). -/
def execDynamicAddressAssignment (da : BitVec 7) (s : State) : Host.Outcome State Fault Refusal :=
  act s (·.setF Fld.stewardMctpStatDa da.toNat)

end Sys2Proof.Machine
end

