-- ==== Sys2Proof/Machine/FmApi.lean ====
section
/-! DEFINITION. The FM API (R388, R389) and dynamic capacity (R89). The bytes of requests and responses are those of CXL 3.1, which
the manual does not give (log 10). -/

namespace Sys2Proof.Machine

/-! ### Answers -/

/-- Return codes of CXL 3.1: success, background command started, invalid input, busy. -/
def fmOk : Nat := 0
/-- Background command started. -/
def fmStarted : Nat := 1
/-- Invalid Input. -/
def fmInvalid : Nat := 2
/-- Busy. -/
def fmBusy : Nat := 6

/-- Body of a response to command `op` made from values. -/
def fmBody (op : Nat) (vals : List Nat) : List Byte := Config.standardBody 10 (op :: vals)

/-- The instance whose FMAPI command waits for its answer, if any. -/
def State.fmInst (s : State) : Option Nat := [0, 1].find? (fun i => match (s.ep i).cmd with
  | some (.fm _ _) => true
  | _ => false)

/-- The answer to a command: on the ring that carried it, where Busy is a status (R389), or over MCTP. -/
def State.fmAnswer (s : State) (code : Nat) (body : List Byte) : State :=
  match s.fmInst with
  | some i => match (s.ep i).cmd with
    | some (.fm r e) => s.applied i r e (if code = fmBusy then 5 else 0) 0 (leBytes 2 code ++ body)
    | _ => s
  | none => s.emit (.fm code body)

/-- A command is served by the steward while it runs, and one that a ring holds in APPLY before a switch restarts it (R387, R391). -/
def State.fmRow (s : State) (f : State → State) : Host.Outcome State Fault Refusal :=
  act s (·.when (s.stewardUp || (s.stewardApplies && s.fmInst.isSome)) f)

/-- A command that only reads. -/
def State.fmRead (s : State) (op : Nat) (vals : List Nat) : State := s.fmAnswer fmOk (fmBody op vals)

/-- A command refused as Invalid Input unless `ok`. -/
def State.fmIf (s : State) (ok : Bool) (f : State → State) : State := if ok then f s else s.fmAnswer fmInvalid []

/-! ### Generic commands -/

/-- IDENTIFY (R388). -/
def execIdentify (s : State) : Host.Outcome State Fault Refusal :=
  s.fmRow (·.fmRead 0x0001 [0x1E9C, 0x3289, 0x1E9C, 0x3289, (Config.uid 0).toNat / 2 ^ 64, 14])

/-- BACKGROUND_OPERATION_STATUS: the last background command, how far it is, and its code (R388). -/
def execBackgroundOperationStatus (s : State) : Host.Outcome State Fault Refusal :=
  s.fmRow (fun s => let b := s.stw.bg.getD (0, 0, 0); s.fmRead 0x0002 [b.1, b.2.1, b.2.2])

/-- GET_RESPONSE_MESSAGE_LIMIT (R388). -/
def execGetResponseMessageLimit (s : State) : Host.Outcome State Fault Refusal :=
  s.fmRow (fun s => s.fmRead 0x0003 [s.stw.limit])

/-- SET_RESPONSE_MESSAGE_LIMIT: 2^8 to 2^14 bytes (R388). -/
def execSetResponseMessageLimit (log2 : BitVec 8) (s : State) : Host.Outcome State Fault Refusal :=
  s.fmRow (fun s => s.fmIf (decide (8 ≤ log2.toNat ∧ log2.toNat ≤ 14)) (fun s =>
    (s.setStw (fun t => { t with limit := log2.toNat })).fmRead 0x0004 [log2.toNat]))

/-- GET_EVENTS (R388). -/
def execGetEvents (s : State) : Host.Outcome State Fault Refusal := s.fmRow (fun s => s.fmRead 0x0100 s.stw.events)

/-- CLEAR_EVENTS: the oldest `n` (R388). -/
def execClearEvents (n : Nat) (s : State) : Host.Outcome State Fault Refusal :=
  s.fmRow (fun s => (s.setStw (fun t => { t with events := t.events.drop n })).fmRead 0x0101 [])

/-- GET_EVENT_INTERRUPT_POLICY (R388). -/
def execGetEventInterruptPolicy (s : State) : Host.Outcome State Fault Refusal :=
  s.fmRow (fun s => s.fmRead 0x0102 [s.stw.policy])

/-- SET_EVENT_INTERRUPT_POLICY (R388). -/
def execSetEventInterruptPolicy (policy : BitVec 8) (s : State) : Host.Outcome State Fault Refusal :=
  s.fmRow (fun s => (s.setStw (fun t => { t with policy := policy.toNat })).fmRead 0x0103 [])

/-! ### The switch and its ports -/

/-- A virtual switch exists below an upstream logical port (R41). -/
def State.vcs (s : State) (lp : Nat) : Bool := s.isRole lp 0

/-- IDENTIFY_SWITCH_DEVICE: 64 port positions, one VCS per upstream logical port (R388). -/
def execIdentifySwitchDevice (s : State) : Host.Outcome State Fault Refusal :=
  s.fmRow (fun s => s.fmRead 0x5100 (64 :: ((List.range 64).filter s.lpExists) ++ (List.range 64).filter s.vcs))

/-- GET_PHYSICAL_PORT_STATE: role and LP_STAT of a logical port (R388). -/
def execGetPhysicalPortState (lp : Lp) (s : State) : Host.Outcome State Fault Refusal :=
  s.fmRow (fun s => s.fmRead 0x5101 [lp.val, bit (s.lpExists lp.val), s.role lp.val, (s.rd (Reg.portLpStat lp.val)).toNat])

/-- PHYSICAL_PORT_CONTROL: 0 asserts PERST, which clears ENABLE; 1 deasserts it; 2 is a hot reset of a downstream or fabric port
(R388). -/
def execPhysicalPortControl (lp : Lp) (op : Fin 3) (s : State) : Host.Outcome State Fault Refusal :=
  s.fmRow (fun s =>
    let p := lp.val
    s.fmIf (s.lpExists p && (decide (op.val ≠ 2) || decide (s.role p ≠ 0))) (fun s =>
      let s := match op.val with
        | 0 => s.lpCtlWrite p (s.rd (Reg.portLpCtl p) &&& ~~~1#32)
        | 1 => s.enableLp p
        | _ => s.linkDown p
      s.fmRead 0x5102 []))

/-- What a device behind a port answers to a request that the steward sends it: the device's own, so not known here (log 7). -/
def State.fromOutside (s : State) (op lp ld arg : Nat) : List Byte := Config.standardBody 11 [op, lp, ld, arg, s.freeCtr]

/-- A command that the steward passes on to the device of a downstream logical port (R388). -/
def State.passOn (s : State) (op lp ld arg : Nat) : State :=
  s.fmIf (s.isRole lp 1 && s.dllUp lp) (fun s =>
    { s with freeCtr := s.freeCtr + 1 }.fmAnswer fmOk (s.fromOutside op lp ld arg))

/-- SEND_PPB_CXL_IO_CONFIG_REQUEST (R388). -/
def execSendPpbCxlIoConfigRequest (lp : Lp) (reg : Fin 1024) (_ : Option Word) (s : State) : Host.Outcome State Fault Refusal :=
  s.fmRow (·.passOn 0x5103 lp.val 0 reg.val)

/-- TUNNEL_MANAGEMENT_COMMAND (R388). -/
def execTunnelManagementCommand (lp : Lp) (bytes : List Byte) (s : State) : Host.Outcome State Fault Refusal :=
  s.fmRow (·.passOn 0x5300 lp.val 0 (leNat bytes))

/-- SEND_LD_CXL_IO_CONFIG_REQUEST (R388). -/
def execSendLdCxlIoConfigRequest (lp : Lp) (ld : Fin 16) (reg : Fin 1024) (_ : Option Word) (s : State) :
    Host.Outcome State Fault Refusal :=
  s.fmRow (·.passOn 0x5301 lp.val ld.val reg.val)

/-- SEND_LD_CXL_IO_MEMORY_REQUEST (R388). -/
def execSendLdCxlIoMemoryRequest (lp : Lp) (ld : Fin 16) (addr : BitVec 64) (_ : Option (List Byte)) (s : State) :
    Host.Outcome State Fault Refusal :=
  s.fmRow (·.passOn 0x5302 lp.val ld.val addr.toNat)

/-- GET_LD_INFO (R388). -/
def execGetLdInfo (lp : Lp) (s : State) : Host.Outcome State Fault Refusal := s.fmRow (·.passOn 0x5400 lp.val 0 0)

/-- GET_LD_ALLOCATIONS (R388). -/
def execGetLdAllocations (lp : Lp) (s : State) : Host.Outcome State Fault Refusal := s.fmRow (·.passOn 0x5401 lp.val 0 0)

/-- SET_LD_ALLOCATIONS (R388). -/
def execSetLdAllocations (lp : Lp) (bytes : List Byte) (s : State) : Host.Outcome State Fault Refusal :=
  s.fmRow (·.passOn 0x5402 lp.val 0 (leNat bytes))

/-- GET_VIRTUAL_CXL_SWITCH_INFO: the bindings in force of a VCS (R41, R388). -/
def execGetVirtualCxlSwitchInfo (lp : Lp) (s : State) : Host.Outcome State Fault Refusal :=
  s.fmRow (fun s => s.fmIf (s.vcs lp.val) (fun s =>
    s.fmRead 0x5200 (lp.val :: (List.range 30).map (fun d => (s.rd (Reg.plotVppb lp.val d)).toNat))))

/-- GENERATE_AER_EVENT: the error bits named are raised on the vPPB (R388). -/
def execGenerateAerEvent (vcs : Lp) (d : Fin 32) (err : Word) (s : State) : Host.Outcome State Fault Refusal :=
  s.fmRow (fun s => s.fmIf (s.vcs vcs.val) (fun s =>
    ((List.range 32).foldl (fun s b => if Nat.testBit err.toNat b then s.aerFlag (vppbObj vcs.val d.val) b else s) s).fmRead 0x5203 []))

/-! ### Work by a plot commit (R42, R89, R389) -/

/-- A job's words are written to the load copies, and the commit is asked for. -/
def State.jobLoad (s : State) (j : FmJob) : State := (j.writes.foldl (fun s x => s.regWrite x.1 x.2) s).plotCommit

/-- A background command ends with a code. -/
def State.bgEnd (s : State) (op code : Nat) : State := s.setStw (fun t => { t with bg := some (op, 100, code) })

/-- The first job that waits is loaded once no plot commit is pending and no seed runs; one whose commit is refused ends (R389). -/
def State.jobStep (s : State) : State :=
  match s.stw.jobs with
  | j :: l =>
    if j.loaded || s.plotLocked || !s.stewardUp then s
    else
      let s := s.jobLoad j
      if s.plotLocked then s.setStw (fun t => { t with jobs := { j with loaded := true } :: l })
      else
        let s := s.setStw (fun t => { t with jobs := l })
        if j.op = 0x5201 ∨ j.op = 0x5202 then s.bgEnd j.op fmInvalid else s
  | [] => s

/-- A job's commit is in force: a bind ends and is an event, and added capacity is posted to the function's mailbox (R42, R89,
R388). -/
def State.jobDone (s : State) : State :=
  match s.stw.jobs with
  | j :: l =>
    if !j.loaded then s
    else
      let s := s.setStw (fun t => { t with jobs := l })
      if j.op = 0x5201 then (s.bgEnd j.op fmOk).fmEvent 3 j.idx
      else if j.op = 0x5202 then s.bgEnd j.op fmOk
      else if j.op = 0x5604 then { s with fn := { s.fn with mailbox := s.fn.mailbox ++ [(j.fid, 0, j.idx)] } }
      else s
  | [] => s

/-- A job joins those that wait. -/
def State.jobAdd (s : State) (j : FmJob) : State := (s.setStw (fun t => { t with jobs := t.jobs ++ [j] })).jobStep

/-- A bind or unbind starts as the background command, unless one runs (R389). -/
def State.bindStart (s : State) (op vcs d : Nat) (v : Word) : State :=
  if s.fwBusy then s.fmAnswer fmBusy []
  else
    let s := (s.setStw (fun t => { t with bg := some (op, 0, 0) })).fmAnswer fmStarted []
    s.jobAdd { op := op, writes := [(Reg.plotVppbLoad vcs d, v)], idx := 32 * vcs + d }

/-- BIND_VPPB: a vPPB that is bound already ends it with Invalid Input (R388, R389). -/
def execBindVppb (b : BindArgs) (s : State) : Host.Outcome State Fault Refusal :=
  s.fmRow (fun s => s.fmIf (s.vcs b.vcs.val && (bindingOf s.regs b.vcs.val (b.d.val + 2)).isNone) (fun s =>
    s.bindStart 0x5201 b.vcs.val b.d.val (BitVec.ofNat 32 (b.lp.val + 64 * b.ld.val + 1024 * bit b.mld + 2048))))

/-- UNBIND_VPPB: a vPPB that is not bound ends it with Invalid Input (R388, R389). -/
def execUnbindVppb (vcs : Lp) (d : Fin 30) (s : State) : Host.Outcome State Fault Refusal :=
  s.fmRow (fun s => s.fmIf (s.vcs vcs.val && (bindingOf s.regs vcs.val (d.val + 2)).isSome) (fun s =>
    s.bindStart 0x5202 vcs.val d.val 0))

/-! ### Dynamic capacity (R89) -/

/-- A function that has dynamic capacity: assigned in the table in force. -/
def State.dcdFn (s : State) (fid : Nat) : Bool := decide (s.getF (Fld.plotFnW0Assign fid) = 1)

/-- First extent entry and number of entries of a function. -/
def State.fnExtents (s : State) (fid : Nat) : Nat × Nat := (s.getF (Fld.plotFnW2XtBase fid), s.getF (Fld.plotFnW3XtCnt fid))

/-- A region of a function: first entry of its extent list, and entries. -/
def State.region (s : State) (fid k : Nat) : Nat × Nat := Tbl.get (fun _ => (0, 0)) s.fn.regions (8 * fid + k)

/-- DCD_GET_INFO: up to 8 regions per function (R89, R388). -/
def execDcdGetInfo (s : State) : Host.Outcome State Fault Refusal := s.fmRow (·.fmRead 0x5600 [4096, 8])

/-- DCD_GET_HOST_REGION_CONFIG (R89, R388). -/
def execDcdGetHostRegionConfig (fid : Fid) (s : State) : Host.Outcome State Fault Refusal :=
  s.fmRow (fun s => s.fmIf (s.dcdFn fid.val) (fun s =>
    s.fmRead 0x5601 (fid.val :: (List.range 8).flatMap (fun k => [(s.region fid.val k).1, (s.region fid.val k).2]))))

/-- DCD_SET_REGION_CONFIG: a run of the function's extent list that meets no other region (R89, R388). -/
def execDcdSetRegionConfig (fid : Fid) (region : Fin 8) (first count : Nat) (s : State) : Host.Outcome State Fault Refusal :=
  s.fmRow (fun s =>
    let clash := (List.range 8).any (fun k => decide (k ≠ region.val) &&
      runsMeet (s.region fid.val k).1 (s.region fid.val k).2 first count)
    s.fmIf (s.dcdFn fid.val && decide (first + count ≤ (s.fnExtents fid.val).2) && !clash) (fun s =>
      { s with
        fn := { s.fn with
          regions := Tbl.set (fun _ => (0, 0)) s.fn.regions (8 * fid.val + region.val) (first, count) } }.fmRead 0x5602 []))

/-- DCD_GET_EXTENT_LISTS: the function's valid extent entries in force (R89, R388). -/
def execDcdGetExtentLists (fid : Fid) (s : State) : Host.Outcome State Fault Refusal :=
  s.fmRow (fun s => s.fmIf (s.dcdFn fid.val) (fun s =>
    let x := s.fnExtents fid.val
    let l := (List.range x.2).map (fun k => x.1 + k)
    s.fmRead 0x5603 (l.filter (fun k => decide (s.getF (Fld.extentXtW0Valid k) = 1)))))

/-- An extent entry lies in a function's list. -/
def State.inList (s : State) (fid idx : Nat) : Bool :=
  decide ((s.fnExtents fid).1 ≤ idx ∧ idx < (s.fnExtents fid).1 + (s.fnExtents fid).2)

/-- DCD_INITIATE_ADD: the entry is committed valid, and then Add Capacity is posted to the function's mailbox (R89). -/
def execDcdInitiateAdd (fid : Fid) (idx : Fin 131072) (w0 w1 : Word) (s : State) : Host.Outcome State Fault Refusal :=
  s.fmRow (fun s => s.fmIf (s.dcdFn fid.val && s.inList fid.val idx.val && wbit w0 31) (fun s =>
    (s.fmRead 0x5604 []).jobAdd {
      op := 0x5604, fid := fid.val, idx := idx.val,
      writes := [(Reg.extentXtW0Load idx.val, w0), (Reg.extentXtW1Load idx.val, w1)] }))

/-- A job that commits an extent entry invalid (R89). -/
def State.releaseJob (s : State) (fid idx : Nat) : State :=
  s.jobAdd { op := 0x5605, fid := fid, idx := idx,
             writes := [(Reg.extentXtW0Load idx, s.rd (Reg.extentXtW0Load idx) &&& ~~~0x80000000#32)] }

/-- DCD_INITIATE_RELEASE: by force the entry is committed invalid; else the host is asked through its mailbox (R89). -/
def execDcdInitiateRelease (fid : Fid) (idx : Fin 131072) (forced : Bool) (s : State) : Host.Outcome State Fault Refusal :=
  s.fmRow (fun s => s.fmIf (s.dcdFn fid.val && s.inList fid.val idx.val) (fun s =>
    let s := s.fmRead 0x5605 []
    if forced then s.releaseJob fid.val idx.val
    else { s with fn := { s.fn with mailbox := s.fn.mailbox ++ [(fid.val, 1, idx.val)] } }))

end Sys2Proof.Machine
end

