-- ==== Sys2Proof/Machine/Startup.lean ====
section
/-! DEFINITION. Start-up step 6 (R205, R361, R424): the steward puts the sections of the chosen copy into the load copies of their owners,
has the hedge rules checked, and commits every table in one furlong before its headland. -/

namespace Sys2Proof.Machine

/-- Something that the steward must await before its next write of step 6: a load, a seed, a check. -/
def State.loadsBusy (s : State) : Bool :=
  (List.range 32).any (fun n => decide (s.getF (Fld.coulterLoadStatBusy n) = 1)) ||
  decide (s.getF Fld.coulterHtCtlBusy = 1 ∨ s.getF Fld.hedgeCheckBusy = 1 ∨ s.getF Fld.hedgeCopyCtlBusy = 1)

/-- The steward's register writes of step 6, in order, until it must await something; what is left of them. -/
def State.sectRun (s : State) : List (Nat × Word) → State × List (Nat × Word)
  | [] => (s, [])
  | x :: l => if s.loadsBusy then (s, x :: l) else (s.regWrite x.1 x.2).sectRun l

/-- The chosen copy has a section of a type. -/
def State.hasSection (s : State) (ty : Nat) : Bool := (s.sectionBytes (decide (s.getF Fld.cfgstoreStatBootSel = 2)) ty).isSome

/-- The programs that were loaded, and the hash tables that were allocated, are committed. -/
def State.commitEngines (s : State) : State :=
  let s := if s.hasSection 5 then
      (List.range 512).foldl (fun s k =>
        let n := k / 16
        let p := k % 16
        if s.shape n = 3 ∨ Tbl.get (fun _ => none) s.eng.last k = none then s else s.progCommit n p) s
    else s
  if s.hasSection 6 then (List.range 16).foldl (fun s p => if s.htAllocs true p = [] then s else s.htCommit p) s else s

/-- The commits of step 6, all in one tick (R19, R361). -/
def State.sectCommit (s : State) : State :=
  let s := ((s.when (s.hasSection 3) (·.plotCommit)).when (s.hasSection 4) (·.hedgeCommit)).commitEngines
  (s.when (s.hasSection 7) (·.schedCommit)).when (s.hasSection 8) (·.bufferCommit)

/-- The steward goes on with step 6 (R361). -/
def State.sectStep (s : State) : State :=
  if s.getF Fld.cprStartStep ≠ 6 ∨ s.getF Fld.cprStartHalt = 1 then s
  else match s.cfg.load with
    | .write =>
      let x := s.sectRun s.cfg.todo
      x.1.setCfg (fun c => { c with todo := x.2, load := if x.2 = [] then .commit else .write })
    | .commit => if s.loadsBusy || decide (252 ≤ s.phase) then s else s.sectCommit.setCfg (fun c => { c with load := .done })
    | .idle => s
    | .done => s

end Sys2Proof.Machine
end

