-- ==== Sys2Proof/Machine/Time.lean ====
section
/-! DEFINITION. Time (01): the tick and what every tick does, the furlong boundary, and the switch-over of every commit that falls
due (R13 to R21). -/

namespace Sys2Proof.Machine

/-! ### The tick (R14, R17) -/

/-- A message that waits in the shared buffer counts this tick: CRED when its egress port holds no credit for its class, else QUEUE,
with the part lost to the budget of its crossbar input (QIN) and the rest of a reserved message's that other traffic causes
(QRSV) (R24, R277). A message that the link's window of 384 flits stalls counts CRED (R57). DESIGN CHOICE (log 80): credit is judged at
the tick's end, after the grants and the returns of credit of the tick; the manual names no moment in it. -/
def State.waitTick (s : State) (m : Msg) : Msg :=
  if m.stage = .bid ∧ m.firstBid ≤ s.tick then
    let p := m.parts
    if !s.hasCredit m.out m.hdr || (decide (s.role m.out ≠ 2) && !s.windowOpen m.out) then { m with parts := { p with cred := p.cred + 1 } }
    else
      let p := { p with queue := p.queue + 1 }
      if s.dp.qin.contains m.id then { m with parts := { p with qin := p.qin + 1 } }
      else if s.reserved m && s.dp.rsvUp.contains m.id then { m with parts := { p with qrsv := p.qrsv + 1 } }
      else { m with parts := p }
  else m

/-- Every message's waits of the tick. -/
def State.waitTicks (s : State) : State :=
  { s with dp := { s.dp with msgs := s.dp.msgs.map s.waitTick, qin := [], rsvUp := [] } }

/-- Every message in an engine moves on one stage (R112). -/
def State.engineTicks (s : State) : State :=
  (s.dp.msgs.filter (fun m => decide (m.stage = .engine))).foldl (fun s m => s.engineTick m.id) s

/-- A port's flit slots of the tick; a flit of an upstream port returns the credit of its host's posted messages (R61, R326). -/
def State.portTick (s : State) (lp : Nat) : State :=
  let was := (s.lnk lp).tfl.flits
  let s := s.linkTick lp
  if s.isRole lp 0 && decide ((s.lnk lp).tfl.flits ≠ was) then s.postedTaps lp else s

/-- What the ending tick still does: events are ordered and recorded (R397), messages count it and move on, ports send. -/
def State.tickEnd (s : State) : State :=
  let s := s.applyCheck.flushFaults.waitTicks.engineTicks.countTick.admitMade
  ((s.link.links.map (·.1)).foldl (fun s l => s.portTick l) s).drainTick

/-- BUFFER.LIMIT_SUM follows the load copy in the tick after each write (R268). -/
def State.limitTick (s : State) : State :=
  if s.xb.sumDue then { s.setF Fld.bufferLimitSumCells s.limitSum with xb := { s.xb with sumDue := false } } else s

/-- Cells of packed messages that are free now (R253). -/
def State.freedTick (s : State) : State :=
  { s with xb := { s.xb with freed := s.xb.freed.filter (fun x => decide (s.tick < x.free)) } }

/-- What the new tick begins with: the harrow's line moves are counted anew (R258), and the steward goes on with what waited
(R374, R386, R389); requests of links that went down end (R74), and LOAD_STAT follows (R91). -/
def State.tickStart (s : State) : State :=
  let s := { s with xb := { s.xb with issued := 0, levels := [] }, dp := { s.dp with classed := [], entered := [] },
                    home := { s.home with looked := 0 }, hedge := { s.hedge with denials := [] } }
  let s := s.dropTick.loadTick.limitTick.freedTick.poisonTick.sectStep
  let s := (s.epDue 0).epDue 1
  ((((s.serve.ringPoll 0).ringPoll 1).fwRestart).mctpDrain).jobStep

/-- TICK: the time is one tick later (R13, R14). -/
def execTick (s : State) : Host.Outcome State Fault Refusal :=
  .next { ({ s.tickEnd with tick := s.tick + 1 } : State).tickStart with pending := s.pending, tick := s.tick + 1 }

/-! ### Generations (R96, R100, R101) -/

/-- GENERATION_ADVANCE: an advance that is due, once in a tick, when it need not be held off (R96, R100, R101). -/
def execGenerationAdvance (fn : Fin 8192) (s : State) : Host.Outcome State Fault Refusal :=
  act s (·.when (s.fn.due.contains fn.val && !s.mustHold fn.val && !s.advancedNow fn.val) (·.advance fn.val))

/-! ### What a plot commit brings (R94, R96, R97, R104, R215, R280, R302, R311) -/

/-- Members of both lists, once. -/
def union (a b : List Nat) : List Nat := a ++ b.filter (fun x => !a.contains x)

/-- The plot an extent entry belongs to, if it is valid. -/
def heldBy (t : Tbl Word) (i : Nat) : Option Nat :=
  if fieldAt t (Fld.extentXtW0Valid i) = 1 then some (fieldAt t (Fld.extentXtW1Plot i)) else none

/-- One binding event for each extent entry whose VALID or PLOT changed (R94); its size is the pool's that holds the entry. -/
def State.bindingEvents (s : State) (old : Tbl Word) : State :=
  let is := union (listed old (Reg.extentXtW0 0) 8 131072) (listed s.regs (Reg.extentXtW0 0) 8 131072)
  is.foldl (fun s i =>
    if heldBy old i ≠ heldBy s.regs i ∨ fieldAt old (Fld.extentXtW1Plot i) ≠ fieldAt s.regs (Fld.extentXtW1Plot i) then
      let units := xszAt (if (heldBy s.regs i).isSome then s.regs else old) i / 2 ^ 28
      s.meterEvent (.extent i units (heldBy old i) (heldBy s.regs i))
    else s) s

/-- A plot is LIVE in a table. -/
def liveF (t : Tbl Word) (p : Nat) : Bool := decide (fieldAt t (Fld.plotPlotW0Live p) = 1)

/-- Plots that a table lists, with plot 0. -/
def plotsF (t : Tbl Word) : List Nat := union [0] (listed t (Reg.plotPlotW0 0) 0x20 4096)

/-- Plots whose LIVE changed: an event each, a new one's level at DEPTH, a freed one's key slot in ERASING (R280, R311, R321). -/
def State.plotEvents (s : State) (old : Tbl Word) : State :=
  (union (plotsF old) (plotsF s.regs)).foldl (fun s p =>
    if liveF old p = liveF s.regs p then s
    else
      let s := s.meterEvent (.plot p (liveF s.regs p))
      if liveF s.regs p then s.fillLevel (s.plotBucket p)
      else if p = 0 then s
      else s.setKslot p { s.kslot p with state := 3, tick := s.tick }) s

/-- The LIVE plot whose range holds a service context. -/
def scOwner (t : Tbl Word) (k : Nat) : Option Nat :=
  (plotsF t).find? (fun p => liveF t p && decide (fieldAt t (Fld.plotPlotW1ScBase p) ≤ k ∧
    k < fieldAt t (Fld.plotPlotW1ScBase p) + fieldAt t (Fld.plotPlotW1ScCnt p)))

/-- Service contexts that came into the range of another plot have their levels at DEPTH (R280). -/
def State.scMoves (s : State) (old : Tbl Word) : State :=
  (listed s.regs (Reg.schedScW0 0) 8 16384).foldl (fun s k =>
    match scOwner s.regs k with
    | none => s
    | some p => if scOwner old k = some p then s else s.fillLevel (s.scBucket k)) s

/-- Functions that either table lists. -/
def fnsOf (old new : Tbl Word) : List Nat :=
  union (listed old (Reg.plotFnW0 0) 0x10 4096) (listed new (Reg.plotFnW0 0) 0x10 4096)

/-- A function is assigned in a table. -/
def assignedF (t : Tbl Word) (f : Nat) : Bool := decide (fieldAt t (Fld.plotFnW0Assign f) = 1)

/-- A commit unassigned a function or changed its PLOT (R96, R104). -/
def fnMoved (old new : Tbl Word) (f : Nat) : Bool :=
  (assignedF old f && !assignedF new f) || decide (fieldAt old (Fld.plotFnW0Plot f) ≠ fieldAt new (Fld.plotFnW0Plot f))

/-- A listed extent entry changed in a way that a locked TDI does not bear (R302). -/
def extentBreaks (old new : Tbl Word) (i : Nat) : Bool :=
  let same (f : Nat → Fd) : Bool := decide (fieldAt old (f i) = fieldAt new (f i))
  let alt := fieldAt old (Fld.extentXtW1Alt i)
  let placed := same Fld.extentXtW0Pxb && same Fld.extentXtW0Pool
  let moved := decide (fieldAt old (Fld.extentXtW1State i) = 1) &&
    decide (fieldAt new (Fld.extentXtW0Pxb i) = fieldAt old (Fld.extentXtW0Pxb alt) ∧
      fieldAt new (Fld.extentXtW0Pool i) = fieldAt old (Fld.extentXtW0Pool alt))
  decide (fieldAt old (Fld.extentXtW0Valid i) = 1 ∧ fieldAt new (Fld.extentXtW0Valid i) = 0) ||
  !same Fld.extentXtW1Plot || !same Fld.extentXtW0Coh || !(placed || moved) ||
  (decide (fieldAt new (Fld.extentXtW1State i) = 2) && !same Fld.extentXtW1State)

/-- A plot commit breaks a locked TDI (R302): its function entry changed in PLOT, PROG, ASSIGN, XSZ or XT_BASE, its list grew
shorter or took an entry that is not valid or another plot's, or a listed entry changed. -/
def tdiBreaks (old new : Tbl Word) (f : Nat) : Bool :=
  let same (g : Nat → Fd) : Bool := decide (fieldAt old (g f) = fieldAt new (g f))
  let b := fieldAt old (Fld.plotFnW2XtBase f)
  let n := fieldAt old (Fld.plotFnW3XtCnt f)
  let m := fieldAt new (Fld.plotFnW3XtCnt f)
  let is := union (listed old (Reg.extentXtW0 0) 8 131072) (listed new (Reg.extentXtW0 0) 8 131072)
  !(same Fld.plotFnW0Plot && same Fld.plotFnW0Prog && same Fld.plotFnW0Assign && same Fld.plotFnW0Xsz && same Fld.plotFnW2XtBase) ||
  decide (m < n) || is.any (fun i => decide (b ≤ i ∧ i < b + n) && extentBreaks old new i) ||
  !((List.range (m - n)).all (fun k => decide (heldBy new (b + n + k) = some (fieldAt new (Fld.plotFnW0Plot f)))))

/-- Functions whose TDI is in CONFIG_LOCKED or RUN. -/
def State.lockedTdis (s : State) : List Nat :=
  (listed s.regs (Reg.securityTdiStat 0) 4 4096).filter (fun f => decide (s.tdi f = 1 ∨ s.tdi f = 2))

/-- Locked TDIs that a plot commit breaks go to ERROR (R302). -/
def State.tdiCommit (s : State) (old : Tbl Word) : State :=
  s.lockedTdis.foldl (fun s f => if tdiBreaks old s.regs f then s.setTdi f 3 else s) s

/-- Locked TDIs of the functions that run program `p`, in engine `n` where one is named, go to ERROR (R302). -/
def State.tdiProg (s : State) (p : Nat) (n : Option Nat) : State :=
  s.lockedTdis.foldl (fun s f =>
    let hit := match n with
      | some n => (s.enginesOf (f / 128)).contains n
      | none => true
    if hit && decide (s.getF (Fld.plotFnW0Prog f) = p) then s.setTdi f 3 else s) s

/-- An unassigned function's decoder is cleared (R97). -/
def State.clearDecoder (s : State) (f : Nat) : State :=
  let s := s.setDecoder f {}
  { s with commits := s.commits.filter (fun x => x.1 ≠ .decoder f) }

/-- The coherent function of a port is lost when it is unassigned or changes plot (R215). -/
def State.cfnCommit (s : State) (old : Tbl Word) : State :=
  (List.range 64).foldl (fun s l =>
    let f := s.getF (Fld.homeCfnFid l)
    if s.getF (Fld.homeCfnValid l) = 1 ∧ assignedF old f = true ∧ fnMoved old s.regs f then s.cfnLoss l else s) s

/-- Functions unassigned or moved to another plot, and VCS entries moved, are reset (R96, R97, R103, R104). -/
def State.fnCommit (s : State) (old : Tbl Word) : State :=
  let s := (fnsOf old s.regs).foldl (fun s f =>
    let s := if fnMoved old s.regs f then s.resetEvent f else s
    (if assignedF old f && !assignedF s.regs f then s.clearDecoder f else s).refreshFn f) s
  s.upstreams.foldl (fun s l =>
    if fieldAt old (Fld.plotVcsW0Plot l) ≠ s.getF (Fld.plotVcsW0Plot l) then s.resetEvent (0x1000 + l) else s) s

/-- Presence and link of what a vPPB is bound to in a table. -/
def State.boundShows (s : State) (t : Tbl Word) (vcs d : Nat) : Bool × Bool :=
  match bindingOf t vcs d with
  | some b => (decide (s.getF (Fld.portLpStatPresent b.1) = 1), s.dllUp b.1)
  | none => (false, false)

/-- A vPPB whose binding changed shows its host a hot add or a surprise removal (R42, R47). -/
def State.vppbChange (s : State) (old : Tbl Word) (vcs d : Nat) : State :=
  if bindingOf old vcs d = bindingOf s.regs vcs d then s
  else
    let a := s.boundShows old vcs d
    let b := s.boundShows s.regs vcs d
    let set := (if a.1 || b.1 then 2 ^ 19 else 0) + (if a.2 || b.2 then 2 ^ 24 else 0)
    let s := s.setCfgWord (vppbObj vcs d) slotReg (s.cfgWord (vppbObj vcs d) slotReg ||| BitVec.ofNat 32 set)
    s.emit (.vppb vcs d (bindingOf s.regs vcs d).isSome)

/-- Every vPPB whose entry either table lists. -/
def State.vppbCommit (s : State) (old : Tbl Word) : State :=
  (union (listed old (Reg.plotVppb 0 0) 4 2048) (listed s.regs (Reg.plotVppb 0 0) 4 2048)).foldl (fun s k =>
    if k % 32 < 30 then s.vppbChange old (k / 32) (k % 32 + 2) else s) s

/-- A plot commit is in force: its tables are copied, and everything that follows from the change happens in this tick. -/
def State.plotSwitch (s : State) : State :=
  let old := s.regs
  let s := (s.copyTables plotTables).setF Fld.plotCommitStatPending 0
  let s := (((s.tdiCommit old).cfnCommit old).bindingEvents old).plotEvents old
  (((s.scMoves old).fnCommit old).vppbCommit old).jobDone

/-! ### The switch-over (R18, R19, R86, R87) -/

/-- A decoder's commit is in force: it matches under the values written, or nothing; what it held follows in the next tick (R86,
R87); a coherent function whose Commit is cleared is lost (R215). -/
def State.decoderSwitch (s : State) (f : Nat) : State :=
  let d := s.decoder f
  match d.pend with
  | none => s
  | some set =>
    let lost := !set && d.commit && decide (s.getF (Fld.homeCfnValid (f / 64)) = 1 ∧ s.getF (Fld.homeCfnFid (f / 64)) = f)
    let s := s.setDecoder f { d with force := d.vals, commit := set, pend := none, pos := none, heldDue := !d.held.isEmpty }
    if lost then s.cfnLoss (f / 64) else s

/-- One commit is in force. -/
def State.switchOne (s : State) (k : CommitKind) : State :=
  match k with
  | .plot => s.plotSwitch
  | .hedge => s.hedgeSwitch
  | .buffer => s.bufferSwitch
  | .sched => s.schedSwitch
  | .prog n p => (s.progSwitch n p).tdiProg p (some n)
  | .ht p => (s.htSwitch p).tdiProg p none
  | .decoder f => s.decoderSwitch f

/-- An epoch of table copies is still in use by a message or a tracker entry (R21). -/
def State.epochUsed (s : State) (e : Nat) : Bool :=
  s.dp.msgs.any (fun m => decide (m.cls.epoch = e)) || s.dp.trackers.any (fun t => decide (t.cls.epoch = e)) ||
  s.xb.harrow.any (fun h => h.2.moves.any (fun v => decide (v.cls.epoch = e)))

/-- The copies that are to be replaced are kept for the messages fixed on them, and messages classified from now on have a new epoch
(R21). -/
def State.newEpoch (s : State) : State :=
  let e := s.dp.epoch
  let l := s.dp.snaps ++ [⟨e, s.regs, s.eng.hashF, s.fn.decoders⟩]
  { s with dp := { s.dp with snaps := l.filter (fun x => s.epochUsed x.epoch), epoch := e + 1 } }

/-- Start-up step 6 completes once its commits, all of one furlong, are in force (R361, R424). -/
def State.step6Check (s : State) : State :=
  if s.getF Fld.cprStartStep = 6 ∧ s.getF Fld.cprStartHalt = 0 ∧ s.commits = [] ∧ (s.cfg.load = .idle ∨ s.cfg.load = .done) then
    (s.stepDone 6).enterStep7
  else s

/-- Commits that fall due by this furlong; a plot commit comes last, since its levels are those of the shapers then in force
(R280). -/
def State.dueCommits (s : State) : List CommitKind :=
  let l := (s.commits.filter (fun x => decide (x.2 ≤ s.furlong))).map (·.1)
  l.filter (fun k => k ≠ .plot) ++ l.filter (fun k => k = .plot)

/-- At phase 0 every commit that falls due is in force, together with the others (R18, R19). -/
def State.switchOver (s : State) : State :=
  if s.phase ≠ 0 then s
  else
    let due := s.dueCommits
    if due = [] then s.step6Check
    else
      let s := s.newEpoch
      let s := { s with commits := s.commits.filter (fun x => !decide (x.2 ≤ s.furlong)) }
      (due.foldl (fun s k => s.switchOne k) s).step6Check

/-- COMMIT_SWITCH_OVER (R18). -/
def execCommitSwitchOver (s : State) : Host.Outcome State Fault Refusal := act s (·.switchOver)

/-! ### The furlong boundary (R15, R17) -/

/-- A port whose rank 2 bytes of the last furlong passed its budget is counted, and every port starts anew (R283). -/
def State.rank2Check (s : State) : State :=
  let s := s.xb.rank2.foldl (fun s e =>
    let b := s.getF (Fld.schedPortW3Rank2Budget e.1)
    if b ≠ 0 ∧ b < e.2 then s.bump (Fld.schedPortLive3Rank2Over e.1) else s) s
  { s with xb := { s.xb with rank2 := [] } }

/-- Phase 0 of a new furlong, once: commits come first (R280), then budgets and levels are renewed, and the meter gets its
heartbeat (R258, R272, R283, R323). -/
def State.furlongStart (s : State) : State :=
  if s.phase ≠ 0 ∨ s.furDone = some s.furlong then s
  else { (s.switchOver.rank2Check.refillAll.harRefill.meterBeat) with furDone := some s.furlong }

/-- FURLONG_BOUNDARY (R15). -/
def execFurlongBoundary (s : State) : Host.Outcome State Fault Refusal := act s (·.furlongStart)

end Sys2Proof.Machine
end

