-- ==== Sys2Proof/Machine/CfgReq.lean ====
section
/-! DEFINITION. Configuration requests (02: R2, R39, R41, R42, R47, R50; 04: R96, R97; 15: R365, R378, R379, R383) and the hot
reset of an upstream vPPB (R96, R235, R382). The manual names what the registers report and do; the places of the fields are those
of PCI Express, with the capability structures where log 20 puts them, and every other bit is free. -/

namespace Sys2Proof.Machine

/-! ### Targets (R41) -/

/-- Kind of a target: 0 upstream vPPB, 1 a vPPB of the internal bus, 2 PF0, 3 a VF, 4 the steward endpoint. -/
def cfgKind : CfgTarget → Nat
  | .upVppb => 0
  | .vppb _ => 1
  | .fn f => if f.val = 0 then 2 else 3
  | .steward => 4

/-- The configuration object of a target of port `lp`. -/
def State.cfgObj (s : State) (lp : Nat) : CfgTarget → Nat
  | .upVppb => upObj lp
  | .vppb d => vppbObj lp d.val
  | .fn f => 64 * lp + f.val
  | .steward => epObj ((s.instOf lp).getD 0)

/-- The port that a downstream vPPB is bound to in force. -/
def State.boundPort (s : State) (lp : Nat) : CfgTarget → Option Nat
  | .vppb d => (bindingOf s.regs lp d.val).map (·.1)
  | _ => none

/-- Where a target's AER flags are kept: its own, and its port's. -/
def State.aerObjs (s : State) (lp : Nat) (t : CfgTarget) : List Nat :=
  match t with
  | .upVppb => [aerPort lp]
  | .vppb _ => s.cfgObj lp t :: ((s.boundPort lp t).map aerPort).toList
  | _ => [s.cfgObj lp t]

/-- A target answers (R41, R97): device 1 and the endpoint only where STEWARD_EP is 1, functions only while assigned and
enabled. -/
def State.cfgAnswers (s : State) (lp : Nat) : CfgTarget → Bool
  | .upVppb => true
  | .vppb d => decide (d.val ≠ 1) || (s.instOf lp).isSome
  | .fn f => s.assigned (64 * lp + f.val) && s.enabled (64 * lp + f.val)
  | .steward => (s.instOf lp).isSome

/-! ### What a register reads as -/

/-- Fields of a register that the manual fixes: (lowest bit, width, value). -/
abbrev CfgBits := List (Nat × Nat × Nat)

/-- Uncorrectable error flags of a target (R39, R40, R87, R379). -/
def State.aerWord (s : State) (lp : Nat) (t : CfgTarget) : Nat :=
  (s.aerObjs lp t).foldl (fun a o => a ||| Tbl.get (fun _ => 0) s.fn.aer o) 0

/-- Vendor and device numbers (R2). -/
def cfgIds (t : CfgTarget) : Nat :=
  0x1E9C + 65536 * (([0x3288, 0x3288, 0x328A, 0x328B, 0x3289][cfgKind t]?).getD 0)

/-- Registers that every target has: payload and read request sizes, AER masks, header log and TLP prefix log (R39). Device Control is
kept with its PCIe default of 512-byte read requests as 0. -/
def State.commonBits (s : State) (lp : Nat) (t : CfgTarget) (reg : Nat) (w : Word) : CfgBits :=
  let log (k : Nat) : List Byte := Config.standardBody k
    (((s.aerObjs lp t).map (fun o => Tbl.get (fun _ => []) s.fn.aerLog o)).find? (fun l => !l.isEmpty) |>.getD [])
  if reg = 17 then [(0, 3, 2)]
  else if reg = 18 then [(5, 3, fieldGet w 5 3), (12, 3, fieldGet (w ^^^ 0x2000#32) 12 3)]
  else if reg = 66 ∨ reg = 67 ∨ reg = 69 then [(0, 32, w.toNat)]
  else if 71 ≤ reg ∧ reg ≤ 74 then [(0, 32, leNat (bytesAt (log 12) (4 * (reg - 71)) 4))]
  else if 78 ≤ reg ∧ reg ≤ 81 ∧ t ≠ .steward then [(0, 32, leNat (bytesAt (log 13) (4 * (reg - 78)) 4))]
  else []

/-- Words of the DOE mailbox of an object (R39). -/
def State.doe (s : State) (obj : Nat) : Doe := Tbl.get (fun _ => {}) s.fn.doe obj

/-- The DOE mailbox of an object set. -/
def State.setDoe (s : State) (obj : Nat) (d : Doe) : State :=
  { s with fn := { s.fn with doe := Tbl.set (fun _ => {}) s.fn.doe obj d } }

/-- Registers of the DOE of the steward endpoint and of PF0 (R39): status and the read mailbox. -/
def State.doeBits (s : State) (obj reg : Nat) : CfgBits :=
  let d := s.doe obj
  if reg = 112 then [(0, 16, 0x2E)]
  else if reg = 114 then [(0, 1, 0), (31, 1, 0)]
  else if reg = 115 then [(0, 1, 0), (2, 1, 0), (31, 1, bit (!d.rsp.isEmpty))]
  else if reg = 117 then [(0, 32, ((d.rsp.head?).getD 0).toNat)]
  else []

/-- A write of the DOE's registers: a word joins the request; Go makes the response, whose bytes are those of the standards: discovery, and
the CDAT with the function's regions (R89; log 10); Abort drops both; a write of the read mailbox takes the next word. SPDM messages
have commands of their own. -/
def State.doeWrite (s : State) (obj reg : Nat) (v : Word) : State :=
  let d := s.doe obj
  if reg = 116 then s.setDoe obj { d with req := d.req ++ [v] }
  else if reg = 117 then s.setDoe obj { d with rsp := d.rsp.drop 1 }
  else if reg = 114 ∧ fieldGet v 0 1 = 1 then s.setDoe obj {}
  else if reg = 114 ∧ fieldGet v 31 1 = 1 then
    let regions := (List.range 8).flatMap (fun k =>
      let r := Tbl.get (fun _ => ((0, 0) : Nat × Nat)) s.fn.regions (8 * obj + k)
      [r.1, r.2])
    let body := Config.standardBody 14 (obj :: regions ++ d.req.map (·.toNat))
    s.setDoe obj { rsp := (List.range ((body.length + 3) / 4)).map (fun k => BitVec.ofNat 32 (leNat (bytesAt body (4 * k) 4))) }
  else s

/-- Registers of a vPPB that can be bound: link control and status, hot plug, slot control and status, DPC, ACS (R39, R42,
R47). -/
def State.slotBits (s : State) (lp : Nat) (t : CfgTarget) (reg : Nat) (w : Word) : CfgBits :=
  let up := (s.boundPort lp t).any s.dllUp
  let here := (s.boundPort lp t).any (fun p => decide (s.getF (Fld.portLpStatPresent p) = 1))
  let held := (s.boundPort lp t).any (fun p => decide (s.getF (Fld.portLpStatDpc p) = 1))
  let link (f : Nat → Fd) : Nat := ((s.boundPort lp t).map (fun p => s.getF (f p))).getD 0
  if reg = 20 then [(4, 1, fieldGet w 4 1), (5, 1, 0), (16, 4, link Fld.portLpStatSpeed), (20, 6, link Fld.portLpStatWidth), (29, 1, bit up)]
  else if reg = 15 then [(22, 1, fieldGet w 22 1)]
  else if reg = 129 then [(16, 6, fieldGet w 16 6), (22, 1, 0)]
  else if reg = 136 then [(0, 16, 0x0D)]
  else if reg = 137 then [(0, 16, 0x1F), (16, 16, fieldGet w 16 5)]
  else if reg = 21 then [(0, 7, 0x60), (17, 1, 0)]
  else if reg = slotReg then [(0, 16, fieldGet w 0 16), (19, 1, fieldGet w 19 1), (22, 1, bit here), (24, 1, fieldGet w 24 1)]
  else if reg = 130 then [(0, 1, bit held)]
  else []

/-- Registers of PF0 (R39, R96): VF Enable, TotalVFs and NumVFs, ARI, DOE. -/
def State.pfBits (s : State) (lp reg : Nat) : CfgBits :=
  if reg = 90 then [(0, 1, bit (s.vf lp).1)]
  else if reg = 91 then [(16, 16, 63)]
  else if reg = 92 then [(0, 16, (s.vf lp).2)]
  else if reg = 96 then [(0, 16, 0x0E)]
  else s.doeBits (64 * lp) reg

/-- Registers of an endpoint instance (R365, R366, R378, R379, R383). -/
def State.epBits (s : State) (i reg : Nat) (w : Word) : CfgBits :=
  let e := s.ep i
  let some' := (List.range 22).any (fun k => s.srcEnabled i k && s.srcPending i k)
  if reg = 1 then [(1, 1, fieldGet w 1 1), (2, 1, s.getF (Fld.stewardEpCfgBme i)), (10, 1, bit e.intDis), (19, 1, bit some')]
  else if reg = 2 then [(0, 8, 0xA1), (8, 24, 0x088000)]
  else if reg = 4 then [(0, 25, 4), (25, 7, fieldGet w 25 7)]
  else if reg = 6 then [(0, 16, 4), (16, 16, fieldGet w 16 16)]
  else if reg = 5 ∨ reg = 7 then [(0, 32, w.toNat)]
  else if reg = 11 then [(0, 16, 0x1E9C), (16, 16, 0x3289)]
  else if reg = 12 then [(0, 1, fieldGet w 0 1), (1, 15, 0), (16, 16, fieldGet w 16 16)]
  else if reg = 26 then [(0, 4, fieldGet w 0 4), (4, 1, 0)]
  else if reg = 33 then [(0, 2, s.getF (Fld.stewardEpCfgDstate i)), (3, 1, 1), (8, 1, bit e.pmeEn), (15, 1, bit e.pmeStat)]
  else if reg = 36 then [(16, 1, fieldGet w 16 1), (17, 3, 5), (20, 3, fieldGet w 20 3), (23, 1, 1), (24, 1, 1)]
  else if reg = 40 then [(0, 32, w.toNat)]
  else if reg = 41 then [(0, 32, ((List.range 32).map (fun k => bit (Tbl.get (fun _ => false) e.mpend k) * 2 ^ k)).sum)]
  else if reg = 44 then [(16, 11, 63), (30, 2, fieldGet w 30 2)]
  else if reg = 45 then [(0, 32, 0x2002)]
  else if reg = 46 then [(0, 32, 0x3002)]
  else if reg = 81 ∨ reg = 82 then [(0, 32, (s.rd (Reg.globalUid (reg - 79))).toNat)]
  else s.doeBits (epObj i) reg

/-- What a register of a target reads as. -/
def State.cfgValue (s : State) (lp : Nat) (t : CfgTarget) (reg : Nat) : Word :=
  let w := s.cfgWord (s.cfgObj lp t) reg
  let l : CfgBits :=
    if reg = 0 then [(0, 32, cfgIds t)]
    else if reg = 65 then [(0, 32, s.aerWord lp t)]
    else s.commonBits lp t reg w ++ match t with
      | .vppb d =>
        if 2 ≤ d.val then s.slotBits lp t reg w
        else if reg = 25 ∧ d.val = 0 then [(5, 1, 1)] else []
      | .fn f => if f.val = 0 then s.pfBits lp reg else if reg = 96 then [(0, 16, 0x0E)] else []
      | .steward => s.epBits ((s.instOf lp).getD 0) reg w
      | .upVppb => if reg = 25 then [(5, 1, 1)] else []
  l.foldl (fun v x => fieldPut v x.1 x.2.1 x.2.2) (Config.cfgReg (cfgKind t) reg w)

/-! ### What a write does -/

/-- Error flags written 1 clear. -/
def State.aerClear (s : State) (lp : Nat) (t : CfgTarget) (v : Word) : State :=
  (s.aerObjs lp t).foldl (fun s o =>
    let was := Tbl.get (fun _ => 0) s.fn.aer o
    { s with fn := { s.fn with aer := Tbl.set (fun _ => 0) s.fn.aer o (was - (was &&& v.toNat)) } }) s

/-- Slot control takes the written bits; slot status bits written 1 clear (R47). -/
def State.slotWrite (s : State) (obj : Nat) (v : Word) : State :=
  let w := s.cfgWord obj slotReg
  s.setCfgWord obj slotReg (fieldPut ((w &&& ~~~ v) &&& 0xFFFF0000#32) 0 16 (fieldGet v 0 16))

/-- The host of a bound port releases its containment (R39, R50). -/
def State.dpcRelease (s : State) (lp : Nat) (t : CfgTarget) (v : Word) : State :=
  match s.boundPort lp t with
  | some p => if fieldGet v 0 1 = 1 then s.setF (Fld.portLpStatDpc p) 0 else s
  | none => s

/-- The whole port that a downstream vPPB is bound to; an LD of an MLD leaves the link to the others. -/
def State.wholePort (s : State) (lp : Nat) : CfgTarget → Option Nat
  | .vppb d => match bindingOf s.regs lp d.val with
    | some (p, none) => some p
    | _ => none
  | _ => none

/-- A write of link control, bridge control or DPC control of a downstream vPPB (R39, R50): Link Disable, Secondary Bus Reset, Retrain Link
and the software trigger of DPC act on the link, or once it is back in L0. -/
def State.linkCtlWrite (s : State) (lp : Nat) (t : CfgTarget) (reg : Nat) (v : Word) : State :=
  let obj := s.cfgObj lp t
  match s.wholePort lp t with
  | none => s.setCfgWord obj reg (if reg = 129 then fieldPut v 22 1 0 else if reg = 20 then fieldPut v 5 1 0 else v)
  | some p =>
    if reg = 129 then
      let s := s.setCfgWord obj reg (fieldPut v 22 1 0)
      if fieldGet v 22 1 = 1 then (s.modLnk p (fun l => { l with trigDue := true })).vppbWritten p else s
    else if reg = 20 then
      let s := (s.setCfgWord obj reg (fieldPut v 5 1 0)).vppbWritten p
      if fieldGet v 5 1 = 1 then s.enterRecovery p else s
    else (s.setCfgWord obj reg v).vppbWritten p

/-- VF Enable and NumVFs of PF0 (R96): NumVFs takes a value, 63 at most, while VF Enable is 0. -/
def State.vfWrite (s : State) (lp reg : Nat) (v : Word) : State :=
  if reg = 92 then
    if (s.vf lp).1 then s else s.setVf lp (false, min 63 (fieldGet v 0 16))
  else if fieldGet v 0 1 = 1 then (s.setVf lp (true, (s.vf lp).2)).refreshPort lp
  else if (s.vf lp).1 then (s.clearVfs lp).refreshPort lp
  else s

/-- The interrupt mechanism that the MSI-X and MSI capabilities of an instance choose (R378). -/
def State.mechOf (s : State) (i : Nat) : IntMech :=
  let x := s.cfgWord (epObj i) 44
  let m := s.cfgWord (epObj i) 36
  if fieldGet x 31 1 = 1 then .msix
  else if fieldGet m 16 1 = 1 then .msi (Fin.ofNat 6 (min 5 (fieldGet m 20 3)))
  else .intx

/-- The command register of an instance: Bus Master Enable, whose clear takes effect in the next tick, and Interrupt Disable (R378, R381). -/
def State.epCommand (s : State) (i : Nat) (v : Word) : State :=
  let was := s.getF (Fld.stewardEpCfgBme i)
  let s := (s.setEp i { s.ep i with intDis := decide (fieldGet v 10 1 = 1) }).intaUpdate i
  let s := if (s.ep i).mech = .intx then s.signalAll i else s
  if fieldGet v 2 1 = 0 then s.setEp i { s.ep i with bmeDue := decide (was = 1) }
  else if (s.ep i).bmeDue then ((s.epDue i).setF (Fld.stewardEpCfgBme i) 1).epResume i
  else if was = 0 then (s.setF (Fld.stewardEpCfgBme i) 1).epResume i
  else s

/-- The power management register of an instance (R383, R384). -/
def State.epPower (s : State) (i : Nat) (v : Word) : State :=
  let e := s.ep i
  let s := s.setEp i { e with pmeEn := decide (fieldGet v 8 1 = 1), pmeStat := e.pmeStat && decide (fieldGet v 15 1 = 0) }
  if fieldGet v 0 2 = 0 then (if s.getF (Fld.stewardEpCfgDstate i) = 0 then s else s.setD i .d0)
  else if fieldGet v 0 2 = 3 then s.setD i .d3hot
  else s

/-- A write of a register of an instance. -/
def State.epCfgWrite (s : State) (i reg : Nat) (v : Word) : State :=
  if reg = 1 then s.epCommand i v
  else if reg = 18 ∧ fieldGet v 15 1 = 1 then s.epResetDue i
  else if reg = 40 then s.msiUnmask i
  else if reg = 33 then s.epPower i v
  else if reg = 36 ∨ reg = 44 then s.setMech i (s.mechOf i)
  else s

/-- A configuration write: the word is kept, and what the register does happens. -/
def State.cfgWrite (s : State) (lp : Nat) (t : CfgTarget) (reg : Nat) (v : Word) : State :=
  let obj := s.cfgObj lp t
  let v := if reg = 18 then v ^^^ 0x2000#32 else v
  if reg = 65 then s.aerClear lp t v
  else match t with
    | .vppb d =>
      if 2 ≤ d.val ∧ reg = slotReg then s.slotWrite obj v
      else if reg = 130 then s.dpcRelease lp t v
      else if 2 ≤ d.val ∧ (reg = 15 ∨ reg = 20 ∨ reg = 129) then s.linkCtlWrite lp t reg v
      else s.setCfgWord obj reg v
    | .fn f =>
      if reg = 18 ∧ fieldGet v 15 1 = 1 then s.flr (64 * lp + f.val)
      else if f.val = 0 ∧ (reg = 90 ∨ reg = 92) then s.vfWrite lp reg v
      else if f.val = 0 ∧ 112 ≤ reg ∧ reg ≤ 117 then s.doeWrite obj reg v
      else s.setCfgWord obj reg v
    | .steward =>
      if 112 ≤ reg ∧ reg ≤ 117 then s.doeWrite obj reg v
      else (s.setCfgWord obj reg v).epCfgWrite ((s.instOf lp).getD 0) reg v
    | .upVppb => s.setCfgWord obj reg v

/-- A configuration request that reaches the VCS of a port whose link is up (R42, R97). -/
def State.cfgRequest (s : State) (lp : Nat) (t : CfgTarget) (reg : Nat) (wr : Option Word) (tag : Nat) : State :=
  if !(s.isRole lp 0 && s.dllUp lp) then s
  else if !s.cfgAnswers lp t then s.emit (.config lp tag .ur 0)
  else match wr with
    | none => s.emit (.config lp tag .sc (s.cfgValue lp t reg))
    | some v => (s.cfgWrite lp t reg v).emit (.config lp tag .sc 0)

/-- CONFIG_REQUEST (R42). -/
def execConfigRequest (lp : Lp) (t : CfgTarget) (reg : Fin 1024) (wr : Option Word) (tag : BitVec 14) (s : State) :
    Host.Outcome State Fault Refusal :=
  act s (·.cfgRequest lp.val t reg.val wr tag.toNat)

/-! ### Hot reset (R96, R103, R235, R382) -/

/-- The upstream vPPB of a port is hot reset: the presented device, the VCS entry and the steward instance are reset, and a dead sweep
starts. The link's own state is that of the commands about the link. -/
def State.hotReset (s : State) (lp : Nat) : State :=
  if !(s.isRole lp 0 && s.dllUp lp) then s
  else
    let s := ((s.resetPort lp).vcsCfgReset lp).sweepStart lp false
    let s := match s.instOf lp with
      | some i => s.epResetDue i
      | none => s
    s.refreshPort lp

/-- VPPB_HOT_RESET (R96). -/
def execVppbHotReset (lp : Lp) (s : State) : Host.Outcome State Fault Refusal := act s (·.hotReset lp.val)

end Sys2Proof.Machine
end

