-- ==== Sys2Proof/Machine/Bar.lean ====
section
/-! DEFINITION. Memory requests to the steward endpoint's BARs and to a presented function's BAR 0 (15: R366 to R369, R372, R378),
and HEDGE_AND_MAP, where they leave the datapath. -/

namespace Sys2Proof.Machine

/-! ### BAR 2 (R366, R372, R378) -/

/-- The MSI-X pending bits of an instance. -/
def State.pba (s : State) (i : Nat) : Nat :=
  (List.range 64).foldl (fun a v => if Tbl.get (fun _ => false) (s.ep i).vpend v then a + 2 ^ v else a) 0

/-- A word of BAR 2: the MSI-X table and the PBA; other offsets are RSV. A doorbell's value is not stated (log 7). -/
def State.bar2Read (s : State) (i off : Nat) : Word × State :=
  if off < 0x80 then (let d := s.draw 32; (d.1, d.2))
  else if 0x2000 ≤ off ∧ off < 0x2400 then
    let v := (off - 0x2000) / 16
    let w := s.cfgWord (msixObj i) ((off - 0x2000) / 4)
    (if off % 16 = 12 then fieldPut w 0 1 (bit (!Tbl.get (fun _ => false) (s.ep i).umask v)) else w, s)
  else if off = 0x3000 ∨ off = 0x3004 then (halfOf (s.pba i) ((off - 0x3000) / 4), s)
  else (0, s)

/-- Words of BAR 2, in order. -/
def State.bar2Reads (s : State) (i : Nat) : List Nat → List Word × State
  | [] => ([], s)
  | o :: l =>
    let x := s.bar2Read i o
    let y := x.2.bar2Reads i l
    (x.1 :: y.1, y.2)

/-- A word written to BAR 2: a doorbell, a word of the MSI-X table with its mask bit, or nothing. -/
def State.bar2Write (s : State) (i off : Nat) (v : Word) : State :=
  if off < 0x80 then (if off % 8 = 0 then s.sqTailDoor i (off / 8) v else s.cqHeadDoor i (off / 8) v)
  else if 0x2000 ≤ off ∧ off < 0x2400 then
    let n := (off - 0x2000) / 16
    let s := s.setCfgWord (msixObj i) ((off - 0x2000) / 4) v
    if off % 16 ≠ 12 then s
    else if fieldGet v 0 1 = 0 then s.unmask i n
    else s.setEp i { s.ep i with umask := Tbl.set (fun _ => false) (s.ep i).umask n false }
  else s

/-- Words of a write, in order. -/
def State.bar2Writes (s : State) (i : Nat) : Nat → List Byte → State
  | off, a :: b :: c :: d :: l =>
    (s.bar2Write i off (BitVec.ofNat 32 (leNat [a, b, c, d]))).bar2Writes i (off + 4) l
  | _, _ => s

/-! ### A request to an instance -/

/-- Which BAR of an instance an address lies in, and where: 0, 2, or 6 for the ROM (R366). -/
def State.barOf (s : State) (i addr : Nat) : Option (Nat × Nat) :=
  let w (k : Nat) := (s.cfgWord (epObj i) k).toNat
  let b0 := w 4 / 2 ^ 25 * 2 ^ 25 + 2 ^ 32 * w 5
  let b2 := w 6 / 2 ^ 16 * 2 ^ 16 + 2 ^ 32 * w 7
  let rom := w 12 / 2 ^ 16 * 2 ^ 16
  if b0 ≤ addr ∧ addr < b0 + 2 ^ 25 then some (0, addr - b0)
  else if b2 ≤ addr ∧ addr < b2 + 2 ^ 16 then some (2, addr - b2)
  else if w 12 % 2 = 1 ∧ rom ≤ addr ∧ addr < rom + 2 ^ 16 then some (6, addr - rom)
  else none

/-- The words that hold bytes [off, off + n). -/
def wordsOver (off n : Nat) : List Nat := (List.range ((off % 4 + n + 3) / 4)).map (fun k => off / 4 * 4 + 4 * k)

/-- A completion with data, or with a status alone: an instance's belongs to no presented function. -/
def State.barReply (s : State) (m : Msg) (data : List Byte) (st : CplStatus) : State :=
  let c := if m.cls.fid < 0x1000 then m.cls else { m.cls with fid := 0x1FFF }
  if data.isEmpty then s.reply c m.req [] false st 0 none else s.replyData c m.req data false 0 none

/-- An unsupported request at an instance. -/
def State.barUr (s : State) (m : Msg) (i : Nat) : State := (s.aerFlag (aerEp i) 20).barReply m [] .ur

/-- A read of an instance's BAR (R367): BAR 0 gives up to 64 bytes inside one 64-byte block, else Completer Abort. -/
def State.barRead (s : State) (m : Msg) (i bar off : Nat) : State :=
  let n := max 1 m.hdr.size
  let cut (ws : List Word) : List Byte := bytesAt (ws.flatMap (fun w => leBytes 4 w.toNat)) (off % 4) n
  if bar = 0 then
    if n ≤ 64 ∧ off / 64 = (off + n - 1) / 64 then
      let x := s.regReads (if i = 0 then .inst0 else .inst1) (wordsOver off n)
      x.2.barReply m (cut x.1) .sc
    else s.barReply m [] .ca
  else if bar = 2 then
    let x := s.bar2Reads i (wordsOver off n)
    x.2.barReply m (cut x.1) .sc
  else s.barReply m ((List.range n).map (fun k => s.romByte (off + k))) .sc

/-- A write to an instance's BAR (R367): BAR 0 takes aligned writes of 4 bytes, and counts any other; the ROM takes none. A
poisoned write is discarded and reported (PCIe; log 20). -/
def State.barPut (s : State) (m : Msg) (i bar off : Nat) : State :=
  if m.hdr.poison then s.aerFlag (aerEp i) 12
  else if bar = 0 then
    if m.hdr.data.length = 4 then s.barWrite i off (BitVec.ofNat 32 (leNat m.hdr.data))
    else s.bump (Fld.stewardEpStatBadacc i)
  else if bar = 2 then (if off % 4 = 0 then s.bar2Writes i off m.hdr.data else s)
  else s

/-- A CXL.io request routed to the steward endpoint of its port (R366 to R368): without an instance, in D3hot, outside the BARs, or of a
kind the endpoint does not take, it is an Unsupported Request. Messages come as MCTP packets. -/
def State.toInstance (s : State) (m : Msg) : State :=
  match s.instOf m.cls.lp with
  | none => s.barReply m [] .ur
  | some i =>
    if m.hdr.op = .ioMsg then s
    else if !s.bar i || !decide (m.hdr.op = .ioMemRd ∨ m.hdr.op = .ioMemWr) then s.barUr m i
    else match s.barOf i m.hdr.addr with
      | none => s.barUr m i
      | some b => if m.hdr.op = .ioMemRd then s.barRead m i b.1 b.2 else s.barPut m i b.1 b.2

/-- Word `k` of a function's HDM decoder registers as its host reads it: base, size, and control with ways, granularity, Commit, Committed and
Error Not Committed (R84, R86, R87; CXL 3.1's places, log 20). -/
def Decoder.word (d : Decoder) (k : Nat) : Nat :=
  if k = 4 then d.vals.base.toNat % 2 ^ 32
  else if k = 5 then d.vals.base.toNat / 2 ^ 32
  else if k = 6 then d.vals.size.toNat % 2 ^ 32
  else if k = 7 then d.vals.size.toNat / 2 ^ 32
  else if k = 8 then
    d.vals.gran.toNat + 2 ^ 4 * d.vals.ways.toNat + 2 ^ 9 * bit (d.pend.getD d.commit) + 2 ^ 10 * bit d.committed + 2 ^ 11 * bit d.enc
  else 0

/-- The bytes that a function's BAR 0 reads as: of the decoder's registers, else what the manual does not state (log 7). -/
def State.bar0Bytes (s : State) (fid addr n : Nat) : List Byte × State :=
  let x := s.freeBytes n
  ((List.range n).map (fun i => match Config.hdmAt (addr + i) with
    | some o => BitVec.ofNat 8 ((s.decoder fid).word (o / 4) / 2 ^ (8 * (o % 4)))
    | none => (x.1[i]?).getD 0), x.2)

/-- A host's write to a function's mailbox: where it answers the oldest event there, that event is gone, and capacity that was asked back
is committed invalid (R89). -/
def State.mailboxWrite (s : State) (fid addr : Nat) (data : List Byte) : State :=
  match s.fn.mailbox.find? (fun e => e.1 = fid) with
  | none => s
  | some e =>
    if !Config.mailboxAnswer addr data then s
    else
      let s := { s with fn := { s.fn with mailbox := s.fn.mailbox.erase e } }
      if e.2.1 = 1 then s.releaseJob fid e.2.2 else s

/-- A CXL.io request to BAR 0 of a presented function, which the steward serves. Decoder writes are DECODER_COMMIT's (R84, R86, R97). -/
def State.toMailbox (s : State) (m : Msg) : State :=
  if m.hdr.op = .ioMsg then s
  else if !(s.assigned m.cls.fid && s.enabled m.cls.fid && decide (m.hdr.op = .ioMemRd ∨ m.hdr.op = .ioMemWr)) then
    s.barReply m [] .ur
  else if m.hdr.op = .ioMemRd then
    let x := s.bar0Bytes m.cls.fid m.hdr.addr (max 1 m.hdr.size)
    x.2.barReply m x.1 .sc
  else if m.hdr.poison then s
  else s.mailboxWrite m.cls.fid m.hdr.addr m.hdr.data

/-! ### HEDGE_AND_MAP -/

/-- A message leaves the engine: steward traffic is served, and leaves the datapath; the rest is checked and mapped (R129). -/
def State.mapStage (s : State) (m : Msg) : State :=
  if m.cls.path = .steward then (if m.cls.fid < 0x1000 then s.toMailbox m else s.toInstance m).delMsg m.id
  else s.hedgeMap m

/-- HEDGE_AND_MAP: tick I + 9 of a message (R129). -/
def execHedgeAndMap (m : Nat) (s : State) : Host.Outcome State Fault Refusal :=
  act s (fun s => match s.msg? m with
    | some x => if x.stage = .map then s.mapStage x else s
    | none => s)

end Sys2Proof.Machine
end

