-- ==== Sys2Proof/Machine/Dispatch.lean ====
section
/-! DEFINITION. One arm for each command: its meaning. -/

namespace Sys2Proof.Machine

def exec (i : Instr) (s : State) : Host.Outcome State Fault Refusal :=
  match i with
  | .tick => Sys2Proof.Machine.execTick s
  | .furlongBoundary => Sys2Proof.Machine.execFurlongBoundary s
  | .commitSwitchOver => Sys2Proof.Machine.execCommitSwitchOver s
  | .plotCommit => Sys2Proof.Machine.execPlotCommit s
  | .plotSeed => Sys2Proof.Machine.execPlotSeed s
  | .plotSeedDone => Sys2Proof.Machine.execPlotSeedDone s
  | .fnReset fid vcs => Sys2Proof.Machine.execFnReset fid vcs s
  | .functionLevelReset fid => Sys2Proof.Machine.execFunctionLevelReset fid s
  | .vfEnableClear lp => Sys2Proof.Machine.execVfEnableClear lp s
  | .vppbHotReset lp => Sys2Proof.Machine.execVppbHotReset lp s
  | .generationAdvance fn => Sys2Proof.Machine.execGenerationAdvance fn s
  | .decoderCommit fid w => Sys2Proof.Machine.execDecoderCommit fid w s
  | .decoderHeldWriteApply fid => Sys2Proof.Machine.execDecoderHeldWriteApply fid s
  | .configRequest lp target reg wr tag => Sys2Proof.Machine.execConfigRequest lp target reg wr tag s
  | .flitReceived lp flit => Sys2Proof.Machine.execFlitReceived lp flit s
  | .ideMacCheck lp ok => Sys2Proof.Machine.execIdeMacCheck lp ok s
  | .classify m => Sys2Proof.Machine.execClassify m s
  | .engineEntry m => Sys2Proof.Machine.execEngineEntry m s
  | .nop m => Sys2Proof.Machine.execNop m s
  | .endExec m p => Sys2Proof.Machine.execEndExec m p s
  | .skip m p n => Sys2Proof.Machine.execSkip m p n s
  | .next m p b => Sys2Proof.Machine.execNext m p b s
  | .add m p w d a b => Sys2Proof.Machine.execAdd m p w d a b s
  | .sub m p w d a b => Sys2Proof.Machine.execSub m p w d a b s
  | .andOp m p d a b => Sys2Proof.Machine.execAndOp m p d a b s
  | .orOp m p d a b => Sys2Proof.Machine.execOrOp m p d a b s
  | .xorOp m p d a b => Sys2Proof.Machine.execXorOp m p d a b s
  | .shl m p d a b imm => Sys2Proof.Machine.execShl m p d a b imm s
  | .shr m p d a b imm => Sys2Proof.Machine.execShr m p d a b imm s
  | .ext m p d a imm => Sys2Proof.Machine.execExt m p d a imm s
  | .ins m p d a b imm => Sys2Proof.Machine.execIns m p d a b imm s
  | .mov m p d a => Sys2Proof.Machine.execMov m p d a s
  | .ldi m p d imm => Sys2Proof.Machine.execLdi m p d imm s
  | .addi m p w d a imm => Sys2Proof.Machine.execAddi m p w d a imm s
  | .andi m p d a imm => Sys2Proof.Machine.execAndi m p d a imm s
  | .ceq m p w d a b => Sys2Proof.Machine.execCeq m p w d a b s
  | .cne m p w d a b => Sys2Proof.Machine.execCne m p w d a b s
  | .clt m p w d a b => Sys2Proof.Machine.execClt m p w d a b s
  | .cge m p w d a b => Sys2Proof.Machine.execCge m p w d a b s
  | .crng m p w d a b span => Sys2Proof.Machine.execCrng m p w d a b span s
  | .lxt m p a => Sys2Proof.Machine.execLxt m p a s
  | .lht m p a t => Sys2Proof.Machine.execLht m p a t s
  | .lfn m p sel => Sys2Proof.Machine.execLfn m p sel s
  | .tgt m p a b form => Sys2Proof.Machine.execTgt m p a b form s
  | .twin m p a b form => Sys2Proof.Machine.execTwin m p a b form s
  | .home m p => Sys2Proof.Machine.execHome m p s
  | .key m p k => Sys2Proof.Machine.execKey m p k s
  | .drop m p => Sys2Proof.Machine.execDrop m p s
  | .psn m p => Sys2Proof.Machine.execPsn m p s
  | .trap m p r => Sys2Proof.Machine.execTrap m p r s
  | .mark m p v => Sys2Proof.Machine.execMark m p v s
  | .atom m p place => Sys2Proof.Machine.execAtom m p place s
  | .cnt m p a imm => Sys2Proof.Machine.execCnt m p a imm s
  | .hedgeAndMap m => Sys2Proof.Machine.execHedgeAndMap m s
  | .homeLookup m ecc => Sys2Proof.Machine.execHomeLookup m ecc s
  | .retryReplay m ecc => Sys2Proof.Machine.execRetryReplay m ecc s
  | .retryCreditTaken m => Sys2Proof.Machine.execRetryCreditTaken m s
  | .birsp m => Sys2Proof.Machine.execBirsp m s
  | .snoopsResolve t => Sys2Proof.Machine.execSnoopsResolve t s
  | .snoopTimeout lp bitag => Sys2Proof.Machine.execSnoopTimeout lp bitag s
  | .deadSweepDone pass => Sys2Proof.Machine.execDeadSweepDone pass s
  | .cfnWrite lp v => Sys2Proof.Machine.execCfnWrite lp v s
  | .bidListBuild => Sys2Proof.Machine.execBidListBuild s
  | .arbitrate => Sys2Proof.Machine.execArbitrate s
  | .crossbarTraverse m => Sys2Proof.Machine.execCrossbarTraverse m s
  | .egressPack m => Sys2Proof.Machine.execEgressPack m s
  | .responseStage1 m => Sys2Proof.Machine.execResponseStage1 m s
  | .trackerTimeout id => Sys2Proof.Machine.execTrackerTimeout id s
  | .drainDone => Sys2Proof.Machine.execDrainDone s
  | .drainOverdue => Sys2Proof.Machine.execDrainOverdue s
  | .hedgeCheck => Sys2Proof.Machine.execHedgeCheck s
  | .hedgeCheckDone => Sys2Proof.Machine.execHedgeCheckDone s
  | .hedgeCommit => Sys2Proof.Machine.execHedgeCommit s
  | .hedgeSeed => Sys2Proof.Machine.execHedgeSeed s
  | .hedgeSeedDone => Sys2Proof.Machine.execHedgeSeedDone s
  | .ruleW3Write v => Sys2Proof.Machine.execRuleW3Write v s
  | .ruleIdxWrite v => Sys2Proof.Machine.execRuleIdxWrite v s
  | .noticeClose lp => Sys2Proof.Machine.execNoticeClose lp s
  | .load n p => Sys2Proof.Machine.execLoad n p s
  | .loadDone n => Sys2Proof.Machine.execLoadDone n s
  | .programCommit n p => Sys2Proof.Machine.execProgramCommit n p s
  | .htCommit p => Sys2Proof.Machine.execHtCommit p s
  | .htSeed p => Sys2Proof.Machine.execHtSeed p s
  | .htSeedDone => Sys2Proof.Machine.execHtSeedDone s
  | .htDataHiWrite v => Sys2Proof.Machine.execHtDataHiWrite v s
  | .htIdxWrite v => Sys2Proof.Machine.execHtIdxWrite v s
  | .tdigestDone p => Sys2Proof.Machine.execTdigestDone p s
  | .counterClear n p k => Sys2Proof.Machine.execCounterClear n p k s
  | .bufferCommit => Sys2Proof.Machine.execBufferCommit s
  | .schedCommit => Sys2Proof.Machine.execSchedCommit s
  | .schedSeed => Sys2Proof.Machine.execSchedSeed s
  | .schedSeedDone => Sys2Proof.Machine.execSchedSeedDone s
  | .harrowGo c => Sys2Proof.Machine.execHarrowGo c s
  | .harrowStop c => Sys2Proof.Machine.execHarrowStop c s
  | .harrowMoveIssue => Sys2Proof.Machine.execHarrowMoveIssue s
  | .harrowMoveComplete c line => Sys2Proof.Machine.execHarrowMoveComplete c line s
  | .resSelWrite v => Sys2Proof.Machine.execResSelWrite v s
  | .resClear => Sys2Proof.Machine.execResClear s
  | .cfgModeWrite n v => Sys2Proof.Machine.execCfgModeWrite n v s
  | .lpCtlWrite lp v => Sys2Proof.Machine.execLpCtlWrite lp v s
  | .perstAssert n => Sys2Proof.Machine.execPerstAssert n s
  | .perstDeassert n => Sys2Proof.Machine.execPerstDeassert n s
  | .linkUp lp speed width flitMode => Sys2Proof.Machine.execLinkUp lp speed width flitMode s
  | .flitModeRetry lp => Sys2Proof.Machine.execFlitModeRetry lp s
  | .upstreamRelease => Sys2Proof.Machine.execUpstreamRelease s
  | .presenceChange lp present => Sys2Proof.Machine.execPresenceChange lp present s
  | .dpcTrigger lp => Sys2Proof.Machine.execDpcTrigger lp s
  | .linkDown lp cause => Sys2Proof.Machine.execLinkDown lp cause s
  | .linkDropEnd lp => Sys2Proof.Machine.execLinkDropEnd lp s
  | .suspectClrOne => Sys2Proof.Machine.execSuspectClrOne s
  | .suspectClrAll lp => Sys2Proof.Machine.execSuspectClrAll lp s
  | .tflAck lp seq => Sys2Proof.Machine.execTflAck lp seq s
  | .tflNak lp e => Sys2Proof.Machine.execTflNak lp e s
  | .tflCredit lp cls v => Sys2Proof.Machine.execTflCredit lp cls v s
  | .replayTimeout lp => Sys2Proof.Machine.execReplayTimeout lp s
  | .laneFailing lp lane => Sys2Proof.Machine.execLaneFailing lp lane s
  | .spareCmd lp lane => Sys2Proof.Machine.execSpareCmd lp lane s
  | .spareReq lp lane => Sys2Proof.Machine.execSpareReq lp lane s
  | .spareEqDone lp lane => Sys2Proof.Machine.execSpareEqDone lp lane s
  | .spareAck lp lane => Sys2Proof.Machine.execSpareAck lp lane s
  | .spareCompareDone lp lane pass => Sys2Proof.Machine.execSpareCompareDone lp lane pass s
  | .spareDone lp lane => Sys2Proof.Machine.execSpareDone lp lane s
  | .spareAbort lp lane => Sys2Proof.Machine.execSpareAbort lp lane s
  | .haleusSparingDllp lp => Sys2Proof.Machine.execHaleusSparingDllp lp s
  | .kSetGo lp kset => Sys2Proof.Machine.execKSetGo lp kset s
  | .ideKmKeyProg lp kset => Sys2Proof.Machine.execIdeKmKeyProg lp kset s
  | .addKey => Sys2Proof.Machine.execAddKey s
  | .retireKey => Sys2Proof.Machine.execRetireKey s
  | .lcDeploy => Sys2Proof.Machine.execLcDeploy s
  | .lcReturn => Sys2Proof.Machine.execLcReturn s
  | .zeroisationDone => Sys2Proof.Machine.execZeroisationDone s
  | .debugUnlock => Sys2Proof.Machine.execDebugUnlock s
  | .debugLock => Sys2Proof.Machine.execDebugLock s
  | .debugMasterAccess addr wr => Sys2Proof.Machine.execDebugMasterAccess addr wr s
  | .idcode => Sys2Proof.Machine.execIdcode s
  | .bypass => Sys2Proof.Machine.execBypass s
  | .samplePreload => Sys2Proof.Machine.execSamplePreload s
  | .extest => Sys2Proof.Machine.execExtest s
  | .clamp => Sys2Proof.Machine.execClamp s
  | .highz => Sys2Proof.Machine.execHighz s
  | .getVersion ep => Sys2Proof.Machine.execGetVersion ep s
  | .getCapabilities ep version => Sys2Proof.Machine.execGetCapabilities ep version s
  | .negotiateAlgorithms ep offered => Sys2Proof.Machine.execNegotiateAlgorithms ep offered s
  | .getDigests ep => Sys2Proof.Machine.execGetDigests ep s
  | .getCertificate ep slot => Sys2Proof.Machine.execGetCertificate ep slot s
  | .challenge ep slot => Sys2Proof.Machine.execChallenge ep slot s
  | .getMeasurements ep index signed => Sys2Proof.Machine.execGetMeasurements ep index signed s
  | .keyExchange ep slot => Sys2Proof.Machine.execKeyExchange ep slot s
  | .finish ep sid ok => Sys2Proof.Machine.execFinish ep sid ok s
  | .endSession ep sid => Sys2Proof.Machine.execEndSession ep sid s
  | .heartbeat ep sid => Sys2Proof.Machine.execHeartbeat ep sid s
  | .keyUpdate ep sid => Sys2Proof.Machine.execKeyUpdate ep sid s
  | .getCsr ep slot => Sys2Proof.Machine.execGetCsr ep slot s
  | .setCertificate ep slot chain certifies => Sys2Proof.Machine.execSetCertificate ep slot chain certifies s
  | .chunkSend ep bytes last => Sys2Proof.Machine.execChunkSend ep bytes last s
  | .chunkGet ep n => Sys2Proof.Machine.execChunkGet ep n s
  | .spdmUnsupportedRequest ep code => Sys2Proof.Machine.execSpdmUnsupportedRequest ep code s
  | .keyInject ep sid fid pair => Sys2Proof.Machine.execKeyInject ep sid fid pair s
  | .keySlotRegenerate p => Sys2Proof.Machine.execKeySlotRegenerate p s
  | .getTdispVersion ep sid fid => Sys2Proof.Machine.execGetTdispVersion ep sid fid s
  | .getTdispCapabilities ep sid fid => Sys2Proof.Machine.execGetTdispCapabilities ep sid fid s
  | .lockInterfaceRequest ep sid fid => Sys2Proof.Machine.execLockInterfaceRequest ep sid fid s
  | .getDeviceInterfaceReport ep sid fid => Sys2Proof.Machine.execGetDeviceInterfaceReport ep sid fid s
  | .getDeviceInterfaceState ep sid fid => Sys2Proof.Machine.execGetDeviceInterfaceState ep sid fid s
  | .startInterfaceRequest ep sid fid => Sys2Proof.Machine.execStartInterfaceRequest ep sid fid s
  | .stopInterfaceRequest ep sid fid => Sys2Proof.Machine.execStopInterfaceRequest ep sid fid s
  | .bindingEventApply => Sys2Proof.Machine.execBindingEventApply s
  | .holdingRebuild => Sys2Proof.Machine.execHoldingRebuild s
  | .intervalEnd => Sys2Proof.Machine.execIntervalEnd s
  | .intervalClose => Sys2Proof.Machine.execIntervalClose s
  | .recordStream n => Sys2Proof.Machine.execRecordStream n s
  | .mzOutRdWrite v => Sys2Proof.Machine.execMzOutRdWrite v s
  | .addBkey => Sys2Proof.Machine.execAddBkey s
  | .retireBkey => Sys2Proof.Machine.execRetireBkey s
  | .setScMap => Sys2Proof.Machine.execSetScMap s
  | .setPlotMap => Sys2Proof.Machine.execSetPlotMap s
  | .setInterval => Sys2Proof.Machine.execSetInterval s
  | .setAnchor => Sys2Proof.Machine.execSetAnchor s
  | .readFrom => Sys2Proof.Machine.execReadFrom s
  | .meterSupplyTrip io => Sys2Proof.Machine.execMeterSupplyTrip io s
  | .meterSupplyResume => Sys2Proof.Machine.execMeterSupplyResume s
  | .meterLinkLoss => Sys2Proof.Machine.execMeterLinkLoss s
  | .meterLinkReturn => Sys2Proof.Machine.execMeterLinkReturn s
  | .mrtcStopped => Sys2Proof.Machine.execMrtcStopped s
  | .mramBothCopiesBad => Sys2Proof.Machine.execMramBothCopiesBad s
  | .mz12Ready => Sys2Proof.Machine.execMz12Ready s
  | .mz12NotReady => Sys2Proof.Machine.execMz12NotReady s
  | .check copyB => Sys2Proof.Machine.execCheck copyB s
  | .checkDone => Sys2Proof.Machine.execCheckDone s
  | .flashRead => Sys2Proof.Machine.execFlashRead s
  | .flashProgram => Sys2Proof.Machine.execFlashProgram s
  | .flashErase => Sys2Proof.Machine.execFlashErase s
  | .flashDone => Sys2Proof.Machine.execFlashDone s
  | .sqTailDoorbell inst r idx => Sys2Proof.Machine.execSqTailDoorbell inst r idx s
  | .cqHeadDoorbell inst r idx => Sys2Proof.Machine.execCqHeadDoorbell inst r idx s
  | .ringCfgWrite inst r v => Sys2Proof.Machine.execRingCfgWrite inst r v s
  | .ringNop inst r e => Sys2Proof.Machine.execRingNop inst r e s
  | .fmapi inst r e => Sys2Proof.Machine.execFmapi inst r e s
  | .regWrite inst r e pairs => Sys2Proof.Machine.execRegWrite inst r e pairs s
  | .regRead inst r e addrs => Sys2Proof.Machine.execRegRead inst r e addrs s
  | .progLoad inst r e mask p image => Sys2Proof.Machine.execProgLoad inst r e mask p image s
  | .fwLoad inst r e image => Sys2Proof.Machine.execFwLoad inst r e image s
  | .fwActivate inst r e => Sys2Proof.Machine.execFwActivate inst r e s
  | .mzCmd inst r e cmd => Sys2Proof.Machine.execMzCmd inst r e cmd s
  | .records inst r e => Sys2Proof.Machine.execRecords inst r e s
  | .traps inst r e => Sys2Proof.Machine.execTraps inst r e s
  | .cfgWrite inst r e copy image => Sys2Proof.Machine.execCfgWrite inst r e copy image s
  | .epDmaCompletion inst id ok => Sys2Proof.Machine.execEpDmaCompletion inst id ok s
  | .epCompletionTimeout inst id => Sys2Proof.Machine.execEpCompletionTimeout inst id s
  | .busMasterEnableClear inst => Sys2Proof.Machine.execBusMasterEnableClear inst s
  | .epFunctionReset inst => Sys2Proof.Machine.execEpFunctionReset inst s
  | .dStateChange inst d => Sys2Proof.Machine.execDStateChange inst d s
  | .wakeEvent inst src => Sys2Proof.Machine.execWakeEvent inst src s
  | .pmPmeResend inst => Sys2Proof.Machine.execPmPmeResend inst s
  | .interruptMechanismChange inst mech => Sys2Proof.Machine.execInterruptMechanismChange inst mech s
  | .mctpPacket lp bytes msg => Sys2Proof.Machine.execMctpPacket lp bytes msg s
  | .identify => Sys2Proof.Machine.execIdentify s
  | .backgroundOperationStatus => Sys2Proof.Machine.execBackgroundOperationStatus s
  | .getResponseMessageLimit => Sys2Proof.Machine.execGetResponseMessageLimit s
  | .setResponseMessageLimit log2 => Sys2Proof.Machine.execSetResponseMessageLimit log2 s
  | .getEvents => Sys2Proof.Machine.execGetEvents s
  | .clearEvents n => Sys2Proof.Machine.execClearEvents n s
  | .getEventInterruptPolicy => Sys2Proof.Machine.execGetEventInterruptPolicy s
  | .setEventInterruptPolicy policy => Sys2Proof.Machine.execSetEventInterruptPolicy policy s
  | .identifySwitchDevice => Sys2Proof.Machine.execIdentifySwitchDevice s
  | .getPhysicalPortState lp => Sys2Proof.Machine.execGetPhysicalPortState lp s
  | .physicalPortControl lp op => Sys2Proof.Machine.execPhysicalPortControl lp op s
  | .sendPpbCxlIoConfigRequest lp reg wr => Sys2Proof.Machine.execSendPpbCxlIoConfigRequest lp reg wr s
  | .getVirtualCxlSwitchInfo lp => Sys2Proof.Machine.execGetVirtualCxlSwitchInfo lp s
  | .bindVppb b => Sys2Proof.Machine.execBindVppb b s
  | .unbindVppb vcs d => Sys2Proof.Machine.execUnbindVppb vcs d s
  | .generateAerEvent vcs d err => Sys2Proof.Machine.execGenerateAerEvent vcs d err s
  | .tunnelManagementCommand lp bytes => Sys2Proof.Machine.execTunnelManagementCommand lp bytes s
  | .sendLdCxlIoConfigRequest lp ld reg wr => Sys2Proof.Machine.execSendLdCxlIoConfigRequest lp ld reg wr s
  | .sendLdCxlIoMemoryRequest lp ld addr wr => Sys2Proof.Machine.execSendLdCxlIoMemoryRequest lp ld addr wr s
  | .getLdInfo lp => Sys2Proof.Machine.execGetLdInfo lp s
  | .getLdAllocations lp => Sys2Proof.Machine.execGetLdAllocations lp s
  | .setLdAllocations lp bytes => Sys2Proof.Machine.execSetLdAllocations lp bytes s
  | .dcdGetInfo => Sys2Proof.Machine.execDcdGetInfo s
  | .dcdGetHostRegionConfig fid => Sys2Proof.Machine.execDcdGetHostRegionConfig fid s
  | .dcdSetRegionConfig fid region first count => Sys2Proof.Machine.execDcdSetRegionConfig fid region first count s
  | .dcdGetExtentLists fid => Sys2Proof.Machine.execDcdGetExtentLists fid s
  | .dcdInitiateAdd fid idx w0 w1 => Sys2Proof.Machine.execDcdInitiateAdd fid idx w0 w1 s
  | .dcdInitiateRelease fid idx forced => Sys2Proof.Machine.execDcdInitiateRelease fid idx forced s
  | .switch src => Sys2Proof.Machine.execSwitch src s
  | .ready => Sys2Proof.Machine.execReady s
  | .fwFallback => Sys2Proof.Machine.execFwFallback s
  | .wdogKick => Sys2Proof.Machine.execWdogKick s
  | .watchdogExpiry => Sys2Proof.Machine.execWatchdogExpiry s
  | .safeStateReaction => Sys2Proof.Machine.execSafeStateReaction s
  | .faultNPulseEnd => Sys2Proof.Machine.execFaultNPulseEnd s
  | .fltPinWrite v => Sys2Proof.Machine.execFltPinWrite v s
  | .force v => Sys2Proof.Machine.execForce v s
  | .injGo v => Sys2Proof.Machine.execInjGo v s
  | .ferrClear => Sys2Proof.Machine.execFerrClear s
  | .sevWrite n v => Sys2Proof.Machine.execSevWrite n v s
  | .sheafIdxWrite v => Sys2Proof.Machine.execSheafIdxWrite v s
  | .clockMonitorTrip clk => Sys2Proof.Machine.execClockMonitorTrip clk s
  | .refclkLoss clk => Sys2Proof.Machine.execRefclkLoss clk s
  | .refclkMainReturn => Sys2Proof.Machine.execRefclkMainReturn s
  | .supplyMonitorTrip rail => Sys2Proof.Machine.execSupplyMonitorTrip rail s
  | .sensorSample sensors acked readMv => Sys2Proof.Machine.execSensorSample sensors acked readMv s
  | .pwrgoodLow aonHeld => Sys2Proof.Machine.execPwrgoodLow aonHeld s
  | .sysRstNAssert aonHeld => Sys2Proof.Machine.execSysRstNAssert aonHeld s
  | .deviceResetRelease uidOk => Sys2Proof.Machine.execDeviceResetRelease uidOk s
  | .registerWrite src addr v => Sys2Proof.Machine.execRegisterWrite src addr v s
  | .l0pWidthChange lp width => Sys2Proof.Machine.execL0pWidthChange lp width s
  | .clusterPllRelock c => Sys2Proof.Machine.execClusterPllRelock c s
  | .msixVectorUnmask inst vec => Sys2Proof.Machine.execMsixVectorUnmask inst vec s
  | .dynamicAddressAssignment da => Sys2Proof.Machine.execDynamicAddressAssignment da s
  | .laneMargining lp lane => Sys2Proof.Machine.execLaneMargining lp lane s

end Sys2Proof.Machine
end

