-- ==== Sys2Proof/Safety.lean ====
section
/-! DEFINITION. The terms claims use: a command's completion, what a command leaves unchanged, runs, and safe runs. -/

namespace Sys2Proof.Machine

/-- Command `c` completes in `s`, and `P` holds of the next state. -/
def Completes (c : Instr) (s : State) (P : State → Prop) : Prop := ∃ t, exec c s = .next t ∧ P t

/-- Bit `b` of the register at `a` lies in field `f`. -/
def inField (f : Fd) (a b : Nat) : Prop := f.addr = a ∧ f.lo ≤ b ∧ b < f.lo + f.width

/-- Every register bit outside the fields `fs` reads in `t` as in `s`. -/
def OnlyFields (s t : State) (fs : List Fd) : Prop :=
  ∀ a b, (∀ f ∈ fs, ¬inField f a b) → (t.rd a).getLsbD b = (s.rd a).getLsbD b

/-- In `t` the listed fields read as given, and every other register bit reads as in `s`. -/
def Writes (s t : State) (l : List (Fd × Nat)) : Prop := (∀ x ∈ l, t.getF x.1 = x.2) ∧ OnlyFields s t (l.map (·.1))

/-- Nothing but register fields `fs` differs. -/
def RegsOnly (s t : State) (fs : List Fd) : Prop := t = { s with regs := t.regs } ∧ OnlyFields s t fs

/-- Nothing differs but message `m`, which became `x`: every other message, and everything outside the messages, is as before. -/
def MsgOnly (s t : State) (m : Nat) (x : Msg) : Prop :=
  t = { s with dp := { s.dp with msgs := t.dp.msgs } } ∧ t.msg? m = some x ∧ ∀ k, k ≠ m → t.msg? k = s.msg? k

/-- Nothing differs but the link of port `lp`, which became `x`. -/
def LnkOnly (s t : State) (lp : Nat) (x : Link) : Prop :=
  t = { s with link := { s.link with links := t.link.links } } ∧ t.lnk lp = x ∧ ∀ k, k ≠ lp → t.lnk k = s.lnk k

/-- A sparing item due on port `lp`: in its link fields on a fabric port, in a DLLP of a standard one; its link is otherwise `l`, and
nothing else differs. -/
def SpareItem (s t : State) (lp sub lane : Nat) (l : Link) : Prop :=
  t.lnk lp = { l with spareDue := l.spareDue ++ (if s.role lp = 2 then [(sub, lane)] else []) } ∧
  t.out = (if s.role lp = 2 then s.out else .dllp lp sub lane :: s.out) ∧ (∀ k, k ≠ lp → t.lnk k = s.lnk k) ∧
  t = { s with out := t.out, link := { s.link with links := t.link.links } }

/-- An SPDM endpoint answers, and its answer is kept for CHUNK_GET; nothing else differs. -/
def Says (s t : State) (ep : SpdmEp) (code : Nat) (body : List Byte) : Prop :=
  t = { s with sec := { s.sec with last := Tbl.set (fun _ => []) s.sec.last (epNo ep) body }, out := .spdm ep code body :: s.out }

/-- Nothing differs but the meter and registers, and no register outside its mirror at 0x1F0_0000. -/
def MeterOnly (s t : State) : Prop :=
  t = { s with regs := t.regs, mz := t.mz } ∧ ∀ a, ¬(0x1F00000 ≤ a ∧ a < 0x1F80000) → t.rd a = s.rd a

/-- Message `m` is `x`, in a stage of its program, and the slot it stands at holds the word `w`. -/
def CoAt (s : State) (m : Nat) (x : Msg) (w : CoW) : Prop := s.msg? m = some x ∧ s.running x = true ∧ s.slotWord x = w

/-- Message `m` stands at the slot that holds command `c`'s word, and the word's predicate is 1 (R121). -/
def CoRuns (c : Instr) (s : State) (m : Nat) (x : Msg) : Prop :=
  ∃ w, c.coWord? = some w ∧ CoAt s m x w ∧ w.executes x.ctx = true

/-- Command `c` completes, message `m` goes on to the next slot with its context changed by `f`, and nothing else changes. -/
def CoDoes (c : Instr) (s : State) (m : Nat) (x : Msg) (f : Ctx → Ctx) : Prop :=
  Completes c s (fun t => MsgOnly s t m { x with ctx := { f x.ctx with slot := (f x.ctx).slot + 1 } })

/-- The instance and ring that a ring command's row names. -/
def ringOf : Instr → Option (Nat × Nat)
  | .ringNop k r _ => some (k.val, r.val)
  | .fmapi k r _ => some (k.val, r.val)
  | .regWrite k r _ _ => some (k.val, r.val)
  | .regRead k r _ _ => some (k.val, r.val)
  | .progLoad k r _ _ _ _ => some (k.val, r.val)
  | .fwLoad k r _ _ => some (k.val, r.val)
  | .fwActivate k r _ => some (k.val, r.val)
  | .mzCmd k r _ _ => some (k.val, r.val)
  | .records k r _ => some (k.val, r.val)
  | .traps k r _ => some (k.val, r.val)
  | .cfgWrite k r _ _ _ => some (k.val, r.val)
  | _ => none

/-- No other ring of either instance runs, and the submission queue of ring `r` holds one entry. -/
def AloneOn (s : State) (k r : Nat) : Prop :=
  (∀ a b, a < 2 → b < 16 → (a, b) ≠ (k, r) → s.getF (Fld.stewardRingCfgEn a b) = 0) ∧
  (s.getF (Fld.stewardRingStatSqHead k r) + 1) % s.sqSize k r = s.sqTail k r

/-- RETURN of a ring's command (R373, R375): SQ_HEAD has passed its entry, its output if any and then its completion entry are written,
and the completion queue's tail moves, with PHASE inverted where it wraps. -/
def Returned (s t : State) (k r : Nat) (e : SqEntry) (status result : Nat) (body : List Byte) : Prop :=
  (t.ep k).cmd = none ∧
  t.getF (Fld.stewardRingStatSqHead k r) = (s.getF (Fld.stewardRingStatSqHead k r) + 1) % s.sqSize k r ∧
  t.getF (Fld.stewardRingStatCqTail k r) = (if s.cqSize k r ≤ s.getF (Fld.stewardRingStatCqTail k r) + 1
    then 0 else s.getF (Fld.stewardRingStatCqTail k r) + 1) ∧
  t.getF (Fld.stewardRingStatPhase k r) = (if s.cqSize k r ≤ s.getF (Fld.stewardRingStatCqTail k r) + 1
    then 1 - s.getF (Fld.stewardRingStatPhase k r) else s.getF (Fld.stewardRingStatPhase k r)) ∧
  t.out = .dmaWrite k (s.get64 (Reg.stewardRingCqBaseLo k r) (Reg.stewardRingCqBaseHi k r) / 4096 * 4096 +
      16 * s.getF (Fld.stewardRingStatCqTail k r))
    (leBytes 2 e.cid.toNat ++ leBytes 2 status ++ leBytes 2 ((s.getF (Fld.stewardRingStatSqHead k r) + 1) % s.sqSize k r) ++
      leBytes 2 (s.getF (Fld.stewardRingStatPhase k r)) ++ leBytes 4 result ++ leBytes 4 body.length) ::
    (if body.isEmpty then s.out else .dmaWrite k e.outAddr.toNat body :: s.out)

/-- The rows of the FM API (R388). -/
def isFm : Instr → Bool
  | .identify | .backgroundOperationStatus | .getResponseMessageLimit | .setResponseMessageLimit _ | .getEvents | .clearEvents _
  | .getEventInterruptPolicy | .setEventInterruptPolicy _ | .identifySwitchDevice | .getPhysicalPortState _ | .physicalPortControl _ _
  | .sendPpbCxlIoConfigRequest _ _ _ | .getVirtualCxlSwitchInfo _ | .bindVppb _ | .unbindVppb _ _ | .generateAerEvent _ _ _
  | .tunnelManagementCommand _ _ | .sendLdCxlIoConfigRequest _ _ _ _ | .sendLdCxlIoMemoryRequest _ _ _ _ | .getLdInfo _
  | .getLdAllocations _ | .setLdAllocations _ _ | .dcdGetInfo | .dcdGetHostRegionConfig _ | .dcdSetRegionConfig _ _ _ _
  | .dcdGetExtentLists _ | .dcdInitiateAdd _ _ _ _ | .dcdInitiateRelease _ _ _ => true
  | _ => false

/-- The state after `n` steps; none when a step faults or refuses. -/
def run : Nat → State → Option State
  | 0, s => some s
  | n + 1, s => match step s with
    | .next t => run n t
    | _ => none

/-- A run of `n` steps is safe: no step faults and no step refuses. -/
def SafeRun (n : Nat) (s : State) : Prop := (run n s).isSome

/-- A command after which TICK may restart at 0: the causes of a device reset (R14, R422). -/
def isReset : Instr → Bool
  | .pwrgoodLow _ => true
  | .sysRstNAssert _ => true
  | .deviceResetRelease _ => true
  | _ => false

/-- TICK commands in a queue. -/
def ticksIn (q : List Instr) : Nat := (q.filter (fun c => decide (c = .tick))).length

end Sys2Proof.Machine
end

