-- ==== Sys2Proof/WellFormed.lean ====
section
/-! DEFINITION. Well-formed commands: operands that a sender could present by the manual's formats. The machine gives every command a
meaning, well-formed or not; these checks name what no port, ring or program image can carry. -/

namespace Sys2Proof

open Sys2Proof.Machine

/-- A word that some place of some image accepts: slot 0 of the second of four stages with four blocks each, and every table declared
(R144). -/
def coAccepted (w : CoW) : Bool := decide (coRefusals ⟨4, [4, 4, 4, 4], 15, 1, 0, 0⟩ w = [])

/-- A register address of a ring command: a whole word inside the 32 MB of BAR 0 (R366, R368). -/
def ringAddr (a : Nat) : Bool := decide (a % 4 = 0 ∧ a < 0x2000000)

/-- A link width of the standards (R34, R36). -/
def linkWidth (w : Nat) : Bool := decide (w = 1 ∨ w = 2 ∨ w = 4 ∨ w = 8 ∨ w = 16)

/-- A message's payload is at most 512 bytes, the maximum payload size of chapter 02. -/
def MsgIn.fits (x : MsgIn) : Bool := decide (x.data.length ≤ 512)

/-- The well-formed commands. -/
def WellFormed (c : Instr) : Bool :=
  match c.coWord? with
  | some w => coAccepted w
  | none =>
    match c with
    | .flitReceived _ f => f.msgs.all (·.fits) && decide f.corrected.Nodup
    | .homeLookup _ ecc => decide (ecc.map (·.1)).Nodup
    | .retryReplay _ ecc => decide (ecc.map (·.1)).Nodup
    | .deadSweepDone p => decide (p.ecc.map (fun e => (e.1, e.2.1))).Nodup
    | .linkUp _ speed width _ => decide (1 ≤ speed.val) && linkWidth width.val
    | .l0pWidthChange _ width => linkWidth width.val
    | .regWrite _ _ _ pairs => pairs.all (fun x => ringAddr x.1)
    | .regRead _ _ _ addrs => addrs.all ringAddr
    | .progLoad _ _ _ _ _ image => decide (image.length ≤ 65536)
    | .cfgWrite _ _ _ _ image => decide (image.length ≤ 65536)
    | .sensorSample sensors _ _ => decide (sensors.length = 16)
    | _ => true

end Sys2Proof
end

