-- ==== Sys2Proof/Certificates/Slice0/Obligations.lean ====
section
/-! DEFINITION. The statements about the block: its step and time, its register commands and commits, its datapath, links, security,
meter, rings, FM API and resets. Each statement's docstring names the rules it reads. -/

section
open Sys2Proof Sys2Proof.Machine

/-- One step takes the command at the front of the queue and is that command on the state with the queue's rest. With no command
waiting the block idles: this part is the model's choice (log 1), as the manual's block has no step of its own apart from its commands. -/
def Obligations.StepRunsTheFrontCommand : Prop :=
  (∀ (c : Instr) (q : List Instr) (s : State), s.pending = c :: q → step s = exec c { s with pending := q }) ∧
  (∀ s : State, s.pending = [] → step s = .next s)

/-- R14: a device reset sets TICK to 0, and it is 0 after its release; the command TICK advances it by exactly 1; and no other command, no
register write, function reset, hot reset, link down, D-state change, firmware switch or fatal fault among them, changes it. -/
def Obligations.TickFollowsTimeAndResetAlone : Prop :=
  (∀ s : State, Completes .tick s (fun t => t.tick = s.tick + 1)) ∧
  (∀ (s : State) (held : Bool), Completes (.pwrgoodLow held) s (fun t => t.tick = 0) ∧ Completes (.sysRstNAssert held) s (fun t => t.tick = 0)) ∧
  (∀ (s : State) (ok : Bool), s.inReset = true → Completes (.deviceResetRelease ok) s (fun t => t.tick = 0)) ∧
  (∀ (c : Instr) (s : State), c ≠ .tick → (∀ held, c ≠ .pwrgoodLow held ∧ c ≠ .sysRstNAssert held) →
    (∀ ok, c = .deviceResetRelease ok → s.inReset = false) → Completes c s (fun t => t.tick = s.tick))

/-- A run never stops. Every command completes in every state, with nothing taken from the queue's rest: no command of the block
faults or is refused. After n steps without a device reset in the queue, the first n commands are gone in order, and TICK has advanced
once for each TICK among them. -/
def Obligations.EveryCommandCompletesAndRunsGoOn : Prop :=
  (∀ (c : Instr) (s : State), Completes c s (fun t => t.pending = s.pending)) ∧
  (∀ (n : Nat) (s : State), (∀ c ∈ s.pending, isReset c = false) →
    ∃ t, run n s = some t ∧ t.pending = s.pending.drop n ∧ t.tick = s.tick + ticksIn (s.pending.take n))

/-- The time that the queue can still bring is bounded, and every step keeps the bound: what TICK reads plus the TICKs that wait never
grows, whatever the command, a device reset included. -/
def Obligations.TimeBoundKeptByEveryStep : Prop :=
  ∀ (bound : Nat) (s t : State), s.tick + ticksIn s.pending ≤ bound → step s = .next t →
    t.tick + ticksIn t.pending ≤ bound

/-- The hedge's check (R199). GO with no commit pending and no check running sets BUSY, and changes nothing else; the end of a running
check clears BUSY, records the violation at the lowest rule index in LOAD_STAT, and sets PASS when there is none and nothing the check
read changed meanwhile. -/
def Obligations.HedgeCheckRunsAndRecordsItsResult : Prop :=
  (∀ s : State, s.getF Fld.hedgeCommitStatPending = 0 → s.getF Fld.hedgeCheckBusy = 0 →
    Completes .hedgeCheck s (fun t => t.getF Fld.hedgeCheckBusy = 1 ∧ OnlyFields s t [Fld.hedgeCheckBusy] ∧
      t = { s with regs := t.regs, hedge := { s.hedge with dirty := false } })) ∧
  (∀ s : State, s.getF Fld.hedgeCheckBusy = 1 →
    Completes .hedgeCheckDone s (fun t =>
      t.getF Fld.hedgeCheckBusy = 0 ∧
      (t.getF Fld.hedgeCheckPass = 1 ↔ s.hedgeViol = none ∧ s.hedge.dirty = false) ∧
      (s.hedgeViol = none → t.getF Fld.hedgeLoadStatViol = 0 ∧ t.getF Fld.hedgeLoadStatIndex = 0) ∧
      (∀ code index, s.hedgeViol = some (code, index) → code < 256 → index < 262144 →
        t.getF Fld.hedgeLoadStatViol = code ∧ t.getF Fld.hedgeLoadStatIndex = index) ∧
      RegsOnly s t [Fld.hedgeCheckBusy, Fld.hedgeCheckPass, Fld.hedgeLoadStatViol, Fld.hedgeLoadStatIndex]))

/-- A hedge commit (R18, R200). GO with no commit pending and PASS 1 is accepted: PENDING is set, the tick and the furlong of the
boundary are recorded, and the commit waits for that boundary. At the boundary, with no other commit due, the copies change roles,
EPOCH advances by 1, the drain begins and PASS clears; the rules themselves stay. -/
def Obligations.HedgeCommitSwitchesAtItsBoundary : Prop :=
  (∀ s : State, s.getF Fld.hedgeCommitStatPending = 0 → s.getF Fld.hedgeCheckPass = 1 →
    Completes .hedgeCommit s (fun t =>
      t.getF Fld.hedgeCommitStatPending = 1 ∧
      t.rd Reg.hedgeCommitTickLo = BitVec.ofNat 32 s.tick ∧ t.rd Reg.hedgeCommitTickHi = BitVec.ofNat 32 (s.tick / 2 ^ 32) ∧
      t.rd Reg.hedgeCommitFurlongLo = BitVec.ofNat 32 s.commitFurlong ∧
      t.rd Reg.hedgeCommitFurlongHi = BitVec.ofNat 32 (s.commitFurlong / 2 ^ 32) ∧
      t.commits = s.commits ++ [(.hedge, s.commitFurlong)] ∧
      OnlyFields s t [Fld.hedgeCommitStatPending, Fd.whole Reg.hedgeCommitTickLo, Fd.whole Reg.hedgeCommitTickHi,
        Fd.whole Reg.hedgeCommitFurlongLo, Fd.whole Reg.hedgeCommitFurlongHi] ∧
      t = { s with regs := t.regs, commits := t.commits })) ∧
  (∀ (s : State) (f : Nat), s.phase = 0 → s.commits = [(.hedge, f)] → f ≤ s.furlong → s.getF Fld.cprStartStep ≠ 6 →
    Completes .commitSwitchOver s (fun t =>
      t.getF Fld.hedgeCommitStatInforce = 1 - s.getF Fld.hedgeCommitStatInforce ∧
      t.getF Fld.hedgeCommitStatDraining = 1 ∧ t.getF Fld.hedgeDrainDone = 0 ∧ t.getF Fld.hedgeCheckPass = 0 ∧
      t.rd Reg.hedgeEpoch = s.rd Reg.hedgeEpoch + 1 ∧ t.commits = [] ∧
      t.hedge.rulesA = s.hedge.rulesA ∧ t.hedge.rulesB = s.hedge.rulesB ∧
      OnlyFields s t [Fld.hedgeCommitStatInforce, Fld.hedgeCommitStatDraining, Fld.hedgeDrainDone, Fld.hedgeCheckPass,
        Fd.whole Reg.hedgeEpoch] ∧
      t = { s with regs := t.regs, commits := t.commits, hedge := t.hedge, dp := { s.dp with snaps := t.dp.snaps, epoch := t.dp.epoch } }))

/-- The drain after a hedge commit (R202, R204). When the count of old-epoch items is 0 and stood at 0 at the end of the last tick,
DRAIN.DONE is set, DRAINING and PENDING clear, and DRAIN_TICK takes the tick. When DRAIN_TMO is not 0 and has passed since the
boundary with the drain still under way, OVERDUE is set and source 0x06 is raised, once, with the count and EPOCH. -/
def Obligations.HedgeDrainEndsOrIsOverdue : Prop :=
  (∀ s : State, s.getF Fld.hedgeCommitStatDraining = 1 → s.oldItems = 0 → s.hedge.drained = true →
    Completes .drainDone s (fun t =>
      t.getF Fld.hedgeDrainDone = 1 ∧ t.getF Fld.hedgeCommitStatDraining = 0 ∧ t.getF Fld.hedgeCommitStatPending = 0 ∧
      t.rd Reg.hedgeDrainTickLo = BitVec.ofNat 32 s.tick ∧ t.rd Reg.hedgeDrainTickHi = BitVec.ofNat 32 (s.tick / 2 ^ 32) ∧
      RegsOnly s t [Fld.hedgeDrainDone, Fld.hedgeCommitStatDraining, Fld.hedgeCommitStatPending,
        Fd.whole Reg.hedgeDrainTickLo, Fd.whole Reg.hedgeDrainTickHi])) ∧
  (∀ s : State, s.getF Fld.hedgeCommitStatDraining = 1 → s.getF Fld.hedgeDrainTmoMs ≠ 0 → s.hedge.overdue = false →
    256 * s.get64 Reg.hedgeCommitFurlongLo Reg.hedgeCommitFurlongHi + 250000 * s.getF Fld.hedgeDrainTmoMs ≤ s.tick →
    Completes .drainOverdue s (fun t =>
      t.getF Fld.hedgeDrainOverdue = 1 ∧ OnlyFields s t [Fld.hedgeDrainOverdue] ∧
      t = { s with regs := t.regs, hedge := { s.hedge with overdue := true }, flt := { s.flt with tickEvents := s.flt.tickEvents ++
        [{ src := 0x06, tick := s.tick, d0 := s.oldItems, d1 := (s.rd Reg.hedgeEpoch).toNat }] } }))

/-- The hedge's seed and the rule words (R203, R207). SEED with no commit pending sets BUSY and ends the check's standing; the seed's
end makes the load copy what is in force. A write of RULE_W3 to an unlocked load copy puts the four words at ENTRY, the written value
being the last, and ENTRY rises by 1; a write of RULE_IDX with COPY 1 reads the words of the entry in force. -/
def Obligations.HedgeSeedAndRuleWords : Prop :=
  (∀ s : State, s.getF Fld.hedgeCommitStatPending = 0 →
    Completes .hedgeSeed s (fun t =>
      t.getF Fld.hedgeCopyCtlBusy = 1 ∧ t.getF Fld.hedgeCheckPass = 0 ∧
      OnlyFields s t [Fld.hedgeCopyCtlBusy, Fld.hedgeCheckPass] ∧
      t = { s with regs := t.regs, hedge := { s.hedge with dirty := true } })) ∧
  (∀ s : State, s.getF Fld.hedgeCopyCtlBusy = 1 →
    Completes .hedgeSeedDone s (fun t =>
      t.getF Fld.hedgeCopyCtlBusy = 0 ∧ t.getF Fld.hedgeCheckPass = 0 ∧ t.loadRules = s.forceRules ∧
      t.forceRules = s.forceRules ∧
      OnlyFields s t [Fld.hedgeCopyCtlBusy, Fld.hedgeCheckPass] ∧ t = { s with regs := t.regs, hedge := t.hedge })) ∧
  (∀ (s : State) (v : Word), s.rulesLocked = false → s.getF Fld.hedgeRuleIdxEntry < 262143 →
    Completes (.ruleW3Write v) s (fun t =>
      t.getF Fld.hedgeRuleIdxEntry = s.getF Fld.hedgeRuleIdxEntry + 1 ∧ t.rd (Reg.hedgeRuleW 3) = v ∧
      (∀ n, Tbl.get (fun _ => 0) t.loadRules n =
        if n = 4 * s.getF Fld.hedgeRuleIdxEntry + 3 then v
        else if 4 * s.getF Fld.hedgeRuleIdxEntry ≤ n ∧ n < 4 * s.getF Fld.hedgeRuleIdxEntry + 3 then
          s.rd (Reg.hedgeRuleW (n - 4 * s.getF Fld.hedgeRuleIdxEntry))
        else Tbl.get (fun _ => 0) s.loadRules n) ∧
      t.forceRules = s.forceRules ∧
      OnlyFields s t [Fd.whole (Reg.hedgeRuleW 3), Fld.hedgeRuleIdxEntry, Fld.hedgeCheckPass] ∧
      t = { s with regs := t.regs, hedge := t.hedge })) ∧
  (∀ (s : State) (v : Word),
    Completes (.ruleIdxWrite v) s (fun t =>
      t.getF Fld.hedgeRuleIdxEntry = fieldGet v 0 18 ∧ t.getF Fld.hedgeRuleIdxCopy = fieldGet v 18 1 ∧
      (∀ k, k < 4 → t.rd (Reg.hedgeRuleW k) =
        Tbl.get (fun _ => 0) (if fieldGet v 18 1 = 1 then s.forceRules else s.loadRules) (4 * fieldGet v 0 18 + k)) ∧
      RegsOnly s t [Fld.hedgeRuleIdxEntry, Fld.hedgeRuleIdxCopy, Fd.whole (Reg.hedgeRuleW 0), Fd.whole (Reg.hedgeRuleW 1),
        Fd.whole (Reg.hedgeRuleW 2), Fd.whole (Reg.hedgeRuleW 3)]))

/-- A furlong's phase-0 work, once (R15, R258, R272). At phase 0 of a furlong whose work is not done, with no commit waiting, the work
is noted as done, every harrow channel has its rate as its budget again, and the one listed service context, enabled and below its
DEPTH, is refilled by RATE up to DEPTH, where no fatal fault has stopped switching; nothing else changes while the meter is not ready
(the levels at the start of the tick are kept for reads, R286). At any other phase, or once the work is done,
nothing changes. -/
def Obligations.FurlongBoundaryRenewsBudgetsOnce : Prop :=
  (∀ (s : State) (k : Nat), s.phase = 0 → s.furDone ≠ some s.furlong → s.commits = [] → s.getF Fld.cprStartStep ≠ 6 →
    s.xb.rank2 = [] → s.mz.ready = false → k < 16384 → s.schedListed = ([k], [], []) →
    s.getF Fld.faultStatFatal = 0 → s.getF (Fld.schedScW0En k) = 1 → s.level (Reg.schedScLevel k) < s.getF (Fld.schedScW1Depth k) →
    Completes .furlongBoundary s (fun t => t.furDone = some s.furlong ∧
      t.level (Reg.schedScLevel k) =
        min (s.level (Reg.schedScLevel k) + s.getF (Fld.schedScW0Rate k)) (s.getF (Fld.schedScW1Depth k)) ∧
      (∀ c, t.har c = { s.har c with
        spent := if c < 4 then 0 else (s.har c).spent, budget := if c < 4 then s.harRate c else (s.har c).budget }) ∧
      OnlyFields s t [Fd.whole (Reg.schedScLevel k)] ∧
      t = { s with furDone := t.furDone, regs := t.regs, xb := { s.xb with harrow := t.xb.harrow, levels := t.xb.levels } })) ∧
  (∀ s : State, s.phase ≠ 0 ∨ s.furDone = some s.furlong → exec .furlongBoundary s = .next s)

/-- Commits of the shaper tables and of the buffer limits (R18, R256, R278). With none pending and the load copy in order, GO sets
PENDING, records the tick and the furlong of the boundary, and the commit waits for it; with one pending, GO is refused with cause 1 and
nothing waits. The scheduler's seed (R284): SEED with no commit pending sets BUSY and changes nothing else; its end clears BUSY, and every word
of the three load copies then reads as the word in force does, with every other register as before; the end of a seed during which a commit
was accepted copies nothing, which is the model's choice (log 81). -/
def Obligations.SchedAndBufferCommitsWaitAndSeedCopies : Prop :=
  (∀ s : State, s.getF Fld.schedCommitStatPending = 0 → s.schedViol = none →
    Completes .schedCommit s (fun t =>
      t.getF Fld.schedCommitStatPending = 1 ∧ t.commits = s.commits ++ [(.sched, s.commitFurlong)] ∧
      t.rd Reg.schedCommitTickLo = BitVec.ofNat 32 s.tick ∧ t.rd Reg.schedCommitTickHi = BitVec.ofNat 32 (s.tick / 2 ^ 32) ∧
      t.rd Reg.schedCommitFurlongLo = BitVec.ofNat 32 s.commitFurlong ∧
      t.rd Reg.schedCommitFurlongHi = BitVec.ofNat 32 (s.commitFurlong / 2 ^ 32) ∧
      OnlyFields s t [Fld.schedCommitStatPending, Fd.whole Reg.schedCommitTickLo, Fd.whole Reg.schedCommitTickHi,
        Fd.whole Reg.schedCommitFurlongLo, Fd.whole Reg.schedCommitFurlongHi] ∧
      t = { s with regs := t.regs, commits := t.commits })) ∧
  (∀ s : State, s.getF Fld.bufferCommitStatPending = 0 → s.limitSum ≤ 388096 →
    Completes .bufferCommit s (fun t =>
      t.getF Fld.bufferCommitStatPending = 1 ∧ t.commits = s.commits ++ [(.buffer, s.commitFurlong)] ∧
      t.rd Reg.bufferCommitTickLo = BitVec.ofNat 32 s.tick ∧ t.rd Reg.bufferCommitTickHi = BitVec.ofNat 32 (s.tick / 2 ^ 32) ∧
      t.rd Reg.bufferCommitFurlongLo = BitVec.ofNat 32 s.commitFurlong ∧
      t.rd Reg.bufferCommitFurlongHi = BitVec.ofNat 32 (s.commitFurlong / 2 ^ 32) ∧
      OnlyFields s t [Fld.bufferCommitStatPending, Fd.whole Reg.bufferCommitTickLo, Fd.whole Reg.bufferCommitTickHi,
        Fd.whole Reg.bufferCommitFurlongLo, Fd.whole Reg.bufferCommitFurlongHi] ∧
      t = { s with regs := t.regs, commits := t.commits })) ∧
  (∀ s : State, s.getF Fld.schedCommitStatPending = 1 →
    Completes .schedCommit s (fun t => t.getF Fld.schedCommitStatRefused = 1 ∧ t.getF Fld.schedCommitStatCause = 1 ∧
      RegsOnly s t [Fld.schedCommitStatRefused, Fld.schedCommitStatCause])) ∧
  (∀ s : State, s.getF Fld.bufferCommitStatPending = 1 →
    Completes .bufferCommit s (fun t => t.getF Fld.bufferCommitStatRefused = 1 ∧ t.getF Fld.bufferCommitStatCause = 1 ∧
      RegsOnly s t [Fld.bufferCommitStatRefused, Fld.bufferCommitStatCause])) ∧
  (∀ s : State, s.getF Fld.schedCommitStatPending = 0 →
    Completes .schedSeed s (fun t => t.getF Fld.schedCopyCtlBusy = 1 ∧ RegsOnly s t [Fld.schedCopyCtlBusy])) ∧
  (∀ s : State, s.getF Fld.schedCopyCtlBusy = 1 → s.getF Fld.schedCommitStatPending = 1 →
    Completes .schedSeedDone s (fun t => t.getF Fld.schedCopyCtlBusy = 0 ∧ RegsOnly s t [Fld.schedCopyCtlBusy])) ∧
  (∀ s : State, s.getF Fld.schedCopyCtlBusy = 1 → s.getF Fld.schedCommitStatPending = 0 →
    Completes .schedSeedDone s (fun t => t.getF Fld.schedCopyCtlBusy = 0 ∧
      (∀ k, k < 0x20000 → t.rd (Reg.schedScW0Load 0 + k) = s.rd (Reg.schedScW0 0 + k)) ∧
      (∀ k, k < 0x8000 → t.rd (Reg.schedPlotW0Load 0 + k) = s.rd (Reg.schedPlotW0 0 + k)) ∧
      (∀ k, k < 0x800 → t.rd (Reg.schedPortW0Load 0 + k) = s.rd (Reg.schedPortW0 0 + k)) ∧
      (∀ a, ¬(Reg.schedScW0Load 0 ≤ a ∧ a < Reg.schedScW0Load 0 + 0x20000) →
        ¬(Reg.schedPlotW0Load 0 ≤ a ∧ a < Reg.schedPlotW0Load 0 + 0x8000) →
        ¬(Reg.schedPortW0Load 0 ≤ a ∧ a < Reg.schedPortW0Load 0 + 0x800) → a ≠ Reg.schedCopyCtl → t.rd a = s.rd a) ∧
      t = { s with regs := t.regs }))

/-- PLOT.COMMIT and its seed (R18, R20, R91, R105, R199). GO with none pending, LOAD_STAT clear, no violation written in this tick (log 81)
and none that the commit itself looks for is accepted and waits for its boundary; GO while one is pending, or while LOAD_STAT shows a
violation, is refused and nothing waits. SEED with none pending sets BUSY and ends the hedge check's standing. When the seed ends BUSY clears,
every word of the seven load copies reads as the word in force does, LOAD_STAT follows in the next tick, and the hedge check's standing
ends; the end of a seed during which a commit was accepted copies nothing, which is the model's choice (log 81). -/
def Obligations.PlotCommitIsAcceptedAndSeedCopies : Prop :=
  (∀ s : State, s.getF Fld.plotCommitStatPending = 0 → s.getF Fld.plotLoadStatViol = 0 →
    s.fn.loadDue = false ∨ s.violations = [] → s.commitViolations = [] →
    Completes .plotCommit s (fun t =>
      t.getF Fld.plotCommitStatPending = 1 ∧ t.commits = s.commits ++ [(.plot, s.commitFurlong)] ∧
      t.rd Reg.plotCommitTickLo = BitVec.ofNat 32 s.tick ∧ t.rd Reg.plotCommitTickHi = BitVec.ofNat 32 (s.tick / 2 ^ 32) ∧
      t.rd Reg.plotCommitFurlongLo = BitVec.ofNat 32 s.commitFurlong ∧
      t.rd Reg.plotCommitFurlongHi = BitVec.ofNat 32 (s.commitFurlong / 2 ^ 32) ∧
      OnlyFields s t [Fld.plotCommitStatPending, Fd.whole Reg.plotCommitTickLo, Fd.whole Reg.plotCommitTickHi,
        Fd.whole Reg.plotCommitFurlongLo, Fd.whole Reg.plotCommitFurlongHi] ∧
      t = { s with regs := t.regs, commits := t.commits })) ∧
  (∀ s : State, s.getF Fld.plotCommitStatPending = 1 ∨ s.getF Fld.plotLoadStatViol ≠ 0 →
    Completes .plotCommit s (fun t => t.getF Fld.plotCommitStatRefused = 1 ∧ RegsOnly s t [Fld.plotCommitStatRefused])) ∧
  (∀ s : State, s.getF Fld.plotCommitStatPending = 0 →
    Completes .plotSeed s (fun t => t.getF Fld.plotCopyCtlBusy = 1 ∧ t.getF Fld.hedgeCheckPass = 0 ∧
      OnlyFields s t [Fld.plotCopyCtlBusy, Fld.hedgeCheckPass] ∧
      t = { s with regs := t.regs, hedge := { s.hedge with dirty := true } })) ∧
  (∀ s : State, s.getF Fld.plotCopyCtlBusy = 1 → s.getF Fld.plotCommitStatPending = 1 →
    Completes .plotSeedDone s (fun t => t.getF Fld.plotCopyCtlBusy = 0 ∧ RegsOnly s t [Fld.plotCopyCtlBusy])) ∧
  (∀ s : State, s.getF Fld.plotCopyCtlBusy = 1 → s.getF Fld.plotCommitStatPending = 0 →
    Completes .plotSeedDone s (fun t => t.getF Fld.plotCopyCtlBusy = 0 ∧ t.getF Fld.hedgeCheckPass = 0 ∧
      (∀ x ∈ plotTables, ∀ k, k < x.2.2 → t.rd (x.1 + k) = s.rd (x.2.1 + k)) ∧
      (∀ a, (∀ x ∈ plotTables, ¬(x.1 ≤ a ∧ a < x.1 + x.2.2)) → a ≠ Reg.plotCopyCtl → a ≠ Reg.hedgeCheck → t.rd a = s.rd a) ∧
      t = { s with regs := t.regs, fn := { s.fn with loadDue := true }, hedge := { s.hedge with dirty := true } }))

/-- Resets of functions and the advance they bring (R96, R100, R101, R103). A reset event of a function or of a VCS entry, by FN_RESET
or by a host's FLR of a VF, makes one advance due, HELD and HOLDOFF being touched only when the next generation is in use; while one is due
already, nothing changes. GENERATION_ADVANCE takes a due advance that need not be held off: GEN rises by 1 modulo 65,536, HELD clears,
OLDCNT counts the function's tracker entries of other generations and STATE follows it, and the advance is no longer due. -/
def Obligations.FunctionResetsAdvanceTheGeneration : Prop :=
  (∀ (s : State) (fid : Fid) (vcs : Bool) (fn : Nat), fn = (if vcs then 0x1000 + fid.val % 64 else fid.val) →
    s.fn.due.contains fn = false → s.advancedNow fn = false →
    Completes (.fnReset fid vcs) s (fun t => t.fn = { s.fn with due := s.fn.due ++ [fn] } ∧
      (s.mustHold fn = false → t.regs = s.regs) ∧
      (s.mustHold fn = true → t.getF (liveFd fn).2.1 = 1 ∧
        t.rd Reg.plotHoldoff = BitVec.ofNat 32 (min ((s.rd Reg.plotHoldoff).toNat + 1) (2 ^ 32 - 1))) ∧
      OnlyFields s t [(liveFd fn).2.1, Fd.whole Reg.plotHoldoff] ∧ t = { s with fn := t.fn, regs := t.regs })) ∧
  (∀ (s : State) (fid : Fid) (vcs : Bool), s.fn.due.contains (if vcs then 0x1000 + fid.val % 64 else fid.val) = true →
    exec (.fnReset fid vcs) s = .next s) ∧
  (∀ (s : State) (fid : Fid), s.assigned fid.val = true → s.enabled fid.val = true → fid.val % 64 ≠ 0 →
    s.fn.due.contains fid.val = false → s.advancedNow fid.val = false → s.mustHold fid.val = false →
    Completes (.functionLevelReset fid) s (fun t => t = { s with fn := { s.fn with due := s.fn.due ++ [fid.val] } })) ∧
  (∀ (s : State) (fn : Fin 8192), fn.val < 0x1040 → s.fn.due.contains fn.val = true → s.mustHold fn.val = false →
    s.advancedNow fn.val = false →
    Completes (.generationAdvance fn) s (fun t =>
      t.gen fn.val = (s.gen fn.val + 1) % 65536 ∧ t.getF (liveFd fn.val).2.1 = 0 ∧
      t.getF (liveFd fn.val).2.2.2.1 = min (t.oldCount fn.val) 65535 ∧
      (0 < t.oldCount fn.val → t.getF (liveFd fn.val).1 = 2) ∧
      t.fn.due = s.fn.due.filter (fun x => x ≠ fn.val) ∧ t.fn.decoders = s.fn.decoders ∧
      OnlyFields s t ([(liveFd fn.val).1, (liveFd fn.val).2.1, (liveFd fn.val).2.2.1, (liveFd fn.val).2.2.2.1] ++
        if fn.val < 0x1000 then [Fld.securityTdiStatState fn.val] else []) ∧
      t = { s with fn := t.fn, regs := t.regs }))

/-- Resets by a host (R96, R103, R235). Clearing VF Enable of a port whose PF0 is enabled clears NumVFs and makes an advance due for every
VF that has not advanced in this tick; nothing but functions and their live registers changes. A hot reset of the upstream vPPB of a
port in use, with no steward instance on it and no snoop pending for it, makes an advance due for its VCS entry and every function of it,
clears VF Enable, and starts a dead sweep that ends when the link returns. -/
def Obligations.HostResetsReachEveryFunction : Prop :=
  (∀ (s : State) (lp : Lp), s.enabled (64 * lp.val) = true → (s.vf lp.val).1 = true →
    Completes (.vfEnableClear lp) s (fun t => t.vf lp.val = (false, 0) ∧
      (∀ f, 1 ≤ f → f ≤ 63 → s.advancedNow (64 * lp.val + f) = false → 64 * lp.val + f ∈ t.fn.due) ∧
      t = { s with regs := t.regs, fn := { s.fn with vf := t.fn.vf, due := t.fn.due } })) ∧
  (∀ (s : State) (lp : Lp), s.isRole lp.val 0 = true → s.dllUp lp.val = true → s.instOf lp.val = none →
    s.home.snoops.filter (fun x => x.lp = lp.val) = [] → s.home.sweeps = [] →
    Completes (.vppbHotReset lp) s (fun t => t.vf lp.val = (false, 0) ∧
      (s.advancedNow (0x1000 + lp.val) = false → 0x1000 + lp.val ∈ t.fn.due) ∧
      (∀ f, f ≤ 63 → s.advancedNow (64 * lp.val + f) = false → 64 * lp.val + f ∈ t.fn.due) ∧
      t.home = { s.home with sweeps := [(lp.val, false, false)] } ∧
      t = { s with regs := t.regs, fn := t.fn, home := t.home }))

/-- Host writes of a decoder (R86, R87). A write that sets Commit on values R84 allows, with no commit of the decoder pending or held,
stores the values, clears Error Not Committed and leaves a commit waiting for its boundary; on values R84 does not allow it sets Error Not
Committed and no commit waits. While a commit is pending a write is held, after those held before. After the boundary, a held write of
values alone is applied and nothing is held any more. -/
def Obligations.DecoderWritesCommitOrAreHeld : Prop :=
  (∀ (s : State) (fid : Fid) (w : DecWrite), s.assigned fid.val = true → s.enabled fid.val = true →
    (s.decoder fid.val).pend = none → (s.decoder fid.val).heldDue = false → w.commit = some true →
    Completes (.decoderCommit fid w) s (fun t =>
      (decOk (mergeDec (s.decoder fid.val).vals w) = true →
        t.decoder fid.val = { s.decoder fid.val with vals := mergeDec (s.decoder fid.val).vals w, enc := false, pend := some true } ∧
        t.commits = s.commits ++ [(.decoder fid.val, s.commitFurlong)]) ∧
      (decOk (mergeDec (s.decoder fid.val).vals w) = false →
        t.decoder fid.val = { s.decoder fid.val with vals := mergeDec (s.decoder fid.val).vals w, enc := true } ∧
        t.commits = s.commits) ∧
      (∀ k, k ≠ fid.val → t.decoder k = s.decoder k) ∧
      t = { s with fn := { s.fn with decoders := t.fn.decoders }, commits := t.commits })) ∧
  (∀ (s : State) (fid : Fid) (w : DecWrite), s.assigned fid.val = true → s.enabled fid.val = true →
    (s.decoder fid.val).pend ≠ none → (s.decoder fid.val).held.length < 16 →
    Completes (.decoderCommit fid w) s (fun t =>
      t.decoder fid.val = { s.decoder fid.val with held := (s.decoder fid.val).held ++ [w] } ∧
      (∀ k, k ≠ fid.val → t.decoder k = s.decoder k) ∧ t = { s with fn := { s.fn with decoders := t.fn.decoders } })) ∧
  (∀ (s : State) (fid : Fid) (w : DecWrite), (s.decoder fid.val).heldDue = true → s.phase ≠ 0 →
    (s.decoder fid.val).pend = none → (s.decoder fid.val).held = [w] → w.commit = none →
    Completes (.decoderHeldWriteApply fid) s (fun t =>
      t.decoder fid.val = { s.decoder fid.val with vals := mergeDec (s.decoder fid.val).vals w, held := [], heldDue := false } ∧
      (∀ k, k ≠ fid.val → t.decoder k = s.decoder k) ∧ t = { s with fn := { s.fn with decoders := t.fn.decoders } }))

/-- Configuration requests (R2, R41, R42). On a port with role upstream whose link is up, a read that a target answers is completed
successfully with what the register reads as, register 0 of a presented PF0 reading vendor 0x1E9C and device 0x328A; a target that does not
answer completes with Unsupported Request; and neither changes anything but what is sent. -/
def Obligations.ConfigRequestsAreAnswered : Prop :=
  (∀ (s : State) (lp : Lp) (tgt : CfgTarget) (reg : Fin 1024) (tag : BitVec 14), s.isRole lp.val 0 = true → s.dllUp lp.val = true →
    s.cfgAnswers lp.val tgt = true →
    exec (.configRequest lp tgt reg none tag) s =
      .next { s with out := .config lp.val tag.toNat .sc (s.cfgValue lp.val tgt reg.val) :: s.out }) ∧
  (∀ (s : State) (lp : Lp) (tgt : CfgTarget) (reg : Fin 1024) (wr : Option Word) (tag : BitVec 14), s.isRole lp.val 0 = true →
    s.dllUp lp.val = true → s.cfgAnswers lp.val tgt = false →
    exec (.configRequest lp tgt reg wr tag) s = .next { s with out := .config lp.val tag.toNat .ur 0 :: s.out }) ∧
  (∀ (s : State) (lp : Lp), s.cfgValue lp.val (.fn 0) 0 = 0x328A1E9C#32)

/-- A flit at the pins of a standard port in L0 (R22, R54, R55). With its CRC passing and no MAC in force, its message joins the device after
every other, stamped with the tick, as number `nextId`; with its CRC failing, CRC_CNT is counted, a request for replay is due, and nothing
else changes. -/
def Obligations.FlitsAreAcceptedOrCounted : Prop :=
  (∀ (s : State) (lp : Lp) (x : MsgIn), s.lpExists lp.val = true → s.inL0 lp.val = true → s.role lp.val ≠ 2 →
    s.contained lp.val = false →
    Completes (.flitReceived lp ⟨[], true, 0, false, false, [x]⟩) s (fun t =>
      t.dp = { s.dp with
        msgs := s.dp.msgs ++ [{ id := s.dp.nextId, stage := .unpacked, origin := .ingress, stamp := s.tick, engine := lp.val / 2,
                                hdr := hdrOf x, req := hdrOf x, cls := bareCls lp.val .program, inLp := lp.val }]
        nextId := s.dp.nextId + 1 } ∧
      (t.lnk lp.val).recov = 0 ∧ (∀ k, k ≠ lp.val → t.lnk k = s.lnk k) ∧ (∀ a, t.rd a = s.rd a) ∧
      t = { s with regs := t.regs, link := { s.link with links := t.link.links }, dp := t.dp })) ∧
  (∀ (s : State) (lp : Lp) (msgs : List MsgIn), s.lpExists lp.val = true → s.inL0 lp.val = true → s.role lp.val ≠ 2 →
    Completes (.flitReceived lp ⟨[], false, 0, false, false, msgs⟩) s (fun t =>
      t.getF (Fld.portLpCrcCntFail lp.val) = min (s.getF (Fld.portLpCrcCntFail lp.val) + 1) (2 ^ (Fld.portLpCrcCntFail lp.val).width - 1) ∧
      OnlyFields s t [Fld.portLpCrcCntFail lp.val] ∧ (t.lnk lp.val).tfl.nakDue = true ∧ t.dp = s.dp ∧ (∀ k, k ≠ lp.val → t.lnk k = s.lnk k) ∧
      t = { s with regs := t.regs, link := { s.link with links := t.link.links } }))

/-- The MAC that ends an epoch of a Secure stream in containment mode (R305). When it passes, the messages of the port that wait and
came before it go on, each having waited from its own tick to the MAC's; later messages, and those of other ports, stay. -/
def Obligations.MacReleasesTheMessagesItCovers : Prop :=
  ∀ (s : State) (lp : Lp) (x : Nat × Nat) (rest : List (Nat × Nat)), s.getF (Fld.securityIdeStatState lp.val) = 1 →
    (s.ide lp.val).macs = x :: rest →
    Completes (.ideMacCheck lp true) s (fun t =>
      (t.ide lp.val).macs = rest ∧ (∀ k, k ≠ lp.val → t.ide k = s.ide k) ∧
      (∀ k, t.msg? k = (s.msg? k).map (fun m =>
        if m.stage = .macHeld ∧ m.inLp = lp.val ∧ m.id < x.2 then
          { m with stage := .unpacked, parts := { m.parts with ideh := x.1 - m.stamp } }
        else m)) ∧
      t = { s with link := { s.link with ide := t.link.ide }, dp := { s.dp with msgs := t.dp.msgs } })

/-- Classification of a CXL.mem request of an upstream port (R17, R22, R85, R107, R158, R213). In tick I + 4 or later, with fewer than the engine's
messages of the tick classified, one with a decoder that matches is classified to that function, under its plot, service context, program and
generation, with the tables in force, and goes on with the decoder's device address; the first one after the decoder's commit leaves its
position bits there. With none, it is an access with no matching rule, at the address it came with. Nothing else changes. -/
def Obligations.MemRequestsAreClassifiedByTheirDecoder : Prop :=
  (∀ (s : State) (m : Nat) (x : Msg) (f : Nat), s.msg? m = some x → x.stage = .unpacked → x.stamp + 4 + x.parts.ideh ≤ s.tick →
    s.mayClassify x.inLp = true → s.getF Fld.faultStatFatal = 0 →
    s.idePlain x.inLp = false → x.hdr.op.isMemReq = true → s.role x.inLp = 0 →
    s.decodeHpa x.inLp x.hdr.addr = some f → s.tdiError f = false →
    Completes (.classify m) s (fun t =>
      t.msg? m = some { x with stage := .atEngine, cls := { s.fnCls x.inLp f .program with epoch := s.dp.epoch },
                               hdr := { x.hdr with addr := (s.decoder f).dpa x.hdr.addr } } ∧
      (∀ k, k ≠ m → t.msg? k = s.msg? k) ∧
      (s.fnCls x.inLp f .program).fid = f ∧ (s.fnCls x.inLp f .program).plot = s.getF (Fld.plotFnW0Plot f) ∧
      (s.fnCls x.inLp f .program).sc = s.getF (Fld.plotFnW1Sc f) ∧ (s.fnCls x.inLp f .program).prog = s.getF (Fld.plotFnW0Prog f) ∧
      (s.fnCls x.inLp f .program).gen = s.gen f ∧
      t.decoder f = { s.decoder f with pos := some ((s.decoder f).pos.getD ((s.decoder f).position x.hdr.addr)) } ∧
      (∀ k, k ≠ f → t.decoder k = s.decoder k) ∧
      t = { s with
        fn := { s.fn with decoders := t.fn.decoders }
        dp := { s.dp with msgs := t.dp.msgs, classed := s.dp.classed ++ [x.inLp] } })) ∧
  (∀ (s : State) (m : Nat) (x : Msg), s.msg? m = some x → x.stage = .unpacked → x.stamp + 4 + x.parts.ideh ≤ s.tick →
    s.mayClassify x.inLp = true → s.getF Fld.faultStatFatal = 0 →
    s.idePlain x.inLp = false → x.hdr.op.isMemReq = true → s.role x.inLp = 0 → s.decodeHpa x.inLp x.hdr.addr = none →
    Completes (.classify m) s (fun t =>
      t.msg? m = some { x with stage := .atEngine, cls := { s.vcsCls x.inLp x.inLp .noDecoder with epoch := s.dp.epoch } } ∧
      (∀ k, k ≠ m → t.msg? k = s.msg? k) ∧
      t = { s with dp := { s.dp with msgs := t.dp.msgs, classed := s.dp.classed ++ [x.inLp] } })) ∧
  (∀ (s : State) (m : Nat) (x : Msg), s.msg? m = some x →
    x.stage ≠ .unpacked ∨ s.tick < x.stamp + 4 + x.parts.ideh ∨ s.mayClassify x.inLp = false → exec (.classify m) s = .next s)

/-- Entry into the engine (R22, R23, R67, R134, R135, R254). In tick I + 5 or later, a message whose turn it is, with a lane free and room in the
buffer, enters stage 1 with a fresh context; it holds its cells, charged to its port, class and plot, its wait is its EIN, and its units are
credited to its port. Before that tick, without a lane, or without room it stays as it is. -/
def Obligations.EngineEntryReservesCells : Prop :=
  (∀ (s : State) (m : Nat) (x : Msg), s.msg? m = some x → x.stage = .atEngine → x.stamp + 5 + x.parts.ideh ≤ s.tick → s.heldBack x = false →
    s.enteredNow x.inLp < s.lanes x.inLp →
    s.admits x.inLp x.hdr.op.credit x.cls.plot x.cls.epoch (s.cellsFor x) = true → s.shape (x.inLp / 2) ≠ 2 →
    Completes (.engineEntry m) s (fun t =>
      t.msg? m = some { x with stage := .engine, engine := x.inLp / 2, ctx := {}, cells := s.cellsFor x, chCls := x.hdr.op.credit,
                               chPlot := x.cls.plot, parts := { x.parts with ein := s.tick - (x.stamp + 5 + x.parts.ideh) } } ∧
      (∀ k, k ≠ m → t.msg? k = s.msg? k) ∧
      Tbl.get (fun _ => 0) t.link.rxCnt (8 * x.inLp + x.hdr.op.credit) =
        Tbl.get (fun _ => 0) s.link.rxCnt (8 * x.inLp + x.hdr.op.credit) + BitVec.ofNat 32 x.hdr.units ∧
      t = { s with
        regs := t.regs, mz := t.mz, link := { s.link with rxCnt := t.link.rxCnt }
        dp := { s.dp with msgs := t.dp.msgs, entered := s.dp.entered ++ [x.inLp] } })) ∧
  (∀ (s : State) (m : Nat) (x : Msg), s.msg? m = some x →
    s.tick < x.stamp + 5 + x.parts.ideh ∨ s.enteredNow x.inLp ≥ s.lanes x.inLp ∨
    s.admits x.inLp x.hdr.op.credit x.cls.plot x.cls.epoch (s.cellsFor x) = false →
    exec (.engineEntry m) s = .next s)

/-- Decode and encode agree (R142, R143): the 64-bit word of every Coulter instruction, with every operand at every value its field
holds, reads back as that instruction, and every 64-bit word is the word of its fields, which stand where R142 has them: no bit of an encoding is
dropped. -/
def Obligations.InstructionWordsSpellTheirCommands : Prop :=
  (∀ (c : Instr) (w : CoW) (m : Nat), c.coWord? = some w → c.coMsg? = some m →
    w.word < 2 ^ 64 ∧ coFields w.word = w ∧ coDecode m (coFields w.word) = some c) ∧
  (∀ x, x < 2 ^ 64 → (coFields x).word = x ∧ (coFields x).op = x / 2 ^ 56 ∧ (coFields x).dst = x / 2 ^ 50 % 2 ^ 6 ∧
    (coFields x).sa = x / 2 ^ 44 % 2 ^ 6 ∧ (coFields x).sb = x / 2 ^ 38 % 2 ^ 6 ∧ (coFields x).qi = x / 2 ^ 35 % 2 ^ 3 ∧
    (coFields x).qs = x / 2 ^ 34 % 2 ∧ (coFields x).sz = x / 2 ^ 32 % 2 ^ 2 ∧ (coFields x).imm = x % 2 ^ 32)

/-- The words that the manual assembles for program 3 from R142 and R143 read as the instructions it prints beside them. -/
def Obligations.ManualWordsReadAsTheirInstructions : Prop :=
  coDecode 5 (coFields 0x16011038_0000001E) = some (.shr 5 ⟨7, false⟩ 0 0x11 0 30) ∧
  coDecode 5 (coFields 0x15052038_00000002) = some (.shl 5 ⟨7, false⟩ 1 0x12 0 2) ∧
  coDecode 5 (coFields 0x13000078_00000000) = some (.orOp 5 ⟨7, false⟩ 0 0 1) ∧
  coDecode 5 (coFields 0x1C091038_3FFFFFFF) = some (.andi 5 ⟨7, false⟩ 2 0x11 0x3FFFFFFF) ∧
  coDecode 5 (coFields 0x30000038_00000000) = some (.lxt 5 ⟨7, false⟩ 0) ∧
  coDecode 5 (coFields 0x2004373A_00000000) = some (.ceq 5 ⟨7, false⟩ .w32 1 0x03 0x1C) ∧
  coDecode 5 (coFields 0x04000008_00000001) = some (.next 5 ⟨1, false⟩ 1) ∧
  coDecode 5 (coFields 0x4000008C_00000000) = some (.tgt 5 ⟨1, true⟩ 0 2 0) ∧
  coDecode 5 (coFields 0x0100000C_00000000) = some (.endExec 5 ⟨1, true⟩) ∧
  coDecode 5 (coFields 0) = some (.nop 5)

/-- An instruction whose predicate is 0 has no effect of any kind (R121): the message goes on to its next slot, whatever the opcode. -/
def Obligations.FalsePredicatesPassTheSlot : Prop :=
  ∀ (c : Instr) (w : CoW) (m : Nat) (s : State) (x : Msg), c.coWord? = some w → c.coMsg? = some m → CoAt s m x w →
    w.executes x.ctx = false → CoDoes c s m x id

/-- NOP has no effect (R147); END ends execution (R148); SKIP n passes the n slots after it (R149); NEXT records the block of the next
stage (R150); CNT adds 1, or the value of SA, to what its counter of the program gains in this tick, and a counter's additions of a tick are
counted at its end, modulo 2^64 (R169, R170). -/
def Obligations.ControlInstructionsAndCounters : Prop :=
  (∀ m s x, CoAt s m x ⟨0, 0, 0, 0, 0, 0, 0, 0⟩ → CoDoes (.nop m) s m x id) ∧
  (∀ m p s x, CoRuns (.endExec m p) s m x → CoDoes (.endExec m p) s m x (fun c => { c with ended := true })) ∧
  (∀ m p n s x, CoRuns (.skip m p n) s m x → CoDoes (.skip m p n) s m x (fun c => { c with slot := c.slot + n.toNat })) ∧
  (∀ m p b s x, CoRuns (.next m p b) s m x → CoDoes (.next m p b) s m x (fun c => { c with next := b.toNat })) ∧
  (∀ (m : Nat) (p : Pred) (a : BitVec 6) (imm : Word) (s : State) (x : Msg), CoRuns (.cnt m p a imm) s m x →
    Completes (.cnt m p a imm) s (fun t =>
      let lo := Reg.coulterCntLo x.engine x.cls.prog (imm.toNat % 256)
      let amount := if imm.toNat / 256 % 2 = 1 then (s.operand x a.toNat).toNat else 1
      Tbl.get (fun _ => 0) t.eng.adds lo = Tbl.get (fun _ => 0) s.eng.adds lo + amount ∧
      (∀ k, k ≠ lo → Tbl.get (fun _ => 0) t.eng.adds k = Tbl.get (fun _ => 0) s.eng.adds k) ∧
      MsgOnly { s with eng := { s.eng with adds := t.eng.adds } } t m { x with ctx := { x.ctx with slot := x.ctx.slot + 1 } })) ∧
  (∀ (s : State) (lo n : Nat), s.eng.adds = [(lo, n)] →
    s.countTick.get64 lo (lo + 4) = (s.get64 lo (lo + 4) + n) % 2 ^ 64 ∧ s.countTick.eng.adds = [] ∧
    OnlyFields s s.countTick [Fd.whole lo, Fd.whole (lo + 4)])

/-- The arithmetic and logic of R151: sums and differences modulo 2^w zero-extended, AND, OR, XOR, moves and immediates, written to
G[DST]. Nothing but the destination register and the slot changes. -/
def Obligations.AluInstructionsWriteTheirResult : Prop :=
  (∀ m p w d a b s x, CoRuns (.add m p w d a b) s m x → CoDoes (.add m p w d a b) s m x (fun c => c.setG d.toNat
    (BitVec.ofNat 32 (((s.operand x a.toNat).toNat + (s.operand x b.toNat).toNat) % 2 ^ szBits (szCode w))))) ∧
  (∀ m p w d a b s x, CoRuns (.sub m p w d a b) s m x → CoDoes (.sub m p w d a b) s m x (fun c => c.setG d.toNat
    (BitVec.ofInt 32 (((s.operand x a.toNat).toNat - (s.operand x b.toNat).toNat : Int) % 2 ^ szBits (szCode w))))) ∧
  (∀ m p w d a imm s x, CoRuns (.addi m p w d a imm) s m x → CoDoes (.addi m p w d a imm) s m x (fun c => c.setG d.toNat
    (BitVec.ofNat 32 (((s.operand x a.toNat).toNat + imm.toNat) % 2 ^ szBits (szCode w))))) ∧
  (∀ m p d a b s x, CoRuns (.andOp m p d a b) s m x → CoDoes (.andOp m p d a b) s m x (fun c => c.setG d.toNat
    (s.operand x a.toNat &&& s.operand x b.toNat))) ∧
  (∀ m p d a b s x, CoRuns (.orOp m p d a b) s m x → CoDoes (.orOp m p d a b) s m x (fun c => c.setG d.toNat
    (s.operand x a.toNat ||| s.operand x b.toNat))) ∧
  (∀ m p d a b s x, CoRuns (.xorOp m p d a b) s m x → CoDoes (.xorOp m p d a b) s m x (fun c => c.setG d.toNat
    (s.operand x a.toNat ^^^ s.operand x b.toNat))) ∧
  (∀ m p d a s x, CoRuns (.mov m p d a) s m x → CoDoes (.mov m p d a) s m x (fun c => c.setG d.toNat (s.operand x a.toNat))) ∧
  (∀ m p d imm s x, CoRuns (.ldi m p d imm) s m x → CoDoes (.ldi m p d imm) s m x (fun c => c.setG d.toNat imm)) ∧
  (∀ m p d a imm s x, CoRuns (.andi m p d a imm) s m x → CoDoes (.andi m p d a imm) s m x (fun c => c.setG d.toNat
    (s.operand x a.toNat &&& imm)))

/-- Shifts and fields (R151, R152): SHL and SHR shift by IMM[4:0], or by bits [4:0] of SB when IMM[5] is 1; EXT takes bits
[POS + LEN - 1:POS] of SA, and INS puts the low bits of SB there, bit by bit. Compares (R153, R154): CEQ, CNE, CLT
and CGE compare the low w bits of SA and SB, unsigned; CRNG asks whether SA - SB modulo 2^w is below the span; each writes Q[DST], true or
false, and nothing else. -/
def Obligations.ShiftFieldAndCompareInstructions : Prop :=
  (∀ (m : Nat) (p : Pred) (d a b : BitVec 6) (imm : Word) (s : State) (x : Msg),
    let n := if imm.toNat / 32 % 2 = 1 then (s.operand x b.toNat).toNat % 32 else imm.toNat % 32
    (CoRuns (.shl m p d a b imm) s m x →
      CoDoes (.shl m p d a b imm) s m x (fun c => c.setG d.toNat (BitVec.ofNat 32 ((s.operand x a.toNat).toNat * 2 ^ n)))) ∧
    (CoRuns (.shr m p d a b imm) s m x →
      CoDoes (.shr m p d a b imm) s m x (fun c => c.setG d.toNat (BitVec.ofNat 32 ((s.operand x a.toNat).toNat / 2 ^ n))))) ∧
  (∀ (m : Nat) (p : Pred) (d a : BitVec 6) (imm : Word) (s : State) (x : Msg) (pos len : Nat),
    pos = imm.toNat % 32 → len = imm.toNat / 256 % 64 → 1 ≤ len → pos + len ≤ 32 → CoRuns (.ext m p d a imm) s m x →
    ∃ v : Word, (∀ k, k < 32 → v.getLsbD k = (decide (k < len) && (s.operand x a.toNat).getLsbD (pos + k))) ∧
      CoDoes (.ext m p d a imm) s m x (fun c => c.setG d.toNat v)) ∧
  (∀ (m : Nat) (p : Pred) (d a b : BitVec 6) (imm : Word) (s : State) (x : Msg) (pos len : Nat),
    pos = imm.toNat % 32 → len = imm.toNat / 256 % 64 → 1 ≤ len → pos + len ≤ 32 → CoRuns (.ins m p d a b imm) s m x →
    ∃ v : Word, (∀ k, k < 32 → v.getLsbD k =
        if pos ≤ k ∧ k < pos + len then (s.operand x b.toNat).getLsbD (k - pos) else (s.operand x a.toNat).getLsbD k) ∧
      CoDoes (.ins m p d a b imm) s m x (fun c => c.setG d.toNat v)) ∧
  (∀ (m : Nat) (p : Pred) (w : Width) (d a b : BitVec 6) (span : Word) (s : State) (x : Msg),
    let u := (s.operand x a.toNat).toNat % 2 ^ szBits (szCode w)
    let v := (s.operand x b.toNat).toNat % 2 ^ szBits (szCode w)
    (CoRuns (.ceq m p w d a b) s m x → CoDoes (.ceq m p w d a b) s m x (fun c => c.setQ d.toNat (decide (u = v)))) ∧
    (CoRuns (.cne m p w d a b) s m x → CoDoes (.cne m p w d a b) s m x (fun c => c.setQ d.toNat (decide (u ≠ v)))) ∧
    (CoRuns (.clt m p w d a b) s m x → CoDoes (.clt m p w d a b) s m x (fun c => c.setQ d.toNat (decide (u < v)))) ∧
    (CoRuns (.cge m p w d a b) s m x → CoDoes (.cge m p w d a b) s m x (fun c => c.setQ d.toNat (decide (v ≤ u)))) ∧
    (CoRuns (.crng m p w d a b span) s m x → CoDoes (.crng m p w d a b span) s m x (fun c => c.setQ d.toNat
      (decide ((u - v : Int) % 2 ^ szBits (szCode w) < span.toNat)))))

/-- Lookups (R126, R155 to R158). LXT, LHT and LFN append their two words to what is due in the T pair of their place in the block. An
extent index of a tenant's function counts from XT_BASE and misses, as 0 and 0, from XT_CNT on; any other message's index names the
entry itself. A key that no valid entry of its bucket holds misses as 0 and 0. -/
def Obligations.LookupsIssueTheirWords : Prop :=
  (∀ (m : Nat) (p : Pred) (a : BitVec 6) (s : State) (x : Msg), CoRuns (.lxt m p a) s m x →
    CoDoes (.lxt m p a) s m x (fun c => { c with due := c.due ++ [(s.pairOf x, (s.lxt x (s.operand x a.toNat).toNat).1),
      (s.pairOf x + 1, (s.lxt x (s.operand x a.toNat).toNat).2)] })) ∧
  (∀ (m : Nat) (p : Pred) (a : BitVec 6) (n : Word) (s : State) (x : Msg), CoRuns (.lht m p a n) s m x →
    CoDoes (.lht m p a n) s m x (fun c => { c with due := c.due ++ [(s.pairOf x, (s.lht x (s.operand x a.toNat) n.toNat).1),
      (s.pairOf x + 1, (s.lht x (s.operand x a.toNat) n.toNat).2)] })) ∧
  (∀ (m : Nat) (p : Pred) (sel : Word) (s : State) (x : Msg), CoRuns (.lfn m p sel) s m x →
    CoDoes (.lfn m p sel) s m x (fun c => { c with due := c.due ++ [(s.pairOf x, (s.lfn x sel.toNat).1),
      (s.pairOf x + 1, (s.lfn x sel.toNat).2)] })) ∧
  (∀ (s : State) (x : Msg) (a : Nat), x.tenantFn = true →
    s.lxt x a = if a < fieldAt (s.regsAt x.cls.epoch) (Fld.plotFnW3XtCnt x.cls.fid) then
        (regAt (s.regsAt x.cls.epoch) (Reg.extentXtW0 (fieldAt (s.regsAt x.cls.epoch) (Fld.plotFnW2XtBase x.cls.fid) + a)),
         regAt (s.regsAt x.cls.epoch) (Reg.extentXtW1 (fieldAt (s.regsAt x.cls.epoch) (Fld.plotFnW2XtBase x.cls.fid) + a)))
      else (0, 0)) ∧
  (∀ (s : State) (x : Msg) (a : Nat), x.tenantFn = false → a < 131072 →
    s.lxt x a = (regAt (s.regsAt x.cls.epoch) (Reg.extentXtW0 a), regAt (s.regsAt x.cls.epoch) (Reg.extentXtW1 a))) ∧
  (∀ (s : State) (x : Msg) (key : Word) (n : Nat),
    (∀ k, (Tbl.get (fun _ => ({} : HEnt)) (s.hashAt x.cls.epoch) k).valid = true →
      (Tbl.get (fun _ => ({} : HEnt)) (s.hashAt x.cls.epoch) k).key ≠ key) → s.lht x key n = (0, 0))

/-- Actions write their field of the action record and nothing else of it (R159 to R168): TGT and TWIN the target of their form, HOME
the route-through-home flag, KEY the key, MARK the trace tag, ATOM the place; DROP, PSN and TRAP the disposition, and they end
execution. -/
def Obligations.ActionsWriteTheirRecordField : Prop :=
  (∀ m p a b form s x, CoRuns (.tgt m p a b form) s m x → CoDoes (.tgt m p a b form) s m x (fun c => { c with act := { c.act with
    tgt := some (s.coTarget x (form.toNat % 4) (s.operand x a.toNat) (s.operand x b.toNat)) } })) ∧
  (∀ m p a b form s x, CoRuns (.twin m p a b form) s m x → CoDoes (.twin m p a b form) s m x (fun c => { c with act := { c.act with
    twin := some (s.coTarget x (form.toNat % 4) (s.operand x a.toNat) (s.operand x b.toNat)) } })) ∧
  (∀ m p s x, CoRuns (.home m p) s m x → CoDoes (.home m p) s m x (fun c => { c with act := { c.act with home := true } })) ∧
  (∀ m p k s x, CoRuns (.key m p k) s m x →
    CoDoes (.key m p k) s m x (fun c => { c with act := { c.act with key := some (decide (k = 0)) } })) ∧
  (∀ m p v s x, CoRuns (.mark m p v) s m x →
    CoDoes (.mark m p v) s m x (fun c => { c with act := { c.act with mark := v.toNat % 65536 } })) ∧
  (∀ m p k s x, CoRuns (.atom m p k) s m x →
    CoDoes (.atom m p k) s m x (fun c => { c with act := { c.act with atomMem := some (decide (k = 1)) } })) ∧
  (∀ m p s x, CoRuns (.drop m p) s m x →
    CoDoes (.drop m p) s m x (fun c => { c with ended := true, act := { c.act with disp := .drop } })) ∧
  (∀ m p s x, CoRuns (.psn m p) s m x →
    CoDoes (.psn m p) s m x (fun c => { c with ended := true, act := { c.act with disp := .psn } })) ∧
  (∀ m p r s x, CoRuns (.trap m p r) s m x →
    CoDoes (.trap m p r) s m x (fun c => { c with ended := true, act := { c.act with disp := .trap (r.toNat % 256) } }))

/-- Program loads (R136, R138, R139, R174, R175). GO where no engine that it reaches is BUSY makes each of them BUSY with PROG, both engines
of an x16 cluster; GO while one is BUSY, or in the follower's block, is refused by STAT.REFUSED.
A load ends in every engine that its GO reached, whatever shape the port now has (R136): a refused image shows its code and word in LOAD_STAT
and changes nothing else; a load waits while a message that fixed the inactive slot is at one of its engines; and an accepted image is in the
inactive slot of each engine, word for word, with the slot valid and the other one still in force. -/
def Obligations.ProgramLoadsFillTheInactiveSlot : Prop :=
  (∀ (s : State) (n : Phys) (p : ProgNo), s.shape n.val ≠ 3 → (∀ k ∈ s.enginesOf n.val, s.getF (Fld.coulterLoadStatBusy k) = 0) →
    Completes (.load n p) s (fun t =>
      (∀ k ∈ s.enginesOf n.val, t.getF (Fld.coulterLoadStatBusy k) = 1 ∧ t.getF (Fld.coulterLoadStatProg k) = p.val) ∧
      (∀ k, t.loadOf k = if k ∈ s.enginesOf n.val then some (p.val, n.val) else s.loadOf k) ∧
      OnlyFields s t ((s.enginesOf n.val).flatMap (fun k => [Fld.coulterLoadStatBusy k, Fld.coulterLoadStatProg k])) ∧
      t = { s with regs := t.regs, eng := { s.eng with loads := t.eng.loads } })) ∧
  (∀ (s : State) (n : Phys) (p : ProgNo), s.shape n.val = 3 ∨ (∃ k ∈ s.enginesOf n.val, s.getF (Fld.coulterLoadStatBusy k) = 1) →
    Completes (.load n p) s (fun t => t.getF (Fld.coulterStatRefused n.val) = 1 ∧ RegsOnly s t [Fld.coulterStatRefused n.val])) ∧
  (∀ (s : State) (n : Phys) (p src code word : Nat), (List.range 32).filter (fun k => decide (s.loadOf k = some (p, src))) = [n.val] →
    s.loadVerdict src n.val p = (code, word) → code ≠ 0 → code < 256 → word < 128 →
    Completes (.loadDone n) s (fun t =>
      Writes s t [(Fld.coulterLoadStatBusy n.val, 0), (Fld.coulterLoadStatCode n.val, code), (Fld.coulterLoadStatWord n.val, word)] ∧
      t = { s with regs := t.regs, eng := { s.eng with loads := Tbl.set (fun _ => none) s.eng.loads n.val none } })) ∧
  (∀ (s : State) (n : Phys) (p src k : Nat), s.loadOf n.val = some (p, src) → k < 32 → s.loadOf k = some (p, src) →
    (s.loadVerdict src k p).1 = 0 → s.slotBusy k p (s.inactiveSlot k p) = true →
    exec (.loadDone n) s = .next s) ∧
  (∀ (s : State) (n : Phys) (p src : Nat) (ks : List Nat), p < 16 → (List.range 32).filter (fun k => decide (s.loadOf k = some (p, src))) = ks →
    ks = [src] ∨ ks = [src, src + 1] → n.val ∈ ks →
    (∀ k ∈ ks, (s.loadVerdict src k p).1 = 0 ∧ s.slotBusy k p (s.inactiveSlot k p) = false) →
    Completes (.loadDone n) s (fun t =>
      (∀ k ∈ ks,
        t.getF (Fld.coulterLoadStatBusy k) = 0 ∧ t.getF (Fld.coulterLoadStatCode k) = 0 ∧
        t.getF (if s.inactiveSlot k p = 0 then Fld.coulterProgStatValidA k p else Fld.coulterProgStatValidB k p) = 1 ∧
        t.progInForce k p = s.progInForce k p ∧ t.progLive k p = s.progLive k p ∧
        Tbl.get (fun _ => none) t.eng.last (k * 16 + p) = some (s.inactiveSlot k p) ∧
        (∀ x ∈ imagePlaces (s.stagingByte src 7) (s.imageBlocks src),
          t.storeWord k p (s.inactiveSlot k p) x.1 x.2.1 x.2.2 = s.imageWord src (s.imageBlocks src) x)) ∧
      (∀ a, (∀ k ∈ ks, a ≠ Reg.coulterLoadStat k ∧ ¬(Reg.coulterProgStat k p ≤ a ∧ a < Reg.coulterProgStat k p + 0x20) ∧
          ¬(Reg.coulterKconst k p (s.inactiveSlot k p) 0 ≤ a ∧ a < Reg.coulterKconst k p (s.inactiveSlot k p) 4) ∧
          ¬(Reg.coulterStore k p (s.inactiveSlot k p) 0 ≤ a ∧ a < Reg.coulterStore k p (s.inactiveSlot k p) 128)) →
        t.rd a = s.rd a) ∧
      t = { s with regs := t.regs, eng := t.eng }))

/-- Program commits and counters (R18, R20, R177, R170). GO for a loaded slot, with nothing of R20 against it, sets PENDING for the engine
and the program and waits for its boundary; otherwise it is refused and nothing waits. A write to a counter's low word clears the counter. -/
def Obligations.ProgramCommitsAndCounterClears : Prop :=
  (∀ (s : State) (n : Phys) (p : ProgNo), s.shape n.val ≠ 3 → (∀ k ∈ s.enginesOf n.val, s.progCommitBad k p.val = false) →
    Completes (.programCommit n p) s (fun t =>
      (∀ k ∈ s.enginesOf n.val, t.getF (Fld.coulterCommitStatPending k) = 1 ∧ t.getF (Fld.coulterCommitStatProg k) = p.val ∧
        t.getF (Fld.coulterProgStatPending k p.val) = 1 ∧
        t.get64 (Reg.coulterCommitTickLo k) (Reg.coulterCommitTickHi k) = s.tick % 2 ^ 64 ∧
        t.get64 (Reg.coulterCommitFurlongLo k) (Reg.coulterCommitFurlongHi k) = s.commitFurlong % 2 ^ 64) ∧
      t.commits = s.commits ++ (s.enginesOf n.val).map (fun k => (.prog k p.val, s.commitFurlong)) ∧
      OnlyFields s t ((s.enginesOf n.val).flatMap (fun k => [Fld.coulterCommitStatPending k, Fld.coulterCommitStatProg k,
        Fld.coulterProgStatPending k p.val, Fd.whole (Reg.coulterCommitTickLo k), Fd.whole (Reg.coulterCommitTickHi k),
        Fd.whole (Reg.coulterCommitFurlongLo k), Fd.whole (Reg.coulterCommitFurlongHi k)])) ∧
      t = { s with regs := t.regs, commits := t.commits })) ∧
  (∀ (s : State) (n : Phys) (p : ProgNo), s.shape n.val ≠ 3 → (∀ k ∈ s.enginesOf n.val, s.progCommitBad k p.val = true) →
    Completes (.programCommit n p) s (fun t => (∀ k ∈ s.enginesOf n.val, t.getF (Fld.coulterCommitStatRefused k) = 1) ∧
      RegsOnly s t ((s.enginesOf n.val).map (fun k => Fld.coulterCommitStatRefused k)))) ∧
  (∀ (s : State) (n : Phys) (p : ProgNo), s.shape n.val = 3 →
    Completes (.programCommit n p) s (fun t => t.getF (Fld.coulterStatRefused n.val) = 1 ∧ RegsOnly s t [Fld.coulterStatRefused n.val])) ∧
  (∀ (s : State) (n : Phys) (p : ProgNo) (k : Fin 32),
    Completes (.counterClear n p k) s (fun t =>
      t.rd (Reg.coulterCntLo n.val p.val k.val) = 0 ∧ t.rd (Reg.coulterCntHi n.val p.val k.val) = 0 ∧
      RegsOnly s t [Fd.whole (Reg.coulterCntLo n.val p.val k.val), Fd.whole (Reg.coulterCntHi n.val p.val k.val)]))

/-- Private hash tables (R180 to R183). A commit whose allocations stand is accepted and waits for its boundary; one that is pending, or
whose allocations break R181, is refused with its cause. SEED marks the load copy busy until its end, which makes the allocation words
of the load copy those in force; SEED while one runs is ignored, and a seed that ends while its program's commit is pending leaves what was
committed as it is (R20; both the model's choice, log 83). A write of HT_DATA_HI stores key, data and valid bit at ENTRY and moves ENTRY on; a write of HT_IDX reads
an entry; TDIGEST is the SHA-384 of the tables in force. -/
def Obligations.HashTableCopiesLoadAndCommit : Prop :=
  (∀ (s : State) (p : ProgNo), s.htPending p.val = false → s.htSizeBad p.val = false → s.htOverlap p.val = false →
    Completes (.htCommit p) s (fun t =>
      t.getF Fld.coulterHtStatPending = 1 ∧ t.getF Fld.coulterHtStatProg = p.val ∧
      t.getF Fld.coulterHtStatPendMap = s.getF Fld.coulterHtStatPendMap ||| 2 ^ p.val ∧
      t.commits = s.commits ++ [(.ht p.val, s.commitFurlong)] ∧
      t.get64 Reg.coulterHtCommitTickLo Reg.coulterHtCommitTickHi = s.tick % 2 ^ 64 ∧
      t.get64 Reg.coulterHtCommitFurlongLo Reg.coulterHtCommitFurlongHi = s.commitFurlong % 2 ^ 64 ∧
      OnlyFields s t [Fld.coulterHtStatPending, Fld.coulterHtStatProg, Fld.coulterHtStatPendMap,
        Fd.whole Reg.coulterHtCommitTickLo, Fd.whole Reg.coulterHtCommitTickHi,
        Fd.whole Reg.coulterHtCommitFurlongLo, Fd.whole Reg.coulterHtCommitFurlongHi] ∧
      t = { s with regs := t.regs, commits := t.commits })) ∧
  (∀ (s : State) (p : ProgNo) (viol : Nat), (s.htPending p.val = true ∧ viol = 0) ∨
      (s.htPending p.val = false ∧ s.htSizeBad p.val = true ∧ viol = 1) ∨
      (s.htPending p.val = false ∧ s.htSizeBad p.val = false ∧ s.htOverlap p.val = true ∧ viol = 2) →
    Completes (.htCommit p) s (fun t => t.getF Fld.coulterHtStatRefused = 1 ∧ t.getF Fld.coulterHtStatViol = viol ∧
      RegsOnly s t [Fld.coulterHtStatRefused, Fld.coulterHtStatViol])) ∧
  (∀ (s : State) (p : ProgNo), s.htPending p.val = false → s.eng.seeding = none →
    Completes (.htSeed p) s (fun t => Writes s t [(Fld.coulterHtCtlProg, p.val), (Fld.coulterHtCtlBusy, 1)] ∧
      t = { s with regs := t.regs, eng := { s.eng with seeding := some p.val } })) ∧
  (∀ (s : State) (p : Nat), p < 16 → s.eng.seeding = some p → s.htPending p = false →
    Completes .htSeedDone s (fun t => t.getF Fld.coulterHtCtlBusy = 0 ∧
      (∀ k, k < 4 → t.rd (Reg.coulterHtAllocLoad p k) = s.rd (Reg.coulterHtAlloc p k)) ∧
      (∀ a, ¬(Reg.coulterHtAllocLoad p 0 ≤ a ∧ a < Reg.coulterHtAllocLoad p 4) → a ≠ Reg.coulterHtCtl → t.rd a = s.rd a) ∧
      t.eng = { s.eng with seeding := none, hashL := copyRuns s.eng.hashF s.eng.hashL (s.htAllocs false p) } ∧
      t = { s with regs := t.regs, eng := t.eng })) ∧
  (∀ (s : State) (p : Nat), s.eng.seeding = some p → s.htPending p = true →
    Completes .htSeedDone s (fun t => Writes s t [(Fld.coulterHtCtlBusy, 0)] ∧
      t = { s with regs := t.regs, eng := { s.eng with seeding := none } })) ∧
  (∀ (s : State) (v : Word), s.getF Fld.coulterHtIdxCopy = 1 ∨ s.getF Fld.coulterHtCtlBusy = 1 ∨
      s.htEntryLocked (s.getF Fld.coulterHtIdxEntry) = true → exec (.htDataHiWrite v) s = .next s) ∧
  (∀ (s : State) (v : Word), s.getF Fld.coulterHtIdxCopy = 0 → s.getF Fld.coulterHtCtlBusy = 0 →
      s.htEntryLocked (s.getF Fld.coulterHtIdxEntry) = false →
    Completes (.htDataHiWrite v) s (fun t =>
      t.rd Reg.coulterHtDataHi = v ∧ t.getF Fld.coulterHtIdxEntry = (s.getF Fld.coulterHtIdxEntry + 1) % 131072 ∧
      (∀ k, Tbl.get (fun _ => ({} : HEnt)) t.eng.hashL k = if k = s.getF Fld.coulterHtIdxEntry then
          ⟨s.rd Reg.coulterHtKey, BitVec.ofNat 63 ((s.rd Reg.coulterHtDataLo).toNat + 2 ^ 32 * (v.toNat % 2 ^ 31)), v.getLsbD 31⟩
        else Tbl.get (fun _ => ({} : HEnt)) s.eng.hashL k) ∧
      OnlyFields s t [Fd.whole Reg.coulterHtDataHi, Fld.coulterHtIdxEntry] ∧
      t = { s with regs := t.regs, eng := { s.eng with hashL := t.eng.hashL } })) ∧
  (∀ (s : State) (v : Word),
    let ent := Tbl.get (fun _ => ({} : HEnt)) (if fieldGet v 17 1 = 1 then s.eng.hashF else s.eng.hashL) (fieldGet v 0 17)
    Completes (.htIdxWrite v) s (fun t =>
      Writes s t [(Fld.coulterHtIdxEntry, fieldGet v 0 17), (Fld.coulterHtIdxCopy, fieldGet v 17 1),
        (Fd.whole Reg.coulterHtKey, ent.key.toNat), (Fd.whole Reg.coulterHtDataLo, ent.data.toNat % 2 ^ 32),
        (Fld.coulterHtDataHiData, ent.data.toNat / 2 ^ 32), (Fld.coulterHtDataHiValid, if ent.valid then 1 else 0)] ∧
      t = { s with regs := t.regs })) ∧
  (∀ (s : State) (p : ProgNo),
    exec (.tdigestDone p) s = .next { s with eng := { s.eng with
      tdigest := Tbl.set (fun _ => none) s.eng.tdigest p.val (some (Config.sha384 (s.tdigestBytes p.val))) } })

/-- Hedge and map (R22, R118, R129, R165). A response that has its route enters the buffer and bids from the next tick. A posted message
whose record says DROP is gone, and DISP.DROP of its engine counts it. -/
def Obligations.HedgeAndMapSendsOnOrDrops : Prop :=
  (∀ (s : State) (m : Nat) (x : Msg) (r : Route), s.msg? m = some x → x.stage = .map → x.cls.path = .response → x.route = some r →
    Completes (.hedgeAndMap m) s (fun t => MsgOnly s t m { x with stage := .bid, firstBid := s.tick + 1 })) ∧
  (∀ (s : State) (m : Nat) (x : Msg) (n : Nat), s.msg? m = some x → x.stage = .map → x.cls.path = .program → x.cls.slot = some n →
    x.ctx.act = { disp := .drop } → x.hdr.op = .ioMemWr → x.req.op = .ioMemWr →
    Completes (.hedgeAndMap m) s (fun t =>
      t.msg? m = none ∧ (∀ k, k ≠ m → t.msg? k = s.msg? k) ∧
      t.getF (Fld.coulterDispDrop x.engine) = min (s.getF (Fld.coulterDispDrop x.engine) + 1) 255 ∧
      OnlyFields s t [Fld.coulterDispDrop x.engine] ∧
      t = { s with regs := t.regs, dp := { s.dp with msgs := t.dp.msgs } }))

/-- Lookups at the home (R222 to R225). A lookup whose turn has come (mayLook: of the messages that can end theirs, the first in R222's order,
and fewer than four ended in this tick) is counted and moves the rotating pointer past its port. A MemSpecRd is discarded; a
request whose key has an open transaction is parked on it, with a credit of its port when one is free, counted as a conflict, with HOME 4
and no RETRY yet; a replayed one that meets the conflict again waits in its place, and RETRY counts the ticks since its last lookup. A message
that found no credit takes the first that is free. The lines named hold no entry of the directory, and no error shows. The counts of lookups
stay at the highest value (log 80). -/
def Obligations.HomeLookupsParkAndReplay : Prop :=
  (∀ (s : State) (m : Nat) (x : Msg) (r : Route) (e n : Nat), s.msg? m = some x → x.stage = .home → s.mayLook x = true →
    x.route = some r → r.key = some (e, n) → s.wayOf e n = none → s.tick = x.since + 4 → x.req.op = .memSpecRd →
    Completes (.homeLookup m []) s (fun t =>
      t.msg? m = none ∧ (∀ k, k ≠ m → t.msg? k = s.msg? k) ∧
      t.get64 Reg.homeLookupLo Reg.homeLookupHi = min (s.get64 Reg.homeLookupLo Reg.homeLookupHi + 1) (2 ^ 64 - 1) ∧
      OnlyFields s t [Fd.whole Reg.homeLookupLo, Fd.whole Reg.homeLookupHi] ∧
      t = { s with regs := t.regs, dp := { s.dp with msgs := t.dp.msgs }, home := { s.home with looked := s.home.looked + 1, ptr := (x.inLp + 1) % 64 } })) ∧
  (∀ (s : State) (m : Nat) (x : Msg) (r : Route) (e n : Nat) (tx : Txn), s.msg? m = some x → x.stage = .home →
    s.mayLook x = true → x.route = some r → r.key = some (e, n) → s.wayOf e n = none → s.tick = x.since + 4 →
    x.req.op = .memRd ∨ x.req.op = .memWr ∨ x.req.op = .ioMemRd ∨ x.req.op = .ioMemWr → s.txnOn e n = some tx →
    s.home.parked.any (fun p => p.msg = m) = false → x.origin ≠ .harrow → (∀ p ∈ s.home.parked, p.credit ≠ none) →
    (s.home.parked.filter (fun p => p.credit = some false)).length < 16 →
    Completes (.homeLookup m []) s (fun t =>
      t.msg? m = some { x with stage := .parked, since := s.tick, parts := { x.parts with home := 4, retry := 0 } } ∧
      (∀ k, k ≠ m → t.msg? k = s.msg? k) ∧
      t.home = { s.home with looked := s.home.looked + 1, ptr := (x.inLp + 1) % 64, parked := s.home.parked ++ [⟨m, some false, .conflict e n, false, 0⟩] } ∧
      t.get64 Reg.homeLookupLo Reg.homeLookupHi = min (s.get64 Reg.homeLookupLo Reg.homeLookupHi + 1) (2 ^ 64 - 1) ∧
      t.getF Fld.homeRetryCntConflict = min (s.getF Fld.homeRetryCntConflict + 1) 255 ∧
      OnlyFields s t [Fd.whole Reg.homeLookupLo, Fd.whole Reg.homeLookupHi, Fld.homeRetryCntConflict] ∧
      t = { s with regs := t.regs, dp := { s.dp with msgs := t.dp.msgs }, home := t.home })) ∧
  (∀ (s : State) (m : Nat) (x : Msg) (r : Route) (e n : Nat) (tx : Txn), s.msg? m = some x → x.stage = .parked →
    s.mayLook x = true → x.route = some r → r.key = some (e, n) → s.wayOf e n = none →
    x.req.op = .memRd ∨ x.req.op = .memWr ∨ x.req.op = .ioMemRd ∨ x.req.op = .ioMemWr → s.txnOn e n = some tx →
    s.home.parked.any (fun q => q.msg = m) = true →
    Completes (.retryReplay m []) s (fun t =>
      t.msg? m = some { x with since := s.tick, parts := { x.parts with home := 4, retry := x.parts.retry + (s.tick - x.since) } } ∧
      (∀ k, k ≠ m → t.msg? k = s.msg? k) ∧
      t.home = { s.home with looked := s.home.looked + 1, ptr := (x.inLp + 1) % 64, parked := s.home.parked.map (fun q =>
        if q.msg = m then { q with cause := .conflict e n, ready := false } else q) } ∧
      t.get64 Reg.homeLookupLo Reg.homeLookupHi = min (s.get64 Reg.homeLookupLo Reg.homeLookupHi + 1) (2 ^ 64 - 1) ∧
      t.getF Fld.homeRetryCntConflict = min (s.getF Fld.homeRetryCntConflict + 1) 255 ∧
      OnlyFields s t [Fd.whole Reg.homeLookupLo, Fd.whole Reg.homeLookupHi, Fld.homeRetryCntConflict] ∧
      t = { s with regs := t.regs, dp := { s.dp with msgs := t.dp.msgs }, home := t.home })) ∧
  (∀ (s : State) (m : Nat) (x : Msg), s.msg? m = some x →
    s.home.parked.any (fun p => decide (p.msg = m) && p.credit.isNone) = true →
    Completes (.retryCreditTaken m) s (fun t =>
      t.home.parked = s.home.parked.map (fun q => if q.msg = m then { q with credit := s.parkCredit x } else q) ∧
      t = { s with home := { s.home with parked := t.home.parked } }))

/-- Snoops and their ends (R215, R229, R230, R234, R235). A BIRsp that matches no snoop, and a block response, is stray; one that matches
ends its snoop, and the line's entry follows its kind: BIRspI clears the port's bit, BIRspS leaves it SHARED (state 1), BIRspE leaves it
OWNED (state 2) in answer to BISnpCur and acts as BIRspI in answer to another snoop. When nothing is outstanding for a MemInv, its transaction resolves: the request is
answered by a message of a number of its own, and the transaction closes and ends the waits on its key. A snoop that times out is gone, its port no longer holds the line, which is FREE for want of another holder, the
event is raised with source 0x08 and counted; SNP_TMO is its time, and the memory that the line's poison write goes to is reachable. A sweep whose port
holds no line ends, clearing SWEEP where the link need not return. CFN is
written while its port holds no line and the function is one of an upstream port, and refused otherwise. -/
def Obligations.SnoopsSweepsAndCoherentFunctions : Prop :=
  (∀ (s : State) (m : Nat) (x : Msg), s.msg? m = some x → x.cls.path = .homePath → x.stage = .engine ∨ x.stage = .map →
    x.hdr.op = .biRspBlk ∨ (∀ p ∈ s.home.snoops, ¬(p.lp = x.cls.lp ∧ p.bitag = x.hdr.bitag)) →
    Completes (.birsp m) s (fun t => t.msg? m = none ∧ (∀ k, k ≠ m → t.msg? k = s.msg? k) ∧
      t.getF Fld.homeExcBiStray = min (s.getF Fld.homeExcBiStray + 1) 255 ∧ OnlyFields s t [Fld.homeExcBiStray] ∧
      t = { s with regs := t.regs, dp := { s.dp with msgs := t.dp.msgs } })) ∧
  (∀ (s : State) (m : Nat) (x : Msg) (p : Snoop) (w : Nat), s.msg? m = some x → x.cls.path = .homePath →
    x.stage = .engine ∨ x.stage = .map → x.hdr.op ≠ .biRspBlk → (∀ y ∈ s.home.txns, y.toSnoop = []) →
    s.home.snoops.find? (fun y => decide (y.lp = x.cls.lp ∧ y.bitag = x.hdr.bitag)) = some p →
    (s.txn? p.txn).bind (·.way) = some w → (s.dirAt w).sharers.contains x.cls.lp = true → (s.dirAt w).isOpen = true →
    Completes (.birsp m) s (fun t => t.msg? m = none ∧ (∀ k, k ≠ m → t.msg? k = s.msg? k) ∧
      t.home.snoops = s.home.snoops.filter (fun y => !decide (y.lp = x.cls.lp ∧ y.bitag = x.hdr.bitag)) ∧
      t.dirAt w = birspEntry (s.dirAt w) x.cls.lp x.hdr.op p.kind ∧ (∀ k, k ≠ w → t.dirAt k = s.dirAt k) ∧
      t = { s with dp := { s.dp with msgs := t.dp.msgs }, home := { s.home with snoops := t.home.snoops, dir := t.home.dir } })) ∧
  (∀ (s : State) (tx : Txn) (m : Nat) (x : Msg) (r : Route), s.txn? tx.id = some tx → tx.done = false → tx.kind = .invI →
    tx.toSnoop = [] → tx.before = [] → tx.victim = none → tx.way = none → tx.msg = some m →
    (∀ p ∈ s.home.snoops, p.txn ≠ tx.id) → s.msg? m = some x → x.route = some r → x.req.op = .memInv →
    s.getF Fld.homeStatHalted = 0 → s.devCells + 1 ≤ 4096 → s.dp.nextId ≠ m →
    Completes (.snoopsResolve tx.id) s (fun t =>
      t.msg? m = none ∧ t.txn? tx.id = none ∧ (∀ k, k ≠ tx.id → t.txn? k = s.txn? k) ∧
      (∃ y, t.dp.msgs.getLast? = some y ∧ y.stage = .bid ∧ y.hdr.op = .ndr ∧ y.hdr.tag = x.req.tag ∧ y.route.map (·.lp) = some x.cls.lp ∧
        y.firstBid = s.tick + 1) ∧
      t.home.parked = s.home.parked.map (fun p => if !p.ready && p.cause.endedBy tx.e tx.n then { p with ready := true, readyAt := s.tick } else p) ∧
      t.home = { s.home with txns := t.home.txns, parked := t.home.parked } ∧
      t = { s with dp := { s.dp with msgs := t.dp.msgs, nextId := s.dp.nextId + 1 }, home := t.home })) ∧
  (∀ (s : State) (lp : Lp) (b : Fin 4096) (p : Snoop) (tx : Txn) (w : Nat),
    s.home.snoops.find? (fun y => decide (y.lp = lp.val ∧ y.bitag = b.val)) = some p → s.txn? p.txn = some tx → tx.way = some w →
    (s.dirAt w).isOpen = true → s.getF Fld.homeStatHalted = 0 → s.aonPast p.start s.snoopTicks = true →
    (∀ d, memberOf (s.regsAt s.dp.epoch) (fieldAt (s.regsAt s.dp.epoch) (Fld.extentXtW0Pool tx.e))
      (fieldAt (s.regsAt s.dp.epoch) (Fld.extentXtW0Pxb tx.e) * 2 ^ 28 + 64 * tx.n) = some d → s.dllUp d.1 = true) →
    Completes (.snoopTimeout lp b) s (fun t =>
      t.home.snoops = s.home.snoops.filter (fun y => !decide (y.lp = p.lp ∧ y.bitag = p.bitag)) ∧
      (t.dirAt w).sharers = (s.dirAt w).sharers.filter (fun y => y ≠ p.lp) ∧
      (t.dirAt w).state = (if (t.dirAt w).sharers.isEmpty ∧ (s.dirAt w).state ≠ 3 then 0 else (s.dirAt w).state) ∧
      t.dirAt w = { s.dirAt w with sharers := (t.dirAt w).sharers, state := (t.dirAt w).state } ∧
      t.flt = { s.flt with tickEvents := s.flt.tickEvents ++ [{ src := 0x08, tick := p.start, lp := some p.lp, d0 := tx.e, d1 := tx.n }] } ∧
      t.getF Fld.homeDeadTimeout = min (s.getF Fld.homeDeadTimeout + 1) 65535 ∧ OnlyFields s t [Fld.homeDeadTimeout] ∧
      t = { s with regs := t.regs, flt := t.flt, home := t.home, dp := t.dp, freeCtr := s.freeCtr + 1 })) ∧
  (∀ (s : State) (lp : Lp) (stays : Bool), s.home.sweeps.find? (fun x => decide (x.1 = lp.val) && !x.2.1) = some (lp.val, false, stays) →
    (∀ e ∈ s.home.dir, e.2.sharers.contains lp.val = false) → s.home.poison = [] → s.getF Fld.homeStatHalted = 0 →
    Completes (.deadSweepDone ⟨lp, []⟩) s (fun t =>
      t.home = { s.home with sweeps := s.home.sweeps.filter (fun y => y.1 ≠ lp.val) ++ (if stays then [] else [(lp.val, true, false)]) } ∧
      (stays = true → t.getF (mapBit Reg.homeSweepLo Reg.homeSweepHi lp.val) = 0) ∧
      (stays = false → t.regs = s.regs) ∧
      OnlyFields s t [mapBit Reg.homeSweepLo Reg.homeSweepHi lp.val] ∧ t = { s with regs := t.regs, home := t.home })) ∧
  (∀ (s : State) (lp : Lp) (v : Word), s.portLines lp.val = 0 →
    (fieldGet v 12 1 = 0 ∨ (s.isRole lp.val 0 = true ∧ fieldGet v 0 12 / 64 = lp.val)) →
    Completes (.cfnWrite lp v) s (fun t =>
      Writes s t [(Fld.homeCfnFid lp.val, fieldGet v 0 12), (Fld.homeCfnValid lp.val, fieldGet v 12 1)] ∧ t = { s with regs := t.regs })) ∧
  (∀ (s : State) (lp : Lp) (v : Word), s.portLines lp.val ≠ 0 →
    Completes (.cfnWrite lp v) s (fun t => t.getF Fld.homeStatCfnRefused = 1 ∧ RegsOnly s t [Fld.homeStatCfnRefused])) ∧
  (∀ (d : DirEnt) (lp : Nat) (k : SnpKind),
    (birspEntry d lp .biRspI k).sharers = d.sharers.filter (fun y => y ≠ lp) ∧
    birspEntry d lp .biRspS k = { d with state := 1 } ∧ birspEntry d lp .biRspE .cur = { d with state := 2 } ∧
    (k ≠ .cur → birspEntry d lp .biRspE k = birspEntry d lp .biRspI k))

/-- The bid list and one arbitration (R244, R246, R247, R248, R264, R270, R275). Every message that BID_LIST_BUILD places stands in its stage,
has reached its first tick and is of rank 2, 1 or 0, or a line of a harrow burst; no message is gone or changes but for the mark that its SELF is
counted, and what comes after them are the writes of harrow bursts that have been gathered; with no line move in any channel, nothing else changes.
A message that bids alone, with no transfer under way and no burst of the harrow, is granted in the tick; its first 512 bytes go next, the rest in
the tick after them; no pointer moves. A second ARBITRATE in a tick has no effect. -/
def Obligations.BidsAreListedAndGranted : Prop :=
  (∀ s : State, Completes .bidListBuild s (fun t =>
    (∀ k ∈ t.dp.bids, ∃ x ∈ s.dp.msgs, x.id = k ∧ x.stage = .bid ∧ x.firstBid ≤ s.tick ∧
      (x.rank ≤ 2 ∨ ∃ c, k ∈ (s.har c).burst)) ∧
    (∃ l, t.dp.msgs.map (fun x => { x with self := false }) = s.dp.msgs.map (fun x => { x with self := false }) ++ l ∧
      ∀ x ∈ l, x.origin = .harrow ∧ x.stage = .bid ∧ x.firstBid = s.tick + 1) ∧
    ((∀ c, c < 4 → (s.har c).moves = []) → t.dp.msgs.length = s.dp.msgs.length ∧
      t = { s with regs := t.regs, xb := { s.xb with levels := t.xb.levels },
                   dp := { s.dp with msgs := t.dp.msgs, bids := t.dp.bids, qin := [], rsvUp := t.dp.rsvUp } }))) ∧
  (∀ (s : State) (m : Nat) (x : Msg), s.dp.arbAt ≠ some s.tick → s.dp.bids = [m] → s.msg? m = some x → x.stage = .bid →
    x.rank ≤ 2 → x.out < 64 → s.dp.cont = [] → (∀ c, (s.har c).burst = []) →
    Completes .arbitrate s (fun t =>
      t.msg? m = some { x with stage := .granted, since := s.tick } ∧ (∀ k, k ≠ m → t.msg? k = s.msg? k) ∧
      (∀ c, t.har c = s.har c) ∧
      t = { s with xb := { s.xb with harrow := t.xb.harrow },
                   dp := { s.dp with msgs := t.dp.msgs, bids := [], arbAt := some s.tick, cont := if 512 < x.hdr.flitLen then [m] else [] } })) ∧
  (∀ s : State, s.dp.arbAt = some s.tick → exec .arbitrate s = .next s)

/-- Traverse and egress pack (R25, R66, R244, R250, R253, R273, R283). A granted message traverses after the tick of its grant: up to 512 of its
bytes count at its input and its output. In a tick after, with its port up, a message that the device made leaves in a flit three ticks on,
counted in the content its link sends, in the credit its class has consumed and in the bytes of rank 2; QIN takes its share; its cells are
free once its last byte is packed (R253). 64-bit counts stay at the highest value (log 80). -/
def Obligations.GrantedMessagesTraverseAndLeave : Prop :=
  (∀ (s : State) (m : Nat) (x : Msg), s.msg? m = some x → x.stage = .granted → x.since < s.tick → s.cancelled x = false →
    x.inPort < 32 → x.outPort < 32 →
    Completes (.crossbarTraverse m) s (fun t =>
      t.msg? m = some { x with stage := .packing, since := s.tick } ∧ (∀ k, k ≠ m → t.msg? k = s.msg? k) ∧
      t.get64 (Reg.xbarInBytesLo x.inPort) (Reg.xbarInBytesHi x.inPort) =
        min (s.get64 (Reg.xbarInBytesLo x.inPort) (Reg.xbarInBytesHi x.inPort) + min 512 x.hdr.flitLen) (2 ^ 64 - 1) ∧
      t.get64 (Reg.xbarOutBytesLo x.outPort) (Reg.xbarOutBytesHi x.outPort) =
        min (s.get64 (Reg.xbarOutBytesLo x.outPort) (Reg.xbarOutBytesHi x.outPort) + min 512 x.hdr.flitLen) (2 ^ 64 - 1) ∧
      OnlyFields s t [Fd.whole (Reg.xbarInBytesLo x.inPort), Fd.whole (Reg.xbarInBytesHi x.inPort),
        Fd.whole (Reg.xbarOutBytesLo x.outPort), Fd.whole (Reg.xbarOutBytesHi x.outPort)] ∧
      t = { s with regs := t.regs, dp := { s.dp with msgs := t.dp.msgs } })) ∧
  (∀ (s : State) (m : Nat) (x : Msg) (r : Route), s.msg? m = some x → x.stage = .packing → x.since < s.tick →
    x.hdr.flitLen ≤ 512 → x.origin = .device → x.route = some r → r.rank = 2 → r.tracker = none → r.lp < 64 → s.dllUp r.lp = true →
    s.role r.lp = 1 ∨ s.role r.lp = 2 → s.gleaned x = false →
    Completes (.egressPack m) s (fun t =>
      t.out = .flit r.lp (s.tick + 3) r.ld x.hdr s.flt.viral :: s.out ∧
      t.msg? m = none ∧ (∀ k, k ≠ m → t.msg? k = s.msg? k) ∧
      (t.lnk r.lp).tfl = { (s.lnk r.lp).tfl with pend := (s.lnk r.lp).tfl.pend + x.hdr.flitLen } ∧
      (t.credit r.lp x.hdr.op.credit).cons = (s.credit r.lp x.hdr.op.credit).cons + BitVec.ofNat 32 x.hdr.units ∧
      (t.credit r.lp x.hdr.op.credit).limit = (s.credit r.lp x.hdr.op.credit).limit ∧
      cnt t.xb.rank2 r.lp = cnt s.xb.rank2 r.lp + x.hdr.flitLen ∧
      t.get64 (Reg.schedPortLiveQinLo r.lp) (Reg.schedPortLiveQinHi r.lp) =
        min (s.get64 (Reg.schedPortLiveQinLo r.lp) (Reg.schedPortLiveQinHi r.lp) + x.parts.qin) (2 ^ 64 - 1) ∧
      OnlyFields s t [Fd.whole (Reg.schedPortLiveQinLo r.lp), Fd.whole (Reg.schedPortLiveQinHi r.lp)] ∧
      t = { s with regs := t.regs, out := t.out, dp := { s.dp with msgs := t.dp.msgs }, xb := { s.xb with rank2 := t.xb.rank2, freed := s.xb.freed ++ [x.freed (s.tick + x.hdr.xticks)] },
                   link := { s.link with links := t.link.links, credit := t.link.credit } }))

/-- Responses and entries that time out (R97, R99, R102, R118). A response that matches no tracker entry is late: counted, and gone. One
that matches the entry of a live request without a home transaction releases it and goes to its requester with the request's own tag. An
entry of a read still live at its timeout, TRK_TMO after it was made, raises source 0x03 with the request's trace tag, is released, and the
requester gets a completion with poison; a message of it that waits for a grant is gone (R250), and where its request was sent its tag stays out of
use, so that a late response matches nothing (log 15). -/
def Obligations.ResponsesMatchTheirTrackerEntries : Prop :=
  (∀ (s : State) (m : Nat) (x : Msg), s.msg? m = some x → x.cls.path = .response → x.route = none → x.stage = .engine ∨ x.stage = .map →
    (∀ t ∈ s.dp.trackers, ¬(t.lp = x.cls.lp ∧ t.tag = x.hdr.tag)) →
    Completes (.responseStage1 m) s (fun t =>
      t.msg? m = none ∧ (∀ k, k ≠ m → t.msg? k = s.msg? k) ∧
      (t.rd Reg.plotLate).toNat = min ((s.rd Reg.plotLate).toNat + 1) (2 ^ 32 - 1) ∧ OnlyFields s t [Fd.whole Reg.plotLate] ∧
      t = { s with regs := t.regs, dp := { s.dp with msgs := t.dp.msgs, lateTags := s.dp.lateTags.erase (x.cls.lp, x.hdr.tag) } })) ∧
  (∀ (s : State) (m : Nat) (x : Msg) (k : Tracker), s.msg? m = some x → x.cls.path = .response → x.route = none →
    x.stage = .engine ∨ x.stage = .map →
    s.dp.trackers.find? (fun t => decide (t.lp = x.cls.lp ∧ t.tag = x.hdr.tag)) = some k → s.tracker? k.id = some k →
    k.use = .request → k.txn = none → k.group = none → k.req.op.isRead = false → s.current k.cls = true → s.home.txns = [] →
    x.hdr.data.length ≤ 512 →
    Completes (.responseStage1 m) s (fun t =>
      t.msg? m = some { x with hdr := { x.hdr with tag := k.req.tag, grant := k.grant }, req := k.req,
                               cls := { k.cls with path := .response }, route := some { lp := k.cls.lp, rank := 2, key := k.key } } ∧
      (∀ j, j ≠ m → t.msg? j = s.msg? j) ∧
      t.dp.trackers = s.dp.trackers.filter (fun y => y.id ≠ k.id) ∧
      OnlyFields s t [(liveFd k.cls.fid).1, (liveFd k.cls.fid).2.2.2.1] ∧
      t = { s with regs := t.regs, dp := { s.dp with msgs := t.dp.msgs, trackers := t.dp.trackers } })) ∧
  (∀ (s : State) (k : Tracker), s.tracker? k.id = some k → s.current k.cls = true → k.use = .request → k.txn = none → k.group = none →
    k.req.op = .ioMemRd → k.cls.plot = 0 → k.denied = [] → s.home.txns = [] → k.got = 0 → k.req.size ≤ 512 →
    s.aonPast k.start (250000 * max 1 (min 50 (s.getF Fld.plotTrkTmoMs))) = true →
    Completes (.trackerTimeout k.id) s (fun t =>
      t.flt = { s.flt with tickEvents := s.flt.tickEvents ++
        [{ src := 0x03, tick := s.tick, fn := some (k.cls.fid, k.cls.gen), tag := k.mark, d0 := max 1 (min 50 (s.getF Fld.plotTrkTmoMs)) }] } ∧
      t.dp.trackers = s.dp.trackers.filter (fun y => y.id ≠ k.id) ∧
      (∃ y, t.dp.msgs = s.dp.msgs.filter (fun m => m.onItsWay || decide ((m.route.bind (·.tracker)) ≠ some k.id)) ++ [y] ∧ y.id = s.dp.nextId ∧
        y.hdr.op = .cpl ∧ y.hdr.poison = true ∧ y.hdr.tag = k.req.tag ∧ y.hdr.data.length = k.req.size ∧
        y.route = some { lp := k.cls.lp, rank := 2, key := k.key }) ∧
      OnlyFields s t [(liveFd k.cls.fid).1, (liveFd k.cls.fid).2.2.2.1] ∧
      t = { s with regs := t.regs, flt := t.flt, freeCtr := s.freeCtr + 1,
                   dp := { s.dp with msgs := t.dp.msgs, trackers := t.dp.trackers, nextId := s.dp.nextId + 1,
                                     lateTags := if k.sent || s.trackerOnWay k then s.dp.lateTags ++ [(k.lp, k.tag)] else s.dp.lateTags } }))

/-- Notices and residence totals (R31, R32, R197). A notice closes with every field 0, at the start of the tick: one that a
denial of this tick opened stays open (log 11). A write of RES_SEL shows the totals of the port it
names; CLEAR makes every port's totals, and what is shown, 0. -/
def Obligations.NoticesCloseAndResidencesShow : Prop :=
  (∀ (s : State) (lp : Lp), (∃ d ∈ s.hedge.denials, d.lp = lp.val ∧ d.opened = true) → exec (.noticeClose lp) s = .next s) ∧
  (∀ (s : State) (lp : Lp), (∀ d ∈ s.hedge.denials, d.lp ≠ lp.val) →
    Completes (.noticeClose lp) s (fun t =>
      t.rd (Reg.hedgeNotice lp.val) = 0 ∧ t.rd (Reg.hedgeNoticeAddrLo lp.val) = 0 ∧ t.rd (Reg.hedgeNoticeAddrHi lp.val) = 0 ∧
      t.rd (Reg.hedgeNoticeCount lp.val) = 0 ∧ t.getF (mapBit Reg.hedgeNoticeOpenLo Reg.hedgeNoticeOpenHi lp.val) = 0 ∧
      RegsOnly s t [Fd.whole (Reg.hedgeNotice lp.val), Fd.whole (Reg.hedgeNoticeAddrLo lp.val), Fd.whole (Reg.hedgeNoticeAddrHi lp.val),
        Fd.whole (Reg.hedgeNoticeCount lp.val), mapBit Reg.hedgeNoticeOpenLo Reg.hedgeNoticeOpenHi lp.val])) ∧
  (∀ (s : State) (v : Word),
    Completes (.resSelWrite v) s (fun t =>
      t.getF Fld.globalResSelPort = fieldGet v 0 6 ∧
      t.get64 Reg.globalResCountLo Reg.globalResCountHi = (s.resTot (fieldGet v 0 6)).count % 2 ^ 64 ∧
      t.get64 Reg.globalResQueueLo Reg.globalResQueueHi = (s.resTot (fieldGet v 0 6)).sums.queue % 2 ^ 64 ∧
      t.rd Reg.globalResMax = BitVec.ofNat 32 (min (s.resTot (fieldGet v 0 6)).max 0xFFFFFFFF) ∧ t = { s with regs := t.regs })) ∧
  (∀ s : State,
    Completes .resClear s (fun t =>
      (∀ lp, t.resTot lp = {}) ∧ t.get64 Reg.globalResCountLo Reg.globalResCountHi = 0 ∧ t.rd Reg.globalResMax = 0 ∧
      t = { s with regs := t.regs, dp := { s.dp with res := [] } }))

/-- The harrow's commands (R258 to R260, R265, R266, R269). A GO that is refused sets REFUSED and its ERR, and operation 0b11 of an idle
channel refuses with 0x7. A GO that is accepted without RESUME starts from START with PROGRESS 0, takes the operation, the entries and what RATE
leaves of this furlong's lines, and the channel runs, or is done when its range is empty; lines of an earlier GO that are still moving count no more
(the model's reading, log 55). After a fatal fault an accepted GO ends in ERROR with 0x5. STOP of a running channel leaves it STOPPING while a line
that counts is moving, and STOPPED when none is; a channel that does not run ignores it. -/
def Obligations.HarrowChannelsStartAndStop : Prop :=
  (∀ (s : State) (c : Chan) (e : Nat), s.harRefusal c.val = some e → e < 16 →
    Completes (.harrowGo c) s (fun t => t.getF (Fld.harrowStatRefused c.val) = 1 ∧ t.getF (Fld.harrowStatErr c.val) = e ∧
      RegsOnly s t [Fld.harrowStatRefused c.val, Fld.harrowStatErr c.val])) ∧
  (∀ (s : State) (c : Chan), s.harState c.val = 0 → s.getF (Fld.harrowCtlOp c.val) = 3 →
    Completes (.harrowGo c) s (fun t => t.getF (Fld.harrowStatErr c.val) = 7)) ∧
  (∀ (s : State) (c : Chan) (last : Nat), s.harRefusal c.val = none → s.getF (Fld.harrowCtlResume c.val) = 0 → s.getF Fld.faultStatFatal = 0 →
    last = (if s.getF (Fld.harrowCountLines c.val) = 0 then s.extentLines (s.getF (Fld.harrowSrcEntry c.val))
      else s.getF (Fld.harrowStartLine c.val) + s.getF (Fld.harrowCountLines c.val)) →
    Completes (.harrowGo c) s (fun t =>
      t.getF (Fld.harrowProgressLines c.val) = 0 ∧ t.getF (Fld.harrowStatErr c.val) = 0 ∧
      t.harState c.val = (if last ≤ s.getF (Fld.harrowStartLine c.val) then 3 else 1) ∧
      t.har c.val = { s.har c.val with
        op := s.getF (Fld.harrowCtlOp c.val), src := s.getF (Fld.harrowSrcEntry c.val), dst := s.getF (Fld.harrowDstEntry c.val),
        budget := s.harRate c.val - (s.har c.val).spent, next := s.getF (Fld.harrowStartLine c.val), last := last, seen := false,
        moves := (s.har c.val).moves.map (fun v => { v with counts := false }) } ∧
      (∀ k, k ≠ c.val → t.har k = s.har k) ∧
      OnlyFields s t [Fld.harrowProgressLines c.val, Fld.harrowStatErr c.val, Fld.harrowStatState c.val, Fld.harrowGlobalRateSum] ∧
      t = { s with regs := t.regs, xb := { s.xb with harrow := t.xb.harrow } })) ∧
  (∀ (s : State) (c : Chan), s.harRefusal c.val = none → s.getF Fld.faultStatFatal = 1 →
    Completes (.harrowGo c) s (fun t => t.getF (Fld.harrowStatErr c.val) = 5 ∧ t.harState c.val = 5)) ∧
  (∀ (s : State) (c : Chan), s.harState c.val = 1 →
    Completes (.harrowStop c) s (fun t => t.harState c.val = (if (s.har c.val).moves.any (·.counts) then 2 else 4) ∧
      RegsOnly s t [Fld.harrowStatState c.val, Fld.harrowGlobalRateSum])) ∧
  (∀ (s : State) (c : Chan), s.harState c.val ≠ 1 → exec (.harrowStop c) s = .next s)

/-- The harrow's moves (R255, R258, R259, R261, R263 to R265). When no channel runs with budget and lines left, nothing issues. A SCRUB channel
that alone wants, with one line of budget left, a valid entry that is not coherent, a member whose link is up, a page that is not suspect and a rule's
leave, issues its next line as a read of 64 bytes that bids at rank 0 from the next tick, with a tracker entry; the line and the budget are
counted. The last move of a channel that runs and has no line left completes when it has been done: PROGRESS counts it, as POISON and FIRST_POISON
do where it was read poisoned for the first time, and the channel is DONE. -/
def Obligations.HarrowMovesIssueAndComplete : Prop :=
  (∀ s : State, (∀ k, k < 4 → s.harWants k = false) → exec .harrowMoveIssue s = .next s) ∧
  (∀ (s : State) (c : Chan) (a : Route), s.harWants c.val = true → (∀ k, k < 4 → k ≠ c.val → s.harWants k = false) →
    (s.har c.val).op = 2 → (s.har c.val).budget = 1 → s.xb.issued = 0 → s.getF Fld.faultStatFatal = 0 →
    s.getF (Fld.extentXtW0Valid (s.har c.val).src) = 1 →
    s.getF (Fld.extentXtW0Coh (s.har c.val).src) = 0 → s.lineAt (s.har c.val).src (s.har c.val).next = a → a.lp ≠ 64 → s.dllUp a.lp = true →
    s.checkPart (s.harCls a.lp) true ⟨0, 0, none⟩ (a.pool.getD 0) 1 false = some false → s.isSuspect a.lp (a.pool.getD 0 / 4096) = false →
    Completes .harrowMoveIssue s (fun t =>
      t.har c.val = { s.har c.val with
        next := (s.har c.val).next + 1, spent := (s.har c.val).spent + 1, budget := 0,
        moves := (s.har c.val).moves ++ [{
          id := s.dp.nextId, line := (s.har c.val).next, plot := 0
          dplot := s.getF (Fld.extentXtW1Plot (s.har c.val).src), cls := s.harCls a.lp, inLp := a.lp }] } ∧
      (∀ k, k ≠ c.val → t.har k = s.har k) ∧
      (∃ y k, t.dp.msgs.getLast? = some y ∧ t.dp.trackers = s.dp.trackers ++ [k] ∧ y.id = s.dp.nextId + 1 ∧ y.stage = .bid ∧
        y.origin = .harrow ∧ y.hdr.op = .memRd ∧ y.hdr.addr = a.addr ∧ y.hdr.size = 64 ∧ y.hdr.tag = k.tag ∧ y.rank = 0 ∧ y.out = a.lp ∧
        y.firstBid = s.tick + 1 ∧ y.cells = 1 ∧ k.use = .harRd c.val s.dp.nextId ∧ k.lp = a.lp ∧ k.pool = a.pool) ∧
      (∀ k, k ≠ s.dp.nextId + 1 → t.msg? k = s.msg? k) ∧
      t = { s with dp := { s.dp with msgs := t.dp.msgs, trackers := t.dp.trackers, nextId := s.dp.nextId + 3 },
                   xb := { s.xb with harrow := t.xb.harrow, issued := 1 } })) ∧
  (∀ (s : State) (c : Chan) (v : HMove), (s.har c.val).moves = [v] → v.done = true → v.counts = true → s.harState c.val = 1 →
    (s.har c.val).last ≤ (s.har c.val).next → v.poison = false →
    Completes (.harrowMoveComplete c v.line) s (fun t =>
      t.getF (Fld.harrowProgressLines c.val) = min (s.getF (Fld.harrowProgressLines c.val) + 1) (2 ^ 25 - 1) ∧ t.harState c.val = 3 ∧
      t.har c.val = { s.har c.val with moves := [] } ∧ (∀ k, k ≠ c.val → t.har k = s.har k) ∧
      OnlyFields s t [Fld.harrowProgressLines c.val, Fld.harrowStatState c.val, Fld.harrowGlobalRateSum] ∧
      t = { s with regs := t.regs, xb := { s.xb with harrow := t.xb.harrow } })) ∧
  (∀ (s : State) (c : Chan) (v : HMove), (s.har c.val).moves = [v] → v.done = true → v.counts = true → s.harState c.val = 1 →
    (s.har c.val).last ≤ (s.har c.val).next → v.poison = true → (s.har c.val).seen = false → v.line < 2 ^ 24 →
    Completes (.harrowMoveComplete c v.line) s (fun t =>
      t.getF (Fld.harrowProgressLines c.val) = min (s.getF (Fld.harrowProgressLines c.val) + 1) (2 ^ 25 - 1) ∧ t.harState c.val = 3 ∧
      t.getF (Fld.harrowPoisonCount c.val) = min (s.getF (Fld.harrowPoisonCount c.val) + 1) (2 ^ (Fld.harrowPoisonCount c.val).width - 1) ∧
      t.getF (Fld.harrowFirstPoisonLine c.val) = v.line ∧ t.har c.val = { s.har c.val with moves := [], seen := true } ∧
      t = { s with regs := t.regs, xb := { s.xb with harrow := t.xb.harrow } }))

/-- Port registers, pins and events (R33, R37, R38, R39, R43, R45, R47, R48, R50, R52, R53). A write of CFG for another shape that R37 or R51
refuses sets REFUSED and changes nothing else; one of the shape that the field reads changes nothing, but REFUSED clears where written 1. A
write of LP_CTL that R36, R37 or R52 refuses sets REFUSED and changes nothing else; a logical port that does not exist takes no write. PERST
asserted shows in PIN_STAT, and takes each logical port of its physical port down into Detect, or where a vPPB holds a downstream port (log 20);
a link that was up shows LINKDOWN and is BUSY. PERST released shows. A port whose RETRY_MS has passed since it was refused may train again,
and one whose RETRY_MS has not stays refused. In start-up step 7 the upstream ports of the configuration store are enabled together when R45
lets them, and that once. A partner found, or removed, shows in PRESENT and in EVT, and its removal takes the link down. Containment of a downstream port
takes its link down and shows in DPC; a port of another role takes none. A width of L0p shows, with LTSSM 4 below the width trained and 3 at it, and
a width that is none, or beyond it, changes nothing. Lane margining changes nothing (the model's reading: no state of the manual shows it). -/
def Obligations.PortRegistersFollowPinsAndEvents : Prop :=
  (∀ (s : State) (n : Phys) (v : Word), fieldGet v 0 2 ≠ s.shape n.val → s.modeRefused n.val (fieldGet v 0 2) = true →
    Completes (.cfgModeWrite n v) s (fun t => t.getF (Fld.portCfgRefused n.val) = 1 ∧ RegsOnly s t [Fld.portCfgRefused n.val])) ∧
  (∀ (s : State) (n : Phys) (v : Word), fieldGet v 0 2 = s.shape n.val →
    Completes (.cfgModeWrite n v) s (fun t =>
      t.getF (Fld.portCfgRefused n.val) = (if fieldGet v 2 1 = 1 then 0 else s.getF (Fld.portCfgRefused n.val)) ∧
      RegsOnly s t [Fld.portCfgRefused n.val])) ∧
  (∀ (s : State) (lp : Lp) (v : Word), s.lpExists lp.val = false → exec (.lpCtlWrite lp v) s = .next s) ∧
  (∀ (s : State) (lp : Lp) (v : Word), s.lpExists lp.val = true → s.lpCtlRefused lp.val v = true →
    Completes (.lpCtlWrite lp v) s (fun t =>
      t.getF (Fld.portCfgRefused (lp.val / 2)) = 1 ∧ RegsOnly s t [Fld.portCfgRefused (lp.val / 2)])) ∧
  (∀ (s : State) (n : Phys),
    Completes (.perstAssert n) s (fun t => t.getF (Fld.portPinStatPerst n.val) = 1 ∧
      ∀ k, k = 2 * n.val ∨ k = 2 * n.val + 1 → s.lpExists k = true →
        t.dllUp k = false ∧ [0, 6, 7].contains (t.getF (Fld.portLpStatLtssm k)) = true ∧
        (s.role k ≠ 1 → t.getF (Fld.portLpStatLtssm k) = 0) ∧
        (s.dllUp k = true → t.getF (Fld.portLpEvtLinkdown k) = 1 ∧ t.getF (Fld.portLpDropStatBusy k) = 1 ∧ (t.lnk k).dropAt = some s.tick))) ∧
  (∀ (s : State) (n : Phys),
    Completes (.perstDeassert n) s (fun t => t.getF (Fld.portPinStatPerst n.val) = 0 ∧ RegsOnly s t [Fld.portPinStatPerst n.val])) ∧
  (∀ (s : State) (lp : Lp), s.aonPast (s.lnk lp.val).refuseAt (250000 * s.getF (Fld.portLpTrainRetryMs lp.val)) = true →
    Completes (.flitModeRetry lp) s (fun t => t.lnk lp.val = { s.lnk lp.val with refused := false } ∧
      (∀ k, k ≠ lp.val → t.lnk k = s.lnk k) ∧ t = { s with link := { s.link with links := t.link.links } })) ∧
  (∀ (s : State) (lp : Lp), s.aonPast (s.lnk lp.val).refuseAt (250000 * s.getF (Fld.portLpTrainRetryMs lp.val)) = false →
    exec (.flitModeRetry lp) s = .next s) ∧
  (∀ s : State, s.getF Fld.cprStartStep = 7 → s.link.released = false → s.mayRelease = true →
    Completes .upstreamRelease s (fun t => t.link.released = true ∧
      ∀ l ∈ s.cfg.ports, l < 64 → s.isRole l 0 = true → t.getF (Fld.portLpCtlEnable l) = 1)) ∧
  (∀ s : State, s.getF Fld.cprStartStep ≠ 7 ∨ s.link.released = true → exec .upstreamRelease s = .next s) ∧
  (∀ (s : State) (lp : Lp), s.lpExists lp.val = true → s.getF (Fld.portLpStatPresent lp.val) = 0 →
    Completes (.presenceChange lp true) s (fun t =>
      t.getF (Fld.portLpStatPresent lp.val) = 1 ∧ t.getF (Fld.portLpEvtPresence lp.val) = 1 ∧ t.dllUp lp.val = s.dllUp lp.val)) ∧
  (∀ (s : State) (lp : Lp), s.lpExists lp.val = true → s.getF (Fld.portLpStatPresent lp.val) = 1 →
    Completes (.presenceChange lp false) s (fun t =>
      t.getF (Fld.portLpStatPresent lp.val) = 0 ∧ t.getF (Fld.portLpEvtPresence lp.val) = 1 ∧ t.dllUp lp.val = false ∧
      (s.dllUp lp.val = true → t.getF (Fld.portLpEvtLinkdown lp.val) = 1 ∧ t.getF (Fld.portLpDropStatBusy lp.val) = 1))) ∧
  (∀ (s : State) (lp : Lp), s.isRole lp.val 1 = true →
    Completes (.dpcTrigger lp) s (fun t => t.getF (Fld.portLpStatDpc lp.val) = 1 ∧ t.dllUp lp.val = false ∧
      (s.dllUp lp.val = true → t.getF (Fld.portLpEvtLinkdown lp.val) = 1 ∧ t.getF (Fld.portLpDropStatBusy lp.val) = 1))) ∧
  (∀ (s : State) (lp : Lp), s.isRole lp.val 1 = false → exec (.dpcTrigger lp) s = .next s) ∧
  (∀ (s : State) (lp : Lp) (w : Fin 17), s.inL0 lp.val = true → [1, 2, 4, 8, 16].contains w.val = true → w.val ≤ (s.lnk lp.val).width →
    Completes (.l0pWidthChange lp w) s (fun t => t.getF (Fld.portLpStatWidth lp.val) = w.val ∧
      t.getF (Fld.portLpStatLtssm lp.val) = (if w.val = (s.lnk lp.val).width then 3 else 4) ∧
      RegsOnly s t [Fld.portLpStatWidth lp.val, Fld.portLpStatLtssm lp.val])) ∧
  (∀ (s : State) (lp : Lp) (w : Fin 17), s.inL0 lp.val = false ∨ [1, 2, 4, 8, 16].contains w.val = false ∨ (s.lnk lp.val).width < w.val →
    exec (.l0pWidthChange lp w) s = .next s) ∧
  (∀ (s : State) (lp : Lp) (lane : Fin 16), exec (.laneMargining lp lane) s = .next s)

/-- Links come up, go down and take their shape (R33, R37, R38, R39, R50, R52, R53, R58, R74, R274). A port that may train, with a partner in
flit mode and a width it accepts, comes up from Detect in L0 (LTSSM 3), at the lower rate and the narrowest width, its wire gate full; one whose
partner lacks flit mode, or trains below MIN_WIDTH, is refused and shows it. A Recovery (LTSSM 5) that ends at a width the port accepts is in L0
again, where no vPPB holds the link and no containment waits. A link that is up goes down in this tick: DLL_UP falls, SPEED and WIDTH are 0, LTSSM is
Detect, or where a vPPB holds the link (log 20), with EVT set and BUSY until its handling ends; every other port's LP_STAT stays. A link that is not
up does not go down. An accepted write of LP_CTL takes its fields, and one that disables a port whose link is up takes the link down. An accepted shape shows in
CFG of its port, and of the odd port that x16 takes or leaves, and MIN_WIDTH of each logical port of the new shape is its full width. -/
def Obligations.LinksComeUpGoDownAndTakeTheirShape : Prop :=
  (∀ (s : State) (lp : Lp) (speed : Fin 7) (width : Fin 17), [1, 2, 4, 8, 16].contains width.val = true → 0 < speed.val →
    s.dllUp lp.val = false → s.mayTrain lp.val = true →
    s.minWidth lp.val ≤ min (min width.val (shapeWidth (s.shape (lp.val / 2)))) ((s.lnk lp.val).maxW.getD 16) →
    Completes (.linkUp lp speed width true) s (fun t =>
      t.getF (Fld.portLpStatDllUp lp.val) = 1 ∧ t.getF (Fld.portLpStatPresent lp.val) = 1 ∧ t.getF (Fld.portLpStatLtssm lp.val) = 3 ∧
      t.getF (Fld.portLpStatSpeed lp.val) = min speed.val (s.maxSpeed lp.val) ∧
      t.getF (Fld.portLpStatWidth lp.val) = min (min width.val (shapeWidth (s.shape (lp.val / 2)))) ((s.lnk lp.val).maxW.getD 16) ∧
      t.wire lp.val = 512)) ∧
  (∀ (s : State) (lp : Lp) (speed : Fin 7) (width : Fin 17) (flit : Bool), [1, 2, 4, 8, 16].contains width.val = true → 0 < speed.val →
    s.dllUp lp.val = false → s.mayTrain lp.val = true →
    flit = false ∨ min (min width.val (shapeWidth (s.shape (lp.val / 2)))) ((s.lnk lp.val).maxW.getD 16) < s.minWidth lp.val →
    Completes (.linkUp lp speed width flit) s (fun t =>
      t.getF (if flit then Fld.portLpEvtNarrow lp.val else Fld.portLpEvtNoflit lp.val) = 1 ∧ t.getF (Fld.portLpStatLtssm lp.val) = 0 ∧
      t.lnk lp.val = { s.lnk lp.val with refused := true, refuseAt := s.tick } ∧ (∀ k, k ≠ lp.val → t.lnk k = s.lnk k) ∧
      OnlyFields s t [if flit then Fld.portLpEvtNarrow lp.val else Fld.portLpEvtNoflit lp.val, Fld.portLpStatLtssm lp.val] ∧
      t = { s with regs := t.regs, link := { s.link with links := t.link.links } })) ∧
  (∀ (s : State) (lp : Lp) (speed : Fin 7) (width : Fin 17) (flit : Bool), [1, 2, 4, 8, 16].contains width.val = true → 0 < speed.val →
    s.dllUp lp.val = true → s.getF (Fld.portLpStatLtssm lp.val) = 5 →
    s.minWidth lp.val ≤ min (min width.val (shapeWidth (s.shape (lp.val / 2)))) ((s.lnk lp.val).maxW.getD 16) →
    (s.isRole lp.val 1 = true → (s.lnk lp.val).trigDue = false ∧ s.vppbHold lp.val = none) →
    Completes (.linkUp lp speed width flit) s (fun t =>
      t.dllUp lp.val = true ∧ t.getF (Fld.portLpStatLtssm lp.val) = 3 ∧
      t.getF (Fld.portLpStatSpeed lp.val) = min speed.val (s.maxSpeed lp.val) ∧
      t.getF (Fld.portLpStatWidth lp.val) = min (min width.val (shapeWidth (s.shape (lp.val / 2)))) ((s.lnk lp.val).maxW.getD 16) ∧
      t.wire lp.val = 512)) ∧
  (∀ (s : State) (lp : Lp) (c : DownCause), s.dllUp lp.val = true →
    Completes (.linkDown lp c) s (fun t =>
      t.dllUp lp.val = false ∧ t.getF (Fld.portLpStatLtssm lp.val) = s.restState lp.val ∧
      t.getF (Fld.portLpStatSpeed lp.val) = 0 ∧ t.getF (Fld.portLpStatWidth lp.val) = 0 ∧ t.getF (Fld.portLpEvtLinkdown lp.val) = 1 ∧
      t.getF (Fld.portLpDropStatBusy lp.val) = 1 ∧ (t.lnk lp.val).dropAt = some s.tick ∧
      ∀ k, k < 64 → k ≠ lp.val → t.rd (Reg.portLpStat k) = s.rd (Reg.portLpStat k))) ∧
  (∀ (s : State) (lp : Lp) (c : DownCause), s.dllUp lp.val = false → exec (.linkDown lp c) s = .next s) ∧
  (∀ (s : State) (lp : Lp) (v : Word), s.lpExists lp.val = true → s.lpCtlRefused lp.val v = false →
    Completes (.lpCtlWrite lp v) s (fun t =>
      t.getF (Fld.portLpCtlEnable lp.val) = fieldGet v 0 1 ∧ t.getF (Fld.portLpCtlRole lp.val) = fieldGet v 1 2 ∧
      t.getF (Fld.portLpCtlStewardEp lp.val) = fieldGet v 3 1 ∧
      (∀ k, k < 64 → k ≠ lp.val → t.rd (Reg.portLpCtl k) = s.rd (Reg.portLpCtl k)) ∧
      (s.getF (Fld.portLpCtlEnable lp.val) = 1 → fieldGet v 0 1 = 0 → s.dllUp lp.val = true →
        t.dllUp lp.val = false ∧ t.getF (Fld.portLpEvtLinkdown lp.val) = 1 ∧ t.getF (Fld.portLpDropStatBusy lp.val) = 1))) ∧
  (∀ (s : State) (n : Phys) (v : Word), fieldGet v 0 2 ≠ s.shape n.val → s.modeRefused n.val (fieldGet v 0 2) = false →
    Completes (.cfgModeWrite n v) s (fun t => t.shape n.val = fieldGet v 0 2 ∧
      (fieldGet v 0 2 = 2 → t.shape (n.val + 1) = 3) ∧ (s.shape n.val = 2 → n.val % 2 = 0 → t.shape (n.val + 1) = 0) ∧
      ∀ l ∈ s.affected n.val (fieldGet v 0 2), t.lpExists l = true → t.getF (Fld.portLpTrainMinWidth l) = shapeWidth (t.shape (l / 2))))

/-- The end of a link drop, and suspect pages (R74, R76, R77, R79). When the handling ends BUSY clears, and source 0x02 is raised for the tick
in which the link fell, with the reads poisoned and the writes lost. A suspect entry named is freed; the pages of one port, and the mark of
the port whole, are cleared together. -/
def Obligations.LinkDropsEndAndSuspectsClear : Prop :=
  (∀ (s : State) (lp : Lp) (d : Nat), (s.lnk lp.val).dropAt = some d → (s.lnk lp.val).dropDue = false →
    Completes (.linkDropEnd lp) s (fun t =>
      t.getF (Fld.portLpDropStatBusy lp.val) = 0 ∧ (t.lnk lp.val).dropAt = none ∧ (∀ k, k ≠ lp.val → t.lnk k = s.lnk k) ∧
      t.flt = { s.flt with tickEvents := s.flt.tickEvents ++
        [{ src := 0x02, tick := d, lp := some lp.val, d0 := (s.lnk lp.val).ends.1, d1 := (s.lnk lp.val).ends.2 }] } ∧
      OnlyFields s t [Fld.portLpDropStatBusy lp.val] ∧
      t = { s with regs := t.regs, flt := t.flt, link := { s.link with links := t.link.links } })) ∧
  (∀ s : State,
    Completes .suspectClrOne s (fun t =>
      t.suspect (s.getF Fld.portSuspectIdxEntry) = none ∧
      (∀ k, k ≠ s.getF Fld.portSuspectIdxEntry → t.suspect k = s.suspect k) ∧
      t.getF Fld.portSuspectStatCount = t.link.suspects.length % 2 ^ 13 ∧ OnlyFields s t [Fld.portSuspectStatCount] ∧
      t = { s with regs := t.regs, link := { s.link with suspects := t.link.suspects } })) ∧
  (∀ (s : State) (lp : Lp),
    Completes (.suspectClrAll lp) s (fun t =>
      t.link.suspects = s.link.suspects.filter (fun e => decide (e.2.map (·.2) ≠ some lp.val)) ∧
      t.portSuspect lp.val = false ∧ t.getF Fld.portSuspectStatCount = t.link.suspects.length % 2 ^ 13 ∧
      OnlyFields s t [Fld.portSuspectStatCount, Fld.portLpDropStatPortSuspect lp.val] ∧
      t = { s with regs := t.regs, link := { s.link with suspects := t.link.suspects } }))

/-- Acknowledgements, NAKs, credit counts and replay (R57, R62, R64, R66). An ACK of a flit not yet acknowledged moves A past it, and
another is counted in BADLINK. A NAK of the next flit to send acknowledges every flit, one of a kept flit frees those before it and sends
the rest again, unless A has not advanced over four such resends, and one outside the kept flits is counted. A count that moves LIMIT forward
sets it, one behind it changes nothing. When A has not advanced for the timeout the flits from A are sent again, four times; then, with no
sparing in progress and Recoveries to spare, the link goes to Recovery. A link not in L0 takes none of these. -/
def Obligations.AcknowledgementsCreditsAndReplay : Prop :=
  (∀ (s : State) (lp : Lp) (q : Fin 4096), s.inL0 lp.val = true →
    (q.val + s.seqMod lp.val - (s.lnk lp.val).tfl.a % s.seqMod lp.val) % s.seqMod lp.val < s.unacked lp.val →
    Completes (.tflAck lp q) s (fun t => LnkOnly s t lp.val { s.lnk lp.val with
      tfl := (s.lnk lp.val).tfl.advance (s.seqMod lp.val) ((q.val + 1) % s.seqMod lp.val) s.tick } ∧
      (t.lnk lp.val).tfl.a = (q.val + 1) % s.seqMod lp.val)) ∧
  (∀ (s : State) (lp : Lp) (q : Fin 4096), s.inL0 lp.val = true →
    s.unacked lp.val ≤ (q.val + s.seqMod lp.val - (s.lnk lp.val).tfl.a % s.seqMod lp.val) % s.seqMod lp.val →
    Completes (.tflAck lp q) s (fun t => RegsOnly s t [Fld.portLpCrcCntBadlink lp.val] ∧
      t.getF (Fld.portLpCrcCntBadlink lp.val) =
        min (s.getF (Fld.portLpCrcCntBadlink lp.val) + 1) (2 ^ (Fld.portLpCrcCntBadlink lp.val).width - 1))) ∧
  (∀ (s : State) (lp : Lp) (e : Fin 4096), s.inL0 lp.val = true → e.val < s.seqMod lp.val → (s.lnk lp.val).tfl.n = e.val →
    (s.lnk lp.val).tfl.a < s.seqMod lp.val →
    Completes (.tflNak lp e) s (fun t => LnkOnly s t lp.val { s.lnk lp.val with
      tfl := (s.lnk lp.val).tfl.advance (s.seqMod lp.val) e.val s.tick } ∧ (t.lnk lp.val).tfl.a = e.val ∧ t.unacked lp.val = 0)) ∧
  (∀ (s : State) (lp : Lp) (e : Fin 4096), s.inL0 lp.val = true → e.val < s.seqMod lp.val →
    (e.val + s.seqMod lp.val - (s.lnk lp.val).tfl.a % s.seqMod lp.val) % s.seqMod lp.val < s.unacked lp.val →
    ((s.lnk lp.val).tfl.a = e.val → (s.lnk lp.val).tfl.tries < 4) →
    Completes (.tflNak lp e) s (fun t =>
      t.out = .resend lp.val e.val :: s.out ∧ (t.lnk lp.val).tfl.a = e.val ∧ (t.lnk lp.val).tfl.replay = some e.val ∧
      (t.lnk lp.val).tfl.tries = (if (s.lnk lp.val).tfl.a = e.val then (s.lnk lp.val).tfl.tries + 1 else 1) ∧
      (∀ k, k ≠ lp.val → t.lnk k = s.lnk k) ∧ OnlyFields s t [Fld.portLpReplayCntReplay lp.val] ∧
      t = { s with regs := t.regs, out := t.out, link := { s.link with links := t.link.links } })) ∧
  (∀ (s : State) (lp : Lp) (e : Fin 4096), s.inL0 lp.val = true →
    s.unacked lp.val < (e.val + s.seqMod lp.val - (s.lnk lp.val).tfl.a % s.seqMod lp.val) % s.seqMod lp.val →
    Completes (.tflNak lp e) s (fun t => RegsOnly s t [Fld.portLpCrcCntBadlink lp.val] ∧
      t.getF (Fld.portLpCrcCntBadlink lp.val) =
        min (s.getF (Fld.portLpCrcCntBadlink lp.val) + 1) (2 ^ (Fld.portLpCrcCntBadlink lp.val).width - 1))) ∧
  (∀ (s : State) (lp : Lp) (cls : Fin 7) (v : Word), s.inL0 lp.val = true →
    (v - (s.credit lp.val cls.val).limit).toNat < 2 ^ 31 → (v - (s.credit lp.val cls.val).cons).toNat ≤ 2 ^ 24 →
    Completes (.tflCredit lp cls v) s (fun t =>
      t.credit lp.val cls.val = { s.credit lp.val cls.val with limit := v, first := true } ∧
      (∀ m k, k < 8 → (m ≠ lp.val ∨ k ≠ cls.val) → t.credit m k = s.credit m k) ∧
      t = { s with link := { s.link with credit := t.link.credit } })) ∧
  (∀ (s : State) (lp : Lp) (cls : Fin 7) (v : Word), s.inL0 lp.val = true →
    2 ^ 31 ≤ (v - (s.credit lp.val cls.val).limit).toNat → exec (.tflCredit lp cls v) s = .next s) ∧
  (∀ (s : State) (lp : Lp), s.inL0 lp.val = true → 0 < s.unacked lp.val →
    (s.lnk lp.val).tfl.stall + s.replayTmo lp.val ≤ s.tick → (s.lnk lp.val).tfl.tries < 4 →
    Completes (.replayTimeout lp) s (fun t =>
      t.out = .resend lp.val (s.lnk lp.val).tfl.a :: s.out ∧
      t.lnk lp.val = { s.lnk lp.val with tfl := { (s.lnk lp.val).tfl with tries := (s.lnk lp.val).tfl.tries + 1, replay := some (s.lnk lp.val).tfl.a, stall := s.tick } } ∧
      (∀ k, k ≠ lp.val → t.lnk k = s.lnk k) ∧ OnlyFields s t [Fld.portLpReplayCntReplay lp.val] ∧
      t = { s with regs := t.regs, out := t.out, link := { s.link with links := t.link.links } })) ∧
  (∀ (s : State) (lp : Lp), s.inL0 lp.val = true → 0 < s.unacked lp.val →
    (s.lnk lp.val).tfl.stall + s.replayTmo lp.val ≤ s.tick → 4 ≤ (s.lnk lp.val).tfl.tries → s.sparing lp.val = false →
    (s.lnk lp.val).recov + 1 < max 1 (s.getF (Fld.portLpRelCtlRecovMax lp.val)) →
    Completes (.replayTimeout lp) s (fun t =>
      t.getF (Fld.portLpStatLtssm lp.val) = 5 ∧
      t.lnk lp.val = { s.lnk lp.val with
        recov := (s.lnk lp.val).recov + 1, tfl := { (s.lnk lp.val).tfl with tries := 0, stall := s.tick } } ∧
      (∀ k, k ≠ lp.val → t.lnk k = s.lnk k) ∧
      OnlyFields s t [Fld.portLpStatLtssm lp.val, Fld.portLpStatSpeed lp.val, Fld.portLpStatWidth lp.val, Fld.portLpReplayCntRecov lp.val] ∧
      t = { s with regs := t.regs, link := { s.link with links := t.link.links } })) ∧
  (∀ (s : State) (lp : Lp) (q : Fin 4096), s.inL0 lp.val = false →
    exec (.tflAck lp q) s = .next s ∧ exec (.tflNak lp q) s = .next s ∧ exec (.replayTimeout lp) s = .next s ∧
    ∀ (cls : Fin 7) (v : Word), exec (.tflCredit lp cls v) s = .next s)

/-- Lane sparing (R33, R68, R69, R71, R72, R73; log 38 names what the model chose). A failing lane of a port in L0, sparing enabled, the partner taking part and the
receive spare of the lane's half in standby, takes the spare, and SPARE_REQ is due; a software start does the same. Where one of these is
missing, and the spare is not LP(2n)'s to take from the half that started in the same tick, the port goes to Recovery at the next narrower
width, or down with NARROW where MIN_WIDTH forbids it or Recoveries are used up. The T-side wakes its transmit spare at SPARE_REQ where it is
free, or LP(2n)'s in the tick in which the other half took it; SPARE_ACK is due when it drives its copy; the R-side's comparison starts at
SPARE_ACK; when it passes, the spare is in service and SPARE_DONE is due, on a standard link with a Recovery; when it fails, SPARE_REQ is due
again, and at the third failure SPARE_ABORT, the pair back in standby. SPARE_DONE puts the transmit spare in service. SPARE_ABORT returns the
pairs that work on its lane to standby. A lane whose exchange runs is not found again, and an item that no exchange waits for changes nothing.
A standard partner in L0 takes part from its DLLP on. -/
def Obligations.LanesAreSpared : Prop :=
  (∀ (s : State) (lp : Lp) (lane : Fin 16) (c : Instr), (c = .laneFailing lp lane ∨ c = .spareCmd lp lane) →
    s.getF (Fld.portLpStatLtssm lp.val) = 3 → lane.val < (s.lnk lp.val).width → s.getF (Fld.portLpRelCtlSpareEn lp.val) = 1 →
    s.sparePartner lp.val = true → s.spareFree lp.val (fun l => (spareFds l lane.val).1.1) = true →
    Completes c s (fun t =>
      t.getF (spareFds lp.val lane.val).1.1 = 1 ∧ t.getF (spareFds lp.val lane.val).1.2 = lane.val ∧
      t.lnk lp.val = { s.lnk lp.val with
        cmp := none, rxAt := some s.tick, fails := Tbl.set (fun _ => 0) (s.lnk lp.val).fails lane.val 0,
        spareDue := (s.lnk lp.val).spareDue ++ (if s.role lp.val = 2 then [(3, lane.val)] else []) } ∧
      t.out = (if s.role lp.val = 2 then s.out else .dllp lp.val 3 lane.val :: s.out) ∧
      (∀ k, k ≠ lp.val → t.lnk k = s.lnk k) ∧
      OnlyFields s t [(spareFds lp.val lane.val).1.1, (spareFds lp.val lane.val).1.2] ∧
      t = { s with regs := t.regs, out := t.out, link := { s.link with links := t.link.links } })) ∧
  (∀ (s : State) (lp : Lp) (lane : Fin 16) (c : Instr), (c = .laneFailing lp lane ∨ c = .spareCmd lp lane) →
    s.getF (Fld.portLpStatLtssm lp.val) = 3 → lane.val < (s.lnk lp.val).width → s.getF (Fld.portLpRelCtlSpareEn lp.val) = 1 →
    s.sparePartner lp.val = true → inStandby (s.getF (spareFds lp.val lane.val).1.1) = true →
    s.yields lp.val (fun l => (spareFds l lane.val).1.1) Link.rxAt = true →
    Completes c s (fun t =>
      t.getF (spareFds lp.val lane.val).1.1 = 1 ∧ t.getF (spareFds lp.val lane.val).1.2 = lane.val)) ∧
  (∀ (s : State) (lp : Lp) (lane : Fin 16) (c : Instr), (c = .laneFailing lp lane ∨ c = .spareCmd lp lane) →
    s.inL0 lp.val = true → lane.val < (s.lnk lp.val).width → s.pairOn (spareFds lp.val lane.val).1 lane.val = false →
    (s.getF (Fld.portLpRelCtlSpareEn lp.val) ≠ 1 ∨ s.sparePartner lp.val = false ∨ s.getF (Fld.portLpStatLtssm lp.val) ≠ 3 ∨
      (s.spareFree lp.val (fun l => (spareFds l lane.val).1.1) = false ∧
        (inStandby (s.getF (spareFds lp.val lane.val).1.1) = false ∨
          s.yields lp.val (fun l => (spareFds l lane.val).1.1) Link.rxAt = false))) →
    (s.minWidth lp.val ≤ narrower (s.lnk lp.val).width →
      (s.lnk lp.val).recov + 1 < max 1 (s.getF (Fld.portLpRelCtlRecovMax lp.val)) →
      Completes c s (fun t =>
        t.getF (Fld.portLpStatLtssm lp.val) = 5 ∧
        t.lnk lp.val = { s.lnk lp.val with maxW := some (narrower (s.lnk lp.val).width), recov := (s.lnk lp.val).recov + 1 } ∧
        (∀ k, k ≠ lp.val → t.lnk k = s.lnk k) ∧
        OnlyFields s t [Fld.portLpStatLtssm lp.val, Fld.portLpStatSpeed lp.val, Fld.portLpStatWidth lp.val,
          Fld.portLpReplayCntRecov lp.val] ∧
        t = { s with regs := t.regs, link := { s.link with links := t.link.links } })) ∧
    (narrower (s.lnk lp.val).width < s.minWidth lp.val ∨
      max 1 (s.getF (Fld.portLpRelCtlRecovMax lp.val)) ≤ (s.lnk lp.val).recov + 1 →
      Completes c s (fun t => t.dllUp lp.val = false ∧
        (narrower (s.lnk lp.val).width < s.minWidth lp.val → t.getF (Fld.portLpEvtNarrow lp.val) = 1)))) ∧
  (∀ (s : State) (lp : Lp) (lane : Fin 16) (c : Instr), (c = .laneFailing lp lane ∨ c = .spareCmd lp lane) →
    s.inL0 lp.val = false ∨ (s.lnk lp.val).width ≤ lane.val ∨ s.pairOn (spareFds lp.val lane.val).1 lane.val = true →
    exec c s = .next s) ∧
  (∀ (s : State) (lp : Lp) (lane : Fin 16), s.spareRuns lp.val = true → s.spareFree lp.val (fun l => (spareFds l lane.val).2.1) = true →
    Completes (.spareReq lp lane) s (fun t =>
      t.getF (spareFds lp.val lane.val).2.1 = 1 ∧ t.getF (spareFds lp.val lane.val).2.2 = lane.val ∧
      t.lnk lp.val = { s.lnk lp.val with txAt := some s.tick } ∧ (∀ k, k ≠ lp.val → t.lnk k = s.lnk k) ∧
      OnlyFields s t [(spareFds lp.val lane.val).2.1, (spareFds lp.val lane.val).2.2] ∧
      t = { s with regs := t.regs, link := { s.link with links := t.link.links } })) ∧
  (∀ (s : State) (lp : Lp) (lane : Fin 16), s.spareRuns lp.val = true →
    s.spareFree lp.val (fun l => (spareFds l lane.val).2.1) = false → inStandby (s.getF (spareFds lp.val lane.val).2.1) = true →
    s.yields lp.val (fun l => (spareFds l lane.val).2.1) Link.txAt = true →
    Completes (.spareReq lp lane) s (fun t =>
      t.getF (spareFds lp.val lane.val).2.1 = 1 ∧ t.getF (spareFds lp.val lane.val).2.2 = lane.val ∧
      t.getF (spareFds (otherHalf lp.val) lane.val).2.1 = 0)) ∧
  (∀ (s : State) (lp : Lp) (lane : Fin 16), s.spareRuns lp.val = false ∨ (s.spareFree lp.val (fun l => (spareFds l lane.val).2.1) = false ∧
      (inStandby (s.getF (spareFds lp.val lane.val).2.1) = false ∨
        s.yields lp.val (fun l => (spareFds l lane.val).2.1) Link.txAt = false)) →
    exec (.spareReq lp lane) s = .next s) ∧
  (∀ (s : State) (lp : Lp) (lane : Fin 16), s.spareRuns lp.val = true → s.pairOn (spareFds lp.val lane.val).2 lane.val = true →
    Completes (.spareEqDone lp lane) s (fun t => SpareItem s t lp.val 4 lane.val (s.lnk lp.val))) ∧
  (∀ (s : State) (lp : Lp) (lane : Fin 16), s.spareRuns lp.val = true → s.pairOn (spareFds lp.val lane.val).1 lane.val = true →
    Completes (.spareAck lp lane) s (fun t => LnkOnly s t lp.val { s.lnk lp.val with cmp := some lane.val })) ∧
  (∀ (s : State) (lp : Lp) (lane : Fin 16), s.spareRuns lp.val = true → s.pairOn (spareFds lp.val lane.val).1 lane.val = true →
    (s.lnk lp.val).cmp = some lane.val →
    (s.role lp.val = 2 → Completes (.spareCompareDone lp lane true) s (fun t =>
      t.getF (spareFds lp.val lane.val).1.1 = 2 ∧
      t.lnk lp.val = { s.lnk lp.val with cmp := none, spareDue := (s.lnk lp.val).spareDue ++ [(5, lane.val)] } ∧
      (∀ k, k ≠ lp.val → t.lnk k = s.lnk k) ∧ OnlyFields s t [(spareFds lp.val lane.val).1.1] ∧
      t = { s with regs := t.regs, link := { s.link with links := t.link.links } })) ∧
    (s.role lp.val ≠ 2 → (s.lnk lp.val).recov + 1 < max 1 (s.getF (Fld.portLpRelCtlRecovMax lp.val)) →
      Completes (.spareCompareDone lp lane true) s (fun t =>
        t.getF (spareFds lp.val lane.val).1.1 = 2 ∧ t.getF (Fld.portLpStatLtssm lp.val) = 5 ∧ t.out = .dllp lp.val 5 lane.val :: s.out ∧
        t.lnk lp.val = { s.lnk lp.val with cmp := none, recov := (s.lnk lp.val).recov + 1 } ∧ (∀ k, k ≠ lp.val → t.lnk k = s.lnk k) ∧
        OnlyFields s t [(spareFds lp.val lane.val).1.1, Fld.portLpStatLtssm lp.val, Fld.portLpStatSpeed lp.val, Fld.portLpStatWidth lp.val,
          Fld.portLpReplayCntRecov lp.val] ∧
        t = { s with regs := t.regs, out := t.out, link := { s.link with links := t.link.links } })) ∧
    (Tbl.get (fun _ => 0) (s.lnk lp.val).fails lane.val < 2 →
      Completes (.spareCompareDone lp lane false) s (fun t => SpareItem s t lp.val 3 lane.val { s.lnk lp.val with
        cmp := none,
        fails := Tbl.set (fun _ => 0) (s.lnk lp.val).fails lane.val (Tbl.get (fun _ => 0) (s.lnk lp.val).fails lane.val + 1) })) ∧
    (2 ≤ Tbl.get (fun _ => 0) (s.lnk lp.val).fails lane.val →
      Completes (.spareCompareDone lp lane false) s (fun t =>
        inStandby (t.getF (spareFds lp.val lane.val).1.1) = true ∧ OnlyFields s t [(spareFds lp.val lane.val).1.1] ∧
        (if s.role lp.val = 2 then (t.lnk lp.val).spareDue = (s.lnk lp.val).spareDue ++ [(6, lane.val)]
          else t.out = .dllp lp.val 6 lane.val :: s.out)))) ∧
  (∀ (s : State) (lp : Lp) (lane : Fin 16), s.spareRuns lp.val = true → s.pairOn (spareFds lp.val lane.val).2 lane.val = true →
    Completes (.spareDone lp lane) s (fun t => RegsOnly s t [(spareFds lp.val lane.val).2.1] ∧ t.getF (spareFds lp.val lane.val).2.1 = 2)) ∧
  (∀ (s : State) (lp : Lp) (lane : Fin 16), s.dllUp lp.val = true →
    Completes (.spareAbort lp lane) s (fun t =>
      (s.pairOn (spareFds lp.val lane.val).1 lane.val = true →
        inStandby (t.getF (spareFds lp.val lane.val).1.1) = true ∧ t.lnk lp.val = { s.lnk lp.val with cmp := none }) ∧
      (s.pairOn (spareFds lp.val lane.val).2 lane.val = true → inStandby (t.getF (spareFds lp.val lane.val).2.1) = true) ∧
      (s.pairOn (spareFds lp.val lane.val).1 lane.val = false →
        t.getF (spareFds lp.val lane.val).1.1 = s.getF (spareFds lp.val lane.val).1.1 ∧ t.lnk lp.val = s.lnk lp.val) ∧
      (s.pairOn (spareFds lp.val lane.val).2 lane.val = false →
        t.getF (spareFds lp.val lane.val).2.1 = s.getF (spareFds lp.val lane.val).2.1) ∧
      (∀ k, k ≠ lp.val → t.lnk k = s.lnk k) ∧
      OnlyFields s t [(spareFds lp.val lane.val).1.1, (spareFds lp.val lane.val).2.1] ∧
      t = { s with regs := t.regs, link := { s.link with links := t.link.links } })) ∧
  (∀ (s : State) (lp : Lp) (lane : Fin 16) (pass : Bool),
    (s.spareRuns lp.val = false ∨ s.pairOn (spareFds lp.val lane.val).2 lane.val = false →
      exec (.spareEqDone lp lane) s = .next s ∧ exec (.spareDone lp lane) s = .next s) ∧
    (s.spareRuns lp.val = false ∨ s.pairOn (spareFds lp.val lane.val).1 lane.val = false → exec (.spareAck lp lane) s = .next s) ∧
    (s.spareRuns lp.val = false ∨ s.pairOn (spareFds lp.val lane.val).1 lane.val = false ∨ (s.lnk lp.val).cmp ≠ some lane.val →
      exec (.spareCompareDone lp lane pass) s = .next s) ∧
    (s.dllUp lp.val = false → exec (.spareAbort lp lane) s = .next s)) ∧
  (∀ (s : State) (lp : Lp), s.inL0 lp.val = true → s.role lp.val ≠ 2 →
    Completes (.haleusSparingDllp lp) s (fun t => LnkOnly s t lp.val { s.lnk lp.val with partner := true } ∧ t.sparePartner lp.val = true)) ∧
  (∀ (s : State) (lp : Lp), s.inL0 lp.val = false ∨ s.role lp.val = 2 → exec (.haleusSparingDllp lp) s = .next s)

/-- Signed commands (R289, R291 to R295, R313). The command that runs, accepted, has its effect once: a registered key in a used slot, a
retired slot, the lifecycle state DEPLOYED or RETURNED with zeroisation due (shown in a device that is fatal already, its meter closed), a
debug master open or closed; BUSY clears with RESULT 0. An instruction that drives the pins acts as BYPASS once DEPLOYED, or a debug master
closed, makes it unavailable (R314). One that fails changes nothing but its result. Either way NONCE is new: a free value
(log 7). A command with another code, or with none running, does nothing. -/
def Obligations.SignedCommandsTakeEffectOnce : Prop :=
  (∀ (s : State) (k : Nat) (c : Instr), [(1, Instr.addKey), (2, .retireKey), (3, .lcDeploy), (4, .lcReturn), (5, .debugUnlock), (6, .debugLock)].contains (k, c) = true →
    (s.getF Fld.securityCmdStatBusy ≠ 1 ∨ s.cmdCode ≠ k → exec c s = .next s) ∧
    (s.getF Fld.securityCmdStatBusy = 1 → s.cmdCode = k → s.cmdResult ≠ 0 →
      Completes c s (fun t => t.getF Fld.securityCmdStatBusy = 0 ∧ t.getF Fld.securityCmdStatResult = s.cmdResult ∧
        t.get64 Reg.securityNonceLo Reg.securityNonceHi = (Config.freeValue 64 s.freeCtr).toNat ∧ t.freeCtr = s.freeCtr + 1 ∧
        OnlyFields s t [Fld.securityCmdStatBusy, Fld.securityCmdStatResult, Fd.whole Reg.securityNonceLo, Fd.whole Reg.securityNonceHi] ∧
        t = { s with regs := t.regs, freeCtr := t.freeCtr }))) ∧
  (∀ (s : State) (f : Fd) (v k : Nat) (c : Instr),
    [(2, Instr.retireKey, (⟨Reg.securityKeyregRetired, (keyClass s.cmdArg.1).1 + s.cmdArg.2, 1⟩ : Fd), 1), (3, .lcDeploy, Fld.globalLifecycleState, 3),
     (5, .debugUnlock, Fld.securityDbgStatOpen, 1), (6, .debugLock, Fld.securityDbgStatOpen, 0)].contains (k, c, f, v) = true →
    s.getF Fld.securityCmdStatBusy = 1 → s.cmdCode = k → s.cmdResult = 0 →
    Completes c s (fun t => t.getF f = v ∧ t.getF Fld.securityCmdStatBusy = 0 ∧ t.getF Fld.securityCmdStatResult = 0 ∧
      OnlyFields s t [f, Fld.securityCmdStatBusy, Fld.securityCmdStatResult, Fd.whole Reg.securityNonceLo, Fd.whole Reg.securityNonceHi] ∧
      t.sec.jtag = (if (k = 3 ∨ k = 6) ∧ [JtagOp.extest, .clamp, .highz].contains s.sec.jtag = true ∧ t.pinTest = false then .bypass else s.sec.jtag) ∧
      t = { s with regs := t.regs, freeCtr := s.freeCtr + 1, sec := { s.sec with jtag := t.sec.jtag } })) ∧
  (∀ (s : State) (n : Nat), n = (keyClass s.cmdArg.1).1 + s.cmdArg.2 →
    s.getF Fld.securityCmdStatBusy = 1 → s.cmdCode = 1 → s.cmdResult = 0 →
    Completes .addKey s (fun t => t.keyUsed n = true ∧ Tbl.get (fun _ => []) t.sec.keys n = bytesAt s.cmdBytes 0x20 97 ∧
      (∀ m, m ≠ n → Tbl.get (fun _ => []) t.sec.keys m = Tbl.get (fun _ => []) s.sec.keys m) ∧
      t.getF Fld.securityCmdStatBusy = 0 ∧ t.getF Fld.securityCmdStatResult = 0 ∧
      OnlyFields s t [⟨Reg.securityKeyregUsed, n, 1⟩, Fld.securityCmdStatBusy, Fld.securityCmdStatResult, Fd.whole Reg.securityNonceLo, Fd.whole Reg.securityNonceHi] ∧
      t = { s with regs := t.regs, freeCtr := s.freeCtr + 1, sec := { s.sec with keys := t.sec.keys } })) ∧
  (∀ s : State, s.getF Fld.securityCmdStatBusy = 1 → s.cmdCode = 4 → s.cmdResult = 0 → s.getF Fld.faultStatFatal = 1 → s.mz.closed = true →
    Completes .lcReturn s (fun t => t.lifecycle = 4 ∧ t.sec.zeroDue = true ∧ t.getF Fld.securityCmdStatBusy = 0 ∧
      t.getF Fld.securityCmdStatResult = 0 ∧ t = { s with regs := t.regs, freeCtr := s.freeCtr + 1, sec := { s.sec with zeroDue := true } }))

/-- Zeroisation, debug, JTAG and link keys (R291, R304, R313 to R315). Zeroisation takes every link down, removes the key slots, sessions
and stream keys, and shows it. A debug master that is not open reaches nothing; an open one reads 0 from a locked address and its write there is lost, both recorded,
and writes any other register. IDCODE, BYPASS and SAMPLE take effect in every state, EXTEST, CLAMP and HIGHZ where the pin tests are
available, and as BYPASS elsewhere. A key set programmed is held; K_SET_GO to it makes the stream Secure in it and takes the mode, and to
the set in force, or to one without keys on a stream not Secure, it does nothing. -/
def Obligations.DebugJtagAndLinkKeys : Prop :=
  (∀ s : State, s.sec.zeroDue = true →
    Completes .zeroisationDone s (fun t => (∀ l, l < 64 → s.lpExists l = true → t.dllUp l = false) ∧ t.sec.kslots = [] ∧ t.sec.sessions = [] ∧ t.sec.gone = true ∧ t.sec.zeroDue = false ∧
      t.link.ide = [] ∧ t.getF Fld.securityDbgStatZeroised = 1 ∧ t.getF Fld.securitySpdmStatSessions = 0)) ∧
  (∀ s : State, s.sec.zeroDue = false → exec .zeroisationDone s = .next s) ∧
  (∀ (s : State) (a : Nat) (wr : Option Word), s.debugOpen = false → exec (.debugMasterAccess a wr) s = .next s) ∧
  (∀ (s : State) (a : Nat) (wr : Option Word), s.debugOpen = true → s.debugLocked a = true →
    Completes (.debugMasterAccess a wr) s (fun t =>
      t.out = (if wr.isSome then s.out else .jtag 0 :: s.out) ∧
      t.getF Fld.securityDbgStatDeny = min (s.getF Fld.securityDbgStatDeny + 1) 65535 ∧
      t.flt = { s.flt with tickEvents := s.flt.tickEvents ++ [{ src := 0x0B, tick := s.tick, addr := some (a, 3), d0 := bit wr.isSome }] } ∧
      OnlyFields s t [Fld.securityDbgStatDeny] ∧ t = { s with regs := t.regs, out := t.out, flt := t.flt })) ∧
  (∀ (s : State) (a : Nat) (v : Word), s.debugOpen = true → s.debugLocked a = false →
    Completes (.debugMasterAccess a (some v)) s (fun t => t = { s.regWrite a v with pending := s.pending, tick := s.tick })) ∧
  (∀ s : State, Completes .idcode s (fun t => t = { s with sec := { s.sec with jtag := .idcode }, out := .jtag 0x03288139 :: s.out })) ∧
  (∀ s : State, Completes .bypass s (fun t => t = { s with sec := { s.sec with jtag := .bypass } })) ∧
  (∀ s : State, Completes .samplePreload s (fun t => t = { s with
    sec := { s.sec with jtag := .sample }, freeCtr := s.freeCtr + 1, out := .jtag (Config.freeValue 32 s.freeCtr) :: s.out })) ∧
  (∀ (s : State) (c : Instr) (j : JtagOp), [(Instr.extest, JtagOp.extest), (.clamp, .clamp), (.highz, .highz)].contains (c, j) = true →
    Completes c s (fun t => t = { s with sec := { s.sec with jtag := if s.pinTest then j else .bypass } }) ∧
    (s.pinTest = true ↔ s.lifecycle = 0 ∨ s.lifecycle = 1 ∨ s.lifecycle = 4 ∨ s.lifecycle = 2 ∧ s.getF Fld.securityDbgStatOpen = 1)) ∧
  (∀ (s : State) (lp : Lp) (k : Bool), s.lpExists lp.val = true → s.role lp.val ≠ 2 →
    Completes (.ideKmKeyProg lp k) s (fun t => t.getF (Fld.securityIdeStatReqRole lp.val) = (if s.role lp.val = 1 then 1 else 0) ∧
      (t.ide lp.val).has k = true ∧ (t.ide lp.val).has (!k) = (s.ide lp.val).has (!k) ∧ (∀ m, m ≠ lp.val → t.ide m = s.ide m) ∧
      OnlyFields s t [Fld.securityIdeStatReqRole lp.val] ∧ t = { s with regs := t.regs, link := { s.link with ide := t.link.ide } })) ∧
  (∀ (s : State) (lp : Lp) (k : Bool), (s.ide lp.val).has k = true →
    (s.getF (Fld.securityIdeStatState lp.val) = 1 → s.getF (Fld.securityIdeStatKset lp.val) ≠ bit k) →
    Completes (.kSetGo lp k) s (fun t => t.getF (Fld.securityIdeStatState lp.val) = 1 ∧ t.getF (Fld.securityIdeStatKset lp.val) = bit k ∧
      t.ide lp.val = { s.ide lp.val with contain := decide (s.getF (Fld.securityIdeCtlMode lp.val) = 1) } ∧ (∀ m, m ≠ lp.val → t.ide m = s.ide m) ∧
      OnlyFields s t [Fld.securityIdeStatState lp.val, Fld.securityIdeStatKset lp.val] ∧
      t = { s with regs := t.regs, link := { s.link with ide := t.link.ide } })) ∧
  (∀ (s : State) (lp : Lp) (k : Bool),
    (s.getF (Fld.securityIdeStatState lp.val) = 1 ∧ s.getF (Fld.securityIdeStatKset lp.val) = bit k) ∨
      (s.getF (Fld.securityIdeStatState lp.val) ≠ 1 ∧ (s.ide lp.val).has k = false) → exec (.kSetGo lp k) s = .next s)

/-- The SPDM responder's answers (R296 to R299). An endpoint that does not exist answers nothing. VERSION names 1.2 and 1.3; CAPABILITIES
has CTExponent 17, and another version is a mismatch; the one suite is taken when offered; DIGESTS covers the slots that hold a chain; a slot's
chain is read, and a challenge answered with a signature by the identity key; measurements are counted, read one at a time or all; the
operator slots are certified over their endpoints alone; a request sent in chunks is gathered; any other request is unsupported. The bodies
that the standard lays out are not the manual's (log 10). -/
def Obligations.SpdmRequestsAreAnswered : Prop :=
  (∀ (s : State) (ep : SpdmEp) (slot : Fin 8) (v : BitVec 8) (b ok : Bool) (ix : Fin 256) (l : List Byte) (n sid : Nat) (fid : Fid) (pair : BitVec 512) (c : Instr),
    s.epThere ep = false →
    [.getVersion ep, .getCapabilities ep v, .negotiateAlgorithms ep b, .getDigests ep, .getCertificate ep slot, .challenge ep slot,
     .getMeasurements ep ix b, .keyExchange ep slot, .finish ep sid ok, .endSession ep sid, .heartbeat ep sid, .keyUpdate ep sid, .getCsr ep slot,
     .setCertificate ep slot l ok, .chunkSend ep l b, .chunkGet ep n, .spdmUnsupportedRequest ep v, .keyInject ep sid fid pair,
     .getTdispVersion ep sid fid, .getTdispCapabilities ep sid fid, .lockInterfaceRequest ep sid fid, .getDeviceInterfaceReport ep sid fid,
     .getDeviceInterfaceState ep sid fid, .startInterfaceRequest ep sid fid, .stopInterfaceRequest ep sid fid].contains c = true →
    exec c s = .next s) ∧
  (∀ (s : State) (ep : SpdmEp), s.epThere ep = true → Completes (.getVersion ep) s (fun t => Says s t ep 0x04 [0x12, 0x13])) ∧
  (∀ (s : State) (ep : SpdmEp) (v : BitVec 8), s.epThere ep = true → Completes (.getCapabilities ep v) s (fun t =>
    if v = 0x12 ∨ v = 0x13 then Says s t ep 0x61 (17 :: Config.standardBody 0 [v.toNat]) else Says s t ep 0x7F [65])) ∧
  (∀ (s : State) (ep : SpdmEp) (offered : Bool), s.epThere ep = true → Completes (.negotiateAlgorithms ep offered) s (fun t =>
    if offered then Says s t ep 0x63 (Config.standardBody 1 []) else Says s t ep 0x7F [1])) ∧
  (∀ (s : State) (ep : SpdmEp), s.epThere ep = true → Completes (.getDigests ep) s (fun t =>
    Says s t ep 0x01 (((List.range 3).filter s.hasChain).flatMap s.chainDigest))) ∧
  (∀ (s : State) (ep : SpdmEp) (slot : Fin 8), s.epThere ep = true → Completes (.getCertificate ep slot) s (fun t =>
    if s.hasChain slot.val then Says s t ep 0x02 (s.chain slot.val) else Says s t ep 0x7F [1])) ∧
  (∀ (s : State) (ep : SpdmEp) (slot : Fin 8), s.epThere ep = true → Completes (.challenge ep slot) s (fun t =>
    if s.hasChain slot.val = false then Says s t ep 0x7F [1]
    else if s.hasIdentity then Says s t ep 0x03 (s.chainDigest slot.val ++ bytesAt (Config.ecdsaSign 0 (s.chainDigest slot.val)) 0 96)
    else Says s t ep 0x7F [5])) ∧
  (∀ (s : State) (ep : SpdmEp) (ix : Fin 256), s.epThere ep = true → Completes (.getMeasurements ep ix false) s (fun t =>
    if ix.val = 0 then Says s t ep 0x60 [BitVec.ofNat 8 (indicesOf ep).length]
    else if ix.val = 0xFF then Says s t ep 0x60 ((indicesOf ep).flatMap (s.measurement ep))
    else if (indicesOf ep).contains ix.val then Says s t ep 0x60 (s.measurement ep ix.val) else Says s t ep 0x7F [1])) ∧
  (∀ (s : State) (ep : SpdmEp) (slot : Fin 8), s.epThere ep = true → Completes (.getCsr ep slot) s (fun t =>
    if operatorEp ep = false then Says s t ep 0x7F [7]
    else if slot.val = 1 ∨ slot.val = 2 then
      (if s.hasIdentity then Says s t ep 0x6D (Config.standardBody 2 [slot.val] ++ bytesAt (Config.ecdsaSign 0 (Config.standardBody 2 [slot.val])) 0 96)
       else Says s t ep 0x7F [5])
    else Says s t ep 0x7F [1])) ∧
  (∀ (s : State) (ep : SpdmEp) (slot : Fin 8) (chain : List Byte) (ok : Bool), s.epThere ep = true →
    Completes (.setCertificate ep slot chain ok) s (fun t =>
      if operatorEp ep = false then Says s t ep 0x7F [7]
      else if (slot.val = 1 ∨ slot.val = 2) ∧ ok = true ∧ chain.length ≤ 16384 then
        t.chain slot.val = chain ∧ Says { s with sec := { s.sec with certs := t.sec.certs } } t ep 0x6E [BitVec.ofNat 8 slot.val]
      else Says s t ep 0x7F [1])) ∧
  (∀ (s : State) (ep : SpdmEp) (bytes : List Byte) (last : Bool), s.epThere ep = true → (s.chunk ep ++ bytes).length ≤ 16384 →
    Completes (.chunkSend ep bytes last) s (fun t => t.chunk ep = (if last then [] else s.chunk ep ++ bytes) ∧
      Says { s with sec := { s.sec with chunks := t.sec.chunks } } t ep 0x05 (leBytes 2 (s.chunk ep ++ bytes).length))) ∧
  (∀ (s : State) (ep : SpdmEp) (n : Nat), s.epThere ep = true → Completes (.chunkGet ep n) s (fun t => ∃ b, t = { s with out := .spdm ep 0x06 b :: s.out })) ∧
  (∀ (s : State) (ep : SpdmEp) (v : BitVec 8), s.epThere ep = true → Completes (.spdmUnsupportedRequest ep v) s (fun t => Says s t ep 0x7F [7]))

/-- Sessions, key slots and TDISP (R298, R301, R303, R310 to R312). KEY_EXCHANGE opens the lowest free session, and none beyond 256; FINISH
completes it or ends it; a secured session answers HEARTBEAT and counts KEY_UPDATE; END_SESSION ends it, and a session unknown is an error. A
pair is injected where every condition holds, and nowhere else; an ERASING slot that nothing uses takes a fresh pair, a free value (log 7). A
TDISP request over a secured session of the function's port is answered: LOCK takes CONFIG_UNLOCKED to CONFIG_LOCKED, START takes that to RUN,
STOP goes back to CONFIG_UNLOCKED; in another state LOCK, START and the report are refused. -/
def Obligations.SessionsKeysAndInterfaces : Prop :=
  (∀ (s : State) (ep : SpdmEp) (slot : Fin 8), s.epThere ep = true → s.hasChain slot.val = true → s.hasIdentity = true →
    s.sec.sessions.length < 256 →
    Completes (.keyExchange ep slot) s (fun t =>
      t.sec.sessions = s.sec.sessions ++ [{ sid := s.freeSid, ep := epNo ep }] ∧
      t.getF Fld.securitySpdmStatSessions = s.sec.sessions.length + 1 ∧ OnlyFields s t [Fld.securitySpdmStatSessions] ∧
      (∃ b, t.out = .spdm ep 0x64 b :: s.out) ∧
      t = { s with regs := t.regs, freeCtr := s.freeCtr + 1, out := t.out, sec := { s.sec with sessions := t.sec.sessions, last := t.sec.last } })) ∧
  (∀ (s : State) (ep : SpdmEp) (slot : Fin 8), s.epThere ep = true → 256 ≤ s.sec.sessions.length →
    Completes (.keyExchange ep slot) s (fun t => Says s t ep 0x7F [10])) ∧
  (∀ (s : State) (ep : SpdmEp) (sid : Nat) (x : Session), s.epThere ep = true → s.session ep sid = some x →
    Completes (.finish ep sid true) s (fun t =>
      t.sec.sessions = s.sec.sessions.map (fun y => if y = x then { x with open_ := true } else y) ∧ OnlyFields s t [Fld.securitySpdmStatSessions] ∧
      t.out = .spdm ep 0x65 [] :: s.out) ∧
    Completes (.finish ep sid false) s (fun t =>
      t.sec.sessions = s.sec.sessions.filter (fun y => y ≠ x) ∧ OnlyFields s t [Fld.securitySpdmStatSessions] ∧ t.out = .spdm ep 0x7F [6] :: s.out) ∧
    Completes (.endSession ep sid) s (fun t =>
      t.sec.sessions = s.sec.sessions.filter (fun y => y ≠ x) ∧ OnlyFields s t [Fld.securitySpdmStatSessions] ∧ t.out = .spdm ep 0x6C [] :: s.out)) ∧
  (∀ (s : State) (ep : SpdmEp) (sid : Nat), s.epThere ep = true → s.session ep sid = none →
    Completes (.finish ep sid true) s (fun t => Says s t ep 0x7F [2]) ∧ Completes (.endSession ep sid) s (fun t => Says s t ep 0x7F [2]) ∧
    Completes (.heartbeat ep sid) s (fun t => Says s t ep 0x7F [2]) ∧ Completes (.keyUpdate ep sid) s (fun t => Says s t ep 0x7F [2])) ∧
  (∀ (s : State) (ep : SpdmEp) (sid : Nat), s.epThere ep = true → s.secured ep sid = true →
    Completes (.heartbeat ep sid) s (fun t => Says s t ep 0x68 []) ∧
    Completes (.keyUpdate ep sid) s (fun t =>
      t.sec.sessions = s.sec.sessions.map (fun y => if y.sid = sid ∧ y.ep = epNo ep then { y with updates := y.updates + 1 } else y) ∧
      OnlyFields s t [Fld.securitySpdmStatSessions] ∧ t.out = .spdm ep 0x69 [] :: s.out)) ∧
  (∀ (s : State) (ep : SpdmEp) (sid : Nat) (fid : Fid) (pair : BitVec 512), s.epThere ep = true →
    Completes (.keyInject ep sid fid pair) s (fun t =>
      if s.mayInject ep sid fid.val pair then
        t.kslot (s.getF (Fld.plotFnW0Plot fid.val)) = ⟨2, s.tick, pair⟩ ∧
        (∀ p, p ≠ s.getF (Fld.plotFnW0Plot fid.val) → t.kslot p = s.kslot p) ∧
        Says { s with sec := { s.sec with kslots := t.sec.kslots } } t ep 0x7E []
      else Says s t ep 0x7F [1])) ∧
  (∀ (s : State) (p : PlotNo), (s.kslot p.val).state = 3 → s.slotInUse p.val = false →
    Completes (.keySlotRegenerate p) s (fun t => t.kslot p.val = ⟨1, s.tick, Config.freeValue 512 s.freeCtr⟩ ∧
      (∀ k, k ≠ p.val → t.kslot k = s.kslot k) ∧
      t = { s with freeCtr := s.freeCtr + 1, sec := { s.sec with kslots := t.sec.kslots } })) ∧
  (∀ (s : State) (p : PlotNo), (s.kslot p.val).state ≠ 3 ∨ s.slotInUse p.val = true → exec (.keySlotRegenerate p) s = .next s) ∧
  (∀ (s : State) (ep : SpdmEp) (sid : Nat) (fid : Fid), s.epThere ep = true → s.onPort ep sid fid.val = true → s.assigned fid.val = true →
    Completes (.getTdispVersion ep sid fid) s (fun t => Says s t ep 0x7E [0x01, 0x10]) ∧
    Completes (.getTdispCapabilities ep sid fid) s (fun t => Says s t ep 0x7E (0x02 :: Config.standardBody 6 [])) ∧
    Completes (.getDeviceInterfaceState ep sid fid) s (fun t => Says s t ep 0x7E (0x05 :: leBytes 1 (s.tdi fid.val))) ∧
    Completes (.getDeviceInterfaceReport ep sid fid) s (fun t =>
      if s.tdi fid.val = 1 ∨ s.tdi fid.val = 2 then
        Says s t ep 0x7E (0x04 :: (Config.standardBody 7 [fid.val] ++ s.tenantRecord (fid.val / 64) fid.val))
      else Says s t ep 0x7E [0x7F, 4]) ∧
    Completes (.lockInterfaceRequest ep sid fid) s (fun t =>
      if s.tdi fid.val = 0 then
        t.tdi fid.val = 1 ∧ OnlyFields s t [Fld.securityTdiStatState fid.val] ∧
        Says { s with regs := t.regs, freeCtr := s.freeCtr + 1 } t ep 0x7E (0x03 :: leBytes 32 (Config.freeValue 256 s.freeCtr).toNat)
      else Says s t ep 0x7E [0x7F, 4]) ∧
    Completes (.startInterfaceRequest ep sid fid) s (fun t =>
      if s.tdi fid.val = 1 then
        t.tdi fid.val = 2 ∧ OnlyFields s t [Fld.securityTdiStatState fid.val] ∧ Says { s with regs := t.regs } t ep 0x7E [0x06]
      else Says s t ep 0x7E [0x7F, 4]) ∧
    Completes (.stopInterfaceRequest ep sid fid) s (fun t =>
      t.tdi fid.val = 0 ∧ OnlyFields s t [Fld.securityTdiStatState fid.val] ∧ Says { s with regs := t.regs } t ep 0x7E [0x07])) ∧
  (∀ (s : State) (ep : SpdmEp) (sid : Nat) (fid : Fid) (c : Instr), s.epThere ep = true → s.onPort ep sid fid.val = false ∨ s.assigned fid.val = false →
    [.getTdispVersion ep sid fid, .getTdispCapabilities ep sid fid, .lockInterfaceRequest ep sid fid, .getDeviceInterfaceReport ep sid fid,
     .getDeviceInterfaceState ep sid fid, .startInterfaceRequest ep sid fid, .stopInterfaceRequest ep sid fid].contains c = true →
    Completes c s (fun t => Says s t ep 0x7F [1]))

/-- The meter's queue, intervals and record stream (R327 to R332, R335, R352). The event at the queue's front is applied to the holdings; with
none, or with the meter not working, nothing happens. After an overflow the scanned holdings are queued at a furlong boundary after it, with a
record, which waits while the supply is stopped or the link is down. An interval whose length has run ends, the next starts where it ended, and its bank goes idle; before that INTERVAL_END leaves the meter as it is. A closed interval leaves the idle bank
empty. The stream moves bytes of the record under way into the outbox and advances OUT_WR; a write of OUT_RD frees the records read whole. -/
def Obligations.MeterCountsClosesAndStreams : Prop :=
  (∀ s : State, s.mz.queue = [] ∨ s.mz.working = false → exec .bindingEventApply s = .next s) ∧
  (∀ (s : State) (x : Nat × MEvent) (xs : List (Nat × MEvent)), s.mz.queue = x :: xs → s.mz.working = true →
    ∀ m : Meter, m = s.mz.roll s.tick → (∀ i, m.idle.getLast? = some i → x.1 < i.stop) → (∀ p live, x.2 ≠ .plot p live) →
    Completes .bindingEventApply s (fun t => t.mz = ({ m.applyEv x s.tick with queue := xs } : Meter).stampsDone ∧ MeterOnly s t)) ∧
  (∀ s : State, s.mz.ovf = none → exec .holdingRebuild s = .next s) ∧
  (∀ (s : State) (o : Nat), s.mz.ovf = some o → o < s.tick → s.phase = 0 →
    Completes .holdingRebuild s (fun t => t.mz.ovf = none ∧ t.mz.queue = s.mz.queue ++ [(s.tick, .rebuild s.scanUnits)] ∧
      (s.mz.stopped = none → s.mz.down = none → s.mz.memBad = false → s.mz.keyGone = false → t.mz.seq = s.mz.seq + 1) ∧
      (s.mz.stopped ≠ none ∨ s.mz.down ≠ none → t.mz.seq = s.mz.seq ∧ t.mz.late = s.mz.late ++ [(7, 0, o)]) ∧ MeterOnly s t)) ∧
  (∀ s : State, s.mz.ready = true → s.mz.fault = false → s.mz.closed = false → s.mz.start + 256 * s.mz.par.len ≤ s.tick →
    Completes .intervalEnd s (fun t => t.mz.intNo = s.mz.intNo + 1 ∧ t.mz.start = s.mz.start + 256 * s.mz.par.len ∧ t.mz.flags = 0 ∧
      (s.mz.idle = [] → (t.mz.idle.getLast?.map (·.stop)) = some (s.mz.start + 256 * s.mz.par.len) ∧ t.mz.spare = [] ∧ t.mz.inB = !s.mz.inB) ∧
      (s.mz.idle ≠ [] → t.mz.idle = s.mz.idle ∧ (t.mz.spare.getLast?.map (·.stop)) = some (s.mz.start + 256 * s.mz.par.len) ∧ t.mz.inB = s.mz.inB) ∧
      t = { s with regs := t.regs, mz := t.mz })) ∧
  (∀ s : State, s.mz.ready = true → s.mz.fault = true ∨ s.mz.closed = true ∨ s.tick < s.mz.start + 256 * s.mz.par.len →
    Completes .intervalEnd s (fun t => t = { s with regs := t.regs })) ∧
  (∀ s : State, s.mz.ready = false → exec .intervalEnd s = .next s) ∧
  (∀ s : State, s.mz.working = true → s.mz.fault = false → s.mz.closed = false →
    Completes .intervalClose s (fun t => t.mz.idle = [] ∧ t = { s with regs := t.regs, mz := t.mz })) ∧
  (∀ s : State, s.mz.working = false → exec .intervalClose s = .next s) ∧
  (∀ (s : State) (n : Nat), s.mz.ready = true → s.mz.down = none → n < s.mz.rest.length →
    n ≤ 65536 - (s.rd Reg.stewardMzOutWr - s.rd Reg.stewardMzOutRd).toNat →
    Completes (.recordStream n) s (fun t => t.mz = { s.mz with rest := s.mz.rest.drop n } ∧
      t.rd Reg.stewardMzOutWr = s.rd Reg.stewardMzOutWr + BitVec.ofNat 32 n)) ∧
  (∀ (s : State) (v : Word), Completes (.mzOutRdWrite v) s (fun t => t.rd Reg.stewardMzOutRd = v ∧
    t.mz = { s.mz with sent := s.mz.sent.filter (fun x => decide (2 ^ 31 ≤ (v - BitVec.ofNat 32 x.2).toNat)) } ∧
    OnlyFields s t [Fd.whole Reg.stewardMzOutRd] ∧ t = { s with regs := t.regs, mz := t.mz }))

/-- The meter's signed commands (R325, R328, R341 to R343, R352). A row other than the inbox's command, or none busy, does nothing. Every
command is checked with the meter's intervals up to date, and ends BUSY with its verdict and a new nonce, a free value (log 7); a refused one changes nothing else. An accepted one makes a
record and counts in the audit number: a billing key is held, or retired, the anchor set, a map or length change waits for its interval.
READ_FROM moves the stream and makes no record. -/
def Obligations.MeterCommandsTakeEffectOnce : Prop :=
  (∀ (s : State) (k : Nat) (c : Instr),
    [(0x01, Instr.addBkey), (0x02, .retireBkey), (0x03, .setScMap), (0x04, .setPlotMap), (0x05, .setInterval), (0x06, .setAnchor), (0x10, .readFrom)].contains (k, c) = true →
    (s.getF Fld.stewardMzInboxCtlBusy ≠ 1 ∨ s.mz.working = false ∨ mArg s.inbox 0 ≠ k → exec c s = .next s) ∧
    (s.getF Fld.stewardMzInboxCtlBusy = 1 → s.mz.working = true → mArg s.inbox 0 = k → ∀ m : Meter, m = s.mz.roll s.tick →
      Completes c s (fun t => t.getF Fld.stewardMzInboxCtlBusy = 0 ∧ t.getF Fld.mzCmdStatBusy = 0 ∧
        t.getF Fld.mzCmdStatResult = m.verdict s.inbox ∧ t.mz.nonce = Config.freeValue 64 s.freeCtr ∧ t.freeCtr = s.freeCtr + 1 ∧
        t = { s with regs := t.regs, freeCtr := t.freeCtr, mz := t.mz } ∧
        (m.verdict s.inbox ≠ 0 → t.mz = { m with nonce := t.mz.nonce }) ∧
        (m.verdict s.inbox = 0 → k = 0x10 → t.mz = { m with nextRec := mArg s.inbox 4 + 2 ^ 32 * mArg s.inbox 8, nonce := t.mz.nonce }) ∧
        (m.verdict s.inbox = 0 → k ≠ 0x10 → t.mz.audit = m.audit + 1 ∧ (m.keyGone = false → t.mz.seq = m.seq + 1)) ∧
        (m.verdict s.inbox = 0 → k = 0x01 → t.mz.key (mArg s.inbox 4) = ⟨true, false, bytesAt s.inbox 0x28 97⟩) ∧
        (m.verdict s.inbox = 0 → k = 0x02 → t.mz.key (mArg s.inbox 4) = { m.key (mArg s.inbox 4) with retired := true }) ∧
        (m.verdict s.inbox = 0 → k = 0x06 → t.mz.par = { m.par with anchor := (mArg s.inbox 4 + 2 ^ 32 * mArg s.inbox 8, m.mrtc) }) ∧
        (m.verdict s.inbox = 0 → k = 0x03 ∨ k = 0x04 ∨ k = 0x05 → t.mz.par = m.par ∧
          t.mz.due = m.due ++ [(m.wait s.tick,
            if k = 0x03 then .sc (mArg s.inbox 4) (mArg s.inbox 8 % 2 ^ 15) (mArg s.inbox 8 / 2 ^ 31 * 2 ^ 15 + mArg s.inbox 8 / 2 ^ 16 % 4096)
            else if k = 0x04 then .plot (mArg s.inbox 4) (mArg s.inbox 8 / 2 ^ 31 * 2 ^ 15 + mArg s.inbox 8 % 4096)
            else .len (mArg s.inbox 4))]))))

/-- What the world around the meter does to it (R323, R346, R347, R425). A rail out of range stops the tally plane in its tick, and counting
resumes at a furlong boundary with the stop kept and two records made. A lost link is noted once, with source 0x15; its return clears it, with
two records of a ready meter. A stopped clock and a bad memory are noted. The MZ12 is ready once in start-up step 3, and its boot number rises;
its delay there, over 100 ms after step 2, raises source 0x15 once. The EVENT records of a time when the supply is stopped or the link is
down wait, and are made in order when that is over. -/
def Obligations.MeterFollowsItsSurroundings : Prop :=
  (∀ (s : State) (io : Bool), s.mz.ready = true → s.mz.stopped = none →
    Completes (.meterSupplyTrip io) s (fun t => t.mz = { s.mz.keepStamp s.tick with stopped := some (s.tick, bit io) } ∧ MeterOnly s t)) ∧
  (∀ (s : State) (io : Bool), s.mz.ready = false ∨ s.mz.stopped ≠ none → exec (.meterSupplyTrip io) s = .next s) ∧
  (∀ (s : State) (x : Nat × Nat), s.mz.stopped = some x → s.phase = 0 →
    Completes .meterSupplyResume s (fun t => t.mz.stopped = none ∧ t.mz.frozen = s.mz.frozen ++ [(x.1, s.tick)] ∧
      (s.mz.down = none → s.mz.memBad = false → s.mz.keyGone = false → t.mz.seq = s.mz.seq + 2 + s.mz.late.length ∧ t.mz.late = []) ∧
      (s.mz.down ≠ none → t.mz.seq = s.mz.seq ∧ t.mz.late = s.mz.late ++ [(2, x.2, x.1), (3, x.2, s.tick)]) ∧ MeterOnly s t)) ∧
  (∀ s : State, s.mz.stopped = none ∨ s.phase ≠ 0 → exec .meterSupplyResume s = .next s) ∧
  (∀ s : State, s.mz.down = none →
    Completes .meterLinkLoss s (fun t => t.mz = { s.mz.keepStamp s.tick with down := some s.tick, lost := true } ∧
      t.flt = { s.flt with tickEvents := s.flt.tickEvents ++ [{ src := 0x15, tick := s.tick }] } ∧
      OnlyFields s t [Fld.mzStatLinkLost] ∧ t = { s with regs := t.regs, flt := t.flt, mz := t.mz })) ∧
  (∀ s : State, s.mz.down ≠ none → exec .meterLinkLoss s = .next s) ∧
  (∀ (s : State) (d : Nat), s.mz.down = some d →
    Completes .meterLinkReturn s (fun t => t.mz.down = none ∧
      (s.mz.ready = true → s.mz.stopped = none → s.mz.memBad = false → s.mz.keyGone = false →
        t.mz.seq = s.mz.seq + 2 + s.mz.late.length ∧ t.mz.late = []) ∧
      (s.mz.ready = true → s.mz.stopped ≠ none → t.mz.seq = s.mz.seq ∧ t.mz.late = s.mz.late ++ [(5, 0, d), (6, 0, s.tick)]) ∧
      (s.mz.ready = false → t.mz = { s.mz with down := none }) ∧
      t.getF Fld.cprClkmonStatMeter = 0 ∧ t.getF Fld.cprClkStatTallyHoldover = 0 ∧
      t = { s with regs := t.regs, mz := t.mz, cpr := t.cpr })) ∧
  (∀ s : State, s.mz.rtcBad = false →
    Completes .mrtcStopped s (fun t => t.mz.rtcBad = true ∧
      (s.mz.stopped = none → s.mz.down = none → s.mz.memBad = false → s.mz.keyGone = false → t.mz.seq = s.mz.seq + 1) ∧
      (s.mz.stopped ≠ none ∨ s.mz.down ≠ none → t.mz.seq = s.mz.seq ∧ t.mz.late = s.mz.late ++ [(8, 0, s.tick)]) ∧ MeterOnly s t)) ∧
  (∀ s : State, s.mz.rtcBad = true → exec .mrtcStopped s = .next s) ∧
  (∀ s : State, Completes .mramBothCopiesBad s (fun t => t.mz = { s.mz with memBad := true } ∧ MeterOnly s t)) ∧
  (∀ s : State, s.getF Fld.cprStartStep = 3 → s.getF Fld.cprStartHalt = 0 →
    Completes .mz12Ready s (fun t => t.mz.ready = true ∧ t.mz.boot = (s.mz.boot + 1) % 2 ^ 32)) ∧
  (∀ s : State, s.getF Fld.cprStartStep ≠ 3 ∨ s.getF Fld.cprStartHalt = 1 → exec .mz12Ready s = .next s) ∧
  (∀ s : State, s.getF Fld.cprStartStep = 3 → s.getF Fld.cprStartHalt = 0 → s.cpr.late = false →
    s.aonPast (s.get64 (Reg.cprStepDoneLo 1) (Reg.cprStepDoneHi 1)) 25000000 = true →
    Completes .mz12NotReady s (fun t => t = { s with
      cpr := { s.cpr with late := true }, flt := { s.flt with tickEvents := s.flt.tickEvents ++ [{ src := 0x15, tick := s.tick }] } })) ∧
  (∀ s : State, s.cpr.late = true ∨ s.aonPast (s.get64 (Reg.cprStepDoneLo 1) (Reg.cprStepDoneHi 1)) 25000000 = false →
    exec .mz12NotReady s = .next s)

/-- The configuration store and the steward's firmware (R357, R361 to R364, R391, R392, R424). A check of a copy runs while nothing else does,
and is refused with cause 1 otherwise, as a flash command is; its end shows the first failure or 0, VALID with it. A flash command on a copy not preferred runs, and
one that changes a copy makes it not valid; the preferred copy is refused with cause 2. A page read stands in FLASH_DATA, a page programmed
keeps a bit only where both have it, and an erased sector reads as erased. A switch starts into a valid slot, and only there; READY ends
start-up step 5; a fallback is noted while a switch waits a second after the restart; the watchdog restarts the cores when it has not been kicked for its
period. -/
def Obligations.StoreChecksFlashAndFirmware : Prop :=
  (∀ (s : State) (b : Bool), s.storeBusy = false →
    Completes (.check b) s (fun t => t.getF Fld.cfgstoreCheckCopy = bit b ∧ t.getF Fld.cfgstoreCheckBusy = 1 ∧
      OnlyFields s t [Fld.cfgstoreCheckCopy, Fld.cfgstoreCheckBusy] ∧ t = { s with regs := t.regs, cfg := { s.cfg with check := some b } })) ∧
  (∀ (s : State) (b : Bool), s.storeBusy = true →
    Completes (.check b) s (fun t => t.getF Fld.cfgstoreFlashStatRefused = 1 ∧ t.getF Fld.cfgstoreFlashStatCause = 1 ∧
      RegsOnly s t [Fld.cfgstoreFlashStatRefused, Fld.cfgstoreFlashStatCause])) ∧
  (∀ (s : State) (b : Bool), s.cfg.boot = [] → s.cfg.check = some b →
    Completes .checkDone s (fun t => t.getF (reasonFd b) = s.checkCode b ∧ t.getF (validFd b) = bit (decide (s.checkCode b = 0)) ∧
      t.getF Fld.cfgstoreCheckBusy = 0 ∧ t.cfg = { s.cfg with check := none })) ∧
  (∀ s : State, s.cfg.boot = [] → s.cfg.check = none → exec .checkDone s = .next s) ∧
  (∀ s : State, s.storeBusy = false →
    Completes .flashRead s (fun t => t.getF Fld.cfgstoreFlashStatBusy = 1 ∧ t.cfg = { s.cfg with job := some (0, s.flashAddr 0) } ∧
      OnlyFields s t [Fld.cfgstoreFlashCtlOp, Fld.cfgstoreFlashStatBusy] ∧ t = { s with regs := t.regs, cfg := t.cfg })) ∧
  (∀ (s : State) (op : Nat) (c : Instr) (b : Bool), [(1, Instr.flashProgram), (2, .flashErase)].contains (op, c) = true →
    b = decide (0x2000000 ≤ s.flashAddr op) → s.storeBusy = false → s.prefNow ≠ 1 + bit b →
    Completes c s (fun t => t.getF Fld.cfgstoreFlashStatBusy = 1 ∧ t.getF (reasonFd b) = 9 ∧ t.getF (validFd b) = 0 ∧
      t.cfg = { s.cfg with job := some (op, s.flashAddr op) } ∧
      OnlyFields s t [Fld.cfgstoreFlashCtlOp, Fld.cfgstoreFlashStatBusy, reasonFd b, validFd b, Fld.cfgstoreStatPref] ∧
      t = { s with regs := t.regs, cfg := t.cfg })) ∧
  (∀ (s : State) (op : Nat) (c : Instr) (b : Bool), [(1, Instr.flashProgram), (2, .flashErase)].contains (op, c) = true →
    b = decide (0x2000000 ≤ s.flashAddr op) → s.storeBusy = false → s.prefNow = 1 + bit b →
    Completes c s (fun t => t.getF Fld.cfgstoreFlashStatRefused = 1 ∧ t.getF Fld.cfgstoreFlashStatCause = 2 ∧
      RegsOnly s t [Fld.cfgstoreFlashCtlOp, Fld.cfgstoreFlashStatRefused, Fld.cfgstoreFlashStatCause])) ∧
  (∀ (s : State) (op : Nat) (c : Instr), [(0, Instr.flashRead), (1, .flashProgram), (2, .flashErase)].contains (op, c) = true → s.storeBusy = true →
    Completes c s (fun t => t.getF Fld.cfgstoreFlashStatRefused = 1 ∧ t.getF Fld.cfgstoreFlashStatCause = 1 ∧
      RegsOnly s t [Fld.cfgstoreFlashStatRefused, Fld.cfgstoreFlashStatCause])) ∧
  (∀ (s : State) (a : Nat), s.cfg.job = some (0, a) →
    Completes .flashDone s (fun t => (∀ k, k < 64 → t.rd (Reg.cfgstoreFlashData k) = BitVec.ofNat 32 (leNat (s.flashBytes (a + 4 * k) 4))) ∧
      t.getF Fld.cfgstoreFlashStatBusy = 0 ∧ t = { s with regs := t.regs, cfg := { s.cfg with job := none } })) ∧
  (∀ (s : State) (a : Nat), s.cfg.job = some (1, a) →
    Completes .flashDone s (fun t => (∀ k, k < 256 → t.flashBytes (a + k) 1 = [((s.flashBytes (a + k) 1)[0]?).getD 0 &&& (s.flashData[k]?).getD 0]) ∧
      (∀ x, x < a ∨ a + 256 ≤ x → t.flashBytes x 1 = s.flashBytes x 1) ∧
      t.getF Fld.cfgstoreFlashStatBusy = 0 ∧ RegsOnly { s with cfg := t.cfg } t [Fld.cfgstoreFlashStatBusy])) ∧
  (∀ (s : State) (a : Nat), s.cfg.job = some (2, a) →
    Completes .flashDone s (fun t => (∀ k, k < 65536 → t.flashBytes (a + k) 1 = [0xFF]) ∧
      (∀ x, x < a ∨ a + 65536 ≤ x → t.flashBytes x 1 = s.flashBytes x 1) ∧
      t.getF Fld.cfgstoreFlashStatBusy = 0 ∧ RegsOnly { s with cfg := t.cfg } t [Fld.cfgstoreFlashStatBusy])) ∧
  (∀ (s : State) (src : Source), s.fwBusy = false → s.getF (fwValidFd s.fwOther) = 1 →
    Completes (.switch src) s (fun t => t.getF Fld.stewardFwStatSwitching = 1 ∧ t.getF Fld.stewardFwStatCode = 0 ∧
      OnlyFields s t [Fld.stewardFwStatSwitching, Fld.stewardFwStatCode] ∧
      t = { s with regs := t.regs, stw := { s.stw with fwOpen := !s.applying, fwFell := false, swAt := if s.applying then s.stw.swAt else s.tick } })) ∧
  (∀ (s : State) (src : Source), s.fwBusy = false → s.getF (fwValidFd s.fwOther) = 0 →
    Completes (.switch src) s (fun t => t.getF Fld.stewardFwStatCode = 5 ∧ RegsOnly s t [Fld.stewardFwStatCode])) ∧
  (∀ s : State, s.getF Fld.cprStartStep = 5 → s.getF Fld.cprStartHalt = 0 →
    s.sectionBytes (decide (s.getF Fld.cfgstoreStatBootSel = 2)) 2 = none →
    Completes .ready s (fun t => t.getF Fld.cprStartStep = 6 ∧ t.getF Fld.stewardFwStatSlot = 0 ∧
      t.get64 (Reg.cprStepDoneLo 4) (Reg.cprStepDoneHi 4) = s.tick % 2 ^ 64 ∧
      OnlyFields s t [Fld.cprStartStep, Fld.stewardFwStatSlot, Fd.whole (Reg.cprStepDoneLo 4), Fd.whole (Reg.cprStepDoneHi 4)] ∧
      t = { s with
        regs := t.regs, stw := { s.stw with kick := s.tick }, cfg := if s.hasTables then { s.cfg with todo := s.sectWrites, load := .write } else s.cfg })) ∧
  (∀ s : State, s.getF Fld.stewardFwStatSwitching = 1 → s.stw.fwOpen = true → s.aonPast s.stw.swAt 250000000 = true →
    Completes .fwFallback s (fun t => t = { s with stw := { s.stw with fwFell := true } })) ∧
  (∀ s : State, s.getF Fld.stewardFwStatSwitching = 0 ∨ s.stw.fwOpen = false ∨ s.aonPast s.stw.swAt 250000000 = false →
    exec .fwFallback s = .next s) ∧
  (∀ s : State, Completes .wdogKick s (fun t => t = { s with stw := { s.stw with kick := s.tick } })) ∧
  (∀ s : State, 6 ≤ s.getF Fld.cprStartStep → s.getF Fld.stewardFwStatSwitching = 0 → s.aonPast s.stw.kick s.wdogTicks = true →
    Completes .watchdogExpiry s (fun t =>
      t.getF Fld.stewardFwStatRestarts = min (s.getF Fld.stewardFwStatRestarts + 1) (2 ^ Fld.stewardFwStatRestarts.width - 1) ∧
      t.flt = { s.flt with tickEvents := s.flt.tickEvents ++ [{ src := 0x0D, tick := s.tick, d0 := s.getF Fld.stewardFwStatSlot, d1 := t.getF Fld.stewardFwStatRestarts }] } ∧
      OnlyFields s t [Fld.stewardFwStatRestarts] ∧
      t = { s with regs := t.regs, flt := t.flt, stw := { s.stw with kick := s.tick } })) ∧
  (∀ s : State, s.aonPast s.stw.kick s.wdogTicks = false → exec .watchdogExpiry s = .next s)

/-- The fault collector's registers, and the safe-state reaction (R395, R396, R400, R402 to R408). The pulse of FAULT_N ends once 250
AON cycles have passed, and LEVEL follows its write. FORCE raises source 0x16 with the code written; an injection raises its source where injection is enabled, and a write does
nothing elsewhere. The first-error latch clears whole. A severity write keeps source 0x16; the view takes the slot's record. In the tick after
a FATAL event, once, FATAL shows with its source and tick, FAULT_N is driven, the home halts with no transaction left, and viral is set: the register values
are shown with nothing in flight. -/
def Obligations.FaultRegistersAndSafeState : Prop :=
  (∀ s : State, s.aonPast (s.get64 Reg.faultFatalTickLo Reg.faultFatalTickHi + 1) 2500 = false → exec .faultNPulseEnd s = .next s) ∧
  (∀ s : State, s.aonPast (s.get64 Reg.faultFatalTickLo Reg.faultFatalTickHi + 1) 2500 = true → Completes .faultNPulseEnd s (fun t => t.getF Fld.faultFltPinPulse = 0 ∧ t.faultN = decide (s.getF Fld.faultFltPinLevel = 1) ∧
    RegsOnly s t [Fld.faultFltPinPulse])) ∧
  (∀ (s : State) (v : Word), Completes (.fltPinWrite v) s (fun t => t.getF Fld.faultFltPinLevel = fieldGet v 0 1 ∧ RegsOnly s t [Fld.faultFltPinLevel])) ∧
  (∀ (s : State) (v : Word), Completes (.force v) s (fun t =>
    t.getF Fld.faultCtlFerrMin = fieldGet v 0 2 ∧ t.getF Fld.faultCtlForceCode = fieldGet v 8 8 ∧
    t.flt = { s.flt with tickEvents := s.flt.tickEvents ++ (if fieldGet v 2 1 = 1 then [{ src := 0x16, tick := s.tick, d0 := fieldGet v 8 8 }] else []) } ∧
    OnlyFields s t [Fld.faultCtlFerrMin, Fld.faultCtlForceCode] ∧ t = { s with regs := t.regs, flt := t.flt })) ∧
  (∀ (s : State) (v : Word), s.injEnabled = false → exec (.injGo v) s = .next s) ∧
  (∀ (s : State) (v : Word), s.injEnabled = true → fieldGet v 14 1 = 1 → 0 < fieldGet v 0 8 → fieldGet v 0 8 ≤ 0x16 →
    Completes (.injGo v) s (fun t =>
      t.flt = { s.flt with tickEvents := s.flt.tickEvents ++ [{ src := fieldGet v 0 8, tick := s.tick, lp := some (fieldGet v 8 6), inj := true, d0 := (s.rd Reg.faultInjDetail).toNat }] } ∧
      OnlyFields s t [Fld.faultInjSrc, Fld.faultInjLp] ∧ t = { s with regs := t.regs, flt := t.flt })) ∧
  (∀ s : State, Completes .ferrClear s (fun t => t.rd Reg.faultFerr = 0 ∧ t.rd Reg.faultFerrDetail = 0 ∧ t.rd Reg.faultFerrTickLo = 0 ∧
    t.rd Reg.faultFerrTickHi = 0 ∧
    RegsOnly s t [Fd.whole Reg.faultFerr, Fd.whole Reg.faultFerrDetail, Fd.whole Reg.faultFerrTickLo, Fd.whole Reg.faultFerrTickHi])) ∧
  (∀ (s : State) (v : Word), Completes (.sevWrite 0 v) s (fun t => t.getF Fld.faultSev0Src0115 = fieldGet v 2 30 ∧ RegsOnly s t [Fld.faultSev0Src0115]) ∧
    Completes (.sevWrite 1 v) s (fun t => t.getF Fld.faultSev1Src1621 = fieldGet v 0 12 ∧ RegsOnly s t [Fld.faultSev1Src1621]) ∧
    exec (.sevWrite 2 v) s = .next s ∧ exec (.sevWrite 3 v) s = .next s) ∧
  (∀ (s : State) (v : Word), Completes (.sheafIdxWrite v) s (fun t => t.getF Fld.faultSheafIdxSlot = fieldGet v 0 6 ∧
    (∀ k, k < 16 → t.rd (Reg.faultSheafW k) = Tbl.get (fun _ => 0) s.flt.sheaf (16 * fieldGet v 0 6 + k)) ∧
    (∀ a, a ≠ Reg.faultSheafIdx → ¬(Reg.faultSheafW 0 ≤ a ∧ a < Reg.faultSheafW 16) → t.rd a = s.rd a) ∧ t = { s with regs := t.regs })) ∧
  (∀ s : State, s.flt.fatalDue = none ∨ s.getF Fld.faultStatFatal = 1 → exec .safeStateReaction s = .next s) ∧
  (∀ (s : State) (d : Nat × Nat), s.flt.fatalDue = some d → d.1 < s.tick → s.getF Fld.faultStatFatal = 0 → s.mz.ready = false →
    s.dp.msgs = [] → s.dp.trackers = [] → s.dp.trapQ = [] →
    Completes .safeStateReaction s (fun t =>
      t.getF Fld.faultStatFatal = 1 ∧ t.getF Fld.faultStatFatalSrc = d.2 % 256 ∧ t.getF Fld.faultFltPinPulse = 1 ∧
      t.getF Fld.faultFltPinLevel = 1 ∧ t.getF Fld.homeStatHalted = 1 ∧ t.get64 Reg.faultFatalTickLo Reg.faultFatalTickHi = d.1 % 2 ^ 64 ∧
      t.flt.viral = true ∧ t.flt.fatalDue = none)) ∧
  (∀ (s : State) (d : Nat × Nat), s.flt.fatalDue = some d → d.1 < s.tick → s.getF Fld.faultStatFatal = 0 →
    Completes .safeStateReaction s (fun t => t.home.txns = [] ∧ t.home.parked = [] ∧ t.home.snoops = [] ∧ t.home.poison = [] ∧
      t.dp.legs = [] ∧ t.dp.bids = []))

/-- The rings (R372 to R376, R379 to R382). A doorbell out of range or to a ring not enabled sets ERR and does nothing else; a tail in range is
taken, and while another command runs, or the steward does not, nothing is fetched. A CQ head passes entries. EN rising starts both queues
anew. An entry that comes without its fetch does nothing. A command's input is read by DMA, in requests that wait for the
wire as messages of rank 1, and the command applied when its last read is here:
NOP, RECORDS and TRAPS with no input complete at once with status 0 and their output, FMAPI waits for its FM API command, FW_ACTIVATE is refused
as busy while a background command runs, and a field out of range ends with status 2. A completion with no entry is late, one of another generation is
gleaned, one with Bus Master Enable 0 is discarded, and one that failed ends its command with status 3. A read times out once the instance's completion timeout has passed since its issue. -/
def Obligations.RingsFetchApplyAndReturn : Prop :=
  (∀ (s : State) (i : Inst) (r : Ring) (v : Word), s.epPresent i = true → s.getF (Fld.stewardEpCfgDstate i) ≠ 3 →
    (s.ringOn i r = false ∨ s.sqSize i r ≤ v.toNat → Completes (.sqTailDoorbell i r v) s (fun t =>
      t.getF (Fld.stewardRingStatErr i r) = 1 ∧ RegsOnly s t [Fld.stewardRingStatErr i r])) ∧
    (s.ringOn i r = false ∨ s.cqSize i r ≤ v.toNat → Completes (.cqHeadDoorbell i r v) s (fun t =>
      t.getF (Fld.stewardRingStatErr i r) = 1 ∧ RegsOnly s t [Fld.stewardRingStatErr i r])) ∧
    (s.ringOn i r = true → v.toNat < s.sqSize i r → s.stewardUp = false ∨ s.epActive i = true → Completes (.sqTailDoorbell i r v) s (fun t =>
      t.sqTail i r = v.toNat ∧ (∀ k, k ≠ r.val → t.sqTail i k = s.sqTail i k) ∧ t = s.setEp i { s.ep i with tails := (t.ep i).tails })) ∧
    (s.ringOn i r = true → v.toNat < s.cqSize i r → (s.ep i).inta = false → Completes (.cqHeadDoorbell i r v) s (fun t =>
      (t.ep i).heads = Tbl.set (fun _ => 0) (s.ep i).heads r v.toNat ∧
      (t.ep i).cqPend = (s.ep i).cqPend.filter (fun x => !(decide (x.1 = r.val) && passed (Tbl.get (fun _ => 0) (s.ep i).heads r) v.toNat (s.cqSize i r) x.2)) ∧
      ((∀ x ∈ (t.ep i).cqPend, x.1 ≠ r.val) → t.getF ⟨Reg.stewardIntStat i, r, 1⟩ = 0) ∧
      OnlyFields s t [⟨Reg.stewardIntStat i, r, 1⟩]))) ∧
  (∀ (s : State) (i : Inst) (r : Ring) (v : Word),
    (s.epPresent i = false → exec (.sqTailDoorbell i r v) s = .next s ∧ exec (.cqHeadDoorbell i r v) s = .next s ∧ exec (.ringCfgWrite i r v) s = .next s) ∧
    (s.ringOn i r = true → fieldGet v 8 1 = 1 → exec (.ringCfgWrite i r v) s = .next s) ∧
    (s.ringOn i r = true → fieldGet v 8 1 = 0 → (s.ep i).cmd = none → Completes (.ringCfgWrite i r v) s (fun t =>
      t.getF (Fld.stewardRingCfgEn i r) = 0 ∧ RegsOnly s t [Fld.stewardRingCfgEn i r])) ∧
    (s.epPresent i = true → s.ringOn i r = false → fieldGet v 8 1 = 1 → (s.ep i).inta = false → Completes (.ringCfgWrite i r v) s (fun t =>
      t.getF (Fld.stewardRingCfgEn i r) = 1 ∧ t.getF (Fld.stewardRingCfgSqLog2 i r) = fieldGet v 0 4 ∧
      t.getF (Fld.stewardRingCfgCqLog2 i r) = fieldGet v 4 4 ∧ t.getF (Fld.stewardRingStatSqHead i r) = 0 ∧
      t.getF (Fld.stewardRingStatCqTail i r) = 0 ∧ t.getF (Fld.stewardRingStatPhase i r) = 1 ∧ t.sqTail i r = 0 ∧
      t = { s with regs := t.regs, stw := t.stw }))) ∧
  (∀ (s : State) (c : Instr) (i r : Nat), ringOf c = some (i, r) →
    ((s.ep i).cmd ≠ some (.entry r) → exec c s = .next s) ∧
    ((s.ep i).cmd = some (.entry r) → s.epServed i = true → 0 < (entryOf c).inLen.toNat →
      (entryOf c).inLen.toNat + (entryOf c).inAddr.toNat % 256 ≤ 256 → (s.ep i).reads.length < 64 →
      Completes c s (fun t => t.out = .dmaRead i (entryOf c).inAddr.toNat (entryOf c).inLen.toNat s.dp.nextId :: s.out ∧
        t.ep i = { s.ep i with cmd := some (.input r c [s.dp.nextId] []), reads := (s.ep i).reads ++ [(s.dp.nextId, s.getF (Fld.stewardEpCfgGen i), s.tick)] } ∧
        (s.dllUp (s.epLp i) = true → ∃ m, t.dp.msgs = s.dp.msgs ++ [m] ∧ m.origin = .device ∧ m.stage = .blocked ∧
          m.hdr = epHdr .ioMemRd (entryOf c).inAddr.toNat (entryOf c).inLen.toNat s.dp.nextId [] ∧ m.route = some { lp := s.epLp i, rank := 1 }) ∧
        (s.dllUp (s.epLp i) = false → t.dp.msgs = s.dp.msgs) ∧
        t.regs = s.regs ∧ (∀ k, k ≠ i → t.ep k = s.ep k)))) ∧
  (∀ (s : State) (i : Inst) (r : Ring) (e : SqEntry), (s.ep i).cmd = some (.entry r) → (s.ep i).d3Due = false → s.epServed i = true →
    s.stewardUp = true → AloneOn s i r → e.noInt = true → e.inLen = 0 →
    (e.outLen.toNat ≤ 65536 → Completes (.ringNop i r e) s (fun t => Returned s t i r e 0 0 [])) ∧
    (s.outboxBytes.length ≤ e.outLen.toNat → e.outLen.toNat ≤ 65536 → Completes (.records i r e) s (fun t =>
      Returned s t i r e 0 0 s.outboxBytes ∧ t.rd Reg.stewardMzOutRd = s.rd Reg.stewardMzOutRd + BitVec.ofNat 32 s.outboxBytes.length)) ∧
    ((s.dp.trapQ.flatMap trapBytes).length ≤ e.outLen.toNat → e.outLen.toNat ≤ 65536 → Completes (.traps i r e) s (fun t =>
      Returned s t i r e 0 0 (s.dp.trapQ.flatMap trapBytes) ∧ t.dp.trapQ = [])) ∧
    (e.outLen.toNat ≤ 65536 → Completes (.fmapi i r e) s (fun t => (t.ep i).cmd = some (.fm r e) ∧
      t.getF (Fld.stewardRingStatSqHead i r) = (s.getF (Fld.stewardRingStatSqHead i r) + 1) % s.sqSize i r)) ∧
    (e.outLen.toNat ≤ 65536 → s.fwBusy = true → Completes (.fwActivate i r e) s (fun t => Returned s t i r e 5 0 [])) ∧
    (∀ c, ringOf c = some (i.val, r.val) → entryOf c = e → 65536 < e.outLen.toNat → s.mayApply c = true →
      Completes c s (fun t => Returned s t i r e 2 0 []))) ∧
  (∀ (s : State) (i : Inst) (k : Nat) (ok : Bool), (∀ x ∈ (s.ep i).reads, x.1 ≠ k) →
    exec (.epCompletionTimeout i k) s = .next s ∧
    Completes (.epDmaCompletion i k ok) s (fun t => t.rd (Reg.stewardEpLate i) = BitVec.ofNat 32 (min ((s.rd (Reg.stewardEpLate i)).toNat + 1) (2 ^ 32 - 1)) ∧
      RegsOnly s t [Fd.whole (Reg.stewardEpLate i)])) ∧
  (∀ (s : State) (i : Inst) (k g a : Nat) (ok : Bool), (s.ep i).reads.find? (fun x => decide (x.1 = k)) = some (k, g, a) →
    (s.aonPast a (s.epTmo i) = false → exec (.epCompletionTimeout i k) s = .next s) ∧
    (g ≠ s.getF (Fld.stewardEpCfgGen i) → ∀ c ∈ [Instr.epDmaCompletion i k ok, .epCompletionTimeout i k],
      (c = .epCompletionTimeout i k → s.aonPast a (s.epTmo i) = true) → Completes c s (fun t =>
      t.rd (Reg.stewardEpGlean i) = BitVec.ofNat 32 (min ((s.rd (Reg.stewardEpGlean i)).toNat + 1) (2 ^ 32 - 1)) ∧
      t.ep i = { s.ep i with reads := (s.ep i).reads.filter (fun x => x.1 ≠ k) } ∧ OnlyFields s t [Fd.whole (Reg.stewardEpGlean i)])) ∧
    (g = s.getF (Fld.stewardEpCfgGen i) → s.getF (Fld.stewardEpCfgBme i) = 0 → Completes (.epDmaCompletion i k ok) s (fun t =>
      t.rd (Reg.stewardEpDisc i) = BitVec.ofNat 32 (min ((s.rd (Reg.stewardEpDisc i)).toNat + 1) (2 ^ 32 - 1)) ∧
      t.ep i = { s.ep i with reads := (s.ep i).reads.filter (fun x => x.1 ≠ k) } ∧ OnlyFields s t [Fd.whole (Reg.stewardEpDisc i)])) ∧
    (g = s.getF (Fld.stewardEpCfgGen i) → s.aonPast a (s.epTmo i) = true → s.waitsFor i k = false → Completes (.epCompletionTimeout i k) s (fun t =>
      t.rd (Reg.stewardEpTmo i) = BitVec.ofNat 32 (min ((s.rd (Reg.stewardEpTmo i)).toNat + 1) (2 ^ 32 - 1)) ∧
      t.ep i = { s.ep i with reads := (s.ep i).reads.filter (fun x => x.1 ≠ k) } ∧ OnlyFields s t [Fd.whole (Reg.stewardEpTmo i)]))) ∧
  (∀ (s : State) (i : Inst) (r : Ring) (k : Nat) (c : Instr) (todo : List (Nat × Nat)) (a : Nat),
    (s.ep i).reads = [(k, s.getF (Fld.stewardEpCfgGen i), a)] → (s.ep i).cmd = some (.input r c [k] todo) → (s.ep i).d3Due = false →
    s.epServed i = true → AloneOn s i r → (entryOf c).noInt = true →
    Completes (.epDmaCompletion i k false) s (fun t => Returned s t i r (entryOf c) 3 0 []))

/-- The endpoint instances (R377, R378, R381 to R387). Bus Master Enable 0 abandons a command in FETCH. A function reset advances GEN, turns
every ring off and ends the command. D3hot is entered once a command in APPLY is done, and D0 is left open to what was held. A source becomes
pending, and is signalled under the mechanism in force where it is enabled; a wake event sends PM_PME in D3hot with the link in L0, and it is
sent again every 512 ms while PME_Status stands. A changed mechanism is in force at once. A vector held back while masked is sent when it is unmasked. A
packet from a tenant is dropped and counted, as is one that overflows the buffer; register reads on the sideband are answered at once, and an
EID assigned there is taken. The dynamic address is taken. -/
def Obligations.EndpointPowerInterruptsAndPackets : Prop :=
  (∀ (s : State) (i : Inst) (d : DState) (v : Fin 64) (m : IntMech) (k : Fin 32), s.epPresent i = false →
    exec (.dStateChange i d) s = .next s ∧ exec (.interruptMechanismChange i m) s = .next s ∧ exec (.msixVectorUnmask i v) s = .next s ∧
    exec (.wakeEvent i k) s = .next s ∧ exec (.pmPmeResend i) s = .next s) ∧
  (∀ (s : State) (i : Inst), s.epPresent i = true →
    Completes (.busMasterEnableClear i) s (fun t => t.getF (Fld.stewardEpCfgBme i) = 0 ∧ OnlyFields s t [Fld.stewardEpCfgBme i] ∧
      t.ep i = (match (s.ep i).cmd with
        | some c => if c.fetching then { s.ep i with cmd := none } else s.ep i
        | none => s.ep i)) ∧
    Completes (.epFunctionReset i) s (fun t => t.getF (Fld.stewardEpCfgGen i) = (s.getF (Fld.stewardEpCfgGen i) + 1) % 65536 ∧
      t.getF (Fld.stewardEpCfgBme i) = 0 ∧ t.getF (Fld.stewardEpCfgDstate i) = 0 ∧ t.getF (Fld.stewardEpCfgPresent i) = 1 ∧
      (∀ r, r < 16 → t.getF (Fld.stewardRingCfgEn i r) = 0) ∧
      t.ep i = { pmeEn := (s.ep i).pmeEn, pmeStat := (s.ep i).pmeStat,
                 reads := (s.ep i).reads.filter (fun x => decide (x.2.1 ≠ (s.getF (Fld.stewardEpCfgGen i) + 1) % 65536)) })) ∧
  (∀ (s : State) (i : Inst), s.epPresent i = true →
    ((s.ep i).cmd = none → Completes (.dStateChange i .d3hot) s (fun t => t.getF (Fld.stewardEpCfgDstate i) = 3 ∧ RegsOnly s t [Fld.stewardEpCfgDstate i])) ∧
    (∀ c, (s.ep i).cmd = some c → c.applying = true → Completes (.dStateChange i .d3hot) s (fun t => t = s.setEp i { s.ep i with d3Due := true })) ∧
    ((s.ep i).cmd = none → s.getF (Fld.stewardEpCfgBme i) = 0 → (s.ep i).inta = false →
      Completes (.dStateChange i .d0) s (fun t => t.getF (Fld.stewardEpCfgDstate i) = 0 ∧ OnlyFields s t [Fld.stewardEpCfgDstate i] ∧
        t.ep i = { s.ep i with d3Due := false }))) ∧
  (∀ (s : State) (i : Inst) (k : Fin 32), 22 ≤ k.val → exec (.wakeEvent i k) s = .next s) ∧
  (∀ (s : State) (i : Inst) (k : Fin 32), k.val < 22 → s.epPresent i = true →
    Completes (.wakeEvent i k) s (fun t => t.srcPending i k.val = true ∧
      (∀ x, x < 22 → x ≠ k.val → t.srcPending i x = s.srcPending i x)) ∧
    (s.mayInterrupt i = false → Nat.testBit (s.getF (Fld.stewardWakeMaskMask i)) k.val = false → Completes (.wakeEvent i k) s (fun t => t = { s with regs := t.regs })) ∧
    (s.mayInterrupt i = true → s.srcEnabled i k = true → (s.ep i).mech = .msix →
      Tbl.get (fun _ => false) (s.ep i).umask (s.getF (Fld.stewardIntMapVector i k)) = true →
      Nat.testBit (s.getF (Fld.stewardWakeMaskMask i)) k.val = false →
      Completes (.wakeEvent i k) s (fun t => t.out = .msi i (s.getF (Fld.stewardIntMapVector i k)) :: s.out)) ∧
    (s.mayInterrupt i = false → Nat.testBit (s.getF (Fld.stewardWakeMaskMask i)) k.val = true → s.srcPending i k = false →
      (s.ep i).pmeEn = true → s.getF (Fld.stewardEpCfgDstate i) = 3 → s.dllUp (s.epLp i) = true → s.inL0 (s.epLp i) = true →
      Completes (.wakeEvent i k) s (fun t => t.out = .pme i :: s.out ∧ t.ep i = { s.ep i with pmeStat := true, pmeDue := false, pmeAt := s.tick }))) ∧
  (∀ (s : State) (i : Inst), s.epPresent i = true → (s.ep i).pmeStat = true → (s.ep i).pmeEn = true → s.getF (Fld.stewardEpCfgDstate i) = 3 →
    (s.aonPast (s.ep i).pmeAt 128000000 = false → exec (.pmPmeResend i) s = .next s) ∧
    (s.aonPast (s.ep i).pmeAt 128000000 = true → s.inL0 (s.epLp i) = true →
      Completes (.pmPmeResend i) s (fun t => t.out = .pme i :: s.out ∧ t.ep i = { s.ep i with pmeDue := false, pmeAt := s.tick } ∧ t.regs = s.regs)) ∧
    (s.aonPast (s.ep i).pmeAt 128000000 = true → s.inL0 (s.epLp i) = false → Completes (.pmPmeResend i) s (fun t => t = s.setEp i { s.ep i with pmeDue := true }))) ∧
  (∀ (s : State) (i : Inst) (m : IntMech),
    ((s.ep i).mech = m → exec (.interruptMechanismChange i m) s = .next s) ∧
    (s.epPresent i = true → (s.ep i).mech ≠ m → s.mayInterrupt i = false → (s.ep i).inta = false →
      Completes (.interruptMechanismChange i m) s (fun t => t = s.setEp i { s.ep i with mech := m }))) ∧
  (∀ (s : State) (i : Inst) (v : Fin 64) (x : Nat), s.epPresent i = true →
    Completes (.msixVectorUnmask i v) s (fun t => Tbl.get (fun _ => false) (t.ep i).umask v.val = true ∧
      Tbl.get (fun _ => false) (t.ep i).vpend v.val = false ∧ t.regs = s.regs) ∧
    (Tbl.get (fun _ => false) (s.ep i).vpend v.val = true → s.mayInterrupt i = true → (s.ep i).mech = .msix → x < 22 →
      s.srcEnabled i x = true → s.srcPending i x = true → s.getF (Fld.stewardIntMapVector i x) = v.val →
      Completes (.msixVectorUnmask i v) s (fun t => t.out = .msi i v.val :: s.out))) ∧
  (∀ (s : State) (lp : Lp) (n : Nat) (m : MctpMsg), s.isRole lp 0 = true → s.instOf lp = none →
    Completes (.mctpPacket (some lp) n m) s (fun t =>
      t.getF Fld.stewardMctpDropTenant = min (s.getF Fld.stewardMctpDropTenant + 1) (2 ^ 16 - 1) ∧ RegsOnly s t [Fld.stewardMctpDropTenant])) ∧
  (∀ (s : State) (a : Nat), a % 4 = 0 → s.regAbsent a = false → latched a = false → latchWords a = [] →
    Completes (.mctpPacket none 64 (.regRead a)) s (fun t => t.out = .mctp none [s.regView .sideband a] :: s.out ∧ t.regs = s.regs)) ∧
  (∀ (s : State) (e : BitVec 8), s.stewardUp = true → s.stw.mctp = [] →
    Completes (.mctpPacket none 64 (.setEid e)) s (fun t => t.getF Fld.stewardMctpStatEidI3c = e.toNat ∧
      t.out = .mctp none [] :: s.out ∧ OnlyFields s t [Fld.stewardMctpStatEidI3c])) ∧
  (∀ (s : State) (lp : Option Lp) (n : Nat) (m : MctpMsg), (∀ k : Lp, lp = some k → (s.instOf k).isSome = true) →
    (lp = none → (∀ a, m ≠ .regRead a) ∧ (∀ a v, m ≠ .regWrite a v)) →
    (16384 < s.mctpBytes + n → Completes (.mctpPacket lp n m) s (fun t =>
      t.getF Fld.stewardMctpDropOvf = min (s.getF Fld.stewardMctpDropOvf + 1) (2 ^ 16 - 1) ∧ RegsOnly s t [Fld.stewardMctpDropOvf])) ∧
    (s.mctpBytes + n ≤ 16384 → s.stewardUp = false → Completes (.mctpPacket lp n m) s (fun t =>
      t = { s with stw := { s.stw with mctp := s.stw.mctp ++ [(lp.map (·.val), n, m)] } }))) ∧
  (∀ (s : State) (d : BitVec 7), Completes (.dynamicAddressAssignment d) s (fun t => t.getF Fld.stewardMctpStatDa = d.toNat ∧ RegsOnly s t [Fld.stewardMctpStatDa]))

/-- The FM API's answers (R387 to R389; the codes and the bytes of requests and responses are the model's, log 10). A command is served while
the steward runs, or when a ring holds it in APPLY before a switch restarts the cores, and not otherwise. Commands that read the device answer with success and what they read. A limit out of range is refused,
and one in range kept; events are read and the oldest cleared; the policy is kept. A command on a device behind a port is passed on where the
port is a downstream one with its link up, and refused elsewhere; its answer is the device's. A control of a port that does not exist is
refused, and deasserting PERST sets a port's ENABLE as a write of LP_CTL does. An AER event is raised on a vPPB of a switch. The answer to a command that came on a ring is written in its RETURN. -/
def Obligations.FmApiCommandsAreAnswered : Prop :=
  (∀ (s : State) (c : Instr), isFm c = true → s.stewardUp = false → s.stewardApplies = false ∨ s.fmInst = none → exec c s = .next s) ∧
  (∀ (s : State) (lp : Lp), s.stewardUp = true → s.fmInst = none →
    Completes .identify s (fun t => t = s.emit (.fm 0 (fmBody 0x0001 [0x1E9C, 0x3289, 0x1E9C, 0x3289, (Config.uid 0).toNat / 2 ^ 64, 14]))) ∧
    Completes .backgroundOperationStatus s (fun t => t = s.emit (.fm 0 (fmBody 0x0002 [(s.stw.bg.getD (0, 0, 0)).1, (s.stw.bg.getD (0, 0, 0)).2.1, (s.stw.bg.getD (0, 0, 0)).2.2]))) ∧
    Completes .getResponseMessageLimit s (fun t => t = s.emit (.fm 0 (fmBody 0x0003 [s.stw.limit]))) ∧
    Completes .getEvents s (fun t => t = s.emit (.fm 0 (fmBody 0x0100 s.stw.events))) ∧
    Completes .getEventInterruptPolicy s (fun t => t = s.emit (.fm 0 (fmBody 0x0102 [s.stw.policy]))) ∧
    Completes .identifySwitchDevice s (fun t => t = s.emit (.fm 0 (fmBody 0x5100 (64 :: (List.range 64).filter s.lpExists ++ (List.range 64).filter s.vcs)))) ∧
    Completes (.getPhysicalPortState lp) s (fun t => t = s.emit (.fm 0 (fmBody 0x5101 [lp.val, bit (s.lpExists lp), s.role lp, (s.rd (Reg.portLpStat lp)).toNat]))) ∧
    Completes .dcdGetInfo s (fun t => t = s.emit (.fm 0 (fmBody 0x5600 [4096, 8]))) ∧
    (s.isRole lp 0 = true → Completes (.getVirtualCxlSwitchInfo lp) s (fun t =>
      t = s.emit (.fm 0 (fmBody 0x5200 (lp.val :: (List.range 30).map (fun d => (s.rd (Reg.plotVppb lp d)).toNat)))))) ∧
    (s.isRole lp 0 = false → Completes (.getVirtualCxlSwitchInfo lp) s (fun t => t = s.emit (.fm 2 [])))) ∧
  (∀ (s : State) (n : Nat) (v : BitVec 8), s.stewardUp = true → s.fmInst = none →
    (8 ≤ v.toNat → v.toNat ≤ 14 → Completes (.setResponseMessageLimit v) s (fun t => t.stw.limit = v.toNat ∧
      t.out = .fm 0 (fmBody 0x0004 [v.toNat]) :: s.out ∧ t = { s with out := t.out, stw := { s.stw with limit := v.toNat } })) ∧
    (v.toNat < 8 ∨ 14 < v.toNat → Completes (.setResponseMessageLimit v) s (fun t => t = s.emit (.fm 2 []))) ∧
    Completes (.clearEvents n) s (fun t => t.out = .fm 0 (fmBody 0x0101 []) :: s.out ∧ t = { s with out := t.out, stw := { s.stw with events := s.stw.events.drop n } }) ∧
    Completes (.setEventInterruptPolicy v) s (fun t => t.out = .fm 0 (fmBody 0x0103 []) :: s.out ∧ t = { s with out := t.out, stw := { s.stw with policy := v.toNat } })) ∧
  (∀ (s : State) (lp : Lp) (ld : Fin 16) (reg : Fin 1024) (w : Option Word) (bytes : List Byte) (a : BitVec 64) (ws : Option (List Byte)),
    s.stewardUp = true → s.fmInst = none →
    ∀ c ∈ [Instr.sendPpbCxlIoConfigRequest lp reg w, .tunnelManagementCommand lp bytes, .sendLdCxlIoConfigRequest lp ld reg w,
      .sendLdCxlIoMemoryRequest lp ld a ws, .getLdInfo lp, .getLdAllocations lp, .setLdAllocations lp bytes],
    (s.isRole lp 1 = true → s.dllUp lp = true → Completes c s (fun t => ∃ body, t = { s with freeCtr := s.freeCtr + 1, out := .fm 0 body :: s.out })) ∧
    (s.isRole lp 1 = false ∨ s.dllUp lp = false → Completes c s (fun t => t = s.emit (.fm 2 [])))) ∧
  (∀ (s : State) (lp : Lp) (op : Fin 3), s.stewardUp = true → s.fmInst = none →
    (s.lpExists lp = false ∨ op = 2 ∧ s.role lp = 0 → Completes (.physicalPortControl lp op) s (fun t => t = s.emit (.fm 2 []))) ∧
    (s.lpExists lp = true → s.role lp ≠ 0 → s.instOf lp = none → op = 1 → Completes (.physicalPortControl lp op) s (fun t =>
      t = (s.lpCtlWrite lp (s.rd (Reg.portLpCtl lp) ||| 1)).emit (.fm 0 (fmBody 0x5102 []))))) ∧
  (∀ (s : State) (lp : Lp) (d : Fin 32) (e : Word), s.stewardUp = true → s.fmInst = none →
    (s.isRole lp 0 = true → Completes (.generateAerEvent lp d e) s (fun t =>
      Tbl.get (fun _ => 0) t.fn.aer (vppbObj lp d) = Tbl.get (fun _ => 0) s.fn.aer (vppbObj lp d) ||| e.toNat ∧ t.out = .fm 0 (fmBody 0x5203 []) :: s.out ∧ t.regs = s.regs)) ∧
    (s.isRole lp 0 = false → Completes (.generateAerEvent lp d e) s (fun t => t = s.emit (.fm 2 [])))) ∧
  (∀ (s : State) (i : Inst) (r : Ring) (e : SqEntry), s.stewardUp = true ∨ s.stewardApplies = true → s.fmInst = some i.val → (s.ep i).cmd = some (.fm r e) → (s.ep i).d3Due = false →
    s.epServed i = true → e.noInt = true → (∀ a b, a < 2 → b < 16 → (a, b) ≠ (i.val, r.val) → s.getF (Fld.stewardRingCfgEn a b) = 0) →
    s.getF (Fld.stewardRingStatSqHead i r) = s.sqTail i r → 2 + (fmBody 0x0100 s.stw.events).length ≤ e.outLen.toNat →
    Completes .getEvents s (fun t => (t.ep i).cmd = none ∧
      ∃ entry, t.out = entry :: .dmaWrite i e.outAddr.toNat (leBytes 2 0 ++ fmBody 0x0100 s.stw.events) :: s.out))

/-- The FM API's binds and dynamic capacity (R41, R42, R89, R389; codes and bytes as log 10 has them). A bind of a vPPB already bound, or one
below no switch, is refused, as is an unbind of one not bound; while a background command runs either is busy; else it starts as the background
command, and while a plot commit is pending its load-copy word waits with those before it. A command on a function not assigned is refused. A
region is a run of the function's extent list that meets no other. Added capacity, and capacity released by force, waits for a plot commit
with its load-copy words; other release is asked of the host through the function's mailbox. -/
def Obligations.BindsAndCapacityGoThroughCommits : Prop :=
  (∀ (s : State) (b : BindArgs), s.stewardUp = true → s.fmInst = none →
    (s.isRole b.vcs 0 = false ∨ (bindingOf s.regs b.vcs (b.d.val + 2)).isSome = true → Completes (.bindVppb b) s (fun t => t = s.emit (.fm 2 []))) ∧
    (s.isRole b.vcs 0 = true → bindingOf s.regs b.vcs (b.d.val + 2) = none → s.fwBusy = true → Completes (.bindVppb b) s (fun t => t = s.emit (.fm 6 []))) ∧
    (s.isRole b.vcs 0 = true → bindingOf s.regs b.vcs (b.d.val + 2) = none → s.fwBusy = false → s.plotLocked = true →
      Completes (.bindVppb b) s (fun t => t.stw = { s.stw with
          bg := some (0x5201, 0, 0),
          jobs := s.stw.jobs ++ [{ op := 0x5201, idx := 32 * b.vcs.val + b.d.val,
                                   writes := [(Reg.plotVppbLoad b.vcs b.d, BitVec.ofNat 32 (b.lp.val + 64 * b.ld.val + 1024 * bit b.mld + 2048))] }] } ∧
        t = { s with stw := t.stw, out := .fm 1 [] :: s.out }))) ∧
  (∀ (s : State) (v : Lp) (d : Fin 30), s.stewardUp = true → s.fmInst = none →
    (s.isRole v 0 = false ∨ bindingOf s.regs v (d.val + 2) = none → Completes (.unbindVppb v d) s (fun t => t = s.emit (.fm 2 []))) ∧
    (s.isRole v 0 = true → (bindingOf s.regs v (d.val + 2)).isSome = true → s.fwBusy = true → Completes (.unbindVppb v d) s (fun t => t = s.emit (.fm 6 []))) ∧
    (s.isRole v 0 = true → (bindingOf s.regs v (d.val + 2)).isSome = true → s.fwBusy = false → s.plotLocked = true →
      Completes (.unbindVppb v d) s (fun t => t.stw = { s.stw with
          bg := some (0x5202, 0, 0),
          jobs := s.stw.jobs ++ [{ op := 0x5202, idx := 32 * v.val + d.val, writes := [(Reg.plotVppbLoad v d, 0)] }] } ∧
        t = { s with stw := t.stw, out := .fm 1 [] :: s.out }))) ∧
  (∀ (s : State) (f : Fid) (k : Fin 8) (a n : Nat) (x : Fin 131072) (w0 w1 : Word) (forced : Bool), s.stewardUp = true → s.fmInst = none →
    s.getF (Fld.plotFnW0Assign f) = 0 →
    ∀ c ∈ [Instr.dcdGetHostRegionConfig f, .dcdSetRegionConfig f k a n, .dcdGetExtentLists f, .dcdInitiateAdd f x w0 w1, .dcdInitiateRelease f x forced],
      Completes c s (fun t => t = s.emit (.fm 2 []))) ∧
  (∀ (s : State) (f : Fid), s.stewardUp = true → s.fmInst = none → s.getF (Fld.plotFnW0Assign f) = 1 →
    Completes (.dcdGetHostRegionConfig f) s (fun t =>
      t = s.emit (.fm 0 (fmBody 0x5601 (f.val :: (List.range 8).flatMap (fun k => [(s.region f k).1, (s.region f k).2]))))) ∧
    Completes (.dcdGetExtentLists f) s (fun t =>
      t = s.emit (.fm 0 (fmBody 0x5603 (((List.range (s.fnExtents f).2).map (fun k => (s.fnExtents f).1 + k)).filter
        (fun k => decide (s.getF (Fld.extentXtW0Valid k) = 1))))))) ∧
  (∀ (s : State) (f : Fid) (k : Fin 8) (a n : Nat), s.stewardUp = true → s.fmInst = none → s.getF (Fld.plotFnW0Assign f) = 1 →
    ((s.fnExtents f).2 < a + n ∨ (∃ j, j < 8 ∧ j ≠ k.val ∧ runsMeet (s.region f j).1 (s.region f j).2 a n = true) →
      Completes (.dcdSetRegionConfig f k a n) s (fun t => t = s.emit (.fm 2 []))) ∧
    (a + n ≤ (s.fnExtents f).2 → (∀ j, j < 8 → j ≠ k.val → runsMeet (s.region f j).1 (s.region f j).2 a n = false) →
      Completes (.dcdSetRegionConfig f k a n) s (fun t => t.region f k = (a, n) ∧ (∀ g j, (g, j) ≠ (f.val, k.val) → j < 8 → t.region g j = s.region g j) ∧
        t = { s with out := .fm 0 (fmBody 0x5602 []) :: s.out, fn := { s.fn with regions := t.fn.regions } }))) ∧
  (∀ (s : State) (f : Fid) (x : Fin 131072) (w0 w1 : Word), s.stewardUp = true → s.fmInst = none → s.getF (Fld.plotFnW0Assign f) = 1 →
    ((s.inList f x = false ∨ wbit w0 31 = false → Completes (.dcdInitiateAdd f x w0 w1) s (fun t => t = s.emit (.fm 2 []))) ∧
     (s.inList f x = true → wbit w0 31 = true → s.plotLocked = true → Completes (.dcdInitiateAdd f x w0 w1) s (fun t =>
       t = { s with out := .fm 0 (fmBody 0x5604 []) :: s.out, stw := { s.stw with jobs := s.stw.jobs ++ [{ op := 0x5604, fid := f.val, idx := x.val, writes := [(Reg.extentXtW0Load x, w0), (Reg.extentXtW1Load x, w1)] }] } })) ∧
     (s.inList f x = true → Completes (.dcdInitiateRelease f x false) s (fun t =>
       t = { s with out := .fm 0 (fmBody 0x5605 []) :: s.out, fn := { s.fn with mailbox := s.fn.mailbox ++ [(f.val, 1, x.val)] } })) ∧
     (s.inList f x = true → s.plotLocked = true → Completes (.dcdInitiateRelease f x true) s (fun t =>
       t = { s with out := .fm 0 (fmBody 0x5605 []) :: s.out, stw := { s.stw with jobs := s.stw.jobs ++ [{ op := 0x5605, fid := f.val, idx := x.val, writes := [(Reg.extentXtW0Load x, s.rd (Reg.extentXtW0Load x) &&& ~~~0x80000000#32)] }] } }))))

/-- Clocks, supplies, temperature and voltage (R412, R413, R415, R417 to R420). A clock already out of range is no event; one that trips sets its bits and
raises source 0x11, and the meter's loss puts the tally plane in holdover. REFCLK_MAIN's return ends backup and holdover; a cluster's lock returns
while the core is locked. A rail that trips raises source 0x14 where its last trip, if any, is 1 ms by AON past, and else shows its bits alone. A sample with too few valid sensors, or from a master neither enabled
nor set by hand, gives the fixed voltage; else, acknowledged and with no gradient, the target steps by at most 5 mV toward the want. -/
def Obligations.ClocksSuppliesAndSensors : Prop :=
  (∀ (s : State) (k : Clk), s.getF (clkFd (clkBit k)) = 1 → exec (.clockMonitorTrip k) s = .next s) ∧
  (∀ (s : State) (k : Clk), s.getF (clkFd (clkBit k)) = 0 → Tbl.get (fun _ => none) s.cpr.fell (clkBit k) = none → (∀ p, p < 64 → s.inL0 p = false) →
    Completes (.clockMonitorTrip k) s (fun t => t.getF (clkFd (clkBit k)) = 1 ∧ t.getF ⟨Reg.cprClkmonEvt, clkBit k, 1⟩ = 1 ∧
      t.flt = { s.flt with tickEvents := s.flt.tickEvents ++ [{ src := 0x11, tick := s.tick, d0 := clkDomain k }] } ∧
      OnlyFields s t [clkFd (clkBit k), ⟨Reg.cprClkmonEvt, clkBit k, 1⟩] ∧ t = { s with regs := t.regs, flt := t.flt })) ∧
  (∀ s : State, s.getF (clkFd 17) = 1 → s.mz.down ≠ none → Completes (.refclkLoss .meter) s (fun t =>
    t.getF Fld.cprClkStatTallyHoldover = 1 ∧ RegsOnly s t [Fld.cprClkStatTallyHoldover])) ∧
  (∀ s : State, s.getF (clkFd 16) = 1 → (∀ p, p < 64 → s.inL0 p = false) → s.getF Fld.cprClkStatAonBackup = 0 → Completes (.refclkLoss .main) s (fun t =>
    t.getF Fld.cprClkStatAonBackup = 1 ∧ t.getF Fld.cprClkStatHoldover = 1 ∧ RegsOnly s t [Fld.cprClkStatAonBackup, Fld.cprClkStatHoldover])) ∧
  (∀ s : State, Completes .refclkMainReturn s (fun t => t.getF Fld.cprClkStatAonBackup = 0 ∧ t.getF Fld.cprClkStatHoldover = 0 ∧
    t.getF Fld.cprClkmonStatMain = 0 ∧ Tbl.get (fun _ => none) t.cpr.fell 16 = none ∧ OnlyFields s t [Fld.cprClkStatAonBackup, Fld.cprClkStatHoldover, Fld.cprClkmonStatMain] ∧
    t = { s with regs := t.regs, cpr := t.cpr })) ∧
  (∀ (s : State) (c : Fin 16), (s.getF Fld.cprClkStatCoreLock = 0 → exec (.clusterPllRelock c) s = .next s) ∧
    (s.getF Fld.cprClkStatCoreLock = 1 → Completes (.clusterPllRelock c) s (fun t =>
      t.getF ⟨Reg.cprClkStat, 3 + c.val, 1⟩ = 1 ∧ t.getF (clkFd c.val) = 0 ∧
      OnlyFields s t [⟨Reg.cprClkStat, 3 + c.val, 1⟩, clkFd c.val] ∧ t = { s with regs := t.regs, cpr := t.cpr }))) ∧
  (∀ (s : State) (r : Rail) (last : Option Nat), Tbl.get (fun _ => none) s.cpr.trips r.val = last →
    Completes (.supplyMonitorTrip r) s (fun t =>
      t.getF ⟨Reg.cprSupplyStat, r.val, 1⟩ = 0 ∧ t.getF ⟨Reg.cprSupplyEvt, r.val, 1⟩ = 1 ∧
      Tbl.get (fun _ => none) t.cpr.trips r.val = some s.tick ∧
      ((last = none ∨ ∃ n, last = some n ∧ s.aonPast n 250000 = true) →
        t.flt = { s.flt with tickEvents := s.flt.tickEvents ++ [{ src := 0x14, tick := s.tick, d0 := r.val }] }) ∧
      (∀ n, last = some n → s.aonPast n 250000 = false → t.flt = s.flt) ∧
      OnlyFields s t [⟨Reg.cprSupplyStat, r.val, 1⟩, ⟨Reg.cprSupplyEvt, r.val, 1⟩] ∧ t = { s with regs := t.regs, flt := t.flt, cpr := t.cpr })) ∧
  (∀ (s : State) (l : List Sensor) (acked : Bool) (mv : BitVec 10),
    (validReadings l).length < 12 ∨ s.getF Fld.cprAvsCtlEn = 0 ∧ s.getF Fld.cprAvsCtlManual = 0 →
    Completes (.sensorSample l acked mv) s (fun t => t.getF Fld.cprAvsStatTargetMv = 960 ∧ t.getF Fld.cprAvsStatFixed = 1 ∧
      t.getF Fld.cprAvsStatReadMv = mv.toNat ∧ t.out = .avs 960 :: s.out ∧ t.getF Fld.cprThermStatValidCnt = (validReadings l).length)) ∧
  (∀ (s : State) (l : List Sensor) (h : Nat × Int) (c : Int) (mv : BitVec 10), 12 ≤ (validReadings l).length → hottest (validReadings l) = some h →
    coolest (validReadings l) = some c → h.2 - c ≤ 25 → s.getF Fld.cprAvsCtlEn = 1 →
    Completes (.sensorSample l true mv) s (fun t =>
      t.getF Fld.cprAvsStatTargetMv = avsStep (s.getF Fld.cprAvsStatTargetMv) (avsWant (s.getF Fld.cprAvsStatCorner) h.2) ∧ t.getF Fld.cprAvsStatFixed = 0 ∧
      t.out = .avs (avsStep (s.getF Fld.cprAvsStatTargetMv) (avsWant (s.getF Fld.cprAvsStatCorner) h.2)) :: s.out ∧
      t.getF Fld.cprThermStatHottest = degBits h.2 ∧
      (h.2 < 110 → t.flt = s.flt) ∧
      (115 ≤ h.2 → s.cpr.hot = false →
        t.flt = { s.flt with tickEvents := s.flt.tickEvents ++ [{ src := 0x13, tick := s.tick, d0 := h.1, d1 := h.2.toNat }] })))

/-- Resets and register writes (R11, R14, R315, R344, R367, R368, R371, R422 to R425). A device reset, by PWRGOOD or by SYS_RST_N, starts start-up over at step 1
with its cause shown, nothing in flight, and the queue, the flash and the MZ12's secrets kept. Its release locks the PLLs at TICK 0, and applies the ROM's patches once the identity is good, and an identity that fails
halts start-up with UID_BAD. A write of no register, or a misaligned one, does nothing, and counts where it came through BAR 0; an instance
not present, in D3hot, or a debug master not admitted does not write. A register with access codes alone follows them. -/
def Obligations.ResetsAndRegisterWrites : Prop :=
  (∀ (s : State) (held por : Bool) (c : Instr), c = (if por then .pwrgoodLow held else .sysRstNAssert held) →
    Completes c s (fun t => t.getF Fld.cprResetCausePor = bit por ∧ t.getF Fld.cprResetCauseSys = bit (!por) ∧
      t.getF Fld.cprStartStep = 1 ∧ t.getF Fld.cprStartHalt = 0 ∧ t.tick = 0 ∧ t.pending = s.pending ∧ t.out = s.out ∧ t.commits = [] ∧
      t.dp = State.reset.dp ∧ t.home = State.reset.home ∧ t.link = State.reset.link ∧ t.fn = State.reset.fn ∧ t.sec.keys = s.sec.keys ∧
      (s.cfg.job = none → t.cfg.flash = s.cfg.flash) ∧ t.rd Reg.securityKeyregUsed = s.rd Reg.securityKeyregUsed)) ∧
  (∀ (s : State) (ok : Bool), s.inReset = false → exec (.deviceResetRelease ok) s = .next s) ∧
  (∀ s : State, s.inReset = true → Completes (.deviceResetRelease false) s (fun t => t.tick = 0 ∧ t.pending = s.pending ∧
    t.getF Fld.cprStartStep = 2 ∧ t.getF Fld.cprStartHalt = 1 ∧ t.getF Fld.cprStartHaltCause = 1 ∧ t.getF Fld.globalLifecycleUidBad = 1)) ∧
  (∀ s : State, s.inReset = true → s.lifecycle ≠ 4 → Completes (.deviceResetRelease true) s (fun t => t.tick = 0 ∧ t.pending = s.pending ∧
    t.getF Fld.cprStartStep = 3 ∧ t.getF Fld.cprStartHalt = 0 ∧ t.getF Fld.cprClkStatCoreLock = 1 ∧ t.getF Fld.cprClkStatLinkLock = 0xFFFF ∧
    t.getF Fld.cprAvsStatCorner = Config.corner.toNat ∧ t.sec.patches = Config.romPatches.take 32)) ∧
  (∀ (s : State) (src : Source) (a : Nat) (v : Word), src = .steward ∨ src = .sideband → a % 4 ≠ 0 ∨ s.regAbsent a = true →
    exec (.registerWrite src a v) s = .next s) ∧
  (∀ (s : State) (a : Nat) (v : Word) (r : RegRow), a % 4 = 0 → s.regAbsent a = false → regRow a = some r →
    0x100000 ≤ a ∧ a < 0x200000 ∨ 0x1A00000 ≤ a ∧ a < 0x1A40000 → ∀ src ∈ [Source.steward, .sideband],
    Completes (.registerWrite src a v) s (fun t => t.rd a = rowWritten r (s.rd a) v false ∧ (∀ x, x ≠ a → t.rd x = s.rd x) ∧ t = { s with regs := t.regs })) ∧
  (∀ (s : State) (k : Nat) (src : Source) (a : Nat) (v : Word), [(0, Source.inst0), (1, .inst1)].contains (k, src) = true →
    (s.epPresent k = false ∨ s.getF (Fld.stewardEpCfgDstate k) = 3 → exec (.registerWrite src a v) s = .next s) ∧
    (s.epPresent k = true → s.getF (Fld.stewardEpCfgDstate k) ≠ 3 → a % 4 ≠ 0 → Completes (.registerWrite src a v) s (fun t =>
      t.getF (Fld.stewardEpStatBadacc k) = min (s.getF (Fld.stewardEpStatBadacc k) + 1) 255 ∧ RegsOnly s t [Fld.stewardEpStatBadacc k]))) ∧
  (∀ (s : State) (a : Nat) (v : Word), s.debugOpen = false → exec (.registerWrite .debug a v) s = .next s)

/-- The input of a ring's command, once its last read is here, is applied (R363, R374 to R376, R390, R391). A field out of range ends the command
with status 2. REG_WRITE writes its registers and returns their number; REG_READ returns what they read; PROG_LOAD starts the load of its engine and
waits for it; FW_LOAD returns the verdict on its image, an accepted one being the valid image of the slot not in use; MZ_CMD puts its command
in the inbox, busy, and waits for it; CFG_WRITE is refused for a busy store and for the preferred copy, and else the copy holds the image and
shows its check. FW_ACTIVATE, which has no input, starts the switch, or is refused when no valid image stands in the other slot. -/
def Obligations.RingInputsAreApplied : Prop :=
  (∀ (s : State) (i : Inst) (r : Ring) (e : SqEntry), (s.ep i).cmd = some (.entry r) → (s.ep i).d3Due = false → s.epServed i = true →
    s.stewardUp = true → AloneOn s i r → e.noInt = true → e.inLen = 0 → e.outLen.toNat ≤ 65536 → s.fwBusy = false →
    (s.getF (fwValidFd s.fwOther) = 1 → Completes (.fwActivate i r e) s (fun t => (t.ep i).cmd = some (.switching r e) ∧
      t.getF Fld.stewardFwStatSwitching = 1 ∧ t.getF Fld.stewardFwStatCode = 0 ∧
      t.getF (Fld.stewardRingStatSqHead i r) = (s.getF (Fld.stewardRingStatSqHead i r) + 1) % s.sqSize i r)) ∧
    (s.getF (fwValidFd s.fwOther) = 0 → Completes (.fwActivate i r e) s (fun t => Returned s t i r e 4 5 [] ∧
      t.getF Fld.stewardFwStatCode = 5))) ∧
  (∀ (s : State) (i : Inst) (r : Ring) (k at_ : Nat) (c : Instr), (s.ep i).cmd = some (.input r c [k] []) →
    (s.ep i).reads = [(k, s.getF (Fld.stewardEpCfgGen i), at_)] → (s.ep i).d3Due = false → s.epServed i = true → s.stewardUp = true →
    AloneOn s i r → (entryOf c).noInt = true → s.mayApply c = true →
    (rangeBad c = true → Completes (.epDmaCompletion i k true) s (fun t => Returned s t i r (entryOf c) 2 0 [])) ∧
    (rangeBad c = false →
      (∀ (e : SqEntry) (a : Nat) (v : Word) (row : RegRow), c = .regWrite i r e [(a, v)] → a % 4 = 0 → s.regAbsent a = false →
        regRow a = some row → 0x100000 ≤ a ∧ a < 0x200000 ∨ 0x1A00000 ≤ a ∧ a < 0x1A40000 →
        Completes (.epDmaCompletion i k true) s (fun t => Returned s t i r e 0 1 [] ∧ t.rd a = rowWritten row (s.rd a) v false)) ∧
      (∀ (e : SqEntry) (a : Nat), c = .regRead i r e [a] → a % 4 = 0 → s.regAbsent a = false → latched a = false → 4 ≤ e.outLen.toNat →
        0x100000 ≤ a ∧ a < 0x200000 ∨ 0x1A00000 ≤ a ∧ a < 0x1A40000 →
        Completes (.epDmaCompletion i k true) s (fun t => Returned s t i r e 0 0 (leBytes 4 (s.rd a).toNat) ∧ t.rd a = s.rd a)) ∧
      (∀ (e : SqEntry) (mask p : Word) (n : Phys) (image : List Byte), c = .progLoad i r e mask p image → maskEngines mask = [n.val] →
        s.shape n < 2 → s.getF (Fld.coulterLoadStatBusy n) = 0 →
        Completes (.epDmaCompletion i k true) s (fun t => (t.ep i).cmd = some (.wait r c) ∧
          t.getF (Fld.coulterLoadStatBusy n) = 1 ∧ t.getF (Fld.coulterLoadStatProg n) = p.toNat ∧
          t.getF (Fld.stewardRingStatSqHead i r) = (s.getF (Fld.stewardRingStatSqHead i r) + 1) % s.sqSize i r)) ∧
      (∀ (e : SqEntry) (image : List Byte), c = .fwLoad i r e image →
        Completes (.epDmaCompletion i k true) s (fun t =>
          Returned s t i r e (if s.fwVerdict image = 0 then 0 else 4) (s.fwVerdict image) [] ∧
          t.getF Fld.stewardFwStatCode = s.fwVerdict image ∧ (s.fwVerdict image = 0 → t.getF (fwValidFd s.fwOther) = 1))) ∧
      (∀ (e : SqEntry) (bytes : List Byte), c = .mzCmd i r e bytes →
        s.mz.working = false ∨ mArgMasks (mArg (s.writeWords (Reg.stewardMzInbox 0) bytes).inbox 0) ≠ none →
        Completes (.epDmaCompletion i k true) s (fun t => (t.ep i).cmd = some (.wait r c) ∧
          t.getF Fld.stewardMzInboxCtlBusy = 1 ∧ t.inbox = (s.writeWords (Reg.stewardMzInbox 0) bytes).inbox)) ∧
      (∀ (e : SqEntry) (copy : Word) (image : List Byte) (b : Bool), c = .cfgWrite i r e copy image → b = decide (copy.toNat = 1) →
        (s.storeBusy = true → Completes (.epDmaCompletion i k true) s (fun t => Returned s t i r e 4 1 [])) ∧
        (s.storeBusy = false → s.prefNow = 1 + bit b → Completes (.epDmaCompletion i k true) s (fun t => Returned s t i r e 4 2 [])) ∧
        (s.storeBusy = false → s.prefNow ≠ 1 + bit b → Completes (.epDmaCompletion i k true) s (fun t => (t.ep i).cmd = none ∧
          t.getF (reasonFd b) = t.checkCode b ∧ t.getF (validFd b) = bit (decide (t.checkCode b = 0)) ∧
          ∀ n, n < image.length → t.flashBytes (copyBase b + n) 1 = [(image[n]?).getD 0])))))

end
end

