-- ==== Sys2Proof/Laws/Table.lean ====
section
/-! SUPPORT. Sparse tables: reads after writes, copies and clears, which need no invariant, and that every table operation keeps the canonical
form. -/

namespace Sys2Proof

variable {α : Type}

/-- Reading a table of which only the numbers in `p` were kept. -/
theorem Tbl.get_filter (d : Nat → α) (t : Tbl α) (p : Nat → Bool) (k : Nat) :
    Tbl.get d (t.filter (fun e => p e.1)) k = if p k then Tbl.get d t k else d k := by
  induction t with
  | nil => simp [Tbl.get]
  | cons e t ih =>
    by_cases he : p e.1 = true
    · rw [List.filter_cons_of_pos (by simpa using he)]
      by_cases hk : k = e.1 <;> simp [Tbl.get, hk, he, ih]
    · rw [List.filter_cons_of_neg (by simpa using he), ih]
      by_cases hk : k = e.1 <;> simp_all [Tbl.get]

/-- A table without one number. -/
theorem Tbl.get_filter_ne (d : Nat → α) (t : Tbl α) (k j : Nat) :
    Tbl.get d (t.filter (fun x => x.1 ≠ k)) j = if j = k then d k else Tbl.get d t j := by
  have h := Tbl.get_filter d t (fun x => decide (x ≠ k)) j
  rw [h]
  by_cases hj : j = k <;> simp [hj]

/-- Where the defaults agree at a number, so do the reads. -/
theorem Tbl.get_congr (d d' : Nat → α) (t : Tbl α) (k : Nat) (h : d k = d' k) : Tbl.get d t k = Tbl.get d' t k := by
  induction t with
  | nil => exact h
  | cons e t ih => simp [Tbl.get, ih]

/-- A read after a write: the value written at that number, what was there elsewhere. -/
theorem Tbl.get_set [DecidableEq α] (d : Nat → α) (t : Tbl α) (k j : Nat) (v : α) :
    Tbl.get d (Tbl.set d t k v) j = if j = k then v else Tbl.get d t j := by
  induction t with
  | nil =>
    by_cases hv : v = d k <;> by_cases hj : j = k <;> simp_all [Tbl.set, Tbl.get]
  | cons e t ih =>
    simp only [Tbl.set]
    split
    · rename_i hk
      split
      · rename_i hv
        simp only [Tbl.get, Tbl.get_filter_ne]
        by_cases hj : j = k
        · have : j ≠ e.1 := by omega
          simp [hj, hv]; omega
        · simp [hj]
      · simp [Tbl.get]
    · split
      · rename_i hk
        split
        · rename_i hv
          rw [Tbl.get_filter_ne]
          by_cases hj : j = k <;> simp_all [Tbl.get]
        · by_cases hj : j = k <;> simp_all [Tbl.get]
      · rename_i h1 h2
        simp only [Tbl.get, ih]
        by_cases hj : j = k
        · have : j ≠ e.1 := by omega
          simp [hj, h2]
        · simp [hj]

/-- A read of the number written. -/
@[simp] theorem Tbl.get_set_same [DecidableEq α] (d : Nat → α) (t : Tbl α) (k : Nat) (v : α) :
    Tbl.get d (Tbl.set d t k v) k = v := by simp [Tbl.get_set]

/-- A read of another number. -/
theorem Tbl.get_set_ne [DecidableEq α] (d : Nat → α) (t : Tbl α) (k j : Nat) (v : α) (h : j ≠ k) :
    Tbl.get d (Tbl.set d t k v) j = Tbl.get d t j := by simp [Tbl.get_set, h]

/-- The empty table is canonical. -/
theorem Tbl.wf_nil [DecidableEq α] (d : Nat → α) : Tbl.wf d ([] : Tbl α) := by simp [Tbl.wf]

/-- Leaving entries out keeps the canonical form. -/
theorem Tbl.wf_filter [DecidableEq α] (d : Nat → α) (t : Tbl α) (p : Nat × α → Bool) (h : Tbl.wf d t) :
    Tbl.wf d (t.filter p) :=
  ⟨h.1.filter _, fun e he => h.2 e (List.mem_of_mem_filter he)⟩

/-- Clearing a range keeps the canonical form. -/
theorem Tbl.wf_clear [DecidableEq α] (d : Nat → α) (t : Tbl α) (b n : Nat) (h : Tbl.wf d t) : Tbl.wf d (Tbl.clear t b n) :=
  Tbl.wf_filter d t _ h

/-- Numbers of a written table are those that were listed, and the number written. -/
theorem Tbl.mem_set [DecidableEq α] (d : Nat → α) (t : Tbl α) (k : Nat) (v : α) (e : Nat × α) (h : e ∈ Tbl.set d t k v) :
    (e = (k, v) ∧ v ≠ d k) ∨ e ∈ t := by
  induction t with
  | nil =>
    by_cases hv : v = d k <;> simp_all [Tbl.set]
  | cons x t ih =>
    simp only [Tbl.set] at h
    split at h
    · split at h
      · rcases List.mem_cons.mp h with h | h
        · exact .inr (by simp [h])
        · exact .inr (List.mem_cons_of_mem _ (List.mem_of_mem_filter h))
      · rcases List.mem_cons.mp h with h | h
        · exact .inl ⟨h, by assumption⟩
        · exact .inr h
    · split at h
      · split at h
        · exact .inr (List.mem_cons_of_mem _ (List.mem_of_mem_filter h))
        · rcases List.mem_cons.mp h with h | h
          · exact .inl ⟨h, by assumption⟩
          · exact .inr (List.mem_cons_of_mem _ h)
      · rcases List.mem_cons.mp h with h | h
        · exact .inr (by simp [h])
        · rcases ih h with h | h
          · exact .inl h
          · exact .inr (List.mem_cons_of_mem _ h)

/-- A write keeps the canonical form. -/
theorem Tbl.wf_set [DecidableEq α] (d : Nat → α) (t : Tbl α) (k : Nat) (v : α) (h : Tbl.wf d t) :
    Tbl.wf d (Tbl.set d t k v) := by
  refine ⟨?_, fun e he => ?_⟩
  · have h1 := h.1
    clear h
    induction t with
    | nil => by_cases hv : v = d k <;> simp [Tbl.set, hv]
    | cons x t ih =>
      have hx := List.pairwise_cons.mp h1
      simp only [Tbl.set]
      split
      · rename_i hk
        split
        · exact List.pairwise_cons.mpr ⟨fun e he => hx.1 e (List.mem_of_mem_filter he), hx.2.filter _⟩
        · refine List.pairwise_cons.mpr ⟨fun e he => ?_, h1⟩
          rcases List.mem_cons.mp he with he | he
          · subst he; exact hk
          · exact lt_trans hk (hx.1 e he)
      · split
        · rename_i hk
          split
          · exact hx.2.filter _
          · refine List.pairwise_cons.mpr ⟨fun e he => ?_, hx.2⟩
            have := hx.1 e he
            simp only [hk]; exact this
        · rename_i hk1 hk2
          refine List.pairwise_cons.mpr ⟨fun e he => ?_, ih hx.2⟩
          rcases Tbl.mem_set d t k v e he with he | he
          · have : e.1 = k := by rw [he.1]
            omega
          · exact hx.1 e he
  · rcases Tbl.mem_set d t k v e he with he | he
    · rw [he.1]; exact he.2
    · exact h.2 e he

/-- Copying a range keeps the canonical form. -/
theorem Tbl.wf_copy [DecidableEq α] (d : Nat → α) (t : Tbl α) (a b n : Nat) (h : Tbl.wf d t) :
    Tbl.wf d (Tbl.copy d t a b n) := by
  have key : ∀ (l : List (Nat × α)) (u : Tbl α), Tbl.wf d u →
      Tbl.wf d (l.foldr (fun e acc => Tbl.set d acc (e.1 - a + b) e.2) u) := by
    intro l
    induction l with
    | nil => intro u hu; exact hu
    | cons x l ih => intro u hu; exact Tbl.wf_set d _ _ _ (ih u hu)
  exact key _ _ (Tbl.wf_filter d t _ h)

/-- A copied range reads as its source did; the rest is as before, where the two ranges have the same defaults. -/
theorem Tbl.get_copy [DecidableEq α] (d : Nat → α) (t : Tbl α) (src dst len : Nat)
    (hd : ∀ k, k < len → d (src + k) = d (dst + k)) (k : Nat) :
    Tbl.get d (Tbl.copy d t src dst len) k =
      if dst ≤ k ∧ k < dst + len then Tbl.get d t (k - dst + src) else Tbl.get d t k := by
  have fold : ∀ (l : List (Nat × α)) (u : Tbl α), (∀ e ∈ l, src ≤ e.1) →
      Tbl.get d (l.foldr (fun e acc => Tbl.set d acc (e.1 - src + dst) e.2) u) k =
        if dst ≤ k then Tbl.get (fun _ => Tbl.get d u k) l (k - dst + src) else Tbl.get d u k := by
    intro l u hs
    induction l with
    | nil => simp [Tbl.get]
    | cons x l ih =>
      have hx := hs x (List.mem_cons_self ..)
      rw [List.foldr_cons, Tbl.get_set, ih (fun e he => hs e (List.mem_cons_of_mem _ he))]
      by_cases h1 : k = x.1 - src + dst
      · have h2 : dst ≤ k := by omega
        have h3 : k - dst + src = x.1 := by omega
        rw [if_pos h1, if_pos h2, h3]
        simp [Tbl.get]
      · rw [if_neg h1]
        split
        · have h3 : k - dst + src ≠ x.1 := by omega
          simp [Tbl.get, h3]
        · rfl
  unfold Tbl.copy
  rw [fold _ _ (fun e he => (of_decide_eq_true (List.mem_filter.mp he).2).1),
    Tbl.get_filter d t (fun a => !decide (dst ≤ a ∧ a < dst + len)) k]
  by_cases hr : dst ≤ k ∧ k < dst + len
  · have h5 := hd (k - dst) (by omega)
    have h6 : dst + (k - dst) = k := by omega
    have h7 : src + (k - dst) = k - dst + src := by omega
    rw [h6, h7] at h5
    have h8 := Tbl.get_filter (fun _ => d k) t (fun a => decide (src ≤ a ∧ a < src + len)) (k - dst + src)
    have h9 : src ≤ k - dst + src ∧ k - dst + src < src + len := by omega
    simp only [h9, and_self, decide_true, if_true] at h8
    rw [if_pos hr, if_pos hr.1]
    have h10 : (if (!decide (dst ≤ k ∧ k < dst + len)) = true then Tbl.get d t k else d k) = d k := by simp [hr]
    rw [h10, h8]
    exact Tbl.get_congr _ _ _ _ h5.symm
  · rw [if_neg hr]
    have h10 : (if (!decide (dst ≤ k ∧ k < dst + len)) = true then Tbl.get d t k else d k) = Tbl.get d t k := by simp [hr]
    simp only [h10]
    split
    · have h8 := Tbl.get_filter (fun _ => Tbl.get d t k) t (fun a => decide (src ≤ a ∧ a < src + len)) (k - dst + src)
      have h9 : ¬(src ≤ k - dst + src ∧ k - dst + src < src + len) := by omega
      simp only [h9, decide_false, Bool.false_eq_true, if_false] at h8
      exact h8
    · rfl

/-- A part of a table that the entry written does not belong to. -/
theorem Tbl.filter_set [DecidableEq α] (d : Nat → α) (t : Tbl α) (k : Nat) (v : α) (p : Nat → Bool) (h : p k = false) :
    (Tbl.set d t k v).filter (fun e => p e.1) = t.filter (fun e => p e.1) := by
  have drop : ∀ l : Tbl α, (l.filter (fun x => x.1 ≠ k)).filter (fun e => p e.1) = l.filter (fun e => p e.1) := by
    intro l
    rw [List.filter_filter]
    refine List.filter_congr (fun x _ => ?_)
    by_cases e : x.1 = k
    · rw [e, h]; rfl
    · simp [e]
  induction t with
  | nil =>
    unfold Tbl.set
    split
    · rfl
    · simp [h]
  | cons e t ih =>
    unfold Tbl.set
    split
    · split
      · rw [List.filter_cons, List.filter_cons, drop]
      · rw [List.filter_cons_of_neg (by simp [h])]
    · split
      · rename_i he
        have hp : p e.1 = false := by rw [← he]; exact h
        split
        · rw [drop, List.filter_cons_of_neg (by simp [hp])]
        · rw [List.filter_cons_of_neg (by simp [h]), List.filter_cons_of_neg (by simp [hp])]
      · rw [List.filter_cons, List.filter_cons, ih]

end Sys2Proof
end

