-- ==== Sys2Proof/Laws/Ops.lean ====
section
/-! SUPPORT. What the shared operations do, once: register reads after writes, fields, register-only frames, and the shape of every
command that goes through `act`. -/

namespace Sys2Proof.Machine

/-! ### Register words -/

/-- A register after a register write. -/
theorem State.rd_wr (s : State) (a b : Nat) (v : Word) : (s.wr a v).rd b = if b = a then v else s.rd b :=
  Tbl.get_set _ _ _ _ _

/-- The register written. -/
@[simp] theorem State.rd_wr_same (s : State) (a : Nat) (v : Word) : (s.wr a v).rd a = v := by simp [State.rd_wr]

/-- Another register. -/
theorem State.rd_wr_ne (s : State) (a b : Nat) (v : Word) (h : b ≠ a) : (s.wr a v).rd b = s.rd b := by simp [State.rd_wr, h]

/-- A register write changes registers only. -/
theorem State.wr_eq (s : State) (a : Nat) (v : Word) : s.wr a v = { s with regs := (s.wr a v).regs } := rfl

/-! ### Fields -/

/-- Bit of a field mask. -/
theorem getLsbD_fieldMask (lo n b : Nat) :
    (fieldMask lo n).getLsbD b = (decide (lo ≤ b ∧ b < lo + n) && decide (b < 32)) := by
  unfold fieldMask
  rw [BitVec.getLsbD_ofNat, Nat.testBit_shiftLeft, Nat.testBit_two_pow_sub_one]
  by_cases h1 : lo ≤ b <;> by_cases h2 : b < lo + n <;> by_cases h3 : b < 32 <;> simp [h1, h2, h3] <;> omega

/-- Bit of a word with a field put. -/
theorem getLsbD_fieldPut (w : Word) (lo n v b : Nat) :
    (fieldPut w lo n v).getLsbD b =
      if lo ≤ b ∧ b < lo + n ∧ b < 32 then v.testBit (b - lo) else w.getLsbD b := by
  by_cases h3 : b < 32
  · unfold fieldPut
    simp only [BitVec.getLsbD_or, BitVec.getLsbD_and, BitVec.getLsbD_not, getLsbD_fieldMask, BitVec.getLsbD_ofNat,
      Nat.testBit_shiftLeft, Nat.testBit_mod_two_pow]
    by_cases h1 : lo ≤ b <;> by_cases h2 : b < lo + n <;> simp [h1, h2, h3] <;> omega
  · have hb : 32 ≤ b := Nat.le_of_not_lt h3
    simp [h3, BitVec.getLsbD_of_ge _ _ hb]

/-- A field of a word, bit by bit. -/
theorem testBit_fieldGet (w : Word) (lo n b : Nat) :
    (fieldGet w lo n).testBit b = (decide (b < n) && w.getLsbD (lo + b)) := by
  unfold fieldGet
  simp [Nat.testBit_mod_two_pow, Nat.testBit_shiftRight, BitVec.getLsbD]

/-- The field put is read back. -/
theorem fieldGet_fieldPut (w : Word) (lo n v : Nat) (h : lo + n ≤ 32) : fieldGet (fieldPut w lo n v) lo n = v % 2 ^ n := by
  apply Nat.eq_of_testBit_eq
  intro b
  rw [testBit_fieldGet, getLsbD_fieldPut, Nat.testBit_mod_two_pow]
  by_cases hb : b < n
  · have : lo ≤ lo + b ∧ lo + b < lo + n ∧ lo + b < 32 := by omega
    simp [hb, this]
  · simp [hb]

/-- A field apart from the one put is as before. -/
theorem fieldGet_fieldPut_ne (w : Word) (lo n v lo' n' : Nat) (h : lo' + n' ≤ lo ∨ lo + n ≤ lo') :
    fieldGet (fieldPut w lo n v) lo' n' = fieldGet w lo' n' := by
  apply Nat.eq_of_testBit_eq
  intro b
  rw [testBit_fieldGet, testBit_fieldGet, getLsbD_fieldPut]
  by_cases hb : b < n'
  · have : ¬(lo ≤ lo' + b ∧ lo' + b < lo + n ∧ lo' + b < 32) := by omega
    simp [this]
  · simp [hb]

/-- The field set is read back. -/
theorem State.getF_setF (s : State) (f : Fd) (v : Nat) (h : f.lo + f.width ≤ 32) : (s.setF f v).getF f = v % 2 ^ f.width := by
  simp [State.getF, State.setF, fieldGet_fieldPut _ _ _ _ h]

/-- A field of another register, or apart in the same one, is as before. -/
theorem State.getF_setF_ne (s : State) (f g : Fd) (v : Nat)
    (h : g.addr ≠ f.addr ∨ g.lo + g.width ≤ f.lo ∨ f.lo + f.width ≤ g.lo) : (s.setF f v).getF g = s.getF g := by
  unfold State.getF State.setF
  by_cases ha : g.addr = f.addr
  · rw [ha, State.rd_wr_same]
    rcases h with h | h
    · exact absurd ha h
    · exact fieldGet_fieldPut_ne _ _ _ _ _ _ h
  · rw [State.rd_wr_ne _ _ _ _ ha]

/-- A field of a register that a word write does not reach. -/
theorem State.getF_wr_ne (s : State) (a : Nat) (v : Word) (g : Fd) (h : g.addr ≠ a) : (s.wr a v).getF g = s.getF g := by
  simp [State.getF, State.rd_wr_ne _ _ _ _ h]

/-- A register apart from the field's is as before. -/
theorem State.rd_setF_ne (s : State) (f : Fd) (v a : Nat) (h : a ≠ f.addr) : (s.setF f v).rd a = s.rd a :=
  State.rd_wr_ne _ _ _ _ h

/-- A field is less than its width allows. -/
theorem State.getF_lt (s : State) (f : Fd) : s.getF f < 2 ^ f.width := by
  unfold State.getF fieldGet
  exact Nat.mod_lt _ (Nat.two_pow_pos _)

/-- A count field raised by 1 and not yet full. -/
theorem State.getF_bump (s : State) (f : Fd) (h : f.lo + f.width ≤ 32) :
    (s.bump f).getF f = min (s.getF f + 1) (2 ^ f.width - 1) := by
  unfold State.bump State.addSat
  rw [State.getF_setF _ _ _ h, Nat.mod_eq_of_lt]
  have := Nat.two_pow_pos f.width
  omega

/-! ### Register-only frames -/

/-- Nothing changed is within any fields. -/
theorem OnlyFields.refl (s : State) (fs : List Fd) : OnlyFields s s fs := fun _ _ _ => rfl

/-- One field set. -/
theorem OnlyFields.setF (s : State) (f : Fd) (v : Nat) (fs : List Fd) (h : f ∈ fs) : OnlyFields s (s.setF f v) fs := by
  intro a b hb
  unfold State.setF
  rw [State.rd_wr]
  split
  · rename_i ha
    rw [getLsbD_fieldPut]
    have := hb f h
    split
    · rename_i hc
      exact absurd ⟨ha.symm, hc.1, hc.2.1⟩ this
    · rw [ha]
  · rfl

/-- One change after another. -/
theorem OnlyFields.trans {s t u : State} {fs : List Fd} (h1 : OnlyFields s t fs) (h2 : OnlyFields t u fs) : OnlyFields s u fs :=
  fun a b hb => (h2 a b hb).trans (h1 a b hb)

/-- The whole register of a word write. -/
theorem OnlyFields.wr (s : State) (a : Nat) (v : Word) (fs : List Fd) (h : Fd.whole a ∈ fs) : OnlyFields s (s.wr a v) fs := by
  intro a' b hb
  rw [State.rd_wr]
  split
  · rename_i ha
    have := hb _ h
    have hb32 : 32 ≤ b := by
      by_contra hc
      exact this ⟨ha.symm, Nat.zero_le _, by simp [Fd.whole]; omega⟩
    rw [BitVec.getLsbD_of_ge _ _ hb32, BitVec.getLsbD_of_ge _ _ hb32]
  · rfl

/-- Fields set one after another. -/
theorem OnlyFields.setFs (l : List (Fd × Nat)) (fs : List Fd) (h : ∀ x ∈ l, x.1 ∈ fs) (s : State) :
    OnlyFields s (s.setFs l) fs := by
  induction l generalizing s with
  | nil => exact OnlyFields.refl s fs
  | cons x l ih =>
    have h1 := OnlyFields.setF s x.1 x.2 fs (h x (List.mem_cons_self ..))
    exact h1.trans (ih (fun y hy => h y (List.mem_cons_of_mem _ hy)) (s.setF x.1 x.2))

/-- A register write changes registers only. -/
theorem RegsOnly.setF (s : State) (f : Fd) (v : Nat) : RegsOnly s (s.setF f v) [f] :=
  ⟨rfl, OnlyFields.setF s f v [f] (List.mem_singleton.mpr rfl)⟩

/-- Fields set change registers only. -/
theorem State.setFs_eq (l : List (Fd × Nat)) (s : State) : s.setFs l = { s with regs := (s.setFs l).regs } := by
  induction l generalizing s with
  | nil => rfl
  | cons x l ih =>
    show (s.setF x.1 x.2).setFs l = _
    rw [ih (s.setF x.1 x.2)]
    rfl

/-! ### Commands -/

/-- A command through `act` always answers a next state, with the queue and TICK as they were. -/
theorem act_next (s : State) (f : State → State) :
    act s f = .next { f s with pending := s.pending, tick := s.tick } := rfl

/-- An effect that leaves the queue and TICK alone is the next state itself. -/
theorem act_eq (s : State) (f : State → State) (hp : (f s).pending = s.pending) (ht : (f s).tick = s.tick) :
    act s f = .next (f s) := by
  rw [act_next, ← hp, ← ht]

/-- One step takes the command at the front. -/
theorem step_cons (s : State) (c : Instr) (q : List Instr) (h : s.pending = c :: q) : step s = exec c { s with pending := q } := by
  unfold step; rw [h]

/-- An empty queue idles. -/
theorem step_nil (s : State) (h : s.pending = []) : step s = .next s := by
  unfold step; rw [h]

end Sys2Proof.Machine
end

