-- ==== Sys2Proof/Laws/State.lean ====
section
/-! SUPPORT. What each update of the state leaves alone: one lemma for each field and update, and registers read through the updates
that do not write them. -/

namespace Sys2Proof.Machine

/-! ### After a register write (`wr`) -/

@[simp] theorem State.wr_pending (s : State) (a : Nat) (v : Word) : (s.wr a v).pending = s.pending := rfl
@[simp] theorem State.wr_tick (s : State) (a : Nat) (v : Word) : (s.wr a v).tick = s.tick := rfl
@[simp] theorem State.wr_furDone (s : State) (a : Nat) (v : Word) : (s.wr a v).furDone = s.furDone := rfl
@[simp] theorem State.wr_latches (s : State) (a : Nat) (v : Word) : (s.wr a v).latches = s.latches := rfl
@[simp] theorem State.wr_freeCtr (s : State) (a : Nat) (v : Word) : (s.wr a v).freeCtr = s.freeCtr := rfl
@[simp] theorem State.wr_out (s : State) (a : Nat) (v : Word) : (s.wr a v).out = s.out := rfl
@[simp] theorem State.wr_commits (s : State) (a : Nat) (v : Word) : (s.wr a v).commits = s.commits := rfl
@[simp] theorem State.wr_flt (s : State) (a : Nat) (v : Word) : (s.wr a v).flt = s.flt := rfl
@[simp] theorem State.wr_dp (s : State) (a : Nat) (v : Word) : (s.wr a v).dp = s.dp := rfl
@[simp] theorem State.wr_fn (s : State) (a : Nat) (v : Word) : (s.wr a v).fn = s.fn := rfl
@[simp] theorem State.wr_eng (s : State) (a : Nat) (v : Word) : (s.wr a v).eng = s.eng := rfl
@[simp] theorem State.wr_hedge (s : State) (a : Nat) (v : Word) : (s.wr a v).hedge = s.hedge := rfl
@[simp] theorem State.wr_home (s : State) (a : Nat) (v : Word) : (s.wr a v).home = s.home := rfl
@[simp] theorem State.wr_xb (s : State) (a : Nat) (v : Word) : (s.wr a v).xb = s.xb := rfl
@[simp] theorem State.wr_link (s : State) (a : Nat) (v : Word) : (s.wr a v).link = s.link := rfl
@[simp] theorem State.wr_stw (s : State) (a : Nat) (v : Word) : (s.wr a v).stw = s.stw := rfl
@[simp] theorem State.wr_sec (s : State) (a : Nat) (v : Word) : (s.wr a v).sec = s.sec := rfl
@[simp] theorem State.wr_cfg (s : State) (a : Nat) (v : Word) : (s.wr a v).cfg = s.cfg := rfl
@[simp] theorem State.wr_cpr (s : State) (a : Nat) (v : Word) : (s.wr a v).cpr = s.cpr := rfl
@[simp] theorem State.wr_mz (s : State) (a : Nat) (v : Word) : (s.wr a v).mz = s.mz := rfl

/-! ### After a field write (`setF`) -/

@[simp] theorem State.setF_pending (s : State) (f : Fd) (v : Nat) : (s.setF f v).pending = s.pending := rfl
@[simp] theorem State.setF_tick (s : State) (f : Fd) (v : Nat) : (s.setF f v).tick = s.tick := rfl
@[simp] theorem State.setF_furDone (s : State) (f : Fd) (v : Nat) : (s.setF f v).furDone = s.furDone := rfl
@[simp] theorem State.setF_latches (s : State) (f : Fd) (v : Nat) : (s.setF f v).latches = s.latches := rfl
@[simp] theorem State.setF_freeCtr (s : State) (f : Fd) (v : Nat) : (s.setF f v).freeCtr = s.freeCtr := rfl
@[simp] theorem State.setF_out (s : State) (f : Fd) (v : Nat) : (s.setF f v).out = s.out := rfl
@[simp] theorem State.setF_commits (s : State) (f : Fd) (v : Nat) : (s.setF f v).commits = s.commits := rfl
@[simp] theorem State.setF_flt (s : State) (f : Fd) (v : Nat) : (s.setF f v).flt = s.flt := rfl
@[simp] theorem State.setF_dp (s : State) (f : Fd) (v : Nat) : (s.setF f v).dp = s.dp := rfl
@[simp] theorem State.setF_fn (s : State) (f : Fd) (v : Nat) : (s.setF f v).fn = s.fn := rfl
@[simp] theorem State.setF_eng (s : State) (f : Fd) (v : Nat) : (s.setF f v).eng = s.eng := rfl
@[simp] theorem State.setF_hedge (s : State) (f : Fd) (v : Nat) : (s.setF f v).hedge = s.hedge := rfl
@[simp] theorem State.setF_home (s : State) (f : Fd) (v : Nat) : (s.setF f v).home = s.home := rfl
@[simp] theorem State.setF_xb (s : State) (f : Fd) (v : Nat) : (s.setF f v).xb = s.xb := rfl
@[simp] theorem State.setF_link (s : State) (f : Fd) (v : Nat) : (s.setF f v).link = s.link := rfl
@[simp] theorem State.setF_stw (s : State) (f : Fd) (v : Nat) : (s.setF f v).stw = s.stw := rfl
@[simp] theorem State.setF_sec (s : State) (f : Fd) (v : Nat) : (s.setF f v).sec = s.sec := rfl
@[simp] theorem State.setF_cfg (s : State) (f : Fd) (v : Nat) : (s.setF f v).cfg = s.cfg := rfl
@[simp] theorem State.setF_cpr (s : State) (f : Fd) (v : Nat) : (s.setF f v).cpr = s.cpr := rfl
@[simp] theorem State.setF_mz (s : State) (f : Fd) (v : Nat) : (s.setF f v).mz = s.mz := rfl

/-! ### After a write of a 64-bit value (`set64`) -/

@[simp] theorem State.set64_pending (s : State) (a b v : Nat) : (s.set64 a b v).pending = s.pending := rfl
@[simp] theorem State.set64_tick (s : State) (a b v : Nat) : (s.set64 a b v).tick = s.tick := rfl
@[simp] theorem State.set64_furDone (s : State) (a b v : Nat) : (s.set64 a b v).furDone = s.furDone := rfl
@[simp] theorem State.set64_latches (s : State) (a b v : Nat) : (s.set64 a b v).latches = s.latches := rfl
@[simp] theorem State.set64_freeCtr (s : State) (a b v : Nat) : (s.set64 a b v).freeCtr = s.freeCtr := rfl
@[simp] theorem State.set64_out (s : State) (a b v : Nat) : (s.set64 a b v).out = s.out := rfl
@[simp] theorem State.set64_commits (s : State) (a b v : Nat) : (s.set64 a b v).commits = s.commits := rfl
@[simp] theorem State.set64_flt (s : State) (a b v : Nat) : (s.set64 a b v).flt = s.flt := rfl
@[simp] theorem State.set64_dp (s : State) (a b v : Nat) : (s.set64 a b v).dp = s.dp := rfl
@[simp] theorem State.set64_fn (s : State) (a b v : Nat) : (s.set64 a b v).fn = s.fn := rfl
@[simp] theorem State.set64_eng (s : State) (a b v : Nat) : (s.set64 a b v).eng = s.eng := rfl
@[simp] theorem State.set64_hedge (s : State) (a b v : Nat) : (s.set64 a b v).hedge = s.hedge := rfl
@[simp] theorem State.set64_home (s : State) (a b v : Nat) : (s.set64 a b v).home = s.home := rfl
@[simp] theorem State.set64_xb (s : State) (a b v : Nat) : (s.set64 a b v).xb = s.xb := rfl
@[simp] theorem State.set64_link (s : State) (a b v : Nat) : (s.set64 a b v).link = s.link := rfl
@[simp] theorem State.set64_stw (s : State) (a b v : Nat) : (s.set64 a b v).stw = s.stw := rfl
@[simp] theorem State.set64_sec (s : State) (a b v : Nat) : (s.set64 a b v).sec = s.sec := rfl
@[simp] theorem State.set64_cfg (s : State) (a b v : Nat) : (s.set64 a b v).cfg = s.cfg := rfl
@[simp] theorem State.set64_cpr (s : State) (a b v : Nat) : (s.set64 a b v).cpr = s.cpr := rfl
@[simp] theorem State.set64_mz (s : State) (a b v : Nat) : (s.set64 a b v).mz = s.mz := rfl

/-! ### After a count (`bump`) -/

@[simp] theorem State.bump_pending (s : State) (f : Fd) : (s.bump f).pending = s.pending := rfl
@[simp] theorem State.bump_tick (s : State) (f : Fd) : (s.bump f).tick = s.tick := rfl
@[simp] theorem State.bump_furDone (s : State) (f : Fd) : (s.bump f).furDone = s.furDone := rfl
@[simp] theorem State.bump_latches (s : State) (f : Fd) : (s.bump f).latches = s.latches := rfl
@[simp] theorem State.bump_freeCtr (s : State) (f : Fd) : (s.bump f).freeCtr = s.freeCtr := rfl
@[simp] theorem State.bump_out (s : State) (f : Fd) : (s.bump f).out = s.out := rfl
@[simp] theorem State.bump_commits (s : State) (f : Fd) : (s.bump f).commits = s.commits := rfl
@[simp] theorem State.bump_flt (s : State) (f : Fd) : (s.bump f).flt = s.flt := rfl
@[simp] theorem State.bump_dp (s : State) (f : Fd) : (s.bump f).dp = s.dp := rfl
@[simp] theorem State.bump_fn (s : State) (f : Fd) : (s.bump f).fn = s.fn := rfl
@[simp] theorem State.bump_eng (s : State) (f : Fd) : (s.bump f).eng = s.eng := rfl
@[simp] theorem State.bump_hedge (s : State) (f : Fd) : (s.bump f).hedge = s.hedge := rfl
@[simp] theorem State.bump_home (s : State) (f : Fd) : (s.bump f).home = s.home := rfl
@[simp] theorem State.bump_xb (s : State) (f : Fd) : (s.bump f).xb = s.xb := rfl
@[simp] theorem State.bump_link (s : State) (f : Fd) : (s.bump f).link = s.link := rfl
@[simp] theorem State.bump_stw (s : State) (f : Fd) : (s.bump f).stw = s.stw := rfl
@[simp] theorem State.bump_sec (s : State) (f : Fd) : (s.bump f).sec = s.sec := rfl
@[simp] theorem State.bump_cfg (s : State) (f : Fd) : (s.bump f).cfg = s.cfg := rfl
@[simp] theorem State.bump_cpr (s : State) (f : Fd) : (s.bump f).cpr = s.cpr := rfl
@[simp] theorem State.bump_mz (s : State) (f : Fd) : (s.bump f).mz = s.mz := rfl

/-! ### After something sent out (`emit`) -/

@[simp] theorem State.emit_pending (s : State) (e : OutEvent) : (s.emit e).pending = s.pending := rfl
@[simp] theorem State.emit_tick (s : State) (e : OutEvent) : (s.emit e).tick = s.tick := rfl
@[simp] theorem State.emit_furDone (s : State) (e : OutEvent) : (s.emit e).furDone = s.furDone := rfl
@[simp] theorem State.emit_regs (s : State) (e : OutEvent) : (s.emit e).regs = s.regs := rfl
@[simp] theorem State.emit_latches (s : State) (e : OutEvent) : (s.emit e).latches = s.latches := rfl
@[simp] theorem State.emit_freeCtr (s : State) (e : OutEvent) : (s.emit e).freeCtr = s.freeCtr := rfl
@[simp] theorem State.emit_commits (s : State) (e : OutEvent) : (s.emit e).commits = s.commits := rfl
@[simp] theorem State.emit_flt (s : State) (e : OutEvent) : (s.emit e).flt = s.flt := rfl
@[simp] theorem State.emit_dp (s : State) (e : OutEvent) : (s.emit e).dp = s.dp := rfl
@[simp] theorem State.emit_fn (s : State) (e : OutEvent) : (s.emit e).fn = s.fn := rfl
@[simp] theorem State.emit_eng (s : State) (e : OutEvent) : (s.emit e).eng = s.eng := rfl
@[simp] theorem State.emit_hedge (s : State) (e : OutEvent) : (s.emit e).hedge = s.hedge := rfl
@[simp] theorem State.emit_home (s : State) (e : OutEvent) : (s.emit e).home = s.home := rfl
@[simp] theorem State.emit_xb (s : State) (e : OutEvent) : (s.emit e).xb = s.xb := rfl
@[simp] theorem State.emit_link (s : State) (e : OutEvent) : (s.emit e).link = s.link := rfl
@[simp] theorem State.emit_stw (s : State) (e : OutEvent) : (s.emit e).stw = s.stw := rfl
@[simp] theorem State.emit_sec (s : State) (e : OutEvent) : (s.emit e).sec = s.sec := rfl
@[simp] theorem State.emit_cfg (s : State) (e : OutEvent) : (s.emit e).cfg = s.cfg := rfl
@[simp] theorem State.emit_cpr (s : State) (e : OutEvent) : (s.emit e).cpr = s.cpr := rfl
@[simp] theorem State.emit_mz (s : State) (e : OutEvent) : (s.emit e).mz = s.mz := rfl
@[simp] theorem State.emit_rd (s : State) (e : OutEvent) (r : Nat) : (s.emit e).rd r = s.rd r := rfl
@[simp] theorem State.emit_getF (s : State) (e : OutEvent) (g : Fd) : (s.emit e).getF g = s.getF g := rfl

/-! ### After an event raised (`raise`) -/

@[simp] theorem State.raise_pending (s : State) (e : FaultEv) : (s.raise e).pending = s.pending := rfl
@[simp] theorem State.raise_tick (s : State) (e : FaultEv) : (s.raise e).tick = s.tick := rfl
@[simp] theorem State.raise_furDone (s : State) (e : FaultEv) : (s.raise e).furDone = s.furDone := rfl
@[simp] theorem State.raise_regs (s : State) (e : FaultEv) : (s.raise e).regs = s.regs := rfl
@[simp] theorem State.raise_latches (s : State) (e : FaultEv) : (s.raise e).latches = s.latches := rfl
@[simp] theorem State.raise_freeCtr (s : State) (e : FaultEv) : (s.raise e).freeCtr = s.freeCtr := rfl
@[simp] theorem State.raise_out (s : State) (e : FaultEv) : (s.raise e).out = s.out := rfl
@[simp] theorem State.raise_commits (s : State) (e : FaultEv) : (s.raise e).commits = s.commits := rfl
@[simp] theorem State.raise_dp (s : State) (e : FaultEv) : (s.raise e).dp = s.dp := rfl
@[simp] theorem State.raise_fn (s : State) (e : FaultEv) : (s.raise e).fn = s.fn := rfl
@[simp] theorem State.raise_eng (s : State) (e : FaultEv) : (s.raise e).eng = s.eng := rfl
@[simp] theorem State.raise_hedge (s : State) (e : FaultEv) : (s.raise e).hedge = s.hedge := rfl
@[simp] theorem State.raise_home (s : State) (e : FaultEv) : (s.raise e).home = s.home := rfl
@[simp] theorem State.raise_xb (s : State) (e : FaultEv) : (s.raise e).xb = s.xb := rfl
@[simp] theorem State.raise_link (s : State) (e : FaultEv) : (s.raise e).link = s.link := rfl
@[simp] theorem State.raise_stw (s : State) (e : FaultEv) : (s.raise e).stw = s.stw := rfl
@[simp] theorem State.raise_sec (s : State) (e : FaultEv) : (s.raise e).sec = s.sec := rfl
@[simp] theorem State.raise_cfg (s : State) (e : FaultEv) : (s.raise e).cfg = s.cfg := rfl
@[simp] theorem State.raise_cpr (s : State) (e : FaultEv) : (s.raise e).cpr = s.cpr := rfl
@[simp] theorem State.raise_mz (s : State) (e : FaultEv) : (s.raise e).mz = s.mz := rfl
@[simp] theorem State.raise_rd (s : State) (e : FaultEv) (r : Nat) : (s.raise e).rd r = s.rd r := rfl
@[simp] theorem State.raise_getF (s : State) (e : FaultEv) (g : Fd) : (s.raise e).getF g = s.getF g := rfl

/-! ### After a message changed (`modMsg`) -/

@[simp] theorem State.modMsg_pending (s : State) (m : Nat) (f : Msg → Msg) : (s.modMsg m f).pending = s.pending := rfl
@[simp] theorem State.modMsg_tick (s : State) (m : Nat) (f : Msg → Msg) : (s.modMsg m f).tick = s.tick := rfl
@[simp] theorem State.modMsg_furDone (s : State) (m : Nat) (f : Msg → Msg) : (s.modMsg m f).furDone = s.furDone := rfl
@[simp] theorem State.modMsg_regs (s : State) (m : Nat) (f : Msg → Msg) : (s.modMsg m f).regs = s.regs := rfl
@[simp] theorem State.modMsg_latches (s : State) (m : Nat) (f : Msg → Msg) : (s.modMsg m f).latches = s.latches := rfl
@[simp] theorem State.modMsg_freeCtr (s : State) (m : Nat) (f : Msg → Msg) : (s.modMsg m f).freeCtr = s.freeCtr := rfl
@[simp] theorem State.modMsg_out (s : State) (m : Nat) (f : Msg → Msg) : (s.modMsg m f).out = s.out := rfl
@[simp] theorem State.modMsg_commits (s : State) (m : Nat) (f : Msg → Msg) : (s.modMsg m f).commits = s.commits := rfl
@[simp] theorem State.modMsg_flt (s : State) (m : Nat) (f : Msg → Msg) : (s.modMsg m f).flt = s.flt := rfl
@[simp] theorem State.modMsg_fn (s : State) (m : Nat) (f : Msg → Msg) : (s.modMsg m f).fn = s.fn := rfl
@[simp] theorem State.modMsg_eng (s : State) (m : Nat) (f : Msg → Msg) : (s.modMsg m f).eng = s.eng := rfl
@[simp] theorem State.modMsg_hedge (s : State) (m : Nat) (f : Msg → Msg) : (s.modMsg m f).hedge = s.hedge := rfl
@[simp] theorem State.modMsg_home (s : State) (m : Nat) (f : Msg → Msg) : (s.modMsg m f).home = s.home := rfl
@[simp] theorem State.modMsg_xb (s : State) (m : Nat) (f : Msg → Msg) : (s.modMsg m f).xb = s.xb := rfl
@[simp] theorem State.modMsg_link (s : State) (m : Nat) (f : Msg → Msg) : (s.modMsg m f).link = s.link := rfl
@[simp] theorem State.modMsg_stw (s : State) (m : Nat) (f : Msg → Msg) : (s.modMsg m f).stw = s.stw := rfl
@[simp] theorem State.modMsg_sec (s : State) (m : Nat) (f : Msg → Msg) : (s.modMsg m f).sec = s.sec := rfl
@[simp] theorem State.modMsg_cfg (s : State) (m : Nat) (f : Msg → Msg) : (s.modMsg m f).cfg = s.cfg := rfl
@[simp] theorem State.modMsg_cpr (s : State) (m : Nat) (f : Msg → Msg) : (s.modMsg m f).cpr = s.cpr := rfl
@[simp] theorem State.modMsg_mz (s : State) (m : Nat) (f : Msg → Msg) : (s.modMsg m f).mz = s.mz := rfl
@[simp] theorem State.modMsg_rd (s : State) (m : Nat) (f : Msg → Msg) (r : Nat) : (s.modMsg m f).rd r = s.rd r := rfl
@[simp] theorem State.modMsg_getF (s : State) (m : Nat) (f : Msg → Msg) (g : Fd) : (s.modMsg m f).getF g = s.getF g := rfl

/-! ### After a message added (`addMsg`) -/

@[simp] theorem State.addMsg_pending (s : State) (f : Nat → Msg) : (s.addMsg f).pending = s.pending := rfl
@[simp] theorem State.addMsg_tick (s : State) (f : Nat → Msg) : (s.addMsg f).tick = s.tick := rfl
@[simp] theorem State.addMsg_furDone (s : State) (f : Nat → Msg) : (s.addMsg f).furDone = s.furDone := rfl
@[simp] theorem State.addMsg_regs (s : State) (f : Nat → Msg) : (s.addMsg f).regs = s.regs := rfl
@[simp] theorem State.addMsg_latches (s : State) (f : Nat → Msg) : (s.addMsg f).latches = s.latches := rfl
@[simp] theorem State.addMsg_freeCtr (s : State) (f : Nat → Msg) : (s.addMsg f).freeCtr = s.freeCtr := rfl
@[simp] theorem State.addMsg_out (s : State) (f : Nat → Msg) : (s.addMsg f).out = s.out := rfl
@[simp] theorem State.addMsg_commits (s : State) (f : Nat → Msg) : (s.addMsg f).commits = s.commits := rfl
@[simp] theorem State.addMsg_flt (s : State) (f : Nat → Msg) : (s.addMsg f).flt = s.flt := rfl
@[simp] theorem State.addMsg_fn (s : State) (f : Nat → Msg) : (s.addMsg f).fn = s.fn := rfl
@[simp] theorem State.addMsg_eng (s : State) (f : Nat → Msg) : (s.addMsg f).eng = s.eng := rfl
@[simp] theorem State.addMsg_hedge (s : State) (f : Nat → Msg) : (s.addMsg f).hedge = s.hedge := rfl
@[simp] theorem State.addMsg_home (s : State) (f : Nat → Msg) : (s.addMsg f).home = s.home := rfl
@[simp] theorem State.addMsg_xb (s : State) (f : Nat → Msg) : (s.addMsg f).xb = s.xb := rfl
@[simp] theorem State.addMsg_link (s : State) (f : Nat → Msg) : (s.addMsg f).link = s.link := rfl
@[simp] theorem State.addMsg_stw (s : State) (f : Nat → Msg) : (s.addMsg f).stw = s.stw := rfl
@[simp] theorem State.addMsg_sec (s : State) (f : Nat → Msg) : (s.addMsg f).sec = s.sec := rfl
@[simp] theorem State.addMsg_cfg (s : State) (f : Nat → Msg) : (s.addMsg f).cfg = s.cfg := rfl
@[simp] theorem State.addMsg_cpr (s : State) (f : Nat → Msg) : (s.addMsg f).cpr = s.cpr := rfl
@[simp] theorem State.addMsg_mz (s : State) (f : Nat → Msg) : (s.addMsg f).mz = s.mz := rfl
@[simp] theorem State.addMsg_rd (s : State) (f : Nat → Msg) (r : Nat) : (s.addMsg f).rd r = s.rd r := rfl
@[simp] theorem State.addMsg_getF (s : State) (f : Nat → Msg) (g : Fd) : (s.addMsg f).getF g = s.getF g := rfl

/-! ### After a message taken out (`delMsg`) -/

@[simp] theorem State.delMsg_pending (s : State) (m : Nat) : (s.delMsg m).pending = s.pending := rfl
@[simp] theorem State.delMsg_tick (s : State) (m : Nat) : (s.delMsg m).tick = s.tick := rfl
@[simp] theorem State.delMsg_furDone (s : State) (m : Nat) : (s.delMsg m).furDone = s.furDone := rfl
@[simp] theorem State.delMsg_regs (s : State) (m : Nat) : (s.delMsg m).regs = s.regs := rfl
@[simp] theorem State.delMsg_latches (s : State) (m : Nat) : (s.delMsg m).latches = s.latches := rfl
@[simp] theorem State.delMsg_freeCtr (s : State) (m : Nat) : (s.delMsg m).freeCtr = s.freeCtr := rfl
@[simp] theorem State.delMsg_out (s : State) (m : Nat) : (s.delMsg m).out = s.out := rfl
@[simp] theorem State.delMsg_commits (s : State) (m : Nat) : (s.delMsg m).commits = s.commits := rfl
@[simp] theorem State.delMsg_flt (s : State) (m : Nat) : (s.delMsg m).flt = s.flt := rfl
@[simp] theorem State.delMsg_fn (s : State) (m : Nat) : (s.delMsg m).fn = s.fn := rfl
@[simp] theorem State.delMsg_eng (s : State) (m : Nat) : (s.delMsg m).eng = s.eng := rfl
@[simp] theorem State.delMsg_hedge (s : State) (m : Nat) : (s.delMsg m).hedge = s.hedge := rfl
@[simp] theorem State.delMsg_home (s : State) (m : Nat) : (s.delMsg m).home = s.home := rfl
@[simp] theorem State.delMsg_xb (s : State) (m : Nat) : (s.delMsg m).xb = s.xb := rfl
@[simp] theorem State.delMsg_link (s : State) (m : Nat) : (s.delMsg m).link = s.link := rfl
@[simp] theorem State.delMsg_stw (s : State) (m : Nat) : (s.delMsg m).stw = s.stw := rfl
@[simp] theorem State.delMsg_sec (s : State) (m : Nat) : (s.delMsg m).sec = s.sec := rfl
@[simp] theorem State.delMsg_cfg (s : State) (m : Nat) : (s.delMsg m).cfg = s.cfg := rfl
@[simp] theorem State.delMsg_cpr (s : State) (m : Nat) : (s.delMsg m).cpr = s.cpr := rfl
@[simp] theorem State.delMsg_mz (s : State) (m : Nat) : (s.delMsg m).mz = s.mz := rfl
@[simp] theorem State.delMsg_rd (s : State) (m : Nat) (r : Nat) : (s.delMsg m).rd r = s.rd r := rfl
@[simp] theorem State.delMsg_getF (s : State) (m : Nat) (g : Fd) : (s.delMsg m).getF g = s.getF g := rfl

/-! ### After a link changed (`modLnk`) -/

@[simp] theorem State.modLnk_pending (s : State) (lp : Nat) (f : Link → Link) : (s.modLnk lp f).pending = s.pending := rfl
@[simp] theorem State.modLnk_tick (s : State) (lp : Nat) (f : Link → Link) : (s.modLnk lp f).tick = s.tick := rfl
@[simp] theorem State.modLnk_furDone (s : State) (lp : Nat) (f : Link → Link) : (s.modLnk lp f).furDone = s.furDone := rfl
@[simp] theorem State.modLnk_regs (s : State) (lp : Nat) (f : Link → Link) : (s.modLnk lp f).regs = s.regs := rfl
@[simp] theorem State.modLnk_latches (s : State) (lp : Nat) (f : Link → Link) : (s.modLnk lp f).latches = s.latches := rfl
@[simp] theorem State.modLnk_freeCtr (s : State) (lp : Nat) (f : Link → Link) : (s.modLnk lp f).freeCtr = s.freeCtr := rfl
@[simp] theorem State.modLnk_out (s : State) (lp : Nat) (f : Link → Link) : (s.modLnk lp f).out = s.out := rfl
@[simp] theorem State.modLnk_commits (s : State) (lp : Nat) (f : Link → Link) : (s.modLnk lp f).commits = s.commits := rfl
@[simp] theorem State.modLnk_flt (s : State) (lp : Nat) (f : Link → Link) : (s.modLnk lp f).flt = s.flt := rfl
@[simp] theorem State.modLnk_dp (s : State) (lp : Nat) (f : Link → Link) : (s.modLnk lp f).dp = s.dp := rfl
@[simp] theorem State.modLnk_fn (s : State) (lp : Nat) (f : Link → Link) : (s.modLnk lp f).fn = s.fn := rfl
@[simp] theorem State.modLnk_eng (s : State) (lp : Nat) (f : Link → Link) : (s.modLnk lp f).eng = s.eng := rfl
@[simp] theorem State.modLnk_hedge (s : State) (lp : Nat) (f : Link → Link) : (s.modLnk lp f).hedge = s.hedge := rfl
@[simp] theorem State.modLnk_home (s : State) (lp : Nat) (f : Link → Link) : (s.modLnk lp f).home = s.home := rfl
@[simp] theorem State.modLnk_xb (s : State) (lp : Nat) (f : Link → Link) : (s.modLnk lp f).xb = s.xb := rfl
@[simp] theorem State.modLnk_stw (s : State) (lp : Nat) (f : Link → Link) : (s.modLnk lp f).stw = s.stw := rfl
@[simp] theorem State.modLnk_sec (s : State) (lp : Nat) (f : Link → Link) : (s.modLnk lp f).sec = s.sec := rfl
@[simp] theorem State.modLnk_cfg (s : State) (lp : Nat) (f : Link → Link) : (s.modLnk lp f).cfg = s.cfg := rfl
@[simp] theorem State.modLnk_cpr (s : State) (lp : Nat) (f : Link → Link) : (s.modLnk lp f).cpr = s.cpr := rfl
@[simp] theorem State.modLnk_mz (s : State) (lp : Nat) (f : Link → Link) : (s.modLnk lp f).mz = s.mz := rfl
@[simp] theorem State.modLnk_rd (s : State) (lp : Nat) (f : Link → Link) (r : Nat) : (s.modLnk lp f).rd r = s.rd r := rfl
@[simp] theorem State.modLnk_getF (s : State) (lp : Nat) (f : Link → Link) (g : Fd) : (s.modLnk lp f).getF g = s.getF g := rfl

/-! ### After a credit changed (`setCredit`) -/

@[simp] theorem State.setCredit_pending (s : State) (lp k : Nat) (c : Credit) : (s.setCredit lp k c).pending = s.pending := rfl
@[simp] theorem State.setCredit_tick (s : State) (lp k : Nat) (c : Credit) : (s.setCredit lp k c).tick = s.tick := rfl
@[simp] theorem State.setCredit_furDone (s : State) (lp k : Nat) (c : Credit) : (s.setCredit lp k c).furDone = s.furDone := rfl
@[simp] theorem State.setCredit_regs (s : State) (lp k : Nat) (c : Credit) : (s.setCredit lp k c).regs = s.regs := rfl
@[simp] theorem State.setCredit_latches (s : State) (lp k : Nat) (c : Credit) : (s.setCredit lp k c).latches = s.latches := rfl
@[simp] theorem State.setCredit_freeCtr (s : State) (lp k : Nat) (c : Credit) : (s.setCredit lp k c).freeCtr = s.freeCtr := rfl
@[simp] theorem State.setCredit_out (s : State) (lp k : Nat) (c : Credit) : (s.setCredit lp k c).out = s.out := rfl
@[simp] theorem State.setCredit_commits (s : State) (lp k : Nat) (c : Credit) : (s.setCredit lp k c).commits = s.commits := rfl
@[simp] theorem State.setCredit_flt (s : State) (lp k : Nat) (c : Credit) : (s.setCredit lp k c).flt = s.flt := rfl
@[simp] theorem State.setCredit_dp (s : State) (lp k : Nat) (c : Credit) : (s.setCredit lp k c).dp = s.dp := rfl
@[simp] theorem State.setCredit_fn (s : State) (lp k : Nat) (c : Credit) : (s.setCredit lp k c).fn = s.fn := rfl
@[simp] theorem State.setCredit_eng (s : State) (lp k : Nat) (c : Credit) : (s.setCredit lp k c).eng = s.eng := rfl
@[simp] theorem State.setCredit_hedge (s : State) (lp k : Nat) (c : Credit) : (s.setCredit lp k c).hedge = s.hedge := rfl
@[simp] theorem State.setCredit_home (s : State) (lp k : Nat) (c : Credit) : (s.setCredit lp k c).home = s.home := rfl
@[simp] theorem State.setCredit_xb (s : State) (lp k : Nat) (c : Credit) : (s.setCredit lp k c).xb = s.xb := rfl
@[simp] theorem State.setCredit_stw (s : State) (lp k : Nat) (c : Credit) : (s.setCredit lp k c).stw = s.stw := rfl
@[simp] theorem State.setCredit_sec (s : State) (lp k : Nat) (c : Credit) : (s.setCredit lp k c).sec = s.sec := rfl
@[simp] theorem State.setCredit_cfg (s : State) (lp k : Nat) (c : Credit) : (s.setCredit lp k c).cfg = s.cfg := rfl
@[simp] theorem State.setCredit_cpr (s : State) (lp k : Nat) (c : Credit) : (s.setCredit lp k c).cpr = s.cpr := rfl
@[simp] theorem State.setCredit_mz (s : State) (lp k : Nat) (c : Credit) : (s.setCredit lp k c).mz = s.mz := rfl
@[simp] theorem State.setCredit_rd (s : State) (lp k : Nat) (c : Credit) (r : Nat) : (s.setCredit lp k c).rd r = s.rd r := rfl
@[simp] theorem State.setCredit_getF (s : State) (lp k : Nat) (c : Credit) (g : Fd) : (s.setCredit lp k c).getF g = s.getF g := rfl

/-! ### After a decoder changed (`setDecoder`) -/

@[simp] theorem State.setDecoder_pending (s : State) (k : Nat) (d : Decoder) : (s.setDecoder k d).pending = s.pending := rfl
@[simp] theorem State.setDecoder_tick (s : State) (k : Nat) (d : Decoder) : (s.setDecoder k d).tick = s.tick := rfl
@[simp] theorem State.setDecoder_furDone (s : State) (k : Nat) (d : Decoder) : (s.setDecoder k d).furDone = s.furDone := rfl
@[simp] theorem State.setDecoder_regs (s : State) (k : Nat) (d : Decoder) : (s.setDecoder k d).regs = s.regs := rfl
@[simp] theorem State.setDecoder_latches (s : State) (k : Nat) (d : Decoder) : (s.setDecoder k d).latches = s.latches := rfl
@[simp] theorem State.setDecoder_freeCtr (s : State) (k : Nat) (d : Decoder) : (s.setDecoder k d).freeCtr = s.freeCtr := rfl
@[simp] theorem State.setDecoder_out (s : State) (k : Nat) (d : Decoder) : (s.setDecoder k d).out = s.out := rfl
@[simp] theorem State.setDecoder_commits (s : State) (k : Nat) (d : Decoder) : (s.setDecoder k d).commits = s.commits := rfl
@[simp] theorem State.setDecoder_flt (s : State) (k : Nat) (d : Decoder) : (s.setDecoder k d).flt = s.flt := rfl
@[simp] theorem State.setDecoder_dp (s : State) (k : Nat) (d : Decoder) : (s.setDecoder k d).dp = s.dp := rfl
@[simp] theorem State.setDecoder_eng (s : State) (k : Nat) (d : Decoder) : (s.setDecoder k d).eng = s.eng := rfl
@[simp] theorem State.setDecoder_hedge (s : State) (k : Nat) (d : Decoder) : (s.setDecoder k d).hedge = s.hedge := rfl
@[simp] theorem State.setDecoder_home (s : State) (k : Nat) (d : Decoder) : (s.setDecoder k d).home = s.home := rfl
@[simp] theorem State.setDecoder_xb (s : State) (k : Nat) (d : Decoder) : (s.setDecoder k d).xb = s.xb := rfl
@[simp] theorem State.setDecoder_link (s : State) (k : Nat) (d : Decoder) : (s.setDecoder k d).link = s.link := rfl
@[simp] theorem State.setDecoder_stw (s : State) (k : Nat) (d : Decoder) : (s.setDecoder k d).stw = s.stw := rfl
@[simp] theorem State.setDecoder_sec (s : State) (k : Nat) (d : Decoder) : (s.setDecoder k d).sec = s.sec := rfl
@[simp] theorem State.setDecoder_cfg (s : State) (k : Nat) (d : Decoder) : (s.setDecoder k d).cfg = s.cfg := rfl
@[simp] theorem State.setDecoder_cpr (s : State) (k : Nat) (d : Decoder) : (s.setDecoder k d).cpr = s.cpr := rfl
@[simp] theorem State.setDecoder_mz (s : State) (k : Nat) (d : Decoder) : (s.setDecoder k d).mz = s.mz := rfl
@[simp] theorem State.setDecoder_rd (s : State) (k : Nat) (d : Decoder) (r : Nat) : (s.setDecoder k d).rd r = s.rd r := rfl
@[simp] theorem State.setDecoder_getF (s : State) (k : Nat) (d : Decoder) (g : Fd) : (s.setDecoder k d).getF g = s.getF g := rfl

/-! ### After an instance changed (`setEp`) -/

@[simp] theorem State.setEp_pending (s : State) (k : Nat) (e : Ep) : (s.setEp k e).pending = s.pending := rfl
@[simp] theorem State.setEp_tick (s : State) (k : Nat) (e : Ep) : (s.setEp k e).tick = s.tick := rfl
@[simp] theorem State.setEp_furDone (s : State) (k : Nat) (e : Ep) : (s.setEp k e).furDone = s.furDone := rfl
@[simp] theorem State.setEp_regs (s : State) (k : Nat) (e : Ep) : (s.setEp k e).regs = s.regs := rfl
@[simp] theorem State.setEp_latches (s : State) (k : Nat) (e : Ep) : (s.setEp k e).latches = s.latches := rfl
@[simp] theorem State.setEp_freeCtr (s : State) (k : Nat) (e : Ep) : (s.setEp k e).freeCtr = s.freeCtr := rfl
@[simp] theorem State.setEp_out (s : State) (k : Nat) (e : Ep) : (s.setEp k e).out = s.out := rfl
@[simp] theorem State.setEp_commits (s : State) (k : Nat) (e : Ep) : (s.setEp k e).commits = s.commits := rfl
@[simp] theorem State.setEp_flt (s : State) (k : Nat) (e : Ep) : (s.setEp k e).flt = s.flt := rfl
@[simp] theorem State.setEp_dp (s : State) (k : Nat) (e : Ep) : (s.setEp k e).dp = s.dp := rfl
@[simp] theorem State.setEp_fn (s : State) (k : Nat) (e : Ep) : (s.setEp k e).fn = s.fn := rfl
@[simp] theorem State.setEp_eng (s : State) (k : Nat) (e : Ep) : (s.setEp k e).eng = s.eng := rfl
@[simp] theorem State.setEp_hedge (s : State) (k : Nat) (e : Ep) : (s.setEp k e).hedge = s.hedge := rfl
@[simp] theorem State.setEp_home (s : State) (k : Nat) (e : Ep) : (s.setEp k e).home = s.home := rfl
@[simp] theorem State.setEp_xb (s : State) (k : Nat) (e : Ep) : (s.setEp k e).xb = s.xb := rfl
@[simp] theorem State.setEp_link (s : State) (k : Nat) (e : Ep) : (s.setEp k e).link = s.link := rfl
@[simp] theorem State.setEp_sec (s : State) (k : Nat) (e : Ep) : (s.setEp k e).sec = s.sec := rfl
@[simp] theorem State.setEp_cfg (s : State) (k : Nat) (e : Ep) : (s.setEp k e).cfg = s.cfg := rfl
@[simp] theorem State.setEp_cpr (s : State) (k : Nat) (e : Ep) : (s.setEp k e).cpr = s.cpr := rfl
@[simp] theorem State.setEp_mz (s : State) (k : Nat) (e : Ep) : (s.setEp k e).mz = s.mz := rfl
@[simp] theorem State.setEp_rd (s : State) (k : Nat) (e : Ep) (r : Nat) : (s.setEp k e).rd r = s.rd r := rfl
@[simp] theorem State.setEp_getF (s : State) (k : Nat) (e : Ep) (g : Fd) : (s.setEp k e).getF g = s.getF g := rfl

/-! ### After a key slot changed (`setKslot`) -/

@[simp] theorem State.setKslot_pending (s : State) (p : Nat) (k : KSlot) : (s.setKslot p k).pending = s.pending := rfl
@[simp] theorem State.setKslot_tick (s : State) (p : Nat) (k : KSlot) : (s.setKslot p k).tick = s.tick := rfl
@[simp] theorem State.setKslot_furDone (s : State) (p : Nat) (k : KSlot) : (s.setKslot p k).furDone = s.furDone := rfl
@[simp] theorem State.setKslot_regs (s : State) (p : Nat) (k : KSlot) : (s.setKslot p k).regs = s.regs := rfl
@[simp] theorem State.setKslot_latches (s : State) (p : Nat) (k : KSlot) : (s.setKslot p k).latches = s.latches := rfl
@[simp] theorem State.setKslot_freeCtr (s : State) (p : Nat) (k : KSlot) : (s.setKslot p k).freeCtr = s.freeCtr := rfl
@[simp] theorem State.setKslot_out (s : State) (p : Nat) (k : KSlot) : (s.setKslot p k).out = s.out := rfl
@[simp] theorem State.setKslot_commits (s : State) (p : Nat) (k : KSlot) : (s.setKslot p k).commits = s.commits := rfl
@[simp] theorem State.setKslot_flt (s : State) (p : Nat) (k : KSlot) : (s.setKslot p k).flt = s.flt := rfl
@[simp] theorem State.setKslot_dp (s : State) (p : Nat) (k : KSlot) : (s.setKslot p k).dp = s.dp := rfl
@[simp] theorem State.setKslot_fn (s : State) (p : Nat) (k : KSlot) : (s.setKslot p k).fn = s.fn := rfl
@[simp] theorem State.setKslot_eng (s : State) (p : Nat) (k : KSlot) : (s.setKslot p k).eng = s.eng := rfl
@[simp] theorem State.setKslot_hedge (s : State) (p : Nat) (k : KSlot) : (s.setKslot p k).hedge = s.hedge := rfl
@[simp] theorem State.setKslot_home (s : State) (p : Nat) (k : KSlot) : (s.setKslot p k).home = s.home := rfl
@[simp] theorem State.setKslot_xb (s : State) (p : Nat) (k : KSlot) : (s.setKslot p k).xb = s.xb := rfl
@[simp] theorem State.setKslot_link (s : State) (p : Nat) (k : KSlot) : (s.setKslot p k).link = s.link := rfl
@[simp] theorem State.setKslot_stw (s : State) (p : Nat) (k : KSlot) : (s.setKslot p k).stw = s.stw := rfl
@[simp] theorem State.setKslot_cfg (s : State) (p : Nat) (k : KSlot) : (s.setKslot p k).cfg = s.cfg := rfl
@[simp] theorem State.setKslot_cpr (s : State) (p : Nat) (k : KSlot) : (s.setKslot p k).cpr = s.cpr := rfl
@[simp] theorem State.setKslot_mz (s : State) (p : Nat) (k : KSlot) : (s.setKslot p k).mz = s.mz := rfl
@[simp] theorem State.setKslot_rd (s : State) (p : Nat) (k : KSlot) (r : Nat) : (s.setKslot p k).rd r = s.rd r := rfl
@[simp] theorem State.setKslot_getF (s : State) (p : Nat) (k : KSlot) (g : Fd) : (s.setKslot p k).getF g = s.getF g := rfl

/-! ### After the meter changed (`setMz`) -/

@[simp] theorem State.setMz_pending (s : State) (f : Meter → Meter) : (s.setMz f).pending = s.pending := rfl
@[simp] theorem State.setMz_tick (s : State) (f : Meter → Meter) : (s.setMz f).tick = s.tick := rfl
@[simp] theorem State.setMz_furDone (s : State) (f : Meter → Meter) : (s.setMz f).furDone = s.furDone := rfl
@[simp] theorem State.setMz_regs (s : State) (f : Meter → Meter) : (s.setMz f).regs = s.regs := rfl
@[simp] theorem State.setMz_latches (s : State) (f : Meter → Meter) : (s.setMz f).latches = s.latches := rfl
@[simp] theorem State.setMz_freeCtr (s : State) (f : Meter → Meter) : (s.setMz f).freeCtr = s.freeCtr := rfl
@[simp] theorem State.setMz_out (s : State) (f : Meter → Meter) : (s.setMz f).out = s.out := rfl
@[simp] theorem State.setMz_commits (s : State) (f : Meter → Meter) : (s.setMz f).commits = s.commits := rfl
@[simp] theorem State.setMz_flt (s : State) (f : Meter → Meter) : (s.setMz f).flt = s.flt := rfl
@[simp] theorem State.setMz_dp (s : State) (f : Meter → Meter) : (s.setMz f).dp = s.dp := rfl
@[simp] theorem State.setMz_fn (s : State) (f : Meter → Meter) : (s.setMz f).fn = s.fn := rfl
@[simp] theorem State.setMz_eng (s : State) (f : Meter → Meter) : (s.setMz f).eng = s.eng := rfl
@[simp] theorem State.setMz_hedge (s : State) (f : Meter → Meter) : (s.setMz f).hedge = s.hedge := rfl
@[simp] theorem State.setMz_home (s : State) (f : Meter → Meter) : (s.setMz f).home = s.home := rfl
@[simp] theorem State.setMz_xb (s : State) (f : Meter → Meter) : (s.setMz f).xb = s.xb := rfl
@[simp] theorem State.setMz_link (s : State) (f : Meter → Meter) : (s.setMz f).link = s.link := rfl
@[simp] theorem State.setMz_stw (s : State) (f : Meter → Meter) : (s.setMz f).stw = s.stw := rfl
@[simp] theorem State.setMz_sec (s : State) (f : Meter → Meter) : (s.setMz f).sec = s.sec := rfl
@[simp] theorem State.setMz_cfg (s : State) (f : Meter → Meter) : (s.setMz f).cfg = s.cfg := rfl
@[simp] theorem State.setMz_cpr (s : State) (f : Meter → Meter) : (s.setMz f).cpr = s.cpr := rfl
@[simp] theorem State.setMz_rd (s : State) (f : Meter → Meter) (r : Nat) : (s.setMz f).rd r = s.rd r := rfl
@[simp] theorem State.setMz_getF (s : State) (f : Meter → Meter) (g : Fd) : (s.setMz f).getF g = s.getF g := rfl

/-! ### After the steward changed (`setStw`) -/

@[simp] theorem State.setStw_pending (s : State) (f : StwSt → StwSt) : (s.setStw f).pending = s.pending := rfl
@[simp] theorem State.setStw_tick (s : State) (f : StwSt → StwSt) : (s.setStw f).tick = s.tick := rfl
@[simp] theorem State.setStw_furDone (s : State) (f : StwSt → StwSt) : (s.setStw f).furDone = s.furDone := rfl
@[simp] theorem State.setStw_regs (s : State) (f : StwSt → StwSt) : (s.setStw f).regs = s.regs := rfl
@[simp] theorem State.setStw_latches (s : State) (f : StwSt → StwSt) : (s.setStw f).latches = s.latches := rfl
@[simp] theorem State.setStw_freeCtr (s : State) (f : StwSt → StwSt) : (s.setStw f).freeCtr = s.freeCtr := rfl
@[simp] theorem State.setStw_out (s : State) (f : StwSt → StwSt) : (s.setStw f).out = s.out := rfl
@[simp] theorem State.setStw_commits (s : State) (f : StwSt → StwSt) : (s.setStw f).commits = s.commits := rfl
@[simp] theorem State.setStw_flt (s : State) (f : StwSt → StwSt) : (s.setStw f).flt = s.flt := rfl
@[simp] theorem State.setStw_dp (s : State) (f : StwSt → StwSt) : (s.setStw f).dp = s.dp := rfl
@[simp] theorem State.setStw_fn (s : State) (f : StwSt → StwSt) : (s.setStw f).fn = s.fn := rfl
@[simp] theorem State.setStw_eng (s : State) (f : StwSt → StwSt) : (s.setStw f).eng = s.eng := rfl
@[simp] theorem State.setStw_hedge (s : State) (f : StwSt → StwSt) : (s.setStw f).hedge = s.hedge := rfl
@[simp] theorem State.setStw_home (s : State) (f : StwSt → StwSt) : (s.setStw f).home = s.home := rfl
@[simp] theorem State.setStw_xb (s : State) (f : StwSt → StwSt) : (s.setStw f).xb = s.xb := rfl
@[simp] theorem State.setStw_link (s : State) (f : StwSt → StwSt) : (s.setStw f).link = s.link := rfl
@[simp] theorem State.setStw_sec (s : State) (f : StwSt → StwSt) : (s.setStw f).sec = s.sec := rfl
@[simp] theorem State.setStw_cfg (s : State) (f : StwSt → StwSt) : (s.setStw f).cfg = s.cfg := rfl
@[simp] theorem State.setStw_cpr (s : State) (f : StwSt → StwSt) : (s.setStw f).cpr = s.cpr := rfl
@[simp] theorem State.setStw_mz (s : State) (f : StwSt → StwSt) : (s.setStw f).mz = s.mz := rfl
@[simp] theorem State.setStw_rd (s : State) (f : StwSt → StwSt) (r : Nat) : (s.setStw f).rd r = s.rd r := rfl
@[simp] theorem State.setStw_getF (s : State) (f : StwSt → StwSt) (g : Fd) : (s.setStw f).getF g = s.getF g := rfl

/-! ### After the store changed (`setCfg`) -/

@[simp] theorem State.setCfg_pending (s : State) (f : CfgSt → CfgSt) : (s.setCfg f).pending = s.pending := rfl
@[simp] theorem State.setCfg_tick (s : State) (f : CfgSt → CfgSt) : (s.setCfg f).tick = s.tick := rfl
@[simp] theorem State.setCfg_furDone (s : State) (f : CfgSt → CfgSt) : (s.setCfg f).furDone = s.furDone := rfl
@[simp] theorem State.setCfg_regs (s : State) (f : CfgSt → CfgSt) : (s.setCfg f).regs = s.regs := rfl
@[simp] theorem State.setCfg_latches (s : State) (f : CfgSt → CfgSt) : (s.setCfg f).latches = s.latches := rfl
@[simp] theorem State.setCfg_freeCtr (s : State) (f : CfgSt → CfgSt) : (s.setCfg f).freeCtr = s.freeCtr := rfl
@[simp] theorem State.setCfg_out (s : State) (f : CfgSt → CfgSt) : (s.setCfg f).out = s.out := rfl
@[simp] theorem State.setCfg_commits (s : State) (f : CfgSt → CfgSt) : (s.setCfg f).commits = s.commits := rfl
@[simp] theorem State.setCfg_flt (s : State) (f : CfgSt → CfgSt) : (s.setCfg f).flt = s.flt := rfl
@[simp] theorem State.setCfg_dp (s : State) (f : CfgSt → CfgSt) : (s.setCfg f).dp = s.dp := rfl
@[simp] theorem State.setCfg_fn (s : State) (f : CfgSt → CfgSt) : (s.setCfg f).fn = s.fn := rfl
@[simp] theorem State.setCfg_eng (s : State) (f : CfgSt → CfgSt) : (s.setCfg f).eng = s.eng := rfl
@[simp] theorem State.setCfg_hedge (s : State) (f : CfgSt → CfgSt) : (s.setCfg f).hedge = s.hedge := rfl
@[simp] theorem State.setCfg_home (s : State) (f : CfgSt → CfgSt) : (s.setCfg f).home = s.home := rfl
@[simp] theorem State.setCfg_xb (s : State) (f : CfgSt → CfgSt) : (s.setCfg f).xb = s.xb := rfl
@[simp] theorem State.setCfg_link (s : State) (f : CfgSt → CfgSt) : (s.setCfg f).link = s.link := rfl
@[simp] theorem State.setCfg_stw (s : State) (f : CfgSt → CfgSt) : (s.setCfg f).stw = s.stw := rfl
@[simp] theorem State.setCfg_sec (s : State) (f : CfgSt → CfgSt) : (s.setCfg f).sec = s.sec := rfl
@[simp] theorem State.setCfg_cpr (s : State) (f : CfgSt → CfgSt) : (s.setCfg f).cpr = s.cpr := rfl
@[simp] theorem State.setCfg_mz (s : State) (f : CfgSt → CfgSt) : (s.setCfg f).mz = s.mz := rfl
@[simp] theorem State.setCfg_rd (s : State) (f : CfgSt → CfgSt) (r : Nat) : (s.setCfg f).rd r = s.rd r := rfl
@[simp] theorem State.setCfg_getF (s : State) (f : CfgSt → CfgSt) (g : Fd) : (s.setCfg f).getF g = s.getF g := rfl

/-! ### After the clock and sensor memory changed (`setCpr`) -/

@[simp] theorem State.setCpr_pending (s : State) (f : CprSt → CprSt) : (s.setCpr f).pending = s.pending := rfl
@[simp] theorem State.setCpr_tick (s : State) (f : CprSt → CprSt) : (s.setCpr f).tick = s.tick := rfl
@[simp] theorem State.setCpr_furDone (s : State) (f : CprSt → CprSt) : (s.setCpr f).furDone = s.furDone := rfl
@[simp] theorem State.setCpr_regs (s : State) (f : CprSt → CprSt) : (s.setCpr f).regs = s.regs := rfl
@[simp] theorem State.setCpr_latches (s : State) (f : CprSt → CprSt) : (s.setCpr f).latches = s.latches := rfl
@[simp] theorem State.setCpr_freeCtr (s : State) (f : CprSt → CprSt) : (s.setCpr f).freeCtr = s.freeCtr := rfl
@[simp] theorem State.setCpr_out (s : State) (f : CprSt → CprSt) : (s.setCpr f).out = s.out := rfl
@[simp] theorem State.setCpr_commits (s : State) (f : CprSt → CprSt) : (s.setCpr f).commits = s.commits := rfl
@[simp] theorem State.setCpr_flt (s : State) (f : CprSt → CprSt) : (s.setCpr f).flt = s.flt := rfl
@[simp] theorem State.setCpr_dp (s : State) (f : CprSt → CprSt) : (s.setCpr f).dp = s.dp := rfl
@[simp] theorem State.setCpr_fn (s : State) (f : CprSt → CprSt) : (s.setCpr f).fn = s.fn := rfl
@[simp] theorem State.setCpr_eng (s : State) (f : CprSt → CprSt) : (s.setCpr f).eng = s.eng := rfl
@[simp] theorem State.setCpr_hedge (s : State) (f : CprSt → CprSt) : (s.setCpr f).hedge = s.hedge := rfl
@[simp] theorem State.setCpr_home (s : State) (f : CprSt → CprSt) : (s.setCpr f).home = s.home := rfl
@[simp] theorem State.setCpr_xb (s : State) (f : CprSt → CprSt) : (s.setCpr f).xb = s.xb := rfl
@[simp] theorem State.setCpr_link (s : State) (f : CprSt → CprSt) : (s.setCpr f).link = s.link := rfl
@[simp] theorem State.setCpr_stw (s : State) (f : CprSt → CprSt) : (s.setCpr f).stw = s.stw := rfl
@[simp] theorem State.setCpr_sec (s : State) (f : CprSt → CprSt) : (s.setCpr f).sec = s.sec := rfl
@[simp] theorem State.setCpr_cfg (s : State) (f : CprSt → CprSt) : (s.setCpr f).cfg = s.cfg := rfl
@[simp] theorem State.setCpr_mz (s : State) (f : CprSt → CprSt) : (s.setCpr f).mz = s.mz := rfl
@[simp] theorem State.setCpr_rd (s : State) (f : CprSt → CprSt) (r : Nat) : (s.setCpr f).rd r = s.rd r := rfl
@[simp] theorem State.setCpr_getF (s : State) (f : CprSt → CprSt) (g : Fd) : (s.setCpr f).getF g = s.getF g := rfl

/-! ### After fields set one after another (`setFs`) -/

@[simp] theorem State.setFs_pending (s : State) (l : List (Fd × Nat)) : (s.setFs l).pending = s.pending := by rw [State.setFs_eq]
@[simp] theorem State.setFs_tick (s : State) (l : List (Fd × Nat)) : (s.setFs l).tick = s.tick := by rw [State.setFs_eq]
@[simp] theorem State.setFs_furDone (s : State) (l : List (Fd × Nat)) : (s.setFs l).furDone = s.furDone := by rw [State.setFs_eq]
@[simp] theorem State.setFs_latches (s : State) (l : List (Fd × Nat)) : (s.setFs l).latches = s.latches := by rw [State.setFs_eq]
@[simp] theorem State.setFs_freeCtr (s : State) (l : List (Fd × Nat)) : (s.setFs l).freeCtr = s.freeCtr := by rw [State.setFs_eq]
@[simp] theorem State.setFs_out (s : State) (l : List (Fd × Nat)) : (s.setFs l).out = s.out := by rw [State.setFs_eq]
@[simp] theorem State.setFs_commits (s : State) (l : List (Fd × Nat)) : (s.setFs l).commits = s.commits := by rw [State.setFs_eq]
@[simp] theorem State.setFs_flt (s : State) (l : List (Fd × Nat)) : (s.setFs l).flt = s.flt := by rw [State.setFs_eq]
@[simp] theorem State.setFs_dp (s : State) (l : List (Fd × Nat)) : (s.setFs l).dp = s.dp := by rw [State.setFs_eq]
@[simp] theorem State.setFs_fn (s : State) (l : List (Fd × Nat)) : (s.setFs l).fn = s.fn := by rw [State.setFs_eq]
@[simp] theorem State.setFs_eng (s : State) (l : List (Fd × Nat)) : (s.setFs l).eng = s.eng := by rw [State.setFs_eq]
@[simp] theorem State.setFs_hedge (s : State) (l : List (Fd × Nat)) : (s.setFs l).hedge = s.hedge := by rw [State.setFs_eq]
@[simp] theorem State.setFs_home (s : State) (l : List (Fd × Nat)) : (s.setFs l).home = s.home := by rw [State.setFs_eq]
@[simp] theorem State.setFs_xb (s : State) (l : List (Fd × Nat)) : (s.setFs l).xb = s.xb := by rw [State.setFs_eq]
@[simp] theorem State.setFs_link (s : State) (l : List (Fd × Nat)) : (s.setFs l).link = s.link := by rw [State.setFs_eq]
@[simp] theorem State.setFs_stw (s : State) (l : List (Fd × Nat)) : (s.setFs l).stw = s.stw := by rw [State.setFs_eq]
@[simp] theorem State.setFs_sec (s : State) (l : List (Fd × Nat)) : (s.setFs l).sec = s.sec := by rw [State.setFs_eq]
@[simp] theorem State.setFs_cfg (s : State) (l : List (Fd × Nat)) : (s.setFs l).cfg = s.cfg := by rw [State.setFs_eq]
@[simp] theorem State.setFs_cpr (s : State) (l : List (Fd × Nat)) : (s.setFs l).cpr = s.cpr := by rw [State.setFs_eq]
@[simp] theorem State.setFs_mz (s : State) (l : List (Fd × Nat)) : (s.setFs l).mz = s.mz := by rw [State.setFs_eq]

end Sys2Proof.Machine
end

