-- ==== Sys2Proof/Laws/Effects.lean ====
section
/-! SUPPORT. What chains of updates do: completion of a command through `act`, fields and 64-bit pairs after several writes, frames that
compose (`OnlyFields`, `Writes`, `RO`), accepted and refused commits, and lookups of messages, transactions and links after updates. -/

open Sys2Proof Sys2Proof.Machine

namespace Sys2Proof.Machine

/-- A command that runs through `act` completes, with the queue and the tick as they were. -/
theorem Completes.of_act {c : Instr} {s : State} {P : State → Prop} {f : State → State} (h : exec c s = act s f)
    (hp : P { f s with pending := s.pending, tick := s.tick }) : Completes c s P := ⟨_, h, hp⟩
theorem Completes.of_act' {c : Instr} {s : State} {P : State → Prop} {f : State → State} (h : exec c s = act s f)
    (h1 : (f s).pending = s.pending) (h2 : (f s).tick = s.tick)
    (hp : P (f s)) : Completes c s P := ⟨_, by rw [h, act_eq s f h1 h2], hp⟩
theorem getF_same (s : State) (f : Fd) (v : Nat) (h : f.lo + f.width ≤ 32) : (s.setF f v).getF f = v % 2 ^ f.width := State.getF_setF s f v h
theorem getF_wr_same (s : State) (a : Nat) (v : Word) (g : Fd) (h : g.addr = a) : (s.wr a v).getF g = fieldGet v g.lo g.width := by
  subst h; simp [State.getF]
theorem getF_wr_of (s : State) (a : Nat) (v : Word) (g : Fd) (h : g.addr = a) (x : Nat) (hx : fieldGet v g.lo g.width = x) : (s.wr a v).getF g = x := by rw [getF_wr_same s a v g h, hx]
theorem bitlt (s : State) (f : Fd) (h : f.width = 1) : s.getF f < 2 := by have := s.getF_lt f; rw [h] at this; simpa using this
theorem OnlyFields.of_regs {s t u : State} {fs} (h : OnlyFields s t fs) (hr : u.regs = t.regs) : OnlyFields s u fs := by
  intro a b hb; have := h a b hb; simp only [State.rd, hr] at *; exact this
theorem OnlyFields.stepF {s t : State} {fs : List Fd} (f : Fd) (v : Nat) (h1 : OnlyFields s t fs) (h : f ∈ fs)  : OnlyFields s (t.setF f v) fs :=
  h1.trans (OnlyFields.setF t f v fs h)
theorem OnlyFields.stepW {s t : State} {fs : List Fd} (a : Nat) (v : Word) (h1 : OnlyFields s t fs) (h : Fd.whole a ∈ fs)  : OnlyFields s (t.wr a v) fs :=
  h1.trans (OnlyFields.wr t a v fs h)
theorem OnlyFields.step64 {s t : State} {fs : List Fd} (a b v : Nat) (h1 : OnlyFields s t fs) (h : Fd.whole a ∈ fs) (h' : Fd.whole b ∈ fs)  : OnlyFields s (t.set64 a b v) fs :=
  (h1.stepW _ _ h).stepW _ _ h'
theorem OnlyFields.stepFs {s t : State} {fs : List Fd} (l) (h1 : OnlyFields s t fs) (h : ∀ x ∈ l, x.1 ∈ fs)  : OnlyFields s (t.setFs l) fs :=
  h1.trans (OnlyFields.setFs l fs h t)
theorem getF_fit (s : State) (f : Fd) (v : Nat) (h : f.lo + f.width ≤ 32) (hv : v < 2 ^ f.width) : (s.setF f v).getF f = v := by
  rw [State.getF_setF s f v h, Nat.mod_eq_of_lt hv]
theorem getF_w1 (s : State) (f : Fd) (v : Nat) (h : f.lo + f.width ≤ 32) (hw : f.width = 1) : (s.setF f v).getF f = v % 2 := by
  rw [State.getF_setF s f v h, hw]; rfl
theorem rd_set64_ne (s : State) (a b v r : Nat) (h : r ≠ a) (h' : r ≠ b) : (s.set64 a b v).rd r = s.rd r := by
  simp [State.set64, State.rd_wr, h, h']
theorem rd_set64_lo (s : State) (a b v : Nat) (h : a ≠ b) : (s.set64 a b v).rd a = BitVec.ofNat 32 v := by
  simp [State.set64, State.rd_wr, h]
theorem rd_set64_hi (s : State) (a b v : Nat) : (s.set64 a b v).rd b = BitVec.ofNat 32 (v / 2 ^ 32) := by
  simp [State.set64]
theorem getF_set64_ne (s : State) (a b v : Nat) (g : Fd) (h : g.addr ≠ a) (h' : g.addr ≠ b) : (s.set64 a b v).getF g = s.getF g := by
  simp [State.set64, State.getF_wr_ne _ _ _ _ h, State.getF_wr_ne _ _ _ _ h']

/-- What a register reads as in a table of registers. -/
def rdT (t : Tbl Word) (a : Nat) : Word := Tbl.get regReset t a
/-- What a field reads as in a table of registers. -/
def getFT (t : Tbl Word) (f : Fd) : Nat := fieldGet (rdT t f.addr) f.lo f.width
theorem rd_mk x_pending x_tick x_furDone x_regs x_latches x_freeCtr x_out x_commits x_flt x_dp x_fn x_eng x_hedge x_home x_xb x_link x_stw x_sec x_cfg x_cpr x_mz (r : Nat) : (State.mk x_pending x_tick x_furDone x_regs x_latches x_freeCtr x_out x_commits x_flt x_dp x_fn x_eng x_hedge x_home x_xb x_link x_stw x_sec x_cfg x_cpr x_mz).rd r = rdT x_regs r := rfl
theorem getF_mk x_pending x_tick x_furDone x_regs x_latches x_freeCtr x_out x_commits x_flt x_dp x_fn x_eng x_hedge x_home x_xb x_link x_stw x_sec x_cfg x_cpr x_mz (g : Fd) : (State.mk x_pending x_tick x_furDone x_regs x_latches x_freeCtr x_out x_commits x_flt x_dp x_fn x_eng x_hedge x_home x_xb x_link x_stw x_sec x_cfg x_cpr x_mz).getF g = getFT x_regs g := rfl
theorem rdT_regs (s : State) (a : Nat) : rdT s.regs a = s.rd a := rfl
theorem getFT_regs (s : State) (g : Fd) : getFT s.regs g = s.getF g := rfl
theorem getF_regs {s t : State} (h : s.regs = t.regs) (g : Fd) : s.getF g = t.getF g := by simp [State.getF, State.rd, h]
theorem Completes.of_eq {c : Instr} {s : State} {P : State → Prop} {f : State → State} (u : State) (h : exec c s = act s f)
    (hu : f s = u) (h1 : u.pending = s.pending) (h2 : u.tick = s.tick) (hp : P u) : Completes c s P :=
  Completes.of_act' h (by rw [hu, h1]) (by rw [hu, h2]) (by rw [hu]; exact hp)
/-- An accepted commit (R18, R20): what its registers read, and that nothing else changed. -/
theorem commits_ok {c : Instr} {s : State} {k : CommitKind} {pend : Fd} {a b e d : Nat} {f : State → State}
   (h : exec c s = act s f) (hf : f s = s.acceptCommit k pend a b e d) (hl : [pend.addr, a, b, e, d].Nodup) (hw : pend.width = 1) (hlo : pend.lo + 1 ≤ 32) :
   Completes c s (fun t =>
      t.getF pend = 1 ∧ t.commits = s.commits ++ [(k, s.commitFurlong)] ∧
      t.rd a = BitVec.ofNat 32 s.tick ∧ t.rd b = BitVec.ofNat 32 (s.tick / 2 ^ 32) ∧
      t.rd e = BitVec.ofNat 32 s.commitFurlong ∧
      t.rd d = BitVec.ofNat 32 (s.commitFurlong / 2 ^ 32) ∧
      OnlyFields s t [pend, Fd.whole a, Fd.whole b, Fd.whole e, Fd.whole d] ∧
      t = { s with regs := t.regs, commits := t.commits }) := by
  simp only [List.nodup_cons, List.mem_cons, List.not_mem_nil, not_or, or_false] at hl
  obtain ⟨⟨h1, h2, h3, h4⟩, ⟨h5, h6, h7⟩, ⟨h8, h9⟩, h10, -⟩ := hl
  refine Completes.of_eq (s.acceptCommit k pend a b e d) h hf rfl rfl ⟨?_, rfl, ?_, ?_, ?_, ?_, ?_, rfl⟩
  all_goals simp only [State.acceptCommit]
  · simp only [getF_mk, getFT_regs]
    rw [getF_set64_ne _ _ _ _ _ h3 h4, getF_set64_ne _ _ _ _ _ h1 h2, getF_w1 _ _ _ (by omega) hw]
  · simp only [rd_mk, rdT_regs]; rw [rd_set64_ne _ _ _ _ _ h6 h7, rd_set64_lo _ _ _ _ h5]
  · simp only [rd_mk, rdT_regs]; rw [rd_set64_ne _ _ _ _ _ h8 h9, rd_set64_hi]
  · simp only [rd_mk, rdT_regs]; rw [rd_set64_lo _ _ _ _ h10]
  · simp only [rd_mk, rdT_regs]; rw [rd_set64_hi]
  · refine OnlyFields.of_regs ?_ rfl
    refine OnlyFields.step64 _ _ _ (OnlyFields.step64 _ _ _ (OnlyFields.setF _ _ _ _ ?_) ?_ ?_) ?_ ?_ <;> simp
theorem refuse_ok {c : Instr} {s : State} {f : State → State} {a b : Fd} (v w : Nat) (h : exec c s = act s f) (hf : f s = s.setFs [(a, v), (b, w)])
  (ha : a.lo + a.width ≤ 32) (hb : b.lo + b.width ≤ 32) (hv : v < 2 ^ a.width) (hw : w < 2 ^ b.width)
  (hab : a.addr ≠ b.addr ∨ a.lo + a.width ≤ b.lo ∨ b.lo + b.width ≤ a.lo) :
  Completes c s (fun t => t.getF a = v ∧ t.getF b = w ∧ RegsOnly s t [a, b]) := by
  refine Completes.of_eq (s.setFs [(a, v), (b, w)]) h hf rfl rfl ⟨?_, ?_, State.setFs_eq _ _, OnlyFields.setFs _ _ (by simp) s⟩
  · simp only [State.setFs, List.foldl]; rw [State.getF_setF_ne _ _ _ _ hab, getF_fit _ _ _ ha hv]
  · simp only [State.setFs, List.foldl]; rw [getF_fit _ _ _ hb hw]
theorem setF_ok {c : Instr} {s : State} {f : State → State} {a : Fd} (v : Nat) (h : exec c s = act s f) (hf : f s = s.setF a v)
  (ha : a.lo + a.width ≤ 32) (hv : v < 2 ^ a.width)  :
  Completes c s (fun t => t.getF a = v ∧ RegsOnly s t [a]) :=
  Completes.of_eq (s.setF a v) h hf rfl rfl ⟨getF_fit _ _ _ ha hv, RegsOnly.setF _ _ _⟩
theorem wf_copyTables (s : State) (l) (h : Tbl.wf regReset s.regs) : Tbl.wf regReset (s.copyTables l).regs := by
  show Tbl.wf _ (l.foldl _ s.regs)
  generalize s.regs = t at *
  induction l generalizing t with
  | nil => exact h
  | cons x l ih => exact ih _ (Tbl.wf_copy _ _ _ _ _ h)
theorem toInt_ofInt (v : Int) (h1 : -2 ^ 31 ≤ v) (h2 : v < 2 ^ 31) : (BitVec.ofInt 32 v).toInt = v := by
  rw [BitVec.toInt_ofInt, Int.bmod_def]; norm_num; omega
theorem har_get (s : State) (c : Nat) : s.har c = Tbl.get (fun _ => {}) s.xb.harrow c := rfl
theorem bump_whole (s : State) (a : Nat) : (s.bump (Fd.whole a)).rd a = BitVec.ofNat 32 (min ((s.rd a).toNat + 1) (2 ^ 32 - 1)) := by
  have h := State.getF_bump s (Fd.whole a) (by simp [Fd.whole])
  have hw : ∀ t : State, t.getF (Fd.whole a) = (t.rd a).toNat := by
    intro t; have := (t.rd a).isLt; simp [State.getF, Fd.whole, fieldGet]; omega
  rw [hw, hw] at h
  apply BitVec.eq_of_toNat_eq
  rw [h]; simp [Fd.whole]; omega
theorem OnlyFields.stepB {s t : State} {fs : List Fd} (f : Fd) (h1 : OnlyFields s t fs) (h : f ∈ fs)  : OnlyFields s (t.bump f) fs :=
  h1.trans (OnlyFields.setF _ _ _ _ h)
theorem Writes.setF (s : State) (f : Fd) (v : Nat) (h : f.lo + f.width ≤ 32) (hv : v < 2 ^ f.width) : Writes s (s.setF f v) [(f, v)] :=
  ⟨by simp [getF_fit _ _ _ h hv], OnlyFields.setF s f v _ (by simp)⟩
theorem Writes.setFs (l : List (Fd × Nat)) (hf : ∀ x ∈ l, x.1.lo + x.1.width ≤ 32 ∧ x.2 < 2 ^ x.1.width)
   (hp : l.Pairwise (fun x y => x.1.addr ≠ y.1.addr ∨ x.1.lo + x.1.width ≤ y.1.lo ∨ y.1.lo + y.1.width ≤ x.1.lo)) (s : State) : Writes s (s.setFs l) l := by
  refine ⟨?_, OnlyFields.setFs l _ (fun x hx => List.mem_map.mpr ⟨x, hx, rfl⟩) s⟩
  have keep : ∀ (l : List (Fd × Nat)) (s : State) (f : Fd), (∀ y ∈ l, f.addr ≠ y.1.addr ∨ f.lo + f.width ≤ y.1.lo ∨ y.1.lo + y.1.width ≤ f.lo) → (s.setFs l).getF f = s.getF f := by
    intro l
    induction l with
    | nil => intro s f _; rfl
    | cons y l ih =>
      intro s f h
      show ((s.setF y.1 y.2).setFs l).getF f = _
      rw [ih _ _ (fun z hz => h z (List.mem_cons_of_mem _ hz)), State.getF_setF_ne _ _ _ _ (h y (List.mem_cons_self ..))]
  induction l generalizing s with
  | nil => intro x hx; cases hx
  | cons y l ih =>
    have hpp := List.pairwise_cons.mp hp
    intro x hx
    show ((s.setF y.1 y.2).setFs l).getF x.1 = x.2
    rcases List.mem_cons.mp hx with hx | hx
    · subst hx
      rw [keep l _ _ (hpp.1), getF_fit _ _ _ (hf x (List.mem_cons_self ..)).1 (hf x (List.mem_cons_self ..)).2]
    · exact ih (fun z hz => hf z (List.mem_cons_of_mem _ hz)) hpp.2 _ x hx
theorem Writes.of_regs {s t u : State} {l} (h : Writes s t l) (hr : u.regs = t.regs) : Writes s u l :=
  ⟨fun x hx => by rw [getF_regs hr]; exact h.1 x hx, h.2.of_regs hr⟩
theorem exec_of_act {c : Instr} {s : State} {f : State → State} (u : State) (h : exec c s = act s f) (hu : f s = u)
   (h1 : u.pending = s.pending) (h2 : u.tick = s.tick) : exec c s = .next u := by
  subst hu
  exact h.trans (act_eq s f h1 h2)
theorem find_map_id (l : List Msg) (g : Msg → Msg) (hg : ∀ x, (g x).id = x.id) (k : Nat) :
    (l.map g).find? (fun x => x.id = k) = (l.find? (fun x => x.id = k)).map g := by
  induction l with
  | nil => rfl
  | cons a l ih =>
    simp only [List.map, List.find?_cons, hg]
    split
    · rfl
    · exact ih
theorem msg_modMsg (s : State) (m k : Nat) (f : Msg → Msg) (hf : ∀ x, (f x).id = x.id) :
    (s.modMsg m f).msg? k = (s.msg? k).map (fun x => if x.id = m then f x else x) := by
  show List.find? _ (List.map _ _) = _
  rw [find_map_id]; rfl
  intro x; split
  · exact hf x
  · rfl
theorem msg_id {s : State} {m : Nat} {x : Msg} (h : s.msg? m = some x) : x.id = m := by
  have := List.find?_some h; simpa using this
theorem MsgOnly.modMsg {s : State} {m : Nat} {x : Msg} (h : s.msg? m = some x) (f : Msg → Msg) (hf : ∀ x, (f x).id = x.id) :
    MsgOnly s (s.modMsg m f) m (f x) := by
  refine ⟨rfl, ?_, fun k hk => ?_⟩
  · rw [msg_modMsg _ _ _ _ hf, h]; simp [msg_id h]
  · rw [msg_modMsg _ _ _ _ hf]
    cases hx : s.msg? k with
    | none => rfl
    | some y => simp [msg_id hx, hk]
theorem lnk_mod (s : State) (n k : Nat) (f : Link → Link) : (s.modLnk n f).lnk k = if k = n then f (s.lnk n) else s.lnk k := by
  simp [State.lnk, State.modLnk, Tbl.get_set]
theorem ide_mod (s : State) (n k : Nat) (f : Ide → Ide) : (s.modIde n f).ide k = if k = n then f (s.ide n) else s.ide k := by
  simp [State.ide, State.modIde, Tbl.get_set]
theorem lnk_links (t s : State) (k : Nat) (h : t.link = s.link) : t.lnk k = s.lnk k := by simp [State.lnk, h]
theorem ide_links (t s : State) (k : Nat) (h : t.link = s.link) : t.ide k = s.ide k := by simp [State.ide, h]
theorem fieldPut_self (w : Word) (lo n : Nat) (_h : lo + n ≤ 32) : fieldPut w lo n (fieldGet w lo n) = w := by
  apply BitVec.eq_of_getLsbD_eq
  intro i hi
  rw [getLsbD_fieldPut]
  split
  · rename_i hc
    rw [testBit_fieldGet]
    have : i - lo < n := by omega
    simp [this]; congr 1; omega
  · rfl
theorem setF_self (s : State) (f : Fd) (h : f.lo + f.width ≤ 32) (a : Nat) : (s.setF f (s.getF f)).rd a = s.rd a := by
  unfold State.setF State.getF
  rw [fieldPut_self _ _ _ h, State.rd_wr]; split
  · rename_i e; rw [e]
  · rfl
theorem addSat0 (s : State) (f : Fd) (h : f.lo + f.width ≤ 32) (a : Nat) : (s.addSat f 0).rd a = s.rd a := by
  have : s.addSat f 0 = s.setF f (s.getF f) := by
    have := s.getF_lt f
    unfold State.addSat; congr 1; omega
  rw [this, setF_self _ _ h]
theorem lnk_addMsg (s : State) (f) (k : Nat) : (s.addMsg f).lnk k = s.lnk k := rfl
theorem lnk_setF (s : State) (f v) (k : Nat) : (s.setF f v).lnk k = s.lnk k := rfl
theorem lnk_bump (s : State) (f) (k : Nat) : (s.bump f).lnk k = s.lnk k := rfl
/-- Registers alone differ. -/
def RO (s t : State) : Prop := t = { s with regs := t.regs }
theorem RO.refl (s : State) : RO s s := rfl
theorem RO.trans {s t u : State} (h1 : RO s t) (h2 : RO t u) : RO s u := by unfold RO at *; rw [h2, h1]
theorem RO.wr (s : State) (a v) : RO s (s.wr a v) := rfl
theorem RO.setF (s : State) (a v) : RO s (s.setF a v) := rfl
theorem RO.stepF {s t : State} (h : RO s t) (a v) : RO s (t.setF a v) := h.trans (RO.setF _ _ _)
theorem RO.stepW {s t : State} (h : RO s t) (a v) : RO s (t.wr a v) := h.trans (RO.wr _ _ _)
theorem RO.step64 {s t : State} (h : RO s t) (a b v) : RO s (t.set64 a b v) := (h.stepW _ _).stepW _ _
theorem RO.stepFs {s t : State} (h : RO s t) (l) : RO s (t.setFs l) := h.trans (State.setFs_eq _ _)
theorem RO.stepB {s t : State} (h : RO s t) (f) : RO s (t.bump f) := h.stepF _ _
theorem RO.stepA {s t : State} (h : RO s t) (f k) : RO s (t.addSat f k) := h.stepF _ _
theorem RO.pending {s t : State} (h : RO s t) : t.pending = s.pending := by rw [h]
theorem RO.tick {s t : State} (h : RO s t) : t.tick = s.tick := by rw [h]
theorem RO.eng {s t : State} (h : RO s t) : t.eng = s.eng := by rw [h]
theorem RO.commits {s t : State} (h : RO s t) : t.commits = s.commits := by rw [h]
theorem setFs2 (s : State) (f g : Fd) (v w : Nat) : s.setFs [(f, v), (g, w)] = (s.setF f v).setF g w := rfl
theorem setFs3 (s : State) (f g h : Fd) (v w x : Nat) : s.setFs [(f, v), (g, w), (h, x)] = ((s.setF f v).setF g w).setF h x := rfl
/-- The state with another list of pending commits. -/
def State.wc (s : State) (l : List (CommitKind × Nat)) : State := { s with commits := l }
theorem setF_wc (s : State) (f : Fd) (v : Nat) (l) : (s.wc l).setF f v = (s.setF f v).wc l := rfl
theorem getF_wc (s : State) (l) (g : Fd) : (s.wc l).getF g = s.getF g := rfl
theorem rd_wc (s : State) (l) (a : Nat) : (s.wc l).rd a = s.rd a := rfl
theorem getF_addr {s t : State} (g : Fd) (h : t.rd g.addr = s.rd g.addr) : t.getF g = s.getF g := by unfold State.getF; rw [h]
theorem acceptCommit_def (s : State) (k : CommitKind) (p : Fd) (a b c d : Nat) : s.acceptCommit k p a b c d =
   (((s.setF p 1).set64 a b s.tick).set64 c d s.commitFurlong).wc (s.commits ++ [(k, s.commitFurlong)]) := rfl
theorem State.ext' {s t : State} (h1 : s.pending = t.pending) (h2 : s.tick = t.tick) (h3 : s.furDone = t.furDone) (h4 : s.regs = t.regs) (h5 : s.latches = t.latches)
  (h6 : s.freeCtr = t.freeCtr) (h7 : s.out = t.out) (h8 : s.commits = t.commits) (h9 : s.flt = t.flt) (h10 : s.dp = t.dp) (h11 : s.fn = t.fn) (h12 : s.eng = t.eng) (h13 : s.hedge = t.hedge)
  (h14 : s.home = t.home) (h15 : s.xb = t.xb) (h16 : s.link = t.link) (h17 : s.stw = t.stw) (h18 : s.sec = t.sec) (h19 : s.cfg = t.cfg) (h20 : s.cpr = t.cpr) (h21 : s.mz = t.mz) : s = t := by
  cases s; cases t; simp only at *; subst_vars; rfl
theorem get64_of (s : State) (a b v : Nat) (h1 : s.rd a = BitVec.ofNat 32 v) (h2 : s.rd b = BitVec.ofNat 32 (v / 2 ^ 32)) : s.get64 a b = v % 2 ^ 64 := by
  unfold State.get64
  rw [h1, h2, BitVec.toNat_ofNat, BitVec.toNat_ofNat]
  omega
theorem get64_add64 (s : State) (a b k : Nat) (h : a ≠ b) : (s.add64 a b k).get64 a b = min (s.get64 a b + k) (2 ^ 64 - 1) := by
  unfold State.add64
  rw [get64_of _ _ _ _ (rd_set64_lo _ _ _ _ h) (rd_set64_hi _ _ _ _)]
  omega
theorem OnlyFields.stepA64 {s t : State} {fs : List Fd} (a b k : Nat) (h1 : OnlyFields s t fs) (h : Fd.whole a ∈ fs) (h' : Fd.whole b ∈ fs) : OnlyFields s (t.add64 a b k) fs :=
  h1.step64 _ _ _ h h'
theorem getF_add64_ne (s : State) (a b v : Nat) (g : Fd) (h : g.addr ≠ a) (h' : g.addr ≠ b) : (s.add64 a b v).getF g = s.getF g := getF_set64_ne _ _ _ _ _ h h'
theorem RO.stepA64 {s t : State} (h : RO s t) (a b k) : RO s (t.add64 a b k) := h.step64 _ _ _
theorem find_filter_ne (l : List Msg) (m k : Nat) : (l.filter (fun x => x.id ≠ m)).find? (fun x => x.id = k) = if k = m then none else l.find? (fun x => x.id = k) := by
  induction l with
  | nil => simp
  | cons a l ih =>
    by_cases h : a.id = m
    · rw [List.filter_cons_of_neg (by simpa using h), ih]
      by_cases hk : k = m
      · simp [hk]
      · rw [if_neg hk, if_neg hk, List.find?_cons_of_neg]
        simp; omega
    · rw [List.filter_cons_of_pos (by simpa using h)]
      by_cases hk : a.id = k
      · have : k ≠ m := by omega
        rw [List.find?_cons_of_pos (by simpa using hk), if_neg this, List.find?_cons_of_pos (by simpa using hk)]
      · rw [List.find?_cons_of_neg (by simpa using hk), ih, List.find?_cons_of_neg (by simpa using hk)]
theorem msg_delMsg (s : State) (m k : Nat) : (s.delMsg m).msg? k = if k = m then none else s.msg? k := find_filter_ne _ _ _
theorem msgs_congr {s t : State} (h : t.dp.msgs = s.dp.msgs) (k : Nat) : t.msg? k = s.msg? k := by unfold State.msg?; rw [h]
theorem RO.dp {s t : State} (h : RO s t) : t.dp = s.dp := by rw [h]
theorem RO.home {s t : State} (h : RO s t) : t.home = s.home := by rw [h]
theorem RO.msg {s t : State} (h : RO s t) (k : Nat) : t.msg? k = s.msg? k := msgs_congr (by rw [h.dp]) k
theorem getF_dp (s : State) (d : Datapath) (g : Fd) : ({ s with dp := d } : State).getF g = s.getF g := rfl
theorem getF_delMsg (s : State) (m : Nat) (g : Fd) : (s.delMsg m).getF g = s.getF g := rfl
theorem get64_delMsg (s : State) (m a b : Nat) : (s.delMsg m).get64 a b = s.get64 a b := rfl
theorem getF_modMsg (s : State) (m : Nat) (f) (g : Fd) : (s.modMsg m f).getF g = s.getF g := rfl
theorem get64_modMsg (s : State) (m : Nat) (f) (a b : Nat) : (s.modMsg m f).get64 a b = s.get64 a b := rfl
theorem of_del {s t : State} (h : RO s t) (m : Nat) : t.delMsg m = { s with regs := t.regs, dp := { s.dp with msgs := (t.delMsg m).dp.msgs } } := by
  unfold State.delMsg; rw [h]
theorem msg_modMsg_at (u : State) (m k : Nat) (x : Msg) (f : Msg → Msg) (hf : ∀ y, (f y).id = y.id) (h : u.msg? m = some x) :
   (u.modMsg m f).msg? k = if k = m then some (f x) else u.msg? k := by
  rw [msg_modMsg u m k f hf]
  by_cases hk : k = m
  · subst hk; rw [h, if_pos rfl]; simp [msg_id h]
  · rw [if_neg hk]
    cases hx : u.msg? k with
    | none => rfl
    | some y => simp [msg_id hx, hk]
theorem foldl_id {α β} (l : List α) (f : β → α → β) (b : β) (h : ∀ a ∈ l, f b a = b) : l.foldl f b = b := by
  induction l with
  | nil => rfl
  | cons a l ih => rw [List.foldl_cons, h a (List.mem_cons_self ..)]; exact ih (fun x hx => h x (List.mem_cons_of_mem _ hx))
theorem find_txn (l : List Txn) (m k : Nat) : (l.filter (fun x => x.id ≠ m)).find? (fun x => x.id = k) = if k = m then none else l.find? (fun x => x.id = k) := by
  induction l with
  | nil => simp
  | cons a l ih =>
    by_cases h : a.id = m
    · rw [List.filter_cons_of_neg (by simpa using h), ih]
      by_cases hk : k = m
      · simp [hk]
      · rw [if_neg hk, if_neg hk, List.find?_cons_of_neg]
        simp; omega
    · rw [List.filter_cons_of_pos (by simpa using h)]
      by_cases hk : a.id = k
      · have : k ≠ m := by omega
        rw [List.find?_cons_of_pos (by simpa using hk), if_neg this, List.find?_cons_of_pos (by simpa using hk)]
      · rw [List.find?_cons_of_neg (by simpa using hk), ih, List.find?_cons_of_neg (by simpa using hk)]
theorem txn_id {s : State} {k : Nat} {x : Txn} (h : s.txn? k = some x) : x.id = k := by
  have := List.find?_some h; simpa using this
theorem txn_modTxn_at (u : State) (m k : Nat) (x : Txn) (f : Txn → Txn) (hf : ∀ y, (f y).id = y.id) (h : u.txn? m = some x) :
   (u.modTxn m f).txn? k = if k = m then some (f x) else u.txn? k := by
  have key : ∀ l : List Txn, (l.map (fun t => if t.id = m then f t else t)).find? (fun t => t.id = k) = (l.find? (fun t => t.id = k)).map (fun t => if t.id = m then f t else t) := by
    intro l
    induction l with
    | nil => rfl
    | cons a l ih =>
      have : (if a.id = m then f a else a).id = a.id := by split; exact hf a; rfl
      simp only [List.map, List.find?_cons, this]
      split
      · rfl
      · exact ih
  have e : (u.modTxn m f).txn? k = (u.txn? k).map (fun t => if t.id = m then f t else t) := key _
  rw [e]
  by_cases hk : k = m
  · subst hk; rw [h, if_pos rfl]; simp [txn_id h]
  · rw [if_neg hk]
    cases hx : u.txn? k with
    | none => rfl
    | some y => simp [txn_id hx, hk]
theorem setDir_keep (s : State) (w : Nat) (d : DirEnt) (h : d.isOpen = true) (h' : d.sharers = [] → d.state = 0 ∨ d.state = 3) :
    s.setDir w d = { s with home := { s.home with dir := Tbl.set (fun _ => {}) s.home.dir w d } } := by
  have e : (if d.sharers.isEmpty && decide (d.state ≠ 3) then { d with state := 0 } else d) = d := by
    split
    · rename_i hc
      simp at hc
      rcases h' hc.1 with h0 | h3
      · cases d; simp_all
      · exact absurd h3 hc.2
    · rfl
  unfold State.setDir
  rw [e]
  simp [h]
theorem dirAt_setDir (s : State) (w k : Nat) (d : DirEnt) (h : d.isOpen = true) (h' : d.sharers = [] → d.state = 0 ∨ d.state = 3) :
    (s.setDir w d).dirAt k = if k = w then d else s.dirAt k := by
  rw [setDir_keep _ _ _ h h']; unfold State.dirAt; simp [Tbl.get_set]
theorem getLast_filter (l : List Msg) (y : Msg) (m : Nat) (h : y.id ≠ m) : ((l ++ [y]).filter (fun x => x.id ≠ m)).getLast? = some y := by
  rw [List.filter_append, List.filter_cons_of_pos (by simpa using h), List.filter_nil, List.getLast?_append]; simp
theorem txnOn_congr {s t : State} (h : t.home.txns = s.home.txns) (e n : Nat) : t.txnOn e n = s.txnOn e n := by
  unfold State.txnOn; rw [h]
theorem wayOf_congr {s t : State} (h : t.home.dir = s.home.dir) (e n : Nat) : t.wayOf e n = s.wayOf e n := by
  unfold State.wayOf State.dirAt; rw [h]
theorem cellsOf_mod (s : State) (m : Nat) (g : Msg → Msg) (p : Msg → Bool) (hp : ∀ x, p (g x) = p x) (hc : ∀ x, (g x).cells = x.cells) :
    (s.modMsg m g).cellsOf p = s.cellsOf p := by
  have : ∀ l : List Msg, ((l.map (fun x => if x.id = m then g x else x)).filter p).map (·.cells) = (l.filter p).map (·.cells) := by
    intro l
    induction l with
    | nil => rfl
    | cons a l ih =>
      have h1 : p (if a.id = m then g a else a) = p a := by split; exact hp a; rfl
      have h3 : (if a.id = m then g a else a).cells = a.cells := by split; exact hc a; rfl
      rw [List.map_cons, List.filter_cons, List.filter_cons, h1]
      split
      · rw [List.map_cons, List.map_cons, h3, ih]
      · exact ih
  exact congrArg List.sum (this s.dp.msgs)
theorem dev_mod (s : State) (m : Nat) (g : Msg → Msg) (hg : ∀ x, (g x).origin = x.origin ∧ (g x).stage = x.stage ∧ (g x).cells = x.cells) : (s.modMsg m g).devCells = s.devCells := by
  unfold State.devCells
  rw [cellsOf_mod s m g _ (fun x => by rw [(hg x).1, (hg x).2.1]) (fun x => (hg x).2.2)]
  rfl
theorem Completes.of_any {c : Instr} {s : State} {P : State → Prop} {f : State → State} (u : State) (h : exec c s = act s f)
    (hu : f s = u) (hp : P { u with pending := s.pending, tick := s.tick }) : Completes c s P := by
  subst hu; exact ⟨_, h, hp⟩

end Sys2Proof.Machine
end

