-- ==== Sys2Proof/Laws/Ports.lean ====
section
/-! SUPPORT. What a link down, a link up and a new shape leave of the registers of the PORT blocks: `PortKeep`, one lemma for each
shared operation, and `linkDown_spec`, all that a link down writes there. -/

open Sys2Proof Sys2Proof.Machine

namespace Sys2Proof.Machine

/-- A register of the PORT blocks other than the drop counts and the count of suspect pages. -/
def PortReg (a : Nat) : Prop := 0x400000 ≤ a ∧ a < 0x600000 ∧ (∀ l, l < 64 → a ≠ Reg.portLpDropStat l) ∧ a ≠ Reg.portSuspectStat

/-- The PORT registers, the BUSY bits, the moments of link downs, the tick and the release of the upstream ports are as before. -/
structure PortKeep (s t : State) : Prop where
  rd : ∀ a, PortReg a → t.rd a = s.rd a
  busy : ∀ l, l < 64 → t.getF (Fld.portLpDropStatBusy l) = s.getF (Fld.portLpDropStatBusy l)
  drop : ∀ l, (t.lnk l).dropAt = (s.lnk l).dropAt ∧ (t.lnk l).dropDue = (s.lnk l).dropDue
  tick : t.tick = s.tick
  rel : t.link.released = s.link.released

theorem PortKeep.refl (s : State) : PortKeep s s := ⟨fun _ _ => rfl, fun _ _ => rfl, fun _ => ⟨rfl, rfl⟩, rfl, rfl⟩

theorem PortKeep.trans {s t u : State} (h : PortKeep s t) (g : PortKeep t u) : PortKeep s u :=
  ⟨fun a ha => (g.rd a ha).trans (h.rd a ha), fun l hl => (g.busy l hl).trans (h.busy l hl),
    fun l => ⟨(g.drop l).1.trans (h.drop l).1, (g.drop l).2.trans (h.drop l).2⟩, g.tick.trans h.tick, g.rel.trans h.rel⟩

/-- A field of a PORT register that is kept. -/
theorem PortKeep.getF {s t : State} (h : PortKeep s t) (g : Fd) (hg : PortReg g.addr) : t.getF g = s.getF g := getF_addr g (h.rd _ hg)

/-- A change that touches neither registers nor links. -/
theorem PortKeep.of_regs {s t : State} (h : t.regs = s.regs) (g : t.link.links = s.link.links)
    (k : t.tick = s.tick := by rfl) (r : t.link.released = s.link.released := by rfl) : PortKeep s t :=
  ⟨fun a _ => by unfold State.rd; rw [h], fun l _ => getF_regs h _, fun l => by unfold State.lnk; rw [g]; exact ⟨rfl, rfl⟩, k, r⟩

theorem drop_addr (l : Nat) (h : l < 64) : 0x400000 ≤ Reg.portLpDropStat l ∧ Reg.portLpDropStat l < 0x600000 := by
  simp only [Reg.portLpDropStat]; omega

/-- A field outside the PORT blocks. -/
theorem PortKeep.setF (s : State) (f : Fd) (v : Nat) (h : f.addr < 0x400000 ∨ 0x600000 ≤ f.addr) : PortKeep s (s.setF f v) :=
  ⟨fun a ha => State.rd_setF_ne _ _ _ _ (by obtain ⟨h1, h2, -⟩ := ha; omega),
    fun l hl => State.getF_setF_ne _ _ _ _ (Or.inl (by
      have := drop_addr l hl
      show Reg.portLpDropStat l ≠ f.addr
      omega)), fun _ => ⟨rfl, rfl⟩, rfl, rfl⟩

/-- A register outside the PORT blocks. -/
theorem PortKeep.wr (s : State) (r : Nat) (v : Word) (h : r < 0x400000 ∨ 0x600000 ≤ r) : PortKeep s (s.wr r v) :=
  ⟨fun a ha => State.rd_wr_ne _ _ _ _ (by obtain ⟨h1, h2, -⟩ := ha; omega),
    fun l hl => State.getF_wr_ne _ _ _ _ (by
      have := drop_addr l hl
      show Reg.portLpDropStat l ≠ r
      omega), fun _ => ⟨rfl, rfl⟩, rfl, rfl⟩

/-- Registers outside the PORT blocks that take their reset values. -/
theorem PortKeep.clear (s : State) (b n : Nat) (h : b + n ≤ 0x400000 ∨ 0x600000 ≤ b) :
    PortKeep s { s with regs := Tbl.clear s.regs b n } := by
  have e : ∀ a, 0x400000 ≤ a ∧ a < 0x600000 → ({ s with regs := Tbl.clear s.regs b n } : State).rd a = s.rd a := by
    intro a ha
    show Tbl.get regReset (Tbl.clear s.regs b n) a = _
    unfold Tbl.clear
    rw [Tbl.get_filter regReset s.regs (fun e => !decide (b ≤ e ∧ e < b + n)) a, if_pos]
    · rfl
    · have : ¬(b ≤ a ∧ a < b + n) := by omega
      simp only [this, decide_false, Bool.not_false]
  exact ⟨fun a ha => e a ⟨ha.1, ha.2.1⟩, fun l hl => getF_addr _ (e _ (drop_addr l hl)), fun _ => ⟨rfl, rfl⟩, rfl, rfl⟩

/-- Counts and marks of a dropped port. -/
theorem PortKeep.dropF (s : State) (f : Fd) (v : Nat) (l : Nat) (hl : l < 64) (h : f.addr = Reg.portLpDropStat l)
    (hb : f.lo + f.width ≤ 15 ∨ 16 ≤ f.lo) : PortKeep s (s.setF f v) :=
  ⟨fun a ha => State.rd_setF_ne _ _ _ _ (by rw [h]; exact ha.2.2.1 l hl),
    fun k _ => State.getF_setF_ne _ _ _ _ (by simp only [Fld.portLpDropStatBusy]; omega), fun _ => ⟨rfl, rfl⟩, rfl, rfl⟩

/-- The count of suspect pages. -/
theorem PortKeep.suspF (s : State) (f : Fd) (v : Nat) (h : f.addr = Reg.portSuspectStat) : PortKeep s (s.setF f v) :=
  ⟨fun a ha => State.rd_setF_ne _ _ _ _ (by rw [h]; exact ha.2.2.2),
    fun k _ => State.getF_setF_ne _ _ _ _ (Or.inl (by
      rw [h]; simp only [Fld.portLpDropStatBusy, Reg.portLpDropStat, Reg.portSuspectStat]; omega)), fun _ => ⟨rfl, rfl⟩, rfl, rfl⟩

theorem PortKeep.foldl {α : Type} (l : List α) (f : State → α → State) (h : ∀ s a, a ∈ l → PortKeep s (f s a)) (s : State) :
    PortKeep s (l.foldl f s) := by
  induction l generalizing s with
  | nil => exact PortKeep.refl s
  | cons a l ih => exact (h s a (List.mem_cons_self ..)).trans (ih (fun s b hb => h s b (List.mem_cons_of_mem _ hb)) _)

/-- A link changed elsewhere than in the moment of its link down. -/
theorem PortKeep.modLnk (s : State) (n : Nat) (f : Link → Link) (h : ∀ x, (f x).dropAt = x.dropAt ∧ (f x).dropDue = x.dropDue) :
    PortKeep s (s.modLnk n f) :=
  ⟨fun _ _ => rfl, fun _ _ => rfl, fun l => by
    rw [lnk_mod]
    split
    · rename_i e; rw [e]; exact h _
    · exact ⟨rfl, rfl⟩, rfl, rfl⟩

/-- A function's LIVE registers. -/
theorem live_addr (fn : Nat) : 0x600000 ≤ (liveFd fn).1.addr ∧ 0x600000 ≤ (liveFd fn).2.1.addr ∧ 0x600000 ≤ (liveFd fn).2.2.1.addr ∧
    0x600000 ≤ (liveFd fn).2.2.2.1.addr ∧ 0x600000 ≤ (liveFd fn).2.2.2.2.addr := by
  unfold liveFd
  split <;>
    simp only [Fld.plotFnLive0State, Fld.plotFnLive0Held, Fld.plotFnLive0Gen, Fld.plotFnLive1Oldcnt, Fld.plotFnLive1Glean,
      Fld.plotVcsLive0State, Fld.plotVcsLive0Held, Fld.plotVcsLive0Gen, Fld.plotVcsLive1Oldcnt, Fld.plotVcsLive1Glean, Reg.plotFnLive0,
      Reg.plotFnLive1, Reg.plotVcsLive0, Reg.plotVcsLive1] <;> omega

theorem State.refreshFn_ports (s : State) (fn : Nat) : PortKeep s (s.refreshFn fn) := by
  unfold State.refreshFn
  split
  · exact PortKeep.refl s
  · exact (PortKeep.setF _ _ _ (Or.inr (live_addr fn).2.2.2.1)).trans (PortKeep.setF _ _ _ (Or.inr (live_addr fn).1))

theorem State.refreshPort_ports (s : State) (lp : Nat) : PortKeep s (s.refreshPort lp) := by
  unfold State.refreshPort
  exact (PortKeep.foldl _ _ (fun s _ _ => s.refreshFn_ports _) s).trans (State.refreshFn_ports _ _)

theorem State.resetEvent_ports (s : State) (fn : Nat) : PortKeep s (s.resetEvent fn) := by
  have hb : ∀ s : State, PortKeep s (s.bump (Fd.whole Reg.plotHoldoff)) :=
    fun s => PortKeep.setF _ _ _ (Or.inr (by simp only [Fd.whole, Reg.plotHoldoff]; omega))
  unfold State.resetEvent
  split
  · exact PortKeep.refl s
  · dsimp only
    split
    · have h1 : PortKeep s { s with fn := { s.fn with due := s.fn.due ++ [fn] } } := PortKeep.of_regs rfl rfl
      exact (h1.trans (PortKeep.setF _ _ 1 (Or.inr (live_addr fn).2.1))).trans (hb _)
    · exact PortKeep.of_regs rfl rfl

theorem State.resetPort_ports (s : State) (lp : Nat) : PortKeep s (s.resetPort lp) := by
  unfold State.resetPort
  have h1 : PortKeep s (s.setVf lp (false, 0)) := PortKeep.of_regs rfl rfl
  have h2 := PortKeep.foldl (List.range 64) (fun (s : State) f => s.resetEvent (64 * lp + f)) (fun s _ _ => s.resetEvent_ports _)
    (s.setVf lp (false, 0))
  exact (h1.trans h2).trans (State.resetEvent_ports _ _)

theorem State.slotEvent_only (s : State) (lp b : Nat) :
    s.slotEvent lp b = { s with fn := { s.fn with cfg := (s.slotEvent lp b).fn.cfg } } := by
  unfold State.slotEvent
  generalize bindersOf s.regs lp = l
  induction l generalizing s with
  | nil => rfl
  | cons a l ih => rw [List.foldl_cons]; exact ih (s.setCfgWord _ _ _)

theorem State.slotEvent_ports (s : State) (lp b : Nat) : PortKeep s (s.slotEvent lp b) := by
  rw [State.slotEvent_only]; exact PortKeep.of_regs rfl rfl

theorem State.pendSource_ports (s : State) (i src : Nat) : PortKeep s (s.pendSource i src) := by
  have send : ∀ (s : State) (h : Hdr), PortKeep s (s.epSend i h) := by
    intro s h; unfold State.epSend; dsimp only; split
    · exact PortKeep.refl s
    · exact PortKeep.of_regs rfl rfl
  have msi : ∀ (s : State) (v : Nat), PortKeep s (s.sendMsi i v) := by
    intro s v; unfold State.sendMsi
    have h1 : ∀ e, PortKeep s (s.emit e) := fun e => PortKeep.of_regs rfl rfl
    exact (h1 _).trans (send _ _)
  have msg : ∀ (s : State) (e : OutEvent) (d : List Byte), PortKeep s (s.sendMsg i e d) := by
    intro s e d; unfold State.sendMsg
    have h1 : ∀ e, PortKeep s (s.emit e) := fun e => PortKeep.of_regs rfl rfl
    exact (h1 _).trans (send _ _)
  have ep : ∀ (s : State) (e : Ep), PortKeep s (s.setEp i e) := fun s e => PortKeep.of_regs rfl rfl
  have pme : ∀ s : State, PortKeep s (s.sendPme i) := by
    intro s; unfold State.sendPme; split
    · exact (ep _ _).trans (msg _ _ _)
    · exact ep _ _
  have h1 : ∀ s : State, PortKeep s (s.signal i src) := by
    intro s; unfold State.signal; split
    · dsimp only; split
      · split
        · exact msi _ _
        · exact ep _ _
      · split
        · exact ep _ _
        · exact msi _ _
      · split
        · exact PortKeep.refl _
        · exact (ep _ _).trans (msg _ _ _)
    · exact PortKeep.refl _
  have h2 : ∀ s : State, PortKeep s (s.wake i) := by
    intro s; unfold State.wake; dsimp only; split
    · split
      · exact PortKeep.of_regs rfl rfl
      · split
        · exact (ep _ _).trans (pme _)
        · exact ep _ _
    · exact PortKeep.refl _
  have h3 : ∀ v, PortKeep s ((s.setF (if src < 16 then Fld.stewardIntStatCq i else Fld.stewardIntStatEvt i) v).signal i src) := by
    intro v
    refine (PortKeep.setF s _ v (Or.inr ?_)).trans (h1 _)
    split
    · simp only [Fld.stewardIntStatCq, Reg.stewardIntStat]; omega
    · simp only [Fld.stewardIntStatEvt, Reg.stewardIntStat]; omega
  have h4 : ∀ (b : Bool) (t : State), PortKeep s t → PortKeep s (if b then t.wake i else t) := by
    intro b t ht; split
    · exact ht.trans (h2 _)
    · exact ht
  unfold State.pendSource
  split
  · exact PortKeep.refl _
  · exact h4 _ _ (h3 _)

theorem State.fmEvent_ports (s : State) (k n : Nat) : PortKeep s (s.fmEvent k n) := by
  unfold State.fmEvent State.pendAll
  refine PortKeep.trans ?_ ((State.pendSource_ports _ _ _).trans (State.pendSource_ports _ _ _))
  split
  · exact PortKeep.of_regs rfl rfl
  · exact PortKeep.refl _

theorem State.markPage_ports (s : State) (lp pg : Nat) (h : lp < 64) : PortKeep s (s.markPage lp pg) := by
  unfold State.markPage
  split
  · exact PortKeep.refl s
  · split
    · exact (PortKeep.dropF _ _ _ lp h rfl (by simp [Fld.portLpDropStatPortSuspect])).trans (PortKeep.suspF _ _ _ rfl)
    · have h1 : ∀ t, PortKeep s { s with link := { s.link with suspects := t } } := fun t => PortKeep.of_regs rfl rfl
      unfold State.setSuspect
      exact (h1 _).trans (PortKeep.suspF _ _ _ rfl)

theorem State.markPages_ports (s : State) (lp : Nat) (a : Option Nat) (n : Nat) (h : lp < 64) : PortKeep s (s.markPages lp a n) := by
  unfold State.markPages
  split
  · exact PortKeep.refl s
  · exact PortKeep.foldl _ _ (fun s _ _ => s.markPage_ports lp _ h) s

theorem State.dropCount_ports (s : State) (lp : Nat) (rd : Bool) (h : lp < 64) : PortKeep s (s.dropCount lp rd) := by
  have hb : PortKeep s (s.bump (if rd then Fld.portLpDropStatRdPoison lp else Fld.portLpDropStatWrSuspect lp)) := by
    cases rd
    · exact PortKeep.dropF _ _ _ lp h rfl (by simp [Fld.portLpDropStatWrSuspect])
    · exact PortKeep.dropF _ _ _ lp h rfl (by simp [Fld.portLpDropStatRdPoison])
  unfold State.dropCount
  generalize s.bump (if rd then Fld.portLpDropStatRdPoison lp else Fld.portLpDropStatWrSuspect lp) = u at *
  dsimp only
  by_cases h : (u.lnk lp).dropAt.isNone
  · rw [if_pos h]; exact hb
  · rw [if_neg h]
    refine hb.trans (PortKeep.modLnk _ _ _ (fun x => ?_))
    split <;> exact ⟨rfl, rfl⟩

/-- A member's port is one of the 64. -/
theorem memberOf_lp (t : Tbl Word) (k a : Nat) (d : Nat × Option Nat × Nat) (h : memberOf t k a = some d) : d.1 < 64 := by
  unfold memberOf at h
  obtain ⟨m, -, rfl⟩ := Option.map_eq_some_iff.mp h
  exact Nat.mod_lt _ (Nat.two_pow_pos 6)

theorem State.poisonWrite_ports (s : State) (t : Txn) (c : Cls) : PortKeep s (s.poisonWrite t c) := by
  have done : ∀ (s : State) (w : Option Nat), PortKeep s (s.poisonDone w) := by
    intro s w; unfold State.poisonDone; split
    · dsimp only; split
      · exact PortKeep.of_regs rfl rfl
      · exact PortKeep.refl s
    · exact PortKeep.refl s
  have acc : ∀ (s : State) (x : List Byte), PortKeep s (s.homeAccess c t.e t.n .memWr x true (.poisonWr t.id) 2).1 := by
    intro s x
    unfold State.homeAccess
    dsimp only
    split
    · exact PortKeep.refl s
    · rename_i d hd
      have hl := memberOf_lp _ _ _ _ hd
      split
      · split
        · exact (State.markPages_ports _ _ _ _ hl).trans (State.dropCount_ports _ _ _ hl)
        · exact State.dropCount_ports _ _ _ hl
      · exact PortKeep.of_regs rfl rfl
  have fb : ∀ n, PortKeep s (s.freeBytes n).2 := fun n => PortKeep.of_regs rfl rfl
  unfold State.poisonWrite
  dsimp only
  have ha := (fb 64).trans (acc (s.freeBytes 64).2 (s.freeBytes 64).1)
  split
  · exact ha.trans (PortKeep.of_regs rfl rfl)
  · exact ha.trans (done _ _)
  · exact ha

theorem State.deadSnoop_ports (s : State) (p : Snoop) (f : Fd) (h : 0x600000 ≤ f.addr) : PortKeep s (s.deadSnoop p f) := by
  have h1 : PortKeep s (s.setSnoops (s.home.snoops.filter (fun x => !decide (x.lp = p.lp ∧ x.bitag = p.bitag)))) :=
    PortKeep.of_regs rfl rfl
  unfold State.deadSnoop
  dsimp only
  generalize s.setSnoops (s.home.snoops.filter (fun x => !decide (x.lp = p.lp ∧ x.bitag = p.bitag))) = u at *
  split
  · exact h1
  · rename_i t _
    have raised : ∀ (s : State) e, PortKeep s ((s.raise e).bump f) := fun s e =>
      PortKeep.trans (PortKeep.of_regs (t := s.raise e) rfl rfl) (PortKeep.setF _ _ _ (Or.inr h))
    refine h1.trans (PortKeep.trans ?_ (raised _ _))
    split
    · rename_i w _
      have dir : ∀ d, PortKeep u (u.setDir w d) := fun d => PortKeep.of_regs rfl rfl
      exact (dir _).trans (State.poisonWrite_ports _ _ _)
    · exact State.poisonWrite_ports _ _ _

theorem State.sweepStart_ports (s : State) (lp : Nat) (b : Bool) : PortKeep s (s.sweepStart lp b) := by
  unfold State.sweepStart
  dsimp only
  refine PortKeep.trans ?_ (PortKeep.foldl _ _ (fun s p _ => s.deadSnoop_ports p _ (by simp only [Fld.homeDeadSwept, Reg.homeDead]; omega)) _)
  have h1 : ∀ (u : State) l, PortKeep u (u.setSweeps l) := fun u l => PortKeep.of_regs rfl rfl
  refine PortKeep.trans (PortKeep.setF s (mapBit Reg.homeSweepLo Reg.homeSweepHi lp) (bit true) (Or.inr ?_)) (h1 _ _)
  unfold mapBit; split <;> simp only [Reg.homeSweepLo, Reg.homeSweepHi] <;> omega

theorem State.sweepReturn_ports (s : State) (lp : Nat) : PortKeep s (s.sweepReturn lp) := by
  unfold State.sweepReturn
  split
  · split
    · have h1 : ∀ l, PortKeep s (s.setSweeps l) := fun l => PortKeep.of_regs rfl rfl
      refine (h1 _).trans (PortKeep.setF _ _ _ (Or.inr ?_))
      unfold mapBit; split <;> simp only [Reg.homeSweepLo, Reg.homeSweepHi] <;> omega
    · exact PortKeep.of_regs rfl rfl
  · exact PortKeep.refl s

theorem State.harErr_ports (s : State) (c k : Nat) : PortKeep s (s.harErr c k) := by
  have h1 : PortKeep s ((s.setF (Fld.harrowStatErr c) k).setHarState c 5) := by
    unfold State.setHarState State.rateSum
    refine ((PortKeep.setF _ _ _ (Or.inr ?_)).trans (PortKeep.setF _ _ _ (Or.inr ?_))).trans (PortKeep.setF _ _ _ (Or.inr ?_))
    · simp only [Fld.harrowStatErr, Reg.harrowStat]; omega
    · simp only [Fld.harrowStatState, Reg.harrowStat]; omega
    · simp only [Fld.harrowGlobalRateSum, Reg.harrowGlobal]; omega
  unfold State.harErr
  dsimp only
  split
  · have h2 : ∀ (u : State) e, PortKeep u (u.raise e) := fun u e => PortKeep.of_regs rfl rfl
    exact h1.trans (h2 _ _)
  · exact h1

theorem State.harLinkDown_ports (s : State) (lp : Nat) : PortKeep s (s.harLinkDown lp) := by
  unfold State.harLinkDown
  refine PortKeep.foldl _ _ (fun s c _ => ?_) s
  split
  · exact s.harErr_ports c 4
  · exact PortKeep.refl s

/-- A field that no field of a list shares bits with. -/
theorem State.getF_setFs_ne (l : List (Fd × Nat)) (s : State) (g : Fd)
    (h : ∀ x ∈ l, g.addr ≠ x.1.addr ∨ g.lo + g.width ≤ x.1.lo ∨ x.1.lo + x.1.width ≤ g.lo) : (s.setFs l).getF g = s.getF g := by
  induction l generalizing s with
  | nil => rfl
  | cons x l ih =>
    refine (ih (s.setF x.1 x.2) (fun y hy => h y (List.mem_cons_of_mem _ hy))).trans ?_
    exact State.getF_setF_ne _ _ _ _ (h x (List.mem_cons_self ..))

theorem portReg_stat (lp : Nat) (h : lp < 64) : PortReg (Reg.portLpStat lp) := by
  refine ⟨?_, ?_, fun l hl => ?_, ?_⟩ <;> simp only [Reg.portLpStat, Reg.portLpDropStat, Reg.portSuspectStat] <;> omega

theorem portReg_evt (lp : Nat) (h : lp < 64) : PortReg (Reg.portLpEvt lp) := by
  refine ⟨?_, ?_, fun l hl => ?_, ?_⟩ <;> simp only [Reg.portLpEvt, Reg.portLpDropStat, Reg.portSuspectStat] <;> omega

theorem portReg_ctl (lp : Nat) (h : lp < 64) : PortReg (Reg.portLpCtl lp) := by
  refine ⟨?_, ?_, fun l hl => ?_, ?_⟩ <;> simp only [Reg.portLpCtl, Reg.portLpDropStat, Reg.portSuspectStat] <;> omega

theorem portReg_train (lp : Nat) (h : lp < 64) : PortReg (Reg.portLpTrain lp) := by
  refine ⟨?_, ?_, fun l hl => ?_, ?_⟩ <;> simp only [Reg.portLpTrain, Reg.portLpDropStat, Reg.portSuspectStat] <;> omega

theorem portReg_cfg (n : Nat) (h : n < 32) : PortReg (Reg.portCfg n) := by
  refine ⟨?_, ?_, fun l hl => ?_, ?_⟩ <;> simp only [Reg.portCfg, Reg.portLpDropStat, Reg.portSuspectStat] <;> omega

theorem portReg_pin (n : Nat) (h : n < 32) : PortReg (Reg.portPinStat n) := by
  refine ⟨?_, ?_, fun l hl => ?_, ?_⟩ <;> simp only [Reg.portPinStat, Reg.portLpDropStat, Reg.portSuspectStat] <;> omega

/-- The fields that a link down writes. -/
def downFields (s : State) (lp : Nat) : List (Fd × Nat) :=
  [(Fld.portLpStatDllUp lp, 0), (Fld.portLpStatLtssm lp, s.restState lp), (Fld.portLpStatSpeed lp, 0),
    (Fld.portLpStatWidth lp, 0), (Fld.portLpEvtLinkdown lp, 1), (Fld.portLpDropStatBusy lp, 1)]

theorem restState_lt (s : State) (lp : Nat) : s.restState lp < 16 := by
  unfold State.restState
  split
  · unfold State.vppbHold
    dsimp only
    split
    · decide
    · split <;> decide
  · decide

/-- All that a link down of a link that is up leaves in the PORT registers: its fields, its spare pair in reset, everything else as before. -/
theorem State.linkDown_spec (s : State) (lp : Nat) (hl : lp < 64) (h : s.dllUp lp = true) :
    (∀ x ∈ downFields s lp, (s.linkDown lp).getF x.1 = x.2) ∧
    ((s.linkDown lp).lnk lp).dropAt = some s.tick ∧
    (∀ g : Fd, PortReg g.addr → g.addr ≠ Reg.portLpSpare lp → (∀ x ∈ downFields s lp, ¬(x.1.addr = g.addr ∧ x.1.lo < g.lo + g.width ∧ g.lo < x.1.lo + x.1.width)) →
      (s.linkDown lp).getF g = s.getF g) ∧
    (∀ l, l < 64 → l ≠ lp → (s.linkDown lp).getF (Fld.portLpDropStatBusy l) = s.getF (Fld.portLpDropStatBusy l) ∧
      ((s.linkDown lp).lnk l).dropAt = (s.lnk l).dropAt) ∧
    (s.linkDown lp).tick = s.tick := by
  obtain ⟨a, ha⟩ : ∃ a, a = s.setFs (downFields s lp) := ⟨_, rfl⟩
  obtain ⟨b, hb⟩ : ∃ b, b = ((a.modLnk lp (fun l => { l with
      dropAt := some a.tick, dropDue := true, ends := (0, 0), recov := 0, tfl := {}, maxW := none, fec := [], trigDue := false })).spareReset lp) := ⟨_, rfl⟩
  have k : PortKeep b (s.linkDown lp) := by
    have held : ∀ u : State, PortKeep u (u.dropHeld lp) := fun u => PortKeep.of_regs rfl rfl
    have vcs : ∀ u : State, PortKeep u (u.vcsCfgReset lp) := fun u => PortKeep.of_regs rfl rfl
    have due : ∀ (u : State) i, PortKeep u (u.epResetDue i) := by
      intro u i; unfold State.epResetDue; split
      · exact PortKeep.of_regs rfl rfl
      · exact PortKeep.refl u
    unfold State.linkDown
    rw [h]
    simp only [Bool.not_true, Bool.false_eq_true, if_false]
    unfold downFields at ha
    rw [← ha, ← hb]
    have k1 := (State.slotEvent_ports b lp 8).trans (held _)
    generalize (b.slotEvent lp 8).dropHeld lp = d at *
    have k2 : PortKeep d (if d.role lp = 0 then (d.resetPort lp).vcsCfgReset lp else if d.role lp = 2 then d.resetEvent (0x1000 + lp) else d) := by
      split
      · exact (d.resetPort_ports lp).trans (vcs _)
      · split
        · exact d.resetEvent_ports _
        · exact PortKeep.refl d
    generalize (if d.role lp = 0 then (d.resetPort lp).vcsCfgReset lp else if d.role lp = 2 then d.resetEvent (0x1000 + lp) else d) = e at *
    have k3 : PortKeep e (if e.role lp = 1 then e else e.sweepStart lp false) := by
      split
      · exact PortKeep.refl e
      · exact e.sweepStart_ports _ _
    generalize (if e.role lp = 1 then e else e.sweepStart lp false) = f at *
    have k4 := (f.harLinkDown_ports lp).trans (State.refreshPort_ports _ lp)
    generalize (f.harLinkDown lp).refreshPort lp = g at *
    refine ((k1.trans k2).trans (k3.trans k4)).trans (PortKeep.trans ?_ (State.fmEvent_ports _ _ _))
    split
    · exact due _ _
    · exact PortKeep.refl g
  have wa : Writes s a (downFields s lp) := by
    rw [ha]
    refine Writes.setFs _ ?_ ?_ s
    · intro x hx
      have := restState_lt s lp
      simp only [downFields, List.mem_cons, List.not_mem_nil, or_false] at hx
      rcases hx with hx | hx | hx | hx | hx | hx <;> subst hx <;>
        (simp [Fld.portLpStatDllUp, Fld.portLpStatLtssm, Fld.portLpStatSpeed, Fld.portLpStatWidth, Fld.portLpEvtLinkdown, Fld.portLpDropStatBusy]; try omega)
    · unfold downFields
      simp only [List.pairwise_cons, List.Pairwise.nil, and_true, List.mem_cons, List.not_mem_nil, or_false, forall_eq_or_imp, forall_eq,
        false_imp_iff, implies_true]
      simp only [Fld.portLpStatDllUp, Fld.portLpStatLtssm, Fld.portLpStatSpeed, Fld.portLpStatWidth, Fld.portLpEvtLinkdown,
        Fld.portLpDropStatBusy, Reg.portLpStat, Reg.portLpEvt, Reg.portLpDropStat]
      omega
  have rb : ∀ r, r ≠ Reg.portLpSpare lp → b.rd r = a.rd r := by
    intro r hr; rw [hb]
    show (State.wr _ _ _).rd r = _
    rw [State.rd_wr_ne _ _ _ _ hr]; rfl
  have db : (b.lnk lp).dropAt = some a.tick := by
    have lw : ∀ (s : State) r v k, (s.wr r v).lnk k = s.lnk k := fun _ _ _ _ => rfl
    rw [hb]; unfold State.spareReset
    simp only [lnk_mod, lw, if_true]
  have ta : a.tick = s.tick := by rw [ha, State.setFs_eq]
  refine ⟨fun x hx => ?_, ?_, fun g g1 g2 g3 => ?_, fun l h1 h2 => ⟨?_, ?_⟩, ?_⟩
  · have hv := wa.1 x hx
    have hx' := hx
    simp only [downFields, List.mem_cons, List.not_mem_nil, or_false] at hx'
    have hb' : (Fld.portLpDropStatBusy lp).addr = Reg.portLpDropStat lp := rfl
    rw [← hv]
    rcases hx' with e | e | e | e | e | e
    · rw [e]; exact (k.getF _ (portReg_stat lp hl)).trans (getF_addr _ (rb _ (by simp only [Fld.portLpStatDllUp, Reg.portLpStat, Reg.portLpSpare]; omega)))
    · rw [e]; exact (k.getF _ (portReg_stat lp hl)).trans (getF_addr _ (rb _ (by simp only [Fld.portLpStatLtssm, Reg.portLpStat, Reg.portLpSpare]; omega)))
    · rw [e]; exact (k.getF _ (portReg_stat lp hl)).trans (getF_addr _ (rb _ (by simp only [Fld.portLpStatSpeed, Reg.portLpStat, Reg.portLpSpare]; omega)))
    · rw [e]; exact (k.getF _ (portReg_stat lp hl)).trans (getF_addr _ (rb _ (by simp only [Fld.portLpStatWidth, Reg.portLpStat, Reg.portLpSpare]; omega)))
    · rw [e]; exact (k.getF _ (portReg_evt lp hl)).trans (getF_addr _ (rb _ (by simp only [Fld.portLpEvtLinkdown, Reg.portLpEvt, Reg.portLpSpare]; omega)))
    · rw [e]; exact (k.busy lp hl).trans (getF_addr _ (rb _ (by simp only [Fld.portLpDropStatBusy, Reg.portLpDropStat, Reg.portLpSpare]; omega)))
  · rw [(k.drop lp).1, db, ta]
  · refine (k.getF _ g1).trans ((getF_addr g (rb _ g2)).trans ?_)
    rw [ha]
    exact State.getF_setFs_ne _ _ _ (fun x hx => by have := g3 x hx; omega)
  · refine (k.busy l h1).trans ((getF_addr _ (rb _ ?_)).trans ?_)
    · simp only [Fld.portLpDropStatBusy, Reg.portLpDropStat, Reg.portLpSpare]; omega
    · rw [ha]
      refine State.getF_setFs_ne _ _ _ (fun x hx => ?_)
      simp only [downFields, List.mem_cons, List.not_mem_nil, or_false] at hx
      left
      rcases hx with e | e | e | e | e | e <;> rw [e] <;>
        simp only [Fld.portLpDropStatBusy, Fld.portLpStatDllUp, Fld.portLpStatLtssm, Fld.portLpStatSpeed, Fld.portLpStatWidth, Fld.portLpEvtLinkdown,
          Reg.portLpDropStat, Reg.portLpStat, Reg.portLpEvt] <;> omega
  · have lw : ∀ (s : State) r v k, (s.wr r v).lnk k = s.lnk k := fun _ _ _ _ => rfl
    rw [(k.drop l).1, hb]; unfold State.spareReset
    simp only [lnk_mod, lw, if_neg h2]
    rw [ha, State.setFs_eq]; rfl
  · rw [k.tick, hb]; exact ta

/-! ### Endpoint instances and pins -/

theorem epCfg_addr (i : Nat) : 0x600000 ≤ Reg.stewardEpCfg i ∧ 0x600000 ≤ Reg.stewardWakeMask i ∧ 0x600000 ≤ Reg.stewardEpGlean i ∧
    0x600000 ≤ Reg.stewardRingSqBaseLo i 0 := by
  simp only [Reg.stewardEpCfg, Reg.stewardWakeMask, Reg.stewardEpGlean, Reg.stewardRingSqBaseLo]; omega

theorem State.epGive_ports (s : State) (i lp : Nat) : PortKeep s (s.epGive i lp) := by
  have h := (epCfg_addr i).1
  have e : ∀ (u : State) x, PortKeep u (u.setEp i x) := fun u x => PortKeep.of_regs rfl rfl
  unfold State.epGive
  rw [setFs2]
  exact ((PortKeep.setF _ (Fld.stewardEpCfgLp i) _ (Or.inr h)).trans (PortKeep.setF _ (Fld.stewardEpCfgPresent i) _ (Or.inr h))).trans (e _ _)

theorem State.epAppear_ports (s : State) (lp : Nat) : PortKeep s (s.epAppear lp) := by
  unfold State.epAppear
  split
  · split
    · exact (State.epGive_ports _ _ _).trans (State.epGive_ports _ _ _)
    · exact State.epGive_ports _ _ _
  · exact State.epGive_ports _ _ _

theorem State.epReset_ports (s : State) (i : Nat) : PortKeep s (s.epReset i) := by
  obtain ⟨h1, h2, h3, h4⟩ := epCfg_addr i
  have send : ∀ (u : State) e d, PortKeep u (u.sendMsg i e d) := by
    intro u e d
    have a : ∀ (u : State) (h : Hdr), PortKeep u (u.epSend i h) := by
      intro u h; unfold State.epSend; dsimp only; split
      · exact PortKeep.refl u
      · exact PortKeep.of_regs rfl rfl
    have b : PortKeep u (u.emit e) := PortKeep.of_regs rfl rfl
    exact b.trans (a _ _)
  have fin : ∀ (u : State) x, PortKeep u ((u.epCfgReset i).setEp i x) := fun u x => PortKeep.of_regs rfl rfl
  have regs : ∀ (u : State) (m c : Word) (g k : Nat), PortKeep u ((((({ u with
      regs := Tbl.clear (Tbl.clear u.regs (Reg.stewardEpCfg i) 0x100) (Reg.stewardRingSqBaseLo i 0) 0x200 } : State).wr
      (Reg.stewardWakeMask i) m).wr (Reg.stewardEpCfg i) c).setF (Fld.stewardEpCfgGen i) g).addSat (Fd.whole (Reg.stewardEpGlean i)) k) := by
    intro u m c g k
    have c1 := PortKeep.clear u (Reg.stewardEpCfg i) 0x100 (Or.inr h1)
    have c2 := c1.trans (PortKeep.clear _ (Reg.stewardRingSqBaseLo i 0) 0x200 (Or.inr h4))
    have c3 := (c2.trans (PortKeep.wr _ _ m (Or.inr h2))).trans (PortKeep.wr _ _ c (Or.inr h1))
    exact (c3.trans (PortKeep.setF _ (Fld.stewardEpCfgGen i) g (Or.inr h1))).trans (PortKeep.setF _ (Fd.whole (Reg.stewardEpGlean i)) _ (Or.inr h3))
  unfold State.epReset
  split
  · exact PortKeep.refl s
  · dsimp only
    split
    · exact ((send _ _ _).trans (regs _ _ _ _ _)).trans (fin _ _)
    · exact (regs _ _ _ _ _).trans (fin _ _)

theorem State.epVanish_ports (s : State) (lp : Nat) : PortKeep s (s.epVanish lp) := by
  unfold State.epVanish
  split
  · exact PortKeep.refl s
  · rename_i i _
    have h := (epCfg_addr i).1
    have e : ∀ (u : State) x, PortKeep u (u.setEp i x) := fun u x => PortKeep.of_regs rfl rfl
    dsimp only
    rw [setFs2]
    exact ((s.epReset_ports i).trans ((PortKeep.setF _ (Fld.stewardEpCfgLp i) _ (Or.inr h)).trans
      (PortKeep.setF _ (Fld.stewardEpCfgPresent i) _ (Or.inr h)))).trans (e _ _)

/-- The CLKREQ pins of a cluster: no register but their own changes, and nothing else. -/
theorem State.clkreqs_rd (s : State) (n a : Nat) (h : ∀ k, a ≠ Reg.portPinStat k) : (s.clkreqs n).rd a = s.rd a := by
  unfold State.clkreqs State.clkreq
  rw [State.rd_setF_ne _ _ _ _ (h _), State.rd_setF_ne _ _ _ _ (h _)]

/-! ### What vPPBs hold a link in -/

/-- The binding table as registers list it. -/
def vppbZone (t : Tbl Word) : Tbl Word := Tbl.within t (Reg.plotVppb 0 0) 8192

theorem vppbZone_set (t : Tbl Word) (a : Nat) (v : Word) (h : a < 0xc00000 ∨ 0x1800000 ≤ a) :
    vppbZone (Tbl.set regReset t a v) = vppbZone t := by
  refine Tbl.filter_set regReset t a v (fun k => decide (Reg.plotVppb 0 0 ≤ k ∧ k < Reg.plotVppb 0 0 + 8192)) ?_
  exact decide_eq_false (by simp only [Reg.plotVppb]; omega)

theorem vppbZone_get (t : Tbl Word) (a : Nat) (h : Reg.plotVppb 0 0 ≤ a ∧ a < Reg.plotVppb 0 0 + 8192) :
    Tbl.get regReset (vppbZone t) a = Tbl.get regReset t a := by
  unfold vppbZone Tbl.within
  rw [Tbl.get_filter regReset t (fun k => decide (Reg.plotVppb 0 0 ≤ k ∧ k < Reg.plotVppb 0 0 + 8192)) a, if_pos (decide_eq_true h)]

theorem listed_lt (t : Tbl Word) (base stride count k : Nat) (hs : 0 < stride) (h : k ∈ listed t base stride count) : k < count := by
  unfold listed at h
  rw [List.mem_reverse] at h
  have hw : ∀ e ∈ Tbl.within t base (stride * count), (e.1 - base) / stride < count := by
    intro e he
    have := (List.mem_filter.mp he).2
    have := of_decide_eq_true this
    rw [Nat.div_lt_iff_lt_mul hs, Nat.mul_comm]
    omega
  generalize Tbl.within t base (stride * count) = l at *
  have go : ∀ (l : Tbl Word) (acc : List Nat), (∀ e ∈ l, (e.1 - base) / stride < count) → (∀ x ∈ acc, x < count) →
      ∀ x ∈ l.foldl (fun acc e => match acc with
        | x :: _ => if x = (e.1 - base) / stride then acc else (e.1 - base) / stride :: acc
        | [] => [(e.1 - base) / stride]) acc, x < count := by
    intro l
    induction l with
    | nil => intro acc _ ha; exact ha
    | cons e l ih =>
      intro acc hl ha
      refine ih _ (fun x hx => hl x (List.mem_cons_of_mem _ hx)) ?_
      have he := hl e (List.mem_cons_self ..)
      dsimp only
      split
      · split
        · exact ha
        · intro x hx
          rcases List.mem_cons.mp hx with e | e
          · rw [e]; exact he
          · exact ha x e
      · intro x hx; rw [List.mem_singleton] at hx; rw [hx]; exact he
  exact go l [] hw (by simp) k h

/-- What a vPPB holds a link in depends on the binding table and on configuration space alone. -/
theorem State.vppbHold_congr {s t : State} (hz : vppbZone t.regs = vppbZone s.regs) (hc : t.fn.cfg = s.fn.cfg) (lp : Nat) :
    t.vppbHold lp = s.vppbHold lp := by
  have hg : ∀ a, Reg.plotVppb 0 0 ≤ a ∧ a < Reg.plotVppb 0 0 + 8192 → Tbl.get regReset t.regs a = Tbl.get regReset s.regs a := by
    intro a ha; rw [← vppbZone_get _ a ha, hz, vppbZone_get _ a ha]
  have hl : listed t.regs (Reg.plotVppb 0 0) 4 2048 = listed s.regs (Reg.plotVppb 0 0) 4 2048 := by
    have : Tbl.within t.regs (Reg.plotVppb 0 0) (4 * 2048) = Tbl.within s.regs (Reg.plotVppb 0 0) (4 * 2048) := hz
    unfold listed; rw [this]
  have hf : ∀ f : Fd, Reg.plotVppb 0 0 ≤ f.addr ∧ f.addr < Reg.plotVppb 0 0 + 8192 → fieldAt t.regs f = fieldAt s.regs f := by
    intro f hf; unfold fieldAt regAt; rw [hg _ hf]
  have hb : bindersOf t.regs lp = bindersOf s.regs lp := by
    unfold bindersOf
    rw [hl]
    congr 1
    refine List.filter_congr (fun x hx => ?_)
    obtain ⟨k, hk, rfl⟩ := List.mem_map.mp hx
    have := listed_lt _ _ _ _ _ (by decide) hk
    have ha : Reg.plotVppb 0 0 ≤ Reg.plotVppb (k / 32) (k % 32) ∧ Reg.plotVppb (k / 32) (k % 32) < Reg.plotVppb 0 0 + 8192 := by
      simp only [Reg.plotVppb]; omega
    dsimp only
    rw [hf (Fld.plotVppbValid (k / 32) (k % 32)) ha, hf (Fld.plotVppbLp (k / 32) (k % 32)) ha]
  have hm : ∀ x ∈ bindersOf s.regs lp, bindingOf t.regs x.1 x.2 = bindingOf s.regs x.1 x.2 := by
    intro x hx
    unfold bindersOf at hx
    obtain ⟨y, hy, rfl⟩ := List.mem_map.mp hx
    obtain ⟨k, hk, rfl⟩ := List.mem_map.mp (List.mem_filter.mp hy).1
    have := listed_lt _ _ _ _ _ (by decide) hk
    have ha : Reg.plotVppb 0 0 ≤ Reg.plotVppb (k / 32) (k % 32) ∧ Reg.plotVppb (k / 32) (k % 32) < Reg.plotVppb 0 0 + 8192 := by
      simp only [Reg.plotVppb]; omega
    unfold bindingOf
    simp only [Nat.add_sub_cancel]
    rw [hf (Fld.plotVppbValid (k / 32) (k % 32)) ha, hf (Fld.plotVppbLp (k / 32) (k % 32)) ha, hf (Fld.plotVppbMld (k / 32) (k % 32)) ha,
      hf (Fld.plotVppbLd (k / 32) (k % 32)) ha]
  have hcw : ∀ o r, t.cfgWord o r = s.cfgWord o r := by intro o r; unfold State.cfgWord; rw [hc]
  have hfil : (bindersOf t.regs lp).filter (fun x => decide (bindingOf t.regs x.1 x.2 = some (lp, none))) =
      (bindersOf s.regs lp).filter (fun x => decide (bindingOf s.regs x.1 x.2 = some (lp, none))) := by
    rw [hb]
    exact List.filter_congr (fun x hx => by rw [hm x hx])
  unfold State.vppbHold
  dsimp only
  rw [hfil]
  simp only [hcw]

end Sys2Proof.Machine
end

