-- ==== Sys2Proof/Tests/Slice0.lean ====
section
/-! SUPPORT. Small tests against the manual's own numbers, a smoke test of WellFormed, and for every statement with hypotheses a
concrete state and operands that meet them: clause by clause, at the bounds of their ranges. -/

namespace Sys2Proof.Tests

set_option Elab.async false

open Sys2Proof Sys2Proof.Machine

/-! ### States for the tests -/

/-- The reset state with register fields set. -/
def st (l : List (Fd × Nat)) : State := State.reset.setFs l

/-- A header of 64 bytes with tag 9. -/
def hd (op : Opn) : Hdr := { op := op, opc := 0, mv := .invalid, addr := 0, size := 64, tag := 9, data := [], poison := false, status := .sc }

/-- A classification from LP0. -/
def kl (path : Path) : Cls := ⟨0, path, 0, 0, 0, 0, 0, some 0, false, 0⟩

/-- Message 7 of LP0. -/
def mg (stage : Stage) (op : Opn) (path : Path) : Msg :=
  { id := 7, stage := stage, origin := .ingress, stamp := 0, engine := 0, hdr := hd op, req := hd op, cls := kl path, inLp := 0 }

/-- A state with messages. -/
def withMsgs (s : State) (l : List Msg) : State := { s with dp := { s.dp with msgs := l, nextId := 8 } }

/-- A state at a tick. -/
def atTick (s : State) (n : Nat) : State := { s with tick := n }

/-! ### The manual's own numbers -/

/-- The check value of the CRC that R288 names, of the ASCII digits 1 to 9. -/
theorem test_crc32_check_value : crc32 [0x31, 0x32, 0x33, 0x34, 0x35, 0x36, 0x37, 0x38, 0x39] = 0xCBF43926 := by decide +kernel

/-- R18: a commit at furlong 1,000, phase 100, is in force at furlong 1,001; one in the headland, at phase 253, at furlong 1,002. -/
theorem test_commit_furlong : (atTick State.reset 256100).commitFurlong = 1001 ∧ (atTick State.reset 256253).commitFurlong = 1002 := by decide

/-- R145, R151: an 8-bit sum wraps and is zero-extended; a 16-bit difference wraps. -/
theorem test_add_sub_wrap : addW 8 0xFFFFFFFF 0x00000102 = 0x01 ∧ subW 16 0 1 = 0xFFFF ∧ addW 32 0xFFFFFFFF 2 = 1 := by decide

/-- R153: compares are unsigned, and look at the low bits alone. -/
theorem test_compares_are_unsigned : Cond.holds .lt 8 0x100 0xFF 0 = true ∧ Cond.holds .lt 32 0xFFFFFFFF 1 0 = false ∧
    Cond.holds .rng 8 0x02 0xFE 5 = true ∧ Cond.holds .rng 8 0x03 0xFE 5 = false := by decide

/-- R151: EXT and INS at a field that ends at bit 31. -/
theorem test_fields_at_the_top : extField 0xABCD1234 24 8 = 0xAB ∧ insField 0x00FFFFFF 0x12345678 24 8 = 0x78FFFFFF := by decide

/-- R142: the word that chapter 06 assembles for SHR G4, H17, 30 has its fields where R142 puts them. -/
theorem test_word_fields : coFields 0x16011038_0000001E = ⟨0x16, 0, 0x11, 0, 7, 0, 0, 30⟩ := by decide

/-- R423: after reset TICK is 0 and the start-up stands at its first step. -/
theorem test_reset_state : State.reset.tick = 0 ∧ State.reset.pending = [] ∧ State.reset.getF Fld.cprStartStep = 1 := by decide

/-- No row of the opcode table gives bits: no word spells a command (log 2). -/
theorem test_no_word_spells_a_command : decodeTableWord 64 0 = none ∧ decodeTableWord 0 0 = none := by decide

/-! ### WellFormed refuses what no sender can present -/

/-- Messages for the smoke test: one that fits, and one with 513 bytes. -/
def msgOf (n : Nat) : MsgIn := ⟨.ioMemWr, 0, .invalid, 0, 0, 0, List.replicate n 0, false, .memory, .sc, 0, none⟩

/-- A submission entry. -/
def sq (outLen : BitVec 32) : SqEntry := ⟨true, 1, 0, 0, outLen, 0⟩

/-- A payload of 512 bytes fits a flit's message, one of 513 does not; a lane is corrected once. -/
theorem test_wf_flit : WellFormed (.flitReceived 0 ⟨[0, 15], true, 0, false, false, [msgOf 512]⟩) = true ∧
    WellFormed (.flitReceived 0 ⟨[], true, 0, false, false, [msgOf 513]⟩) = false ∧
    WellFormed (.flitReceived 0 ⟨[3, 3], true, 0, false, false, []⟩) = false := by decide +kernel

/-- Each way shows one error at most. -/
theorem test_wf_lookup : WellFormed (.homeLookup 1 []) = true ∧ WellFormed (.retryReplay 1 []) = true := by decide +kernel

/-- A link comes up at a speed from 1 and at a width of the standards. -/
theorem test_wf_link : WellFormed (.linkUp 0 6 16 true) = true ∧ WellFormed (.linkUp 0 0 16 true) = false ∧
    WellFormed (.linkUp 0 6 3 true) = false ∧ WellFormed (.l0pWidthChange 0 12) = false ∧ WellFormed (.l0pWidthChange 0 8) = true := by decide +kernel

/-- A ring's register addresses are whole words inside BAR 0. -/
theorem test_wf_ring_addresses : WellFormed (.regWrite 0 0 (sq 0) [(0x1FFFFFC, 0)]) = true ∧ WellFormed (.regWrite 0 0 (sq 0) [(0x2000000, 0)]) = false ∧
    WellFormed (.regRead 0 0 (sq 0) [2]) = false := by decide +kernel

/-- Sixteen sensors make a sample. -/
theorem test_wf_sensors : WellFormed (.sensorSample (List.replicate 16 ⟨true, 40⟩) true 0) = true ∧
    WellFormed (.sensorSample (List.replicate 15 ⟨true, 40⟩) true 0) = false := by decide +kernel

/-- An instruction of a program carries operands that its word may (R144): H0 reads, code 0x20 names nothing. -/
theorem test_wf_instruction : WellFormed (.mov 1 ⟨7, false⟩ 0 0x10) = true ∧ WellFormed (.mov 1 ⟨7, false⟩ 0 0x20) = false := by decide +kernel

/-! ### Witnesses: step, time and commits -/

/-- StepRunsTheFrontCommand. -/
theorem witness_step : ({ State.reset with pending := [.tick, .idcode] } : State).pending = .tick :: [.idcode] ∧ State.reset.pending = [] := by decide +kernel

/-- TickFollowsTimeAndResetAlone: a reset under way, and a command that neither counts nor resets. -/
theorem witness_tick : State.reset.inReset = true ∧ Instr.idcode ≠ .tick ∧
    (∀ held, Instr.idcode ≠ .pwrgoodLow held ∧ Instr.idcode ≠ .sysRstNAssert held) ∧
    (∀ ok, Instr.deviceResetRelease false = .deviceResetRelease ok → (st [(Fld.cprStartStep, 2)]).inReset = false) := by decide +kernel

/-- EveryCommandCompletesAndRunsGoOn. -/
theorem witness_run : ∀ c ∈ ({ State.reset with pending := [.tick, .idcode] } : State).pending, isReset c = false := by decide +kernel

/-- TimeBoundKeptByEveryStep, at the bound. -/
theorem witness_bound : ({ State.reset with pending := [.tick] } : State).tick + ticksIn [.tick] ≤ 1 ∧
    step { State.reset with pending := [.tick] } = .next { State.reset with tick := 1 } := ⟨by decide, rfl⟩

/-- HedgeCheckRunsAndRecordsItsResult: no check runs; one runs; and a violation is found of a rule of an empty range. -/
theorem witness_hedge_check : (State.reset.getF Fld.hedgeCommitStatPending = 0 ∧ State.reset.getF Fld.hedgeCheckBusy = 0) ∧
    ((st [(Fld.hedgeCheckBusy, 1)]).getF Fld.hedgeCheckBusy = 1 ∧ (st [(Fld.hedgeCheckBusy, 1)]).hedgeViol = none) := by decide +kernel

/-- HedgeCommitSwitchesAtItsBoundary: accepted; and at its boundary, at the first furlong of all. -/
theorem witness_hedge_commit : ((st [(Fld.hedgeCheckPass, 1)]).getF Fld.hedgeCommitStatPending = 0 ∧ (st [(Fld.hedgeCheckPass, 1)]).getF Fld.hedgeCheckPass = 1) ∧
    ((atTick State.reset 256).phase = 0 ∧ ({ atTick State.reset 256 with commits := [(.hedge, 1)] } : State).commits = [(.hedge, 1)] ∧
      1 ≤ (atTick State.reset 256).furlong ∧ State.reset.getF Fld.cprStartStep ≠ 6) := by decide +kernel

/-- HedgeDrainEndsOrIsOverdue: all old items gone; and, at the tick at which the time is past, not raised yet. -/
theorem witness_drain :
    ((st [(Fld.hedgeCommitStatDraining, 1)]).getF Fld.hedgeCommitStatDraining = 1 ∧
      ({ st [(Fld.hedgeCommitStatDraining, 1)] with hedge := { State.reset.hedge with drained := true } } : State).oldItems = 0) ∧
    (let s := atTick (st [(Fld.hedgeCommitStatDraining, 1), (Fld.hedgeDrainTmoMs, 1), (Fd.whole Reg.hedgeCommitFurlongLo, 1)]) 250256
     s.getF Fld.hedgeCommitStatDraining = 1 ∧ s.getF Fld.hedgeDrainTmoMs ≠ 0 ∧ s.hedge.overdue = false ∧
     256 * s.get64 Reg.hedgeCommitFurlongLo Reg.hedgeCommitFurlongHi + 250000 * s.getF Fld.hedgeDrainTmoMs ≤ s.tick) := by decide +kernel

/-- HedgeSeedAndRuleWords: at the last entry that ENTRY can leave. -/
theorem witness_hedge_seed : State.reset.getF Fld.hedgeCommitStatPending = 0 ∧ (st [(Fld.hedgeCopyCtlBusy, 1)]).getF Fld.hedgeCopyCtlBusy = 1 ∧
    ((st [(Fld.hedgeRuleIdxEntry, 262142)]).rulesLocked = false ∧ (st [(Fld.hedgeRuleIdxEntry, 262142)]).getF Fld.hedgeRuleIdxEntry < 262143) := by decide +kernel

/-- A state with service context 5 enabled, RATE 3 and DEPTH 100, one below its depth, at tick 256. -/
def shaped : State :=
  { st [(Fld.schedScW0En 5, 1), (Fld.schedScW0Rate 5, 3), (Fld.schedScW1Depth 5, 100), (Fd.whole (Reg.schedScLevel 5), 99)] with tick := 256 }

/-- FurlongBoundaryRenewsBudgetsOnce: due; done already; and at a phase of 255. -/
theorem witness_boundary :
    (shaped.phase = 0 ∧ shaped.furDone ≠ some shaped.furlong ∧ shaped.commits = [] ∧ shaped.getF Fld.cprStartStep ≠ 6 ∧ shaped.xb.rank2 = [] ∧
      shaped.mz.ready = false ∧ shaped.schedListed = ([5], [], []) ∧ shaped.getF Fld.faultStatFatal = 0 ∧ shaped.getF (Fld.schedScW0En 5) = 1 ∧
      shaped.level (Reg.schedScLevel 5) < shaped.getF (Fld.schedScW1Depth 5)) ∧
    ({ State.reset with furDone := some 0 } : State).furDone = some State.reset.furlong ∧ (atTick State.reset 255).phase ≠ 0 := by decide +kernel

/-- SchedAndBufferCommitsWaitAndSeedCopies: none pending with the load copy in order, the limits' sum within the cells; one pending; a seed
running with no commit pending, and with one. -/
theorem witness_sched : (State.reset.getF Fld.schedCommitStatPending = 0 ∧ State.reset.schedViol = none) ∧
    (State.reset.getF Fld.bufferCommitStatPending = 0 ∧ State.reset.limitSum ≤ 388096) ∧
    (st [(Fld.schedCommitStatPending, 1)]).getF Fld.schedCommitStatPending = 1 ∧
    (st [(Fld.bufferCommitStatPending, 1)]).getF Fld.bufferCommitStatPending = 1 ∧ ((st [(Fld.schedCopyCtlBusy, 1)]).getF Fld.schedCopyCtlBusy = 1 ∧
      (st [(Fld.schedCopyCtlBusy, 1)]).getF Fld.schedCommitStatPending = 0) ∧
    ((st [(Fld.schedCopyCtlBusy, 1), (Fld.schedCommitStatPending, 1)]).getF Fld.schedCopyCtlBusy = 1 ∧
      (st [(Fld.schedCopyCtlBusy, 1), (Fld.schedCommitStatPending, 1)]).getF Fld.schedCommitStatPending = 1) := by decide +kernel

/-! ### Witnesses: plots, functions and decoders -/

/-- PlotCommitIsAcceptedAndSeedCopies: a load copy that stands checked, and one whose check is due; a commit pending, and a code in VIOL; a seed
running with no commit pending, and with one. -/
theorem witness_plot :
    (State.reset.getF Fld.plotCommitStatPending = 0 ∧ State.reset.getF Fld.plotLoadStatViol = 0 ∧ State.reset.fn.loadDue = false ∧ State.reset.commitViolations = []) ∧
    (let s : State := { st [(Fld.plotPlotW6LoadProgMask 0, 1), (Fld.plotPlotW1LoadScCnt 0, 1)] with fn := { State.reset.fn with loadDue := true } }
     s.fn.loadDue = true ∧ s.violations = [] ∧ s.commitViolations = []) ∧
    (st [(Fld.plotCommitStatPending, 1)]).getF Fld.plotCommitStatPending = 1 ∧ (st [(Fld.plotLoadStatViol, 0x0E)]).getF Fld.plotLoadStatViol ≠ 0 ∧
    ((st [(Fld.plotCopyCtlBusy, 1)]).getF Fld.plotCopyCtlBusy = 1 ∧ (st [(Fld.plotCopyCtlBusy, 1)]).getF Fld.plotCommitStatPending = 0) ∧
    ((st [(Fld.plotCopyCtlBusy, 1), (Fld.plotCommitStatPending, 1)]).getF Fld.plotCopyCtlBusy = 1 ∧
      (st [(Fld.plotCopyCtlBusy, 1), (Fld.plotCommitStatPending, 1)]).getF Fld.plotCommitStatPending = 1) := by decide +kernel

/-- LP0 upstream with its link up, its PF0 assigned, VF Enable set with 63 VFs, and VF 63 assigned. -/
def host : State :=
  { st [(Fld.portLpCtlRole 0, 0), (Fld.portLpStatDllUp 0, 1), (Fld.plotFnW0Assign 0, 1), (Fld.plotFnW0Assign 63, 1)] with
    fn := { State.reset.fn with vf := [(0, true, 63)] } }

/-- `host` with an advance due for a function. -/
def hostDue (fn : Nat) : State := { host with fn := { host.fn with due := [fn] } }

/-- FunctionResetsAdvanceTheGeneration: the last function of a port by FN_RESET, the last VCS entry, one due already, and advances of a
function and of the last VCS entry. -/
theorem witness_function_reset :
    (host.fn.due.contains 63 = false ∧ host.advancedNow 63 = false ∧ host.mustHold 63 = false) ∧
    (host.fn.due.contains 0x103F = false ∧ host.advancedNow 0x103F = false) ∧ (hostDue 63).fn.due.contains 63 = true ∧
    (host.assigned 63 = true ∧ host.enabled 63 = true ∧ 63 % 64 ≠ 0) ∧
    (0x103F < 0x1040 ∧ (hostDue 0x103F).fn.due.contains 0x103F = true ∧ (hostDue 0x103F).mustHold 0x103F = false ∧ (hostDue 0x103F).advancedNow 0x103F = false) ∧
    ((hostDue 63).mustHold 63 = false ∧ (hostDue 63).advancedNow 63 = false) := by decide +kernel

/-- HostResetsReachEveryFunction. -/
theorem witness_host_reset : (host.enabled (64 * 0) = true ∧ (host.vf 0).1 = true) ∧
    (host.isRole 0 0 = true ∧ host.dllUp 0 = true ∧ host.instOf 0 = none ∧ host.home.snoops.filter (fun x => x.lp = 0) = [] ∧
      host.home.sweeps = []) := by decide +kernel

/-- `host` with a decoder at function 63. -/
def hostDec (d : Decoder) : State := { host with fn := { host.fn with decoders := [(63, d)] } }

/-- A host write that sets Commit. -/
def setCommit : DecWrite := ⟨none, none, none, none, some true⟩

/-- DecoderWritesCommitOrAreHeld: on values R84 allows and on others, with a commit pending and 15 writes held, and one held write after the boundary. -/
theorem witness_decoder :
    (host.assigned 63 = true ∧ host.enabled 63 = true ∧ (host.decoder 63).pend = none ∧ (host.decoder 63).heldDue = false ∧
      setCommit.commit = some true ∧ decOk (mergeDec (host.decoder 63).vals setCommit) = true ∧
      decOk (mergeDec (host.decoder 63).vals { setCommit with base := some 1 }) = false) ∧
    ((hostDec { pend := some true, held := List.replicate 15 setCommit }).assigned 63 = true ∧
      (hostDec { pend := some true, held := List.replicate 15 setCommit }).enabled 63 = true ∧
      ((hostDec { pend := some true, held := List.replicate 15 setCommit }).decoder 63).pend ≠ none ∧
      ((hostDec { pend := some true, held := List.replicate 15 setCommit }).decoder 63).held.length < 16) ∧
    (((hostDec { heldDue := true, held := [{ setCommit with commit := none }] }).decoder 63).heldDue = true ∧
      (atTick (hostDec { heldDue := true, held := [{ setCommit with commit := none }] }) 1).phase ≠ 0 ∧
      ((hostDec { heldDue := true, held := [{ setCommit with commit := none }] }).decoder 63).pend = none ∧
      ((hostDec { heldDue := true, held := [{ setCommit with commit := none }] }).decoder 63).held = [{ setCommit with commit := none }]) := by decide +kernel

/-- ConfigRequestsAreAnswered: a target that answers, and one that does not. -/
theorem witness_config : host.isRole 0 0 = true ∧ host.dllUp 0 = true ∧ host.cfgAnswers 0 (.fn 63) = true ∧ host.cfgAnswers 0 (.fn 1) = false := by decide +kernel

/-! ### Witnesses: flits, classification and the engine -/

/-- LP0 a downstream port in L0. -/
def down0 : State := st [(Fld.portLpCtlRole 0, 1), (Fld.portLpStatDllUp 0, 1), (Fld.portLpStatLtssm 0, 3)]

/-- FlitsAreAcceptedOrCounted. -/
theorem witness_flit : down0.lpExists 0 = true ∧ down0.inL0 0 = true ∧ down0.role 0 ≠ 2 ∧ down0.contained 0 = false := by decide +kernel

/-- A Secure stream in containment mode on LP63, whose MAC of tick 40 covers the messages numbered below 8. -/
def macDue : State :=
  { withMsgs (st [(Fld.securityIdeStatState 63, 1)]) [{ mg .macHeld .memRd .program with inLp := 63 }] with
    link := { State.reset.link with ide := [(63, { set0 := true, contain := true, macs := [(40, 8)] })] } }

/-- MacReleasesTheMessagesItCovers. -/
theorem witness_mac : macDue.getF (Fld.securityIdeStatState 63) = 1 ∧ (macDue.ide 63).macs = (40, 8) :: [] ∧
    (macDue.msg? 7).map (·.stage) = some .macHeld := by decide +kernel

/-- `host` with a committed decoder of 256 MB at function 63, and a read by LP0 unpacked in tick 0, at the tick in which it is classified. -/
def decoding (addr : Nat) : State :=
  withMsgs (atTick (hostDec { force := ⟨0x10000000, 0x10000000, 0, 0⟩, commit := true }) 4)
    [{ mg .unpacked .memRd .program with hdr := { hd .memRd with addr := addr } }]

/-- A state in whose tick `n` messages of LP1 were classified. -/
def classing (s : State) (n : Nat) : State := { s with dp := { s.dp with classed := List.replicate n 1 } }

/-- MemRequestsAreClassifiedByTheirDecoder: the range's last byte, and the first after it; with three messages of the engine's four classified in
the tick; with four; a tick early; and at the engine already. -/
theorem witness_classify :
    (∃ x, (decoding 0x1FFFFFFF).msg? 7 = some x ∧ x.stage = .unpacked ∧ x.stamp + 4 + x.parts.ideh ≤ (decoding 0x1FFFFFFF).tick ∧
      (classing (decoding 0x1FFFFFFF) 3).mayClassify x.inLp = true ∧ (classing (decoding 0) 4).mayClassify x.inLp = false ∧
      x.hdr.op.isMemReq = true ∧ (decoding 0x1FFFFFFF).idePlain x.inLp = false ∧
      (decoding 0x1FFFFFFF).role x.inLp = 0 ∧ (decoding 0x1FFFFFFF).decodeHpa x.inLp x.hdr.addr = some 63) ∧
    (∃ x, (decoding 0x20000000).msg? 7 = some x ∧ x.stage = .unpacked ∧ (decoding 0x20000000).decodeHpa x.inLp x.hdr.addr = none ∧
      (atTick (decoding 0) 3).tick < x.stamp + 4 + x.parts.ideh) ∧
    (decoding 0).getF Fld.faultStatFatal = 0 ∧ (decoding 0).tdiError 63 = false ∧ (mg .atEngine .memRd .program).stage ≠ .unpacked :=
  ⟨⟨_, rfl, by decide +kernel⟩, ⟨_, rfl, by decide +kernel⟩, by decide +kernel⟩

/-- A classified message at LP0's engine in tick 5, with `n` messages entered through its port in this tick already. -/
def entering (n : Nat) : State :=
  let s := withMsgs (atTick (st [(Fld.bufferLimitCells 0 3, 100), (Fld.plotPlotW5BufQuota 0, 10)]) 5) [mg .atEngine .memRd .program]
  { s with dp := { s.dp with entered := List.replicate n 0 } }

/-- EngineEntryReservesCells: with three lanes of four taken; with four; a tick early; and with no cell to spare. -/
theorem witness_entry :
    (let s := entering 3
     let x := mg .atEngine .memRd .program
     s.msg? 7 = some x ∧ x.stamp + 5 + x.parts.ideh ≤ s.tick ∧ s.heldBack x = false ∧ s.enteredNow x.inLp < s.lanes x.inLp ∧
     s.admits x.inLp x.hdr.op.credit x.cls.plot x.cls.epoch (s.cellsFor x) = true ∧ s.shape (x.inLp / 2) ≠ 2) ∧
    ((entering 4).msg? 7 = some (mg .atEngine .memRd .program) ∧ (entering 4).enteredNow 0 ≥ (entering 4).lanes 0) ∧
    (atTick (entering 0) 4).tick < 0 + 5 + (mg .atEngine .memRd .program).parts.ideh ∧
    (withMsgs State.reset [mg .atEngine .memRd .program]).admits 0 (hd .memRd).op.credit 4095 0 64000 = false := by decide +kernel

/-! ### Witnesses: the instruction set -/

/-- Message 5 in slot 7, the last, of the fourth stage of its program. -/
def coX : Msg := { mg .engine .memRd .program with id := 5, ctx := { stage := 3, block := 3, slot := 7 } }

/-- A state in which that slot holds the word `w`. -/
def coSt (w : CoW) : State :=
  { withMsgs (State.reset.set64 (Reg.coulterStore 0 0 0 127) (Reg.coulterStore 0 0 0 127 + 4) w.word) [coX] with
    eng := { State.reset.eng with images := [(0, { stages := 4 })] } }

/-- Command `c`'s word is the one of its message's slot, and the message runs; `exe` says whether the predicate is 1. -/
def coMeets (c : Instr) (exe : Bool) : Bool :=
  match c.coWord? with
  | some w => decide (c.coMsg? = some 5 ∧ (coSt w).msg? 5 = some coX ∧ (coSt w).slotWord coX = w) && (coSt w).running coX && (w.executes coX.ctx == exe)
  | none => false

/-- One command for every opcode but NOP under predicate Q7, with operands at the bounds of their fields. -/
def coAll (p : Pred) : List Instr :=
  [.endExec 5 p, .skip 5 p 7, .next 5 p 3, .cnt 5 p 0x3F 0x11F, .add 5 p .w8 15 0x1F 0x1F, .sub 5 p .w32 15 0 0x1F, .addi 5 p .w16 0 0 0xFFFFFFFF,
   .andOp 5 p 0 1 2, .orOp 5 p 0 1 2, .xorOp 5 p 0 1 2, .mov 5 p 0 0x17, .ldi 5 p 15 0xFFFFFFFF, .andi 5 p 0 1 0xFFFFFFFF,
   .shl 5 p 0 1 2 31, .shr 5 p 0 1 2 32, .ext 5 p 0 1 (31 + 256), .ext 5 p 0 1 (32 * 256), .ins 5 p 0 1 2 (31 + 256), .ins 5 p 0 1 2 (32 * 256),
   .ceq 5 p .w8 6 0 1, .cne 5 p .w16 0 0 1, .clt 5 p .w32 0 0 1, .cge 5 p .w32 0 0 1, .crng 5 p .w8 0 0 1 256,
   .lxt 5 p 0, .lht 5 p 0 3, .lfn 5 p 7, .tgt 5 p 0 1 3, .twin 5 p 0 1 3, .home 5 p, .key 5 p 1, .mark 5 p 0xFFFF, .atom 5 p 1, .drop 5 p, .psn 5 p,
   .trap 5 p 255]

/-- ControlInstructionsAndCounters, AluInstructionsWriteTheirResult, ShiftFieldAndCompareInstructions, LookupsIssueTheirWords and
ActionsWriteTheirRecordField: every instruction runs somewhere. -/
theorem witness_instructions_run : (coAll ⟨7, false⟩).all (fun c => coMeets c true) = true := by decide +kernel

/-- ControlInstructionsAndCounters: one counter's additions of a tick. -/
theorem witness_count_tick : ({ State.reset with eng := { State.reset.eng with adds := [(Reg.coulterCntLo 0 0 255, 2)] } } : State).eng.adds =
    [(Reg.coulterCntLo 0 0 255, 2)] := by decide +kernel

/-- FalsePredicatesPassTheSlot: and stands somewhere under a predicate that is 0; NOP's word is all zeros. -/
theorem witness_false_predicates : (coAll ⟨0, false⟩).all (fun c => coMeets c false) = true ∧ coMeets (.nop 5) false = true := by decide +kernel

/-- A field that ends at bit 31, and one of all 32 bits. -/
theorem witness_fields : (1 ≤ 1 ∧ 31 + 1 ≤ 32 ∧ (31 + 256) % 32 = 31 ∧ (31 + 256) / 256 % 64 = 1) ∧
    (1 ≤ 32 ∧ 0 + 32 ≤ 32 ∧ (32 * 256) % 32 = 0 ∧ (32 * 256) / 256 % 64 = 32) := by decide

/-- InstructionWordsSpellTheirCommands: every opcode has a word. -/
theorem witness_words : (coAll ⟨7, true⟩).all (fun c => c.coWord?.isSome && c.coMsg?.isSome) = true := by decide +kernel

/-- LookupsIssueTheirWords: a message of a tenant's function, one of plot 0 with the last extent entry, and tables with no valid entry of the key. -/
theorem witness_lookups : ({ coX with cls := { coX.cls with plot := 1, fid := 4095 } } : Msg).tenantFn = true ∧ coX.tenantFn = false ∧ 131071 < 131072 ∧
    State.reset.hashAt 0 = [] := by decide +kernel

/-! ### Witnesses: programs and tables -/

/-- An image of one stage with one block of NOPs and an END, SEQ 1, for program 3, in engine 0's staging window; its hash field is 0. -/
def staged : State := (State.reset.setFs
  [(Fd.whole (Reg.coulterStaging 0 0), 0x43525A50), (Fd.whole (Reg.coulterStaging 0 1), 0x01030001), (Fd.whole (Reg.coulterStaging 0 2), 1),
   (Fd.whole (Reg.coulterStaging 0 4), 1), (Fd.whole (Reg.coulterStaging 0 6), 288)])

/-- `staged` while the load of program `p` runs. -/
def loading (p : Nat) : State := { staged with eng := { State.reset.eng with loads := [(0, some (p, 0))] } }

/-- ProgramLoadsFillTheInactiveSlot: free blocks; a busy one, an x16 pair with a busy follower, and a follower; an image that is refused, with code
0x12 for another program's. -/
theorem witness_load : (State.reset.shape 31 ≠ 3 ∧ ∀ k ∈ State.reset.enginesOf 31, State.reset.getF (Fld.coulterLoadStatBusy k) = 0) ∧
    (∃ k ∈ (st [(Fld.coulterLoadStatBusy 31, 1)]).enginesOf 31, (st [(Fld.coulterLoadStatBusy 31, 1)]).getF (Fld.coulterLoadStatBusy k) = 1) ∧
    (∃ k ∈ (st [(Fld.portCfgMode 0, 2), (Fld.coulterLoadStatBusy 1, 1)]).enginesOf 0,
      (st [(Fld.portCfgMode 0, 2), (Fld.coulterLoadStatBusy 1, 1)]).getF (Fld.coulterLoadStatBusy k) = 1) ∧
    (st [(Fld.portCfgMode 1, 3)]).shape 1 = 3 ∧
    ((List.range 32).filter (fun k => decide ((loading 15).loadOf k = some (15, 0))) = [0] ∧
      (loading 15).loadVerdict 0 0 15 = (0x12, 0)) := by decide +kernel

/-- The same: an image is accepted when its hash and its signature, which are opaque (log 8), stand; then the load goes on while no message fixed the
slot, and waits while one did. -/
theorem witness_load_accepted (hHash : (loading 3).imageHash 0 = 0) (hSig : (loading 3).imageSigOk 0 = true) :
    ((loading 3).loadVerdict 0 0 3).1 = 0 ∧ (loading 3).loadOf 0 = some (3, 0) ∧
    (List.range 32).filter (fun k => decide ((loading 3).loadOf k = some (3, 0))) = [0] ∧
    (loading 3).slotBusy 0 3 ((loading 3).inactiveSlot 0 3) = false ∧
    (withMsgs (loading 3) [{ coX with cls := { coX.cls with prog := 3 } }]).slotBusy 0 3 0 = true := by
  refine ⟨?_, by decide +kernel⟩
  unfold State.loadVerdict
  rw [hHash, hSig]
  decide +kernel

/-- A slot loaded and valid for program 15 of engine 31. -/
def loaded : State := { st [(Fld.coulterProgStatValidB 31 15, 1)] with eng := { State.reset.eng with last := [(31 * 16 + 15, some 1)] } }

/-- ProgramCommitsAndCounterClears: a loaded slot; none; and a follower. -/
theorem witness_program_commit : (loaded.shape 31 ≠ 3 ∧ ∀ k ∈ loaded.enginesOf 31, loaded.progCommitBad k 15 = false) ∧
    (State.reset.shape 31 ≠ 3 ∧ ∀ k ∈ State.reset.enginesOf 31, State.reset.progCommitBad k 0 = true) ∧
    (st [(Fld.portCfgMode 31, 3)]).shape 31 = 3 := by decide +kernel

/-- HashTableCopiesLoadAndCommit: an allocation of 4 entries at their multiple; one of size code 1; two that overlap; one pending; no seed under way;
a seed running with no commit pending, and with one; an entry that is not locked, the last; and writes that are ignored. -/
theorem witness_hash :
    ((st [(Fd.whole (Reg.coulterHtAllocLoad 15 3), 2 + 32 * 4)]).htPending 15 = false ∧ (st [(Fd.whole (Reg.coulterHtAllocLoad 15 3), 2 + 32 * 4)]).htSizeBad 15 = false ∧
      (st [(Fd.whole (Reg.coulterHtAllocLoad 15 3), 2 + 32 * 4)]).htOverlap 15 = false) ∧
    (st [(Fd.whole (Reg.coulterHtAllocLoad 15 3), 1)]).htSizeBad 15 = true ∧
    ((st [(Fd.whole (Reg.coulterHtAllocLoad 15 0), 2), (Fd.whole (Reg.coulterHtAllocLoad 15 3), 3)]).htSizeBad 15 = false ∧
      (st [(Fd.whole (Reg.coulterHtAllocLoad 15 0), 2), (Fd.whole (Reg.coulterHtAllocLoad 15 3), 3)]).htOverlap 15 = true) ∧
    ({ State.reset with commits := [(.ht 15, 1)] } : State).htPending 15 = true ∧
    (State.reset.eng.seeding = none ∧ State.reset.htPending 15 = false) ∧
    (({ State.reset with eng := { State.reset.eng with seeding := some 15 } } : State).eng.seeding = some 15 ∧
      ({ State.reset with eng := { State.reset.eng with seeding := some 15 } } : State).htPending 15 = false) ∧
    ({ State.reset with commits := [(.ht 15, 1)], eng := { State.reset.eng with seeding := some 15 } } : State).htPending 15 = true ∧
    (st [(Fld.coulterHtIdxCopy, 1)]).getF Fld.coulterHtIdxCopy = 1 ∧ (st [(Fld.coulterHtCtlBusy, 1)]).getF Fld.coulterHtCtlBusy = 1 ∧
    ((st [(Fld.coulterHtIdxEntry, 131071)]).getF Fld.coulterHtIdxCopy = 0 ∧ (st [(Fld.coulterHtIdxEntry, 131071)]).getF Fld.coulterHtCtlBusy = 0 ∧
      (st [(Fld.coulterHtIdxEntry, 131071)]).htEntryLocked 131071 = false) := by decide +kernel

/-! ### Witnesses: map, home and snoops -/

/-- HedgeAndMapSendsOnOrDrops: a response with its route, and a posted write whose record says DROP. -/
theorem witness_map :
    ((withMsgs State.reset [{ mg .map .drs .response with route := some { lp := 0, rank := 2 } }]).msg? 7).map
      (fun x => (x.stage, x.cls.path, x.route)) = some (.map, .response, some { lp := 0, rank := 2 }) ∧
    ((withMsgs State.reset [{ mg .map .ioMemWr .program with ctx := { act := { disp := .drop } } }]).msg? 7).map
      (fun x => (x.stage, x.cls.path, x.cls.slot, x.ctx.act, x.hdr.op)) = some (.map, .program, some 0, { disp := .drop }, .ioMemWr) := by decide +kernel

/-- A message at the home on key (131071, 4). -/
def homeMsg (stage : Stage) (op : Opn) : Msg := { mg stage op .homePath with route := some { lp := 0, key := some (131071, 4) } }

/-- An open transaction on that key. -/
def homeTxn : Txn := ⟨3, 131071, 4, some 7, .invI, false, 0, false, false, .invalid, none, [], [], none, false, [], 0⟩

/-- A state at tick 4 with such a message, a transaction on its key, and parked messages. -/
def homeSt (x : Msg) (txns : List Txn) (parked : List Parked) : State :=
  { withMsgs (atTick State.reset 4) [x] with home := { State.reset.home with txns := txns, parked := parked } }

/-- HomeLookupsParkAndReplay: a MemSpecRd in the tick's last lookup; a read that meets an open transaction with one credit of its port's
sixteen left; the replay of a ready one; and the first message without a credit. -/
theorem witness_home :
    (let s := { homeSt (homeMsg .home .memSpecRd) [] [] with home := { State.reset.home with looked := 3 } }
     s.msg? 7 = some (homeMsg .home .memSpecRd) ∧ s.mayLook (homeMsg .home .memSpecRd) = true ∧ s.wayOf 131071 4 = none ∧ s.tick = 0 + 4) ∧
    (let ps := List.replicate 15 (⟨1, some false, .table, false, 0⟩ : Parked)
     let s := homeSt (homeMsg .home .memRd) [homeTxn] ps
     s.txnOn 131071 4 = some homeTxn ∧ s.mayLook (homeMsg .home .memRd) = true ∧ s.wayOf 131071 4 = none ∧
     ps.any (fun p => p.msg = 7) = false ∧ (homeMsg .home .memRd).origin ≠ .harrow ∧ (∀ p ∈ ps, p.credit ≠ none) ∧
     (ps.filter (fun p => p.credit = some false)).length < 16) ∧
    (let s := homeSt (homeMsg .parked .ioMemWr) [homeTxn] [⟨7, some true, .table, true, 0⟩]
     s.msg? 7 = some (homeMsg .parked .ioMemWr) ∧ s.txnOn 131071 4 = some homeTxn ∧ s.mayLook (homeMsg .parked .ioMemWr) = true ∧
     s.home.parked.any (fun q => q.msg = 7) = true) ∧
    (homeSt (homeMsg .parked .memRd) [] [⟨7, none, .table, false, 0⟩]).home.parked.any (fun p => decide (p.msg = 7) && p.credit.isNone) = true := by
  decide +kernel

/-- A snoop of LP0 with BITag 4095 for transaction 3, whose line LP0 holds in directory entry 16. -/
def snoopSt (m : List Msg) : State :=
  { withMsgs State.reset m with home := { State.reset.home with
    txns := [{ homeTxn with way := some 16 }], snoops := [⟨0, 4095, .cur, 3, 0⟩], dir := [(16, { tag := 1, state := 1, isOpen := true, sharers := [0] })] } }

/-- An M2S back-invalidate response of LP0. -/
def rsp (op : Opn) (bitag : Nat) : Msg := { mg .map op .homePath with hdr := { hd op with bitag := bitag } }

/-- SnoopsSweepsAndCoherentFunctions, clause by clause: a stray response of each kind; one that matches; a MemInv that nothing holds up, with one cell of
the reserve left; a snoop's timeout, in the tick in which it is past; a sweep of a port that holds no line; CFN of a port without lines and with one. -/
theorem witness_snoops :
    (∀ p ∈ (snoopSt [rsp .biRspI 0]).home.snoops, ¬(p.lp = 0 ∧ p.bitag = 0)) ∧ (rsp .biRspBlk 4095).hdr.op = .biRspBlk ∧
    ((snoopSt [rsp .biRspE 4095]).msg? 7 = some (rsp .biRspE 4095) ∧ (rsp .biRspE 4095).hdr.op ≠ .biRspBlk ∧
      (∀ y ∈ (snoopSt []).home.txns, y.toSnoop = []) ∧
      (snoopSt []).home.snoops.find? (fun y => decide (y.lp = 0 ∧ y.bitag = 4095)) = some ⟨0, 4095, .cur, 3, 0⟩ ∧
      ((snoopSt []).txn? 3).bind (·.way) = some 16 ∧ ((snoopSt []).dirAt 16).sharers.contains 0 = true ∧ ((snoopSt []).dirAt 16).isOpen = true) ∧
    ((homeSt (homeMsg .txn .memInv) [homeTxn] []).txn? 3 = some homeTxn ∧ homeTxn.done = false ∧ homeTxn.kind = .invI ∧ homeTxn.toSnoop = [] ∧
      homeTxn.before = [] ∧ homeTxn.victim = none ∧ homeTxn.way = none ∧ homeTxn.msg = some 7 ∧
      (homeSt (homeMsg .txn .memInv) [homeTxn] []).home.snoops = [] ∧ (homeSt (homeMsg .txn .memInv) [homeTxn] []).msg? 7 = some (homeMsg .txn .memInv) ∧
      (homeSt (homeMsg .txn .memInv) [homeTxn] []).devCells + 1 ≤ 4096 ∧ (homeSt (homeMsg .txn .memInv) [homeTxn] []).dp.nextId ≠ 7) ∧
    ((snoopSt []).getF Fld.homeStatHalted = 0 ∧ (snoopSt []).txn? 3 = some { homeTxn with way := some 16 } ∧
      (atTick (snoopSt []) 250000).aonPast 0 (snoopSt []).snoopTicks = true ∧
      memberOf ((snoopSt []).regsAt (snoopSt []).dp.epoch) (fieldAt ((snoopSt []).regsAt (snoopSt []).dp.epoch) (Fld.extentXtW0Pool homeTxn.e))
        (fieldAt ((snoopSt []).regsAt (snoopSt []).dp.epoch) (Fld.extentXtW0Pxb homeTxn.e) * 2 ^ 28 + 64 * homeTxn.n) = none) ∧
    (({ State.reset with home := { State.reset.home with sweeps := [(63, false, true)] } } : State).home.sweeps.find?
      (fun x => decide (x.1 = 63) && !x.2.1) = some (63, false, true) ∧ (∀ e ∈ State.reset.home.dir, e.2.sharers.contains 63 = false) ∧
      State.reset.home.poison = [] ∧ State.reset.getF Fld.homeStatHalted = 0) ∧
    (State.reset.portLines 63 = 0 ∧ fieldGet 63 12 1 = 0 ∧ host.portLines 0 = 0 ∧ host.isRole 0 0 = true ∧ fieldGet 0x103F 0 12 / 64 = 0) ∧
    (snoopSt []).portLines 0 ≠ 0 ∧ SnpKind.inv ≠ .cur := by decide +kernel

/-! ### Witnesses: the crossbar -/

/-- A message of rank 2 for LP62 made by the device, with `n` bytes. -/
def made (stage : Stage) (n : Nat) : Msg :=
  { mg stage .cpl .response with origin := .device, hdr := { hd .cpl with data := List.replicate n 0 }, route := some { lp := 62, rank := 2 } }

/-- LP62 a downstream port with its link up, at tick 9. -/
def out62 (m : List Msg) : State := withMsgs (atTick (st [(Fld.portLpCtlRole 62, 1), (Fld.portLpStatDllUp 62, 1)]) 9) m

/-- BidsAreListedAndGranted: a message that bids alone, of 512 bytes and of more; and a second arbitration in a tick. -/
theorem witness_arbitrate :
    (let s := { out62 [made .bid 497] with dp := { (out62 [made .bid 497]).dp with bids := [7] } }
     s.dp.arbAt ≠ some s.tick ∧ s.dp.bids = [7] ∧ s.msg? 7 = some (made .bid 497) ∧ (made .bid 497).rank ≤ 2 ∧ (made .bid 497).out < 64 ∧ s.dp.cont = [] ∧
     s.xb.harrow = [] ∧ ({} : HarrowCh).burst = []) ∧ (State.reset.har 3).moves = [] ∧
    (made .bid 496).hdr.flitLen = 512 ∧ (made .bid 497).hdr.flitLen = 528 ∧
    ({ State.reset with dp := { State.reset.dp with arbAt := some 0 } } : State).dp.arbAt = some State.reset.tick := by decide +kernel

/-- GrantedMessagesTraverseAndLeave: granted in the tick before, and packing a flit of 512 bytes. -/
theorem witness_traverse :
    (let s := out62 [{ made .granted 497 with since := 8 }]
     s.msg? 7 = some { made .granted 497 with since := 8 } ∧ 8 < s.tick ∧ s.cancelled { made .granted 497 with since := 8 } = false ∧
     (made .granted 497).inPort < 32 ∧ (made .granted 497).outPort < 32) ∧
    (let s := out62 [{ made .packing 496 with since := 8 }]
     s.msg? 7 = some { made .packing 496 with since := 8 } ∧ (made .packing 496).hdr.flitLen ≤ 512 ∧ s.dllUp 62 = true ∧ s.role 62 = 1 ∧
     s.gleaned { made .packing 496 with since := 8 } = false) := by decide +kernel

/-- A tracker entry of LP62 with tag 9. -/
def trk (op : Opn) : Tracker := { id := 5, lp := 62, tag := 9, cls := kl .program, req := hd op, start := 0 }

/-- A response on LP62 and the tracker entries given. -/
def answered (t : List Tracker) : State :=
  { withMsgs State.reset [{ mg .engine .ndr .response with cls := { kl .response with lp := 62 } }] with
    dp := { (withMsgs State.reset [{ mg .engine .ndr .response with cls := { kl .response with lp := 62 } }]).dp with trackers := t } }

/-- ResponsesMatchTheirTrackerEntries: none that matches; a write's; and a read's that times out. -/
theorem witness_responses :
    ((answered []).msg? 7).map (fun x => (x.stage, x.cls.path, x.route)) = some (.engine, .response, none) ∧ (∀ t ∈ (answered []).dp.trackers, ¬(t.lp = 62 ∧ t.tag = 9)) ∧
    ((answered [trk .memWr]).dp.trackers.find? (fun t => decide (t.lp = 62 ∧ t.tag = 9)) = some (trk .memWr) ∧
      (answered [trk .memWr]).tracker? 5 = some (trk .memWr) ∧ (trk .memWr).use = .request ∧ (trk .memWr).txn = none ∧ (trk .memWr).group = none ∧
      (trk .memWr).req.op.isRead = false ∧ (answered [trk .memWr]).current (trk .memWr).cls = true ∧ (answered [trk .memWr]).home.txns = []) ∧
    ((answered [trk .ioMemRd]).tracker? 5 = some (trk .ioMemRd) ∧ (answered [trk .ioMemRd]).current (trk .ioMemRd).cls = true ∧ (trk .ioMemRd).req.op = .ioMemRd ∧
      (trk .ioMemRd).cls.plot = 0 ∧ (trk .ioMemRd).denied = [] ∧ (trk .ioMemRd).got = 0 ∧ (trk .ioMemRd).req.size ≤ 512 ∧
      (atTick (answered [trk .ioMemRd]) 2500000).aonPast (trk .ioMemRd).start
        (250000 * max 1 (min 50 ((answered [trk .ioMemRd]).getF Fld.plotTrkTmoMs))) = true ∧
      ((answered []).msg? 7).map (fun x => decide (x.hdr.data.length ≤ 512)) = some true) := by decide +kernel

/-- NoticesCloseAndResidencesShow: a denial of LP63 that opened a notice in this tick; and none. -/
theorem witness_notices :
    (let s : State := { State.reset with hedge := { State.reset.hedge with denials := [⟨63, 1, 0, 0, 1, 0, true⟩] } }
     (∃ d ∈ s.hedge.denials, d.lp = 63 ∧ d.opened = true) ∧ (∀ d ∈ s.hedge.denials, d.lp ≠ 62)) ∧
    (∀ d ∈ State.reset.hedge.denials, d.lp ≠ 63) := by decide +kernel

/-! ### Witnesses: the harrow -/

/-- Extent entry 131071 valid in pool 0, whose member LP62 holds its first 256 MB. -/
def extents : State :=
  st [(Fld.extentXtW0Valid 131071, 1), (Fld.extentPoolW0Valid 0, 1), (Fld.extentPoolW1Len 0, 1), (Fld.extentMemberW0Valid 0 0, 1),
      (Fld.extentMemberW1Len 0 0, 1), (Fld.extentMemberW3Lp 0 0, 62), (Fld.portLpStatDllUp 62, 1), (Fld.harrowSrcEntry 3, 131071), (Fld.harrowCtlOp 3, 2),
      (Fld.plotPlotW3HedgeCnt 0, 1)]

/-- Channel 3 running with a harrow state, and plot 0's one rule, which allows all accesses to page 0. -/
def running (h : HarrowCh) : State :=
  { extents.setF (Fld.harrowStatState 3) 1 with
    xb := { State.reset.xb with harrow := [(3, h)] }
    hedge := { State.reset.hedge with rulesA := [(2, 0x00000001), (3, 0x80000700)] } }

/-- HarrowChannelsStartAndStop: refused, for operation 3; accepted, over the whole entry; after a fatal fault;
running, and not. -/
theorem witness_harrow :
    ((st [(Fld.harrowCtlOp 3, 3)]).harRefusal 3 = some 7 ∧ (st [(Fld.harrowCtlOp 3, 3)]).harState 3 = 0 ∧ (st [(Fld.harrowCtlOp 3, 3)]).getF (Fld.harrowCtlOp 3) = 3) ∧
    (extents.harRefusal 3 = none ∧ extents.getF (Fld.harrowCtlResume 3) = 0 ∧ extents.getF (Fld.harrowCountLines 3) = 0 ∧ 0 < extents.extentLines 131071) ∧
    ((extents.setF Fld.faultStatFatal 1).harRefusal 3 = none ∧ (extents.setF Fld.faultStatFatal 1).getF Fld.faultStatFatal = 1 ∧ extents.getF Fld.faultStatFatal = 0) ∧
    (running {}).harState 3 = 1 ∧ State.reset.harState 3 ≠ 1 := by decide +kernel

/-- A complete line of a channel, read as poison or not. -/
def doneMove (poison : Bool) : HMove :=
  { id := 9, line := 16777215, plot := 0, dplot := 0, cls := extents.harCls 62, inLp := 62, poison := poison, done := true }

/-- HarrowMovesIssueAndComplete: no channel wants; the last line of a channel's budget; and the last move of a channel, of data and of poison. -/
theorem witness_harrow_moves :
    (∀ k, k < 4 → State.reset.harWants k = false) ∧
    (let s := running { op := 2, src := 131071, budget := 1, next := 0, last := 1 }
     s.harWants 3 = true ∧ (∀ k, k < 4 → k ≠ 3 → s.harWants k = false) ∧ (s.har 3).op = 2 ∧ (s.har 3).budget = 1 ∧ s.xb.issued = 0 ∧
     s.getF Fld.faultStatFatal = 0 ∧ s.getF (Fld.extentXtW0Valid (s.har 3).src) = 1 ∧ s.getF (Fld.extentXtW0Coh (s.har 3).src) = 0 ∧
     (s.lineAt (s.har 3).src (s.har 3).next).lp = 62 ∧ s.dllUp 62 = true ∧
     s.checkPart (s.harCls 62) true ⟨0, 0, none⟩ ((s.lineAt (s.har 3).src (s.har 3).next).pool.getD 0) 1 false = some false ∧
     s.isSuspect 62 ((s.lineAt (s.har 3).src (s.har 3).next).pool.getD 0 / 4096) = false) ∧
    (∀ b, let s := running { op := 2, next := 1, last := 1, moves := [doneMove b] }
     (s.har 3).moves = [doneMove b] ∧ (doneMove b).done = true ∧ (doneMove b).counts = true ∧ s.harState 3 = 1 ∧ (s.har 3).last ≤ (s.har 3).next ∧
     (doneMove b).poison = b ∧ (s.har 3).seen = false ∧ (doneMove b).line < 2 ^ 24) := by decide +kernel

/-! ### Witnesses: ports and links -/

/-- PortRegistersFollowPinsAndEvents, clause by clause: a refused shape, with and without 1 in REFUSED; the present one; LP_CTL of no port and a refused
one; a retry at RETRY_MS, and a tick before it; the release with every port up or spent, and where nothing is released; a card that comes and one that
goes; a downstream port, up or not, and another; L0p outside L0 and of no width. -/
theorem witness_ports :
    (fieldGet 7 0 2 ≠ State.reset.shape 31 ∧ fieldGet 7 2 1 = 1 ∧ State.reset.modeRefused 31 (fieldGet 7 0 2) = true) ∧
    (fieldGet 4 2 1 = 1 ∧ fieldGet 4 0 2 = State.reset.shape 31) ∧ State.reset.lpExists 63 = false ∧
    (State.reset.lpExists 62 = true ∧ State.reset.lpCtlRefused 62 6 = true) ∧
    (let s := st [(Fld.portLpTrainRetryMs 62, 1)]
     (atTick s 250000).aonPast (s.lnk 62).refuseAt (250000 * s.getF (Fld.portLpTrainRetryMs 62)) = true ∧
     (atTick s 249999).aonPast (s.lnk 62).refuseAt (250000 * s.getF (Fld.portLpTrainRetryMs 62)) = false) ∧
    (let s := st [(Fld.cprStartStep, 7)]
     s.getF Fld.cprStartStep = 7 ∧ s.link.released = false ∧ s.mayRelease = true ∧ State.reset.getF Fld.cprStartStep ≠ 7) ∧
    (State.reset.lpExists 62 = true ∧ State.reset.getF (Fld.portLpStatPresent 62) = 0 ∧
      (st [(Fld.portLpStatPresent 62, 1), (Fld.portLpStatDllUp 62, 1)]).getF (Fld.portLpStatPresent 62) = 1 ∧
      (st [(Fld.portLpStatPresent 62, 1), (Fld.portLpStatDllUp 62, 1)]).dllUp 62 = true) ∧
    ((st [(Fld.portLpCtlRole 62, 1), (Fld.portLpStatDllUp 62, 1)]).isRole 62 1 = true ∧ (st [(Fld.portLpCtlRole 62, 1), (Fld.portLpStatDllUp 62, 1)]).dllUp 62 = true) ∧
    State.reset.isRole 63 1 = false ∧ State.reset.inL0 62 = false ∧ [1, 2, 4, 8, 16].contains 3 = false := by
  decide +kernel

/-- LP0 in L0 with 8 lanes trained. -/
def trained (l : List (Fd × Nat)) (x : Link) : State :=
  { st ((Fld.portLpStatLtssm 0, 3) :: (Fld.portLpStatDllUp 0, 1) :: l) with link := { State.reset.link with links := [(0, x)] } }

/-- The same: L0p at the trained width, and below it. -/
theorem witness_l0p : (trained [] { width := 8 }).inL0 0 = true ∧ [1, 2, 4, 8, 16].contains 8 = true ∧ 8 ≤ ((trained [] { width := 8 }).lnk 0).width ∧
    1 ≤ ((trained [] { width := 8 }).lnk 0).width := by decide +kernel

/-- LP0 a downstream port that may train. -/
def training : State :=
  st [(Fld.portLpCtlRole 0, 1), (Fld.portLpCtlEnable 0, 1), (Fld.cprClkStatLinkLock, 0xFFFF), (Fld.cprStartStep, 7), (Fld.portPinStatPerst 0, 0)]

/-- LinksComeUpGoDownAndTakeTheirShape: up at the slowest rate and the full width; refused without flit mode, and when it is too narrow; back from
Recovery; down, and down already; writes of LP_CTL, one of which takes a running link down; and a change to split and to x16. -/
theorem witness_links :
    ([1, 2, 4, 8, 16].contains 16 = true ∧ training.dllUp 0 = false ∧ training.mayTrain 0 = true ∧
      training.minWidth 0 ≤ min (min 16 (shapeWidth (training.shape 0))) ((training.lnk 0).maxW.getD 16) ∧
      min (min 1 (shapeWidth (training.shape 0))) ((training.lnk 0).maxW.getD 16) < training.minWidth 0) ∧
    (let s := trained [(Fld.portLpCtlRole 0, 1), (Fld.portLpStatLtssm 0, 5)] {}
     s.dllUp 0 = true ∧ s.getF (Fld.portLpStatLtssm 0) = 5 ∧ s.isRole 0 1 = true ∧ (s.lnk 0).trigDue = false ∧ s.vppbHold 0 = none ∧
     s.minWidth 0 ≤ min (min 8 (shapeWidth (s.shape 0))) ((s.lnk 0).maxW.getD 16)) ∧
    ((trained [(Fld.portLpCtlRole 0, 2)] {}).dllUp 0 = true ∧ State.reset.dllUp 0 = false) ∧
    (State.reset.lpExists 62 = true ∧ State.reset.lpCtlRefused 62 5 = false ∧
      (let s := st [(Fld.portLpCtlEnable 62, 1), (Fld.portLpCtlRole 62, 2), (Fld.portLpStatDllUp 62, 1)]
       s.getF (Fld.portLpCtlEnable 62) = 1 ∧ fieldGet 4 0 1 = 0 ∧ s.dllUp 62 = true ∧ s.lpCtlRefused 62 4 = false)) ∧
    (fieldGet 1 0 2 ≠ State.reset.shape 31 ∧ State.reset.modeRefused 31 1 = false ∧ fieldGet 2 0 2 ≠ State.reset.shape 30 ∧
      State.reset.modeRefused 30 2 = false) := by decide +kernel

/-- LinkDropsEndAndSuspectsClear. -/
theorem witness_drop : ((trained [] { dropAt := some 12 }).lnk 0).dropAt = some 12 ∧ ((trained [] { dropAt := some 12 }).lnk 0).dropDue = false := by
  decide +kernel

/-- LP0 in L0 with flits 4094 to 1 unacknowledged on a fabric port: the sequence numbers wrap. -/
def sending (n : Nat) : State := atTick (trained [(Fld.portLpCtlRole 0, 2)] { tfl := { a := 4094, n := n } }) 0x200

/-- The same after `k` resends from A. -/
def resent (k : Nat) : State := atTick (trained [(Fld.portLpCtlRole 0, 2)] { tfl := { a := 4094, n := 2, tries := k } }) 0x200

/-- AcknowledgementsCreditsAndReplay: an ACK of the last flit sent, and of the first not sent; a NAK of the next to send, of a kept one
that is A after three resends, and of one behind A; a count at the
half of its range, and behind it; a timeout that has just run out; a link not in L0. -/
theorem witness_tfl :
    ((sending 2).inL0 0 = true ∧ (1 + (sending 2).seqMod 0 - ((sending 2).lnk 0).tfl.a % (sending 2).seqMod 0) % (sending 2).seqMod 0 < (sending 2).unacked 0) ∧
    (sending 2).unacked 0 ≤ (2 + (sending 2).seqMod 0 - ((sending 2).lnk 0).tfl.a % (sending 2).seqMod 0) % (sending 2).seqMod 0 ∧
    (2 < (sending 2).seqMod 0 ∧ ((sending 2).lnk 0).tfl.n = 2 ∧ ((sending 2).lnk 0).tfl.a < (sending 2).seqMod 0) ∧
    ((4095 + (sending 2).seqMod 0 - ((sending 2).lnk 0).tfl.a % (sending 2).seqMod 0) % (sending 2).seqMod 0 < (sending 2).unacked 0 ∧ ((sending 2).lnk 0).tfl.a = 4094 ∧
      (resent 3).inL0 0 = true ∧ ((resent 3).lnk 0).tfl.a = 4094 ∧ ((resent 3).lnk 0).tfl.tries < 4) ∧
    (sending 2).unacked 0 < (4093 + (sending 2).seqMod 0 - ((sending 2).lnk 0).tfl.a % (sending 2).seqMod 0) % (sending 2).seqMod 0 ∧
    ((0x1000000 - ((sending 2).credit 0 6).limit).toNat < 2 ^ 31 ∧ (0x1000000 - ((sending 2).credit 0 6).cons).toNat ≤ 2 ^ 24) ∧
    2 ^ 31 ≤ ((0x80000000 : Word) - ((sending 2).credit 0 6).limit).toNat ∧
    (0 < (sending 2).unacked 0 ∧ ((sending 2).lnk 0).tfl.stall + (sending 2).replayTmo 0 ≤ (sending 2).tick ∧ ((sending 2).lnk 0).tfl.tries < 4) ∧
    (0 < (resent 4).unacked 0 ∧ ((resent 4).lnk 0).tfl.stall + (resent 4).replayTmo 0 ≤ (resent 4).tick ∧ 4 ≤ ((resent 4).lnk 0).tfl.tries ∧
      (resent 4).sparing 0 = false ∧ ((resent 4).lnk 0).recov + 1 < max 1 ((resent 4).getF (Fld.portLpRelCtlRecovMax 0))) ∧
    State.reset.inL0 0 = false := by decide +kernel

/-- A fabric port in L0 whose lane 7 is under an exchange in the pairs given. -/
def sparing (rx tx : Nat) (x : Link) : State :=
  trained [(Fld.portLpCtlRole 0, 2), (Fld.portLpRelCtlSpareEn 0, 1), ((spareFds 0 7).1.1, rx), ((spareFds 0 7).1.2, 7), ((spareFds 0 7).2.1, tx), ((spareFds 0 7).2.2, 7)]
    { x with width := 8 }

/-- The halves of a split port, both in L0 with sparing; the upper half woke its receive or its transmit pair in this tick. -/
def halves (rx tx : Nat) : State :=
  { st [(Fld.portCfgMode 0, 1), (Fld.portLpCtlRole 0, 2), (Fld.portLpCtlRole 1, 2), (Fld.portLpStatLtssm 0, 3), (Fld.portLpStatLtssm 1, 3),
        (Fld.portLpStatDllUp 0, 1), (Fld.portLpStatDllUp 1, 1), (Fld.portLpRelCtlSpareEn 0, 1), ((spareFds 1 3).1.1, rx), ((spareFds 1 3).2.1, tx)] with
    link := { State.reset.link with links := [(0, { width := 4 }), (1, { width := 4, rxAt := some 0, txAt := some 0 })] } }

/-- LanesAreSpared: the failing lane with its spare in standby, or aborted before; the lower half of a split port, to which the upper one yields; no
sparing, with a narrower width within MIN_WIDTH, and with none; the T-side's steps; a comparison under way after one failure and after two, on a fabric
port and on a standard one; a standard partner; and what does nothing: a lane outside the width, a port out of L0 and a pair at rest. -/
theorem witness_sparing :
    ((sparing 3 0 {}).getF (Fld.portLpStatLtssm 0) = 3 ∧ 7 < ((sparing 3 0 {}).lnk 0).width ∧ (sparing 3 0 {}).sparePartner 0 = true ∧
      (sparing 3 0 {}).getF (Fld.portLpRelCtlSpareEn 0) = 1 ∧ (sparing 3 0 {}).spareFree 0 (fun l => (spareFds l 7).1.1) = true) ∧
    ((halves 1 0).getF (Fld.portLpStatLtssm 0) = 3 ∧ 3 < ((halves 1 0).lnk 0).width ∧ (halves 1 0).getF (Fld.portLpRelCtlSpareEn 0) = 1 ∧
      (halves 1 0).sparePartner 0 = true ∧ inStandby ((halves 1 0).getF (spareFds 0 3).1.1) = true ∧
      (halves 1 0).yields 0 (fun l => (spareFds l 3).1.1) Link.rxAt = true) ∧
    (let s := trained [(Fld.portLpCtlRole 0, 2), (Fld.portLpTrainMinWidth 0, 4), (Fld.portLpRelCtlSpareEn 0, 0)] { width := 8 }
     s.inL0 0 = true ∧ 7 < (s.lnk 0).width ∧ s.pairOn (spareFds 0 7).1 7 = false ∧ s.getF (Fld.portLpRelCtlSpareEn 0) ≠ 1 ∧
     s.minWidth 0 ≤ narrower (s.lnk 0).width ∧ (s.lnk 0).recov + 1 < max 1 (s.getF (Fld.portLpRelCtlRecovMax 0)) ∧
     narrower 8 < (s.setF (Fld.portLpTrainMinWidth 0) 8).minWidth 0) ∧
    ((sparing 0 3 {}).spareRuns 0 = true ∧ (sparing 0 3 {}).spareFree 0 (fun l => (spareFds l 7).2.1) = true) ∧
    ((halves 0 1).spareRuns 0 = true ∧ (halves 0 1).spareFree 0 (fun l => (spareFds l 3).2.1) = false ∧
      inStandby ((halves 0 1).getF (spareFds 0 3).2.1) = true ∧ (halves 0 1).yields 0 (fun l => (spareFds l 3).2.1) Link.txAt = true ∧
      (halves 0 1).yields 1 (fun l => (spareFds l 3).2.1) Link.txAt = false) ∧
    ((sparing 0 1 {}).pairOn (spareFds 0 7).2 7 = true ∧ (sparing 0 1 {}).pairOn (spareFds 0 7).1 7 = false ∧
      (sparing 0 1 {}).dllUp 0 = true ∧ (sparing 0 1 {}).spareRuns 0 = true) ∧
    ((sparing 1 0 {}).pairOn (spareFds 0 7).1 7 = true ∧ (sparing 1 0 {}).pairOn (spareFds 0 7).2 7 = false ∧ (sparing 1 0 {}).spareRuns 0 = true) ∧
    (∀ n ∈ [1, 2], (((sparing 1 0 { cmp := some 7, fails := [(7, n)] }).lnk 0).cmp = some 7 ∧ (sparing 1 0 { cmp := some 7, fails := [(7, n)] }).role 0 = 2 ∧
      Tbl.get (fun _ => 0) ((sparing 1 0 { cmp := some 7, fails := [(7, n)] }).lnk 0).fails 7 = n)) ∧
    (let s := (sparing 1 0 { cmp := some 7, partner := true }).setF (Fld.portLpCtlRole 0) 1
     s.spareRuns 0 = true ∧ s.pairOn (spareFds 0 7).1 7 = true ∧ (s.lnk 0).cmp = some 7 ∧ s.role 0 ≠ 2 ∧
     (s.lnk 0).recov + 1 < max 1 (s.getF (Fld.portLpRelCtlRecovMax 0))) ∧
    ((trained [] {}).inL0 0 = true ∧ (trained [] {}).role 0 ≠ 2) ∧
    (State.reset.inL0 0 = false ∧ (State.reset.lnk 0).width ≤ 15 ∧ State.reset.spareRuns 0 = false ∧ State.reset.dllUp 0 = false ∧
      (State.reset.lnk 0).cmp ≠ some 7) := by decide +kernel

/-! ### Witnesses: trust -/

/-- A signed command in SECURITY.CMD of a PROVISIONED device. -/
def cmd (code arg : Nat) (l : List (Fd × Nat)) : State :=
  st ([(Fld.globalLifecycleState, 2), (Fld.securityCmdStatBusy, 1), (Fd.whole (Reg.securityCmd 0), code), (Fd.whole (Reg.securityCmd 1), arg)] ++ l)

/-- Keys 4 (class 1) and 8 (class 2) in use. -/
def keys48 : List (Fd × Nat) := [(Fd.whole Reg.securityKeyregUsed, 0x110)]

/-- SignedCommandsTakeEffectOnce: a command with a reserved byte set; none that runs, and one with another code. -/
theorem witness_signed_refused : (∀ k, k < 7 → 1 ≤ k → (cmd k 0 [(Fd.whole (Reg.securityCmd 0x20), 0x100)]).getF Fld.securityCmdStatBusy = 1 ∧
      (cmd k 0 [(Fd.whole (Reg.securityCmd 0x20), 0x100)]).cmdCode = k ∧ (cmd k 0 [(Fd.whole (Reg.securityCmd 0x20), 0x100)]).cmdResult ≠ 0) ∧
    State.reset.getF Fld.securityCmdStatBusy ≠ 1 ∧ (cmd 1 0 []).cmdCode ≠ 6 := by decide +kernel

/-- The same, accepted: the device's identity and what the signature checks say are opaque (logs 5 and 8). -/
theorem witness_signed_accepted (hu : Config.uid 0 = 0) (h2 : (cmd 2 1 keys48).cmdSigOk = true) (h3 : (cmd 3 0 keys48).cmdSigOk = true)
    (h4 : (cmd 4 0 [(Fld.faultStatFatal, 1)]).cmdSigOk = true) (h5 : (cmd 5 0 []).cmdSigOk = true) :
    (cmd 1 0 []).cmdResult = 0 ∧ (cmd 2 1 keys48).cmdResult = 0 ∧ (cmd 3 0 keys48).cmdResult = 0 ∧
    ((cmd 4 0 [(Fld.faultStatFatal, 1)]).cmdResult = 0 ∧ (cmd 4 0 [(Fld.faultStatFatal, 1)]).getF Fld.faultStatFatal = 1 ∧
      ({ cmd 4 0 [(Fld.faultStatFatal, 1)] with mz := { closed := true } } : State).mz.closed = true) ∧
    (cmd 5 0 []).cmdResult = 0 ∧ (cmd 6 0 []).cmdResult = 0 := by
  unfold State.cmdResult
  rw [hu, h2, h3, h4, h5]
  decide +kernel

/-- A DEPLOYED device with a debug master open. -/
def debugging : State := st [(Fld.globalLifecycleState, 3), (Fld.securityDbgStatOpen, 1)]

/-- DebugJtagAndLinkKeys: zeroisation; a debug master closed, and open at the first locked address and at the last before it; a
stream of a host port, one with its key set programmed, one Secure in the other set, and one without keys. -/
theorem witness_debug :
    (({ State.reset with sec := { State.reset.sec with zeroDue := true } } : State).sec.zeroDue = true ∧ State.reset.lpExists 62 = true) ∧
    (st [(Fld.globalLifecycleState, 3)]).debugOpen = false ∧
    (debugging.debugOpen = true ∧ debugging.debugLocked 0x1F00000 = true ∧ debugging.debugLocked 0x1EFFFFC = false) ∧
    (State.reset.lpExists 62 = true ∧ State.reset.role 62 ≠ 2) ∧
    (({ st [(Fld.securityIdeStatState 62, 1)] with link := { State.reset.link with ide := [(62, { set0 := true, set1 := true })] } } : State).ide 62).has true = true ∧
    ((st [(Fld.securityIdeStatState 62, 1)]).getF (Fld.securityIdeStatKset 62) ≠ bit true ∧
      (st [(Fld.securityIdeStatState 62, 1)]).getF (Fld.securityIdeStatKset 62) = bit false ∧ (st [(Fld.securityIdeStatState 62, 1)]).getF (Fld.securityIdeStatState 62) = 1) ∧
    (State.reset.getF (Fld.securityIdeStatState 62) ≠ 1 ∧ (State.reset.ide 62).has true = false) := by decide +kernel

/-- The PF0 of LP0 (its host's link up) with function 63 of it assigned, and a secured session 5 on its DOE endpoint. -/
def talking : State := { host with sec := { host.sec with sessions := [{ sid := 5, ep := 2, open_ := true }] } }

/-- SpdmRequestsAreAnswered: endpoints that do not exist, and that do; the last chunk that the 16,384 bytes admit. -/
theorem witness_spdm : State.reset.epThere (.doeSteward 1) = false ∧ State.reset.epThere (.doePf0 0) = false ∧ State.reset.epThere .mctp = true ∧
    host.epThere (.doePf0 0) = true ∧ (st [(Fld.stewardEpCfgPresent 1, 1)]).epThere (.doeSteward 1) = true ∧
    (State.reset.chunk .mctp).length = 0 ∧ 0 + 16384 ≤ 16384 := by decide +kernel

/-- SessionsKeysAndInterfaces: a session to open, with 255 open; none free; one known, unknown, and secured; a slot to regenerate, in use, and not in
ERASING; a TDI of the session's port, one of another, one not assigned; and a pair that may be injected. -/
theorem witness_sessions :
    (host.epThere (.doePf0 0) = true ∧ host.hasChain 0 = true ∧ (st [(Fld.globalLifecycleState, 2)]).hasIdentity = true ∧
      (List.replicate 255 ({ sid := 0, ep := 2 } : Session)).length < 256) ∧ 256 ≤ (List.replicate 256 ({ sid := 0, ep := 2 } : Session)).length ∧
    talking.session (.doePf0 0) 5 = some { sid := 5, ep := 2, open_ := true } ∧ talking.session (.doePf0 0) 255 = none ∧ talking.secured (.doePf0 0) 5 = true ∧
    (({ State.reset with sec := { State.reset.sec with kslots := [(4095, ⟨3, 0, 0⟩)] } } : State).kslot 4095).state = 3 ∧ State.reset.slotInUse 4095 = false ∧
    (withMsgs State.reset [mg .bid .memRd .program]).slotInUse 0 = true ∧ (State.reset.kslot 4095).state ≠ 3 ∧
    (talking.onPort (.doePf0 0) 5 63 = true ∧ talking.assigned 63 = true) ∧ talking.onPort (.doePf0 0) 5 64 = false ∧ talking.assigned 62 = false := by decide +kernel

/-- The same: every condition of R312 together, and with the two halves of the pair alike none of it. -/
theorem witness_inject :
    let s := { talking.setFs [(Fld.globalLifecycleState, 3), (Fld.plotFnW0Plot 63, 9), (Fld.securityTdiStatState 63, 1), (Fld.plotPlotW0Live 9, 1)] with
      sec := { talking.sec with kslots := [(9, ⟨1, 0, 0⟩)] } }
    s.mayInject (.doePf0 0) 5 63 1 = true ∧ s.mayInject (.doePf0 0) 5 63 0 = false := by decide +kernel

/-! ### Witnesses: the meter -/

/-- A ready meter whose first interval of 65,536 furlongs has just run, with a queued event of the tick before. -/
def metered : State :=
  { atTick State.reset (256 * 65536) with mz := { ready := true, par := { len := 65536 }, queue := [(16777215, .extent 0 1 none (some 1))], rest := [0, 0] } }

/-- The same meter, otherwise. -/
def metering (f : Meter → Meter) : State := { metered with mz := f metered.mz }

/-- MeterCountsClosesAndStreams: an event that can be applied; an overflow's rebuild, with the meter at work, stopped, or cut off; an interval that has
just run, one a tick before its end, a meter in FAULT and a closed one; no meter; bytes to stream. -/
theorem witness_meter :
    State.reset.mz.queue = [] ∧ State.reset.mz.working = false ∧
    (metered.mz.queue = (16777215, .extent 0 1 none (some 1)) :: [] ∧ metered.mz.working = true ∧ metered.mz.idle.getLast? = none) ∧
    (let s := metering (fun m => { m with ovf := some 16777215 })
     s.mz.ovf = some 16777215 ∧ 16777215 < s.tick ∧ s.phase = 0 ∧ s.mz.stopped = none ∧ s.mz.down = none ∧ s.mz.memBad = false ∧ s.mz.keyGone = false) ∧
    (metering (fun m => { m with ovf := some 16777215, stopped := some (5, 1) })).mz.stopped ≠ none ∧
    (metering (fun m => { m with ovf := some 16777215, down := some 5 })).mz.down ≠ none ∧
    (metered.mz.ready = true ∧ metered.mz.fault = false ∧ metered.mz.closed = false ∧ metered.mz.start + 256 * metered.mz.par.len ≤ metered.tick) ∧
    (let s := { metered with tick := 256 * 65536 - 1 }
     s.mz.ready = true ∧ s.tick < s.mz.start + 256 * s.mz.par.len) ∧
    (metering (fun m => { m with fault := true })).mz.fault = true ∧ (metering (fun m => { m with closed := true })).mz.closed = true ∧
    State.reset.mz.ready = false ∧
    (metered.mz.down = none ∧ 1 < metered.mz.rest.length ∧ 1 ≤ 65536 - (metered.rd Reg.stewardMzOutWr - metered.rd Reg.stewardMzOutRd).toNat) := by decide +kernel

/-- The same: the event's kind and the intervals that have ended. -/
theorem witness_meter_event : (∀ p live, (MEvent.extent 0 1 none (some 1)) ≠ .plot p live) ∧ (∀ i ∈ (metered.mz.roll metered.tick).idle, 16777215 < i.stop) := by
  refine ⟨fun _ _ h => (by cases h), ?_⟩
  decide +kernel

/-- A ready meter with a command in the inbox, slot 0 holding a live key and slot 1 another. -/
def mcmd (code a b : Nat) : State :=
  { st [(Fld.stewardMzInboxCtlBusy, 1), (Fd.whole (Reg.stewardMzInbox 0), code), (Fd.whole (Reg.stewardMzInbox 1), a), (Fd.whole (Reg.stewardMzInbox 2), b)] with
    mz := { ready := true, ring := [(0, [])], par := { keys := [(0, ⟨true, false, []⟩), (1, ⟨true, false, []⟩)] } } }

/-- MeterCommandsTakeEffectOnce: a row with its command busy, and with none, or another; a reserved bit set refuses. -/
theorem witness_meter_commands : (∀ k ∈ [1, 2, 3, 4, 5, 6, 0x10], (mcmd k 0 0).getF Fld.stewardMzInboxCtlBusy = 1 ∧ (mcmd k 0 0).mz.working = true ∧ mArg (mcmd k 0 0).inbox 0 = k) ∧
    State.reset.getF Fld.stewardMzInboxCtlBusy ≠ 1 ∧ mArg (mcmd 1 0 0).inbox 0 ≠ 2 ∧
    ((mcmd 1 0 1).mz.roll (mcmd 1 0 1).tick).verdict (mcmd 1 0 1).inbox = 4 := by decide +kernel

/-- The meter with an interval that is over ended. -/
def rolled (s : State) : Meter := s.mz.roll s.tick

/-- The same, accepted, at the bounds of the arguments: the MZ12's identity and what the signature check says are opaque (logs 5 and 8). -/
theorem witness_meter_accepted (hu : Config.uid 1 = 0) (hv : ∀ k m g, Config.ecdsaVerify k m g = true) :
    (rolled (mcmd 1 3 0)).verdict (mcmd 1 3 0).inbox = 0 ∧ (rolled (mcmd 2 1 0)).verdict (mcmd 2 1 0).inbox = 0 ∧
    (rolled (mcmd 3 0x3FFF 1)).verdict (mcmd 3 0x3FFF 1).inbox = 0 ∧ (rolled (mcmd 4 0xFFF 0x80000FFF)).verdict (mcmd 4 0xFFF 0x80000FFF).inbox = 0 ∧
    (rolled (mcmd 5 65536 0)).verdict (mcmd 5 65536 0).inbox = 0 ∧ (rolled (mcmd 6 0 0)).verdict (mcmd 6 0 0).inbox = 0 ∧
    (rolled (mcmd 0x10 0 0)).verdict (mcmd 0x10 0 0).inbox = 0 := by
  unfold Meter.verdict
  simp only [hu, hv]
  decide +kernel

/-- MeterFollowsItsSurroundings: a ready meter with no stop and one that is not ready; one stopped, at a furlong boundary, with the link up and lost; a
lost link of a meter at work, of a stopped one and of one not ready; a stopped clock; start-up step 3 with its 25,000,000 AON cycles past and at one
before, with the report made, and others. -/
theorem witness_meter_surroundings :
    (metered.mz.ready = true ∧ metered.mz.stopped = none) ∧ State.reset.mz.ready = false ∧
    (let s := metering (fun m => { m with stopped := some (5, 1), late := [(8, 0, 4)] })
     s.mz.ready = true ∧ s.mz.stopped = some (5, 1) ∧ s.phase = 0 ∧ s.mz.down = none ∧ s.mz.memBad = false ∧ s.mz.keyGone = false) ∧
    (let s := metering (fun m => { m with stopped := some (5, 1), down := some 6 })
     s.mz.stopped = some (5, 1) ∧ s.phase = 0 ∧ s.mz.down = some 6) ∧
    (let s := metering (fun m => { m with stopped := some (5, 1) })
     ({ s with tick := s.tick + 1 } : State).phase ≠ 0) ∧
    (metered.mz.down = none ∧ metered.mz.rtcBad = false ∧ metered.mz.memBad = false ∧ metered.mz.keyGone = false) ∧
    (let s := metering (fun m => { m with down := some 5, rtcBad := true, late := [(8, 0, 4)] })
     s.mz.down = some 5 ∧ s.mz.rtcBad = true ∧ s.mz.ready = true ∧ s.mz.stopped = none ∧ s.mz.memBad = false ∧ s.mz.keyGone = false) ∧
    (let s := metering (fun m => { m with ready := false, down := some 5 })
     s.mz.ready = false ∧ s.mz.down = some 5) ∧
    (let s (n : Nat) : State := atTick (st [(Fld.cprStartStep, 3), (Fd.whole (Reg.cprStepDoneLo 1), 1)]) n
     (s 25000001).getF Fld.cprStartStep = 3 ∧ (s 25000001).getF Fld.cprStartHalt = 0 ∧ (s 25000001).cpr.late = false ∧
     (s 25000001).aonPast ((s 25000001).get64 (Reg.cprStepDoneLo 1) (Reg.cprStepDoneHi 1)) 25000000 = true ∧
     (s 25000000).aonPast ((s 25000000).get64 (Reg.cprStepDoneLo 1) (Reg.cprStepDoneHi 1)) 25000000 = false) ∧
    State.reset.getF Fld.cprStartStep ≠ 3 ∧ ({ State.reset with cpr := { State.reset.cpr with late := true } } : State).cpr.late = true := by decide +kernel

/-! ### Witnesses: the store, firmware and faults -/

/-- A flash command under way. -/
def flashing (op a : Nat) : State := { State.reset with cfg := { State.reset.cfg with job := some (op, a) } }

/-- Copy B valid and preferred, the address in it, or the last address of copy A. -/
def prefB (a : Nat) : State := st [(Fld.cfgstoreStatValidB, 1), (Fd.whole Reg.cfgstoreFlashAddr, a)]

/-- A switch whose restart came at tick 7, and its second. -/
def switching (n : Nat) : State :=
  { atTick (st [(Fld.stewardFwStatSwitching, 1)]) n with stw := { State.reset.stw with fwOpen := true, swAt := 7 } }

/-- StoreChecksFlashAndFirmware, clause by clause. -/
theorem witness_store :
    State.reset.storeBusy = false ∧ (flashing 0 0).storeBusy = true ∧ (flashing 2 0).storeBusy = true ∧
    (({ State.reset with cfg := { State.reset.cfg with check := some true } } : State).cfg.check = some true ∧ State.reset.cfg.boot = [] ∧ State.reset.cfg.check = none) ∧
    (∀ op ∈ [1, 2], decide (0x2000000 ≤ (prefB 0x1FFFFFF).flashAddr op) = false ∧ (prefB 0x1FFFFFF).prefNow ≠ 1 + bit false ∧ (prefB 0x1FFFFFF).storeBusy = false) ∧
    (∀ op ∈ [1, 2], decide (0x2000000 ≤ (prefB 0x2000000).flashAddr op) = true ∧ (prefB 0x2000000).prefNow = 1 + bit true) ∧
    ((flashing 0 0x3FFFF00).cfg.job = some (0, 0x3FFFF00) ∧ (flashing 1 0x3FFFF00).cfg.job = some (1, 0x3FFFF00) ∧ (flashing 2 0x3FF0000).cfg.job = some (2, 0x3FF0000)) ∧
    (State.reset.fwBusy = false ∧ (st [(Fld.stewardFwStatValidA, 1), (Fld.stewardFwStatValidB, 1)]).getF (fwValidFd (st [(Fld.stewardFwStatValidA, 1), (Fld.stewardFwStatValidB, 1)]).fwOther) = 1 ∧
      (st [(Fld.stewardFwStatValidA, 0), (Fld.stewardFwStatValidB, 0)]).getF (fwValidFd (st [(Fld.stewardFwStatValidA, 0), (Fld.stewardFwStatValidB, 0)]).fwOther) = 0) ∧
    ((st [(Fld.cprStartStep, 5)]).getF Fld.cprStartStep = 5 ∧ (st [(Fld.cprStartStep, 5)]).getF Fld.cprStartHalt = 0) ∧
    ((st [(Fld.stewardFwStatSwitching, 1)]).getF Fld.stewardFwStatSwitching = 1 ∧ (switching 0).stw.fwOpen = true ∧ (switching 0).applying = false ∧
      (switching 250000007).getF Fld.stewardFwStatSwitching = 1 ∧ (switching 250000007).aonPast (switching 250000007).stw.swAt 250000000 = true ∧
      (switching 250000006).aonPast (switching 250000006).stw.swAt 250000000 = false ∧
      State.reset.getF Fld.stewardFwStatSwitching = 0 ∧ State.reset.stw.fwOpen = false) ∧
    (6 ≤ (st [(Fld.cprStartStep, 6)]).getF Fld.cprStartStep ∧ (st [(Fld.cprStartStep, 6)]).getF Fld.stewardFwStatSwitching = 0 ∧
      (atTick State.reset State.reset.wdogTicks).aonPast State.reset.stw.kick State.reset.wdogTicks = true) ∧
    (atTick State.reset (State.reset.wdogTicks - 1)).aonPast State.reset.stw.kick State.reset.wdogTicks = false := by decide +kernel

/-- The same: a copy whose directory lists nothing. -/
theorem witness_store_section :
    let s := { st [(Fld.cprStartStep, 5)] with cfg := { State.reset.cfg with flash := [(0x14, 0), (0x15, 0), (0x16, 0), (0x17, 0)] } }
    s.sectionBytes (decide (s.getF Fld.cfgstoreStatBootSel = 2)) 2 = none := by decide +kernel

/-- FaultRegistersAndSafeState: 2,500 ticks and one less after the tick after a FATAL event; injection off and on, at the last source; no FATAL event due, one due from the tick before. -/
theorem witness_faults :
    (atTick State.reset 2501).aonPast (State.reset.get64 Reg.faultFatalTickLo Reg.faultFatalTickHi + 1) 2500 = true ∧
    (atTick State.reset 2500).aonPast (State.reset.get64 Reg.faultFatalTickLo Reg.faultFatalTickHi + 1) 2500 = false ∧
    State.reset.injEnabled = false ∧ (st [(Fld.globalLifecycleState, 1)]).injEnabled = true ∧
    (fieldGet 0x4016 14 1 = 1 ∧ 0 < fieldGet 0x4016 0 8 ∧ fieldGet 0x4016 0 8 ≤ 0x16) ∧ State.reset.flt.fatalDue = none ∧
    ((st [(Fld.faultStatFatal, 1)]).getF Fld.faultStatFatal = 1) ∧
    (({ atTick State.reset 9 with flt := { State.reset.flt with fatalDue := some (8, 0x0A) } } : State).flt.fatalDue = some (8, 0x0A) ∧ 8 < (atTick State.reset 9).tick ∧
      State.reset.getF Fld.faultStatFatal = 0 ∧ State.reset.mz.ready = false ∧ State.reset.dp.msgs = [] ∧ State.reset.dp.trackers = [] ∧ State.reset.dp.trapQ = []) := by decide +kernel

/-! ### Witnesses: rings and endpoints -/

/-- Instance 1 served, on LP0, with ring 15 running at sixteen entries, one of them in its queue, and start-up complete. -/
def ringed (e : Ep) (l : List (Fd × Nat)) : State :=
  let s := st ([(Fld.cprStartStep, 7), (Fld.stewardEpCfgPresent 1, 1), (Fld.stewardEpCfgBme 1, 1), (Fld.stewardRingCfgEn 1 15, 1),
    (Fld.stewardRingCfgSqLog2 1 15, 4), (Fld.stewardRingCfgCqLog2 1 15, 4)] ++ l)
  s.setEp 1 { e with tails := [(15, 1)] }

/-- RingsFetchApplyAndReturn: doorbells out of range, to a ring that does not run, and at the last entry; RING_CFG's writes. -/
theorem witness_doorbells :
    ((ringed {} []).epPresent 1 = true ∧ (ringed {} []).getF (Fld.stewardEpCfgDstate 1) ≠ 3) ∧ (ringed {} []).ringOn 1 0 = false ∧
    (ringed {} []).sqSize 1 15 ≤ (16 : Word).toNat ∧ (ringed {} []).cqSize 1 15 ≤ (16 : Word).toNat ∧
    ((ringed {} []).ringOn 1 15 = true ∧ (15 : Word).toNat < (ringed {} []).sqSize 1 15 ∧ (15 : Word).toNat < (ringed {} []).cqSize 1 15 ∧
      ((ringed {} []).ep 1).inta = false ∧ ((ringed {} []).ep 1).cmd = none) ∧
    (ringed {} [(Fld.cprStartStep, 5)]).stewardUp = false ∧ (ringed { cmd := some (.entry 15) } []).epActive 1 = true ∧ (ringed {} []).epPresent 0 = false ∧
    (fieldGet 0x100 8 1 = 1 ∧ fieldGet 0xFF 8 1 = 0) := by decide +kernel

/-- A submission entry without an interrupt. -/
def sqe (inLen outLen : BitVec 32) : SqEntry := ⟨true, 1, 0xFF00, inLen, outLen, 0⟩

/-- The same: an entry whose input is one read up to a 256-byte bound, with 63 reads outstanding; an entry without input; a firmware switch that runs; an
output past 65,536 bytes. -/
theorem witness_ring_entry :
    (ringOf (.fwLoad 1 15 (sqe 256 0) []) = some (1, 15) ∧ ((ringed { cmd := some (.entry 15), reads := List.replicate 63 (0, 0, 0) } []).ep 1).cmd = some (.entry 15) ∧
      (ringed { cmd := some (.entry 15), reads := List.replicate 63 (0, 0, 0) } []).epServed 1 = true ∧ 0 < (sqe 256 0).inLen.toNat ∧
      (sqe 256 0).inLen.toNat + (sqe 256 0).inAddr.toNat % 256 ≤ 256 ∧
      ((ringed { cmd := some (.entry 15), reads := List.replicate 63 (0, 0, 0) } []).ep 1).reads.length < 64) ∧
    ((ringed {} [(Fld.portLpStatDllUp 0, 1)]).dllUp ((ringed {} []).epLp 1) = true ∧ (ringed {} []).dllUp ((ringed {} []).epLp 1) = false) ∧
    ((ringed {} []).ep 1).cmd ≠ some (.entry 15) ∧
    (((ringed { cmd := some (.entry 15) } []).ep 1).d3Due = false ∧ (ringed { cmd := some (.entry 15) } []).stewardUp = true ∧ (sqe 0 65536).noInt = true ∧
      (sqe 0 65536).inLen = 0 ∧ (sqe 0 65536).outLen.toNat ≤ 65536 ∧ State.reset.outboxBytes.length ≤ (sqe 0 0).outLen.toNat ∧ 65536 < (sqe 0 65537).outLen.toNat ∧
      (ringed {} []).mayApply (.fwLoad 1 15 (sqe 0 65537) []) = true) ∧
    (ringed {} [(Fld.stewardFwStatSwitching, 1)]).fwBusy = true ∧ ({ State.reset with stw := { State.reset.stw with bg := some (0x5201, 99, 0) } } : State).fwBusy = true := by
  decide +kernel

/-- The same: no other ring runs, and the queue holds the one entry. -/
theorem witness_alone (e : Ep) : AloneOn (ringed e []) 1 15 := by
  have h : ∀ a, a < 2 → ∀ b, b < 16 → (a, b) ≠ (1, 15) → (ringed {} []).getF (Fld.stewardRingCfgEn a b) = 0 := by decide +kernel
  have k : (ringed {} []).sqSize 1 15 = 16 := by decide +kernel
  have j : (ringed {} []).getF (Fld.stewardRingStatSqHead 1 15) = 0 := by decide +kernel
  refine ⟨fun a b ha hb => h a ha b hb, ?_⟩
  show ((ringed {} []).getF (Fld.stewardRingStatSqHead 1 15) + 1) % (ringed {} []).sqSize 1 15 = Tbl.get (fun _ => 0) ((ringed e []).ep 1).tails 15
  rw [k, j]
  have : (ringed e []).ep 1 = { e with tails := [(15, 1)] } := Tbl.get_set_same _ _ _ _
  rw [this]
  rfl

/-- The same: completions that find no entry, one of another generation, one with Bus Master Enable 0, one that its command does not wait for, and a
failed one of a command's last read; a read at its timeout, and a tick before. -/
theorem witness_completions :
    (∀ x ∈ ((ringed {} []).ep 1).reads, x.1 ≠ 4) ∧ ((ringed { reads := [(4, 9, 0)] } []).ep 1).reads.find? (fun x => decide (x.1 = 4)) = some (4, 9, 0) ∧
    (let s (n : Nat) := atTick (ringed { reads := [(4, 9, 7)] } []) n
     (s (7 + (s 0).epTmo 1)).aonPast 7 ((s 0).epTmo 1) = true ∧ (s (6 + (s 0).epTmo 1)).aonPast 7 ((s 0).epTmo 1) = false) ∧
    9 ≠ (ringed {} []).getF (Fld.stewardEpCfgGen 1) ∧ (0 = (ringed {} []).getF (Fld.stewardEpCfgGen 1) ∧ (ringed {} [(Fld.stewardEpCfgBme 1, 0)]).getF (Fld.stewardEpCfgBme 1) = 0) ∧
    (ringed { reads := [(4, 0, 0)] } []).waitsFor 1 4 = false ∧
    (((ringed { reads := [(4, 0, 0)], cmd := some (.input 15 (.fwLoad 1 15 (sqe 256 0) []) [4] []) } []).ep 1).reads = [(4, 0, 0)] ∧
      ((ringed { reads := [(4, 0, 0)], cmd := some (.input 15 (.fwLoad 1 15 (sqe 256 0) []) [4] []) } []).ep 1).cmd = some (.input 15 (.fwLoad 1 15 (sqe 256 0) []) [4] [])) := by
  decide +kernel

/-- RingInputsAreApplied: a length out of range; and each row whose input stands. -/
theorem witness_inputs :
    rangeBad (.regWrite 1 15 (sqe 65537 0) []) = true ∧
    (let c := Instr.regWrite 1 15 (sqe 8 0) [(0x100000, 5)]
     rangeBad c = false ∧ (ringed {} []).mayApply c = true ∧ 0x100000 % 4 = 0 ∧ (ringed {} []).regAbsent 0x100000 = false ∧ (regRow 0x100000).isSome = true) ∧
    (let c := Instr.regRead 1 15 (sqe 4 4) [0x100000]
     rangeBad c = false ∧ latched 0x100000 = false ∧ 4 ≤ (sqe 4 4).outLen.toNat) ∧
    (let c := Instr.progLoad 1 15 (sqe 0 0) 0x80000000 15 []
     rangeBad c = false ∧ maskEngines 0x80000000 = [31] ∧ (ringed {} []).shape 31 < 2 ∧ (ringed {} []).getF (Fld.coulterLoadStatBusy 31) = 0) ∧
    rangeBad (.fwLoad 1 15 (sqe 4 65536) (List.replicate 4 0)) = false ∧ (ringed {} []).mayApply (.mzCmd 1 15 (sqe 240 0) (List.replicate 240 0)) = true ∧
    rangeBad (.mzCmd 1 15 (sqe 240 0) (List.replicate 240 0)) = false ∧ (ringed {} []).mz.working = false ∧
    rangeBad (.cfgWrite 1 15 (sqe 1 0) 1 [0]) = false ∧ (ringed {} []).storeBusy = false ∧ (ringed {} [(Fld.cfgstoreStatValidB, 1)]).prefNow = 1 + bit true ∧
    (ringed {} []).prefNow ≠ 1 + bit true ∧ (ringed {} [(Fld.stewardFwStatValidA, 1), (Fld.stewardFwStatValidB, 1)]).fwBusy = false := by decide +kernel

/-- EndpointPowerInterruptsAndPackets: an instance not present; a command to abandon, and one in APPLY; sources 0, 21 and 22; a wake event in D3hot with the
link in L0; PM_PME in L0 and outside it, 512 ms after the last and a tick before; a mechanism that stays and one that changes; a vector held back. -/
theorem witness_endpoint :
    (State.reset.epPresent 1 = false ∧ (ringed {} []).epPresent 1 = true) ∧
    ((ringed { cmd := some (.wait 15 (.fwLoad 1 15 (sqe 0 0) [])) } []).ep 1).cmd.map (·.applying) = some true ∧
    ((ringed {} [(Fld.stewardEpCfgBme 1, 0)]).mayInterrupt 1 = false ∧ Nat.testBit ((ringed {} []).getF (Fld.stewardWakeMaskMask 1)) 21 = false) ∧
    (let s := ringed { mech := .msix, umask := [(63, true)] } [(Fld.stewardIntMapEn 1 21, 1), (Fld.stewardIntMapVector 1 21, 63)]
     s.mayInterrupt 1 = true ∧ s.srcEnabled 1 21 = true ∧ (s.ep 1).mech = .msix ∧ Tbl.get (fun _ => false) (s.ep 1).umask (s.getF (Fld.stewardIntMapVector 1 21)) = true) ∧
    (let s := ringed { pmeEn := true, pmeStat := true } [(Fld.stewardEpCfgDstate 1, 3), (Fld.stewardWakeMaskMask 1, 0x200000), (Fld.portLpStatDllUp 0, 1), (Fld.portLpStatLtssm 0, 3)]
     s.mayInterrupt 1 = false ∧ Nat.testBit (s.getF (Fld.stewardWakeMaskMask 1)) 21 = true ∧ s.srcPending 1 21 = false ∧ (s.ep 1).pmeEn = true ∧ (s.ep 1).pmeStat = true ∧
     s.getF (Fld.stewardEpCfgDstate 1) = 3 ∧ s.dllUp (s.epLp 1) = true ∧ s.inL0 (s.epLp 1) = true ∧
     (atTick s 128000000).aonPast (s.ep 1).pmeAt 128000000 = true ∧ (atTick s 127999999).aonPast (s.ep 1).pmeAt 128000000 = false) ∧ (ringed {} []).inL0 ((ringed {} []).epLp 1) = false ∧
    (((ringed {} []).ep 1).mech = .intx ∧ ((ringed {} []).ep 1).mech ≠ .msix) ∧
    (let s := ringed { mech := .msix, vpend := [(63, true)] } [(Fld.stewardIntMapEn 1 21, 1), (Fld.stewardIntMapVector 1 21, 63), (Fld.stewardIntStatEvt 1, 0x20)]
     Tbl.get (fun _ => false) (s.ep 1).vpend 63 = true ∧ s.mayInterrupt 1 = true ∧ s.srcEnabled 1 21 = true ∧ s.srcPending 1 21 = true ∧
     s.getF (Fld.stewardIntMapVector 1 21) = 63) := by decide +kernel

/-- The same: packets from a tenant's port, on the sideband, and on the endpoint's port, with the buffer full to its last byte and past it. -/
theorem witness_mctp :
    (host.isRole 0 0 = true ∧ host.instOf 0 = none) ∧
    (0x100000 % 4 = 0 ∧ State.reset.regAbsent 0x100000 = false ∧ latched 0x100000 = false ∧ latchWords 0x100000 = []) ∧
    ((ringed {} []).stewardUp = true ∧ (ringed {} []).stw.mctp = []) ∧ ((ringed {} []).instOf 0).isSome = true ∧
    (State.reset.mctpBytes + 16384 ≤ 16384 ∧ 16384 < State.reset.mctpBytes + 16385 ∧ State.reset.stewardUp = false) := by decide +kernel

/-! ### Witnesses: the FM API -/

/-- The steward runs, LP0 upstream, LP62 downstream with its link up; vPPB 2 of LP0 bound to LP62 as `bound` says; function 63 assigned with two extents
at the table's end; a plot commit pending as `busy` says. -/
def fm (bound busy : Nat) : State :=
  st [(Fld.cprStartStep, 7), (Fld.portLpCtlRole 62, 1), (Fld.portLpStatDllUp 62, 1), (Fld.plotVppbValid 0 0, bound), (Fld.plotVppbLp 0 0, 62),
      (Fld.plotFnW0Assign 63, 1), (Fld.plotFnW2XtBase 63, 131070), (Fld.plotFnW3XtCnt 63, 2), (Fld.plotCommitStatPending, busy)]

/-- FmApiCommandsAreAnswered: the steward down and up, and in a firmware switch with an FMAPI command in APPLY, and with none; a limit at its bounds and past them; a device behind a port with its link up, and none; a port that
exists and one that does not; a switch and none. -/
theorem witness_fm_api : (isFm .identify = true ∧ State.reset.stewardUp = false ∧ State.reset.stewardApplies = false) ∧
    (let s := ringed { cmd := some (.fm 15 (sqe 0 65536)) } [(Fld.stewardFwStatSwitching, 1)]
     s.stewardUp = false ∧ s.stewardApplies = true ∧ s.fmInst = some 1) ∧
    (let s := ringed { cmd := some (.wait 15 (.fwLoad 1 15 (sqe 0 0) [])) } [(Fld.stewardFwStatSwitching, 1)]
     s.stewardApplies = true ∧ s.fmInst = none) ∧ ((fm 0 0).stewardUp = true ∧ (fm 0 0).fmInst = none) ∧
    ((fm 0 0).isRole 0 0 = true ∧ (fm 0 0).isRole 62 0 = false) ∧ (8 ≤ (8 : BitVec 8).toNat ∧ (14 : BitVec 8).toNat ≤ 14 ∧ (7 : BitVec 8).toNat < 8 ∧ 14 < (15 : BitVec 8).toNat) ∧
    ((fm 0 0).isRole 62 1 = true ∧ (fm 0 0).dllUp 62 = true ∧ (fm 0 0).isRole 0 1 = false) ∧
    ((fm 0 0).lpExists 63 = false ∧ (fm 0 0).role 0 = 0 ∧ (fm 0 0).lpExists 62 = true ∧ (fm 0 0).role 62 ≠ 0 ∧ (fm 0 0).instOf 62 = none) := by decide +kernel

/-- The same: an FMAPI command of ring 15 in APPLY, its queue's last entry, with room for the bare answer. -/
theorem witness_fm_ring (h : (fmBody 0x0100 []).length ≤ 65534) :
    let s := ringed { cmd := some (.fm 15 (sqe 0 65536)) } [(Fld.stewardRingStatSqHead 1 15, 1)]
    s.stewardUp = true ∧ s.fmInst = some 1 ∧ (s.ep 1).cmd = some (.fm 15 (sqe 0 65536)) ∧ (s.ep 1).d3Due = false ∧ s.epServed 1 = true ∧
    s.getF (Fld.stewardRingStatSqHead 1 15) = s.sqTail 1 15 ∧ 2 + (fmBody 0x0100 []).length ≤ (sqe 0 65536).outLen.toNat := by
  refine ⟨by decide +kernel, by decide +kernel, by decide +kernel, by decide +kernel, by decide +kernel, by decide +kernel, ?_⟩
  show 2 + _ ≤ 65536
  omega

/-- BindsAndCapacityGoThroughCommits: a vPPB bound and not, a command running, a commit pending; a function assigned and not; a region of the whole list,
one entry too long, and one that meets another; an entry in the list, and the first before it. -/
theorem witness_binds :
    ((fm 1 0).isRole 62 0 = false ∧ (bindingOf (fm 1 0).regs 0 2).isSome = true ∧ bindingOf (fm 0 0).regs 0 2 = none ∧ (fm 0 0).fwBusy = false ∧ (fm 0 1).plotLocked = true) ∧
    ({ fm 0 0 with stw := { State.reset.stw with bg := some (0x5201, 99, 0) } } : State).fwBusy = true ∧
    ((fm 0 0).getF (Fld.plotFnW0Assign 62) = 0 ∧ (fm 0 0).getF (Fld.plotFnW0Assign 63) = 1) ∧
    ((fm 0 0).fnExtents 63).2 < 0 + 3 ∧ (0 + 2 ≤ ((fm 0 0).fnExtents 63).2 ∧ (∀ j, j < 8 → j ≠ 7 → runsMeet ((fm 0 0).region 63 j).1 ((fm 0 0).region 63 j).2 0 2 = false)) ∧
    (∃ j, j < 8 ∧ j ≠ 7 ∧ runsMeet (({ fm 0 0 with fn := { State.reset.fn with regions := [(8 * 63, (1, 1))] } } : State).region 63 j).1
      (({ fm 0 0 with fn := { State.reset.fn with regions := [(8 * 63, (1, 1))] } } : State).region 63 j).2 0 2 = true) ∧
    ((fm 0 0).inList 63 131071 = true ∧ (fm 0 0).inList 63 131069 = false ∧ wbit 0x80000000 31 = true ∧ wbit 0x7FFFFFFF 31 = false) :=
  ⟨by decide +kernel, by decide +kernel, by decide +kernel, by decide +kernel, by decide +kernel, ⟨0, by decide +kernel⟩, by decide +kernel⟩

/-! ### Witnesses: clocks, supplies, sensors and registers -/

/-- Twelve valid sensors at 40 degrees but one. -/
def sample (n : Nat) (d : Int) : List Sensor := ⟨true, d⟩ :: List.replicate (n - 1) ⟨true, 40⟩ ++ List.replicate (16 - n) ⟨false, 0⟩

/-- ClocksSuppliesAndSensors: a clock in range and out of it; the meter's and the main clock's loss; the core locked and not; a rail that never tripped, one that did 1 ms before, and a tick less;
eleven and twelve valid sensors, at the largest gradient, and at 115 degrees. -/
theorem witness_clocks :
    ((st [(clkFd 17, 1)]).getF (clkFd 17) = 1 ∧ ({ State.reset with mz := { down := some 0 } } : State).mz.down ≠ none) ∧
    (State.reset.getF (clkFd 15) = 0 ∧ Tbl.get (fun _ => none) State.reset.cpr.fell 15 = none ∧ (∀ p, p < 64 → State.reset.inL0 p = false)) ∧
    ((st [(clkFd 16, 1)]).getF (clkFd 16) = 1 ∧ (st [(clkFd 16, 1)]).getF Fld.cprClkStatAonBackup = 0) ∧
    (State.reset.getF Fld.cprClkStatCoreLock = 0 ∧ (st [(Fld.cprClkStatCoreLock, 1)]).getF Fld.cprClkStatCoreLock = 1) ∧
    (let s (n : Nat) : State := { atTick State.reset n with cpr := { State.reset.cpr with trips := [(5, some 7)] } }
     Tbl.get (fun _ => none) State.reset.cpr.trips 5 = none ∧ Tbl.get (fun _ => none) (s 8).cpr.trips 5 = some 7 ∧
     (s 250007).aonPast 7 250000 = true ∧ (s 250006).aonPast 7 250000 = false) ∧
    (validReadings (sample 11 40)).length < 12 ∧ ((st [(Fld.cprAvsCtlEn, 0)]).getF Fld.cprAvsCtlEn = 0 ∧ (st [(Fld.cprAvsCtlEn, 0)]).getF Fld.cprAvsCtlManual = 0) ∧
    (12 ≤ (validReadings (sample 12 65)).length ∧ hottest (validReadings (sample 12 65)) = some (0, 65) ∧ coolest (validReadings (sample 12 65)) = some 40 ∧ (65 : Int) - 40 ≤ 25 ∧
      (st [(Fld.cprAvsCtlEn, 1)]).getF Fld.cprAvsCtlEn = 1) ∧
    (hottest (validReadings (List.replicate 16 ⟨true, 115⟩)) = some (0, 115) ∧ (115 : Int) ≤ 115 ∧ State.reset.cpr.hot = false) := by decide +kernel

/-- ResetsAndRegisterWrites: a reset under way and not, in a lifecycle state that starts; an address of no register, a register with access codes alone at the
first address of each range; an instance not present, in D3hot, and present with a misaligned address; no debug master. -/
theorem witness_registers :
    (State.reset.inReset = true ∧ State.reset.lifecycle ≠ 4 ∧ (st [(Fld.cprStartStep, 2)]).inReset = false) ∧ (2 % 4 ≠ 0 ∧ State.reset.regAbsent 0xFFFFFC = true) ∧
    (State.reset.regAbsent 0x100000 = false ∧ (regRow 0x100000).isSome = true) ∧ (State.reset.regAbsent 0x1A00000 = false ∧ (regRow 0x1A00000).isSome = true) ∧
    (State.reset.epPresent 0 = false ∧ (st [(Fld.stewardEpCfgDstate 0, 3)]).getF (Fld.stewardEpCfgDstate 0) = 3) ∧
    ((ringed {} []).epPresent 1 = true ∧ (ringed {} []).getF (Fld.stewardEpCfgDstate 1) ≠ 3) ∧ (st [(Fld.globalLifecycleState, 3)]).debugOpen = false := by decide +kernel

end Sys2Proof.Tests
end

section
/-! SUPPORT. What each command does to TICK: a device reset, its release, and every other command. -/

open Sys2Proof Sys2Proof.Machine

namespace Sys2Proof.Machine

/-- A device reset starts from the state as after power-on, so TICK is 0 whichever cause it has (R14, R422). -/
@[simp] theorem State.deviceReset_tick (s : State) (por held : Bool) : (s.deviceReset por held).tick = 0 := by
  unfold State.deviceReset
  rw [State.setFs_tick]
  rfl

/-- The release that ends a reset under way (R424). -/
theorem exec_deviceResetRelease_of_inReset {s : State} (ok : Bool) (h : s.inReset = true) :
    exec (.deviceResetRelease ok) s =
      .next { ({ s with tick := 0 } : State).resetRelease ok with pending := s.pending, tick := 0 } :=
  if_pos h

/-- Outside a reset its release is no event (log 3). -/
theorem exec_deviceResetRelease_of_not_inReset {s : State} (ok : Bool) (h : s.inReset = false) :
    exec (.deviceResetRelease ok) s = .next s :=
  if_neg (by simp [h])

/-- Every command but TICK and the device reset's own three completes through `act`, which puts the queue and TICK back after the
command's effect (R14). -/
theorem completes_pending_tick_kept (c : Instr) (s : State) (htick : c ≠ .tick) (hreset : isReset c = false) :
    Completes c s (fun t => t.pending = s.pending ∧ t.tick = s.tick) := by
  cases c with
  | tick => exact absurd rfl htick
  | pwrgoodLow => exact Bool.noConfusion hreset
  | sysRstNAssert => exact Bool.noConfusion hreset
  | deviceResetRelease => exact Bool.noConfusion hreset
  | _ => exact ⟨_, rfl, rfl, rfl⟩

/-- TICK is counted up by its own command (R13, R14). -/
theorem completes_tick_succ (s : State) : Completes .tick s (fun t => t.tick = s.tick + 1) := ⟨_, rfl, rfl⟩

/-- Both causes of a device reset set TICK to 0 (R14, R422). -/
theorem completes_deviceReset_tick_zero (s : State) (held : Bool) :
    Completes (.pwrgoodLow held) s (fun t => t.tick = 0) ∧ Completes (.sysRstNAssert held) s (fun t => t.tick = 0) :=
  ⟨⟨_, rfl, s.deviceReset_tick true held⟩, ⟨_, rfl, s.deviceReset_tick false held⟩⟩

/-- Settles O2: TICK and the device reset's own commands say what they leave in TICK, and a release outside a reset is no event; every
other command puts TICK back. -/
theorem tickFollowsTimeAndResetAlone : Obligations.TickFollowsTimeAndResetAlone := by
  unfold Obligations.TickFollowsTimeAndResetAlone
  refine ⟨completes_tick_succ, completes_deviceReset_tick_zero,
    fun s ok h => ⟨_, exec_deviceResetRelease_of_inReset ok h, rfl⟩, fun c s htick hhold hrel => ?_⟩
  cases hreset : isReset c with
  | false =>
    obtain ⟨t, hexec, -, hkept⟩ := completes_pending_tick_kept c s htick hreset
    exact ⟨t, hexec, hkept⟩
  | true =>
    cases c with
    | pwrgoodLow held => exact absurd rfl (hhold held).1
    | sysRstNAssert held => exact absurd rfl (hhold held).2
    | deviceResetRelease ok => exact ⟨s, exec_deviceResetRelease_of_not_inReset ok (hrel ok rfl), rfl⟩
    | _ => exact Bool.noConfusion hreset

end Sys2Proof.Machine
end

section
/-! SUPPORT. Link downs in turn and zeroisation (R291), a debug master's access (R313, R315), the JTAG instructions (R314), and the keys of
link IDE (R304). -/

open Sys2Proof Sys2Proof.Machine

namespace Sys2Proof.Machine

/-! ### Link downs, one port after another -/

/-- A link down of a link that is not up shows the link's rest state, and does no more. -/
theorem State.linkDown_of_down (s : State) (lp : Nat) (hdown : s.dllUp lp = false) :
    s.linkDown lp = s.setF (Fld.portLpStatLtssm lp) (s.restState lp) :=
  if_pos (by simp [hdown])

/-- A link down, of a link that is up or not, keeps the PORT registers apart from the port's own status, events, drop counts and spare
lanes. -/
theorem State.linkDown_getF_of_addr_ne (s : State) (lp : Nat) (hlp : lp < 64) (g : Fd) (hport : PortReg g.addr)
    (hstat : g.addr ≠ Reg.portLpStat lp) (hevt : g.addr ≠ Reg.portLpEvt lp) (hspare : g.addr ≠ Reg.portLpSpare lp) :
    (s.linkDown lp).getF g = s.getF g := by
  have hdrop : g.addr ≠ Reg.portLpDropStat lp := hport.2.2.1 lp hlp
  cases hup : s.dllUp lp with
  | true =>
    refine (s.linkDown_spec lp hlp hup).2.2.1 g hport hspare (fun x hx hmeet => ?_)
    simp only [downFields, List.mem_cons, List.not_mem_nil, or_false] at hx
    rcases hx with rfl | rfl | rfl | rfl | rfl | rfl
    · exact hstat hmeet.1.symm
    · exact hstat hmeet.1.symm
    · exact hstat hmeet.1.symm
    · exact hstat hmeet.1.symm
    · exact hevt hmeet.1.symm
    · exact hdrop hmeet.1.symm
  | false =>
    rw [s.linkDown_of_down lp hup]
    exact State.getF_setF_ne _ _ _ _ (.inl hstat)

/-- The link that goes down is not up. -/
theorem State.linkDown_dllUp_self (s : State) (lp : Nat) (hlp : lp < 64) : (s.linkDown lp).dllUp lp = false := by
  cases hup : s.dllUp lp with
  | true =>
    have hzero := (s.linkDown_spec lp hlp hup).1 (Fld.portLpStatDllUp lp, 0) (by simp [downFields])
    simp [State.dllUp, hzero]
  | false =>
    have hkept : (s.setF (Fld.portLpStatLtssm lp) (s.restState lp)).getF (Fld.portLpStatDllUp lp) = s.getF (Fld.portLpStatDllUp lp) :=
      State.getF_setF_ne _ _ _ _ (by simp [Fld.portLpStatLtssm, Fld.portLpStatDllUp])
    rw [s.linkDown_of_down lp hup]
    simpa [State.dllUp, hkept] using hup

/-- Every other link stays up or down. -/
theorem State.linkDown_dllUp_ne (s : State) (lp l : Nat) (hlp : lp < 64) (hl : l < 64) (hne : l ≠ lp) :
    (s.linkDown lp).dllUp l = s.dllUp l := by
  have hkept : (s.linkDown lp).getF (Fld.portLpStatDllUp l) = s.getF (Fld.portLpStatDllUp l) := by
    apply s.linkDown_getF_of_addr_ne lp hlp _ (portReg_stat l hl) <;>
      simp only [Fld.portLpStatDllUp, Reg.portLpStat, Reg.portLpEvt, Reg.portLpSpare] <;> omega
  unfold State.dllUp
  rw [hkept]

/-- A link down takes no logical port away. -/
theorem State.linkDown_lpExists (s : State) (lp l : Nat) (hlp : lp < 64) (hl : l < 64) :
    (s.linkDown lp).lpExists l = s.lpExists l := by
  have hkept : (s.linkDown lp).shape (l / 2) = s.shape (l / 2) := by
    apply s.linkDown_getF_of_addr_ne lp hlp (Fld.portCfgMode (l / 2)) (portReg_cfg (l / 2) (by omega)) <;>
      simp only [Fld.portCfgMode, Reg.portCfg, Reg.portLpStat, Reg.portLpEvt, Reg.portLpSpare] <;> omega
  unfold State.lpExists
  rw [hkept]

/-- The links of the logical ports of a list go down, where the ports exist, one after another. -/
def State.linksDown (s : State) (ls : List Nat) : State :=
  ls.foldl (fun s l => if s.lpExists l then s.linkDown l else s) s

/-- After the links of a list went down, a link is up that was up before and is not of an existing port of the list. -/
theorem State.linksDown_dllUp (ls : List Nat) (hls : ∀ l ∈ ls, l < 64) (s : State) (l : Nat) (hl : l < 64) :
    (s.linksDown ls).dllUp l = (s.dllUp l && !(decide (l ∈ ls) && s.lpExists l)) := by
  induction ls generalizing s with
  | nil => simp [State.linksDown]
  | cons a ls ih =>
    obtain ⟨ha, hrest⟩ := List.forall_mem_cons.mp hls
    change ((if s.lpExists a then s.linkDown a else s).linksDown ls).dllUp l = _
    rw [ih hrest]
    by_cases hex : s.lpExists a = true
    · rw [if_pos hex, s.linkDown_lpExists a l ha hl]
      by_cases hla : l = a
      · subst hla
        simp [s.linkDown_dllUp_self l ha, hex]
      · simp [s.linkDown_dllUp_ne a l ha hl hla, hla]
    · rw [if_neg hex]
      by_cases hla : l = a
      · subst hla
        simp [hex]
      · simp [hla]

/-! ### Zeroisation (R291) -/

/-- The IDE streams of the ports of a list show as not set up, with key set 0 (R319). -/
def State.streamsUnset (s : State) (ls : List Nat) : State :=
  ls.foldl (fun s l => s.setFs [(Fld.securityIdeStatState l, 0), (Fld.securityIdeStatKset l, 0)]) s

/-- The streams' registers are no PORT registers. -/
theorem State.streamsUnset_ports (s : State) (ls : List Nat) : PortKeep s (s.streamsUnset ls) := by
  refine PortKeep.foldl ls _ (fun s l _ => ?_) s
  have haddr : 0x600000 ≤ Reg.securityIdeStat l := by simp only [Reg.securityIdeStat]; omega
  exact (PortKeep.setF s (Fld.securityIdeStatState l) 0 (.inr haddr)).trans
    (PortKeep.setF _ (Fld.securityIdeStatKset l) 0 (.inr haddr))

/-- The link keys, key slots and sessions are gone, the identity secret is blown, and the registers show it. -/
def State.secretsGone (s : State) : State :=
  ({ s with
    link := { s.link with ide := [] },
    sec := { s.sec with kslots := [], sessions := [], chunks := [], last := [], zeroDue := false, gone := true } } : State).setFs
    [(Fld.securitySpdmStatSessions, 0), (Fld.securityDbgStatZeroised, 1)]

/-- What goes with the secrets leaves the PORT registers. -/
theorem State.secretsGone_ports (s : State) : PortKeep s s.secretsGone := by
  have hcount : 0x600000 ≤ Fld.securitySpdmStatSessions.addr := by decide
  have hshown : 0x600000 ≤ Fld.securityDbgStatZeroised.addr := by decide
  unfold State.secretsGone
  rw [setFs2]
  refine PortKeep.trans (PortKeep.trans ?_ (PortKeep.setF _ _ 0 (.inr hcount))) (PortKeep.setF _ _ 1 (.inr hshown))
  exact PortKeep.of_regs rfl rfl

/-- What is gone, and what shows. -/
theorem State.secretsGone_spec (s : State) : s.secretsGone.sec.kslots = [] ∧ s.secretsGone.sec.sessions = [] ∧
    s.secretsGone.sec.gone = true ∧ s.secretsGone.sec.zeroDue = false ∧ s.secretsGone.link.ide = [] ∧
    s.secretsGone.getF Fld.securityDbgStatZeroised = 1 ∧ s.secretsGone.getF Fld.securitySpdmStatSessions = 0 := by
  refine ⟨rfl, rfl, rfl, rfl, rfl, getF_fit _ _ _ (by decide) (by decide), ?_⟩
  exact (State.getF_setF_ne _ Fld.securityDbgStatZeroised Fld.securitySpdmStatSessions 1 (by decide)).trans
    (getF_fit _ _ _ (by decide) (by decide))

/-- Zeroisation's three parts: the links, the streams' registers, and the secrets held. -/
theorem State.zeroise_eq (s : State) :
    s.zeroise = ((s.linksDown (List.range 64)).streamsUnset (List.range 64)).secretsGone := by
  unfold State.zeroise State.linksDown State.streamsUnset State.secretsGone
  generalize List.range 64 = ls
  rfl

/-- After zeroisation the link of no port that existed is up. -/
theorem State.zeroise_dllUp (s : State) (l : Nat) (hl : l < 64) (hex : s.lpExists l = true) : s.zeroise.dllUp l = false := by
  have hdown : (s.linksDown (List.range 64)).dllUp l = false := by
    rw [State.linksDown_dllUp _ (fun _ => List.mem_range.mp) s l hl]
    simp [hl, hex]
  have hlate := ((s.linksDown (List.range 64)).streamsUnset_ports (List.range 64)).trans (State.secretsGone_ports _)
  rw [State.zeroise_eq]
  unfold State.dllUp at hdown ⊢
  rw [hlate.getF (Fld.portLpStatDllUp l) (portReg_stat l hl)]
  exact hdown

/-- A zeroisation that is due takes the links down, removes every key and session, and shows it. -/
theorem completes_zeroisationDone (s : State) (hdue : s.sec.zeroDue = true) :
    Completes .zeroisationDone s (fun t => (∀ l, l < 64 → s.lpExists l = true → t.dllUp l = false) ∧ t.sec.kslots = [] ∧
      t.sec.sessions = [] ∧ t.sec.gone = true ∧ t.sec.zeroDue = false ∧ t.link.ide = [] ∧
      t.getF Fld.securityDbgStatZeroised = 1 ∧ t.getF Fld.securitySpdmStatSessions = 0) := by
  have hspec := State.secretsGone_spec ((s.linksDown (List.range 64)).streamsUnset (List.range 64))
  have hdown := s.zeroise_dllUp
  rw [← State.zeroise_eq] at hspec
  generalize hz : s.zeroise = z at hdown hspec
  exact Completes.of_any z (f := fun s => s.when s.sec.zeroDue (·.zeroise)) rfl ((if_pos hdue).trans hz) ⟨hdown, hspec⟩

/-- Zeroisation ends only where it is due (log 3). -/
theorem exec_zeroisationDone_of_not_due (s : State) (hdue : s.sec.zeroDue = false) : exec .zeroisationDone s = .next s :=
  exec_of_act (f := fun s => s.when s.sec.zeroDue (·.zeroise)) s rfl (if_neg (by simp [hdue])) rfl rfl

/-! ### A debug master's access (R313, R315) -/

/-- A debug master that is not open reaches nothing. -/
theorem State.debugAccess_of_closed (s : State) (a : Nat) (wr : Option Word) (hopen : s.debugOpen = false) : s.debugAccess a wr = s :=
  if_pos (by simp [hopen])

/-- A locked address: the access is counted and recorded, and a read gives 0. -/
theorem State.debugAccess_of_locked (s : State) (a : Nat) (wr : Option Word) (hopen : s.debugOpen = true)
    (hlock : s.debugLocked a = true) :
    s.debugAccess a wr =
      let u := (s.bump Fld.securityDbgStatDeny).raise { src := 0x0B, tick := s.tick, addr := some (a, 3), d0 := bit wr.isSome }
      if wr.isSome then u else u.emit (.jtag 0) := by
  simp [State.debugAccess, hopen, hlock]

/-- An open debug master writes a register that is not locked as any source does. -/
theorem State.debugAccess_write (s : State) (a : Nat) (v : Word) (hopen : s.debugOpen = true) (hlock : s.debugLocked a = false) :
    s.debugAccess a (some v) = s.regWrite a v := by
  simp [State.debugAccess, hopen, hlock]

/-- An access to a locked address counts and is recorded; a read gives 0, and a write is lost. -/
theorem completes_debugMasterAccess_of_locked (s : State) (a : Nat) (wr : Option Word) (hopen : s.debugOpen = true)
    (hlock : s.debugLocked a = true) :
    Completes (.debugMasterAccess a wr) s (fun t =>
      t.out = (if wr.isSome then s.out else .jtag 0 :: s.out) ∧
      t.getF Fld.securityDbgStatDeny = min (s.getF Fld.securityDbgStatDeny + 1) 65535 ∧
      t.flt = { s.flt with tickEvents := s.flt.tickEvents ++ [{ src := 0x0B, tick := s.tick, addr := some (a, 3), d0 := bit wr.isSome }] } ∧
      OnlyFields s t [Fld.securityDbgStatDeny] ∧ t = { s with regs := t.regs, out := t.out, flt := t.flt }) := by
  have hdeny := State.getF_bump s Fld.securityDbgStatDeny (by decide)
  have honly : OnlyFields s (s.bump Fld.securityDbgStatDeny) [Fld.securityDbgStatDeny] :=
    (OnlyFields.refl s _).stepB _ (List.mem_singleton.mpr rfl)
  refine Completes.of_any _ (f := (·.debugAccess a wr)) rfl (s.debugAccess_of_locked a wr hopen hlock) ?_
  cases wr with
  | none => exact ⟨rfl, hdeny, rfl, honly, rfl⟩
  | some v => exact ⟨rfl, hdeny, rfl, honly, rfl⟩

/-! ### The JTAG instructions (R314) -/

/-- Where the pin tests are available: BLANK, MANUFACTURE and RETURNED, and PROVISIONED with debug unlocked. -/
theorem State.pinTest_iff (s : State) : s.pinTest = true ↔
    s.lifecycle = 0 ∨ s.lifecycle = 1 ∨ s.lifecycle = 4 ∨ s.lifecycle = 2 ∧ s.getF Fld.securityDbgStatOpen = 1 := by
  simp [State.pinTest, or_assoc]

/-- EXTEST, CLAMP and HIGHZ take effect where the pin tests are available, and act as BYPASS elsewhere. -/
theorem completes_pinInstruction (s : State) (c : Instr) (j : JtagOp)
    (hc : [(Instr.extest, JtagOp.extest), (.clamp, .clamp), (.highz, .highz)].contains (c, j) = true) :
    Completes c s (fun t => t = { s with sec := { s.sec with jtag := if s.pinTest then j else .bypass } }) := by
  simp only [List.contains_eq_mem, List.mem_cons, List.not_mem_nil, or_false, decide_eq_true_eq, Prod.mk.injEq] at hc
  rcases hc with ⟨rfl, rfl⟩ | ⟨rfl, rfl⟩ | ⟨rfl, rfl⟩
  · exact ⟨_, rfl, rfl⟩
  · exact ⟨_, rfl, rfl⟩
  · exact ⟨_, rfl, rfl⟩

/-! ### Link IDE keys (R304) -/

/-- A stream changed leaves the registers. -/
@[simp] theorem State.modIde_getF (s : State) (lp : Nat) (f : Ide → Ide) (g : Fd) : (s.modIde lp f).getF g = s.getF g := rfl

/-- A field write leaves the streams. -/
@[simp] theorem State.setF_ide (s : State) (f : Fd) (v lp : Nat) : (s.setF f v).ide lp = s.ide lp := rfl

/-- A set programmed is held, and the other set is as it was. -/
theorem Ide.has_program (i : Ide) (k : Bool) :
    (if k then { i with set1 := true } else { i with set0 := true } : Ide).has k = true ∧
    (if k then { i with set1 := true } else { i with set0 := true } : Ide).has (!k) = i.has (!k) := by
  cases k <;> exact ⟨rfl, rfl⟩

/-- Keys programmed on a standard port, whose role alone says which partner programs them. -/
theorem State.ideKeys_of_standard (s : State) (lp : Nat) (k : Bool) (hex : s.lpExists lp = true) (hrole : s.role lp ≠ 2) :
    s.ideKeys lp k = (s.setF (Fld.securityIdeStatReqRole lp) (if s.role lp = 1 then 1 else 0)).modIde lp
      (fun i => if k then { i with set1 := true } else { i with set0 := true }) := by
  simp [State.ideKeys, hex, hrole, bit]

/-- IDE_KM_KEY_PROG on a standard port: the role shows, and the set is held. -/
theorem completes_ideKmKeyProg (s : State) (lp : Lp) (k : Bool) (hex : s.lpExists lp.val = true) (hrole : s.role lp.val ≠ 2) :
    Completes (.ideKmKeyProg lp k) s (fun t => t.getF (Fld.securityIdeStatReqRole lp.val) = (if s.role lp.val = 1 then 1 else 0) ∧
      (t.ide lp.val).has k = true ∧ (t.ide lp.val).has (!k) = (s.ide lp.val).has (!k) ∧ (∀ m, m ≠ lp.val → t.ide m = s.ide m) ∧
      OnlyFields s t [Fld.securityIdeStatReqRole lp.val] ∧ t = { s with regs := t.regs, link := { s.link with ide := t.link.ide } }) := by
  obtain ⟨hheld, hother⟩ := (s.ide lp.val).has_program k
  refine Completes.of_eq (f := (·.ideKeys lp.val k)) _ rfl (s.ideKeys_of_standard lp.val k hex hrole) rfl rfl
    ⟨?_, ?_, ?_, fun m hm => ?_, OnlyFields.setF s _ _ _ (List.mem_singleton.mpr rfl), rfl⟩
  · rw [State.modIde_getF]
    exact getF_fit _ _ _ (by simp [Fld.securityIdeStatReqRole]) (by simp only [Fld.securityIdeStatReqRole]; split <;> decide)
  · rw [ide_mod, if_pos rfl, State.setF_ide]; exact hheld
  · rw [ide_mod, if_pos rfl, State.setF_ide]; exact hother
  · rw [ide_mod, if_neg hm, State.setF_ide]

/-- K_SET_GO to a set that is held and not in force. -/
theorem State.kSetGo_of_held (s : State) (lp : Nat) (k : Bool) (hheld : (s.ide lp).has k = true)
    (hnew : s.getF (Fld.securityIdeStatState lp) = 1 → s.getF (Fld.securityIdeStatKset lp) ≠ bit k) :
    s.kSetGo lp k = ((s.setF (Fld.securityIdeStatState lp) 1).setF (Fld.securityIdeStatKset lp) (bit k)).modIde lp
      (fun i => { i with contain := decide (s.getF (Fld.securityIdeCtlMode lp) = 1) }) := by
  have hforce : ¬(s.getF (Fld.securityIdeStatState lp) = 1 ∧ s.getF (Fld.securityIdeStatKset lp) = bit k) := fun h => hnew h.1 h.2
  simp [State.kSetGo, hforce, hheld, setFs2]

/-- K_SET_GO to the set in force, or without keys on a stream that is not Secure. -/
theorem State.kSetGo_of_idle (s : State) (lp : Nat) (k : Bool)
    (h : (s.getF (Fld.securityIdeStatState lp) = 1 ∧ s.getF (Fld.securityIdeStatKset lp) = bit k) ∨
      (s.getF (Fld.securityIdeStatState lp) ≠ 1 ∧ (s.ide lp).has k = false)) : s.kSetGo lp k = s := by
  rcases h with ⟨hsecure, hset⟩ | ⟨hinsecure, hkeys⟩
  · simp [State.kSetGo, hsecure, hset]
  · simp [State.kSetGo, hinsecure, hkeys]

/-- K_SET_GO to a new set that is held: the stream is Secure in it, in the mode of IDE_CTL. -/
theorem completes_kSetGo_of_held (s : State) (lp : Lp) (k : Bool) (hheld : (s.ide lp.val).has k = true)
    (hnew : s.getF (Fld.securityIdeStatState lp.val) = 1 → s.getF (Fld.securityIdeStatKset lp.val) ≠ bit k) :
    Completes (.kSetGo lp k) s (fun t => t.getF (Fld.securityIdeStatState lp.val) = 1 ∧ t.getF (Fld.securityIdeStatKset lp.val) = bit k ∧
      t.ide lp.val = { s.ide lp.val with contain := decide (s.getF (Fld.securityIdeCtlMode lp.val) = 1) } ∧
      (∀ m, m ≠ lp.val → t.ide m = s.ide m) ∧ OnlyFields s t [Fld.securityIdeStatState lp.val, Fld.securityIdeStatKset lp.val] ∧
      t = { s with regs := t.regs, link := { s.link with ide := t.link.ide } }) := by
  refine Completes.of_eq (f := (·.kSetGo lp.val k)) _ rfl (s.kSetGo_of_held lp.val k hheld hnew) rfl rfl
    ⟨?_, ?_, ?_, fun m hm => ?_, ?_, rfl⟩
  · rw [State.modIde_getF, State.getF_setF_ne _ _ _ _ (by simp [Fld.securityIdeStatState, Fld.securityIdeStatKset])]
    exact getF_fit _ _ _ (by simp [Fld.securityIdeStatState]) (by simp [Fld.securityIdeStatState])
  · rw [State.modIde_getF]
    exact getF_fit _ _ _ (by simp [Fld.securityIdeStatKset]) (by cases k <;> simp [Fld.securityIdeStatKset, bit])
  · simp only [ide_mod, if_true, State.setF_ide]
  · simp only [ide_mod, if_neg hm, State.setF_ide]
  · exact OnlyFields.of_regs (((OnlyFields.refl s _).stepF _ _ (by simp)).stepF _ _ (by simp)) rfl

/-- Settles O46: zeroisation, the debug master's outcomes, the JTAG instructions and the keys of link IDE, each by the lemma of its
command. -/
theorem debugJtagAndLinkKeys : Obligations.DebugJtagAndLinkKeys := by
  unfold Obligations.DebugJtagAndLinkKeys
  refine ⟨completes_zeroisationDone, exec_zeroisationDone_of_not_due, ?closed, completes_debugMasterAccess_of_locked, ?write,
    ?idcode, ?bypass, ?sample, fun s c j hc => ⟨completes_pinInstruction s c j hc, s.pinTest_iff⟩, completes_ideKmKeyProg,
    completes_kSetGo_of_held, ?idle⟩
  case closed =>
    intro s a wr hopen
    exact exec_of_act (f := (·.debugAccess a wr)) s rfl (s.debugAccess_of_closed a wr hopen) rfl rfl
  case write =>
    intro s a v hopen hlock
    exact Completes.of_any (f := (·.debugAccess a (some v))) _ rfl (s.debugAccess_write a v hopen hlock) rfl
  case idcode => exact fun s => ⟨_, rfl, rfl⟩
  case bypass => exact fun s => ⟨_, rfl, rfl⟩
  case sample => exact fun s => ⟨_, rfl, rfl⟩
  case idle =>
    intro s lp k h
    exact exec_of_act (f := (·.kSetGo lp.val k)) s rfl (s.kSetGo_of_idle lp.val k h) rfl rfl

end Sys2Proof.Machine
end

section
/-! SUPPORT. The steward endpoint's shared operations (R270, R374, R378): what an instance's sending leaves alone and what it shows outside,
its state after updates, and the steward's choice of the next entry. -/

open Sys2Proof Sys2Proof.Machine

namespace Sys2Proof.Machine

/-! ### What making messages leaves alone -/

/-- Nothing differs but the messages in the device, their numbers, and the free values drawn. -/
def MadeOnly (s t : State) : Prop :=
  t = { s with freeCtr := t.freeCtr, dp := { s.dp with msgs := t.dp.msgs, nextId := t.dp.nextId } }

theorem MadeOnly.refl (s : State) : MadeOnly s s := rfl

theorem MadeOnly.trans {s t u : State} (h : MadeOnly s t) (g : MadeOnly t u) : MadeOnly s u := by
  unfold MadeOnly at h g ⊢
  rw [g, h]

theorem MadeOnly.foldl {α : Type} (l : List α) (f : State → α → State) (h : ∀ s a, MadeOnly s (f s a)) (s : State) :
    MadeOnly s (l.foldl f s) := by
  induction l generalizing s with
  | nil => exact MadeOnly.refl s
  | cons a l ih => exact (h s a).trans (ih (f s a))

theorem MadeOnly.regs {s t : State} (h : MadeOnly s t) : t.regs = s.regs := by rw [h]
theorem MadeOnly.stw {s t : State} (h : MadeOnly s t) : t.stw = s.stw := by rw [h]
theorem MadeOnly.out {s t : State} (h : MadeOnly s t) : t.out = s.out := by rw [h]
theorem MadeOnly.trapQ {s t : State} (h : MadeOnly s t) : t.dp.trapQ = s.dp.trapQ := by rw [h]
theorem MadeOnly.rd {s t : State} (h : MadeOnly s t) (a : Nat) : t.rd a = s.rd a := by unfold State.rd; rw [h.regs]
theorem MadeOnly.getF {s t : State} (h : MadeOnly s t) (g : Fd) : t.getF g = s.getF g := getF_regs h.regs g
theorem MadeOnly.ep {s t : State} (h : MadeOnly s t) (k : Nat) : t.ep k = s.ep k := by unfold State.ep; rw [h.stw]

/-- An instance's request becomes a message, or nothing where the link is down. -/
theorem State.epSend_made (s : State) (i : Nat) (h : Hdr) : MadeOnly s (s.epSend i h) := by
  unfold State.epSend
  dsimp only
  split
  · exact MadeOnly.refl s
  · rfl

theorem State.sendMsg_made (s : State) (i : Nat) (e : OutEvent) (data : List Byte) : MadeOnly (s.emit e) (s.sendMsg i e data) :=
  State.epSend_made _ _ _

theorem State.sendMsi_made (s : State) (i v : Nat) : MadeOnly (s.emit (.msi i v)) (s.sendMsi i v) := State.epSend_made _ _ _

/-- One request of a DMA write, and the address after it (R39). -/
def dmaWriteChunk (i : Nat) (x : State × Nat) (c : List Byte) : State × Nat :=
  (x.1.epSend i (epHdr .ioMemWr x.2 c.length 0 c), x.2 + c.length)

theorem foldl_dmaWriteChunk_made (i : Nat) (l : List (List Byte)) (x : State × Nat) : MadeOnly x.1 (l.foldl (dmaWriteChunk i) x).1 := by
  induction l generalizing x with
  | nil => exact MadeOnly.refl x.1
  | cons c l ih => exact (x.1.epSend_made i _).trans (ih (dmaWriteChunk i x c))

/-- A DMA write shows outside once, whatever its requests. -/
theorem State.dmaWrite_made (s : State) (i addr : Nat) (body : List Byte) :
    MadeOnly (s.emit (.dmaWrite i addr body)) (s.dmaWrite i addr body) :=
  foldl_dmaWriteChunk_made i (chunksOf (body.length / 512) body) (s.emit (.dmaWrite i addr body), addr)

/-- An answer that the device makes (R245). -/
theorem State.reply_made (s : State) (cls : Cls) (req : Hdr) (data : List Byte) (p : Bool) (st : CplStatus) (g : Nat)
    (key : Option (Nat × Nat)) : MadeOnly s (s.reply cls req data p st g key) := by
  unfold State.reply
  split
  · rfl
  · exact MadeOnly.refl s

theorem State.replyData_made (s : State) (cls : Cls) (req : Hdr) (data : List Byte) (p : Bool) (g : Nat) (key : Option (Nat × Nat)) :
    MadeOnly s (s.replyData cls req data p g key) :=
  MadeOnly.foldl _ _ (fun s _ => s.reply_made _ _ _ _ _ _ _) s

theorem MadeOnly.ite {s t u : State} (p : Prop) [Decidable p] (h : MadeOnly s t) (g : MadeOnly s u) : MadeOnly s (if p then t else u) := by
  split
  · exact h
  · exact g

/-- Messages marked, after others were made. -/
theorem MadeOnly.map_msgs {s t : State} (h : MadeOnly s t) (f : Msg → Msg) :
    MadeOnly s { t with dp := { t.dp with msgs := t.dp.msgs.map f } } :=
  h.trans rfl

/-- The completion of a trapped request is an answer, with free values (R166). -/
theorem State.completeTrapped_made (s : State) (m : Msg) : MadeOnly s (s.completeTrapped m) := by
  have hdrawn : ∀ n t, MadeOnly ((s.draw 2).2.freeBytes n).2 t → MadeOnly s t := fun _ _ => MadeOnly.trans rfl
  unfold State.completeTrapped
  split
  · exact MadeOnly.refl s
  · refine MadeOnly.map_msgs (MadeOnly.ite _ ?_ ?_) _
    · exact hdrawn _ _ (State.replyData_made _ _ _ _ _ _ _)
    · exact hdrawn _ _ (State.reply_made _ _ _ _ _ _ _ _)

/-! ### An instance's state after updates -/

@[simp] theorem State.ep_setEp_same (s : State) (i : Nat) (e : Ep) : (s.setEp i e).ep i = e := Tbl.get_set_same _ _ _ _
theorem State.ep_setEp_ne (s : State) (i k : Nat) (e : Ep) (h : k ≠ i) : (s.setEp i e).ep k = s.ep k := Tbl.get_set_ne _ _ _ _ _ h
@[simp] theorem State.ep_setCmd_same (s : State) (i : Nat) (c : Option RingPhase) : (s.setCmd i c).ep i = { s.ep i with cmd := c } :=
  State.ep_setEp_same _ _ _
@[simp] theorem State.setF_ep (s : State) (f : Fd) (v k : Nat) : (s.setF f v).ep k = s.ep k := rfl
@[simp] theorem State.setFs_ep (s : State) (l : List (Fd × Nat)) (k : Nat) : (s.setFs l).ep k = s.ep k := by rw [State.setFs_eq]; rfl

/-! ### What is read off an instance's registers -/

/-- An instance's presence, Bus Master Enable and power state stand in EP_CFG. -/
theorem State.epServed_of_rd {s t : State} (i : Nat) (h : t.rd (Reg.stewardEpCfg i) = s.rd (Reg.stewardEpCfg i)) :
    t.epServed i = s.epServed i := by
  have hcfg : ∀ g : Fd, g.addr = Reg.stewardEpCfg i → t.getF g = s.getF g := fun g hg => getF_addr g (by rw [hg]; exact h)
  unfold State.epServed State.epPresent
  rw [hcfg (Fld.stewardEpCfgPresent i) rfl, hcfg (Fld.stewardEpCfgBme i) rfl, hcfg (Fld.stewardEpCfgDstate i) rfl]

/-- Without Bus Master Enable an instance is not served (R381). -/
theorem State.epServed_of_bme_zero {s : State} {i : Nat} (h : s.getF (Fld.stewardEpCfgBme i) = 0) : s.epServed i = false := by
  simp [State.epServed, h]

/-- Without Bus Master Enable an instance sends no interrupt (R378). -/
theorem State.mayInterrupt_of_bme_zero {s : State} {i : Nat} (h : s.getF (Fld.stewardEpCfgBme i) = 0) : s.mayInterrupt i = false := by
  simp [State.mayInterrupt, h]

/-- A served instance is present and has Bus Master Enable 1. -/
theorem State.present_bme_of_served {s : State} {i : Nat} (h : s.epServed i = true) :
    s.epPresent i = true ∧ s.getF (Fld.stewardEpCfgBme i) = 1 := by
  simp only [State.epServed, Bool.and_eq_true, decide_eq_true_eq] at h
  exact ⟨h.1, h.2.1⟩

/-- A running ring pair belongs to an instance that is present. -/
theorem State.epPresent_of_ringOn {s : State} {i r : Nat} (h : s.ringOn i r = true) : s.epPresent i = true := by
  simp only [State.ringOn, Bool.and_eq_true] at h
  exact h.1

/-! ### Interrupts with nothing to send -/

/-- Where no interrupt may be sent, nothing is signalled. -/
theorem State.signal_of_mayInterrupt_false (s : State) (i src : Nat) (h : s.mayInterrupt i = false) : s.signal i src = s :=
  if_neg (by simp [h])

/-- The same of every source. -/
theorem State.signalAll_of_mayInterrupt_false (s : State) (i : Nat) (h : s.mayInterrupt i = false) : s.signalAll i = s :=
  foldl_id _ _ _ (fun src _ => s.signal_of_mayInterrupt_false i src h)

/-- INTA that is not asserted stays so. -/
theorem State.intaUpdate_of_not_asserted (s : State) (i : Nat) (h : (s.ep i).inta = false) : s.intaUpdate i = s :=
  if_neg (by simp [h])

/-! ### The next entry (R374, R375) -/

/-- While the steward does not run, nothing is fetched. -/
theorem State.serve_of_down (s : State) (h : s.stewardUp = false) : s.serve = s := if_pos (by simp [h])

/-- While a command is under way, nothing is fetched. -/
theorem State.serve_of_active (s : State) (i : Inst) (h : s.epActive i = true) : s.serve = s := by
  refine if_pos ?_
  match i, h with
  | 0, h => simp [show s.epActive 0 = true from h]
  | 1, h => simp [show s.epActive 1 = true from h]

/-- Where no ring has an entry to fetch, nothing is fetched. -/
theorem State.serve_of_none_waiting (s : State) (h : ∀ a b, a < 2 → b < 16 → s.sqWaiting a b = false) : s.serve = s := by
  have hnone : ((List.range 32).map (fun k => (s.stw.last + 1 + k) % 32)).find? (fun k => s.sqWaiting (k / 16) (k % 16)) = none := by
    refine List.find?_eq_none.mpr (fun k hk => ?_)
    have hlt : k < 32 := by
      obtain ⟨j, -, rfl⟩ := List.mem_map.mp hk
      omega
    simp [h (k / 16) (k % 16) (by omega) (by omega)]
  unfold State.serve
  rw [hnone]
  exact ite_self s

/-- Instance `i` with one more DMA read outstanding, which is numbered next (R379). -/
def State.readIssued (s : State) (i addr len : Nat) : State :=
  (s.setEp i { s.ep i with reads := (s.ep i).reads ++ [(s.dp.nextId, s.getF (Fld.stewardEpCfgGen i), s.tick)] }).emit
    (.dmaRead i addr len s.dp.nextId)

/-- A DMA read issued: one entry more among the instance's reads, and its request on the way. -/
theorem State.dmaRead_made (s : State) (i addr len : Nat) : MadeOnly (s.readIssued i addr len) (s.dmaRead i addr len).1 :=
  MadeOnly.trans (t := { s.readIssued i addr len with dp := { s.dp with nextId := s.dp.nextId + 1 } }) rfl (State.epSend_made _ _ _)

/-- Serving the next entry writes no register, and leaves an instance that is not served as it was. -/
theorem State.serve_keeps (s : State) :
    s.serve.regs = s.regs ∧ ∀ i, s.epServed i = false → s.serve.ep i = s.ep i := by
  unfold State.serve
  split
  · exact ⟨rfl, fun _ _ => rfl⟩
  · split
    · exact ⟨rfl, fun _ _ => rfl⟩
    · rename_i k hk
      have hwait := List.find?_some hk
      have hmade := s.dmaRead_made (k / 16)
        (s.get64 (Reg.stewardRingSqBaseLo (k / 16) (k % 16)) (Reg.stewardRingSqBaseHi (k / 16) (k % 16)) / 4096 * 4096 +
          64 * s.getF (Fld.stewardRingStatSqHead (k / 16) (k % 16))) 64
      refine ⟨hmade.regs, fun i hi => ?_⟩
      have hne : i ≠ k / 16 := by
        rintro rfl
        simp [State.sqWaiting, hi] at hwait
      exact (State.ep_setEp_ne _ _ _ _ hne).trans ((hmade.ep i).trans (State.ep_setEp_ne _ _ _ _ hne))

end Sys2Proof.Machine
end

section
/-! SUPPORT. RETURN of a ring's command (R373, R375, R376): its output, its completion entry, what it consumes, and that the only ring that
runs is then empty. -/

open Sys2Proof Sys2Proof.Machine

namespace Sys2Proof.Machine

/-! ### Registers of the rings -/

/-- A ring's size is at most the 4096 entries that its indices can name (R394). -/
theorem ringSize_le (n : Nat) : ringSize n ≤ 2 ^ 12 := Nat.pow_le_pow_right (by decide) (by omega)

theorem ringSize_pos (n : Nat) : 0 < ringSize n := Nat.two_pow_pos _

theorem ringCfg_ne_ringStat (a b i r : Nat) : Reg.stewardRingCfg a b ≠ Reg.stewardRingStat i r := by
  simp only [Reg.stewardRingCfg, Reg.stewardRingStat]; omega

/-- A queue's size is read off RING_CFG. -/
theorem State.cqSize_of_rd {s t : State} (i r : Nat) (h : t.rd (Reg.stewardRingCfg i r) = s.rd (Reg.stewardRingCfg i r)) :
    t.cqSize i r = s.cqSize i r := congrArg ringSize (getF_addr (Fld.stewardRingCfgCqLog2 i r) h)

theorem State.sqSize_of_rd {s t : State} (i r : Nat) (h : t.rd (Reg.stewardRingCfg i r) = s.rd (Reg.stewardRingCfg i r)) :
    t.sqSize i r = s.sqSize i r := congrArg ringSize (getF_addr (Fld.stewardRingCfgSqLog2 i r) h)

/-- A 64-bit value is read off its two registers. -/
theorem State.get64_of_rd {s t : State} (a b : Nat) (ha : t.rd a = s.rd a) (hb : t.rd b = s.rd b) : t.get64 a b = s.get64 a b := by
  unfold State.get64; rw [ha, hb]

/-! ### RETURN (R373, R375) -/

/-- Where the next completion entry of a ring goes in host memory. -/
def State.cqAddr (s : State) (i r : Nat) : Nat :=
  s.get64 (Reg.stewardRingCqBaseLo i r) (Reg.stewardRingCqBaseHi i r) / 4096 * 4096 + 16 * s.getF (Fld.stewardRingStatCqTail i r)

/-- The completion entry of a command. -/
def State.cqEntry (s : State) (i r : Nat) (e : SqEntry) (status result len : Nat) : List Byte :=
  leBytes 2 e.cid.toNat ++ leBytes 2 status ++ leBytes 2 (s.getF (Fld.stewardRingStatSqHead i r)) ++
    leBytes 2 (s.getF (Fld.stewardRingStatPhase i r)) ++ leBytes 4 result ++ leBytes 4 len

/-- The completion queue's tail after one more entry. -/
def State.cqTailNext (s : State) (i r : Nat) : Nat :=
  if s.cqSize i r ≤ s.getF (Fld.stewardRingStatCqTail i r) + 1 then 0 else s.getF (Fld.stewardRingStatCqTail i r) + 1

/-- PHASE after one more entry: it inverts where the tail wraps. -/
def State.phaseNext (s : State) (i r : Nat) : Nat :=
  if s.cqSize i r ≤ s.getF (Fld.stewardRingStatCqTail i r) + 1 then 1 - s.getF (Fld.stewardRingStatPhase i r)
  else s.getF (Fld.stewardRingStatPhase i r)

/-- The completion entry is written and the completion queue moves on; the ring's SQ_HEAD, every other register, the instances and the
trap queue stay. -/
structure CqWritten (s t : State) (i r : Nat) (e : SqEntry) (status result len : Nat) : Prop where
  out : t.out = .dmaWrite i (s.cqAddr i r) (s.cqEntry i r e status result len) :: s.out
  cqTail : t.getF (Fld.stewardRingStatCqTail i r) = s.cqTailNext i r
  phase : t.getF (Fld.stewardRingStatPhase i r) = s.phaseNext i r
  sqHead : t.getF (Fld.stewardRingStatSqHead i r) = s.getF (Fld.stewardRingStatSqHead i r)
  rd : ∀ a, a ≠ Reg.stewardRingStat i r → t.rd a = s.rd a
  ep : ∀ k, t.ep k = s.ep k
  trapQ : t.dp.trapQ = s.dp.trapQ

/-- A completion that sends no interrupt is the entry's write and the queue's move. -/
theorem State.writeCq_of_noInt (s : State) (i r : Nat) (e : SqEntry) (status result len : Nat) (hno : e.noInt = true) :
    s.writeCq i r e status result len = (s.dmaWrite i (s.cqAddr i r) (s.cqEntry i r e status result len)).setFs
      [(Fld.stewardRingStatCqTail i r, s.cqTailNext i r), (Fld.stewardRingStatPhase i r, s.phaseNext i r)] := by
  have hsize : (s.dmaWrite i (s.cqAddr i r) (s.cqEntry i r e status result len)).cqSize i r = s.cqSize i r :=
    State.cqSize_of_rd i r ((s.dmaWrite_made _ _ _).rd _)
  unfold State.writeCq State.cqTailNext State.phaseNext
  unfold State.cqAddr State.cqEntry at *
  simp only [hno, if_true, hsize, decide_eq_true_eq]

theorem State.cqTailNext_lt (s : State) (i r : Nat) : s.cqTailNext i r < 2 ^ 12 := by
  have hsize : s.cqSize i r ≤ 2 ^ 12 := ringSize_le _
  unfold State.cqTailNext
  split <;> omega

theorem State.phaseNext_lt (s : State) (i r : Nat) : s.phaseNext i r < 2 ^ 1 := by
  have hphase := s.getF_lt (Fld.stewardRingStatPhase i r)
  simp only [Fld.stewardRingStatPhase] at hphase ⊢
  unfold State.phaseNext
  simp only [Fld.stewardRingStatPhase]
  split <;> omega

theorem State.writeCq_written (s : State) (i r : Nat) (e : SqEntry) (status result len : Nat) (hno : e.noInt = true) :
    CqWritten s (s.writeCq i r e status result len) i r e status result len := by
  have hmade := s.dmaWrite_made i (s.cqAddr i r) (s.cqEntry i r e status result len)
  rw [s.writeCq_of_noInt i r e status result len hno]
  generalize s.dmaWrite i (s.cqAddr i r) (s.cqEntry i r e status result len) = u at hmade
  have hwrites : Writes u (u.setFs [(Fld.stewardRingStatCqTail i r, s.cqTailNext i r), (Fld.stewardRingStatPhase i r, s.phaseNext i r)])
      [(Fld.stewardRingStatCqTail i r, s.cqTailNext i r), (Fld.stewardRingStatPhase i r, s.phaseNext i r)] := by
    refine Writes.setFs _ (fun x hx => ?_) (by simp [Fld.stewardRingStatCqTail, Fld.stewardRingStatPhase]) u
    simp only [List.mem_cons, List.not_mem_nil, or_false] at hx
    rcases hx with rfl | rfl
    · exact ⟨by simp [Fld.stewardRingStatCqTail], s.cqTailNext_lt i r⟩
    · exact ⟨by simp [Fld.stewardRingStatPhase], s.phaseNext_lt i r⟩
  refine ⟨?_, hwrites.1 _ (List.mem_cons_self ..), hwrites.1 _ (List.mem_cons_of_mem _ (List.mem_singleton.mpr rfl)),
    ?_, fun a ha => ?_, fun k => ?_, ?_⟩
  · rw [State.setFs_out]; exact hmade.out
  · refine (State.getF_setFs_ne _ u _ ?_).trans (hmade.getF _)
    simp [Fld.stewardRingStatSqHead, Fld.stewardRingStatCqTail, Fld.stewardRingStatPhase]
  · rw [setFs2, State.rd_setF_ne _ _ _ _ ha, State.rd_setF_ne _ _ _ _ ha]; exact hmade.rd a
  · rw [State.setFs_ep]; exact hmade.ep k
  · rw [State.setFs_dp]; exact hmade.trapQ

/-- The outbox bytes and trapped messages of a completion are consumed; MZ_OUT_RD apart, registers stay, and nothing more is sent out. -/
structure Consumed (s t : State) (c : Nat × Nat) : Prop where
  outRd : t.rd Reg.stewardMzOutRd = s.rd Reg.stewardMzOutRd + BitVec.ofNat 32 c.1
  trapQ : t.dp.trapQ = s.dp.trapQ.drop c.2
  rd : ∀ a, a ≠ Reg.stewardMzOutRd → t.rd a = s.rd a
  out : t.out = s.out
  ep : ∀ k, t.ep k = s.ep k

theorem State.mzOutRdWrite_consumed (s : State) (n : Nat) :
    Consumed s (s.mzOutRdWrite (BitVec.ofNat 32 ((s.rd Reg.stewardMzOutRd).toNat + n))) (n, 0) where
  outRd := by
    refine (State.rd_wr_same s _ _).trans ?_
    rw [BitVec.ofNat_add, BitVec.ofNat_toNat, BitVec.setWidth_eq]
  trapQ := rfl
  rd := fun a ha => State.rd_wr_ne _ _ _ _ ha
  out := rfl
  ep := fun _ => rfl

theorem Consumed.refl (s : State) : Consumed s s (0, 0) := ⟨by simp, rfl, fun _ _ => rfl, rfl, fun _ => rfl⟩

/-- Outbox bytes first, then trapped messages, whose completions are messages that the device makes. -/
theorem State.consumeOut_consumed (s : State) (c : Nat × Nat) : Consumed s (s.consumeOut c) c := by
  obtain ⟨n, k⟩ := c
  have hbytes : Consumed s (if n = 0 then s else s.mzOutRdWrite (BitVec.ofNat 32 ((s.rd Reg.stewardMzOutRd).toNat + n))) (n, 0) := by
    split
    · rename_i hn
      rw [hn]
      exact Consumed.refl s
    · exact s.mzOutRdWrite_consumed n
  unfold State.consumeOut
  dsimp only
  generalize (if n = 0 then s else s.mzOutRdWrite (BitVec.ofNat 32 ((s.rd Reg.stewardMzOutRd).toNat + n))) = u at hbytes
  split
  · rename_i hk
    rw [hk]
    exact hbytes
  · generalize (if u.getF Fld.faultStatFatal = 1 then [] else u.dp.trapQ.take k) = l
    have hmade := MadeOnly.foldl l (fun s x => s.completeTrapped x.2) (fun s x => s.completeTrapped_made x.2)
      { u with dp := { u.dp with trapQ := u.dp.trapQ.drop k } }
    refine ⟨(hmade.rd _).trans hbytes.outRd, hmade.trapQ.trans ?_, fun a ha => (hmade.rd a).trans (hbytes.rd a ha),
      hmade.out.trans hbytes.out, fun j => (hmade.ep j).trans (hbytes.ep j)⟩
    exact congrArg (List.drop k) hbytes.trapQ

/-- RETURN of a command that sends no interrupt: its output if any, its completion entry, and what that consumes. -/
structure ReturnDone (s t : State) (i r : Nat) (e : SqEntry) (status result : Nat) (body : List Byte) (c : Nat × Nat) : Prop where
  out : t.out = .dmaWrite i (s.cqAddr i r) (s.cqEntry i r e status result body.length) ::
    (if body.isEmpty then s.out else .dmaWrite i e.outAddr.toNat body :: s.out)
  cqTail : t.getF (Fld.stewardRingStatCqTail i r) = s.cqTailNext i r
  phase : t.getF (Fld.stewardRingStatPhase i r) = s.phaseNext i r
  sqHead : t.getF (Fld.stewardRingStatSqHead i r) = s.getF (Fld.stewardRingStatSqHead i r)
  rd : ∀ a, a ≠ Reg.stewardRingStat i r → a ≠ Reg.stewardMzOutRd → t.rd a = s.rd a
  ep : t.ep i = { s.ep i with cmd := none }
  trapQ : t.dp.trapQ = s.dp.trapQ.drop c.2
  outRd : t.rd Reg.stewardMzOutRd = s.rd Reg.stewardMzOutRd + BitVec.ofNat 32 c.1

/-- The output of a command is written where there is any; registers, instances and trap queue stay. -/
theorem State.writeBody_keeps (s : State) (i addr : Nat) (body : List Byte) :
    MadeOnly { s with out := if body.isEmpty then s.out else .dmaWrite i addr body :: s.out }
      (if body.isEmpty then s else s.dmaWrite i addr body) := by
  split
  · exact MadeOnly.refl s
  · exact s.dmaWrite_made i addr body

theorem ringStat_ne_mzOutRd (i r : Nat) : Reg.stewardRingStat i r ≠ Reg.stewardMzOutRd := by
  simp only [Reg.stewardRingStat, Reg.stewardMzOutRd]; omega

theorem State.finishRet_done (s : State) (i r : Nat) (e : SqEntry) (status result need : Nat) (body : List Byte) (c : Nat × Nat)
    (hcmd : (s.ep i).cmd = some (.ret r e status result body need c)) (hserved : s.epServed i = true)
    (hno : e.noInt = true) (hfits : status = 0 → body.length ≤ e.outLen.toNat) :
    ReturnDone s (s.finishRet i) i r e status result body c := by
  have hlong : ¬(status = 0 ∧ (!decide (body.length ≤ e.outLen.toNat)) = true) := by
    rintro ⟨hzero, hover⟩
    simp [hfits hzero] at hover
  unfold State.finishRet
  rw [hcmd]
  dsimp only
  rw [if_neg (by simp [hserved]), if_neg hlong]
  have hbody := (s.setCmd i none).writeBody_keeps i e.outAddr.toNat body
  generalize (if body.isEmpty then s.setCmd i none else (s.setCmd i none).dmaWrite i e.outAddr.toNat body) = u at hbody
  have hregs : ∀ a, u.rd a = s.rd a := hbody.rd
  have haddr : u.cqAddr i r = s.cqAddr i r := by
    unfold State.cqAddr
    rw [getF_addr (Fld.stewardRingStatCqTail i r) (hregs _), State.get64_of_rd _ _ (hregs _) (hregs _)]
  have hentry : u.cqEntry i r e status result body.length = s.cqEntry i r e status result body.length := by
    unfold State.cqEntry
    rw [getF_addr (Fld.stewardRingStatSqHead i r) (hregs _), getF_addr (Fld.stewardRingStatPhase i r) (hregs _)]
  have htail : u.cqTailNext i r = s.cqTailNext i r := by
    unfold State.cqTailNext
    rw [getF_addr (Fld.stewardRingStatCqTail i r) (hregs _), State.cqSize_of_rd i r (hregs _)]
  have hphase : u.phaseNext i r = s.phaseNext i r := by
    unfold State.phaseNext
    rw [getF_addr (Fld.stewardRingStatCqTail i r) (hregs _), getF_addr (Fld.stewardRingStatPhase i r) (hregs _),
      State.cqSize_of_rd i r (hregs _)]
  have hcq := u.writeCq_written i r e status result body.length hno
  generalize u.writeCq i r e status result body.length = v at hcq
  have hend := v.consumeOut_consumed c
  have hstat : ∀ g : Fd, g.addr = Reg.stewardRingStat i r → (v.consumeOut c).getF g = v.getF g :=
    fun g hg => getF_addr g (hend.rd _ (by rw [hg]; exact ringStat_ne_mzOutRd i r))
  constructor
  case out => rw [hend.out, hcq.out, haddr, hentry, hbody.out]; rfl
  case cqTail => rw [hstat _ rfl, hcq.cqTail, htail]
  case phase => rw [hstat _ rfl, hcq.phase, hphase]
  case sqHead => rw [hstat _ rfl, hcq.sqHead]; exact getF_addr _ (hregs _)
  case rd => exact fun a hstat hout => (hend.rd a hout).trans ((hcq.rd a hstat).trans (hregs a))
  case ep => exact (hend.ep i).trans ((hcq.ep i).trans ((hbody.ep i).trans (s.ep_setCmd_same i none)))
  case trapQ => rw [hend.trapQ, hcq.trapQ, hbody.trapQ]; rfl
  case outRd => rw [hend.outRd, hcq.rd _ (ringStat_ne_mzOutRd i r).symm, hregs]

/-! ### The end of a ring's command -/

/-- Nothing but instance `i`'s command and reads, and what does not bear on rings, differs. -/
structure CmdMoved (s t : State) (i : Nat) : Prop where
  regs : t.regs = s.regs
  out : t.out = s.out
  trapQ : t.dp.trapQ = s.dp.trapQ
  tails : (t.ep i).tails = (s.ep i).tails
  d3Due : (t.ep i).d3Due = (s.ep i).d3Due

theorem CmdMoved.setEp {s t : State} {i : Nat} (h : CmdMoved s t i) (cmd : Option RingPhase) (reads : List (Nat × Nat × Nat)) :
    CmdMoved s (t.setEp i { t.ep i with cmd := cmd, reads := reads }) i :=
  ⟨h.regs, h.out, h.trapQ, by rw [State.ep_setEp_same]; exact h.tails, by rw [State.ep_setEp_same]; exact h.d3Due⟩

theorem CmdMoved.refl (s : State) (i : Nat) : CmdMoved s s i := ⟨rfl, rfl, rfl, rfl, rfl⟩

/-- SQ_HEAD passes the entry, within its field. -/
theorem State.passEntry_sqHead (s : State) (i r : Nat) : (s.passEntry i r).getF (Fld.stewardRingStatSqHead i r) =
    (s.getF (Fld.stewardRingStatSqHead i r) + 1) % s.sqSize i r := by
  refine getF_fit _ _ _ (by simp [Fld.stewardRingStatSqHead]) ?_
  exact lt_of_lt_of_le (Nat.mod_lt _ (ringSize_pos _)) (ringSize_le _)

/-- SQ_HEAD of ring `r` has passed the command's entry, and nothing else that RETURN reads differs. -/
structure EntryPassed (s t : State) (i r : Nat) : Prop where
  sqHead : t.getF (Fld.stewardRingStatSqHead i r) = (s.getF (Fld.stewardRingStatSqHead i r) + 1) % s.sqSize i r
  getF : ∀ g : Fd, 12 ≤ g.lo → t.getF g = s.getF g
  rd : ∀ a, a ≠ Reg.stewardRingStat i r → t.rd a = s.rd a
  out : t.out = s.out
  trapQ : t.dp.trapQ = s.dp.trapQ
  tails : (t.ep i).tails = (s.ep i).tails
  d3Due : (t.ep i).d3Due = (s.ep i).d3Due

theorem CmdMoved.passEntry {s t : State} {i : Nat} (h : CmdMoved s t i) (r : Nat) : EntryPassed s (t.passEntry i r) i r where
  sqHead := by
    rw [t.passEntry_sqHead i r, getF_regs h.regs, State.sqSize_of_rd i r (congrArg (Tbl.get regReset · _) h.regs)]
  getF := fun g hg => (State.getF_setF_ne _ (Fld.stewardRingStatSqHead i r) g _ (.inr (.inr hg))).trans (getF_regs h.regs g)
  rd := fun a ha => (State.rd_setF_ne _ _ _ _ ha).trans (congrArg (Tbl.get regReset · a) h.regs)
  out := h.out
  trapQ := h.trapQ
  tails := h.tails
  d3Due := h.d3Due

theorem EntryPassed.setCmd {s t : State} {i r : Nat} (h : EntryPassed s t i r) (c : Option RingPhase) :
    EntryPassed s (t.setCmd i c) i r :=
  ⟨h.sqHead, h.getF, h.rd, h.out, h.trapQ, by rw [State.ep_setCmd_same]; exact h.tails, by rw [State.ep_setCmd_same]; exact h.d3Due⟩

theorem EntryPassed.epServed {s t : State} {i r : Nat} (h : EntryPassed s t i r) (k : Nat) : t.epServed k = s.epServed k :=
  State.epServed_of_rd k (h.rd _ (by simp only [Reg.stewardEpCfg, Reg.stewardRingStat]; omega))

theorem State.d3Late_of_not_due (s : State) (i : Nat) (h : (s.ep i).d3Due = false) : s.d3Late i = s := if_neg (by simp [h])

/-- A ring whose EN is 0 has no entry to fetch. -/
theorem State.sqWaiting_of_off {s : State} {a b : Nat} (h : s.getF (Fld.stewardRingCfgEn a b) = 0) : s.sqWaiting a b = false := by
  simp [State.sqWaiting, State.ringOn, h]

/-- A ring whose head is its tail has no entry to fetch. -/
theorem State.sqWaiting_of_empty {s : State} {i r : Nat} (h : s.getF (Fld.stewardRingStatSqHead i r) = s.sqTail i r) :
    s.sqWaiting i r = false := by
  simp [State.sqWaiting, h]

/-- After RETURN of the only entry of the only ring that runs, no ring has an entry to fetch. -/
theorem ReturnDone.none_waiting {s w t : State} {i r status result : Nat} {e : SqEntry} {body : List Byte} {c : Nat × Nat}
    (h : ReturnDone w t i r e status result body c) (hpass : EntryPassed s w i r) (halone : AloneOn s i r) (a b : Nat) (ha : a < 2)
    (hb : b < 16) : t.sqWaiting a b = false := by
  obtain ⟨hoff, hqueue⟩ := halone
  by_cases hab : (a, b) = (i, r)
  · obtain ⟨rfl, rfl⟩ := Prod.mk.inj hab
    refine State.sqWaiting_of_empty ?_
    rw [h.sqHead, hpass.sqHead, hqueue]
    unfold State.sqTail
    rw [h.ep]
    exact congrArg (Tbl.get _ · b) hpass.tails.symm
  · refine State.sqWaiting_of_off ((getF_addr _ ?_).trans (hoff a b ha hb hab))
    have hout : Reg.stewardRingCfg a b ≠ Reg.stewardMzOutRd := by simp only [Reg.stewardRingCfg, Reg.stewardMzOutRd]; omega
    exact (h.rd _ (ringCfg_ne_ringStat a b i r) hout).trans (hpass.rd _ (ringCfg_ne_ringStat a b i r))

/-- RETURN in terms of the state before the command's entry was passed. -/
theorem ReturnDone.returned {s w t : State} {i r status result : Nat} {e : SqEntry} {body : List Byte} {c : Nat × Nat}
    (h : ReturnDone w t i r e status result body c) (hpass : EntryPassed s w i r) : Returned s t i r e status result body := by
  have hsize : w.cqSize i r = s.cqSize i r := State.cqSize_of_rd i r (hpass.rd _ (ringCfg_ne_ringStat i r i r))
  have htail : w.getF (Fld.stewardRingStatCqTail i r) = s.getF (Fld.stewardRingStatCqTail i r) := hpass.getF _ (by simp [Fld.stewardRingStatCqTail])
  have hphase : w.getF (Fld.stewardRingStatPhase i r) = s.getF (Fld.stewardRingStatPhase i r) := hpass.getF _ (by simp [Fld.stewardRingStatPhase])
  have hbase : w.get64 (Reg.stewardRingCqBaseLo i r) (Reg.stewardRingCqBaseHi i r) =
      s.get64 (Reg.stewardRingCqBaseLo i r) (Reg.stewardRingCqBaseHi i r) :=
    State.get64_of_rd _ _ (hpass.rd _ (by simp only [Reg.stewardRingCqBaseLo, Reg.stewardRingStat]; omega))
      (hpass.rd _ (by simp only [Reg.stewardRingCqBaseHi, Reg.stewardRingStat]; omega))
  refine ⟨by rw [h.ep], h.sqHead.trans hpass.sqHead, h.cqTail.trans ?_, h.phase.trans ?_, h.out.trans ?_⟩
  · unfold State.cqTailNext
    rw [hsize, htail]
  · unfold State.phaseNext
    rw [hsize, htail, hphase]
  · unfold State.cqAddr State.cqEntry
    rw [hbase, htail, hphase, hpass.sqHead, hpass.out]

/-- APPLY, or a failed read, ends the command of a ring that alone runs: its RETURN is written, what it hands over is consumed, and no
further entry is fetched. -/
theorem applied_returned {s u : State} {i r : Nat} (e : SqEntry) (status result : Nat) (body : List Byte) (c : Nat × Nat)
    (hu : EntryPassed s u i r) (hserved : s.epServed i = true) (hd3 : (s.ep i).d3Due = false) (halone : AloneOn s i r)
    (hno : e.noInt = true) (hfits : status = 0 → body.length ≤ e.outLen.toNat) :
    Returned s (u.applied i r e status result body c) i r e status result body ∧
    (u.applied i r e status result body c).dp.trapQ = s.dp.trapQ.drop c.2 ∧
    (u.applied i r e status result body c).rd Reg.stewardMzOutRd = s.rd Reg.stewardMzOutRd + BitVec.ofNat 32 c.1 := by
  have hpass := hu.setCmd (some (.ret r e status result body body.length c))
  have hcmd : ((u.setCmd i (some (.ret r e status result body body.length c))).ep i).cmd =
      some (.ret r e status result body body.length c) := by rw [State.ep_setCmd_same]
  unfold State.applied
  generalize u.setCmd i (some (.ret r e status result body body.length c)) = w at hpass hcmd
  have hdone := w.finishRet_done i r e status result body.length body c hcmd ((hpass.epServed i).trans hserved) hno hfits
  rw [w.d3Late_of_not_due i (hpass.d3Due.trans hd3), State.serve_of_none_waiting _ (hdone.none_waiting hpass halone)]
  refine ⟨hdone.returned hpass, hdone.trapQ.trans (congrArg (List.drop c.2) hpass.trapQ), ?_⟩
  rw [hdone.outRd, hpass.rd _ (ringStat_ne_mzOutRd i r).symm]

end Sys2Proof.Machine
end

section
/-! SUPPORT. Doorbells and RING_CFG (R372, R373, R394), and the completions and timeouts of an instance's DMA reads (R379 to R382). -/

open Sys2Proof Sys2Proof.Machine

namespace Sys2Proof.Machine

/-! ### Doorbells (R372) -/

/-- A doorbell out of range, or to a ring that does not run, sets the ring's ERR. -/
theorem State.doorbell_refused {s : State} {i r : Nat} {idx : Word} {size : Nat} {f : State → State} (hpres : s.epPresent i = true)
    (hd : s.getF (Fld.stewardEpCfgDstate i) ≠ 3) (h : s.ringOn i r = false ∨ size ≤ idx.toNat) :
    s.doorbell i r idx size f = s.setF (Fld.stewardRingStatErr i r) 1 := by
  have hbad : (s.ringOn i r && doorbellOk idx size) = false := by
    rcases h with hoff | hrange
    · simp [hoff]
    · simp [doorbellOk, hrange]
  simp [State.doorbell, hpres, hd, hbad]

/-- A doorbell of an instance that is not present reaches nothing. -/
theorem State.doorbell_of_absent {s : State} {i r : Nat} {idx : Word} {size : Nat} {f : State → State} (h : s.epPresent i = false) :
    s.doorbell i r idx size f = s := if_pos (by simp [h])

/-- A doorbell in range of a ring that runs is taken. -/
theorem State.doorbell_taken {s : State} {i r : Nat} {idx : Word} {size : Nat} {f : State → State}
    (hd : s.getF (Fld.stewardEpCfgDstate i) ≠ 3) (hon : s.ringOn i r = true) (h : idx.toNat < size) : s.doorbell i r idx size f = f s := by
  simp [State.doorbell, State.epPresent_of_ringOn hon, hd, hon, doorbellOk, h]

theorem completes_sqTailDoorbell_refused (s : State) (i : Inst) (r : Ring) (v : Word) (hpres : s.epPresent i = true)
    (hd : s.getF (Fld.stewardEpCfgDstate i) ≠ 3) (h : s.ringOn i r = false ∨ s.sqSize i r ≤ v.toNat) :
    Completes (.sqTailDoorbell i r v) s (fun t =>
      t.getF (Fld.stewardRingStatErr i r) = 1 ∧ RegsOnly s t [Fld.stewardRingStatErr i r]) :=
  setF_ok (f := (·.sqTailDoor i r v)) 1 rfl (State.doorbell_refused hpres hd h) (by simp [Fld.stewardRingStatErr])
    (by simp [Fld.stewardRingStatErr])

theorem completes_cqHeadDoorbell_refused (s : State) (i : Inst) (r : Ring) (v : Word) (hpres : s.epPresent i = true)
    (hd : s.getF (Fld.stewardEpCfgDstate i) ≠ 3) (h : s.ringOn i r = false ∨ s.cqSize i r ≤ v.toNat) :
    Completes (.cqHeadDoorbell i r v) s (fun t =>
      t.getF (Fld.stewardRingStatErr i r) = 1 ∧ RegsOnly s t [Fld.stewardRingStatErr i r]) :=
  setF_ok (f := (·.cqHeadDoor i r v)) 1 rfl (State.doorbell_refused hpres hd h) (by simp [Fld.stewardRingStatErr])
    (by simp [Fld.stewardRingStatErr])

/-- A tail taken while nothing is fetched. -/
theorem completes_sqTailDoorbell_taken (s : State) (i : Inst) (r : Ring) (v : Word) (hd : s.getF (Fld.stewardEpCfgDstate i) ≠ 3)
    (hon : s.ringOn i r = true) (hv : v.toNat < s.sqSize i r) (hidle : s.stewardUp = false ∨ s.epActive i = true) :
    Completes (.sqTailDoorbell i r v) s (fun t =>
      t.sqTail i r = v.toNat ∧ (∀ k, k ≠ r.val → t.sqTail i k = s.sqTail i k) ∧ t = s.setEp i { s.ep i with tails := (t.ep i).tails }) := by
  obtain ⟨u, hu⟩ : ∃ u, u = s.setEp i { s.ep i with tails := Tbl.set (fun _ => 0) (s.ep i).tails r v.toNat } := ⟨_, rfl⟩
  have hep : u.ep i = { s.ep i with tails := Tbl.set (fun _ => 0) (s.ep i).tails r v.toNat } := by rw [hu]; exact State.ep_setEp_same _ _ _
  have hserve : u.serve = u := by
    rcases hidle with hdown | hactive
    · exact u.serve_of_down (by rw [hu]; exact hdown)
    · refine u.serve_of_active i ?_
      unfold State.epActive at hactive ⊢
      rw [hep, State.epServed_of_rd (s := s) i (by rw [hu]; rfl)]
      exact hactive
  have hdoor : s.sqTailDoor i r v = u := (State.doorbell_taken hd hon hv).trans (by rw [← hu, hserve])
  refine Completes.of_eq u (f := (·.sqTailDoor i r v)) rfl hdoor (by rw [hu]; rfl) (by rw [hu]; rfl) ⟨?_, fun k hk => ?_, ?_⟩
  · unfold State.sqTail
    rw [hep]
    exact Tbl.get_set_same _ _ _ _
  · unfold State.sqTail
    rw [hep]
    exact Tbl.get_set_ne _ _ _ _ _ hk
  · rw [hep]
    exact hu

/-- An instance whose CQ head of ring `r` has moved to `idx`, past the entries that it passed on its way. -/
def Ep.headMoved (e : Ep) (r idx size : Nat) : Ep :=
  { e with
    heads := Tbl.set (fun _ => 0) e.heads r idx
    cqPend := e.cqPend.filter (fun x => !(decide (x.1 = r) && passed (Tbl.get (fun _ => 0) e.heads r) idx size x.2)) }

/-- A CQ head moved, and the ring's source not pending where no completion of the ring is left (R377). -/
def State.headMoved (s : State) (i r idx : Nat) : State :=
  let u := s.setEp i ((s.ep i).headMoved r idx (s.cqSize i r))
  if ((s.ep i).headMoved r idx (s.cqSize i r)).cqPend.any (fun x => x.1 = r) then u else u.setF ⟨Reg.stewardIntStat i, r, 1⟩ 0

theorem State.headMoved_ep (s : State) (i r idx : Nat) : (s.headMoved i r idx).ep i = (s.ep i).headMoved r idx (s.cqSize i r) := by
  unfold State.headMoved
  dsimp only
  split
  · exact State.ep_setEp_same _ _ _
  · exact State.ep_setEp_same _ _ _

theorem State.headMoved_onlyFields (s : State) (i r idx : Nat) :
    OnlyFields s (s.headMoved i r idx) [⟨Reg.stewardIntStat i, r, 1⟩] := by
  have hkept : OnlyFields s (s.setEp i ((s.ep i).headMoved r idx (s.cqSize i r))) [⟨Reg.stewardIntStat i, r, 1⟩] :=
    (OnlyFields.refl s _).of_regs rfl
  unfold State.headMoved
  dsimp only
  split
  · exact hkept
  · exact hkept.stepF _ _ (List.mem_singleton.mpr rfl)

/-- With every completion of the ring passed, its source is not pending. -/
theorem State.headMoved_source (s : State) (i r idx : Nat) (hr : r < 32)
    (h : ∀ x ∈ ((s.headMoved i r idx).ep i).cqPend, x.1 ≠ r) : (s.headMoved i r idx).getF ⟨Reg.stewardIntStat i, r, 1⟩ = 0 := by
  rw [s.headMoved_ep] at h
  have hnone : ¬((s.ep i).headMoved r idx (s.cqSize i r)).cqPend.any (fun x => x.1 = r) = true := by
    rw [List.any_eq_true]
    rintro ⟨x, hx, heq⟩
    exact h x hx (of_decide_eq_true heq)
  unfold State.headMoved
  dsimp only
  rw [if_neg hnone]
  exact getF_fit _ _ _ hr (Nat.two_pow_pos 1)

/-- INTA follows a CQ head; one that is not asserted stays so. -/
theorem State.cqHead_eq (s : State) (i r idx : Nat) (hinta : (s.ep i).inta = false) : s.cqHead i r idx = s.headMoved i r idx :=
  State.intaUpdate_of_not_asserted (s.headMoved i r idx) i (by rw [s.headMoved_ep]; exact hinta)

/-- A CQ head in range passes entries. -/
theorem completes_cqHeadDoorbell_taken (s : State) (i : Inst) (r : Ring) (v : Word) (hd : s.getF (Fld.stewardEpCfgDstate i) ≠ 3)
    (hon : s.ringOn i r = true) (hv : v.toNat < s.cqSize i r) (hinta : (s.ep i).inta = false) :
    Completes (.cqHeadDoorbell i r v) s (fun t =>
      (t.ep i).heads = Tbl.set (fun _ => 0) (s.ep i).heads r v.toNat ∧
      (t.ep i).cqPend = (s.ep i).cqPend.filter (fun x =>
        !(decide (x.1 = r.val) && passed (Tbl.get (fun _ => 0) (s.ep i).heads r) v.toNat (s.cqSize i r) x.2)) ∧
      ((∀ x ∈ (t.ep i).cqPend, x.1 ≠ r.val) → t.getF ⟨Reg.stewardIntStat i, r, 1⟩ = 0) ∧
      OnlyFields s t [⟨Reg.stewardIntStat i, r, 1⟩]) := by
  have hdoor : s.cqHeadDoor i r v = s.headMoved i r v.toNat := (State.doorbell_taken hd hon hv).trans (s.cqHead_eq i r v.toNat hinta)
  have hep := s.headMoved_ep i r v.toNat
  refine Completes.of_any (s.headMoved i r v.toNat) (f := (·.cqHeadDoor i r v)) rfl hdoor
    ⟨congrArg Ep.heads hep, congrArg Ep.cqPend hep, s.headMoved_source i r v.toNat (by omega), ?_⟩
  exact (s.headMoved_onlyFields i r v.toNat).of_regs rfl

/-! ### RING_CFG (R372, R394) -/

theorem State.ringCfgWrite_of_absent (s : State) (i r : Nat) (v : Word) (h : s.epPresent i = false) : s.ringCfgWrite i r v = s :=
  if_pos (by simp [h])

/-- While a ring runs, a write that leaves EN at 1 does nothing. -/
theorem State.ringCfgWrite_of_running (s : State) (i r : Nat) (v : Word) (hon : s.ringOn i r = true) (hen : fieldGet v 8 1 = 1) :
    s.ringCfgWrite i r v = s := by
  simp [State.ringCfgWrite, State.epPresent_of_ringOn hon, hon, hen]

/-- EN falls: with no command under way, that is all. -/
theorem State.ringCfgWrite_of_stopped (s : State) (i r : Nat) (v : Word) (hon : s.ringOn i r = true) (hen : fieldGet v 8 1 = 0)
    (hcmd : (s.ep i).cmd = none) : s.ringCfgWrite i r v = s.setF (Fld.stewardRingCfgEn i r) 0 := by
  simp [State.ringCfgWrite, State.epPresent_of_ringOn hon, hon, hen, hcmd]

/-- An instance whose queues of ring `r` start anew. -/
def Ep.ringFresh (e : Ep) (r : Nat) : Ep :=
  { e with
    tails := Tbl.set (fun _ => 0) e.tails r 0
    heads := Tbl.set (fun _ => 0) e.heads r 0
    cqPend := e.cqPend.filter (fun x => x.1 ≠ r) }

/-- What EN rising writes to RING_CFG. -/
def ringCfgFields (i r : Nat) (v : Word) : List (Fd × Nat) :=
  [(Fld.stewardRingCfgSqLog2 i r, fieldGet v 0 4), (Fld.stewardRingCfgCqLog2 i r, fieldGet v 4 4), (Fld.stewardRingCfgEn i r, 1)]

/-- What EN rising writes elsewhere. -/
def ringStatFields (i r : Nat) : List (Fd × Nat) :=
  [(Fld.stewardRingStatSqHead i r, 0), (Fld.stewardRingStatCqTail i r, 0), (Fld.stewardRingStatPhase i r, 1),
    (⟨Reg.stewardIntStat i, r, 1⟩, 0)]

/-- EN rises: the sizes are taken and both queues start anew; INTA that is not asserted stays so. -/
theorem State.ringCfgWrite_of_started (s : State) (i r : Nat) (v : Word) (hpres : s.epPresent i = true) (hoff : s.ringOn i r = false)
    (hen : fieldGet v 8 1 = 1) (hinta : (s.ep i).inta = false) :
    s.ringCfgWrite i r v = ((s.setFs (ringCfgFields i r v)).setEp i ((s.ep i).ringFresh r)).setFs (ringStatFields i r) := by
  have hep : (((s.setFs (ringCfgFields i r v)).setEp i ((s.ep i).ringFresh r)).setFs (ringStatFields i r)).ep i = (s.ep i).ringFresh r := by
    rw [State.setFs_ep]; exact State.ep_setEp_same _ _ _
  have hstay := State.intaUpdate_of_not_asserted _ i (show ((((s.setFs (ringCfgFields i r v)).setEp i ((s.ep i).ringFresh r)).setFs
    (ringStatFields i r)).ep i).inta = false by rw [hep]; exact hinta)
  refine Eq.trans ?_ hstay
  unfold State.ringCfgWrite
  simp only [hpres, hoff, hen, Bool.not_true, Bool.false_eq_true, if_false, decide_true, State.setFs_ep]
  rfl

/-- Fields set do not depend on an instance's state. -/
theorem State.setFs_setEp (l : List (Fd × Nat)) (s : State) (i : Nat) (e : Ep) : (s.setEp i e).setFs l = (s.setFs l).setEp i e := by
  induction l generalizing s with
  | nil => rfl
  | cons x l ih => exact ih (s.setF x.1 x.2)

theorem State.setFs_append (l m : List (Fd × Nat)) (s : State) : s.setFs (l ++ m) = (s.setFs l).setFs m := List.foldl_append ..

/-- The fields that EN rising writes lie apart, and read as written. -/
theorem writes_ringStarted (s : State) (i r : Nat) (hr : r < 32) (v : Word) :
    Writes s (s.setFs (ringCfgFields i r v ++ ringStatFields i r)) (ringCfgFields i r v ++ ringStatFields i r) := by
  have hsq : fieldGet v 0 4 < 16 := Nat.mod_lt _ (by decide)
  have hcq : fieldGet v 4 4 < 16 := Nat.mod_lt _ (by decide)
  refine Writes.setFs _ (fun x hx => ?_) ?_ s
  · simp only [ringCfgFields, ringStatFields, List.cons_append, List.nil_append, List.mem_cons, List.not_mem_nil, or_false] at hx
    rcases hx with rfl | rfl | rfl | rfl | rfl | rfl | rfl
    · exact ⟨by simp [Fld.stewardRingCfgSqLog2], hsq⟩
    · exact ⟨by simp [Fld.stewardRingCfgCqLog2], hcq⟩
    · simp [Fld.stewardRingCfgEn]
    · simp [Fld.stewardRingStatSqHead]
    · simp [Fld.stewardRingStatCqTail]
    · simp [Fld.stewardRingStatPhase]
    · exact ⟨hr, Nat.two_pow_pos 1⟩
  · simp only [ringCfgFields, ringStatFields, List.cons_append, List.nil_append, List.pairwise_cons, List.Pairwise.nil, List.mem_cons,
      List.not_mem_nil, or_false, forall_eq_or_imp, forall_eq, false_imp_iff, implies_true, and_true, Fld.stewardRingCfgSqLog2,
      Fld.stewardRingCfgCqLog2, Fld.stewardRingCfgEn, Fld.stewardRingStatSqHead, Fld.stewardRingStatCqTail, Fld.stewardRingStatPhase,
      Reg.stewardRingCfg, Reg.stewardRingStat, Reg.stewardIntStat]
    omega

theorem completes_ringCfgWrite_of_stopped (s : State) (i : Inst) (r : Ring) (v : Word) (hon : s.ringOn i r = true)
    (hen : fieldGet v 8 1 = 0) (hcmd : (s.ep i).cmd = none) :
    Completes (.ringCfgWrite i r v) s (fun t =>
      t.getF (Fld.stewardRingCfgEn i r) = 0 ∧ RegsOnly s t [Fld.stewardRingCfgEn i r]) :=
  setF_ok (f := (·.ringCfgWrite i r v)) 0 rfl (s.ringCfgWrite_of_stopped i r v hon hen hcmd) (by simp [Fld.stewardRingCfgEn])
    (by simp [Fld.stewardRingCfgEn])

theorem completes_ringCfgWrite_of_started (s : State) (i : Inst) (r : Ring) (v : Word) (hpres : s.epPresent i = true)
    (hoff : s.ringOn i r = false) (hen : fieldGet v 8 1 = 1) (hinta : (s.ep i).inta = false) :
    Completes (.ringCfgWrite i r v) s (fun t =>
      t.getF (Fld.stewardRingCfgEn i r) = 1 ∧ t.getF (Fld.stewardRingCfgSqLog2 i r) = fieldGet v 0 4 ∧
      t.getF (Fld.stewardRingCfgCqLog2 i r) = fieldGet v 4 4 ∧ t.getF (Fld.stewardRingStatSqHead i r) = 0 ∧
      t.getF (Fld.stewardRingStatCqTail i r) = 0 ∧ t.getF (Fld.stewardRingStatPhase i r) = 1 ∧ t.sqTail i r = 0 ∧
      t = { s with regs := t.regs, stw := t.stw }) := by
  obtain ⟨hval, -⟩ := writes_ringStarted s i r (by omega) v
  have hregs := State.setFs_eq (ringCfgFields i r v ++ ringStatFields i r) s
  have heq := s.ringCfgWrite_of_started i r v hpres hoff hen hinta
  have htails : Tbl.get (fun _ => 0) ((s.ep i).ringFresh r).tails r = 0 := Tbl.get_set_same _ _ _ _
  rw [State.setFs_setEp, ← State.setFs_append] at heq
  generalize s.setFs (ringCfgFields i r v ++ ringStatFields i r) = u at hval hregs heq
  generalize (s.ep i).ringFresh r = e at heq htails
  simp only [ringCfgFields, ringStatFields, List.cons_append, List.nil_append, List.mem_cons, List.not_mem_nil, or_false,
    forall_eq_or_imp, forall_eq] at hval
  obtain ⟨hsq, hcq, hrun, hhead, htail, hphase, -⟩ := hval
  have hget : ∀ g, (u.setEp i e).getF g = u.getF g := State.setEp_getF u i e
  refine Completes.of_eq (u.setEp i e) (f := (·.ringCfgWrite i r v)) rfl heq (by rw [hregs]; rfl) (by rw [hregs]; rfl)
    ⟨(hget _).trans hrun, (hget _).trans hsq, (hget _).trans hcq, (hget _).trans hhead, (hget _).trans htail, (hget _).trans hphase, ?_, ?_⟩
  · unfold State.sqTail
    rw [State.ep_setEp_same]
    exact htails
  · rw [hregs]
    rfl

/-! ### Completions and timeouts of DMA reads (R379 to R382) -/

theorem exec_epCompletionTimeout (s : State) (i : Inst) (k : Nat) : exec (.epCompletionTimeout i k) s = execEpCompletionTimeout i k s := rfl

theorem exec_epDmaCompletion (s : State) (i : Inst) (k : Nat) (ok : Bool) :
    exec (.epDmaCompletion i k ok) s = execEpDmaCompletion i k ok s := rfl

theorem State.dropRead_ep (s : State) (i k : Nat) : (s.dropRead i k).ep i = { s.ep i with reads := (s.ep i).reads.filter (fun x => x.1 ≠ k) } :=
  State.ep_setEp_same _ _ _

/-- A read that is released, and counted in a register of its own. -/
theorem dropRead_bump (s : State) (i k a : Nat) :
    ((s.dropRead i k).bump (Fd.whole a)).rd a = BitVec.ofNat 32 (min ((s.rd a).toNat + 1) (2 ^ 32 - 1)) ∧
    ((s.dropRead i k).bump (Fd.whole a)).ep i = { s.ep i with reads := (s.ep i).reads.filter (fun x => x.1 ≠ k) } ∧
    OnlyFields s ((s.dropRead i k).bump (Fd.whole a)) [Fd.whole a] := by
  refine ⟨bump_whole (s.dropRead i k) a, s.dropRead_ep i k, ?_⟩
  exact ((OnlyFields.refl s _).of_regs (u := s.dropRead i k) rfl).stepB _ (List.mem_singleton.mpr rfl)

section
variable {s : State} {i : Inst} {k : Nat}

/-- No entry has the number. -/
theorem find_reads_none (h : ∀ x ∈ (s.ep i).reads, x.1 ≠ k) : (s.ep i).reads.find? (fun x => decide (x.1 = k)) = none :=
  List.find?_eq_none.mpr (fun x hx => by simp [h x hx])

theorem exec_epCompletionTimeout_of_no_entry (h : ∀ x ∈ (s.ep i).reads, x.1 ≠ k) : exec (.epCompletionTimeout i k) s = .next s := by
  refine exec_of_act s (exec_epCompletionTimeout s i k) ?_ rfl rfl
  simp only [find_reads_none h]

/-- A completion that finds no entry is late, and its data goes nowhere (R380). -/
theorem completes_epDmaCompletion_late (ok : Bool) (h : ∀ x ∈ (s.ep i).reads, x.1 ≠ k) :
    Completes (.epDmaCompletion i k ok) s (fun t =>
      t.rd (Reg.stewardEpLate i) = BitVec.ofNat 32 (min ((s.rd (Reg.stewardEpLate i)).toNat + 1) (2 ^ 32 - 1)) ∧
      RegsOnly s t [Fd.whole (Reg.stewardEpLate i)]) := by
  refine Completes.of_eq (s.bump (Fd.whole (Reg.stewardEpLate i))) (exec_epDmaCompletion s i k ok) ?_ rfl rfl
    ⟨bump_whole s _, RegsOnly.setF _ _ _⟩
  simp only [find_reads_none h]

variable {g a : Nat} (hfind : (s.ep i).reads.find? (fun x => decide (x.1 = k)) = some (k, g, a))
include hfind

theorem exec_epCompletionTimeout_of_early (h : s.aonPast a (s.epTmo i) = false) : exec (.epCompletionTimeout i k) s = .next s := by
  refine exec_of_act s (exec_epCompletionTimeout s i k) ?_ rfl rfl
  simp [hfind, h]

/-- A completion, or a timeout, of another generation is gleaned (R382). -/
theorem completes_gleaned (ok : Bool) (hgen : g ≠ s.getF (Fld.stewardEpCfgGen i)) (c : Instr)
    (hc : c ∈ [Instr.epDmaCompletion i k ok, .epCompletionTimeout i k])
    (hpast : c = .epCompletionTimeout i k → s.aonPast a (s.epTmo i) = true) : Completes c s (fun t =>
      t.rd (Reg.stewardEpGlean i) = BitVec.ofNat 32 (min ((s.rd (Reg.stewardEpGlean i)).toNat + 1) (2 ^ 32 - 1)) ∧
      t.ep i = { s.ep i with reads := (s.ep i).reads.filter (fun x => x.1 ≠ k) } ∧ OnlyFields s t [Fd.whole (Reg.stewardEpGlean i)]) := by
  simp only [List.mem_cons, List.not_mem_nil, or_false] at hc
  have hcounted := dropRead_bump s i k (Reg.stewardEpGlean i)
  rcases hc with rfl | rfl
  · refine Completes.of_eq ((s.dropRead i k).bump (Fd.whole (Reg.stewardEpGlean i))) (exec_epDmaCompletion s i k ok) ?_ rfl rfl hcounted
    simp only [hfind]
    exact if_pos hgen
  · refine Completes.of_eq ((s.dropRead i k).bump (Fd.whole (Reg.stewardEpGlean i))) (exec_epCompletionTimeout s i k) ?_ rfl rfl hcounted
    simp only [hfind, hpast rfl]
    exact if_pos hgen

/-- A completion of the current generation is discarded while Bus Master Enable is 0 (R381). -/
theorem completes_epDmaCompletion_discarded (ok : Bool) (hgen : g = s.getF (Fld.stewardEpCfgGen i))
    (hbme : s.getF (Fld.stewardEpCfgBme i) = 0) : Completes (.epDmaCompletion i k ok) s (fun t =>
      t.rd (Reg.stewardEpDisc i) = BitVec.ofNat 32 (min ((s.rd (Reg.stewardEpDisc i)).toNat + 1) (2 ^ 32 - 1)) ∧
      t.ep i = { s.ep i with reads := (s.ep i).reads.filter (fun x => x.1 ≠ k) } ∧ OnlyFields s t [Fd.whole (Reg.stewardEpDisc i)]) := by
  refine Completes.of_eq ((s.dropRead i k).bump (Fd.whole (Reg.stewardEpDisc i))) (exec_epDmaCompletion s i k ok) ?_ rfl rfl
    (dropRead_bump s i k _)
  simp only [hfind]
  exact (if_neg (not_not_intro hgen)).trans (if_pos hbme)

/-- A read that no command waits for times out: it is released and counted, and AER shows it (R379). -/
theorem completes_epCompletionTimeout_unawaited (hgen : g = s.getF (Fld.stewardEpCfgGen i)) (hpast : s.aonPast a (s.epTmo i) = true)
    (hwait : s.waitsFor i k = false) : Completes (.epCompletionTimeout i k) s (fun t =>
      t.rd (Reg.stewardEpTmo i) = BitVec.ofNat 32 (min ((s.rd (Reg.stewardEpTmo i)).toNat + 1) (2 ^ 32 - 1)) ∧
      t.ep i = { s.ep i with reads := (s.ep i).reads.filter (fun x => x.1 ≠ k) } ∧ OnlyFields s t [Fd.whole (Reg.stewardEpTmo i)]) := by
  refine Completes.of_eq (((s.dropRead i k).bump (Fd.whole (Reg.stewardEpTmo i))).aerFlag (aerEp i) 14)
    (exec_epCompletionTimeout s i k) ?_ rfl rfl (dropRead_bump s i k _)
  simp only [hfind, hpast, hwait]
  exact if_neg (not_not_intro hgen)

end

end Sys2Proof.Machine
end

section
/-! SUPPORT. Ring commands: the fetch of a command's input (R375), APPLY of the commands that take none (R374, R376), a read that failed
(R376), and the statement about the rings. -/

open Sys2Proof Sys2Proof.Machine

namespace Sys2Proof.Machine

/-! ### FETCH of a command's input (R375) -/

/-- Every ring command is its row of the ring that it names. -/
theorem exec_ringRow {c : Instr} {i r : Nat} (h : ringOf c = some (i, r)) (s : State) : exec c s = act s (·.ringRow i r c) := by
  cases c with
  | ringNop | fmapi | regWrite | regRead | progLoad | fwLoad | fwActivate | mzCmd | records | traps | cfgWrite => cases h; rfl
  | _ => cases h

/-- An entry that comes without its fetch does nothing. -/
theorem State.ringRow_of_no_entry {s : State} {i r : Nat} {c : Instr} (h : (s.ep i).cmd ≠ some (.entry r)) : s.ringRow i r c = s :=
  if_neg (fun hc => h hc.1)

/-- An input that lies within one 256-byte block is one read. -/
theorem chunks_of_one_block (n addr len : Nat) (hpos : 0 < len) (hblock : len + addr % 256 ≤ 256) :
    chunks (n + 2) addr len = [(addr, len)] := by
  obtain ⟨m, rfl⟩ : ∃ m, len = m + 1 := ⟨len - 1, by omega⟩
  have hmin : min (m + 1) (256 - addr % 256) = m + 1 := by omega
  simp [chunks, hmin]

/-- No input is no read. -/
theorem chunks_of_empty (n addr : Nat) : chunks n addr 0 = [] := by
  cases n <;> rfl

/-- A single read, with room among the instance's reads. -/
theorem State.issueReads_one (s : State) (i addr len : Nat) (hroom : (s.ep i).reads.length < 64) :
    s.issueReads i [] [(addr, len)] = ((s.dmaRead i addr len).1, [s.dp.nextId], []) := by
  unfold State.issueReads
  rw [if_neg (by omega)]
  rfl

/-- A command waits for its input: nothing more happens. -/
theorem State.ringPoll_of_reading {s : State} {i r k : Nat} {c : Instr} {ks : List Nat} {todo : List (Nat × Nat)}
    (h : (s.ep i).cmd = some (.input r c (k :: ks) todo)) : s.ringPoll i = s := by
  unfold State.ringPoll
  rw [h]

/-- A command whose input is one read: the read is issued, and the command waits for it. -/
theorem State.ringRow_of_one_read {s : State} {i r : Nat} {c : Instr} (hcmd : (s.ep i).cmd = some (.entry r))
    (hserved : s.epServed i = true) (hpos : 0 < (entryOf c).inLen.toNat)
    (hblock : (entryOf c).inLen.toNat + (entryOf c).inAddr.toNat % 256 ≤ 256) (hroom : (s.ep i).reads.length < 64) :
    s.ringRow i r c = (s.dmaRead i (entryOf c).inAddr.toNat (entryOf c).inLen.toNat).1.setCmd i (some (.input r c [s.dp.nextId] [])) := by
  have htodo : (if 65536 < (entryOf c).inLen.toNat then [] else chunks 258 (entryOf c).inAddr.toNat (entryOf c).inLen.toNat) =
      [((entryOf c).inAddr.toNat, (entryOf c).inLen.toNat)] := by
    rw [if_neg (by omega), chunks_of_one_block 256 _ _ hpos hblock]
  unfold State.ringRow
  rw [if_pos ⟨hcmd, hserved⟩]
  dsimp only
  rw [htodo, s.issueReads_one i _ _ hroom]
  exact State.ringPoll_of_reading (congrArg Ep.cmd (State.ep_setCmd_same _ _ _))

/-- An instance's request is a message of rank 1 that waits, where the link is up, and nothing where it is down (R270). -/
theorem State.epSend_msgs (s : State) (i : Nat) (h : Hdr) :
    (s.dllUp (s.epLp i) = true → ∃ m, (s.epSend i h).dp.msgs = s.dp.msgs ++ [m] ∧ m.origin = .device ∧ m.stage = .blocked ∧
      m.hdr = h ∧ m.route = some { lp := s.epLp i, rank := 1 }) ∧
    (s.dllUp (s.epLp i) = false → (s.epSend i h).dp.msgs = s.dp.msgs) := by
  unfold State.epSend
  refine ⟨fun hup => ?_, fun hdown => ?_⟩
  · simp only [hup, Bool.not_true, Bool.false_eq_true, if_false]
    exact ⟨_, rfl, rfl, rfl, rfl, rfl⟩
  · simp only [hdown, Bool.not_false, if_true]

/-- The request of a DMA read. -/
theorem State.dmaRead_msgs (s : State) (i addr len : Nat) :
    (s.dllUp (s.epLp i) = true → ∃ m, (s.dmaRead i addr len).1.dp.msgs = s.dp.msgs ++ [m] ∧ m.origin = .device ∧ m.stage = .blocked ∧
      m.hdr = epHdr .ioMemRd addr len s.dp.nextId [] ∧ m.route = some { lp := s.epLp i, rank := 1 }) ∧
    (s.dllUp (s.epLp i) = false → (s.dmaRead i addr len).1.dp.msgs = s.dp.msgs) :=
  State.epSend_msgs { s.readIssued i addr len with dp := { s.dp with nextId := s.dp.nextId + 1 } } i _

theorem completes_ringRow_of_one_read (s : State) (c : Instr) (i r : Nat) (hring : ringOf c = some (i, r))
    (hcmd : (s.ep i).cmd = some (.entry r)) (hserved : s.epServed i = true) (hpos : 0 < (entryOf c).inLen.toNat)
    (hblock : (entryOf c).inLen.toNat + (entryOf c).inAddr.toNat % 256 ≤ 256) (hroom : (s.ep i).reads.length < 64) :
    Completes c s (fun t => t.out = .dmaRead i (entryOf c).inAddr.toNat (entryOf c).inLen.toNat s.dp.nextId :: s.out ∧
      t.ep i = { s.ep i with
        cmd := some (.input r c [s.dp.nextId] []),
        reads := (s.ep i).reads ++ [(s.dp.nextId, s.getF (Fld.stewardEpCfgGen i), s.tick)] } ∧
      (s.dllUp (s.epLp i) = true → ∃ m, t.dp.msgs = s.dp.msgs ++ [m] ∧ m.origin = .device ∧ m.stage = .blocked ∧
        m.hdr = epHdr .ioMemRd (entryOf c).inAddr.toNat (entryOf c).inLen.toNat s.dp.nextId [] ∧ m.route = some { lp := s.epLp i, rank := 1 }) ∧
      (s.dllUp (s.epLp i) = false → t.dp.msgs = s.dp.msgs) ∧
      t.regs = s.regs ∧ (∀ k, k ≠ i → t.ep k = s.ep k)) := by
  have hmade := s.dmaRead_made i (entryOf c).inAddr.toNat (entryOf c).inLen.toNat
  obtain ⟨hup, hdown⟩ := s.dmaRead_msgs i (entryOf c).inAddr.toNat (entryOf c).inLen.toNat
  have hrow := State.ringRow_of_one_read (c := c) hcmd hserved hpos hblock hroom
  generalize (s.dmaRead i (entryOf c).inAddr.toNat (entryOf c).inLen.toNat).1 = u at hmade hup hdown hrow
  have hep : u.ep i = { s.ep i with reads := (s.ep i).reads ++ [(s.dp.nextId, s.getF (Fld.stewardEpCfgGen i), s.tick)] } :=
    (hmade.ep i).trans (State.ep_setEp_same _ _ _)
  refine Completes.of_any _ (exec_ringRow hring s) hrow ⟨hmade.out, ?_, hup, hdown, hmade.regs, fun k hk => ?_⟩
  · refine (State.ep_setCmd_same u i _).trans ?_
    rw [hep]
  · exact (State.ep_setEp_ne _ _ _ _ hk).trans ((hmade.ep k).trans (State.ep_setEp_ne _ _ _ _ hk))

/-! ### APPLY of a command without input (R374 to R376) -/

/-- Instance `i` as APPLY of command `c` begins: the command is marked as in APPLY's hands, and SQ_HEAD has passed its entry. -/
def State.applyStart (s : State) (i r : Nat) (c : Instr) : State :=
  ((s.setCmd i (some (.input r c [] []))).setCmd i (some (.input r c [] []))).passEntry i r

theorem State.applyStart_passed (s : State) (i r : Nat) (c : Instr) : EntryPassed s (s.applyStart i r c) i r :=
  (((CmdMoved.refl s i).setEp _ _).setEp _ _).passEntry r

theorem State.applyStart_cmd (s : State) (i r : Nat) (c : Instr) : ((s.applyStart i r c).ep i).cmd = some (.input r c [] []) :=
  congrArg Ep.cmd (State.ep_setCmd_same _ _ _)

/-- A command stands until something ends it. -/
theorem State.applyStart_appliedIf (s : State) (i r : Nat) (c : Instr) (status result : Nat) (body : List Byte) (k : Nat × Nat) :
    (s.applyStart i r c).appliedIf i r c status result body k =
      (s.applyStart i r c).applied i r (entryOf c) status result body k :=
  if_pos (decide_eq_true (s.applyStart_cmd i r c))

/-- A command without input goes to APPLY at once. -/
theorem State.ringRow_of_no_input {s : State} {i r : Nat} {c : Instr} (hcmd : (s.ep i).cmd = some (.entry r))
    (hserved : s.epServed i = true) (hup : s.stewardUp = true) (hmay : s.mayApply c = true) (hlen : (entryOf c).inLen = 0) :
    s.ringRow i r c = (s.setCmd i (some (.input r c [] []))).ringApply i r c := by
  have htodo : (if 65536 < (entryOf c).inLen.toNat then [] else chunks 258 (entryOf c).inAddr.toNat (entryOf c).inLen.toNat) = [] := by
    rw [hlen]
    exact chunks_of_empty _ _
  unfold State.ringRow
  rw [if_pos ⟨hcmd, hserved⟩]
  dsimp only
  rw [htodo]
  have hready : ((s.setCmd i (some (.input r c [] []))).stewardUp && (s.setCmd i (some (.input r c [] []))).epServed i &&
      (s.setCmd i (some (.input r c [] []))).mayApply c) = true := by
    rw [show (s.setCmd i (some (.input r c [] []))).stewardUp = s.stewardUp from rfl,
      show (s.setCmd i (some (.input r c [] []))).epServed i = s.epServed i from rfl,
      show (s.setCmd i (some (.input r c [] []))).mayApply c = s.mayApply c from rfl, hup, hserved, hmay]
    rfl
  show (s.setCmd i (some (.input r c [] []))).ringPoll i = _
  unfold State.ringPoll
  rw [State.ep_setCmd_same]
  exact if_pos hready

/-- A field out of range ends the command with status 2 (R376). -/
theorem State.ringApply_of_rangeBad (s : State) (i r : Nat) (c : Instr) (h : rangeBad c = true) :
    (s.setCmd i (some (.input r c [] []))).ringApply i r c = (s.applyStart i r c).applied i r (entryOf c) 2 0 [] :=
  if_pos h

/-- A command that takes no input, with its output's length in range, has no field out of range. -/
theorem rangeBad_of_no_input (k : Inst) (q : Ring) {e : SqEntry} (hin : e.inLen = 0) (hout : e.outLen.toNat ≤ 65536) {c : Instr}
    (hc : c ∈ [Instr.ringNop k q e, .fmapi k q e, .fwActivate k q e, .records k q e, .traps k q e]) : rangeBad c = false := by
  have hlengths : decide (65536 < e.inLen.toNat ∨ 65536 < e.outLen.toNat) = false := by simp [hin, hout]
  simp only [List.mem_cons, List.not_mem_nil, or_false] at hc
  rcases hc with rfl | rfl | rfl | rfl | rfl <;>
    exact (Bool.or_false _).trans ((Bool.or_false _).trans hlengths)

/-- The outbox lies apart from the rings' registers. -/
theorem EntryPassed.outboxBytes {s t : State} {i r : Nat} (h : EntryPassed s t i r) (hi : i < 2) (hr : r < 16) :
    t.outboxBytes = s.outboxBytes := by
  have hrd : t.rd Reg.stewardMzOutRd = s.rd Reg.stewardMzOutRd := h.rd _ (ringStat_ne_mzOutRd i r).symm
  have hwr : t.rd Reg.stewardMzOutWr = s.rd Reg.stewardMzOutWr :=
    h.rd _ (by simp only [Reg.stewardMzOutWr, Reg.stewardRingStat]; omega)
  have hbox : ∀ k g, g.addr = Reg.stewardMzOutbox k → t.getF g = s.getF g := fun k g hg =>
    getF_addr g (h.rd _ (by rw [hg]; simp only [Reg.stewardMzOutbox, Reg.stewardRingStat]; omega))
  unfold State.outboxBytes
  rw [hrd, hwr]
  exact List.map_congr_left (fun k _ => congrArg (BitVec.ofNat 8) (hbox _ _ rfl))

/-- What is weaker holds too. -/
theorem Completes.mono {c : Instr} {s : State} {P Q : State → Prop} (h : Completes c s P) (hPQ : ∀ t, P t → Q t) : Completes c s Q := by
  obtain ⟨t, hexec, hp⟩ := h
  exact ⟨t, hexec, hPQ t hp⟩

section
variable {s : State} {i : Inst} {r : Ring} {e : SqEntry} (hcmd : (s.ep i).cmd = some (.entry r)) (hd3 : (s.ep i).d3Due = false)
  (hserved : s.epServed i = true) (hup : s.stewardUp = true) (halone : AloneOn s i r) (hno : e.noInt = true) (hin : e.inLen = 0)
include hcmd hd3 hserved hup halone hno hin

/-- A command whose APPLY ends at once completes in RETURN. -/
theorem completes_of_applied {c : Instr} (hring : ringOf c = some (i.val, r.val)) (hentry : entryOf c = e) (hmay : s.mayApply c = true)
    (status result : Nat) (body : List Byte) (k : Nat × Nat) (hfits : status = 0 → body.length ≤ e.outLen.toNat)
    (happly : (s.setCmd i (some (.input r c [] []))).ringApply i r c = (s.applyStart i r c).applied i r e status result body k) :
    Completes c s (fun t => Returned s t i r e status result body ∧ t.dp.trapQ = s.dp.trapQ.drop k.2 ∧
      t.rd Reg.stewardMzOutRd = s.rd Reg.stewardMzOutRd + BitVec.ofNat 32 k.1) := by
  have hrow := State.ringRow_of_no_input hcmd hserved hup hmay (by rw [hentry]; exact hin)
  have hend := applied_returned e status result body k (s.applyStart_passed i r c) hserved hd3 halone hno hfits
  rw [happly] at hrow
  generalize (s.applyStart i r c).applied i r e status result body k = t at hrow hend
  exact Completes.of_any t (exec_ringRow hring s) hrow hend

theorem completes_ringNop (hout : e.outLen.toNat ≤ 65536) : Completes (.ringNop i r e) s (fun t => Returned s t i r e 0 0 []) := by
  refine (completes_of_applied hcmd hd3 hserved hup halone hno hin (c := .ringNop i r e) rfl rfl rfl 0 0 [] (0, 0)
    (fun _ => Nat.zero_le _) ?_).mono (fun _ h => h.1)
  have hrange : rangeBad (.ringNop i r e) = false := rangeBad_of_no_input i r hin hout (by simp)
  exact (if_neg (by simp [hrange])).trans (State.applyStart_appliedIf _ _ _ _ _ _ _ _)

theorem completes_records (hbytes : s.outboxBytes.length ≤ e.outLen.toNat) (hout : e.outLen.toNat ≤ 65536) :
    Completes (.records i r e) s (fun t => Returned s t i r e 0 0 s.outboxBytes ∧
      t.rd Reg.stewardMzOutRd = s.rd Reg.stewardMzOutRd + BitVec.ofNat 32 s.outboxBytes.length) := by
  refine (completes_of_applied hcmd hd3 hserved hup halone hno hin (c := .records i r e) rfl rfl rfl 0 0 s.outboxBytes
    (s.outboxBytes.length, 0) (fun _ => hbytes) ?_).mono (fun _ h => ⟨h.1, h.2.2⟩)
  have hrange : rangeBad (.records i r e) = false := rangeBad_of_no_input i r hin hout (by simp)
  rw [← (s.applyStart_passed i r (.records i r e)).outboxBytes i.isLt r.isLt]
  exact (if_neg (by simp [hrange])).trans (State.applyStart_appliedIf _ _ _ _ _ _ _ _)

theorem completes_traps (hbytes : (s.dp.trapQ.flatMap trapBytes).length ≤ e.outLen.toNat) (hout : e.outLen.toNat ≤ 65536) :
    Completes (.traps i r e) s (fun t => Returned s t i r e 0 0 (s.dp.trapQ.flatMap trapBytes) ∧ t.dp.trapQ = []) := by
  refine (completes_of_applied hcmd hd3 hserved hup halone hno hin (c := .traps i r e) rfl rfl rfl 0 0 (s.dp.trapQ.flatMap trapBytes)
    (0, s.dp.trapQ.length) (fun _ => hbytes) ?_).mono (fun _ h => ⟨h.1, h.2.1.trans List.drop_length⟩)
  have hrange : rangeBad (.traps i r e) = false := rangeBad_of_no_input i r hin hout (by simp)
  exact (if_neg (by simp [hrange])).trans (State.applyStart_appliedIf _ _ _ _ _ _ _ _)

/-- A firmware switch that cannot start is refused as busy (R376, R389). -/
theorem completes_fwActivate_busy (hout : e.outLen.toNat ≤ 65536) (hbusy : s.fwBusy = true) :
    Completes (.fwActivate i r e) s (fun t => Returned s t i r e 5 0 []) := by
  refine (completes_of_applied hcmd hd3 hserved hup halone hno hin (c := .fwActivate i r e) rfl rfl rfl 5 0 [] (0, 0)
    (fun _ => Nat.zero_le _) ?_).mono (fun _ h => h.1)
  have hrange : rangeBad (.fwActivate i r e) = false := rangeBad_of_no_input i r hin hout (by simp)
  have hstill : (s.applyStart i r (.fwActivate i r e)).fwBusy = true := by
    have hstat : (s.applyStart i r (.fwActivate i r e)).getF Fld.stewardFwStatSwitching = s.getF Fld.stewardFwStatSwitching :=
      getF_addr _ ((s.applyStart_passed i r _).rd _ (by simp only [Fld.stewardFwStatSwitching, Reg.stewardFwStat, Reg.stewardRingStat]; omega))
    unfold State.fwBusy at hbusy ⊢
    rw [hstat]
    exact hbusy
  exact (if_neg (by simp [hrange])).trans ((if_pos hstill).trans (State.applyStart_appliedIf _ _ _ _ _ _ _ _))

/-- An output past 65,536 bytes ends any command with status 2 (R373, R376). -/
theorem completes_outLen_bad (c : Instr) (hring : ringOf c = some (i.val, r.val)) (hentry : entryOf c = e) (hout : 65536 < e.outLen.toNat)
    (hmay : s.mayApply c = true) : Completes c s (fun t => Returned s t i r e 2 0 []) := by
  refine (completes_of_applied hcmd hd3 hserved hup halone hno hin hring hentry hmay 2 0 [] (0, 0) (fun h => absurd h (by decide)) ?_).mono
    (fun _ h => h.1)
  have hrange : rangeBad c = true := by
    unfold rangeBad
    simp [hentry, hout]
  rw [s.ringApply_of_rangeBad i r c hrange, hentry]

omit hd3 halone hno in
/-- FMAPI waits in APPLY for the FM API command that it carries (R374, R388). -/
theorem completes_fmapi (hout : e.outLen.toNat ≤ 65536) :
    Completes (.fmapi i r e) s (fun t => (t.ep i).cmd = some (.fm r e) ∧
      t.getF (Fld.stewardRingStatSqHead i r) = (s.getF (Fld.stewardRingStatSqHead i r) + 1) % s.sqSize i r) := by
  have hrange : rangeBad (.fmapi i r e) = false := rangeBad_of_no_input i r hin hout (by simp)
  have hrow := State.ringRow_of_no_input (c := .fmapi i r e) hcmd hserved hup rfl hin
  have happly : (s.setCmd i (some (.input r (.fmapi i r e) [] []))).ringApply i r (.fmapi i r e) =
      (s.applyStart i r (.fmapi i r e)).setCmd i (some (.fm r e)) := if_neg (by simp [hrange])
  have hpass := (s.applyStart_passed i r (.fmapi i r e)).setCmd (some (.fm r e))
  have hwaits := congrArg Ep.cmd ((s.applyStart i r (.fmapi i r e)).ep_setCmd_same i (some (.fm r e)))
  rw [happly] at hrow
  generalize (s.applyStart i r (.fmapi i r e)).setCmd i (some (.fm r e)) = t at hrow hpass hwaits
  exact Completes.of_any t (exec_ringRow rfl s) hrow ⟨hwaits, hpass.sqHead⟩

end

/-! ### A read that failed (R376) -/

/-- A failed completion of a command's last read ends the command with status 3. -/
theorem completes_epDmaCompletion_failed (s : State) (i : Inst) (r : Ring) (k : Nat) (c : Instr) (todo : List (Nat × Nat)) (a : Nat)
    (hreads : (s.ep i).reads = [(k, s.getF (Fld.stewardEpCfgGen i), a)]) (hcmd : (s.ep i).cmd = some (.input r c [k] todo))
    (hd3 : (s.ep i).d3Due = false) (hserved : s.epServed i = true) (halone : AloneOn s i r) (hno : (entryOf c).noInt = true) :
    Completes (.epDmaCompletion i k false) s (fun t => Returned s t i r (entryOf c) 3 0 []) := by
  have hfind : (s.ep i).reads.find? (fun x => decide (x.1 = k)) = some (k, s.getF (Fld.stewardEpCfgGen i), a) := by simp [hreads]
  have hbme : s.getF (Fld.stewardEpCfgBme i) ≠ 0 := by simp [(State.present_bme_of_served hserved).2]
  have hdrop : ((s.dropRead i k).ep i).cmd = some (.input r c [k] todo) := by rw [s.dropRead_ep]; exact hcmd
  have harrived : (s.dropRead i k).dmaArrived i k false = ((s.dropRead i k).passEntry i r).applied i r (entryOf c) 3 0 [] := by
    have hwaits : (s.dropRead i k).waitsFor i k = true := by
      unfold State.waitsFor
      rw [hdrop]
      simp
    unfold State.dmaArrived State.fetchFailed
    rw [hwaits, hdrop]
    rfl
  have hend := applied_returned (entryOf c) 3 0 [] (0, 0) (((CmdMoved.refl s i).setEp _ _).passEntry r (t := s.dropRead i k)) hserved hd3 halone hno
    (fun h => absurd h (by decide))
  generalize ((s.dropRead i k).passEntry i r).applied i r (entryOf c) 3 0 [] = t at harrived hend
  refine Completes.of_any t (exec_epDmaCompletion s i k false) ?_ hend.1
  simp only [hfind]
  exact (if_neg (not_not_intro rfl)).trans ((if_neg hbme).trans harrived)

/-- Settles O54: doorbells, RING_CFG, the fetch of an input, APPLY of the commands without one, and the ends of DMA reads, each by the
lemmas of its command. -/
theorem ringsFetchApplyAndReturn : Obligations.RingsFetchApplyAndReturn := by
  unfold Obligations.RingsFetchApplyAndReturn
  refine ⟨?doorbells, ?ringCfg, ?fetch, ?apply, ?noEntry, ?entry, completes_epDmaCompletion_failed⟩
  case doorbells =>
    intro s i r v hpres hd
    exact ⟨completes_sqTailDoorbell_refused s i r v hpres hd, completes_cqHeadDoorbell_refused s i r v hpres hd,
      completes_sqTailDoorbell_taken s i r v hd, completes_cqHeadDoorbell_taken s i r v hd⟩
  case ringCfg =>
    intro s i r v
    refine ⟨fun habs => ⟨?_, ?_, ?_⟩, fun hon hen => ?_, completes_ringCfgWrite_of_stopped s i r v, completes_ringCfgWrite_of_started s i r v⟩
    · exact exec_of_act (f := (·.sqTailDoor i r v)) s rfl (State.doorbell_of_absent habs) rfl rfl
    · exact exec_of_act (f := (·.cqHeadDoor i r v)) s rfl (State.doorbell_of_absent habs) rfl rfl
    · exact exec_of_act (f := (·.ringCfgWrite i r v)) s rfl (s.ringCfgWrite_of_absent i r v habs) rfl rfl
    · exact exec_of_act (f := (·.ringCfgWrite i r v)) s rfl (s.ringCfgWrite_of_running i r v hon hen) rfl rfl
  case fetch =>
    intro s c i r hring
    exact ⟨fun hcmd => exec_of_act s (exec_ringRow hring s) (State.ringRow_of_no_entry hcmd) rfl rfl,
      completes_ringRow_of_one_read s c i r hring⟩
  case apply =>
    intro s i r e hcmd hd3 hserved hup halone hno hin
    exact ⟨completes_ringNop hcmd hd3 hserved hup halone hno hin, completes_records hcmd hd3 hserved hup halone hno hin,
      completes_traps hcmd hd3 hserved hup halone hno hin, completes_fmapi hcmd hserved hup hin,
      completes_fwActivate_busy hcmd hd3 hserved hup halone hno hin, completes_outLen_bad hcmd hd3 hserved hup halone hno hin⟩
  case noEntry =>
    intro s i k ok hnone
    exact ⟨exec_epCompletionTimeout_of_no_entry hnone, completes_epDmaCompletion_late ok hnone⟩
  case entry =>
    intro s i k g a ok hfind
    exact ⟨exec_epCompletionTimeout_of_early hfind, completes_gleaned hfind ok, completes_epDmaCompletion_discarded hfind ok,
      completes_epCompletionTimeout_unawaited hfind⟩

end Sys2Proof.Machine
end

section
/-! SUPPORT. Bus Master Enable, function reset and D-states of the steward endpoint's instances (R381 to R383). -/

open Sys2Proof Sys2Proof.Machine

namespace Sys2Proof.Machine

/-! ### Bus Master Enable (R381) -/

/-- An instance whose command in FETCH is abandoned. -/
def Ep.fetchAbandoned (e : Ep) : Ep :=
  match e.cmd with
  | some c => if c.fetching then { e with cmd := none } else e
  | none => e

theorem State.bmeClear_regs {s : State} {i : Nat} (h : s.epPresent i = true) :
    (s.bmeClear i).regs = (s.setF (Fld.stewardEpCfgBme i) 0).regs := by
  unfold State.bmeClear
  rw [if_neg (by simp [h])]
  dsimp only
  split
  · split <;> rfl
  · rfl

theorem State.bmeClear_ep {s : State} {i : Nat} (h : s.epPresent i = true) : (s.bmeClear i).ep i = (s.ep i).fetchAbandoned := by
  unfold State.bmeClear Ep.fetchAbandoned
  rw [if_neg (by simp [h])]
  dsimp only
  rw [State.setF_ep]
  cases (s.ep i).cmd with
  | none => rfl
  | some c =>
    cases hfetch : c.fetching with
    | true => simp only [hfetch, if_true, State.ep_setCmd_same, State.setF_ep]
    | false => simp only [hfetch, Bool.false_eq_true, if_false, State.setF_ep]

theorem completes_busMasterEnableClear (s : State) (i : Inst) (h : s.epPresent i = true) :
    Completes (.busMasterEnableClear i) s (fun t => t.getF (Fld.stewardEpCfgBme i) = 0 ∧ OnlyFields s t [Fld.stewardEpCfgBme i] ∧
      t.ep i = (s.ep i).fetchAbandoned) := by
  have hregs := State.bmeClear_regs h
  have hep := State.bmeClear_ep h
  have hzero : (s.bmeClear i).getF (Fld.stewardEpCfgBme i) = 0 :=
    (getF_regs hregs _).trans (getF_fit _ _ _ (by simp [Fld.stewardEpCfgBme]) (by simp [Fld.stewardEpCfgBme]))
  have honly : OnlyFields s (s.bmeClear i) [Fld.stewardEpCfgBme i] :=
    (OnlyFields.setF s _ 0 _ (List.mem_singleton.mpr rfl)).of_regs hregs
  obtain ⟨hserve, hkeep⟩ := (s.bmeClear i).serve_keeps
  refine Completes.of_any (s.bmeClear i).serve (f := fun s => (s.bmeClear i).serve) rfl rfl
    ⟨(getF_regs hserve _).trans hzero, honly.of_regs hserve, (hkeep i (State.epServed_of_bme_zero hzero)).trans hep⟩

/-! ### Function reset of an instance (R382) -/

/-- A part of a field that was set to 0 reads 0. -/
theorem fieldGet_fieldPut_zero (w : Word) (lo n lo' n' : Nat) (hlo : lo ≤ lo') (hhi : lo' + n' ≤ lo + n) (h : lo + n ≤ 32) :
    fieldGet (fieldPut w lo n 0) lo' n' = 0 := by
  apply Nat.eq_of_testBit_eq
  intro b
  rw [testBit_fieldGet, getLsbD_fieldPut, Nat.zero_testBit]
  by_cases hb : b < n'
  · rw [if_pos (by omega), Nat.zero_testBit, Bool.and_false]
  · simp [hb]

/-- A table with a range cleared. -/
theorem Tbl.get_clear {α : Type} (d : Nat → α) (t : Tbl α) (base len k : Nat) :
    Tbl.get d (Tbl.clear t base len) k = if base ≤ k ∧ k < base + len then d k else Tbl.get d t k := by
  unfold Tbl.clear
  rw [Tbl.get_filter d t (fun a => !decide (base ≤ a ∧ a < base + len)) k]
  by_cases h : base ≤ k ∧ k < base + len <;> simp [h]

/-- The registers of an instance at a function reset: its block and its rings take their reset values, but WAKE_MASK, LP and PRESENT;
GEN is `g`, and `old` entries more are gleaned. -/
def State.epRegsReset (s : State) (i : Nat) (mask cfg : Word) (g old : Nat) : State :=
  (((({ s with regs := Tbl.clear (Tbl.clear s.regs (Reg.stewardEpCfg i) 0x100) (Reg.stewardRingSqBaseLo i 0) 0x200 } : State).wr
    (Reg.stewardWakeMask i) mask).wr (Reg.stewardEpCfg i) (fieldPut cfg 7 3 0)).setF (Fld.stewardEpCfgGen i) g).addSat
    (Fd.whole (Reg.stewardEpGlean i)) old

theorem State.epRegsReset_epCfg (s : State) (i : Nat) (mask cfg : Word) (g old : Nat) :
    (s.epRegsReset i mask cfg g old).rd (Reg.stewardEpCfg i) = fieldPut (fieldPut cfg 7 3 0) 16 16 g := by
  have hne : Reg.stewardEpCfg i ≠ Reg.stewardEpGlean i := by simp only [Reg.stewardEpCfg, Reg.stewardEpGlean]; omega
  unfold State.epRegsReset State.addSat
  rw [State.rd_setF_ne _ _ _ _ hne]
  refine (State.rd_wr_same _ _ _).trans ?_
  rw [show (Fld.stewardEpCfgGen i).addr = Reg.stewardEpCfg i from rfl, State.rd_wr_same]
  rfl

/-- The rings' registers take their reset values. -/
theorem State.epRegsReset_ringCfg (s : State) (i r : Nat) (hr : r < 16) (mask cfg : Word) (g old : Nat) :
    (s.epRegsReset i mask cfg g old).rd (Reg.stewardRingCfg i r) = regReset (Reg.stewardRingCfg i r) := by
  have hglean : Reg.stewardRingCfg i r ≠ Reg.stewardEpGlean i := by simp only [Reg.stewardRingCfg, Reg.stewardEpGlean]; omega
  have hcfg : Reg.stewardRingCfg i r ≠ Reg.stewardEpCfg i := by simp only [Reg.stewardRingCfg, Reg.stewardEpCfg]; omega
  have hmask : Reg.stewardRingCfg i r ≠ Reg.stewardWakeMask i := by simp only [Reg.stewardRingCfg, Reg.stewardWakeMask]; omega
  have hin : Reg.stewardRingSqBaseLo i 0 ≤ Reg.stewardRingCfg i r ∧ Reg.stewardRingCfg i r < Reg.stewardRingSqBaseLo i 0 + 0x200 := by
    simp only [Reg.stewardRingCfg, Reg.stewardRingSqBaseLo]; omega
  unfold State.epRegsReset State.addSat
  rw [State.rd_setF_ne _ _ _ _ hglean, State.rd_setF_ne _ _ _ _ hcfg, State.rd_wr_ne _ _ _ _ hcfg, State.rd_wr_ne _ _ _ _ hmask]
  exact (Tbl.get_clear _ _ _ _ _).trans (if_pos hin)

/-- EN of a ring is 0 at reset (R394). -/
theorem ringCfg_reset_en (i r : Nat) (hi : i < 2) (hr : r < 16) : fieldGet (regReset (Reg.stewardRingCfg i r)) 8 1 = 0 := by
  have hall : ∀ i < 2, ∀ r < 16, fieldGet (regReset (Reg.stewardRingCfg i r)) 8 1 = 0 := by decide +kernel
  exact hall i hi r hr

/-- An instance after a function reset: PME_En and PME_Status stay, and the reads that do not hold the new generation. -/
def Ep.afterReset (e : Ep) (g : Nat) : Ep :=
  { pmeEn := e.pmeEn, pmeStat := e.pmeStat, reads := e.reads.filter (fun x => decide (x.2.1 ≠ g)) }

/-- A function reset deasserts INTA, and then resets the registers and the instance. -/
theorem State.epReset_eq {s : State} {i : Nat} (h : s.epPresent i = true) : ∃ (u : State) (old : Nat),
    s.epReset i = ((u.epRegsReset i (s.rd (Reg.stewardWakeMask i)) (s.rd (Reg.stewardEpCfg i))
      ((s.getF (Fld.stewardEpCfgGen i) + 1) % 65536) old).epCfgReset i).setEp i
      ((s.ep i).afterReset ((s.getF (Fld.stewardEpCfgGen i) + 1) % 65536)) := by
  refine ⟨if (s.ep i).inta then s.sendMsg i (.intx i false) [] else s,
    ((s.ep i).reads.filter (fun x => decide (x.2.1 = (s.getF (Fld.stewardEpCfgGen i) + 1) % 65536))).length, ?_⟩
  unfold State.epReset State.epRegsReset Ep.afterReset
  rw [if_neg (by simp [h])]

theorem completes_epFunctionReset (s : State) (i : Inst) (h : s.epPresent i = true) :
    Completes (.epFunctionReset i) s (fun t => t.getF (Fld.stewardEpCfgGen i) = (s.getF (Fld.stewardEpCfgGen i) + 1) % 65536 ∧
      t.getF (Fld.stewardEpCfgBme i) = 0 ∧ t.getF (Fld.stewardEpCfgDstate i) = 0 ∧ t.getF (Fld.stewardEpCfgPresent i) = 1 ∧
      (∀ r, r < 16 → t.getF (Fld.stewardRingCfgEn i r) = 0) ∧
      t.ep i = (s.ep i).afterReset ((s.getF (Fld.stewardEpCfgGen i) + 1) % 65536)) := by
  obtain ⟨u, old, heq⟩ := State.epReset_eq h
  have hpres : fieldGet (s.rd (Reg.stewardEpCfg i)) 6 1 = 1 := of_decide_eq_true h
  obtain ⟨g, hg⟩ : ∃ g, g = (s.getF (Fld.stewardEpCfgGen i) + 1) % 65536 := ⟨_, rfl⟩
  have hlt : g < 2 ^ 16 := by omega
  rw [← hg] at heq ⊢
  have hcfg := u.epRegsReset_epCfg i (s.rd (Reg.stewardWakeMask i)) (s.rd (Reg.stewardEpCfg i)) g old
  have hring := fun r hr => u.epRegsReset_ringCfg i r hr (s.rd (Reg.stewardWakeMask i)) (s.rd (Reg.stewardEpCfg i)) g old
  generalize u.epRegsReset i (s.rd (Reg.stewardWakeMask i)) (s.rd (Reg.stewardEpCfg i)) g old = w at heq hcfg hring
  have hregs : (s.epReset i).regs = w.regs := by rw [heq]; rfl
  have hep : (s.epReset i).ep i = (s.ep i).afterReset g := by rw [heq]; exact State.ep_setEp_same _ _ _
  have hfield : ∀ lo n, w.getF ⟨Reg.stewardEpCfg i, lo, n⟩ = fieldGet (fieldPut (fieldPut (s.rd (Reg.stewardEpCfg i)) 7 3 0) 16 16 g) lo n :=
    fun lo n => congrArg (fieldGet · lo n) hcfg
  have hgen : w.getF (Fld.stewardEpCfgGen i) = g := by
    refine (hfield 16 16).trans ?_
    rw [fieldGet_fieldPut _ _ _ _ (by decide), Nat.mod_eq_of_lt hlt]
  have hbme : w.getF (Fld.stewardEpCfgBme i) = 0 := by
    refine (hfield 7 1).trans ?_
    rw [fieldGet_fieldPut_ne _ _ _ _ _ _ (by decide)]
    exact fieldGet_fieldPut_zero _ _ _ _ _ (by decide) (by decide) (by decide)
  have hdstate : w.getF (Fld.stewardEpCfgDstate i) = 0 := by
    refine (hfield 8 2).trans ?_
    rw [fieldGet_fieldPut_ne _ _ _ _ _ _ (by decide)]
    exact fieldGet_fieldPut_zero _ _ _ _ _ (by decide) (by decide) (by decide)
  have hpresent : w.getF (Fld.stewardEpCfgPresent i) = 1 := by
    refine (hfield 6 1).trans ?_
    rw [fieldGet_fieldPut_ne _ _ _ _ _ _ (by decide), fieldGet_fieldPut_ne _ _ _ _ _ _ (by decide)]
    exact hpres
  have hen : ∀ r, r < 16 → w.getF (Fld.stewardRingCfgEn i r) = 0 := fun r hr =>
    (congrArg (fieldGet · 8 1) (hring r hr)).trans (ringCfg_reset_en i r i.isLt hr)
  obtain ⟨hserve, hkeep⟩ := (s.epReset i).serve_keeps
  have hget : ∀ f, (s.epReset i).serve.getF f = w.getF f := fun f => (getF_regs hserve f).trans (getF_regs hregs f)
  have hoff : (s.epReset i).epServed i = false := State.epServed_of_bme_zero ((getF_regs hregs _).trans hbme)
  exact Completes.of_any (s.epReset i).serve (f := fun s => (s.epReset i).serve) rfl rfl
    ⟨(hget _).trans hgen, (hget _).trans hbme, (hget _).trans hdstate, (hget _).trans hpresent, fun r hr => (hget _).trans (hen r hr),
      (hkeep i hoff).trans hep⟩

/-! ### D-states (R383) -/

theorem State.setD_of_absent (s : State) (i : Nat) (d : DState) (h : s.epPresent i = false) : s.setD i d = s := if_pos (by simp [h])

theorem State.setD_d3hot_of_idle {s : State} {i : Nat} (h : s.epPresent i = true) (hcmd : (s.ep i).cmd = none) :
    s.setD i .d3hot = s.setF (Fld.stewardEpCfgDstate i) 3 := by
  simp [State.setD, h, hcmd]

/-- A command in APPLY is done first. -/
theorem State.setD_d3hot_of_applying {s : State} {i : Nat} {c : RingPhase} (h : s.epPresent i = true) (hcmd : (s.ep i).cmd = some c)
    (happly : c.applying = true) : s.setD i .d3hot = s.setEp i { s.ep i with d3Due := true } := by
  simp [State.setD, h, hcmd, happly]

/-- An instance with no command, no Bus Master Enable and INTA not asserted held nothing. -/
theorem State.epResume_of_idle {s : State} {i : Nat} (hcmd : (s.ep i).cmd = none) (hbme : s.getF (Fld.stewardEpCfgBme i) = 0)
    (hinta : (s.ep i).inta = false) : s.epResume i = s.serve := by
  have hret : s.finishRet i = s := by
    unfold State.finishRet
    rw [hcmd]
  have hpoll : s.ringPoll i = s := by
    unfold State.ringPoll
    rw [hcmd]
  unfold State.epResume
  rw [s.signalAll_of_mayInterrupt_false i (State.mayInterrupt_of_bme_zero hbme), s.intaUpdate_of_not_asserted i hinta, hret, hpoll]

theorem completes_dStateChange_d0 (s : State) (i : Inst) (h : s.epPresent i = true) (hcmd : (s.ep i).cmd = none)
    (hbme : s.getF (Fld.stewardEpCfgBme i) = 0) (hinta : (s.ep i).inta = false) :
    Completes (.dStateChange i .d0) s (fun t => t.getF (Fld.stewardEpCfgDstate i) = 0 ∧ OnlyFields s t [Fld.stewardEpCfgDstate i] ∧
      t.ep i = { s.ep i with d3Due := false }) := by
  obtain ⟨u, hu⟩ : ∃ u, u = (s.setEp i { s.ep i with d3Due := false }).setF (Fld.stewardEpCfgDstate i) 0 := ⟨_, rfl⟩
  have hep : u.ep i = { s.ep i with d3Due := false } := by rw [hu]; exact State.ep_setEp_same _ _ _
  have hzero : u.getF (Fld.stewardEpCfgDstate i) = 0 := by
    rw [hu]; exact getF_fit _ _ _ (by simp [Fld.stewardEpCfgDstate]) (by simp [Fld.stewardEpCfgDstate])
  have hstill : u.getF (Fld.stewardEpCfgBme i) = 0 := by
    rw [hu]
    exact (State.getF_setF_ne _ _ _ _ (.inr (by simp [Fld.stewardEpCfgBme, Fld.stewardEpCfgDstate]))).trans hbme
  have honly : OnlyFields s u [Fld.stewardEpCfgDstate i] := by
    rw [hu]
    exact ((OnlyFields.refl s _).of_regs (u := s.setEp i { s.ep i with d3Due := false }) rfl).stepF _ _ (List.mem_singleton.mpr rfl)
  have hset : s.setD i .d0 = u.serve := by
    have hresume : u.epResume i = u.serve := State.epResume_of_idle (by rw [hep]; exact hcmd) hstill (by rw [hep]; exact hinta)
    rw [← hresume, hu]
    exact if_neg (by simp [h])
  obtain ⟨hserve, hkeep⟩ := u.serve_keeps
  exact Completes.of_any u.serve (f := (·.setD i .d0)) rfl hset
    ⟨(getF_regs hserve _).trans hzero, honly.of_regs hserve, (hkeep i (State.epServed_of_bme_zero hstill)).trans hep⟩

end Sys2Proof.Machine
end

section
/-! SUPPORT. Interrupt sources, mechanisms and wake events of an instance (R377, R378, R384), MCTP packets (R385 to R387), and the statement
about the instances. -/

open Sys2Proof Sys2Proof.Machine

namespace Sys2Proof.Machine

/-! ### A source becomes pending (R377) -/

/-- The part of INT_STAT that holds a source: the rings' completions, or the other sources. -/
def srcField (i src : Nat) : Fd := if src < 16 then Fld.stewardIntStatCq i else Fld.stewardIntStatEvt i

theorem srcField_addr (i src : Nat) : (srcField i src).addr = Reg.stewardIntStat i := by
  unfold srcField
  split <;> rfl

/-- The 22 sources have a bit each, within the register. -/
theorem srcField_width (i src : Nat) (h : src < 22) :
    src % 16 < (srcField i src).width ∧ (srcField i src).lo + (srcField i src).width ≤ 32 := by
  unfold srcField
  split <;> simp only [Fld.stewardIntStatCq, Fld.stewardIntStatEvt] <;> omega

/-- A source is pending where its bit is 1. -/
theorem State.srcPending_eq (s : State) (i src : Nat) (h : src < 22) :
    s.srcPending i src = Nat.testBit (s.getF (srcField i src)) (src % 16) := by
  unfold State.srcPending srcField
  split
  · rw [Nat.mod_eq_of_lt ‹_›]
  · rw [show src % 16 = src - 16 by omega]

/-- INT_STAT with a source's bit set. -/
def State.srcSet (s : State) (i src : Nat) : State :=
  s.setF (srcField i src) (s.getF (srcField i src) ||| (1 <<< (src % 16)))

theorem State.srcSet_rd_ne (s : State) (i src a : Nat) (h : a ≠ Reg.stewardIntStat i) : (s.srcSet i src).rd a = s.rd a :=
  State.rd_setF_ne _ _ _ _ (by rw [srcField_addr]; exact h)

theorem State.srcSet_getF_ne (s : State) (i src : Nat) (g : Fd) (h : g.addr ≠ Reg.stewardIntStat i) :
    (s.srcSet i src).getF g = s.getF g := getF_addr g (s.srcSet_rd_ne i src _ h)

/-- The source is pending, and every other one as before. -/
theorem State.srcSet_srcPending (s : State) (i src x : Nat) (hsrc : src < 22) (hx : x < 22) :
    (s.srcSet i src).srcPending i x = (decide (x = src) || s.srcPending i x) := by
  obtain ⟨hbit, hwidth⟩ := srcField_width i src hsrc
  rw [State.srcPending_eq _ _ _ hx, State.srcPending_eq _ _ _ hx]
  by_cases hsame : srcField i x = srcField i src
  · have hfit : s.getF (srcField i src) ||| (1 <<< (src % 16)) < 2 ^ (srcField i src).width := by
      refine Nat.or_lt_two_pow (s.getF_lt _) ?_
      rw [Nat.one_shiftLeft]
      exact Nat.pow_lt_pow_right (by decide) hbit
    have hmod : x % 16 = src % 16 ↔ x = src := by
      unfold srcField at hsame
      split at hsame <;> split at hsame <;> simp [Fld.stewardIntStatCq, Fld.stewardIntStatEvt] at hsame <;> omega
    have hget : (s.srcSet i src).getF (srcField i src) = s.getF (srcField i src) ||| (1 <<< (src % 16)) := getF_fit _ _ _ hwidth hfit
    rw [hsame, hget, Nat.testBit_or, Nat.one_shiftLeft, Nat.testBit_two_pow, Bool.or_comm]
    congr 1
    exact decide_eq_decide.mpr (eq_comm.trans hmod)
  · have hne : x ≠ src := fun h => hsame (by rw [h])
    have happart : (srcField i x).addr ≠ (srcField i src).addr ∨ (srcField i x).lo + (srcField i x).width ≤ (srcField i src).lo ∨
        (srcField i src).lo + (srcField i src).width ≤ (srcField i x).lo := by
      unfold srcField at hsame ⊢
      split <;> split <;> simp_all [Fld.stewardIntStatCq, Fld.stewardIntStatEvt]
    rw [show (s.srcSet i src).getF (srcField i x) = s.getF (srcField i x) from State.getF_setF_ne _ _ _ _ happart]
    simp [hne]

/-! ### Signals and wake events leave the registers -/

theorem State.signal_regs (s : State) (i src : Nat) : (s.signal i src).regs = s.regs := by
  unfold State.signal
  split
  · dsimp only
    split
    · split
      · exact (s.sendMsi_made _ _).regs
      · rfl
    · split
      · rfl
      · exact (s.sendMsi_made _ _).regs
    · split
      · rfl
      · exact (State.sendMsg_made _ _ _ _).regs
  · rfl

theorem State.sendPme_regs (s : State) (i : Nat) : (s.sendPme i).regs = s.regs := by
  unfold State.sendPme
  split
  · exact (State.sendMsg_made _ _ _ _).regs
  · rfl

theorem State.wake_regs (s : State) (i : Nat) : (s.wake i).regs = s.regs := by
  unfold State.wake
  dsimp only
  split
  · split
    · rfl
    · split
      · exact State.sendPme_regs _ _
      · rfl
  · rfl

/-! ### Wake events (R384) -/

theorem State.pendSource_of_absent (s : State) (i src : Nat) (h : s.epPresent i = false) : s.pendSource i src = s := if_pos (by simp [h])

/-- A source of an instance that is present becomes pending and is signalled; where it was not pending and WAKE_MASK enables it, it wakes. -/
theorem State.pendSource_of_present {s : State} {i src : Nat} (h : s.epPresent i = true) :
    s.pendSource i src = if (!s.srcPending i src && Nat.testBit (s.getF (Fld.stewardWakeMaskMask i)) src) = true
      then ((s.srcSet i src).signal i src).wake i else (s.srcSet i src).signal i src := by
  have hmask : ((s.srcSet i src).signal i src).getF (Fld.stewardWakeMaskMask i) = s.getF (Fld.stewardWakeMaskMask i) :=
    (getF_regs (State.signal_regs _ _ _) _).trans
      (s.srcSet_getF_ne i src _ (by simp only [Fld.stewardWakeMaskMask, Reg.stewardWakeMask, Reg.stewardIntStat]; omega))
  rw [← hmask]
  exact if_neg (by simp [h])

theorem State.pendSource_regs {s : State} {i src : Nat} (h : s.epPresent i = true) : (s.pendSource i src).regs = (s.srcSet i src).regs := by
  rw [State.pendSource_of_present h]
  split
  · exact (State.wake_regs _ _).trans (State.signal_regs _ _ _)
  · exact State.signal_regs _ _ _

/-- WAKE_EVENT is its source's becoming pending. -/
theorem Completes.of_pendSource {s : State} {i : Inst} {k : Fin 32} {P : State → Prop} (hk : k.val < 22) (u : State)
    (h : s.pendSource i k = u) (hp : P { u with pending := s.pending, tick := s.tick }) : Completes (.wakeEvent i k) s P :=
  Completes.of_any u (f := (·.when (decide (k.val < 22)) (·.pendSource i.val k.val))) rfl ((if_pos (decide_eq_true hk)).trans h) hp

/-- Where interrupts may be sent is not changed by a pending source. -/
theorem State.srcSet_mayInterrupt (s : State) (i src : Nat) : (s.srcSet i src).mayInterrupt i = s.mayInterrupt i := by
  have hcfg : ∀ g : Fd, g.addr = Reg.stewardEpCfg i → (s.srcSet i src).getF g = s.getF g := fun g hg =>
    s.srcSet_getF_ne i src g (by rw [hg]; simp only [Reg.stewardEpCfg, Reg.stewardIntStat]; omega)
  unfold State.mayInterrupt
  rw [hcfg (Fld.stewardEpCfgBme i) rfl, hcfg (Fld.stewardEpCfgDstate i) rfl]

section
variable {s : State} {i : Inst} {k : Fin 32} (hk : k.val < 22) (hpres : s.epPresent i = true)
include hk hpres

/-- The source of a wake event is pending, and no other source changes. -/
theorem completes_wakeEvent_pending : Completes (.wakeEvent i k) s (fun t => t.srcPending i k.val = true ∧
    (∀ x, x < 22 → x ≠ k.val → t.srcPending i x = s.srcPending i x)) := by
  have hregs := State.pendSource_regs (src := k.val) hpres
  have hpend : ∀ x, x < 22 → (s.pendSource i k.val).srcPending i x = (decide (x = k.val) || s.srcPending i x) := by
    intro x hx
    rw [← s.srcSet_srcPending i k.val x hk hx, State.srcPending_eq _ _ _ hx, State.srcPending_eq _ _ _ hx, getF_regs hregs]
  exact Completes.of_pendSource hk _ rfl
    ⟨(hpend k.val hk).trans (by simp), fun x hx hne => (hpend x hx).trans (by simp [hne])⟩

/-- A source that WAKE_MASK does not enable, where no interrupt may be sent, only shows in INT_STAT. -/
theorem completes_wakeEvent_silent (hmay : s.mayInterrupt i = false) (hmask : Nat.testBit (s.getF (Fld.stewardWakeMaskMask i)) k.val = false) :
    Completes (.wakeEvent i k) s (fun t => t = { s with regs := t.regs }) := by
  have hpend : s.pendSource i k.val = s.srcSet i k.val := by
    rw [State.pendSource_of_present hpres, State.signal_of_mayInterrupt_false _ _ _ ((s.srcSet_mayInterrupt i k.val).trans hmay), hmask]
    exact if_neg (by simp)
  exact Completes.of_pendSource hk _ hpend rfl

/-- Under MSI-X an enabled source whose vector is not masked sends its vector (R378). -/
theorem completes_wakeEvent_msix (hmay : s.mayInterrupt i = true) (hen : s.srcEnabled i k = true) (hmech : (s.ep i).mech = .msix)
    (hvec : Tbl.get (fun _ => false) (s.ep i).umask (s.getF (Fld.stewardIntMapVector i k)) = true)
    (hmask : Nat.testBit (s.getF (Fld.stewardWakeMaskMask i)) k.val = false) :
    Completes (.wakeEvent i k) s (fun t => t.out = .msi i (s.getF (Fld.stewardIntMapVector i k)) :: s.out) := by
  have hmap : ∀ g : Fd, g.addr = Reg.stewardIntMap i k → (s.srcSet i k.val).getF g = s.getF g := fun g hg =>
    s.srcSet_getF_ne i k.val g (by rw [hg]; simp only [Reg.stewardIntMap, Reg.stewardIntStat]; omega)
  have hready : ((s.srcSet i k.val).mayInterrupt i && (s.srcSet i k.val).srcEnabled i k && (s.srcSet i k.val).srcPending i k) = true := by
    rw [s.srcSet_mayInterrupt, hmay, s.srcSet_srcPending i k.val k.val hk hk]
    unfold State.srcEnabled at hen ⊢
    rw [hmap (Fld.stewardIntMapEn i k) rfl, hen]
    simp
  have hsignal : (s.srcSet i k.val).signal i k.val = (s.srcSet i k.val).sendMsi i (s.getF (Fld.stewardIntMapVector i k)) := by
    unfold State.signal
    rw [if_pos hready, hmap (Fld.stewardIntMapVector i k) rfl, show (s.srcSet i k.val).ep i = s.ep i from rfl]
    simp only [hmech, hvec, if_true]
  have hpend : s.pendSource i k.val = (s.srcSet i k.val).sendMsi i (s.getF (Fld.stewardIntMapVector i k)) := by
    rw [State.pendSource_of_present hpres, hsignal, hmask]
    exact if_neg (by simp)
  have hout := ((s.srcSet i k.val).sendMsi_made i (s.getF (Fld.stewardIntMapVector i k))).out
  exact Completes.of_pendSource hk _ hpend hout

end

/-! ### PM_PME (R384) -/

/-- An instance that sent PM_PME in tick `n`. -/
def Ep.pmeSent (e : Ep) (n : Nat) : Ep := { e with pmeDue := false, pmeAt := n }

/-- With the link in L0, PM_PME goes upstream. -/
theorem State.sendPme_of_inL0 {s : State} {i : Nat} (h : s.inL0 (s.epLp i) = true) :
    (s.sendPme i).out = .pme i :: s.out ∧ (s.sendPme i).ep i = (s.ep i).pmeSent s.tick ∧ (s.sendPme i).regs = s.regs := by
  have hmade := (s.setEp i ((s.ep i).pmeSent s.tick)).sendMsg_made i (.pme i) []
  have hsend : s.sendPme i = (s.setEp i ((s.ep i).pmeSent s.tick)).sendMsg i (.pme i) [] := if_pos h
  rw [hsend]
  exact ⟨hmade.out, (hmade.ep i).trans (State.ep_setEp_same _ _ _), hmade.regs⟩

/-- Elsewhere it waits. -/
theorem State.sendPme_of_not_inL0 {s : State} {i : Nat} (h : s.inL0 (s.epLp i) = false) :
    s.sendPme i = s.setEp i { s.ep i with pmeDue := true } := if_neg (by simp [h])

/-- A wake event in D3hot, with the link up, is PM_PME with PME_Status set. -/
theorem State.wake_of_d3hot {s : State} {i : Nat} (hen : (s.ep i).pmeEn = true) (hd : s.getF (Fld.stewardEpCfgDstate i) = 3)
    (hup : s.dllUp (s.epLp i) = true) : s.wake i = (s.setEp i { s.ep i with pmeStat := true }).sendPme i := by
  have hwire : (s.setEp i { s.ep i with pmeStat := true }).wakeN i = false := by
    unfold State.wakeN
    rw [show (s.setEp i { s.ep i with pmeStat := true }).dllUp ((s.setEp i { s.ep i with pmeStat := true }).epLp i) =
      s.dllUp (s.epLp i) from rfl, hup]
    simp
  unfold State.wake
  rw [if_pos hen]
  dsimp only
  rw [if_neg (by simp [hwire])]
  exact if_pos hd

theorem completes_wakeEvent_pme (s : State) (i : Inst) (k : Fin 32) (hk : k.val < 22) (hpres : s.epPresent i = true)
    (hmay : s.mayInterrupt i = false) (hmask : Nat.testBit (s.getF (Fld.stewardWakeMaskMask i)) k.val = true)
    (hwas : s.srcPending i k = false) (hen : (s.ep i).pmeEn = true) (hd : s.getF (Fld.stewardEpCfgDstate i) = 3)
    (hup : s.dllUp (s.epLp i) = true) (hL0 : s.inL0 (s.epLp i) = true) :
    Completes (.wakeEvent i k) s (fun t => t.out = .pme i :: s.out ∧
      t.ep i = { s.ep i with pmeStat := true, pmeDue := false, pmeAt := s.tick }) := by
  obtain ⟨u, hu⟩ : ∃ u, u = s.srcSet i k.val := ⟨_, rfl⟩
  have hep : u.ep i = s.ep i := by rw [hu]; rfl
  have hget : ∀ g : Fd, g.addr ≠ Reg.stewardIntStat i → u.getF g = s.getF g := by rw [hu]; exact s.srcSet_getF_ne i k.val
  have hlp : u.epLp i = s.epLp i := hget _ (by simp only [Fld.stewardEpCfgLp, Reg.stewardEpCfg, Reg.stewardIntStat]; omega)
  have hlt : s.epLp i < 64 := s.getF_lt (Fld.stewardEpCfgLp i)
  have hport : ∀ g : Fd, g.addr = Reg.portLpStat (s.epLp i) → u.getF g = s.getF g := fun g hg =>
    hget g (by rw [hg]; simp only [Reg.portLpStat, Reg.stewardIntStat]; omega)
  have hdllUp : u.dllUp (u.epLp i) = true := by
    unfold State.dllUp at hup ⊢
    rw [hlp, hport (Fld.portLpStatDllUp _) rfl]
    exact hup
  have hinL0 : u.inL0 (u.epLp i) = true := by
    unfold State.inL0 at hL0 ⊢
    rw [hlp, hport (Fld.portLpStatLtssm _) rfl]
    exact hL0
  have hd3 : u.getF (Fld.stewardEpCfgDstate i) = 3 :=
    (hget _ (by simp only [Fld.stewardEpCfgDstate, Reg.stewardEpCfg, Reg.stewardIntStat]; omega)).trans hd
  have hpend : s.pendSource i k.val = (u.setEp i { u.ep i with pmeStat := true }).sendPme i := by
    rw [State.pendSource_of_present hpres, if_pos (by simp [hwas, hmask]), ← hu,
      u.signal_of_mayInterrupt_false i _ (by rw [hu]; exact (s.srcSet_mayInterrupt i k.val).trans hmay)]
    exact State.wake_of_d3hot (by rw [hep]; exact hen) hd3 hdllUp
  obtain ⟨hout, hsent, -⟩ := State.sendPme_of_inL0 (s := u.setEp i { u.ep i with pmeStat := true }) hinL0
  refine Completes.of_pendSource hk _ hpend ⟨hout.trans (by rw [hu]; rfl), hsent.trans ?_⟩
  rw [State.ep_setEp_same, hep, hu]
  rfl

/-- PM_PME is due again. -/
def State.pmeAgain (s : State) (i : Nat) : Bool :=
  s.epPresent i && (s.ep i).pmeStat && (s.ep i).pmeEn && decide (s.getF (Fld.stewardEpCfgDstate i) = 3) &&
    s.aonPast (s.ep i).pmeAt 128000000

theorem exec_pmPmeResend_of_not_due {s : State} {i : Inst} (h : s.pmeAgain i = false) : exec (.pmPmeResend i) s = .next s :=
  exec_of_act s (f := fun s => s.when (s.pmeAgain i) (·.sendPme i)) rfl (if_neg (by simp [h])) rfl rfl

section
variable {s : State} {i : Inst} (hpres : s.epPresent i = true) (hstat : (s.ep i).pmeStat = true) (hen : (s.ep i).pmeEn = true)
  (hd : s.getF (Fld.stewardEpCfgDstate i) = 3)
include hpres hstat hen hd

/-- In D3hot with PME_Status set, only time decides. -/
theorem State.pmeAgain_of_d3hot : s.pmeAgain i = s.aonPast (s.ep i).pmeAt 128000000 := by
  simp [State.pmeAgain, hpres, hstat, hen, hd]

theorem completes_pmPmeResend_sent (hpast : s.aonPast (s.ep i).pmeAt 128000000 = true) (hL0 : s.inL0 (s.epLp i) = true) :
    Completes (.pmPmeResend i) s (fun t =>
      t.out = .pme i :: s.out ∧ t.ep i = { s.ep i with pmeDue := false, pmeAt := s.tick } ∧ t.regs = s.regs) :=
  Completes.of_any (s.sendPme i) (f := fun s => s.when (s.pmeAgain i) (·.sendPme i)) rfl
    (if_pos ((State.pmeAgain_of_d3hot hpres hstat hen hd).trans hpast)) (State.sendPme_of_inL0 hL0)

theorem completes_pmPmeResend_waits (hpast : s.aonPast (s.ep i).pmeAt 128000000 = true) (hL0 : s.inL0 (s.epLp i) = false) :
    Completes (.pmPmeResend i) s (fun t => t = s.setEp i { s.ep i with pmeDue := true }) :=
  Completes.of_eq (s.setEp i { s.ep i with pmeDue := true }) (f := fun s => s.when (s.pmeAgain i) (·.sendPme i)) rfl
    ((if_pos ((State.pmeAgain_of_d3hot hpres hstat hen hd).trans hpast)).trans (State.sendPme_of_not_inL0 hL0)) rfl rfl rfl

end

/-! ### Mechanism and mask (R378) -/

theorem State.setMech_of_absent (s : State) (i : Nat) (m : IntMech) (h : s.epPresent i = false) : s.setMech i m = s := if_pos (by simp [h])

theorem State.setMech_of_same (s : State) (i : Nat) (m : IntMech) (h : (s.ep i).mech = m) : s.setMech i m = s := if_pos (.inr h)

/-- With nothing to signal, a new mechanism is in force and that is all. -/
theorem completes_interruptMechanismChange (s : State) (i : Inst) (m : IntMech) (hpres : s.epPresent i = true) (hne : (s.ep i).mech ≠ m)
    (hmay : s.mayInterrupt i = false) (hinta : (s.ep i).inta = false) :
    Completes (.interruptMechanismChange i m) s (fun t => t = s.setEp i { s.ep i with mech := m }) := by
  have hset : s.setMech i m = s.setEp i { s.ep i with mech := m } := by
    unfold State.setMech
    rw [if_neg (by simp [hpres, hne]), State.intaUpdate_of_not_asserted _ i (by rw [State.ep_setEp_same]; exact hinta)]
    exact State.signalAll_of_mayInterrupt_false _ i hmay
  exact Completes.of_eq _ (f := (·.setMech i.val m)) rfl hset rfl rfl rfl

/-- An instance whose vector `v` is not masked any more. -/
def Ep.unmasked (e : Ep) (v : Nat) : Ep :=
  { e with umask := Tbl.set (fun _ => false) e.umask v true, vpend := Tbl.set (fun _ => false) e.vpend v false }

/-- A vector that was held back is sent, or nothing is. -/
theorem State.unmask_cases (s : State) (i v : Nat) :
    s.unmask i v = (s.setEp i ((s.ep i).unmasked v)).sendMsi i v ∨ s.unmask i v = s.setEp i ((s.ep i).unmasked v) := by
  unfold State.unmask
  dsimp only
  split
  · exact .inl rfl
  · exact .inr rfl

/-- A message held back is sent while a source of its vector is still pending. -/
theorem State.unmask_of_pending {s : State} {i v x : Nat} (hheld : Tbl.get (fun _ => false) (s.ep i).vpend v = true)
    (hmay : s.mayInterrupt i = true) (hmech : (s.ep i).mech = .msix) (hx : x < 22) (hen : s.srcEnabled i x = true)
    (hpend : s.srcPending i x = true) (hvec : s.getF (Fld.stewardIntMapVector i x) = v) :
    s.unmask i v = (s.setEp i ((s.ep i).unmasked v)).sendMsi i v := by
  have hany : (List.range 22).any (fun k => s.srcEnabled i k && s.srcPending i k && decide (s.getF (Fld.stewardIntMapVector i k) = v)) = true :=
    List.any_eq_true.mpr ⟨x, List.mem_range.mpr hx, by simp [hen, hpend, hvec]⟩
  refine if_pos ?_
  rw [show (s.setEp i _).mayInterrupt i = s.mayInterrupt i from rfl, hheld, hmay, hmech]
  exact hany

theorem completes_msixVectorUnmask (s : State) (i : Inst) (v : Fin 64) (hpres : s.epPresent i = true) :
    Completes (.msixVectorUnmask i v) s (fun t => Tbl.get (fun _ => false) (t.ep i).umask v.val = true ∧
      Tbl.get (fun _ => false) (t.ep i).vpend v.val = false ∧ t.regs = s.regs) := by
  have hkeep : (s.unmask i v).ep i = (s.ep i).unmasked v ∧ (s.unmask i v).regs = s.regs := by
    rcases s.unmask_cases i v with h | h
    · rw [h]
      have hmade := (s.setEp i ((s.ep i).unmasked v)).sendMsi_made i v
      exact ⟨(hmade.ep i).trans (State.ep_setEp_same _ _ _), hmade.regs⟩
    · rw [h]
      exact ⟨State.ep_setEp_same _ _ _, rfl⟩
  obtain ⟨hep, hregs⟩ := hkeep
  refine Completes.of_any (s.unmask i v) (f := fun s => s.when (s.epPresent i) (·.unmask i v)) rfl (if_pos hpres) ⟨?_, ?_, hregs⟩
  · exact (congrArg (fun e : Ep => Tbl.get (fun _ => false) e.umask v.val) hep).trans (Tbl.get_set_same _ _ _ _)
  · exact (congrArg (fun e : Ep => Tbl.get (fun _ => false) e.vpend v.val) hep).trans (Tbl.get_set_same _ _ _ _)

theorem completes_msixVectorUnmask_held (s : State) (i : Inst) (v : Fin 64) (x : Nat) (hpres : s.epPresent i = true)
    (hheld : Tbl.get (fun _ => false) (s.ep i).vpend v.val = true) (hmay : s.mayInterrupt i = true) (hmech : (s.ep i).mech = .msix)
    (hx : x < 22) (hen : s.srcEnabled i x = true) (hpend : s.srcPending i x = true)
    (hvec : s.getF (Fld.stewardIntMapVector i x) = v.val) :
    Completes (.msixVectorUnmask i v) s (fun t => t.out = .msi i v.val :: s.out) :=
  Completes.of_any _ (f := fun s => s.when (s.epPresent i) (·.unmask i v)) rfl
    ((if_pos hpres).trans (State.unmask_of_pending hheld hmay hmech hx hen hpend hvec))
    ((s.setEp i ((s.ep i).unmasked v)).sendMsi_made i v).out

/-! ### MCTP (R385 to R387) -/

theorem exec_mctpPacket (s : State) (lp : Option Lp) (n : Nat) (m : MctpMsg) : exec (.mctpPacket lp n m) s = execMctpPacket lp n m s := rfl

/-- A packet from a tenant's port is dropped and counted. -/
theorem completes_mctpPacket_tenant (s : State) (lp : Lp) (n : Nat) (m : MctpMsg) (hrole : s.isRole lp 0 = true) (hinst : s.instOf lp = none) :
    Completes (.mctpPacket (some lp) n m) s (fun t =>
      t.getF Fld.stewardMctpDropTenant = min (s.getF Fld.stewardMctpDropTenant + 1) (2 ^ 16 - 1) ∧ RegsOnly s t [Fld.stewardMctpDropTenant]) := by
  refine Completes.of_eq (s.bump Fld.stewardMctpDropTenant) (exec_mctpPacket s (some lp) n m) (if_pos ?_) rfl rfl
    ⟨State.getF_bump s Fld.stewardMctpDropTenant (by decide), RegsOnly.setF _ _ _⟩
  simp [hrole, hinst]

/-- A read of a register that latches nothing is its view, and changes nothing. -/
theorem State.regRead_of_plain (s : State) (src : Source) (hsrc : src ≠ .debug) (a : Nat) (halign : a % 4 = 0)
    (hpres : s.regAbsent a = false) (hlatched : latched a = false) (hwords : latchWords a = []) :
    s.regRead src a = (s.regView src a, s) := by
  simp [State.regRead, halign, hpres, hsrc, hlatched, hwords]

/-- On the sideband a register read is answered at once (R387). -/
theorem completes_mctpPacket_regRead (s : State) (a : Nat) (halign : a % 4 = 0) (hpres : s.regAbsent a = false)
    (hlatched : latched a = false) (hwords : latchWords a = []) :
    Completes (.mctpPacket none 64 (.regRead a)) s (fun t => t.out = .mctp none [s.regView .sideband a] :: s.out ∧ t.regs = s.regs) := by
  have hserve : s.mctpServe none (.regRead a) = s.emit (.mctp none [s.regView .sideband a]) := by
    unfold State.mctpServe
    simp only [Option.isNone_none, if_true, s.regRead_of_plain .sideband (by decide) a halign hpres hlatched hwords]
    rfl
  exact Completes.of_any _ (f := (·.mctpServe none (.regRead a))) rfl hserve ⟨rfl, rfl⟩

/-- A packet for the buffer: counted where it does not fit, else kept, and served while the steward runs (R386). -/
def State.mctpTake (s : State) (lp : Option Lp) (n : Nat) (m : MctpMsg) : State :=
  if 16384 < s.mctpBytes + n then s.bump Fld.stewardMctpDropOvf
  else (s.setStw (fun t => { t with mctp := t.mctp ++ [(lp.map (·.val), n, m)] })).mctpDrain

/-- Packets of an instance's port, and those of the sideband that are no register access, go to the buffer. -/
theorem exec_mctpPacket_buffered (s : State) (lp : Option Lp) (n : Nat) (m : MctpMsg) (hinst : ∀ k : Lp, lp = some k → (s.instOf k).isSome = true)
    (hdirect : lp = none → (∀ a, m ≠ .regRead a) ∧ (∀ a v, m ≠ .regWrite a v)) :
    exec (.mctpPacket lp n m) s = act s (fun _ => s.mctpTake lp n m) := by
  rw [exec_mctpPacket]
  cases lp with
  | none =>
    obtain ⟨hread, hwrite⟩ := hdirect rfl
    cases m with
    | regRead a => exact absurd rfl (hread a)
    | regWrite a v => exact absurd rfl (hwrite a v)
    | setEid | other => rfl
  | some k =>
    have hhere : (s.instOf k).isNone = false := by simpa using hinst k rfl
    unfold execMctpPacket act
    simp only [Option.map_some, hhere, Bool.and_false, Bool.false_eq_true, if_false, Option.isNone_some, Bool.false_and]
    rfl

/-- A packet that the buffer has no room for is counted (R386). -/
theorem completes_mctpPacket_overflow (s : State) (lp : Option Lp) (n : Nat) (m : MctpMsg)
    (hexec : exec (.mctpPacket lp n m) s = act s (fun _ => s.mctpTake lp n m)) (hfull : 16384 < s.mctpBytes + n) :
    Completes (.mctpPacket lp n m) s (fun t =>
      t.getF Fld.stewardMctpDropOvf = min (s.getF Fld.stewardMctpDropOvf + 1) (2 ^ 16 - 1) ∧ RegsOnly s t [Fld.stewardMctpDropOvf]) :=
  Completes.of_eq (s.bump Fld.stewardMctpDropOvf) hexec (if_pos hfull) rfl rfl
    ⟨State.getF_bump s Fld.stewardMctpDropOvf (by decide), RegsOnly.setF _ _ _⟩

/-- While the steward does not run, a packet that fits waits. -/
theorem completes_mctpPacket_waits (s : State) (lp : Option Lp) (n : Nat) (m : MctpMsg)
    (hexec : exec (.mctpPacket lp n m) s = act s (fun _ => s.mctpTake lp n m)) (hfits : s.mctpBytes + n ≤ 16384) (hdown : s.stewardUp = false) :
    Completes (.mctpPacket lp n m) s (fun t => t = { s with stw := { s.stw with mctp := s.stw.mctp ++ [(lp.map (·.val), n, m)] } }) := by
  have hdrain : (s.setStw (fun t => { t with mctp := t.mctp ++ [(lp.map (·.val), n, m)] })).mctpDrain =
      s.setStw (fun t => { t with mctp := t.mctp ++ [(lp.map (·.val), n, m)] }) :=
    if_neg (by rw [show (s.setStw _).stewardUp = s.stewardUp from rfl, hdown]; decide)
  exact Completes.of_eq _ hexec ((if_neg (by omega)).trans hdrain) rfl rfl rfl

/-- An EID assigned on the sideband is taken, and answered (R385, R387). -/
theorem completes_mctpPacket_setEid (s : State) (e : BitVec 8) (hup : s.stewardUp = true) (hempty : s.stw.mctp = []) :
    Completes (.mctpPacket none 64 (.setEid e)) s (fun t => t.getF Fld.stewardMctpStatEidI3c = e.toNat ∧
      t.out = .mctp none [] :: s.out ∧ OnlyFields s t [Fld.stewardMctpStatEidI3c]) := by
  obtain ⟨u, hu⟩ : ∃ u, u = s.setStw (fun t => { t with mctp := [] }) := ⟨_, rfl⟩
  have hbytes : s.mctpBytes = 0 := by
    unfold State.mctpBytes
    rw [hempty]
    rfl
  have htake : s.mctpTake none 64 (.setEid e) = u.mctpServe none (.setEid e) := by
    unfold State.mctpTake State.mctpDrain
    rw [if_neg (by omega), if_pos (show (s.setStw _).stewardUp = true from hup), hu]
    show List.foldl _ _ (s.stw.mctp ++ _) = _
    rw [hempty]
    rfl
  have hserve : u.mctpServe none (.setEid e) = (u.setF Fld.stewardMctpStatEidI3c e.toNat).emit (.mctp none []) := rfl
  have hregs : u.regs = s.regs := by rw [hu]; rfl
  have hout : u.out = s.out := by rw [hu]; rfl
  refine Completes.of_any _ (exec_mctpPacket_buffered s none 64 (.setEid e) (by simp) (fun _ => by simp)) (htake.trans hserve) ⟨?_, ?_, ?_⟩
  · exact getF_fit u _ _ (by decide) (by simpa [Fld.stewardMctpStatEidI3c] using e.isLt)
  · exact congrArg (_ :: ·) hout
  · exact (((OnlyFields.refl s _).of_regs hregs).stepF Fld.stewardMctpStatEidI3c e.toNat (List.mem_singleton.mpr rfl)).of_regs rfl

/-- Settles O55: Bus Master Enable, function reset and D-states, pending sources and wake events, mechanism and mask, and MCTP packets,
each by the lemmas of its command. -/
theorem endpointPowerInterruptsAndPackets : Obligations.EndpointPowerInterruptsAndPackets := by
  unfold Obligations.EndpointPowerInterruptsAndPackets
  refine ⟨?absent, fun s i h => ⟨completes_busMasterEnableClear s i h, completes_epFunctionReset s i h⟩, ?dstate, ?noSource, ?wake, ?resend,
    ?mechanism, ?unmask, completes_mctpPacket_tenant, completes_mctpPacket_regRead, completes_mctpPacket_setEid, ?buffer, ?address⟩
  case absent =>
    intro s i d v m k h
    have hwake : s.when (decide (k.val < 22)) (·.pendSource i.val k.val) = s :=
      (congrArg (fun u => if decide (k.val < 22) then u else s) (s.pendSource_of_absent i k h)).trans (ite_self s)
    refine ⟨?_, ?_, ?_, ?_, exec_pmPmeResend_of_not_due (by simp [State.pmeAgain, h])⟩
    · exact exec_of_act (f := (·.setD i.val d)) s rfl (s.setD_of_absent i d h) rfl rfl
    · exact exec_of_act (f := (·.setMech i.val m)) s rfl (s.setMech_of_absent i m h) rfl rfl
    · exact exec_of_act (f := fun s => s.when (s.epPresent i) (·.unmask i v)) s rfl (if_neg (by simp [h])) rfl rfl
    · exact exec_of_act (f := (·.when (decide (k.val < 22)) (·.pendSource i.val k.val))) s rfl hwake rfl rfl
  case dstate =>
    intro s i h
    refine ⟨fun hcmd => ?_, fun c hcmd happly => ?_, completes_dStateChange_d0 s i h⟩
    · exact setF_ok (f := (·.setD i.val .d3hot)) 3 rfl (State.setD_d3hot_of_idle h hcmd) (by simp [Fld.stewardEpCfgDstate])
        (by simp [Fld.stewardEpCfgDstate])
    · exact Completes.of_eq _ (f := (·.setD i.val .d3hot)) rfl (State.setD_d3hot_of_applying h hcmd happly) rfl rfl rfl
  case noSource =>
    intro s i k hk
    exact exec_of_act (f := (·.when (decide (k.val < 22)) (·.pendSource i.val k.val))) s rfl (if_neg (by simp [hk])) rfl rfl
  case wake =>
    intro s i k hk h
    exact ⟨completes_wakeEvent_pending hk h, completes_wakeEvent_silent hk h, completes_wakeEvent_msix hk h, completes_wakeEvent_pme s i k hk h⟩
  case resend =>
    intro s i h hstat hen hd
    exact ⟨fun hearly => exec_pmPmeResend_of_not_due ((State.pmeAgain_of_d3hot h hstat hen hd).trans hearly),
      completes_pmPmeResend_sent h hstat hen hd, completes_pmPmeResend_waits h hstat hen hd⟩
  case mechanism =>
    intro s i m
    exact ⟨fun hsame => exec_of_act (f := (·.setMech i.val m)) s rfl (s.setMech_of_same i m hsame) rfl rfl,
      completes_interruptMechanismChange s i m⟩
  case unmask =>
    intro s i v x h
    exact ⟨completes_msixVectorUnmask s i v h, completes_msixVectorUnmask_held s i v x h⟩
  case buffer =>
    intro s lp n m hinst hdirect
    have hexec := exec_mctpPacket_buffered s lp n m hinst hdirect
    exact ⟨completes_mctpPacket_overflow s lp n m hexec, completes_mctpPacket_waits s lp n m hexec⟩
  case address =>
    intro s d
    exact setF_ok (f := (·.setF Fld.stewardMctpStatDa d.toNat)) d.toNat rfl rfl (by decide)
      (by simpa [Fld.stewardMctpStatDa] using d.isLt)

end Sys2Proof.Machine
end

section
/-! SUPPORT. The fault collector's registers (R400, R403 to R408), and the safe-state reaction (R402): what the harrow, the datapath's end and
the meter leave alone in it. -/

open Sys2Proof Sys2Proof.Machine

namespace Sys2Proof.Machine

/-! ### The pin, FORCE and injection (R403 to R406) -/

/-- Outside the pulse the pin follows LEVEL (R403). -/
theorem State.faultN_of_no_pulse {s : State} (h : s.getF Fld.faultFltPinPulse = 0) :
    s.faultN = decide (s.getF Fld.faultFltPinLevel = 1) := by simp [State.faultN, h]

/-- A pulse that still runs does not end. -/
theorem exec_faultNPulseEnd_of_running {s : State}
    (h : s.aonPast (s.get64 Reg.faultFatalTickLo Reg.faultFatalTickHi + 1) 2500 = false) : exec .faultNPulseEnd s = .next s :=
  exec_of_act s (f := fun s => if s.pulseOver then s.setF Fld.faultFltPinPulse 0 else s) rfl (if_neg (by simp [State.pulseOver, h])) rfl rfl

theorem completes_faultNPulseEnd {s : State}
    (h : s.aonPast (s.get64 Reg.faultFatalTickLo Reg.faultFatalTickHi + 1) 2500 = true) :
    Completes .faultNPulseEnd s (fun t => t.getF Fld.faultFltPinPulse = 0 ∧ t.faultN = decide (s.getF Fld.faultFltPinLevel = 1) ∧
      RegsOnly s t [Fld.faultFltPinPulse]) := by
  have hpulse : (s.setF Fld.faultFltPinPulse 0).getF Fld.faultFltPinPulse = 0 := getF_fit _ _ _ (by decide) (by decide)
  have hlevel : (s.setF Fld.faultFltPinPulse 0).getF Fld.faultFltPinLevel = s.getF Fld.faultFltPinLevel :=
    State.getF_setF_ne _ _ _ _ (by decide)
  refine Completes.of_eq (s.setF Fld.faultFltPinPulse 0) (f := fun s => if s.pulseOver then s.setF Fld.faultFltPinPulse 0 else s) rfl
    (if_pos h) rfl rfl ⟨hpulse, ?_, RegsOnly.setF _ _ _⟩
  rw [State.faultN_of_no_pulse hpulse, hlevel]

/-- Events reported to the collector one after another. -/
def State.raiseAll (s : State) (es : List FaultEv) : State := { s with flt := { s.flt with tickEvents := s.flt.tickEvents ++ es } }

theorem State.raiseAll_nil (s : State) : s.raiseAll [] = s := by
  unfold State.raiseAll
  rw [List.append_nil]

/-- A command that writes fields and reports events: the fields read as written, the events are the tick's last, and nothing else differs. -/
theorem completes_of_raised {c : Instr} {s : State} {f : State → State} (l : List (Fd × Nat)) (es : List FaultEv) (h : exec c s = act s f)
    (hf : f s = (s.setFs l).raiseAll es) (hfit : ∀ x ∈ l, x.1.lo + x.1.width ≤ 32 ∧ x.2 < 2 ^ x.1.width)
    (hapart : l.Pairwise (fun x y => x.1.addr ≠ y.1.addr ∨ x.1.lo + x.1.width ≤ y.1.lo ∨ y.1.lo + y.1.width ≤ x.1.lo)) :
    Completes c s (fun t => Writes s t l ∧ t.flt = { s.flt with tickEvents := s.flt.tickEvents ++ es } ∧
      t = { s with regs := t.regs, flt := t.flt }) := by
  have hwrites := Writes.setFs l hfit hapart s
  obtain ⟨r, hr⟩ : ∃ r, s.setFs l = { s with regs := r } := ⟨_, State.setFs_eq l s⟩
  rw [hr] at hf hwrites
  exact Completes.of_eq _ h hf rfl rfl ⟨hwrites.of_regs rfl, rfl, rfl⟩

/-- The fields that a write of FAULT.CTL sets (R407). -/
def ctlFields (v : Word) : List (Fd × Nat) := [(Fld.faultCtlFerrMin, fieldGet v 0 2), (Fld.faultCtlForceCode, fieldGet v 8 8)]

/-- What FORCE raises: source 0x16 with the code written (R404). -/
def forcedEvs (s : State) (v : Word) : List FaultEv :=
  if fieldGet v 2 1 = 1 then [{ src := 0x16, tick := s.tick, d0 := fieldGet v 8 8 }] else []

theorem State.faultCtlWrite_eq (s : State) (v : Word) : s.faultCtlWrite v = (s.setFs (ctlFields v)).raiseAll (forcedEvs s v) := by
  have hcode : (s.setFs (ctlFields v)).getF Fld.faultCtlForceCode = fieldGet v 8 8 :=
    getF_fit _ Fld.faultCtlForceCode (fieldGet v 8 8) (by decide) (Nat.mod_lt _ (by decide))
  have htick := s.setFs_tick (ctlFields v)
  unfold State.faultCtlWrite forcedEvs
  change (if _ then (s.setFs (ctlFields v)).raise { src := 0x16, tick := (s.setFs (ctlFields v)).tick, d0 := (s.setFs (ctlFields v)).getF _ }
    else s.setFs (ctlFields v)) = _
  rw [hcode, htick]
  split
  · rfl
  · exact (State.raiseAll_nil _).symm

theorem completes_force (s : State) (v : Word) : Completes (.force v) s (fun t =>
    t.getF Fld.faultCtlFerrMin = fieldGet v 0 2 ∧ t.getF Fld.faultCtlForceCode = fieldGet v 8 8 ∧
    t.flt = { s.flt with tickEvents := s.flt.tickEvents ++ forcedEvs s v } ∧
    OnlyFields s t [Fld.faultCtlFerrMin, Fld.faultCtlForceCode] ∧ t = { s with regs := t.regs, flt := t.flt }) := by
  have hmin : fieldGet v 0 2 < 2 ^ 2 := Nat.mod_lt _ (by decide)
  have hcode : fieldGet v 8 8 < 2 ^ 8 := Nat.mod_lt _ (by decide)
  refine (completes_of_raised (f := (·.faultCtlWrite v)) (ctlFields v) (forcedEvs s v) rfl (s.faultCtlWrite_eq v) ?_ ?_).mono ?_
  · simpa [ctlFields, Fld.faultCtlFerrMin, Fld.faultCtlForceCode] using ⟨hmin, hcode⟩
  · simp [ctlFields, Fld.faultCtlFerrMin, Fld.faultCtlForceCode]
  · rintro t ⟨⟨hset, hframe⟩, hflt, heq⟩
    simp only [ctlFields, List.forall_mem_cons] at hset
    obtain ⟨hsetMin, hsetCode, -⟩ := hset
    exact ⟨hsetMin, hsetCode, hflt, hframe, heq⟩

/-- The fields that an injection sets (R408). -/
def injFields (v : Word) : List (Fd × Nat) := [(Fld.faultInjSrc, fieldGet v 0 8), (Fld.faultInjLp, fieldGet v 8 6)]

/-- What an injection raises: its source, marked as injected (R406). -/
def injectedEv (s : State) (v : Word) : FaultEv :=
  { src := fieldGet v 0 8, tick := s.tick, lp := some (fieldGet v 8 6), inj := true, d0 := (s.rd Reg.faultInjDetail).toNat }

/-- An injection of a source in use raises it (R405, R406). -/
theorem State.injWrite_of_enabled {s : State} {v : Word} (hen : s.injEnabled = true) (hgo : fieldGet v 14 1 = 1)
    (hpos : 0 < fieldGet v 0 8) (hmax : fieldGet v 0 8 ≤ 0x16) :
    s.injWrite v = (s.setFs (injFields v)).raiseAll [injectedEv s v] := by
  have hlp : (s.setFs (injFields v)).getF Fld.faultInjLp = fieldGet v 8 6 :=
    getF_fit _ Fld.faultInjLp (fieldGet v 8 6) (by decide) (Nat.mod_lt _ (by decide))
  have hsrc : (s.setFs (injFields v)).getF Fld.faultInjSrc = fieldGet v 0 8 :=
    (State.getF_setF_ne _ Fld.faultInjLp Fld.faultInjSrc (fieldGet v 8 6) (by decide)).trans
      (getF_fit _ Fld.faultInjSrc (fieldGet v 0 8) (by decide) (Nat.mod_lt _ (by decide)))
  have hdetail : (s.setFs (injFields v)).rd Reg.faultInjDetail = s.rd Reg.faultInjDetail :=
    (State.rd_setF_ne _ Fld.faultInjLp (fieldGet v 8 6) _ (by decide)).trans
      (State.rd_setF_ne _ Fld.faultInjSrc (fieldGet v 0 8) _ (by decide))
  have htick := s.setFs_tick (injFields v)
  unfold injectedEv
  rw [← htick, ← hdetail, ← hsrc, ← hlp]
  unfold State.injWrite
  rw [if_pos hen]
  exact if_pos ⟨hgo, by rw [← hsrc] at hpos; exact hpos, by rw [← hsrc] at hmax; exact hmax⟩

theorem exec_injGo_of_disabled {s : State} (v : Word) (h : s.injEnabled = false) : exec (.injGo v) s = .next s :=
  exec_of_act s (f := (·.injWrite v)) rfl (if_neg (by simp [h])) rfl rfl

theorem completes_injGo {s : State} {v : Word} (hen : s.injEnabled = true) (hgo : fieldGet v 14 1 = 1)
    (hpos : 0 < fieldGet v 0 8) (hmax : fieldGet v 0 8 ≤ 0x16) : Completes (.injGo v) s (fun t =>
      t.flt = { s.flt with tickEvents := s.flt.tickEvents ++ [injectedEv s v] } ∧
      OnlyFields s t [Fld.faultInjSrc, Fld.faultInjLp] ∧ t = { s with regs := t.regs, flt := t.flt }) := by
  have hsrc : fieldGet v 0 8 < 2 ^ 8 := Nat.mod_lt _ (by decide)
  have hlp : fieldGet v 8 6 < 2 ^ 6 := Nat.mod_lt _ (by decide)
  refine (completes_of_raised (f := (·.injWrite v)) (injFields v) [injectedEv s v] rfl
    (State.injWrite_of_enabled hen hgo hpos hmax) ?_ ?_).mono ?_
  · simpa [injFields, Fld.faultInjSrc, Fld.faultInjLp] using ⟨hsrc, hlp⟩
  · simp [injFields, Fld.faultInjSrc, Fld.faultInjLp]
  · rintro t ⟨⟨-, hframe⟩, hflt, heq⟩
    exact ⟨hflt, hframe, heq⟩

/-! ### The first-error latch, the severities and the sheaf's view (R396, R400, R408) -/

/-- The first-error latch clears whole (R400). -/
theorem completes_ferrClear (s : State) : Completes .ferrClear s (fun t =>
    t.rd Reg.faultFerr = 0 ∧ t.rd Reg.faultFerrDetail = 0 ∧ t.rd Reg.faultFerrTickLo = 0 ∧ t.rd Reg.faultFerrTickHi = 0 ∧
    RegsOnly s t [Fd.whole Reg.faultFerr, Fd.whole Reg.faultFerrDetail, Fd.whole Reg.faultFerrTickLo, Fd.whole Reg.faultFerrTickHi]) := by
  have hframe : OnlyFields s s.ferrClear
      [Fd.whole Reg.faultFerr, Fd.whole Reg.faultFerrDetail, Fd.whole Reg.faultFerrTickLo, Fd.whole Reg.faultFerrTickHi] :=
    ((((OnlyFields.refl s _).stepW Reg.faultFerr 0 (by simp)).stepW Reg.faultFerrDetail 0 (by simp)).stepW
      Reg.faultFerrTickLo 0 (by simp)).stepW Reg.faultFerrTickHi 0 (by simp)
  refine Completes.of_eq s.ferrClear (f := (·.ferrClear)) rfl rfl rfl rfl ⟨?_, ?_, ?_, ?_, rfl, hframe⟩ <;>
    simp [State.ferrClear, State.rd_wr, Reg.faultFerr, Reg.faultFerrDetail, Reg.faultFerrTickLo]

/-- Severity registers 2 and 3 have no field of a code in use (R408). -/
theorem exec_sevWrite_unused (s : State) (n : Fin 4) (v : Word) (h : 2 ≤ n.val) : exec (.sevWrite n v) s = .next s := by
  refine exec_of_act s (f := (·.sevWrite n.val v)) rfl ?_ rfl rfl
  unfold State.sevWrite
  rw [if_neg (by omega), if_neg (by omega)]

/-- The first `n` words of slot `k`'s record copied into the view. -/
def State.sheafView (s : State) (k n : Nat) : State :=
  (List.range n).foldl (fun s i => s.wr (Reg.faultSheafW i) (Tbl.get (fun _ => 0) s.flt.sheaf (16 * k + i))) s

theorem State.sheafView_regs (s : State) (k n : Nat) : RO s (s.sheafView k n) :=
  List.foldlRecOn _ _ (RO.refl s) (fun _ h _ _ => h.stepW _ _)

theorem State.sheafView_succ (s : State) (k n : Nat) :
    s.sheafView k (n + 1) = (s.sheafView k n).wr (Reg.faultSheafW n) (Tbl.get (fun _ => 0) s.flt.sheaf (16 * k + n)) := by
  have hflt : (s.sheafView k n).flt = s.flt := by rw [s.sheafView_regs k n]
  rw [← hflt]
  unfold State.sheafView
  rw [List.range_succ, List.foldl_append]
  rfl

/-- A word copied reads as the sheaf holds it. -/
theorem State.sheafView_word (s : State) (k : Nat) {n i : Nat} (h : i < n) :
    (s.sheafView k n).rd (Reg.faultSheafW i) = Tbl.get (fun _ => 0) s.flt.sheaf (16 * k + i) := by
  induction n with
  | zero => omega
  | succ n ih =>
    rw [State.sheafView_succ, State.rd_wr]
    by_cases hi : i = n
    · rw [hi, if_pos rfl]
    · rw [if_neg (by simp only [Reg.faultSheafW]; omega), ih (by omega)]

/-- A register outside the words copied is as before. -/
theorem State.sheafView_outside (s : State) (k n a : Nat) (h : ¬(Reg.faultSheafW 0 ≤ a ∧ a < Reg.faultSheafW n)) :
    (s.sheafView k n).rd a = s.rd a := by
  induction n with
  | zero => rfl
  | succ n ih =>
    simp only [Reg.faultSheafW] at h ih
    rw [State.sheafView_succ, State.rd_wr_ne _ _ _ _ (by simp only [Reg.faultSheafW]; omega), ih (by omega)]

theorem completes_sheafIdxWrite (s : State) (v : Word) : Completes (.sheafIdxWrite v) s (fun t =>
    t.getF Fld.faultSheafIdxSlot = fieldGet v 0 6 ∧
    (∀ k, k < 16 → t.rd (Reg.faultSheafW k) = Tbl.get (fun _ => 0) s.flt.sheaf (16 * fieldGet v 0 6 + k)) ∧
    (∀ a, a ≠ Reg.faultSheafIdx → ¬(Reg.faultSheafW 0 ≤ a ∧ a < Reg.faultSheafW 16) → t.rd a = s.rd a) ∧
    t = { s with regs := t.regs }) := by
  obtain ⟨u, hu⟩ : ∃ u, u = s.setF Fld.faultSheafIdxSlot (fieldGet v 0 6) := ⟨_, rfl⟩
  have hregs : RO s (u.sheafView (fieldGet v 0 6) 16) := (hu ▸ RO.setF s _ _).trans (u.sheafView_regs _ 16)
  have hslot : u.getF Fld.faultSheafIdxSlot = fieldGet v 0 6 := by
    rw [hu]
    exact getF_fit _ _ _ (by decide) (Nat.mod_lt _ (by decide))
  refine Completes.of_eq (u.sheafView (fieldGet v 0 6) 16) (f := (·.sheafIdxWrite v)) rfl (by rw [hu]; rfl) hregs.pending hregs.tick
    ⟨?_, fun k hk => ?_, fun a ha hout => ?_, hregs⟩
  · exact (getF_addr _ (u.sheafView_outside _ 16 _ (by decide))).trans hslot
  · rw [u.sheafView_word _ hk, hu]
    rfl
  · rw [u.sheafView_outside _ 16 a hout, hu]
    exact State.rd_setF_ne _ _ _ _ ha

/-! ### What the harrow does in the reaction (R266) -/

/-- Nothing differs but the harrow: its channels, and registers from its block's base on (R269). -/
def HarrowOnly (s t : State) : Prop := t = { s with regs := t.regs, xb := t.xb } ∧ ∀ a, a < 0x1A80000 → t.rd a = s.rd a

theorem HarrowOnly.refl (s : State) : HarrowOnly s s := ⟨rfl, fun _ _ => rfl⟩

theorem HarrowOnly.trans {s t u : State} (h : HarrowOnly s t) (g : HarrowOnly t u) : HarrowOnly s u :=
  ⟨by rw [g.1, h.1], fun a ha => (g.2 a ha).trans (h.2 a ha)⟩

theorem HarrowOnly.flt {s t : State} (h : HarrowOnly s t) : t.flt = s.flt := by rw [h.1]
theorem HarrowOnly.dp {s t : State} (h : HarrowOnly s t) : t.dp = s.dp := by rw [h.1]
theorem HarrowOnly.mz {s t : State} (h : HarrowOnly s t) : t.mz = s.mz := by rw [h.1]

theorem HarrowOnly.setF (s : State) (f : Fd) (v : Nat) (h : 0x1A80000 ≤ f.addr) : HarrowOnly s (s.setF f v) :=
  ⟨rfl, fun a ha => State.rd_setF_ne _ _ _ _ (by omega)⟩

theorem HarrowOnly.modHar (s : State) (c : Nat) (f : HarrowCh → HarrowCh) : HarrowOnly s (s.modHar c f) := ⟨rfl, fun _ _ => rfl⟩

/-- A channel's ERROR of code 5 raises nothing. -/
theorem State.harErr_harrowOnly (s : State) (c : Nat) : HarrowOnly s (s.harErr c 5) := by
  have herr : 0x1A80000 ≤ (Fld.harrowStatErr c).addr := by simp only [Fld.harrowStatErr, Reg.harrowStat]; omega
  have hstate : 0x1A80000 ≤ (Fld.harrowStatState c).addr := by simp only [Fld.harrowStatState, Reg.harrowStat]; omega
  exact ((HarrowOnly.setF s _ 5 herr).trans (HarrowOnly.setF _ _ 5 hstate)).trans (HarrowOnly.setF _ Fld.harrowGlobalRateSum _ (by decide))

theorem State.harFatal_harrowOnly (s : State) : HarrowOnly s s.harFatal :=
  List.foldlRecOn _ _ (HarrowOnly.refl s) (fun t h c _ => h.trans ((HarrowOnly.modHar t c _).trans (State.harErr_harrowOnly _ c)))

/-! ### What the meter does in the reaction (R345) -/

/-- Nothing differs but the meter and registers. -/
def MeterMoved (s t : State) : Prop := t = { s with regs := t.regs, mz := t.mz }

theorem MeterMoved.refl (s : State) : MeterMoved s s := rfl

theorem MeterMoved.trans {s t u : State} (h : MeterMoved s t) (g : MeterMoved t u) : MeterMoved s u := by
  unfold MeterMoved at h g ⊢
  rw [g, h]

theorem MeterMoved.of_regs {s t : State} (h : RO s t) : MeterMoved s t := by
  unfold MeterMoved
  rw [h]

theorem MeterMoved.home {s t : State} (h : MeterMoved s t) : t.home = s.home := by rw [h]
theorem MeterMoved.dp {s t : State} (h : MeterMoved s t) : t.dp = s.dp := by rw [h]

theorem MeterMoved.setMz (s : State) (f : Meter → Meter) : MeterMoved s (s.setMz f) := rfl

theorem State.makeRec_moved (s : State) (r : MRec) : MeterMoved s (s.makeRec r) := rfl

theorem State.eventRec_moved (s : State) (code detail t : Nat) : MeterMoved s (s.eventRec code detail t) := by
  unfold State.eventRec
  dsimp only
  split <;> rfl

theorem State.applyFront_moved (s : State) : MeterMoved s s.applyFront := by
  unfold State.applyFront
  split
  · exact MeterMoved.refl s
  · dsimp only
    split
    · exact ((MeterMoved.setMz s _).trans (State.eventRec_moved _ _ _ _)).trans (MeterMoved.setMz _ _)
    · exact (MeterMoved.setMz s _).trans (MeterMoved.setMz _ _)

theorem State.mirrorCum_regs (s : State) : RO s s.mirrorCum := by
  refine RO.step64 (List.foldlRecOn _ _ (RO.refl s) (fun t h e _ => h.trans ?_)) _ _ _
  exact List.foldlRecOn _ _ (RO.refl t) (fun _ g _ _ => g.stepW _ _)

theorem State.mirror_regs (s : State) : RO s s.mirror := by
  unfold State.mirror
  dsimp only
  split
  · exact RO.refl s
  · exact (((((((RO.refl s).stepFs _).step64 _ _ _).step64 _ _ _).step64 _ _ _).step64 _ _ _).step64 _ _ _).step64 _ _ _ |>.step64 _ _ _

theorem State.closeSpans_moved (s : State) (l : List MSpan) (b : MBank) : MeterMoved s (s.closeSpans l b) := by
  unfold State.closeSpans
  split
  · rename_i y _ _
    dsimp only
    have happlied : MeterMoved s (s.mz.queue.foldl (fun s e => if e.1 < y.stop then s.applyFront else s) s) := by
      refine List.foldlRecOn _ _ (MeterMoved.refl s) (fun t h e _ => h.trans ?_)
      split
      · exact t.applyFront_moved
      · exact MeterMoved.refl t
    refine (happlied.trans ?_).trans (MeterMoved.of_regs (State.mirrorCum_regs _))
    exact ((MeterMoved.setMz _ _).trans (State.makeRec_moved _ _)).trans (MeterMoved.setMz _ _)
  · exact MeterMoved.refl s

theorem State.closeIdle_moved (s : State) : MeterMoved s s.closeIdle := by
  unfold State.closeIdle
  dsimp only
  split
  · exact MeterMoved.refl s
  · exact (s.closeSpans_moved _ _).trans (MeterMoved.setMz _ _)

theorem State.closeAll_moved (s : State) : MeterMoved s s.closeAll := by
  unfold State.closeAll
  dsimp only
  split
  · exact s.closeIdle_moved
  · exact s.closeIdle_moved.trans ((State.closeSpans_moved _ _ _).trans (MeterMoved.setMz _ _))

theorem State.meterFatal_moved (s : State) : MeterMoved s s.meterFatal := by
  unfold State.meterFatal
  split
  · exact MeterMoved.refl s
  · dsimp only
    split
    · exact (((MeterMoved.setMz s _).trans (State.closeAll_moved _)).trans (State.eventRec_moved _ _ _ _)).trans
        (MeterMoved.of_regs (State.mirror_regs _))
    · exact (MeterMoved.setMz s _).trans (State.eventRec_moved _ _ _ _)

/-- A meter that is not ready has no part in the reaction. -/
theorem State.meterFatal_of_not_ready {s : State} (h : s.mz.ready = false) : s.meterFatal = s := if_pos (by simp [h])

/-! ### The reaction (R402) -/

/-- The fields that the reaction sets (R402, R237). -/
def safeFields (src : Nat) : List (Fd × Nat) :=
  [(Fld.faultStatFatal, 1), (Fld.faultStatFatalSrc, src), (Fld.faultFltPinPulse, 1), (Fld.faultFltPinLevel, 1), (Fld.homeStatHalted, 1)]

/-- FATAL shows with its source and tick, FAULT_N is driven, the home is halted, and viral is set. -/
def State.safeShown (s : State) (T src : Nat) : State :=
  (({ s with flt := { s.flt with fatalDue := none, viral := true } } : State).setFs (safeFields src)).set64
    Reg.faultFatalTickLo Reg.faultFatalTickHi T

/-- The reaction shows itself, then stops the harrow, ends what is in flight and closes the meter. -/
theorem State.safeReaction_eq (s : State) (T src : Nat) :
    s.safeReaction T src = (s.safeShown T src).harFatal.safeData.meterFatal := rfl

theorem State.safeShown_flt (s : State) (T src : Nat) : (s.safeShown T src).flt = { s.flt with fatalDue := none, viral := true } := by
  unfold State.safeShown
  rw [State.set64_flt, State.setFs_flt]

theorem State.safeShown_dp (s : State) (T src : Nat) : (s.safeShown T src).dp = s.dp := by
  unfold State.safeShown
  rw [State.set64_dp, State.setFs_dp]

theorem State.safeShown_mz (s : State) (T src : Nat) : (s.safeShown T src).mz = s.mz := by
  unfold State.safeShown
  rw [State.set64_mz, State.setFs_mz]

/-- The fields lie below the harrow's registers, apart from the registers of the tick. -/
theorem safeFields_addr (src : Nat) : ∀ x ∈ safeFields src,
    x.1.addr < 0x1A80000 ∧ x.1.addr ≠ Reg.faultFatalTickLo ∧ x.1.addr ≠ Reg.faultFatalTickHi := by
  simp [safeFields, Fld.faultStatFatal, Fld.faultStatFatalSrc, Fld.faultFltPinPulse, Fld.faultFltPinLevel, Fld.homeStatHalted,
    Reg.faultStat, Reg.faultFltPin, Reg.homeStat, Reg.faultFatalTickLo, Reg.faultFatalTickHi]

/-- A field set shows what its width holds of the value. -/
theorem getF_setFs (l : List (Fd × Nat)) (hfits : ∀ x ∈ l, x.1.lo + x.1.width ≤ 32)
    (hapart : l.Pairwise (fun x y => x.1.addr ≠ y.1.addr ∨ x.1.lo + x.1.width ≤ y.1.lo ∨ y.1.lo + y.1.width ≤ x.1.lo)) (s : State) :
    ∀ x ∈ l, (s.setFs l).getF x.1 = x.2 % 2 ^ x.1.width := by
  induction l generalizing s with
  | nil => simp
  | cons y l ih =>
    obtain ⟨hy, hl⟩ := List.forall_mem_cons.mp hfits
    obtain ⟨hne, hrest⟩ := List.pairwise_cons.mp hapart
    refine List.forall_mem_cons.mpr ⟨?_, ih hl hrest (s.setF y.1 y.2)⟩
    exact (State.getF_setFs_ne l (s.setF y.1 y.2) y.1 hne).trans (State.getF_setF _ _ _ hy)

/-- The fields lie in their registers, apart from each other. -/
theorem safeFields_apart (src : Nat) : (∀ x ∈ safeFields src, x.1.lo + x.1.width ≤ 32) ∧
    (safeFields src).Pairwise (fun x y => x.1.addr ≠ y.1.addr ∨ x.1.lo + x.1.width ≤ y.1.lo ∨ y.1.lo + y.1.width ≤ x.1.lo) := by
  simp [safeFields, Fld.faultStatFatal, Fld.faultStatFatalSrc, Fld.faultFltPinPulse, Fld.faultFltPinLevel, Fld.homeStatHalted,
    Reg.faultStat, Reg.faultFltPin, Reg.homeStat]

theorem State.safeShown_fields (s : State) (T src : Nat) :
    ∀ x ∈ safeFields src, (s.safeShown T src).getF x.1 = x.2 % 2 ^ x.1.width := by
  intro x hx
  obtain ⟨-, hlo, hhi⟩ := safeFields_addr src x hx
  obtain ⟨hfits, hapart⟩ := safeFields_apart src
  exact (getF_set64_ne _ _ _ _ _ hlo hhi).trans (getF_setFs _ hfits hapart _ x hx)

/-- The tick of the FATAL event. -/
theorem State.safeShown_tick64 (s : State) (T src : Nat) :
    (s.safeShown T src).get64 Reg.faultFatalTickLo Reg.faultFatalTickHi = T % 2 ^ 64 :=
  get64_of _ _ _ _ (rd_set64_lo _ _ _ _ (by decide)) (rd_set64_hi _ _ _ _)

/-- The datapath's end leaves the home no transaction, and no leg and no bid (R237, R402). -/
theorem State.safeData_emptied (s : State) : s.safeData.home.txns = [] ∧ s.safeData.home.parked = [] ∧ s.safeData.home.snoops = [] ∧
    s.safeData.home.poison = [] ∧ s.safeData.dp.legs = [] ∧ s.safeData.dp.bids = [] := ⟨rfl, rfl, rfl, rfl, rfl, rfl⟩

/-- With nothing in flight the datapath's end changes no register, no fault state and nothing of the meter. -/
theorem State.safeData_of_empty {s : State} (hmsgs : s.dp.msgs = []) (htrk : s.dp.trackers = []) (htrap : s.dp.trapQ = []) :
    s.safeData.regs = s.regs ∧ s.safeData.flt = s.flt ∧ s.safeData.mz = s.mz := by
  simp only [State.safeData, hmsgs, htrk, htrap, List.map_nil, List.foldl_nil, List.filter_nil, and_self]

/-- With nothing in flight and the meter not ready, the reaction is what it shows, and the harrow's part. -/
theorem State.safeReaction_of_empty {s : State} (T src : Nat) (hready : s.mz.ready = false) (hmsgs : s.dp.msgs = [])
    (htrk : s.dp.trackers = []) (htrap : s.dp.trapQ = []) :
    (∀ a, a < 0x1A80000 → (s.safeReaction T src).rd a = (s.safeShown T src).rd a) ∧
    (s.safeReaction T src).flt = (s.safeShown T src).flt := by
  have hdp := s.safeShown_dp T src
  have hmz := s.safeShown_mz T src
  rw [State.safeReaction_eq]
  generalize s.safeShown T src = u at hdp hmz ⊢
  have hhar := u.harFatal_harrowOnly
  generalize u.harFatal = w at hhar ⊢
  have hwdp : w.dp = s.dp := hhar.dp.trans hdp
  obtain ⟨hregs, hflt, hkept⟩ := State.safeData_of_empty (s := w) (by rw [hwdp, hmsgs]) (by rw [hwdp, htrk]) (by rw [hwdp, htrap])
  have hidle : w.safeData.mz.ready = false := by rw [hkept, hhar.mz, hmz, hready]
  rw [State.meterFatal_of_not_ready hidle]
  refine ⟨fun a ha => ?_, hflt.trans hhar.flt⟩
  have hrd : w.safeData.rd a = w.rd a := by
    unfold State.rd
    rw [hregs]
  exact hrd.trans (hhar.2 a ha)

/-- Only what an effect makes of the state that it meets counts. -/
theorem act_congr {s : State} {f g : State → State} (h : f s = g s) : act s f = act s g := by rw [act_next, act_next, h]

/-- Before a FATAL event is due, and after it has been reacted to, nothing happens. -/
theorem exec_safeStateReaction_of_not_due {s : State} (h : s.flt.fatalDue = none ∨ s.getF Fld.faultStatFatal = 1) :
    exec .safeStateReaction s = .next s := by
  refine (act_congr ?_ : execSafeStateReaction s = act s id)
  rcases h with h | h
  · simp only [h, id]
  · cases hdue : s.flt.fatalDue <;> simp [h]

/-- In the tick after the FATAL event, once, the reaction runs. -/
theorem exec_safeStateReaction_of_due {s : State} {d : Nat × Nat} (hdue : s.flt.fatalDue = some d) (hlate : d.1 < s.tick)
    (hnot : s.getF Fld.faultStatFatal = 0) : exec .safeStateReaction s = act s (·.safeReaction d.1 d.2) := by
  refine (act_congr ?_ : execSafeStateReaction s = _)
  simp only [hdue, hlate, hnot, and_self, if_true]

section
variable {s : State} {d : Nat × Nat} (hdue : s.flt.fatalDue = some d) (hlate : d.1 < s.tick) (hnot : s.getF Fld.faultStatFatal = 0)
include hdue hlate hnot

/-- With nothing in flight, the fault registers as the reaction leaves them. -/
theorem completes_safeStateReaction_shown (hready : s.mz.ready = false) (hmsgs : s.dp.msgs = []) (htrk : s.dp.trackers = [])
    (htrap : s.dp.trapQ = []) : Completes .safeStateReaction s (fun t =>
      t.getF Fld.faultStatFatal = 1 ∧ t.getF Fld.faultStatFatalSrc = d.2 % 256 ∧ t.getF Fld.faultFltPinPulse = 1 ∧
      t.getF Fld.faultFltPinLevel = 1 ∧ t.getF Fld.homeStatHalted = 1 ∧
      t.get64 Reg.faultFatalTickLo Reg.faultFatalTickHi = d.1 % 2 ^ 64 ∧ t.flt.viral = true ∧ t.flt.fatalDue = none) := by
  obtain ⟨hrd, hflt⟩ := State.safeReaction_of_empty d.1 d.2 hready hmsgs htrk htrap
  have hexec := exec_safeStateReaction_of_due hdue hlate hnot
  have hshown : ∀ x ∈ safeFields d.2, (s.safeReaction d.1 d.2).getF x.1 = x.2 % 2 ^ x.1.width := fun x hx =>
    (getF_addr x.1 (hrd _ (safeFields_addr d.2 x hx).1)).trans (s.safeShown_fields d.1 d.2 x hx)
  have hwhen : (s.safeReaction d.1 d.2).get64 Reg.faultFatalTickLo Reg.faultFatalTickHi = d.1 % 2 ^ 64 :=
    (State.get64_of_rd _ _ (hrd _ (by decide)) (hrd _ (by decide))).trans (s.safeShown_tick64 d.1 d.2)
  rw [s.safeShown_flt] at hflt
  simp only [safeFields, List.forall_mem_cons] at hshown
  obtain ⟨hfatal, hsrc, hpulse, hlevel, hhalted, -⟩ := hshown
  obtain ⟨t, ht⟩ : ∃ t, s.safeReaction d.1 d.2 = t := ⟨_, rfl⟩
  rw [ht] at hfatal hsrc hpulse hlevel hhalted hwhen hflt
  exact Completes.of_any t hexec ht
    ⟨hfatal, hsrc, hpulse, hlevel, hhalted, hwhen, by rw [hflt], by rw [hflt]⟩

/-- Whatever was in flight, no transaction of the home, no leg and no bid is left. -/
theorem completes_safeStateReaction_emptied : Completes .safeStateReaction s (fun t =>
    t.home.txns = [] ∧ t.home.parked = [] ∧ t.home.snoops = [] ∧ t.home.poison = [] ∧ t.dp.legs = [] ∧ t.dp.bids = []) := by
  have hmoved := (s.safeShown d.1 d.2).harFatal.safeData.meterFatal_moved
  rw [← State.safeReaction_eq] at hmoved
  have hempty := State.safeData_emptied (s.safeShown d.1 d.2).harFatal
  rw [← hmoved.home, ← hmoved.dp] at hempty
  exact Completes.of_any _ (exec_safeStateReaction_of_due hdue hlate hnot) rfl hempty

end

/-- Settles O53: the pin, FORCE and injection, the latch, the severities, the sheaf's view and the reaction, each by the lemmas of its command. -/
theorem faultRegistersAndSafeState : Obligations.FaultRegistersAndSafeState := by
  unfold Obligations.FaultRegistersAndSafeState
  refine ⟨fun s => exec_faultNPulseEnd_of_running, fun s => completes_faultNPulseEnd, ?level, completes_force,
    fun s v => exec_injGo_of_disabled v, fun s v => completes_injGo, completes_ferrClear, ?severity, completes_sheafIdxWrite,
    fun s => exec_safeStateReaction_of_not_due, fun s d => completes_safeStateReaction_shown,
    fun s d => completes_safeStateReaction_emptied⟩
  case level =>
    intro s v
    exact setF_ok (f := (·.setF Fld.faultFltPinLevel (fieldGet v 0 1))) _ rfl rfl (by decide) (Nat.mod_lt _ (by decide))
  case severity =>
    intro s v
    refine ⟨?_, ?_, exec_sevWrite_unused s 2 v (by decide), exec_sevWrite_unused s 3 v (by decide)⟩
    · exact setF_ok (f := (·.sevWrite 0 v)) _ rfl rfl (by decide) (Nat.mod_lt _ (by decide))
    · exact setF_ok (f := (·.sevWrite 1 v)) _ rfl rfl (by decide) (Nat.mod_lt _ (by decide))

end Sys2Proof.Machine
end

section
/-! SUPPORT. Runs of the block: every command completes and leaves the queue's rest, TICK counts the TICKs that were taken, and what TICK
reads plus the TICKs that wait is a bound that every step keeps (R14). -/

open Sys2Proof Sys2Proof.Machine

namespace Sys2Proof.Machine

/-- A device reset keeps the queue: it is the model's own (log 1). -/
@[simp] theorem State.deviceReset_pending (s : State) (por held : Bool) : (s.deviceReset por held).pending = s.pending := by
  unfold State.deviceReset
  rw [State.setFs_pending]

/-- The command at the front counts as one TICK where it is one. -/
theorem ticksIn_cons (c : Instr) (q : List Instr) : ticksIn (c :: q) = ticksIn [c] + ticksIn q := by
  unfold ticksIn
  by_cases h : c = .tick <;> simp [h, Nat.add_comm]

/-- A command other than TICK counts for none. -/
theorem ticksIn_singleton_of_ne {c : Instr} (h : c ≠ .tick) : ticksIn [c] = 0 := by
  simp [ticksIn, h]

/-- Outside a device reset a command keeps the queue, and TICK advances where the command is TICK. -/
theorem completes_of_not_isReset (c : Instr) (s : State) (hreset : isReset c = false) :
    Completes c s (fun t => t.pending = s.pending ∧ t.tick = s.tick + ticksIn [c]) := by
  by_cases htick : c = .tick
  · subst htick
    exact ⟨_, rfl, rfl, rfl⟩
  · rw [ticksIn_singleton_of_ne htick]
    exact completes_pending_tick_kept c s htick hreset

/-- The three commands of a device reset keep the queue, and TICK does not advance by them. -/
theorem completes_of_isReset (c : Instr) (s : State) (hreset : isReset c = true) :
    Completes c s (fun t => t.pending = s.pending ∧ t.tick ≤ s.tick) := by
  cases c with
  | pwrgoodLow held => exact ⟨_, rfl, s.deviceReset_pending true held, by simp⟩
  | sysRstNAssert held => exact ⟨_, rfl, s.deviceReset_pending false held, by simp⟩
  | deviceResetRelease ok =>
    cases h : s.inReset with
    | true => exact ⟨_, exec_deviceResetRelease_of_inReset ok h, rfl, Nat.zero_le _⟩
    | false => exact ⟨s, exec_deviceResetRelease_of_not_inReset ok h, rfl, le_rfl⟩
  | _ => exact Bool.noConfusion hreset

/-- Every command completes; it keeps the queue, and TICK advances by at most what the command counts. -/
theorem completes_pending_tick_le (c : Instr) (s : State) :
    Completes c s (fun t => t.pending = s.pending ∧ t.tick ≤ s.tick + ticksIn [c]) := by
  cases hreset : isReset c with
  | true =>
    obtain ⟨t, hexec, hpending, htick⟩ := completes_of_isReset c s hreset
    exact ⟨t, hexec, hpending, htick.trans (Nat.le_add_right _ _)⟩
  | false =>
    obtain ⟨t, hexec, hpending, htick⟩ := completes_of_not_isReset c s hreset
    exact ⟨t, hexec, hpending, htick.le⟩

/-- A run without a device reset takes the queue's commands in order, and TICK counts the TICKs among them. -/
theorem run_drop_ticks (n : Nat) (s : State) (hresets : ∀ c ∈ s.pending, isReset c = false) :
    ∃ t, run n s = some t ∧ t.pending = s.pending.drop n ∧ t.tick = s.tick + ticksIn (s.pending.take n) := by
  induction n generalizing s with
  | zero => exact ⟨s, rfl, rfl, rfl⟩
  | succ n ih =>
    cases hq : s.pending with
    | nil =>
      obtain ⟨t, hrun, hpending, htick⟩ := ih s hresets
      rw [hq] at hpending htick
      refine ⟨t, ?_, by simpa using hpending, by simpa using htick⟩
      simpa only [run, step_nil s hq] using hrun
    | cons c q =>
      rw [hq] at hresets
      obtain ⟨hc, hrest⟩ := List.forall_mem_cons.mp hresets
      obtain ⟨u, hexec, hpending, htick⟩ := completes_of_not_isReset c { s with pending := q } hc
      obtain ⟨t, hrun, htp, htt⟩ := ih u (by rw [hpending]; exact hrest)
      rw [hpending] at htp htt
      refine ⟨t, ?_, by simpa using htp, ?_⟩
      · simpa only [run, step_cons s c q hq, hexec] using hrun
      · rw [htt, htick, List.take_succ_cons, ticksIn_cons c (q.take n)]
        exact Nat.add_assoc _ _ _

/-- Settles O1: the equations of `step` at a queue with a command at its front, and at an empty one. -/
theorem stepRunsTheFrontCommand : Obligations.StepRunsTheFrontCommand := by
  unfold Obligations.StepRunsTheFrontCommand
  exact ⟨fun c q s h => step_cons s c q h, step_nil⟩

/-- Settles O3: completion by the arms of `exec`, and runs by induction on the number of steps. -/
theorem everyCommandCompletesAndRunsGoOn : Obligations.EveryCommandCompletesAndRunsGoOn := by
  unfold Obligations.EveryCommandCompletesAndRunsGoOn
  refine ⟨fun c s => ?_, run_drop_ticks⟩
  obtain ⟨t, hexec, hpending, -⟩ := completes_pending_tick_le c s
  exact ⟨t, hexec, hpending⟩

/-- Settles O4: a step takes one command from the queue, and TICK gains at most what that command counted for. -/
theorem timeBoundKeptByEveryStep : Obligations.TimeBoundKeptByEveryStep := by
  unfold Obligations.TimeBoundKeptByEveryStep
  intro bound s t hbound hstep
  cases hq : s.pending with
  | nil =>
    rw [step_nil s hq] at hstep
    cases hstep
    exact hbound
  | cons c q =>
    obtain ⟨u, hexec, hpending, htick⟩ := completes_pending_tick_le c { s with pending := q }
    rw [step_cons s c q hq, hexec] at hstep
    obtain rfl : u = t := by simpa using hstep
    rw [hq, ticksIn_cons] at hbound
    rw [hpending]
    change u.tick ≤ s.tick + ticksIn [c] at htick
    change u.tick + ticksIn q ≤ bound
    omega

end Sys2Proof.Machine
end

section
/-! SUPPORT. Coulter instruction words (R142, R143): the fields of a word and the word of fields are inverse, and the word of a command reads
back as that command. -/

open Sys2Proof Sys2Proof.Machine

namespace Sys2Proof.Machine

/-- Every field is within its bits (R142). -/
structure CoW.Fits (w : CoW) : Prop where
  op : w.op < 2 ^ 8
  dst : w.dst < 2 ^ 6
  sa : w.sa < 2 ^ 6
  sb : w.sb < 2 ^ 6
  qi : w.qi < 2 ^ 3
  qs : w.qs < 2 ^ 1
  sz : w.sz < 2 ^ 2
  imm : w.imm < 2 ^ 32

/-- A word whose fields fit has 64 bits. -/
theorem CoW.word_lt {w : CoW} (h : w.Fits) : w.word < 2 ^ 64 := by
  obtain ⟨hop, hdst, hsa, hsb, hqi, hqs, hsz, himm⟩ := h
  unfold CoW.word
  omega

/-- The fields of the word of fields. -/
theorem coFields_word {w : CoW} (h : w.Fits) : coFields w.word = w := by
  obtain ⟨hop, hdst, hsa, hsb, hqi, hqs, hsz, himm⟩ := h
  obtain ⟨op, dst, sa, sb, qi, qs, sz, imm⟩ := w
  simp only at hop hdst hsa hsb hqi hqs hsz himm
  simp only [coFields, CoW.word, CoW.mk.injEq]
  omega

/-- The word of the fields of a 64-bit word. -/
theorem word_coFields (x : Nat) (h : x < 2 ^ 64) : (coFields x).word = x := by
  simp only [coFields, CoW.word]
  omega

/-- A predicated word's fields fit, whatever its operands. -/
theorem coWord_fits (op : Nat) (p : Pred) (d a b : BitVec 6) (sz : Nat) (imm : Word) (hop : op < 2 ^ 8) (hsz : sz < 2 ^ 2) :
    (coWord op p d a b sz imm).Fits :=
  ⟨hop, d.isLt, a.isLt, b.isLt, p.qi.isLt, by cases h : p.qs <;> simp [coWord, bit, h], hsz, imm.isLt⟩

/-- The code of a width fits SZ. -/
@[simp] theorem szCode_lt (w : Width) : szCode w < 4 := by cases w <;> decide

/-- The width of a width's code. -/
@[simp] theorem szWidth_szCode (w : Width) : szWidth (szCode w) = some w := by cases w <;> rfl

/-- QS is the predicate's own. -/
@[simp] theorem decide_bit_eq_one (b : Bool) : decide (bit b = 1) = b := by cases b <;> rfl

/-- QI and QS spell their predicate. -/
theorem pred_of_qi_qs (p : Pred) : (⟨p.qi, decide (bit p.qs = 1)⟩ : Pred) = p := by simp

/-- The word of a command fits, and reads back as the command. -/
theorem coWord?_spec (c : Instr) (w : CoW) (m : Nat) (hw : c.coWord? = some w) (hm : c.coMsg? = some m) :
    w.Fits ∧ coDecode m w = some c := by
  cases c
  all_goals simp only [Instr.coWord?, Instr.coMsg?, Option.some.injEq, reduceCtorEq] at hw hm
  all_goals subst hw hm
  case nop => exact ⟨by constructor <;> decide, rfl⟩
  all_goals refine ⟨coWord_fits _ _ _ _ _ _ _ (by decide) (by simp), ?_⟩
  all_goals simp [coDecode, coWord]
  case shl | shr | ins | crng => exact pred_of_qi_qs _

/-- Settles O20: fields and words are inverse by arithmetic on their places, and each command's word reads back by its opcode. -/
theorem instructionWordsSpellTheirCommands : Obligations.InstructionWordsSpellTheirCommands := by
  unfold Obligations.InstructionWordsSpellTheirCommands
  refine ⟨fun c w m hw hm => ?_, fun x hx => ⟨word_coFields x hx, ?_, rfl, rfl, rfl, rfl, rfl, rfl, rfl⟩⟩
  · obtain ⟨hfits, hdecode⟩ := coWord?_spec c w m hw hm
    rw [coFields_word hfits]
    exact ⟨CoW.word_lt hfits, rfl, hdecode⟩
  · change x / 2 ^ 56 % 256 = x / 2 ^ 56
    omega

/-- Settles O21: the manual's words have the fields, and so the opcodes and operands, that it prints. -/
theorem manualWordsReadAsTheirInstructions : Obligations.ManualWordsReadAsTheirInstructions := by
  unfold Obligations.ManualWordsReadAsTheirInstructions
  decide

end Sys2Proof.Machine
end

section
/-! SUPPORT. Coulter instructions at their slot (R113, R121, R147 to R154, R159 to R170): one rule for the slot that a command executes, and
what the width-limited operations compute. -/

open Sys2Proof Sys2Proof.Machine

namespace Sys2Proof.Machine

/-! ### One slot -/

/-- Every Coulter command executes the slot that holds its word, with the effect of the word's opcode; CNT counts beside it. -/
theorem exec_of_coWord (c : Instr) (w : CoW) (m : Nat) (s : State) (hw : c.coWord? = some w) (hm : c.coMsg? = some m) :
    exec c s = act s (fun s => s.atSlot m w (fun s x =>
      if w.op = 0x50 then s.slotCnt x w else s.slotCtx x w (coEffect w.op))) := by
  cases c
  all_goals simp only [Instr.coWord?, Instr.coMsg?, Option.some.injEq, reduceCtorEq] at hw hm
  all_goals
    subst hw hm
    rfl

/-- A command whose message stands at its slot. -/
theorem State.atSlot_of_coAt {s : State} {m : Nat} {x : Msg} {w : CoW} (hat : CoAt s m x w) (f : State → Msg → State) :
    s.atSlot m w f = f s x := by
  obtain ⟨hmsg, hrunning, hword⟩ := hat
  simp [State.atSlot, hmsg, hrunning, hword]

/-- The context that a slot leaves, before the slot is counted. -/
def coAfter (w : CoW) (s : State) (x : Msg) (eff : CoW → State → Msg → Ctx) : Ctx :=
  if w.executes x.ctx then eff w s x else x.ctx

/-- A slot changes its message's context alone. -/
theorem State.slotCtx_only {s : State} {m : Nat} {x : Msg} (hmsg : s.msg? m = some x) (w : CoW) (eff : CoW → State → Msg → Ctx) :
    MsgOnly s (s.slotCtx x w eff) m
      { x with ctx := { coAfter w s x eff with slot := (coAfter w s x eff).slot + 1 } } := by
  have hid : x.id = m := msg_id hmsg
  subst hid
  exact MsgOnly.modMsg hmsg (fun y => { y with ctx := { coAfter w s x eff with slot := (coAfter w s x eff).slot + 1 } }) (fun _ => rfl)

/-- A command other than CNT does what its opcode does to the context of the message that stands at its slot. -/
theorem coDoes_of_coAt {c : Instr} {w : CoW} {m : Nat} {s : State} {x : Msg} {f : Ctx → Ctx} (hw : c.coWord? = some w)
    (hm : c.coMsg? = some m) (hat : CoAt s m x w) (hop : w.op ≠ 0x50) (heff : coAfter w s x (coEffect w.op) = f x.ctx) :
    CoDoes c s m x f := by
  refine Completes.of_eq _ (exec_of_coWord c w m s hw hm) (State.atSlot_of_coAt hat _) ?_ ?_ ?_
  all_goals rw [if_neg hop]
  · rfl
  · rfl
  · rw [← heff]
    exact State.slotCtx_only hat.1 w _

/-- An instruction other than CNT whose predicate is 1 has the effect of its opcode. -/
theorem coDoes_of_coRuns {c : Instr} {w : CoW} {m : Nat} {s : State} {x : Msg} {f : Ctx → Ctx} (hruns : CoRuns c s m x)
    (hw : c.coWord? = some w) (hm : c.coMsg? = some m) (hop : w.op ≠ 0x50) (heff : coEffect w.op w s x = f x.ctx) :
    CoDoes c s m x f := by
  obtain ⟨w', hw', hat, hpred⟩ := hruns
  obtain rfl : w = w' := Option.some.inj (hw.symm.trans hw')
  exact coDoes_of_coAt hw hm hat hop ((if_pos hpred).trans heff)

/-- An instruction whose opcode writes G[k], where the value it writes is known. -/
theorem coDoes_setG_of_coRuns {c : Instr} {w : CoW} {m : Nat} {s : State} {x : Msg} {k : Nat} {u v : Word} (hruns : CoRuns c s m x)
    (hw : c.coWord? = some w) (hm : c.coMsg? = some m) (hop : w.op ≠ 0x50) (heff : coEffect w.op w s x = x.ctx.setG k u)
    (hvalue : u = v) : CoDoes c s m x (fun c => c.setG k v) :=
  coDoes_of_coRuns hruns hw hm hop (heff.trans (by rw [hvalue]))

/-- An instruction whose opcode writes Q[k], where the value it writes is known. -/
theorem coDoes_setQ_of_coRuns {c : Instr} {w : CoW} {m : Nat} {s : State} {x : Msg} {k : Nat} {u v : Bool} (hruns : CoRuns c s m x)
    (hw : c.coWord? = some w) (hm : c.coMsg? = some m) (hop : w.op ≠ 0x50) (heff : coEffect w.op w s x = x.ctx.setQ k u)
    (hvalue : u = v) : CoDoes c s m x (fun c => c.setQ k v) :=
  coDoes_of_coRuns hruns hw hm hop (heff.trans (by rw [hvalue]))

/-- Settles O22: a false predicate leaves the context to the slot's count alone, and CNT its counter. -/
theorem falsePredicatesPassTheSlot : Obligations.FalsePredicatesPassTheSlot := by
  unfold Obligations.FalsePredicatesPassTheSlot
  intro c w m s x hw hm hat hpred
  by_cases hop : w.op = 0x50
  · have hslot : s.slotCnt x w = s.slotCtx x w coNop := by simp [State.slotCnt, hpred]
    refine Completes.of_eq (s.slotCtx x w coNop) (exec_of_coWord c w m s hw hm) ?_ rfl rfl ?_
    · rw [State.atSlot_of_coAt hat, if_pos hop, hslot]
    · have honly := State.slotCtx_only hat.1 w coNop
      rwa [show coAfter w s x coNop = x.ctx from if_neg (by simp [hpred])] at honly
  · exact coDoes_of_coAt hw hm hat hop (if_neg (by simp [hpred]))

/-! ### Control, and counters -/

/-- CNT adds to what its counter gains in this tick, and the message goes on. -/
theorem completes_cnt {m : Nat} {p : Pred} {a : BitVec 6} {imm : Word} {s : State} {x : Msg} (hruns : CoRuns (.cnt m p a imm) s m x) :
    Completes (.cnt m p a imm) s (fun t =>
      let lo := Reg.coulterCntLo x.engine x.cls.prog (imm.toNat % 256)
      let amount := if imm.toNat / 256 % 2 = 1 then (s.operand x a.toNat).toNat else 1
      Tbl.get (fun _ => 0) t.eng.adds lo = Tbl.get (fun _ => 0) s.eng.adds lo + amount ∧
      (∀ k, k ≠ lo → Tbl.get (fun _ => 0) t.eng.adds k = Tbl.get (fun _ => 0) s.eng.adds k) ∧
      MsgOnly { s with eng := { s.eng with adds := t.eng.adds } } t m { x with ctx := { x.ctx with slot := x.ctx.slot + 1 } }) := by
  obtain ⟨w, hw, hat, hpred⟩ := hruns
  obtain rfl : coWord 0x50 p 0 a 0 0 imm = w := Option.some.inj hw
  have hslot : s.slotCnt x (coWord 0x50 p 0 a 0 0 imm) =
      (coCnt (coWord 0x50 p 0 a 0 0 imm) s x).slotCtx x (coWord 0x50 p 0 a 0 0 imm) coNop := by
    rw [State.slotCnt, if_pos hpred]
  refine Completes.of_eq _ (exec_of_coWord (.cnt m p a imm) _ m s rfl rfl) ((State.atSlot_of_coAt hat _).trans hslot) rfl rfl
    ⟨Tbl.get_set_same _ _ _ _, fun k hk => Tbl.get_set_ne _ _ _ _ _ hk, ?_⟩
  have honly := State.slotCtx_only (s := coCnt (coWord 0x50 p 0 a 0 0 imm) s x) hat.1 (coWord 0x50 p 0 a 0 0 imm) coNop
  rwa [show coAfter (coWord 0x50 p 0 a 0 0 imm) (coCnt (coWord 0x50 p 0 a 0 0 imm) s x) x coNop = x.ctx from if_pos hpred] at honly

/-- The one counter that gained in a tick is counted at its end, and its 64 bits wrap. -/
theorem State.countTick_singleton (s : State) (lo n : Nat) (hadds : s.eng.adds = [(lo, n)]) :
    s.countTick.get64 lo (lo + 4) = (s.get64 lo (lo + 4) + n) % 2 ^ 64 ∧ s.countTick.eng.adds = [] ∧
      OnlyFields s s.countTick [Fd.whole lo, Fd.whole (lo + 4)] := by
  obtain ⟨u, hu⟩ : ∃ u, u = s.set64 lo (lo + 4) ((s.get64 lo (lo + 4) + n) % 2 ^ 64) := ⟨_, rfl⟩
  have hregs : s.countTick.regs = u.regs := by simp [State.countTick, hadds, hu]
  have hrd : ∀ a, s.countTick.rd a = u.rd a := fun a => by rw [State.rd, hregs, ← State.rd]
  refine ⟨?_, rfl, OnlyFields.of_regs ((OnlyFields.refl s _).step64 _ _ _ (.head _) (.tail _ (.head _))) (hregs.trans (by rw [hu]))⟩
  rw [get64_of _ _ _ _ ((hrd _).trans (hu ▸ rd_set64_lo _ _ _ _ (by omega))) ((hrd _).trans (hu ▸ rd_set64_hi _ _ _ _)), Nat.mod_mod]

/-- Settles O23: the control instructions by their effect on the context, CNT and the tick's count by the lemmas on counters. -/
theorem controlInstructionsAndCounters : Obligations.ControlInstructionsAndCounters := by
  unfold Obligations.ControlInstructionsAndCounters
  refine ⟨fun m s x hat => coDoes_of_coAt rfl rfl hat (by decide) (ite_self _), fun m p s x h => ?ends, fun m p n s x h => ?skips,
    fun m p b s x h => ?nexts, fun m p a imm s x h => completes_cnt h, State.countTick_singleton⟩
  case ends => exact coDoes_of_coRuns h rfl rfl (by simp [coWord]) rfl
  case skips => exact coDoes_of_coRuns h rfl rfl (by simp [coWord]) rfl
  case nexts => exact coDoes_of_coRuns h rfl rfl (by simp [coWord]) rfl

/-! ### Arithmetic and logic -/

/-- The sum of a width is that of the whole words, reduced. -/
theorem addW_eq (w : Nat) (a b : Word) : addW w a b = BitVec.ofNat 32 ((a.toNat + b.toNat) % 2 ^ w) := by
  unfold addW lowBits
  rw [← Nat.add_mod]

/-- The difference of a width as an integer, reduced. -/
theorem subW_toInt (w : Nat) (a b : Word) :
    (((2 ^ w + lowBits w a - lowBits w b) % 2 ^ w : Nat) : Int) = ((a.toNat : Int) - b.toNat) % 2 ^ w := by
  have hle : lowBits w b ≤ 2 ^ w + lowBits w a := ((Nat.mod_lt _ (Nat.two_pow_pos w)).le).trans (Nat.le_add_right _ _)
  unfold lowBits at hle ⊢
  push_cast [Nat.cast_sub hle]
  rw [add_sub_assoc, Int.add_emod_left, ← Int.sub_emod]

/-- The difference of a width is that of the whole words, reduced. -/
theorem subW_eq (w : Nat) (a b : Word) : subW w a b = BitVec.ofInt 32 (((a.toNat : Int) - b.toNat) % 2 ^ w) := by
  rw [← subW_toInt, BitVec.ofInt_natCast]
  rfl

/-- Settles O24: each operation by its effect on the context, sums and differences by their reductions. -/
theorem aluInstructionsWriteTheirResult : Obligations.AluInstructionsWriteTheirResult := by
  unfold Obligations.AluInstructionsWriteTheirResult
  refine ⟨fun m p w d a b s x h => ?adds, fun m p w d a b s x h => ?subs, fun m p w d a imm s x h => ?addis,
    fun m p d a b s x h => ?ands, fun m p d a b s x h => ?ors, fun m p d a b s x h => ?xors, fun m p d a s x h => ?movs,
    fun m p d imm s x h => ?ldis, fun m p d a imm s x h => ?andis⟩
  case adds => exact coDoes_setG_of_coRuns h rfl rfl (by simp [coWord]) rfl (addW_eq _ _ _)
  case subs => exact coDoes_setG_of_coRuns h rfl rfl (by simp [coWord]) rfl (subW_eq _ _ _)
  case addis =>
    refine coDoes_setG_of_coRuns h rfl rfl (by simp [coWord]) rfl ((addW_eq _ _ _).trans ?_)
    simp [coWord]
  case ands => exact coDoes_of_coRuns h rfl rfl (by simp [coWord]) rfl
  case ors => exact coDoes_of_coRuns h rfl rfl (by simp [coWord]) rfl
  case xors => exact coDoes_of_coRuns h rfl rfl (by simp [coWord]) rfl
  case movs => exact coDoes_of_coRuns h rfl rfl (by simp [coWord]) rfl
  case ldis => exact coDoes_setG_of_coRuns h rfl rfl (by simp [coWord]) rfl (by simp [coWord])
  case andis => exact coDoes_setG_of_coRuns h rfl rfl (by simp [coWord]) rfl (by simp [coWord])

/-! ### Shifts, fields and compares -/

/-- A left shift multiplies, modulo 2^32. -/
theorem shl_eq_ofNat (a : Word) (n : Nat) : a <<< n = BitVec.ofNat 32 (a.toNat * 2 ^ n) := by
  apply BitVec.eq_of_toNat_eq
  simp [Nat.shiftLeft_eq]

/-- A right shift divides. -/
theorem shr_eq_ofNat (a : Word) (n : Nat) : a >>> n = BitVec.ofNat 32 (a.toNat / 2 ^ n) := by
  apply BitVec.eq_of_toNat_eq
  have hlt : a.toNat / 2 ^ n < 2 ^ 32 := (Nat.div_le_self _ _).trans_lt a.isLt
  rw [BitVec.toNat_ushiftRight, Nat.shiftRight_eq_div_pow, BitVec.toNat_ofNat, Nat.mod_eq_of_lt hlt]

/-- EXT bit by bit. -/
theorem getLsbD_extField (a : Word) (pos len k : Nat) (hk : k < 32) :
    (extField a pos len).getLsbD k = (decide (k < len) && a.getLsbD (pos + k)) := by
  unfold extField
  rw [BitVec.getLsbD_ofNat, Nat.testBit_mod_two_pow, Nat.testBit_shiftRight, decide_eq_true hk, Bool.true_and, BitVec.getLsbD]

/-- INS bit by bit. -/
theorem getLsbD_insField (a b : Word) (pos len k : Nat) (hk : k < 32) :
    (insField a b pos len).getLsbD k = if pos ≤ k ∧ k < pos + len then b.getLsbD (k - pos) else a.getLsbD k := by
  have hmask := getLsbD_fieldMask pos len k
  unfold fieldMask at hmask
  unfold insField
  simp only [BitVec.getLsbD_or, BitVec.getLsbD_and, BitVec.getLsbD_not, BitVec.getLsbD_shiftLeft, hmask, hk]
  by_cases hin : pos ≤ k ∧ k < pos + len
  · simp [hin]
  · simp [hin]

/-- CRNG's difference below its span. -/
theorem subW_lt_iff (z : Width) (a b : Word) (n : Nat) :
    (subW (szBits (szCode z)) a b).toNat < n ↔
      ((a.toNat % 2 ^ szBits (szCode z) : Nat) - (b.toNat % 2 ^ szBits (szCode z) : Nat) : Int) % 2 ^ szBits (szCode z) < n := by
  have hbits : 2 ^ szBits (szCode z) ≤ 2 ^ 32 := by cases z <;> decide
  have hval : (subW (szBits (szCode z)) a b).toNat = (2 ^ szBits (szCode z) + lowBits (szBits (szCode z)) a -
      lowBits (szBits (szCode z)) b) % 2 ^ szBits (szCode z) := by
    unfold subW
    rw [BitVec.toNat_ofNat, Nat.mod_eq_of_lt ((Nat.mod_lt _ (Nat.two_pow_pos _)).trans_le hbits)]
  have hint := subW_toInt (szBits (szCode z)) a b
  rw [← hval] at hint
  push_cast
  rw [← Int.sub_emod, ← hint]
  exact Int.ofNat_lt.symm

/-- Settles O25: each shift, field and compare by its effect on the context and what that computes. -/
theorem shiftFieldAndCompareInstructions : Obligations.ShiftFieldAndCompareInstructions := by
  unfold Obligations.ShiftFieldAndCompareInstructions
  refine ⟨fun m p d a b imm s x => ⟨fun h => ?shls, fun h => ?shrs⟩,
    fun m p d a imm s x pos len hpos hlen _ _ h => ⟨extField (s.operand x a.toNat) pos len, fun k hk => getLsbD_extField _ _ _ k hk, ?exts⟩,
    fun m p d a b imm s x pos len hpos hlen _ _ h =>
      ⟨insField (s.operand x a.toNat) (s.operand x b.toNat) pos len, fun k hk => getLsbD_insField _ _ _ _ k hk, ?inss⟩,
    fun m p w d a b span s x => ⟨fun h => ?eqs, fun h => ?nes, fun h => ?lts, fun h => ?ges, fun h => ?rngs⟩⟩
  case shls => exact coDoes_setG_of_coRuns h rfl rfl (by simp [coWord]) rfl (shl_eq_ofNat _ _)
  case shrs => exact coDoes_setG_of_coRuns h rfl rfl (by simp [coWord]) rfl (shr_eq_ofNat _ _)
  case exts => subst hpos hlen; exact coDoes_of_coRuns h rfl rfl (by simp [coWord]) rfl
  case inss => subst hpos hlen; exact coDoes_of_coRuns h rfl rfl (by simp [coWord]) rfl
  case eqs => exact coDoes_of_coRuns h rfl rfl (by simp [coWord]) rfl
  case nes => exact coDoes_of_coRuns h rfl rfl (by simp [coWord]) rfl
  case lts => exact coDoes_of_coRuns h rfl rfl (by simp [coWord]) rfl
  case ges => exact coDoes_of_coRuns h rfl rfl (by simp [coWord]) rfl
  case rngs =>
    exact coDoes_setQ_of_coRuns h rfl rfl (by simp [coWord]) rfl (decide_eq_decide.mpr (subW_lt_iff w _ _ _))

/-! ### Actions -/

/-- Settles O27: each action by its effect on the action record. -/
theorem actionsWriteTheirRecordField : Obligations.ActionsWriteTheirRecordField := by
  unfold Obligations.ActionsWriteTheirRecordField
  refine ⟨fun m p a b form s x h => ?tgts, fun m p a b form s x h => ?twins, fun m p s x h => ?homes, fun m p k s x h => ?keys,
    fun m p v s x h => ?marks, fun m p k s x h => ?atoms, fun m p s x h => ?drops, fun m p s x h => ?psns, fun m p r s x h => ?traps⟩
  case tgts => exact coDoes_of_coRuns h rfl rfl (by simp [coWord]) rfl
  case twins => exact coDoes_of_coRuns h rfl rfl (by simp [coWord]) rfl
  case homes => exact coDoes_of_coRuns h rfl rfl (by simp [coWord]) rfl
  case keys =>
    have hzero : (k.toNat = 0) = (k = 0) := propext ⟨fun h => BitVec.eq_of_toNat_eq h, fun h => by rw [h]; rfl⟩
    exact coDoes_of_coRuns h rfl rfl (by simp [coWord]) (by simp [coWord, coEffect, coKey, Ctx.setAct, hzero])
  case marks => exact coDoes_of_coRuns h rfl rfl (by simp [coWord]) rfl
  case atoms =>
    have hone : (k.toNat = 1) = (k = 1) := propext ⟨fun h => BitVec.eq_of_toNat_eq h, fun h => by rw [h]; rfl⟩
    exact coDoes_of_coRuns h rfl rfl (by simp [coWord]) (by simp [coWord, coEffect, coAtom, Ctx.setAct, hone])
  case drops => exact coDoes_of_coRuns h rfl rfl (by simp [coWord]) rfl
  case psns => exact coDoes_of_coRuns h rfl rfl (by simp [coWord]) rfl
  case traps => exact coDoes_of_coRuns h rfl rfl (by simp [coWord]) rfl

end Sys2Proof.Machine
end

section
/-! SUPPORT. The hedge's register commands (R199 to R207): its check, its commit and the switch-over, the drain, the seed and the rule
words. -/

open Sys2Proof Sys2Proof.Machine

namespace Sys2Proof.Machine

/-! ### Commands that act on a condition, and registers after equal writes -/

/-- A command whose condition holds is its effect. -/
theorem Completes.of_when {c : Instr} {s : State} {P : State → Prop} {b : State → Bool} {g : State → State} (u : State)
    (h : exec c s = act s (fun s => s.when (b s) g)) (hb : b s = true) (hu : g s = u) (hpending : u.pending = s.pending)
    (htick : u.tick = s.tick) (hp : P u) : Completes c s P :=
  Completes.of_eq u h ((if_pos hb).trans hu) hpending htick hp

/-- A command whose condition fails is no event (log 3). -/
theorem exec_of_when_false {c : Instr} {s : State} {b : State → Bool} {g : State → State}
    (h : exec c s = act s (fun s => s.when (b s) g)) (hb : b s = false) : exec c s = .next s :=
  exec_of_act s h (if_neg (by simp [hb])) rfl rfl

/-- A register write depends on the registers alone. -/
theorem State.wr_regs_congr {s t : State} (h : t.regs = s.regs) (a : Nat) (v : Word) : (t.wr a v).regs = (s.wr a v).regs := by
  unfold State.wr
  rw [h]

/-- A field write depends on the registers alone. -/
theorem State.setF_regs_congr {s t : State} (h : t.regs = s.regs) (f : Fd) (v : Nat) : (t.setF f v).regs = (s.setF f v).regs := by
  unfold State.setF State.rd
  rw [h]
  exact State.wr_regs_congr h _ _

/-! ### The check (R199) -/

/-- GO with no commit pending and no check running. -/
theorem State.hedgeCheckGo_of_idle {s : State} (hpending : s.getF Fld.hedgeCommitStatPending = 0) (hbusy : s.getF Fld.hedgeCheckBusy = 0) :
    s.hedgeCheckGo = { s.setF Fld.hedgeCheckBusy 1 with hedge := { s.hedge with dirty := false } } := by
  simp [State.hedgeCheckGo, State.hedgePending, hpending, hbusy]

theorem completes_hedgeCheck (s : State) (hpending : s.getF Fld.hedgeCommitStatPending = 0) (hbusy : s.getF Fld.hedgeCheckBusy = 0) :
    Completes .hedgeCheck s (fun t => t.getF Fld.hedgeCheckBusy = 1 ∧ OnlyFields s t [Fld.hedgeCheckBusy] ∧
      t = { s with regs := t.regs, hedge := { s.hedge with dirty := false } }) := by
  have hset : (s.setF Fld.hedgeCheckBusy 1).getF Fld.hedgeCheckBusy = 1 := getF_fit _ _ _ (by decide) (by decide)
  exact Completes.of_eq (f := (·.hedgeCheckGo)) _ rfl (State.hedgeCheckGo_of_idle hpending hbusy) rfl rfl
    ⟨hset, OnlyFields.of_regs (OnlyFields.setF s _ _ _ (List.mem_singleton.mpr rfl)) rfl, rfl⟩

/-- The fields that the end of a check writes, for the violation it found. -/
def checkFields (s : State) (v : Option (Nat × Nat)) : List (Fd × Nat) :=
  [(Fld.hedgeCheckBusy, 0), (Fld.hedgeLoadStatViol, (v.map (·.1)).getD 0), (Fld.hedgeLoadStatIndex, (v.map (·.2)).getD 0),
    (Fld.hedgeCheckPass, bit (v.isNone && !s.hedge.dirty))]

theorem completes_hedgeCheckDone (s : State) (hbusy : s.getF Fld.hedgeCheckBusy = 1) :
    Completes .hedgeCheckDone s (fun t =>
      t.getF Fld.hedgeCheckBusy = 0 ∧
      (t.getF Fld.hedgeCheckPass = 1 ↔ s.hedgeViol = none ∧ s.hedge.dirty = false) ∧
      (s.hedgeViol = none → t.getF Fld.hedgeLoadStatViol = 0 ∧ t.getF Fld.hedgeLoadStatIndex = 0) ∧
      (∀ code index, s.hedgeViol = some (code, index) → code < 256 → index < 262144 →
        t.getF Fld.hedgeLoadStatViol = code ∧ t.getF Fld.hedgeLoadStatIndex = index) ∧
      RegsOnly s t [Fld.hedgeCheckBusy, Fld.hedgeCheckPass, Fld.hedgeLoadStatViol, Fld.hedgeLoadStatIndex]) := by
  generalize hv : s.hedgeViol = v
  have hend : s.hedgeCheckEnd = s.setFs (checkFields s v) := by rw [← hv]; rfl
  have hread := getF_setFs (checkFields s v) (by simp [checkFields]; decide) (by simp [checkFields]; decide) s
  simp only [checkFields, List.forall_mem_cons] at hread
  obtain ⟨hbusy', hviol, hindex, hpass, -⟩ := hread
  refine Completes.of_eq (f := (·.when (decide (s.getF Fld.hedgeCheckBusy = 1)) (·.hedgeCheckEnd))) (s.setFs (checkFields s v)) rfl
    ((if_pos (decide_eq_true hbusy)).trans hend) (s.setFs_pending _) (s.setFs_tick _) ⟨hbusy', ?_, fun h => ?_, fun code index h hc hi => ?_,
      State.setFs_eq _ s, OnlyFields.setFs _ _ (by simp [checkFields]) s⟩
  · rw [checkFields, hpass]
    cases v <;> cases s.hedge.dirty <;> simp [bit, Fld.hedgeCheckPass]
  · subst h
    exact ⟨hviol, hindex⟩
  · subst h
    exact ⟨hviol.trans (Nat.mod_eq_of_lt hc), hindex.trans (Nat.mod_eq_of_lt hi)⟩

/-- Settles O5: GO by its field, and the check's end by the four fields it writes. -/
theorem hedgeCheckRunsAndRecordsItsResult : Obligations.HedgeCheckRunsAndRecordsItsResult := by
  unfold Obligations.HedgeCheckRunsAndRecordsItsResult
  exact ⟨completes_hedgeCheck, completes_hedgeCheckDone⟩

/-! ### The commit and its boundary (R18, R200) -/

/-- GO with PASS and no commit pending. -/
theorem State.hedgeCommit_of_pass {s : State} (hpending : s.getF Fld.hedgeCommitStatPending = 0) (hpass : s.getF Fld.hedgeCheckPass = 1) :
    s.hedgeCommit = s.acceptCommit .hedge Fld.hedgeCommitStatPending Reg.hedgeCommitTickLo Reg.hedgeCommitTickHi
      Reg.hedgeCommitFurlongLo Reg.hedgeCommitFurlongHi := by
  simp [State.hedgeCommit, State.hedgePending, hpending, hpass]

theorem completes_hedgeCommit (s : State) (hpending : s.getF Fld.hedgeCommitStatPending = 0) (hpass : s.getF Fld.hedgeCheckPass = 1) :
    Completes .hedgeCommit s (fun t =>
      t.getF Fld.hedgeCommitStatPending = 1 ∧
      t.rd Reg.hedgeCommitTickLo = BitVec.ofNat 32 s.tick ∧ t.rd Reg.hedgeCommitTickHi = BitVec.ofNat 32 (s.tick / 2 ^ 32) ∧
      t.rd Reg.hedgeCommitFurlongLo = BitVec.ofNat 32 s.commitFurlong ∧
      t.rd Reg.hedgeCommitFurlongHi = BitVec.ofNat 32 (s.commitFurlong / 2 ^ 32) ∧
      t.commits = s.commits ++ [(.hedge, s.commitFurlong)] ∧
      OnlyFields s t [Fld.hedgeCommitStatPending, Fd.whole Reg.hedgeCommitTickLo, Fd.whole Reg.hedgeCommitTickHi,
        Fd.whole Reg.hedgeCommitFurlongLo, Fd.whole Reg.hedgeCommitFurlongHi] ∧
      t = { s with regs := t.regs, commits := t.commits }) := by
  refine (commits_ok (f := (·.hedgeCommit)) rfl (State.hedgeCommit_of_pass hpending hpass) (by decide) rfl (by decide)).mono ?_
  rintro t ⟨hset, hcommits, htl, hth, hfl, hfh, hframe⟩
  exact ⟨hset, htl, hth, hfl, hfh, hcommits, hframe⟩

/-- The fields of a hedge commit's boundary. -/
def switchFields (s : State) : List (Fd × Nat) :=
  [(Fld.hedgeCommitStatInforce, 1 - s.getF Fld.hedgeCommitStatInforce), (Fld.hedgeCommitStatDraining, 1), (Fld.hedgeDrainDone, 0)]

/-- The registers at a hedge commit's boundary. -/
theorem State.hedgeSwitch_regs (s : State) :
    s.hedgeSwitch.regs = (((s.setFs (switchFields s)).wr Reg.hedgeEpoch (s.rd Reg.hedgeEpoch + 1)).setF Fld.hedgeCheckPass 0).regs := by
  have hepoch : (s.setFs (switchFields s)).rd Reg.hedgeEpoch = s.rd Reg.hedgeEpoch :=
    (State.rd_setF_ne _ Fld.hedgeDrainDone _ _ (by decide)).trans
      ((State.rd_setF_ne _ Fld.hedgeCommitStatDraining _ _ (by decide)).trans (State.rd_setF_ne _ Fld.hedgeCommitStatInforce _ _ (by decide)))
  obtain ⟨u, hu⟩ : ∃ u : State, u = { s.setFs (switchFields s) with hedge := { s.hedge with drained := false, overdue := false } } := ⟨_, rfl⟩
  have hswitch : s.hedgeSwitch = (u.wr Reg.hedgeEpoch (u.rd Reg.hedgeEpoch + 1)).hedgeTouch := by rw [hu]; rfl
  have hregs : u.regs = (s.setFs (switchFields s)).regs := by rw [hu]
  have hrd : u.rd Reg.hedgeEpoch = s.rd Reg.hedgeEpoch := by rw [← hepoch, State.rd, hregs, ← State.rd]
  rw [hswitch, hrd]
  exact State.setF_regs_congr (State.wr_regs_congr hregs _ _) _ _

/-- A hedge commit's boundary changes registers, and of the hedge that the drain begins and the check's standing ends. -/
theorem State.hedgeSwitch_only (s : State) :
    s.hedgeSwitch = { s with regs := s.hedgeSwitch.regs, hedge := { s.hedge with drained := false, overdue := false, dirty := true } } := by
  unfold State.hedgeSwitch State.hedgeTouch
  dsimp only
  rw [State.setFs_eq]
  rfl

/-- What a hedge commit's boundary leaves in the registers. -/
theorem State.hedgeSwitch_shows (s : State) :
    s.hedgeSwitch.getF Fld.hedgeCommitStatInforce = 1 - s.getF Fld.hedgeCommitStatInforce ∧
    s.hedgeSwitch.getF Fld.hedgeCommitStatDraining = 1 ∧ s.hedgeSwitch.getF Fld.hedgeDrainDone = 0 ∧
    s.hedgeSwitch.getF Fld.hedgeCheckPass = 0 ∧ s.hedgeSwitch.rd Reg.hedgeEpoch = s.rd Reg.hedgeEpoch + 1 ∧
    OnlyFields s s.hedgeSwitch [Fld.hedgeCommitStatInforce, Fld.hedgeCommitStatDraining, Fld.hedgeDrainDone, Fld.hedgeCheckPass,
      Fd.whole Reg.hedgeEpoch] := by
  have hread := getF_setFs (switchFields s) (by simp [switchFields]; decide) (by simp [switchFields]; decide) s
  simp only [switchFields, List.forall_mem_cons] at hread
  obtain ⟨hforce, hdrain, hdone, -⟩ := hread
  rw [Nat.mod_eq_of_lt (by simp only [Fld.hedgeCommitStatInforce]; omega)] at hforce
  have hlate : ∀ g : Fd, g.addr ≠ Reg.hedgeEpoch → g.addr ≠ Reg.hedgeCheck → s.hedgeSwitch.getF g = (s.setFs (switchFields s)).getF g := by
    intro g hne hcheck
    rw [getF_regs s.hedgeSwitch_regs, State.getF_setF_ne _ _ _ _ (.inl hcheck), State.getF_wr_ne _ _ _ _ hne]
  refine ⟨(hlate _ (by decide) (by decide)).trans hforce, (hlate _ (by decide) (by decide)).trans hdrain,
    (hlate _ (by decide) (by decide)).trans hdone, ?_, ?_, ?_⟩
  · rw [getF_regs s.hedgeSwitch_regs, getF_fit _ _ _ (by decide) (by decide)]
  · rw [State.rd, s.hedgeSwitch_regs, ← State.rd, State.rd_setF_ne _ _ _ _ (by decide), State.rd_wr_same]
  · refine OnlyFields.of_regs ?_ s.hedgeSwitch_regs
    exact (((OnlyFields.refl s _).stepFs _ (by simp [switchFields])).stepW _ _ (by simp)).stepF _ _ (by simp)

/-- The one commit that waits is due, outside start-up step 6. -/
theorem State.switchOver_of_hedge {s : State} {f : Nat} (hphase : s.phase = 0) (hcommits : s.commits = [(.hedge, f)]) (hdue : f ≤ s.furlong)
    (hstep : s.getF Fld.cprStartStep ≠ 6) : s.switchOver = ({ s.newEpoch with commits := [] } : State).hedgeSwitch := by
  obtain ⟨u, hu⟩ : ∃ u : State, u = { s.newEpoch with commits := [] } := ⟨_, rfl⟩
  have hleft : ({ s.newEpoch with commits := s.newEpoch.commits.filter (fun x => !decide (x.2 ≤ s.newEpoch.furlong)) } : State) = u := by
    have hnone : s.newEpoch.commits.filter (fun x => !decide (x.2 ≤ s.newEpoch.furlong)) = [] := by
      change s.commits.filter (fun x => !decide (x.2 ≤ s.furlong)) = []
      simp [hcommits, hdue]
    rw [hnone, hu]
  have hkept : u.hedgeSwitch.getF Fld.cprStartStep ≠ 6 := by
    rw [getF_regs u.hedgeSwitch_regs, State.getF_setF_ne _ _ _ _ (by decide), State.getF_wr_ne _ _ _ _ (by decide),
      State.getF_setFs_ne _ _ _ (by simp [switchFields]; decide), hu]
    exact hstep
  have hcheck : u.hedgeSwitch.step6Check = u.hedgeSwitch := if_neg (fun h => hkept h.1)
  have hlist : s.dueCommits = [.hedge] := by simp [State.dueCommits, hcommits, hdue]
  unfold State.switchOver
  simp only [hphase, hlist, ne_eq, not_true_eq_false, if_false, List.cons_ne_nil, hleft, List.foldl_cons, List.foldl_nil, ← hu]
  exact hcheck

theorem completes_commitSwitchOver_hedge (s : State) (f : Nat) (hphase : s.phase = 0) (hcommits : s.commits = [(.hedge, f)])
    (hdue : f ≤ s.furlong) (hstep : s.getF Fld.cprStartStep ≠ 6) :
    Completes .commitSwitchOver s (fun t =>
      t.getF Fld.hedgeCommitStatInforce = 1 - s.getF Fld.hedgeCommitStatInforce ∧
      t.getF Fld.hedgeCommitStatDraining = 1 ∧ t.getF Fld.hedgeDrainDone = 0 ∧ t.getF Fld.hedgeCheckPass = 0 ∧
      t.rd Reg.hedgeEpoch = s.rd Reg.hedgeEpoch + 1 ∧ t.commits = [] ∧
      t.hedge.rulesA = s.hedge.rulesA ∧ t.hedge.rulesB = s.hedge.rulesB ∧
      OnlyFields s t [Fld.hedgeCommitStatInforce, Fld.hedgeCommitStatDraining, Fld.hedgeDrainDone, Fld.hedgeCheckPass,
        Fd.whole Reg.hedgeEpoch] ∧
      t = { s with regs := t.regs, commits := t.commits, hedge := t.hedge, dp := { s.dp with snaps := t.dp.snaps, epoch := t.dp.epoch } }) := by
  obtain ⟨u, hu⟩ : ∃ u : State, u = { s.newEpoch with commits := [] } := ⟨_, rfl⟩
  have hregs : u.regs = s.regs := by rw [hu]; rfl
  have hrd : ∀ a, u.rd a = s.rd a := fun a => by rw [State.rd, hregs, ← State.rd]
  have hswitch : s.switchOver = u.hedgeSwitch := by rw [State.switchOver_of_hedge hphase hcommits hdue hstep, hu]
  obtain ⟨hforce, hdrain, hdone, hpass, hepoch, hframe⟩ := u.hedgeSwitch_shows
  rw [getF_regs hregs] at hforce
  rw [hrd] at hepoch
  have honly := u.hedgeSwitch_only
  generalize u.hedgeSwitch = t at hswitch hforce hdrain hdone hpass hepoch hframe honly
  subst hu
  refine Completes.of_eq (f := (·.switchOver)) t rfl hswitch (by rw [honly]; rfl) (by rw [honly]; rfl)
    ⟨hforce, hdrain, hdone, hpass, hepoch, by rw [honly], by rw [honly]; rfl, by rw [honly]; rfl, fun a b hb => ?_, by rw [honly]; rfl⟩
  rw [← hrd]
  exact hframe a b hb

/-- Settles O6: GO by the accepted commit's registers, and the boundary by the one commit that falls due at it. -/
theorem hedgeCommitSwitchesAtItsBoundary : Obligations.HedgeCommitSwitchesAtItsBoundary := by
  unfold Obligations.HedgeCommitSwitchesAtItsBoundary
  exact ⟨completes_hedgeCommit, completes_commitSwitchOver_hedge⟩

/-! ### The drain (R202, R204) -/

/-- The fields that the end of a drain writes. -/
def drainFields : List (Fd × Nat) := [(Fld.hedgeDrainDone, 1), (Fld.hedgeCommitStatDraining, 0), (Fld.hedgeCommitStatPending, 0)]

theorem completes_drainDone (s : State) (hdraining : s.getF Fld.hedgeCommitStatDraining = 1) (hold : s.oldItems = 0)
    (hdrained : s.hedge.drained = true) :
    Completes .drainDone s (fun t =>
      t.getF Fld.hedgeDrainDone = 1 ∧ t.getF Fld.hedgeCommitStatDraining = 0 ∧ t.getF Fld.hedgeCommitStatPending = 0 ∧
      t.rd Reg.hedgeDrainTickLo = BitVec.ofNat 32 s.tick ∧ t.rd Reg.hedgeDrainTickHi = BitVec.ofNat 32 (s.tick / 2 ^ 32) ∧
      RegsOnly s t [Fld.hedgeDrainDone, Fld.hedgeCommitStatDraining, Fld.hedgeCommitStatPending,
        Fd.whole Reg.hedgeDrainTickLo, Fd.whole Reg.hedgeDrainTickHi]) := by
  have hwhen : (decide (s.getF Fld.hedgeCommitStatDraining = 1 ∧ s.oldItems = 0) && s.hedge.drained) = true := by
    simp [hdraining, hold, hdrained]
  have hread := getF_setFs drainFields (by decide) (by decide) s
  simp only [drainFields, List.forall_mem_cons] at hread
  obtain ⟨hdone, hstat, hpending, -⟩ := hread
  have hkeep : ∀ g : Fd, g.addr ≠ Reg.hedgeDrainTickLo → g.addr ≠ Reg.hedgeDrainTickHi →
      ((s.setFs drainFields).set64 Reg.hedgeDrainTickLo Reg.hedgeDrainTickHi s.tick).getF g = (s.setFs drainFields).getF g :=
    fun g hlo hhi => getF_set64_ne _ _ _ _ _ hlo hhi
  have hro : RO s ((s.setFs drainFields).set64 Reg.hedgeDrainTickLo Reg.hedgeDrainTickHi s.tick) :=
    RO.step64 (RO.stepFs (RO.refl s) _) _ _ _
  refine Completes.of_when (b := fun s => decide (s.getF Fld.hedgeCommitStatDraining = 1 ∧ s.oldItems = 0) && s.hedge.drained)
    ((s.setFs drainFields).set64 Reg.hedgeDrainTickLo Reg.hedgeDrainTickHi s.tick) rfl hwhen rfl hro.pending hro.tick ⟨(hkeep _ (by decide) (by decide)).trans hdone,
    (hkeep _ (by decide) (by decide)).trans hstat, (hkeep _ (by decide) (by decide)).trans hpending,
    rd_set64_lo _ _ _ _ (by decide), rd_set64_hi _ _ _ _, hro, ?_⟩
  exact ((OnlyFields.refl s _).stepFs drainFields (by simp [drainFields])).step64 _ _ _ (by simp) (by simp)

theorem completes_drainOverdue (s : State) (hdraining : s.getF Fld.hedgeCommitStatDraining = 1) (htmo : s.getF Fld.hedgeDrainTmoMs ≠ 0)
    (hoverdue : s.hedge.overdue = false)
    (hpast : 256 * s.get64 Reg.hedgeCommitFurlongLo Reg.hedgeCommitFurlongHi + 250000 * s.getF Fld.hedgeDrainTmoMs ≤ s.tick) :
    Completes .drainOverdue s (fun t =>
      t.getF Fld.hedgeDrainOverdue = 1 ∧ OnlyFields s t [Fld.hedgeDrainOverdue] ∧
      t = { s with regs := t.regs, hedge := { s.hedge with overdue := true }, flt := { s.flt with tickEvents := s.flt.tickEvents ++
        [{ src := 0x06, tick := s.tick, d0 := s.oldItems, d1 := (s.rd Reg.hedgeEpoch).toNat }] } }) := by
  have hlate : s.drainLate = true := by simp [State.drainLate, State.aonPast, hdraining, htmo, hoverdue, hpast]
  have hset : (s.setF Fld.hedgeDrainOverdue 1).getF Fld.hedgeDrainOverdue = 1 := getF_fit _ _ _ (by decide) (by decide)
  exact Completes.of_when _ rfl hlate rfl rfl rfl
    ⟨hset, OnlyFields.of_regs (OnlyFields.setF s _ _ _ (List.mem_singleton.mpr rfl)) rfl, rfl⟩

/-- Settles O7: the two ends of a drain, each where its condition holds. -/
theorem hedgeDrainEndsOrIsOverdue : Obligations.HedgeDrainEndsOrIsOverdue := by
  unfold Obligations.HedgeDrainEndsOrIsOverdue
  exact ⟨completes_drainDone, completes_drainOverdue⟩

end Sys2Proof.Machine
end

section
/-! SUPPORT. The hedge's seed and the rule words (R203, R207). -/

open Sys2Proof Sys2Proof.Machine

namespace Sys2Proof.Machine

/-- SEED with no commit pending. -/
theorem State.hedgeSeed_of_idle {s : State} (hpending : s.getF Fld.hedgeCommitStatPending = 0) :
    s.hedgeSeed = (s.setF Fld.hedgeCopyCtlBusy 1).hedgeTouch := by
  simp [State.hedgeSeed, State.hedgePending, hpending]

theorem completes_hedgeSeed (s : State) (hpending : s.getF Fld.hedgeCommitStatPending = 0) :
    Completes .hedgeSeed s (fun t =>
      t.getF Fld.hedgeCopyCtlBusy = 1 ∧ t.getF Fld.hedgeCheckPass = 0 ∧
      OnlyFields s t [Fld.hedgeCopyCtlBusy, Fld.hedgeCheckPass] ∧
      t = { s with regs := t.regs, hedge := { s.hedge with dirty := true } }) := by
  have hwrites : Writes s (s.setFs [(Fld.hedgeCopyCtlBusy, 1), (Fld.hedgeCheckPass, 0)]) _ := Writes.setFs _ (by decide) (by decide) s
  obtain ⟨hset, hframe⟩ := hwrites
  simp only [List.forall_mem_cons] at hset
  obtain ⟨hbusy, hpass, -⟩ := hset
  exact Completes.of_eq (f := (·.hedgeSeed)) _ rfl (State.hedgeSeed_of_idle hpending) rfl rfl
    ⟨hbusy, hpass, OnlyFields.of_regs hframe rfl, rfl⟩

/-! ### The two copies -/

/-- The load copy depends on INFORCE and the copies. -/
theorem State.loadRules_congr {s t : State} (hforce : t.getF Fld.hedgeCommitStatInforce = s.getF Fld.hedgeCommitStatInforce)
    (hA : t.hedge.rulesA = s.hedge.rulesA) (hB : t.hedge.rulesB = s.hedge.rulesB) : t.loadRules = s.loadRules := by
  unfold State.loadRules
  rw [hforce, hA, hB]

/-- So does the copy in force. -/
theorem State.forceRules_congr {s t : State} (hforce : t.getF Fld.hedgeCommitStatInforce = s.getF Fld.hedgeCommitStatInforce)
    (hA : t.hedge.rulesA = s.hedge.rulesA) (hB : t.hedge.rulesB = s.hedge.rulesB) : t.forceRules = s.forceRules := by
  unfold State.forceRules State.ruleCopy
  rw [hforce, hA, hB]

/-- The load copy set, and the copy in force as it was. -/
theorem State.setLoadRules_rules (s : State) (t : Tbl Word) :
    (s.setLoadRules t).loadRules = t ∧ (s.setLoadRules t).forceRules = s.forceRules := by
  have hforce : (s.setLoadRules t).getF Fld.hedgeCommitStatInforce = s.getF Fld.hedgeCommitStatInforce := rfl
  unfold State.loadRules State.forceRules State.ruleCopy
  rw [hforce]
  by_cases h : s.getF Fld.hedgeCommitStatInforce = 1 <;> simp [State.setLoadRules, h]

/-- Fields other than INFORCE leave both copies. -/
theorem State.setF_rules (s : State) (f : Fd) (v : Nat) (h : f.addr ≠ Reg.hedgeCommitStat) :
    (s.setF f v).loadRules = s.loadRules ∧ (s.setF f v).forceRules = s.forceRules := by
  have hforce : (s.setF f v).getF Fld.hedgeCommitStatInforce = s.getF Fld.hedgeCommitStatInforce := State.getF_setF_ne _ _ _ _ (.inl h.symm)
  exact ⟨State.loadRules_congr hforce rfl rfl, State.forceRules_congr hforce rfl rfl⟩

/-- The end of the check's standing leaves both copies. -/
theorem State.hedgeTouch_rules (s : State) : s.hedgeTouch.loadRules = s.loadRules ∧ s.hedgeTouch.forceRules = s.forceRules := by
  have hforce : s.hedgeTouch.getF Fld.hedgeCommitStatInforce = s.getF Fld.hedgeCommitStatInforce := State.getF_setF_ne _ _ _ _ (by decide)
  exact ⟨State.loadRules_congr hforce rfl rfl, State.forceRules_congr hforce rfl rfl⟩

theorem completes_hedgeSeedDone (s : State) (hbusy : s.getF Fld.hedgeCopyCtlBusy = 1) :
    Completes .hedgeSeedDone s (fun t =>
      t.getF Fld.hedgeCopyCtlBusy = 0 ∧ t.getF Fld.hedgeCheckPass = 0 ∧ t.loadRules = s.forceRules ∧
      t.forceRules = s.forceRules ∧
      OnlyFields s t [Fld.hedgeCopyCtlBusy, Fld.hedgeCheckPass] ∧ t = { s with regs := t.regs, hedge := t.hedge }) := by
  obtain ⟨u, hu⟩ : ∃ u, u = s.setLoadRules s.forceRules := ⟨_, rfl⟩
  obtain ⟨hload, hforce⟩ := s.setLoadRules_rules s.forceRules
  obtain ⟨hload', hforce'⟩ := u.setF_rules Fld.hedgeCopyCtlBusy 0 (by decide)
  obtain ⟨hload'', hforce''⟩ := (u.setF Fld.hedgeCopyCtlBusy 0).hedgeTouch_rules
  rw [← hu] at hload hforce
  have hregs : u.regs = s.regs := by rw [hu]; rfl
  have hwrites : Writes u (u.setFs [(Fld.hedgeCopyCtlBusy, 0), (Fld.hedgeCheckPass, 0)]) _ := Writes.setFs _ (by decide) (by decide) u
  obtain ⟨hset, hframe⟩ := hwrites
  simp only [List.forall_mem_cons] at hset
  obtain ⟨hclear, hpass, -⟩ := hset
  refine Completes.of_when (b := fun s => decide (s.getF Fld.hedgeCopyCtlBusy = 1)) ((u.setF Fld.hedgeCopyCtlBusy 0).hedgeTouch) rfl
    (decide_eq_true hbusy) (by rw [hu]) (by rw [hu]; rfl) (by rw [hu]; rfl)
    ⟨hclear, hpass, hload''.trans (hload'.trans hload), hforce''.trans (hforce'.trans hforce), ?_, by rw [hu]; rfl⟩
  intro a b hb
  have hrd : u.rd a = s.rd a := by rw [State.rd, hregs, ← State.rd]
  rw [← hrd]
  exact hframe a b hb

/-! ### The rule words (R207) -/

/-- The load copy with the four words at entry `e`. -/
def State.rulePut (s : State) (e : Nat) : Tbl Word :=
  (List.range 4).foldl (fun t k => Tbl.set (fun _ => 0) t (4 * e + k) (s.rd (Reg.hedgeRuleW k))) s.loadRules

/-- A word put reads as its register; the rest is as before. -/
theorem State.get_rulePut (s : State) (e n : Nat) : Tbl.get (fun _ => 0) (s.rulePut e) n =
    if 4 * e ≤ n ∧ n < 4 * e + 4 then s.rd (Reg.hedgeRuleW (n - 4 * e)) else Tbl.get (fun _ => 0) s.loadRules n := by
  have hrange : List.range 4 = [0, 1, 2, 3] := rfl
  unfold State.rulePut
  simp only [hrange, List.foldl_cons, List.foldl_nil, Tbl.get_set]
  by_cases hin : 4 * e ≤ n ∧ n < 4 * e + 4
  · obtain ⟨k, rfl⟩ : ∃ k, n = 4 * e + k := ⟨n - 4 * e, by omega⟩
    have hk : k < 4 := by omega
    rw [if_pos hin, Nat.add_sub_cancel_left]
    interval_cases k <;> simp
  · rw [if_neg hin]
    repeat rw [if_neg (by omega)]

/-- A write of RULE_W3 to an unlocked load copy. -/
theorem State.ruleW3Write_of_unlocked {s : State} (v : Word) (hlock : s.rulesLocked = false) :
    s.ruleW3Write v = (((s.wr (Reg.hedgeRuleW 3) v).setLoadRules ((s.wr (Reg.hedgeRuleW 3) v).rulePut
      ((s.wr (Reg.hedgeRuleW 3) v).getF Fld.hedgeRuleIdxEntry))).setF Fld.hedgeRuleIdxEntry
      ((s.wr (Reg.hedgeRuleW 3) v).getF Fld.hedgeRuleIdxEntry + 1)).hedgeTouch :=
  if_neg (by simp [hlock])

theorem completes_ruleW3Write (s : State) (v : Word) (hlock : s.rulesLocked = false) (hentry : s.getF Fld.hedgeRuleIdxEntry < 262143) :
    Completes (.ruleW3Write v) s (fun t =>
      t.getF Fld.hedgeRuleIdxEntry = s.getF Fld.hedgeRuleIdxEntry + 1 ∧ t.rd (Reg.hedgeRuleW 3) = v ∧
      (∀ n, Tbl.get (fun _ => 0) t.loadRules n =
        if n = 4 * s.getF Fld.hedgeRuleIdxEntry + 3 then v
        else if 4 * s.getF Fld.hedgeRuleIdxEntry ≤ n ∧ n < 4 * s.getF Fld.hedgeRuleIdxEntry + 3 then
          s.rd (Reg.hedgeRuleW (n - 4 * s.getF Fld.hedgeRuleIdxEntry))
        else Tbl.get (fun _ => 0) s.loadRules n) ∧
      t.forceRules = s.forceRules ∧
      OnlyFields s t [Fd.whole (Reg.hedgeRuleW 3), Fld.hedgeRuleIdxEntry, Fld.hedgeCheckPass] ∧
      t = { s with regs := t.regs, hedge := t.hedge }) := by
  obtain ⟨w, hw⟩ : ∃ w, w = s.wr (Reg.hedgeRuleW 3) v := ⟨_, rfl⟩
  have hwrite := State.ruleW3Write_of_unlocked v hlock
  have hidx : w.getF Fld.hedgeRuleIdxEntry = s.getF Fld.hedgeRuleIdxEntry := by
    rw [hw, State.getF_wr_ne _ _ _ _ (by decide)]
  rw [← hw, hidx] at hwrite
  generalize s.getF Fld.hedgeRuleIdxEntry = e at hwrite hentry hidx ⊢
  have hinforce : w.getF Fld.hedgeCommitStatInforce = s.getF Fld.hedgeCommitStatInforce := by
    rw [hw, State.getF_wr_ne _ _ _ _ (by decide)]
  obtain ⟨hload, hforce⟩ := w.setLoadRules_rules (w.rulePut e)
  obtain ⟨u, hu⟩ : ∃ u, u = w.setLoadRules (w.rulePut e) := ⟨_, rfl⟩
  rw [← hu] at hwrite hload hforce
  obtain ⟨hload', hforce'⟩ := u.setF_rules Fld.hedgeRuleIdxEntry (e + 1) (by decide)
  obtain ⟨hload'', hforce''⟩ := (u.setF Fld.hedgeRuleIdxEntry (e + 1)).hedgeTouch_rules
  have hregs : u.regs = w.regs := by rw [hu]; rfl
  have hset : ((u.setF Fld.hedgeRuleIdxEntry (e + 1)).setF Fld.hedgeCheckPass 0).getF Fld.hedgeRuleIdxEntry = e + 1 := by
    rw [State.getF_setF_ne _ _ _ _ (by decide), getF_fit _ _ _ (by decide) (by simp only [Fld.hedgeRuleIdxEntry]; omega)]
  have hword : ((u.setF Fld.hedgeRuleIdxEntry (e + 1)).setF Fld.hedgeCheckPass 0).rd (Reg.hedgeRuleW 3) = v := by
    rw [State.rd_setF_ne _ _ _ _ (by decide), State.rd_setF_ne _ _ _ _ (by decide), State.rd, hregs, hw, ← State.rd, State.rd_wr_same]
  have hlast : w.rd (Reg.hedgeRuleW 3) = v := by rw [hw, State.rd_wr_same]
  have hother : ∀ k, k < 3 → w.rd (Reg.hedgeRuleW k) = s.rd (Reg.hedgeRuleW k) := by
    intro k hk
    rw [hw, State.rd_wr_ne _ _ _ _ (by simp only [Reg.hedgeRuleW]; omega)]
  have hcopy : w.loadRules = s.loadRules := State.loadRules_congr hinforce (by rw [hw]; rfl) (by rw [hw]; rfl)
  refine Completes.of_eq (f := (·.ruleW3Write v)) ((u.setF Fld.hedgeRuleIdxEntry (e + 1)).hedgeTouch) rfl hwrite
    (by rw [hu, hw]; rfl) (by rw [hu, hw]; rfl) ⟨hset, hword, fun n => ?_, ?_, ?_, by rw [hu, hw]; rfl⟩
  · rw [hload'', hload', hload, State.get_rulePut, hcopy]
    by_cases hn : n = 4 * e + 3
    · have hin : 4 * e ≤ n ∧ n < 4 * e + 4 := by omega
      have hsub : n - 4 * e = 3 := by omega
      rw [if_pos hn, if_pos hin, hsub, hlast]
    · by_cases hin : 4 * e ≤ n ∧ n < 4 * e + 3
      · have hin' : 4 * e ≤ n ∧ n < 4 * e + 4 := by omega
        rw [if_neg hn, if_pos hin, if_pos hin', hother _ (by omega)]
      · have hout : ¬(4 * e ≤ n ∧ n < 4 * e + 4) := by omega
        rw [if_neg hn, if_neg hin, if_neg hout]
  · rw [hforce'', hforce', hforce]
    exact State.forceRules_congr hinforce (by rw [hw]; rfl) (by rw [hw]; rfl)
  · have h1 : OnlyFields s w [Fd.whole (Reg.hedgeRuleW 3), Fld.hedgeRuleIdxEntry, Fld.hedgeCheckPass] := by
      rw [hw]
      exact OnlyFields.wr _ _ _ _ (by simp)
    exact OnlyFields.of_regs (((h1.of_regs hregs).stepF Fld.hedgeRuleIdxEntry (e + 1) (by simp)).stepF Fld.hedgeCheckPass 0 (by simp)) rfl

/-! ### The words of a selected entry -/

/-- The words loaded from a table. -/
def State.ruleShow (s : State) (t : Tbl Word) (e n : Nat) : State :=
  (List.range n).foldl (fun s k => s.wr (Reg.hedgeRuleW k) (Tbl.get (fun _ => 0) t (4 * e + k))) s

/-- One word more. -/
theorem State.ruleShow_succ (s : State) (t : Tbl Word) (e n : Nat) :
    s.ruleShow t e (n + 1) = (s.ruleShow t e n).wr (Reg.hedgeRuleW n) (Tbl.get (fun _ => 0) t (4 * e + n)) := by
  unfold State.ruleShow
  rw [List.range_succ, List.foldl_append]
  rfl

/-- The words shown are the entry's, and they alone change. -/
theorem State.ruleShow_spec (s : State) (t : Tbl Word) (e n : Nat) :
    (∀ k, k < n → (s.ruleShow t e n).rd (Reg.hedgeRuleW k) = Tbl.get (fun _ => 0) t (4 * e + k)) ∧
    (∀ a, a < Reg.hedgeRuleW 0 → (s.ruleShow t e n).rd a = s.rd a) ∧
    RO s (s.ruleShow t e n) ∧ OnlyFields s (s.ruleShow t e n) ((List.range n).map (fun k => Fd.whole (Reg.hedgeRuleW k))) := by
  induction n with
  | zero => exact ⟨fun k hk => absurd hk (Nat.not_lt_zero k), fun _ _ => rfl, RO.refl s, OnlyFields.refl s _⟩
  | succ n ih =>
    obtain ⟨hread, hbelow, hro, hframe⟩ := ih
    rw [State.ruleShow_succ]
    refine ⟨fun k hk => ?_, fun a ha => ?_, hro.stepW _ _, OnlyFields.stepW _ _ (fun a b hb => hframe a b fun f hf => hb f ?_) ?_⟩
    · rw [State.rd_wr]
      by_cases hkn : k = n
      · rw [if_pos (by rw [hkn]), hkn]
      · rw [if_neg (by simp only [Reg.hedgeRuleW]; omega), hread k (by omega)]
    · rw [State.rd_wr_ne _ _ _ _ (by simp only [Reg.hedgeRuleW] at ha ⊢; omega), hbelow a ha]
    · rw [List.range_succ, List.map_append]
      exact List.mem_append_left _ hf
    · exact List.mem_map.mpr ⟨n, List.mem_range.mpr (Nat.lt_succ_self n), rfl⟩

/-- The fields of RULE_IDX that a write sets. -/
def ruleIdxFields (v : Word) : List (Fd × Nat) := [(Fld.hedgeRuleIdxEntry, fieldGet v 0 18), (Fld.hedgeRuleIdxCopy, fieldGet v 18 1)]

theorem completes_ruleIdxWrite (s : State) (v : Word) :
    Completes (.ruleIdxWrite v) s (fun t =>
      t.getF Fld.hedgeRuleIdxEntry = fieldGet v 0 18 ∧ t.getF Fld.hedgeRuleIdxCopy = fieldGet v 18 1 ∧
      (∀ k, k < 4 → t.rd (Reg.hedgeRuleW k) =
        Tbl.get (fun _ => 0) (if fieldGet v 18 1 = 1 then s.forceRules else s.loadRules) (4 * fieldGet v 0 18 + k)) ∧
      RegsOnly s t [Fld.hedgeRuleIdxEntry, Fld.hedgeRuleIdxCopy, Fd.whole (Reg.hedgeRuleW 0), Fd.whole (Reg.hedgeRuleW 1),
        Fd.whole (Reg.hedgeRuleW 2), Fd.whole (Reg.hedgeRuleW 3)]) := by
  have hentry : fieldGet v 0 18 < 2 ^ 18 := Nat.mod_lt _ (by decide)
  have hcopy : fieldGet v 18 1 < 2 ^ 1 := Nat.mod_lt _ (by decide)
  obtain ⟨u, hu⟩ : ∃ u, u = s.setFs (ruleIdxFields v) := ⟨_, rfl⟩
  obtain ⟨hset, hframe⟩ : Writes s u (ruleIdxFields v) := by
    rw [hu]
    exact Writes.setFs _ (by simpa [ruleIdxFields, Fld.hedgeRuleIdxEntry, Fld.hedgeRuleIdxCopy] using ⟨hentry, Nat.lt_succ_iff.mp hcopy⟩)
      (by simp [ruleIdxFields, Fld.hedgeRuleIdxEntry, Fld.hedgeRuleIdxCopy]) s
  simp only [ruleIdxFields, List.forall_mem_cons] at hset
  obtain ⟨hsetE, hsetC, -⟩ := hset
  have hro : RO s u := by rw [hu]; exact State.setFs_eq _ s
  have hinforce : u.getF Fld.hedgeCommitStatInforce = s.getF Fld.hedgeCommitStatInforce := by
    rw [hu]
    exact State.getF_setFs_ne _ _ _ (by simp [ruleIdxFields]; decide)
  have hload : u.loadRules = s.loadRules := State.loadRules_congr hinforce (by rw [hro]) (by rw [hro])
  have hforce : u.forceRules = s.forceRules := State.forceRules_congr hinforce (by rw [hro]) (by rw [hro])
  generalize htab : (if fieldGet v 18 1 = 1 then s.forceRules else s.loadRules) = tab
  have hwrite : s.ruleIdxWrite v = u.ruleShow tab (fieldGet v 0 18) 4 := by
    rw [← htab, ← hload, ← hforce, hu]
    rfl
  obtain ⟨hread, hbelow, hro', hframe'⟩ := u.ruleShow_spec tab (fieldGet v 0 18) 4
  refine Completes.of_eq (f := (·.ruleIdxWrite v)) _ rfl hwrite (hro.trans hro').pending (hro.trans hro').tick
    ⟨(getF_addr _ (hbelow _ (by decide))).trans hsetE, (getF_addr _ (hbelow _ (by decide))).trans hsetC, hread, hro.trans hro',
      OnlyFields.trans (fun a b hb => hframe a b fun f hf => hb f ?_) (fun a b hb => hframe' a b fun f hf => hb f ?_)⟩
  · simp only [ruleIdxFields, List.map_cons, List.map_nil, List.mem_cons, List.not_mem_nil, or_false] at hf
    rcases hf with rfl | rfl <;> simp
  · obtain ⟨k, hk, rfl⟩ := List.mem_map.mp hf
    have hk4 : k < 4 := List.mem_range.mp hk
    interval_cases k <;> simp

/-- Settles O8: the seed by the copy in force, a word write by the table it puts, and a selected entry by the words it shows. -/
theorem hedgeSeedAndRuleWords : Obligations.HedgeSeedAndRuleWords := by
  unfold Obligations.HedgeSeedAndRuleWords
  exact ⟨completes_hedgeSeed, completes_hedgeSeedDone, completes_ruleW3Write, completes_ruleIdxWrite⟩

end Sys2Proof.Machine
end

section
/-! SUPPORT. Commits and seeds of the shaper tables, the buffer limits and the plot tables (R18, R20, R91, R105, R256, R278, R284): what a
table copy leaves in the registers, and where registers of two copies reset to the same value. -/

open Sys2Proof Sys2Proof.Machine

namespace Sys2Proof.Machine

/-! ### Reset values (R446, R447) -/

/-- A register that no row of its block gives a reset value resets to 0. -/
theorem regReset_eq_zero {a : Nat}
    (h : ∀ r ∈ (regBlock a).2, r.reset = 0 ∨ a < (regBlock a).1 + r.off ∨ (r.dims = [] ∧ a ≠ (regBlock a).1 + r.off)) :
    regReset a = 0 := by
  unfold regReset
  cases hrow : regRow a with
  | none => rfl
  | some r =>
    unfold regRow at hrow
    by_cases hlow : a < (regBlock a).1
    · simp [hlow] at hrow
    · simp only [hlow, if_false] at hrow
      have hcover := List.find?_some hrow
      simp only [Bool.and_eq_true, decide_eq_true_eq] at hcover
      obtain ⟨hoff, hdims⟩ := hcover
      rcases h r (List.mem_of_find?_eq_some hrow) with hz | hbelow | ⟨hsingle, hne⟩
      · simp [hz]
      · omega
      · rw [hsingle, dimsCover, decide_eq_true_eq] at hdims
        omega

/-- A shaper register below the live ones resets to 0. -/
theorem regReset_sched {a : Nat} (hlow : 0x1C00000 ≤ a) (hhigh : a < 0x1C88004) : regReset a = 0 := by
  have hblock : regBlock a = (0x1C00000, RegRows.sched) := by
    unfold regBlock
    repeat rw [if_neg (by omega)]
    rw [if_pos (by omega)]
  have hrows : ∀ r ∈ RegRows.sched, r.reset = 0 ∨ 0x88004 ≤ r.off := by decide
  refine regReset_eq_zero (fun r hr => ?_)
  rw [hblock] at hr ⊢
  rcases hrows r hr with hz | hoff
  · exact .inl hz
  · exact .inr (.inl (by simp only; omega))

/-- Of the plot tables' registers only the two copies of PLOT_W0 0 reset to another value than 0. -/
theorem regReset_plot {a : Nat} (hlow : 0xC10000 ≤ a) (hhigh : a < 0x1000000) (hload : a ≠ 0xC10000) (hforce : a ≠ 0xC30000) :
    regReset a = 0 := by
  have hblock : regBlock a = (0xC00000, RegRows.plot) := by
    unfold regBlock
    repeat rw [if_neg (by omega)]
    rw [if_pos (by omega)]
  have hrows : ∀ r ∈ RegRows.plot, r.reset = 0 ∨ r.dims = [] ∧ (r.off < 0x10000 ∨ r.off = 0x10000 ∨ r.off = 0x30000) := by decide
  refine regReset_eq_zero (fun r hr => ?_)
  rw [hblock] at hr ⊢
  rcases hrows r hr with hz | ⟨hdims, hoff⟩
  · exact .inl hz
  · exact .inr (.inr ⟨hdims, by simp only; omega⟩)

/-- Every extent register resets to 0. -/
theorem regReset_extent {a : Nat} (hlow : 0x1400000 ≤ a) (hhigh : a < 0x1800000) : regReset a = 0 := by
  have hblock : regBlock a = (0x1400000, RegRows.extent) := by
    unfold regBlock
    repeat rw [if_neg (by omega)]
    rw [if_pos (by omega)]
  have hrows : ∀ r ∈ RegRows.extent, r.reset = 0 := by decide
  refine regReset_eq_zero (fun r hr => .inl (hrows r ?_))
  rwa [hblock] at hr

/-! ### Table copies (R18, R105, R284) -/

/-- Two address ranges have no address in common. -/
def RangesApart (a n b m : Nat) : Prop := a + n ≤ b ∨ b + m ≤ a

/-- The second of two table copies neither reads nor writes what the first wrote. -/
def CopiesApart (x y : Nat × Nat × Nat) : Prop := RangesApart x.2.1 x.2.2 y.1 y.2.2 ∧ RangesApart x.2.1 x.2.2 y.2.1 y.2.2

/-- Both copies of a table reset alike. -/
def ResetsAlike (x : Nat × Nat × Nat) : Prop := ∀ k, k < x.2.2 → regReset (x.1 + k) = regReset (x.2.1 + k)

/-- Table copies change registers only. -/
theorem RO.copyTables (s : State) (l : List (Nat × Nat × Nat)) : RO s (s.copyTables l) := rfl

/-- One table copied: the copy reads as its source did, and the rest is as before. -/
theorem State.rd_copyTable (s : State) (x : Nat × Nat × Nat) (hreset : ResetsAlike x) (a : Nat) :
    (s.copyTables [x]).rd a = if x.2.1 ≤ a ∧ a < x.2.1 + x.2.2 then s.rd (a - x.2.1 + x.1) else s.rd a :=
  Tbl.get_copy regReset s.regs x.1 x.2.1 x.2.2 hreset a

/-- Tables copied one after another: every copy reads as its source did, and the rest is as before. -/
theorem State.rd_copyTables (l : List (Nat × Nat × Nat)) (hreset : ∀ x ∈ l, ResetsAlike x) (hapart : l.Pairwise CopiesApart) (s : State) :
    (∀ x ∈ l, ∀ k, k < x.2.2 → (s.copyTables l).rd (x.2.1 + k) = s.rd (x.1 + k)) ∧
    (∀ a, (∀ x ∈ l, ¬(x.2.1 ≤ a ∧ a < x.2.1 + x.2.2)) → (s.copyTables l).rd a = s.rd a) := by
  induction l generalizing s with
  | nil => exact ⟨fun x hx => absurd hx (List.not_mem_nil), fun _ _ => rfl⟩
  | cons y l ih =>
    obtain ⟨hy, hl⟩ := List.forall_mem_cons.mp hreset
    obtain ⟨hyl, hpair⟩ := List.pairwise_cons.mp hapart
    obtain ⟨hcopied, hkept⟩ := ih hl hpair (s.copyTables [y])
    have hcons : s.copyTables (y :: l) = (s.copyTables [y]).copyTables l := rfl
    rw [hcons]
    refine ⟨fun x hx k hk => ?_, fun a ha => ?_⟩
    · rcases List.mem_cons.mp hx with rfl | hx
      · rw [hkept _ fun z hz => ?_, s.rd_copyTable x hy, if_pos (by omega), Nat.add_sub_cancel_left, Nat.add_comm k]
        obtain ⟨-, hdst⟩ := hyl z hz
        unfold RangesApart at hdst
        omega
      · obtain ⟨hsrc, -⟩ := hyl x hx
        unfold RangesApart at hsrc
        rw [hcopied x hx k hk, s.rd_copyTable y hy, if_neg (by omega)]
    · obtain ⟨hay, hal⟩ := List.forall_mem_cons.mp ha
      rw [hkept a hal, s.rd_copyTable y hy, if_neg hay]

/-! ### The shaper tables and the buffer limits (R256, R278, R284) -/

/-- The seed's copies of the shaper tables: source, destination, bytes. -/
def schedSeedTables : List (Nat × Nat × Nat) := schedTables.map (fun x => (x.2.1, x.1, x.2.2))

theorem schedSeedTables_resetsAlike : ∀ x ∈ schedSeedTables, ResetsAlike x := by
  simp only [schedSeedTables, schedTables, List.map_cons, List.map_nil, List.forall_mem_cons]
  refine ⟨fun k hk => ?_, fun k hk => ?_, fun k hk => ?_, by simp⟩ <;>
    simp only [Reg.schedScW0, Reg.schedScW0Load, Reg.schedPlotW0, Reg.schedPlotW0Load, Reg.schedPortW0, Reg.schedPortW0Load] at hk ⊢ <;>
    rw [regReset_sched (by omega) (by omega), regReset_sched (by omega) (by omega)]

theorem schedSeedTables_apart : schedSeedTables.Pairwise CopiesApart := by
  simp [schedSeedTables, schedTables, CopiesApart, RangesApart, Reg.schedScW0, Reg.schedScW0Load, Reg.schedPlotW0, Reg.schedPlotW0Load,
    Reg.schedPortW0, Reg.schedPortW0Load]

theorem completes_schedSeedDone_of_pending (s : State) (hbusy : s.getF Fld.schedCopyCtlBusy = 1)
    (hpending : s.getF Fld.schedCommitStatPending = 1) :
    Completes .schedSeedDone s (fun t => t.getF Fld.schedCopyCtlBusy = 0 ∧ RegsOnly s t [Fld.schedCopyCtlBusy]) :=
  setF_ok (f := (·.schedSeedDone)) 0 rfl (by simp [State.schedSeedDone, hbusy, hpending]) (by decide) (by decide)

theorem completes_schedSeedDone (s : State) (hbusy : s.getF Fld.schedCopyCtlBusy = 1) (hpending : s.getF Fld.schedCommitStatPending = 0) :
    Completes .schedSeedDone s (fun t => t.getF Fld.schedCopyCtlBusy = 0 ∧
      (∀ k, k < 0x20000 → t.rd (Reg.schedScW0Load 0 + k) = s.rd (Reg.schedScW0 0 + k)) ∧
      (∀ k, k < 0x8000 → t.rd (Reg.schedPlotW0Load 0 + k) = s.rd (Reg.schedPlotW0 0 + k)) ∧
      (∀ k, k < 0x800 → t.rd (Reg.schedPortW0Load 0 + k) = s.rd (Reg.schedPortW0 0 + k)) ∧
      (∀ a, ¬(Reg.schedScW0Load 0 ≤ a ∧ a < Reg.schedScW0Load 0 + 0x20000) →
        ¬(Reg.schedPlotW0Load 0 ≤ a ∧ a < Reg.schedPlotW0Load 0 + 0x8000) →
        ¬(Reg.schedPortW0Load 0 ≤ a ∧ a < Reg.schedPortW0Load 0 + 0x800) → a ≠ Reg.schedCopyCtl → t.rd a = s.rd a) ∧
      t = { s with regs := t.regs }) := by
  have hdone : s.schedSeedDone = (s.copyTables schedSeedTables).setF Fld.schedCopyCtlBusy 0 := by
    simp [State.schedSeedDone, hbusy, hpending, schedSeedTables]
  obtain ⟨hcopied, hkept⟩ := State.rd_copyTables schedSeedTables schedSeedTables_resetsAlike schedSeedTables_apart s
  simp only [schedSeedTables, schedTables, List.map_cons, List.map_nil, List.forall_mem_cons] at hcopied hkept
  obtain ⟨hsc, hplot, hport, -⟩ := hcopied
  have hlate : ∀ a, a ≠ Reg.schedCopyCtl → ((s.copyTables schedSeedTables).setF Fld.schedCopyCtlBusy 0).rd a =
      (s.copyTables schedSeedTables).rd a := fun a ha => State.rd_setF_ne _ _ _ _ ha
  refine Completes.of_eq (f := (·.schedSeedDone)) _ rfl hdone rfl rfl ⟨getF_fit _ _ _ (by decide) (by decide), fun k hk => ?_, fun k hk => ?_,
    fun k hk => ?_, fun a h1 h2 h3 h4 => (hlate a h4).trans (hkept a ⟨h1, h2, h3, by simp⟩), rfl⟩
  · exact (hlate _ (by simp only [Reg.schedScW0Load, Reg.schedCopyCtl]; omega)).trans (hsc k hk)
  · exact (hlate _ (by simp only [Reg.schedPlotW0Load, Reg.schedCopyCtl]; omega)).trans (hplot k hk)
  · exact (hlate _ (by simp only [Reg.schedPortW0Load, Reg.schedCopyCtl]; omega)).trans (hport k hk)

/-- Settles O10: commits by the accepted commit's registers or the refusal's, seeds by their field and the tables copied. -/
theorem schedAndBufferCommitsWaitAndSeedCopies : Obligations.SchedAndBufferCommitsWaitAndSeedCopies := by
  unfold Obligations.SchedAndBufferCommitsWaitAndSeedCopies
  refine ⟨fun s hpending hviol => ?_, fun s hpending hsum => ?_, fun s hpending => ?_, fun s hpending => ?_, fun s hpending => ?_,
    completes_schedSeedDone_of_pending, completes_schedSeedDone⟩
  · exact commits_ok (f := (·.schedCommit)) rfl (by simp [State.schedCommit, hpending, hviol]) (by decide) rfl (by decide)
  · exact commits_ok (f := (·.bufferCommit)) rfl (by simp [State.bufferCommit, hpending, Nat.not_lt.mpr hsum]) (by decide) rfl (by decide)
  · exact refuse_ok (f := (·.schedCommit)) 1 1 rfl (if_pos hpending) (by decide) (by decide) (by decide) (by decide) (by decide)
  · exact refuse_ok (f := (·.bufferCommit)) 1 1 rfl (if_pos hpending) (by decide) (by decide) (by decide) (by decide) (by decide)
  · exact setF_ok (f := (·.schedSeed)) 1 rfl (if_neg (by simp [hpending])) (by decide) (by decide)

/-! ### The plot tables (R91, R105) -/

/-- The seed's copies of the plot tables: source, destination, bytes. -/
def plotSeedTables : List (Nat × Nat × Nat) := plotTables.map (fun x => (x.2.1, x.1, x.2.2))

theorem plotSeedTables_resetsAlike : ∀ x ∈ plotSeedTables, ResetsAlike x := by
  have hplots : ResetsAlike (0xC30000, 0xC10000, 0x20000) := by
    intro k hk
    by_cases hzero : k = 0
    · subst hzero
      rfl
    · simp only at hk ⊢
      rw [regReset_plot (by omega) (by omega) (by omega) (by omega), regReset_plot (by omega) (by omega) (by omega) (by omega)]
  simp only [plotSeedTables, plotTables, List.map_cons, List.map_nil, List.forall_mem_cons]
  refine ⟨hplots, fun k hk => ?_, fun k hk => ?_, fun k hk => ?_, fun k hk => ?_, fun k hk => ?_, fun k hk => ?_, by simp⟩
  · simp only at hk ⊢
    rw [regReset_plot (by omega) (by omega) (by omega) (by omega), regReset_plot (by omega) (by omega) (by omega) (by omega)]
  · simp only at hk ⊢
    rw [regReset_plot (by omega) (by omega) (by omega) (by omega), regReset_plot (by omega) (by omega) (by omega) (by omega)]
  · simp only at hk ⊢
    rw [regReset_plot (by omega) (by omega) (by omega) (by omega), regReset_plot (by omega) (by omega) (by omega) (by omega)]
  · simp only at hk ⊢
    rw [regReset_extent (by omega) (by omega), regReset_extent (by omega) (by omega)]
  · simp only at hk ⊢
    rw [regReset_extent (by omega) (by omega), regReset_extent (by omega) (by omega)]
  · simp only at hk ⊢
    rw [regReset_extent (by omega) (by omega), regReset_extent (by omega) (by omega)]

theorem plotSeedTables_apart : plotSeedTables.Pairwise CopiesApart := by
  simp [plotSeedTables, plotTables, CopiesApart, RangesApart]

theorem completes_plotCommit_refused (s : State) (h : s.getF Fld.plotCommitStatPending = 1 ∨ s.getF Fld.plotLoadStatViol ≠ 0) :
    Completes .plotCommit s (fun t => t.getF Fld.plotCommitStatRefused = 1 ∧ RegsOnly s t [Fld.plotCommitStatRefused]) := by
  refine setF_ok (f := (·.plotCommit)) 1 rfl (if_pos ?_) (by decide) (by decide)
  rcases h with hpending | hviol
  · exact .inl hpending
  · exact .inr (.inl hviol)

theorem completes_plotSeed (s : State) (hpending : s.getF Fld.plotCommitStatPending = 0) :
    Completes .plotSeed s (fun t => t.getF Fld.plotCopyCtlBusy = 1 ∧ t.getF Fld.hedgeCheckPass = 0 ∧
      OnlyFields s t [Fld.plotCopyCtlBusy, Fld.hedgeCheckPass] ∧
      t = { s with regs := t.regs, hedge := { s.hedge with dirty := true } }) := by
  have hseed : s.plotSeed = (s.setF Fld.plotCopyCtlBusy 1).hedgeTouch := if_neg (by simp [hpending])
  obtain ⟨hset, hframe⟩ : Writes s (s.setFs [(Fld.plotCopyCtlBusy, 1), (Fld.hedgeCheckPass, 0)]) _ := Writes.setFs _ (by decide) (by decide) s
  simp only [List.forall_mem_cons] at hset
  obtain ⟨hbusy, hpass, -⟩ := hset
  exact Completes.of_eq (f := (·.plotSeed)) _ rfl hseed rfl rfl ⟨hbusy, hpass, OnlyFields.of_regs hframe rfl, rfl⟩

theorem completes_plotSeedDone_of_pending (s : State) (hbusy : s.getF Fld.plotCopyCtlBusy = 1)
    (hpending : s.getF Fld.plotCommitStatPending = 1) :
    Completes .plotSeedDone s (fun t => t.getF Fld.plotCopyCtlBusy = 0 ∧ RegsOnly s t [Fld.plotCopyCtlBusy]) := by
  have hkept : (s.setF Fld.plotCopyCtlBusy 0).getF Fld.plotCommitStatPending = s.getF Fld.plotCommitStatPending :=
    State.getF_setF_ne _ _ _ _ (by decide)
  exact setF_ok (f := (·.plotSeedDone)) 0 rfl (by simp [State.plotSeedDone, hbusy, hkept, hpending]) (by decide) (by decide)

theorem completes_plotSeedDone (s : State) (hbusy : s.getF Fld.plotCopyCtlBusy = 1) (hpending : s.getF Fld.plotCommitStatPending = 0) :
    Completes .plotSeedDone s (fun t => t.getF Fld.plotCopyCtlBusy = 0 ∧ t.getF Fld.hedgeCheckPass = 0 ∧
      (∀ x ∈ plotTables, ∀ k, k < x.2.2 → t.rd (x.1 + k) = s.rd (x.2.1 + k)) ∧
      (∀ a, (∀ x ∈ plotTables, ¬(x.1 ≤ a ∧ a < x.1 + x.2.2)) → a ≠ Reg.plotCopyCtl → a ≠ Reg.hedgeCheck → t.rd a = s.rd a) ∧
      t = { s with regs := t.regs, fn := { s.fn with loadDue := true }, hedge := { s.hedge with dirty := true } }) := by
  have hkept : (s.setF Fld.plotCopyCtlBusy 0).getF Fld.plotCommitStatPending = s.getF Fld.plotCommitStatPending :=
    State.getF_setF_ne _ _ _ _ (by decide)
  obtain ⟨u, hu⟩ : ∃ u, u = s.setF Fld.plotCopyCtlBusy 0 := ⟨_, rfl⟩
  have hdone : s.plotSeedDone = (u.copyTables plotSeedTables).loadTouch.hedgeTouch := by
    simp [State.plotSeedDone, hbusy, hkept, hpending, plotSeedTables, hu]
  obtain ⟨hcopied, hother⟩ := State.rd_copyTables plotSeedTables plotSeedTables_resetsAlike plotSeedTables_apart u
  have hmem : ∀ x ∈ plotTables, (x.2.1, x.1, x.2.2) ∈ plotSeedTables := fun x hx => List.mem_map.mpr ⟨x, hx, rfl⟩
  have hplaces : ∀ x ∈ plotTables, (0xC10000 ≤ x.1 ∧ x.1 + x.2.2 ≤ 0x1000000 ∨ 0x1401000 ≤ x.1) ∧ 0xC10000 ≤ x.2.1 := by decide
  obtain ⟨v, hv⟩ : ∃ v, v = u.copyTables plotSeedTables := ⟨_, rfl⟩
  rw [← hv] at hdone hcopied hother
  have hro : RO s v := by rw [hv, hu]; exact (RO.setF _ _ _).trans (RO.copyTables _ _)
  have hlate : ∀ a, a ≠ Reg.hedgeCheck → (v.setF Fld.hedgeCheckPass 0).rd a = v.rd a := fun a ha => State.rd_setF_ne _ _ _ _ ha
  have hearly : ∀ a, a ≠ Reg.plotCopyCtl → u.rd a = s.rd a := fun a ha => by rw [hu]; exact State.rd_setF_ne _ _ _ _ ha
  have houtside : ∀ x ∈ plotSeedTables, ¬(x.2.1 ≤ Reg.plotCopyCtl ∧ Reg.plotCopyCtl < x.2.1 + x.2.2) := by decide
  have hclear : (v.setF Fld.hedgeCheckPass 0).getF Fld.plotCopyCtlBusy = 0 := by
    rw [getF_addr Fld.plotCopyCtlBusy (hlate _ (by decide)), getF_addr Fld.plotCopyCtlBusy (hother _ houtside), hu]
    exact getF_fit _ _ _ (by decide) (by decide)
  refine Completes.of_eq (f := (·.plotSeedDone)) v.loadTouch.hedgeTouch rfl hdone hro.pending hro.tick
    ⟨hclear, getF_fit _ Fld.hedgeCheckPass _ (by decide) (by decide), fun x hx k hk => ?_, fun a ha hctl hcheck => ?_, by rw [hro]; rfl⟩
  · obtain ⟨hload, hforce⟩ := hplaces x hx
    refine (hlate _ (by simp only [Reg.hedgeCheck]; omega)).trans ((hcopied _ (hmem x hx) k hk).trans (hearly _ ?_))
    simp only [Reg.plotCopyCtl]
    omega
  · refine (hlate a hcheck).trans ((hother a fun y hy => ?_).trans (hearly a hctl))
    obtain ⟨x, hx, rfl⟩ := List.mem_map.mp hy
    exact ha x hx

/-- Settles O11: commits by the accepted commit's registers or the refusal's, seeds by their fields and the seven tables copied. -/
theorem plotCommitIsAcceptedAndSeedCopies : Obligations.PlotCommitIsAcceptedAndSeedCopies := by
  unfold Obligations.PlotCommitIsAcceptedAndSeedCopies
  refine ⟨fun s hpending hstat hload hviol => ?_, completes_plotCommit_refused, completes_plotSeed, completes_plotSeedDone_of_pending,
    completes_plotSeedDone⟩
  have hclean : ¬(s.fn.loadDue = true ∧ s.violations ≠ []) := by
    rcases hload with hnot | hnone
    · simp [hnot]
    · simp [hnone]
  exact commits_ok (f := (·.plotCommit)) rfl (by simp only [State.plotCommit, hpending, hstat, hclean, hviol]; rfl) (by decide) rfl (by decide)

end Sys2Proof.Machine
end

section
/-! SUPPORT. Functions, their generations and resets (R96 to R103): what a reset event and the taking of a function's state leave, and the
commands and hosts that reset functions. -/

open Sys2Proof Sys2Proof.Machine

namespace Sys2Proof.Machine

/-! ### The live registers of a function (R108) -/

/-- A function's live fields fit their registers, and are apart from each other and from HOLDOFF. -/
theorem liveFd_spec {fn : Nat} (hfn : fn < 0x2000) :
    (liveFd fn).1.lo = 0 ∧ (liveFd fn).1.width = 2 ∧ (liveFd fn).2.1.lo = 2 ∧ (liveFd fn).2.1.width = 1 ∧
    (liveFd fn).2.2.1.lo = 16 ∧ (liveFd fn).2.2.1.width = 16 ∧ (liveFd fn).2.2.2.1.lo = 0 ∧ (liveFd fn).2.2.2.1.width = 16 ∧
    (liveFd fn).2.1.addr = (liveFd fn).1.addr ∧ (liveFd fn).2.2.1.addr = (liveFd fn).1.addr ∧
    (liveFd fn).2.2.2.1.addr = (liveFd fn).1.addr + 4 ∧ 0xC80000 ≤ (liveFd fn).1.addr ∧ (liveFd fn).1.addr < 0xC98800 := by
  unfold liveFd
  split
  all_goals
    simp only [Fld.plotFnLive0State, Fld.plotFnLive0Held, Fld.plotFnLive0Gen, Fld.plotFnLive1Oldcnt, Fld.plotVcsLive0State,
      Fld.plotVcsLive0Held, Fld.plotVcsLive0Gen, Fld.plotVcsLive1Oldcnt, Reg.plotFnLive0, Reg.plotFnLive1, Reg.plotVcsLive0,
      Reg.plotVcsLive1, true_and]
    omega

/-! ### Reset events (R96, R100, R101) -/

theorem State.due_any (s : State) (fn : Nat) : s.fn.due.any (fun x => x = fn) = s.fn.due.contains fn := by
  rw [Bool.eq_iff_iff]
  simp only [List.any_eq_true, decide_eq_true_eq, List.contains_iff_mem, exists_eq_right]

/-- An advance joins those due. -/
def State.dueMore (s : State) (fn : Nat) : State := { s with fn := { s.fn with due := s.fn.due ++ [fn] } }

/-- A reset event while its function's advance is due, or in the tick of one, changes nothing (R100). -/
theorem State.resetEvent_of_merged {s : State} {fn : Nat} (h : s.fn.due.contains fn = true ∨ s.advancedNow fn = true) :
    s.resetEvent fn = s :=
  if_pos (by rw [s.due_any, Bool.or_eq_true]; exact h)

/-- A reset event otherwise makes an advance due; where its next generation is in use, HELD and HOLDOFF show it. -/
theorem State.resetEvent_of_fresh {s : State} {fn : Nat} (hdue : s.fn.due.contains fn = false) (hnow : s.advancedNow fn = false) :
    s.resetEvent fn = if s.mustHold fn then ((s.dueMore fn).setF (liveFd fn).2.1 1).bump (Fd.whole Reg.plotHoldoff) else s.dueMore fn :=
  if_neg (by rw [s.due_any, hdue, hnow]; simp)

/-- What one reset event does: at most one more advance due, and registers. -/
theorem State.resetEvent_frame (s : State) (fn : Nat) :
    s.resetEvent fn = { s with regs := (s.resetEvent fn).regs, fn := { s.fn with due := (s.resetEvent fn).fn.due } } := by
  by_cases hmerged : s.fn.due.contains fn = true ∨ s.advancedNow fn = true
  · rw [State.resetEvent_of_merged hmerged]
  · obtain ⟨hdue, hnow⟩ := not_or.mp hmerged
    rw [State.resetEvent_of_fresh (by simpa using hdue) (by simpa using hnow)]
    split <;> rfl

/-- Command `c` is a reset event of function `fn`, none merging with it: what it leaves. -/
theorem completes_resetEvent {c : Instr} {s : State} {fn : Nat} (hc : exec c s = act s (·.resetEvent fn)) (hfn : fn < 0x2000)
    (hdue : s.fn.due.contains fn = false) (hnow : s.advancedNow fn = false) :
    Completes c s (fun t => t.fn = { s.fn with due := s.fn.due ++ [fn] } ∧
      (s.mustHold fn = false → t.regs = s.regs) ∧
      (s.mustHold fn = true → t.getF (liveFd fn).2.1 = 1 ∧
        t.rd Reg.plotHoldoff = BitVec.ofNat 32 (min ((s.rd Reg.plotHoldoff).toNat + 1) (2 ^ 32 - 1))) ∧
      OnlyFields s t [(liveFd fn).2.1, Fd.whole Reg.plotHoldoff] ∧ t = { s with fn := t.fn, regs := t.regs }) := by
  obtain ⟨-, -, hlo, hwidth, -, -, -, -, haddr, -, -, hge, -⟩ := liveFd_spec hfn
  have hne : (liveFd fn).2.1.addr ≠ Reg.plotHoldoff := by rw [haddr, Reg.plotHoldoff]; omega
  cases hhold : s.mustHold fn
  case false =>
    have hstep : s.resetEvent fn = s.dueMore fn := by rw [State.resetEvent_of_fresh hdue hnow, hhold]; rfl
    exact Completes.of_eq (f := (·.resetEvent fn)) _ hc hstep rfl rfl
      ⟨rfl, fun _ => rfl, nofun, (OnlyFields.refl s _).of_regs rfl, rfl⟩
  case true =>
    have hstep : s.resetEvent fn = ((s.dueMore fn).setF (liveFd fn).2.1 1).bump (Fd.whole Reg.plotHoldoff) := by
      rw [State.resetEvent_of_fresh hdue hnow, hhold]; rfl
    refine Completes.of_eq (f := (·.resetEvent fn)) _ hc hstep rfl rfl ⟨rfl, nofun, fun _ => ⟨?_, ?_⟩, ?_, rfl⟩
    · rw [State.bump, State.addSat, State.getF_setF_ne _ _ _ _ (.inl hne)]
      exact getF_fit _ _ _ (by omega) (by rw [hwidth]; decide)
    · rw [bump_whole, State.rd_setF_ne _ _ _ _ (Ne.symm hne)]
      rfl
    · exact (((OnlyFields.refl s _).of_regs (u := s.dueMore fn) rfl).stepF _ _ (by simp)).stepB _ (by simp)

/-! ### The advance (R96, R302) -/

/-- A function's state taken again: OLDCNT, and STATE, which is FALLOW while an entry of another generation is left. -/
theorem State.refreshFn_of_lt {s : State} {fn : Nat} (hfn : fn < 0x1040) : s.refreshFn fn =
    (s.setF (liveFd fn).2.2.2.1 (min (s.oldCount fn) 0xFFFF)).setF (liveFd fn).1 (if 0 < s.oldCount fn then 2 else
      if (s.setF (liveFd fn).2.2.2.1 (min (s.oldCount fn) 0xFFFF)).assigned fn &&
        (s.setF (liveFd fn).2.2.2.1 (min (s.oldCount fn) 0xFFFF)).enabled fn then 1 else 0) :=
  if_neg (by omega)

/-- Taking a function's state again changes registers only. -/
theorem State.refreshFn_regs (s : State) (fn : Nat) : RO s (s.refreshFn fn) := by
  unfold State.refreshFn
  split
  · exact RO.refl s
  · exact ((RO.refl s).stepF _ _).stepF _ _

/-- A function's OLDCNT depends on its generation and the tracker alone. -/
theorem State.oldCount_congr {s t : State} {fn : Nat} (hgen : t.gen fn = s.gen fn) (hdp : t.dp = s.dp) : t.oldCount fn = s.oldCount fn := by
  unfold State.oldCount
  rw [hgen, hdp]

/-- What the state's taking shows. -/
theorem State.refreshFn_shows (s : State) {fn : Nat} (hfn : fn < 0x1040) :
    (s.refreshFn fn).gen fn = s.gen fn ∧ (s.refreshFn fn).getF (liveFd fn).2.1 = s.getF (liveFd fn).2.1 ∧
    (s.refreshFn fn).getF (liveFd fn).2.2.2.1 = min (s.oldCount fn) 65535 ∧
    (0 < s.oldCount fn → (s.refreshFn fn).getF (liveFd fn).1 = 2) := by
  obtain ⟨hslo, hsw, hhlo, hhw, hglo, hgw, holo, how, hha, hga, hoa, -, -⟩ := liveFd_spec (fn := fn) (by omega)
  rw [State.refreshFn_of_lt hfn]
  refine ⟨?_, ?_, ?_, fun hold => ?_⟩
  · rw [State.gen, State.getF_setF_ne _ _ _ _ (by omega), State.getF_setF_ne _ _ _ _ (by omega)]
    rfl
  · rw [State.getF_setF_ne _ _ _ _ (by omega), State.getF_setF_ne _ _ _ _ (by omega)]
  · rw [State.getF_setF_ne _ _ _ _ (by omega)]
    exact getF_fit _ _ _ (by omega) (by rw [how]; omega)
  · rw [if_pos hold]
    exact getF_fit _ _ _ (by omega) (by rw [hsw]; decide)

/-- The registers of an advance before the state is taken again: GEN, HELD and a function's TDI state. -/
def State.genNext (s : State) (fn : Nat) : State :=
  let s := s.setFs [((liveFd fn).2.2.1, (s.gen fn + 1) % 65536), ((liveFd fn).2.1, 0)]
  if fn < 0x1000 then s.setF (Fld.securityTdiStatState fn) 0 else s

theorem State.genNext_regs (s : State) (fn : Nat) : RO s (s.genNext fn) := by
  unfold State.genNext
  split
  · exact ((RO.refl s).stepFs _).stepF _ _
  · exact (RO.refl s).stepFs _

theorem State.genNext_shows (s : State) {fn : Nat} (hfn : fn < 0x1040) :
    (s.genNext fn).gen fn = (s.gen fn + 1) % 65536 ∧ (s.genNext fn).getF (liveFd fn).2.1 = 0 := by
  obtain ⟨-, -, hhlo, hhw, hglo, hgw, -, -, hha, hga, -, -, hlt⟩ := liveFd_spec (fn := fn) (by omega)
  have htdi : (s.genNext fn).rd (liveFd fn).1.addr =
      (s.setFs [((liveFd fn).2.2.1, (s.gen fn + 1) % 65536), ((liveFd fn).2.1, 0)]).rd (liveFd fn).1.addr := by
    unfold State.genNext
    split
    · exact State.rd_setF_ne _ _ _ _ (by simp only [Fld.securityTdiStatState, Reg.securityTdiStat]; omega)
    · rfl
  have hset := (Writes.setFs [((liveFd fn).2.2.1, (s.gen fn + 1) % 65536), ((liveFd fn).2.1, 0)]
    (by simp [hglo, hgw, hhlo, hhw]; omega) (by simp [hglo, hhlo, hhw, hga, hha]) s).1
  refine ⟨?_, ?_⟩
  · exact (getF_addr _ (by rw [hga]; exact htdi)).trans (hset _ (.head _))
  · exact (getF_addr _ (by rw [hha]; exact htdi)).trans (hset _ (.tail _ (.head _)))

/-- What an advance notes beside registers: it is due no more, and a function's configuration registers take their reset values. -/
def FnSt.advanced (f : FnSt) (fn T : Nat) : FnSt :=
  { f with
    due := f.due.filter (fun x => x ≠ fn), advAt := Tbl.set (fun _ => none) f.advAt fn (some T),
    cfg := if fn < 0x1000 then Tbl.clear f.cfg (1024 * fn) 1024 else f.cfg }

theorem State.advance_eq (s : State) (fn : Nat) :
    s.advance fn = ({ s.genNext fn with fn := (s.genNext fn).fn.advanced fn (s.genNext fn).tick } : State).refreshFn fn := rfl

theorem completes_generationAdvance (s : State) (fn : Fin 8192) (hfn : fn.val < 0x1040) (hdue : s.fn.due.contains fn.val = true)
    (hhold : s.mustHold fn.val = false) (hnow : s.advancedNow fn.val = false) :
    Completes (.generationAdvance fn) s (fun t =>
      t.gen fn.val = (s.gen fn.val + 1) % 65536 ∧ t.getF (liveFd fn.val).2.1 = 0 ∧
      t.getF (liveFd fn.val).2.2.2.1 = min (t.oldCount fn.val) 65535 ∧
      (0 < t.oldCount fn.val → t.getF (liveFd fn.val).1 = 2) ∧
      t.fn.due = s.fn.due.filter (fun x => x ≠ fn.val) ∧ t.fn.decoders = s.fn.decoders ∧
      OnlyFields s t ([(liveFd fn.val).1, (liveFd fn.val).2.1, (liveFd fn.val).2.2.1, (liveFd fn.val).2.2.2.1] ++
        if fn.val < 0x1000 then [Fld.securityTdiStatState fn.val] else []) ∧
      t = { s with fn := t.fn, regs := t.regs }) := by
  have hnext := s.genNext_regs fn.val
  obtain ⟨hgen, hheld⟩ := s.genNext_shows hfn
  obtain ⟨u, hu⟩ : ∃ u : State, u = { s.genNext fn.val with fn := (s.genNext fn.val).fn.advanced fn.val (s.genNext fn.val).tick } :=
    ⟨_, rfl⟩
  have huregs : u.regs = (s.genNext fn.val).regs := by rw [hu]
  have hufn : u.fn = s.fn.advanced fn.val s.tick := by rw [hu, hnext]
  have huonly : u = { s with fn := u.fn, regs := u.regs } := by rw [hu, hnext]
  have hro := u.refreshFn_regs fn.val
  obtain ⟨hsgen, hsheld, hsold, hsstate⟩ := u.refreshFn_shows hfn
  have hcount : (u.refreshFn fn.val).oldCount fn.val = u.oldCount fn.val := State.oldCount_congr hsgen hro.dp
  have hfield : ∀ g : Fd, u.getF g = (s.genNext fn.val).getF g := fun g => getF_regs huregs g
  have hfn' : (u.refreshFn fn.val).fn = s.fn.advanced fn.val s.tick := by rw [hro, ← hufn]
  refine Completes.of_when (b := fun s => s.fn.due.contains fn.val && !s.mustHold fn.val && !s.advancedNow fn.val)
    (g := (·.advance fn.val)) (u.refreshFn fn.val) rfl (by rw [hdue, hhold, hnow]; rfl) ((s.advance_eq fn.val).trans (by rw [hu])) ?_ ?_
    ⟨?_, ?_, ?_, ?_, ?_, ?_, ?_, ?_⟩
  · rw [hro.pending, huonly]
  · rw [hro.tick, huonly]
  · rw [hsgen, State.gen, hfield, ← State.gen, hgen]
  · rw [hsheld, hfield, hheld]
  · rw [hcount, hsold]
  · rw [hcount]; exact hsstate
  · rw [hfn']; rfl
  · rw [hfn']; rfl
  · have hkeep : OnlyFields s (s.genNext fn.val) ([(liveFd fn.val).1, (liveFd fn.val).2.1, (liveFd fn.val).2.2.1, (liveFd fn.val).2.2.2.1] ++
        if fn.val < 0x1000 then [Fld.securityTdiStatState fn.val] else []) := by
      unfold State.genNext
      split
      · exact ((OnlyFields.refl s _).stepFs _ (by simp)).stepF _ _ (by simp)
      · exact (OnlyFields.refl s _).stepFs _ (by simp)
    rw [State.refreshFn_of_lt hfn]
    exact ((hkeep.of_regs huregs).stepF _ _ (by simp)).stepF _ _ (by simp)
  · rw [hro]
    exact congrArg (fun x : State => { x with regs := (u.refreshFn fn.val).regs }) huonly

/-- Settles O12: one reset event and one advance, each a short list of field writes beside the list of advances due. -/
theorem functionResetsAdvanceTheGeneration : Obligations.FunctionResetsAdvanceTheGeneration := by
  refine ⟨fun s fid vcs fn hfn hdue hnow => ?_, fun s fid vcs hdue => ?_, fun s fid hassigned henabled hvf hdue hnow hhold => ?_,
    completes_generationAdvance⟩
  · subst hfn
    exact completes_resetEvent rfl (by have := fid.isLt; split <;> omega) hdue hnow
  · exact exec_of_act (f := fun s => s.resetEvent (if vcs then 0x1000 + fid.val % 64 else fid.val)) s rfl
      (State.resetEvent_of_merged (.inl hdue)) rfl rfl
  · have hflr : s.flr fid.val = s.dueMore fid.val := by
      rw [State.flr, if_neg hvf, State.resetEvent_of_fresh hdue hnow, hhold]
      rfl
    exact Completes.of_when (b := fun s => s.assigned fid.val && s.enabled fid.val) (g := (·.flr fid.val)) _ rfl
      (by simp [hassigned, henabled]) hflr rfl rfl rfl

end Sys2Proof.Machine
end

section
/-! SUPPORT. Resets by a host (R96, R103, R235): reset events of many functions one after another, and the registers that they leave. -/

open Sys2Proof Sys2Proof.Machine

namespace Sys2Proof.Machine

/-! ### Reset events one after another -/

/-- From `s` to `t` only advances became due, and registers below `0xE00000` changed. -/
structure MoreDue (s t : State) : Prop where
  frame : t = { s with regs := t.regs, fn := { s.fn with due := t.fn.due } }
  due : ∀ fn ∈ s.fn.due, fn ∈ t.fn.due
  rd : ∀ a, 0xE00000 ≤ a → t.rd a = s.rd a

theorem MoreDue.refl (s : State) : MoreDue s s := ⟨rfl, fun _ h => h, fun _ _ => rfl⟩

theorem MoreDue.trans {s t u : State} (h : MoreDue s t) (g : MoreDue t u) : MoreDue s u :=
  ⟨by rw [g.frame, h.frame], fun fn hfn => g.due fn (h.due fn hfn), fun a ha => (g.rd a ha).trans (h.rd a ha)⟩

theorem MoreDue.advancedNow {s t : State} (h : MoreDue s t) (fn : Nat) : t.advancedNow fn = s.advancedNow fn := by
  unfold State.advancedNow
  rw [h.frame]

theorem State.resetEvent_moreDue (s : State) {fn : Nat} (hfn : fn < 0x2000) : MoreDue s (s.resetEvent fn) := by
  obtain ⟨-, -, -, -, -, -, -, -, haddr, -, -, -, hlt⟩ := liveFd_spec hfn
  refine ⟨s.resetEvent_frame fn, fun k hk => ?_, fun a ha => ?_⟩
  · by_cases hmerged : s.fn.due.contains fn = true ∨ s.advancedNow fn = true
    · rwa [State.resetEvent_of_merged hmerged]
    · obtain ⟨hdue, hnow⟩ := not_or.mp hmerged
      rw [State.resetEvent_of_fresh (by simpa using hdue) (by simpa using hnow)]
      split <;> exact List.mem_append_left _ hk
  · by_cases hmerged : s.fn.due.contains fn = true ∨ s.advancedNow fn = true
    · rw [State.resetEvent_of_merged hmerged]
    · obtain ⟨hdue, hnow⟩ := not_or.mp hmerged
      rw [State.resetEvent_of_fresh (by simpa using hdue) (by simpa using hnow)]
      split
      · rw [State.bump, State.addSat, State.rd_setF_ne _ _ _ _ (by simp only [Fd.whole, Reg.plotHoldoff]; omega),
          State.rd_setF_ne _ _ _ _ (by omega)]
        rfl
      · rfl

/-- A reset event leaves its function's advance due, unless one took place in this tick. -/
theorem State.resetEvent_mem (s : State) {fn : Nat} (hnow : s.advancedNow fn = false) : fn ∈ (s.resetEvent fn).fn.due := by
  cases hdue : s.fn.due.contains fn
  · rw [State.resetEvent_of_fresh hdue hnow]
    split <;> exact List.mem_append_right _ (.head _)
  · rw [State.resetEvent_of_merged (.inl hdue)]
    simpa using hdue

/-- Reset events of functions of a list. -/
theorem State.resetEvents_spec (g : Nat → Nat) (l : List Nat) (hl : ∀ f ∈ l, g f < 0x2000) (s : State) :
    MoreDue s (l.foldl (fun s f => s.resetEvent (g f)) s) ∧
    ∀ f ∈ l, s.advancedNow (g f) = false → g f ∈ (l.foldl (fun s f => s.resetEvent (g f)) s).fn.due := by
  induction l generalizing s with
  | nil => exact ⟨MoreDue.refl s, nofun⟩
  | cons x l ih =>
    obtain ⟨hx, hrest⟩ := List.forall_mem_cons.mp hl
    have hfirst := s.resetEvent_moreDue hx
    obtain ⟨hmore, hdue⟩ := ih hrest (s.resetEvent (g x))
    refine ⟨hfirst.trans hmore, fun f hf hnow => ?_⟩
    rcases List.mem_cons.mp hf with rfl | hf
    · exact hmore.due _ (s.resetEvent_mem hnow)
    · exact hdue f hf ((hfirst.advancedNow _).trans hnow)

theorem State.refreshPort_regs (s : State) (lp : Nat) : RO s (s.refreshPort lp) := by
  have hfold : ∀ (l : List Nat) (s : State), RO s (l.foldl (fun s f => s.refreshFn (64 * lp + f)) s) := by
    intro l
    induction l with
    | nil => exact RO.refl
    | cons x l ih => exact fun s => (s.refreshFn_regs _).trans (ih _)
  exact (hfold _ s).trans (State.refreshFn_regs _ _)

/-! ### VF Enable and the hot reset -/

theorem completes_vfEnableClear (s : State) (lp : Lp) (hpf : s.enabled (64 * lp.val) = true) (hvf : (s.vf lp.val).1 = true) :
    Completes (.vfEnableClear lp) s (fun t => t.vf lp.val = (false, 0) ∧
      (∀ f, 1 ≤ f → f ≤ 63 → s.advancedNow (64 * lp.val + f) = false → 64 * lp.val + f ∈ t.fn.due) ∧
      t = { s with regs := t.regs, fn := { s.fn with vf := t.fn.vf, due := t.fn.due } }) := by
  have hlp := lp.isLt
  obtain ⟨hmore, hdue⟩ := State.resetEvents_spec (fun f => 64 * lp.val + f + 1) (List.range 63)
    (fun f hf => by rw [List.mem_range] at hf; omega) (s.setVf lp.val (false, 0))
  have hclear : s.clearVfs lp.val = (List.range 63).foldl (fun s f => s.resetEvent (64 * lp.val + f + 1)) (s.setVf lp.val (false, 0)) :=
    if_pos hvf
  rw [← hclear] at hmore hdue
  have hro := (s.clearVfs lp.val).refreshPort_regs lp.val
  have hfn : ((s.clearVfs lp.val).refreshPort lp.val).fn = (s.clearVfs lp.val).fn := by rw [hro]
  have hvfs : (s.clearVfs lp.val).fn.vf = (s.setVf lp.val (false, 0)).fn.vf := by rw [hmore.frame]
  have hframe : s.clearVfs lp.val =
      { s with regs := (s.clearVfs lp.val).regs, fn := { s.fn with vf := (s.clearVfs lp.val).fn.vf, due := (s.clearVfs lp.val).fn.due } } := by
    rw [hvfs]
    exact hmore.frame
  refine Completes.of_when (b := fun s => s.enabled (64 * lp.val)) (g := fun s => (s.clearVfs lp.val).refreshPort lp.val) _ rfl hpf rfl
    (by rw [hro.pending, hframe]) (by rw [hro.tick, hframe]) ⟨?_, fun f hone hmax hnow => ?_, ?_⟩
  · rw [State.vf, hfn, hvfs]
    exact Tbl.get_set_same _ _ _ _
  · rw [hfn]
    have hmem := hdue (f - 1) (by rw [List.mem_range]; omega)
    simp only [Nat.add_assoc, Nat.sub_add_cancel hone] at hmem
    exact hmem hnow
  · rw [hfn, hro]
    exact congrArg (fun x : State => { x with regs := ((s.clearVfs lp.val).refreshPort lp.val).regs }) hframe

/-- The instance on a port depends on the registers at `0x1F80000` and above alone. -/
theorem State.instOf_congr {s t : State} (h : ∀ a, 0x1F80000 ≤ a → t.rd a = s.rd a) (lp : Nat) : t.instOf lp = s.instOf lp := by
  have hfield : ∀ i lo n, t.getF ⟨Reg.stewardEpCfg i, lo, n⟩ = s.getF ⟨Reg.stewardEpCfg i, lo, n⟩ :=
    fun i lo n => getF_addr _ (h _ (by simp only [Reg.stewardEpCfg]; omega))
  simp only [State.instOf, State.epPresent, State.epLp, Fld.stewardEpCfgPresent, Fld.stewardEpCfgLp, hfield]
  rfl

/-- A dead sweep that starts with none running and no snoop pending for its port (R235). -/
theorem State.sweepStart_of_quiet {s : State} {lp : Nat} (hsnoops : s.home.snoops.filter (fun x => x.lp = lp) = [])
    (hsweeps : s.home.sweeps = []) : s.sweepStart lp false = (s.setSweep lp true).setSweeps [(lp, false, false)] := by
  have hsnoops' : ((s.setSweep lp true).setSweeps [(lp, false, false)]).home.snoops.filter (fun x => x.lp = lp) = [] := hsnoops
  unfold State.sweepStart
  simp only [hsweeps, List.filter_nil, List.nil_append, Bool.false_and]
  rw [hsnoops', List.foldl_nil]

theorem completes_vppbHotReset (s : State) (lp : Lp) (hrole : s.isRole lp.val 0 = true) (hup : s.dllUp lp.val = true)
    (hinst : s.instOf lp.val = none) (hsnoops : s.home.snoops.filter (fun x => x.lp = lp.val) = []) (hsweeps : s.home.sweeps = []) :
    Completes (.vppbHotReset lp) s (fun t => t.vf lp.val = (false, 0) ∧
      (s.advancedNow (0x1000 + lp.val) = false → 0x1000 + lp.val ∈ t.fn.due) ∧
      (∀ f, f ≤ 63 → s.advancedNow (64 * lp.val + f) = false → 64 * lp.val + f ∈ t.fn.due) ∧
      t.home = { s.home with sweeps := [(lp.val, false, false)] } ∧
      t = { s with regs := t.regs, fn := t.fn, home := t.home }) := by
  have hlp := lp.isLt
  obtain ⟨hfns, hfnsDue⟩ := State.resetEvents_spec (fun f => 64 * lp.val + f) (List.range 64)
    (fun f hf => by rw [List.mem_range] at hf; omega) (s.setVf lp.val (false, 0))
  obtain ⟨p, hp⟩ : ∃ p, p = (List.range 64).foldl (fun s f => s.resetEvent (64 * lp.val + f)) (s.setVf lp.val (false, 0)) := ⟨_, rfl⟩
  rw [← hp] at hfns hfnsDue
  have hvcs := p.resetEvent_moreDue (fn := 0x1000 + lp.val) (by omega)
  have hport : s.resetPort lp.val = p.resetEvent (0x1000 + lp.val) := by rw [hp]; rfl
  have hmore := hfns.trans hvcs
  rw [← hport] at hvcs hmore
  obtain ⟨r, hr⟩ : ∃ r, r = s.resetPort lp.val := ⟨_, rfl⟩
  rw [← hr] at hport hvcs hmore
  obtain ⟨v, hv⟩ : ∃ v, v = r.vcsCfgReset lp.val := ⟨_, rfl⟩
  have hvregs : v.regs = r.regs := by rw [hv]; rfl
  have hvhome : v.home = s.home := by rw [hv, hmore.frame]; rfl
  obtain ⟨w, hw⟩ : ∃ w, w = (v.setSweep lp.val true).setSweeps [(lp.val, false, false)] := ⟨_, rfl⟩
  have hsweep : v.sweepStart lp.val false = w := by
    rw [hw]; exact State.sweepStart_of_quiet (by rw [hvhome]; exact hsnoops) (by rw [hvhome]; exact hsweeps)
  have hwinst : w.instOf lp.val = none := by
    rw [← hinst]
    refine State.instOf_congr (fun a ha => ?_) lp.val
    have hwv : w.rd a = v.rd a := by
      rw [hw]
      refine State.rd_setF_ne v _ _ a ?_
      unfold mapBit
      split <;> simp only [Reg.homeSweepLo, Reg.homeSweepHi] <;> omega
    rw [hwv, State.rd, hvregs, ← State.rd]
    exact hmore.rd a (by omega)
  have hreset : s.hotReset lp.val = w.refreshPort lp.val := by
    unfold State.hotReset
    rw [hrole, hup]
    simp only [Bool.and_self, Bool.not_true, Bool.false_eq_true, if_false, ← hr, ← hv, hsweep, hwinst]
  have hro := w.refreshPort_regs lp.val
  have hfn : (w.refreshPort lp.val).fn.due = r.fn.due ∧ (w.refreshPort lp.val).fn.vf = r.fn.vf := by
    rw [hro, hw, hv]; exact ⟨rfl, rfl⟩
  have hframe : w = { s with regs := w.regs, fn := w.fn, home := w.home } := by
    rw [hw, hv, hmore.frame]; rfl
  refine Completes.of_eq (f := (·.hotReset lp.val)) _ rfl hreset (by rw [hro.pending, hframe]) (by rw [hro.tick, hframe])
    ⟨?_, fun hnow => ?_, fun f hf hnow => ?_, ?_, ?_⟩
  · rw [State.vf, hfn.2, hmore.frame]
    exact Tbl.get_set_same _ _ _ _
  · rw [hfn.1, hport]
    exact p.resetEvent_mem ((hfns.advancedNow _).trans hnow)
  · rw [hfn.1]
    exact hvcs.due _ (hfnsDue f (by rw [List.mem_range]; omega) hnow)
  · rw [hro.home, hw]
    exact congrArg (fun h : HomeSt => { h with sweeps := [(lp.val, false, false)] }) hvhome
  · rw [hro]
    exact congrArg (fun x : State => { x with regs := (w.refreshPort lp.val).regs }) hframe

/-- Settles O13: reset events one after another, each of which can only make an advance due. -/
theorem hostResetsReachEveryFunction : Obligations.HostResetsReachEveryFunction :=
  ⟨completes_vfEnableClear, completes_vppbHotReset⟩

end Sys2Proof.Machine
end

section
/-! SUPPORT. Decoder writes by a host (R86, R87) and configuration requests (R2, R41, R42). -/

open Sys2Proof Sys2Proof.Machine

namespace Sys2Proof.Machine

/-! ### A function's decoder -/

@[simp] theorem State.decoder_setDecoder_same (s : State) (fid : Nat) (d : Decoder) : (s.setDecoder fid d).decoder fid = d :=
  Tbl.get_set_same _ _ _ _

theorem State.decoder_setDecoder_ne (s : State) (fid k : Nat) (d : Decoder) (h : k ≠ fid) :
    (s.setDecoder fid d).decoder k = s.decoder k :=
  Tbl.get_set_ne _ _ _ _ _ h

/-- Setting a decoder changes the decoders alone. -/
theorem State.setDecoder_eq (s : State) (fid : Nat) (d : Decoder) :
    s.setDecoder fid d = { s with fn := { s.fn with decoders := (s.setDecoder fid d).fn.decoders } } := rfl

/-! ### Writes that commit, are refused or are held -/

/-- A write with Commit set on values R84 allows, on values it does not, and one of values alone. -/
theorem State.decoderWrite_cases (s : State) (fid : Nat) (w : DecWrite) :
    (w.commit = some true → decOk (mergeDec (s.decoder fid).vals w) = true → s.decoderWrite fid w =
      (s.setDecoder fid { s.decoder fid with vals := mergeDec (s.decoder fid).vals w }).decoderPend fid true) ∧
    (w.commit = some true → decOk (mergeDec (s.decoder fid).vals w) = false → s.decoderWrite fid w =
      (s.setDecoder fid { s.decoder fid with vals := mergeDec (s.decoder fid).vals w }).setDecoder fid
        { s.decoder fid with vals := mergeDec (s.decoder fid).vals w, enc := true }) ∧
    (w.commit = none → s.decoderWrite fid w = s.setDecoder fid { s.decoder fid with vals := mergeDec (s.decoder fid).vals w }) := by
  refine ⟨fun hset hok => ?_, fun hset hok => ?_, fun hset => ?_⟩ <;> simp [State.decoderWrite, *]

theorem completes_decoderCommit_set (s : State) (fid : Fid) (w : DecWrite) (hassigned : s.assigned fid.val = true)
    (henabled : s.enabled fid.val = true) (hpend : (s.decoder fid.val).pend = none) (hheld : (s.decoder fid.val).heldDue = false)
    (hset : w.commit = some true) : Completes (.decoderCommit fid w) s (fun t =>
      (decOk (mergeDec (s.decoder fid.val).vals w) = true →
        t.decoder fid.val = { s.decoder fid.val with vals := mergeDec (s.decoder fid.val).vals w, enc := false, pend := some true } ∧
        t.commits = s.commits ++ [(.decoder fid.val, s.commitFurlong)]) ∧
      (decOk (mergeDec (s.decoder fid.val).vals w) = false →
        t.decoder fid.val = { s.decoder fid.val with vals := mergeDec (s.decoder fid.val).vals w, enc := true } ∧
        t.commits = s.commits) ∧
      (∀ k, k ≠ fid.val → t.decoder k = s.decoder k) ∧
      t = { s with fn := { s.fn with decoders := t.fn.decoders }, commits := t.commits }) := by
  have hhost : s.decoderHost fid.val w = s.decoderWrite fid.val w := if_neg (by simp [hpend, hheld])
  obtain ⟨hgood, hbad, -⟩ := s.decoderWrite_cases fid.val w
  have hgate : (s.assigned fid.val && s.enabled fid.val) = true := by simp [hassigned, henabled]
  cases hok : decOk (mergeDec (s.decoder fid.val).vals w)
  case true =>
    refine Completes.of_when (b := fun s => s.assigned fid.val && s.enabled fid.val) (g := (·.decoderHost fid.val w)) _ rfl hgate
      (hhost.trans (hgood hset hok)) rfl rfl ⟨fun _ => ⟨?_, rfl⟩, nofun, fun k hk => ?_, rfl⟩
    · refine (State.decoder_setDecoder_same _ _ _).trans ?_
      rw [State.decoder_setDecoder_same]
    · exact (State.decoder_setDecoder_ne _ _ _ _ hk).trans (State.decoder_setDecoder_ne _ _ _ _ hk)
  case false =>
    exact Completes.of_when (b := fun s => s.assigned fid.val && s.enabled fid.val) (g := (·.decoderHost fid.val w)) _ rfl hgate
      (hhost.trans (hbad hset hok)) rfl rfl ⟨nofun, fun _ => ⟨State.decoder_setDecoder_same _ _ _, rfl⟩,
        fun k hk => (State.decoder_setDecoder_ne _ _ _ _ hk).trans (State.decoder_setDecoder_ne _ _ _ _ hk), rfl⟩

theorem completes_decoderCommit_held (s : State) (fid : Fid) (w : DecWrite) (hassigned : s.assigned fid.val = true)
    (henabled : s.enabled fid.val = true) (hpend : (s.decoder fid.val).pend ≠ none) (hroom : (s.decoder fid.val).held.length < 16) :
    Completes (.decoderCommit fid w) s (fun t =>
      t.decoder fid.val = { s.decoder fid.val with held := (s.decoder fid.val).held ++ [w] } ∧
      (∀ k, k ≠ fid.val → t.decoder k = s.decoder k) ∧ t = { s with fn := { s.fn with decoders := t.fn.decoders } }) := by
  have hwaits : (s.decoder fid.val).pend.isSome = true := Option.isSome_iff_ne_none.mpr hpend
  have hhost : s.decoderHost fid.val w = s.setDecoder fid.val { s.decoder fid.val with held := (s.decoder fid.val).held ++ [w] } :=
    (if_pos (by rw [hwaits]; rfl)).trans (if_pos hroom)
  exact Completes.of_when (b := fun s => s.assigned fid.val && s.enabled fid.val) (g := (·.decoderHost fid.val w)) _ rfl
    (by simp [hassigned, henabled]) hhost rfl rfl
    ⟨State.decoder_setDecoder_same _ _ _, fun k hk => State.decoder_setDecoder_ne _ _ _ _ hk, rfl⟩

theorem completes_decoderHeldWriteApply (s : State) (fid : Fid) (w : DecWrite) (hdue : (s.decoder fid.val).heldDue = true)
    (hphase : s.phase ≠ 0) (hpend : (s.decoder fid.val).pend = none) (hheld : (s.decoder fid.val).held = [w]) (hset : w.commit = none) :
    Completes (.decoderHeldWriteApply fid) s (fun t =>
      t.decoder fid.val = { s.decoder fid.val with vals := mergeDec (s.decoder fid.val).vals w, held := [], heldDue := false } ∧
      (∀ k, k ≠ fid.val → t.decoder k = s.decoder k) ∧ t = { s with fn := { s.fn with decoders := t.fn.decoders } }) := by
  obtain ⟨-, -, hvalues⟩ := s.decoderWrite_cases fid.val w
  have happly : s.applyHeld fid.val (s.decoder fid.val).held =
      (s.setDecoder fid.val { s.decoder fid.val with vals := mergeDec (s.decoder fid.val).vals w }).setDecoder fid.val
        { s.decoder fid.val with vals := mergeDec (s.decoder fid.val).vals w, held := [], heldDue := false } := by
    rw [hheld, State.applyHeld, hvalues hset]
    simp [hpend, State.applyHeld]
  exact Completes.of_when (b := fun s => (s.decoder fid.val).heldDue && decide (s.phase ≠ 0))
    (g := fun s => s.applyHeld fid.val (s.decoder fid.val).held) _ rfl (by simp [hdue, hphase]) happly rfl rfl
    ⟨State.decoder_setDecoder_same _ _ _,
      fun k hk => (State.decoder_setDecoder_ne _ _ _ _ hk).trans (State.decoder_setDecoder_ne _ _ _ _ hk), rfl⟩

/-- Settles O14: each write sets the one decoder, at most together with a commit that waits. -/
theorem decoderWritesCommitOrAreHeld : Obligations.DecoderWritesCommitOrAreHeld :=
  ⟨completes_decoderCommit_set, completes_decoderCommit_held, completes_decoderHeldWriteApply⟩

/-! ### Configuration requests -/

/-- A field put over a whole word leaves nothing of it. -/
theorem fieldPut_whole (w : Word) (v : Nat) : fieldPut w 0 32 v = BitVec.ofNat 32 v := by
  refine BitVec.eq_of_getLsbD_eq (fun b hb => ?_)
  rw [getLsbD_fieldPut, if_pos ⟨Nat.zero_le b, by omega, hb⟩, BitVec.getLsbD_ofNat, Nat.sub_zero]
  simp [hb]

/-- Register 0 reads the device's and the vendor's numbers, whatever the configuration space holds. -/
theorem State.cfgValue_zero (s : State) (lp : Nat) (t : CfgTarget) : s.cfgValue lp t 0 = BitVec.ofNat 32 (cfgIds t) :=
  fieldPut_whole _ _

/-- A configuration request on an upstream port whose link is up. -/
theorem State.cfgRequest_of_up {s : State} {lp : Nat} (hrole : s.isRole lp 0 = true) (hup : s.dllUp lp = true) (t : CfgTarget)
    (reg : Nat) (wr : Option Word) (tag : Nat) :
    (s.cfgAnswers lp t = false → s.cfgRequest lp t reg wr tag = s.emit (.config lp tag .ur 0)) ∧
    (s.cfgAnswers lp t = true → s.cfgRequest lp t reg none tag = s.emit (.config lp tag .sc (s.cfgValue lp t reg))) := by
  constructor <;> intro hanswers <;> simp [State.cfgRequest, hrole, hup, hanswers]

/-- Settles O15: a read only sends its answer; register 0 is one field over the whole word. -/
theorem configRequestsAreAnswered : Obligations.ConfigRequestsAreAnswered := by
  refine ⟨fun s lp tgt reg tag hrole hup hanswers => ?_, fun s lp tgt reg wr tag hrole hup hanswers => ?_, fun s lp => ?_⟩
  · exact exec_of_act (f := (·.cfgRequest lp.val tgt reg.val none tag.toNat)) _ rfl
      ((State.cfgRequest_of_up hrole hup tgt reg.val none tag.toNat).2 hanswers) rfl rfl
  · exact exec_of_act (f := (·.cfgRequest lp.val tgt reg.val wr tag.toNat)) _ rfl
      ((State.cfgRequest_of_up hrole hup tgt reg.val wr tag.toNat).1 hanswers) rfl rfl
  · rw [State.cfgValue_zero]
    rfl

end Sys2Proof.Machine
end

section
/-! SUPPORT. Ingress (R22, R54, R55, R85, R134, R135, R305): flits at the pins, the MAC that ends an epoch, classification, and entry into
the engine. -/

open Sys2Proof Sys2Proof.Machine

namespace Sys2Proof.Machine

/-! ### Flits (R54, R55) -/

/-- Registers that all read alike are the same within any fields. -/
theorem OnlyFields.of_rd {s t : State} (h : ∀ a, t.rd a = s.rd a) (fs : List Fd) : OnlyFields s t fs := fun a _ _ => by rw [h]

/-- A link with the corrections of a furlong. -/
def Link.fecSet (l : Link) (F : Nat) (t : Tbl Nat) : Link := { l with furlong := F, fec := t }

/-- A flit in which FEC corrected nothing: the count gains 0. -/
theorem State.flitIn_of_clean (s : State) (lp : Nat) (f : Flit) (h : f.corrected = []) :
    s.flitIn lp f = State.flitBody ((s.addSat (Fd.whole (Reg.portLpFecCnt lp)) 0).modLnk lp (·.fecSet s.furlong (s.fecNow lp))) lp f := by
  unfold State.flitIn
  rw [h]
  rfl

/-- A message as it joins the device from a flit outside containment. -/
def State.unpacked (s : State) (lp : Nat) (m : MsgIn) (i : Nat) : Msg :=
  { id := i, stage := .unpacked, origin := .ingress, stamp := s.tick, engine := lp / 2, hdr := hdrOf m, req := hdrOf m,
    cls := bareCls lp .program, inLp := lp }

/-- One message of an accepted flit on a standard port in L0, no MAC in force. -/
theorem State.flitBody_of_accepted {s : State} {lp : Nat} (x : MsgIn) (hL0 : s.inL0 lp = true) (hrole : s.role lp ≠ 2)
    (hplain : s.contained lp = false) : s.flitBody lp ⟨[], true, 0, false, false, [x]⟩ =
      (s.modLnk lp (fun l => { l with recov := 0 })).addMsg (s.unpacked lp x) := by
  have hplain' : (s.modLnk lp (fun l => { l with recov := 0 })).contained lp = false := hplain
  simp only [State.flitBody, hrole, if_false, Bool.not_true, Bool.false_eq_true, hL0, Bool.and_self, if_true, State.unpack, hplain',
    List.foldl_cons, List.foldl_nil, Bool.false_and]
  rfl

section
variable {s : State} {lp : Lp} (hexists : s.lpExists lp.val = true) (hL0 : s.inL0 lp.val = true)
include hexists hL0

theorem completes_flitReceived_accepted (x : MsgIn) (hrole : s.role lp.val ≠ 2) (hplain : s.contained lp.val = false) :
    Completes (.flitReceived lp ⟨[], true, 0, false, false, [x]⟩) s (fun t =>
      t.dp = { s.dp with
        msgs := s.dp.msgs ++ [{ id := s.dp.nextId, stage := .unpacked, origin := .ingress, stamp := s.tick, engine := lp.val / 2,
                                hdr := hdrOf x, req := hdrOf x, cls := bareCls lp.val .program, inLp := lp.val }]
        nextId := s.dp.nextId + 1 } ∧
      (t.lnk lp.val).recov = 0 ∧ (∀ k, k ≠ lp.val → t.lnk k = s.lnk k) ∧ (∀ a, t.rd a = s.rd a) ∧
      t = { s with regs := t.regs, link := { s.link with links := t.link.links }, dp := t.dp }) := by
  obtain ⟨u, hu⟩ : ∃ u, u = (s.addSat (Fd.whole (Reg.portLpFecCnt lp.val)) 0).modLnk lp.val (·.fecSet s.furlong (s.fecNow lp.val)) := ⟨_, rfl⟩
  have hrd : ∀ a, u.rd a = s.rd a := fun a => by rw [hu]; exact addSat0 _ _ (by simp [Fd.whole]) a
  have hfield : ∀ g, u.getF g = s.getF g := fun g => getF_addr g (hrd _)
  have hlnk : ∀ k, k ≠ lp.val → u.lnk k = s.lnk k := fun k hk => by rw [hu, lnk_mod, if_neg hk]; rfl
  have hide : u.ide lp.val = s.ide lp.val := by rw [hu]; rfl
  have hframe : u = { s with regs := u.regs, link := { s.link with links := u.link.links } } := by rw [hu]; rfl
  have hstep : s.flitIn lp.val ⟨[], true, 0, false, false, [x]⟩ =
      (u.modLnk lp.val (fun l => { l with recov := 0 })).addMsg (u.unpacked lp.val x) := by
    rw [State.flitIn_of_clean s lp.val _ rfl, ← hu]
    refine State.flitBody_of_accepted x ?_ ?_ ?_
    · rw [← hL0]; simp only [State.inL0, hfield]
    · rwa [State.role, hfield]
    · rw [← hplain]; simp only [State.contained, hfield, hide]
  refine Completes.of_when (b := fun s => s.lpExists lp.val && s.inL0 lp.val) (g := fun s => s.flitIn lp.val _) _ rfl (by simp [hexists, hL0])
    hstep (by rw [hframe]; rfl) (by rw [hframe]; rfl) ⟨by rw [hframe]; rfl, ?_, fun k hk => ?_, hrd, by rw [hframe]; rfl⟩
  · rw [lnk_addMsg, lnk_mod, if_pos rfl]
  · rw [lnk_addMsg, lnk_mod, if_neg hk, hlnk k hk]

theorem completes_flitReceived_damaged (msgs : List MsgIn) :
    Completes (.flitReceived lp ⟨[], false, 0, false, false, msgs⟩) s (fun t =>
      t.getF (Fld.portLpCrcCntFail lp.val) = min (s.getF (Fld.portLpCrcCntFail lp.val) + 1) (2 ^ (Fld.portLpCrcCntFail lp.val).width - 1) ∧
      OnlyFields s t [Fld.portLpCrcCntFail lp.val] ∧ (t.lnk lp.val).tfl.nakDue = true ∧ t.dp = s.dp ∧ (∀ k, k ≠ lp.val → t.lnk k = s.lnk k) ∧
      t = { s with regs := t.regs, link := { s.link with links := t.link.links } }) := by
  obtain ⟨u, hu⟩ : ∃ u, u = (s.addSat (Fd.whole (Reg.portLpFecCnt lp.val)) 0).modLnk lp.val (·.fecSet s.furlong (s.fecNow lp.val)) := ⟨_, rfl⟩
  have hrd : ∀ a, u.rd a = s.rd a := fun a => by rw [hu]; exact addSat0 _ _ (by simp [Fd.whole]) a
  have hlnk : ∀ k, k ≠ lp.val → u.lnk k = s.lnk k := fun k hk => by rw [hu, lnk_mod, if_neg hk]; rfl
  have hframe : u = { s with regs := u.regs, link := { s.link with links := u.link.links } } := by rw [hu]; rfl
  have hstep : s.flitIn lp.val ⟨[], false, 0, false, false, msgs⟩ = (u.bump (Fld.portLpCrcCntFail lp.val)).nakDue lp.val := by
    rw [State.flitIn_of_clean s lp.val _ rfl, ← hu]
    exact if_pos rfl
  refine Completes.of_when (b := fun s => s.lpExists lp.val && s.inL0 lp.val) (g := fun s => s.flitIn lp.val _) _ rfl (by simp [hexists, hL0])
    hstep (by rw [hframe]; rfl) (by rw [hframe]; rfl) ⟨?_, ?_, ?_, by rw [hframe]; rfl, fun k hk => ?_, by rw [hframe]; rfl⟩
  · refine (State.getF_bump u _ (by simp only [Fld.portLpCrcCntFail]; omega)).trans ?_
    rw [getF_addr (s := s) _ (hrd _)]
  · exact ((OnlyFields.of_rd hrd _).stepB _ (by simp)).of_regs rfl
  · rw [State.nakDue, State.modTfl, lnk_mod, if_pos rfl]
  · rw [State.nakDue, State.modTfl, lnk_mod, if_neg hk, lnk_bump, hlnk k hk]

end

/-- Settles O16: a flit is unpacked into one message, or counted and its replay asked for. -/
theorem flitsAreAcceptedOrCounted : Obligations.FlitsAreAcceptedOrCounted :=
  ⟨fun _ _ x hexists hL0 hrole hplain => completes_flitReceived_accepted hexists hL0 x hrole hplain,
    fun _ _ msgs hexists hL0 _ => completes_flitReceived_damaged hexists hL0 msgs⟩

/-! ### The MAC (R305) -/

/-- A message that a MAC covers goes on. -/
def Msg.released (lp : Nat) (x : Nat × Nat) (m : Msg) : Msg :=
  if m.stage = .macHeld ∧ m.inLp = lp ∧ m.id < x.2 then
    { m with stage := .unpacked, parts := { m.parts with ideh := x.1 - m.stamp } } else m

/-- Settles O17: the oldest MAC goes, and every message goes through one map. -/
theorem macReleasesTheMessagesItCovers : Obligations.MacReleasesTheMessagesItCovers := by
  intro s lp x rest hsecure hmacs
  have hstep : s.macRelease lp.val = { s.modIde lp.val (fun i => { i with macs := rest }) with
      dp := { s.dp with msgs := s.dp.msgs.map (Msg.released lp.val x) } } := by
    unfold State.macRelease
    rw [hmacs]
    rfl
  have hlink : ({ s.modIde lp.val (fun i => { i with macs := rest }) with
      dp := { s.dp with msgs := s.dp.msgs.map (Msg.released lp.val x) } } : State).link =
    (s.modIde lp.val (fun i => { i with macs := rest })).link := rfl
  refine Completes.of_eq (f := fun s => if s.getF (Fld.securityIdeStatState lp.val) ≠ 1 then s
    else if true then s.macRelease lp.val else s.ideFail lp.val 0) _ rfl
    ((if_neg (by simp [hsecure])).trans ((if_pos rfl).trans hstep)) rfl rfl ⟨?_, fun k hk => ?_, fun k => ?_, rfl⟩
  · rw [ide_links _ _ _ hlink, ide_mod, if_pos rfl]
  · rw [ide_links _ _ _ hlink, ide_mod, if_neg hk]
  · refine find_map_id s.dp.msgs (Msg.released lp.val x) (fun y => ?_) k
    unfold Msg.released
    split <;> rfl

end Sys2Proof.Machine
end

section
/-! SUPPORT. Classification of CXL.mem requests (R85, R107, R213) and entry into the engine (R134, R135, R254). -/

open Sys2Proof Sys2Proof.Machine

namespace Sys2Proof.Machine

/-! ### Classification -/

/-- A memory request is neither a response, nor a back-invalidate response, nor unsupported. -/
theorem Opn.of_isMemReq {o : Opn} (h : o.isMemReq = true) : o.isResponse = false ∧ o.isBiRsp = false ∧ o ≠ .unsupported := by
  cases o <;> simp_all [Opn.isMemReq, Opn.cls, Opn.isResponse, Opn.isBiRsp]

/-- A memory request of an upstream port goes by its decoder. -/
theorem State.classifyMsg_of_memReq (s : State) (x : Msg) (hfatal : s.getF Fld.faultStatFatal = 0) (hplain : s.idePlain x.inLp = false)
    (hreq : x.hdr.op.isMemReq = true) (hrole : s.role x.inLp = 0) : s.classifyMsg x = s.classifyMem x := by
  obtain ⟨hresponse, hbi, hsupported⟩ := Opn.of_isMemReq hreq
  simp [State.classifyMsg, State.classifyRole, hfatal, hplain, hsupported, hresponse, hrole, hbi, hreq]

/-- Position bits are noted at the first request after the decoder's commit (R213). -/
theorem State.notePos_spec (s : State) (f a : Nat) :
    (s.notePos f a).decoder f = { s.decoder f with pos := some ((s.decoder f).pos.getD ((s.decoder f).position a)) } ∧
    (∀ k, k ≠ f → (s.notePos f a).decoder k = s.decoder k) ∧
    s.notePos f a = { s with fn := { s.fn with decoders := (s.notePos f a).fn.decoders } } := by
  cases hpos : (s.decoder f).pos with
  | none =>
    have hnote : s.notePos f a = s.setDecoder f { s.decoder f with pos := some ((s.decoder f).position a) } :=
      if_neg (by simp [hpos])
    rw [hnote]
    exact ⟨State.decoder_setDecoder_same _ _ _, fun k hk => State.decoder_setDecoder_ne _ _ _ _ hk, rfl⟩
  | some p =>
    have hnote : s.notePos f a = s := if_pos (by simp [hpos])
    rw [hnote, Option.getD_some, ← hpos]
    exact ⟨rfl, fun _ _ => rfl, rfl⟩

/-- A message goes to the engine input, and nothing else changes. -/
theorem State.classed_only {s : State} {m : Nat} {x : Msg} (hmsg : s.msg? m = some x) (c : Cls) (h : Hdr) :
    MsgOnly s (s.classed x c h) m { x with stage := .atEngine, cls := { c with epoch := s.dp.epoch }, hdr := h } := by
  obtain rfl := msg_id hmsg
  exact MsgOnly.modMsg hmsg (fun x => { x with stage := .atEngine, cls := { c with epoch := s.dp.epoch }, hdr := h }) (fun _ => rfl)

/-- The classification counted: the port's engine has classified one message more in the tick. -/
def State.classedMore (s : State) (lp : Nat) : State := { s with dp := { s.dp with classed := s.dp.classed ++ [lp] } }

/-- What CLASSIFY does to the state. -/
def State.classify (s : State) (m : Nat) : State :=
  match s.msg? m with
  | some x =>
    if x.stage = .unpacked ∧ x.stamp + 4 + x.parts.ideh ≤ s.tick ∧ s.mayClassify x.inLp then (s.classifyMsg x).classedMore x.inLp else s
  | none => s

theorem exec_classify (m : Nat) (s : State) : exec (.classify m) s = act s (·.classify m) := rfl

section
variable {s : State} {m : Nat} {x : Msg} (hmsg : s.msg? m = some x)
include hmsg

/-- A message whose turn has not come, or whose engine has classified its messages of the tick, stays. -/
theorem exec_classify_of_not_due
    (h : x.stage ≠ .unpacked ∨ s.tick < x.stamp + 4 + x.parts.ideh ∨ s.mayClassify x.inLp = false) : exec (.classify m) s = .next s := by
  refine exec_of_act s (exec_classify m s) ?_ rfl rfl
  simp only [State.classify, hmsg]
  refine if_neg (fun hall => ?_)
  obtain ⟨hstage, htime, hmay⟩ := hall
  rcases h with h | h | h
  · exact h hstage
  · omega
  · simp [hmay] at h

variable (hstage : x.stage = .unpacked) (htime : x.stamp + 4 + x.parts.ideh ≤ s.tick) (hmay : s.mayClassify x.inLp = true)
include hstage htime hmay

/-- A message classified in its tick. -/
theorem completes_classify {P : State → Prop} (u : State) (hu : s.classifyMsg x = u) (hpending : u.pending = s.pending)
    (htick : u.tick = s.tick) (hp : P (u.classedMore x.inLp)) : Completes (.classify m) s P := by
  refine Completes.of_eq (u.classedMore x.inLp) (exec_classify m s) ?_ hpending htick hp
  simp only [State.classify, hmsg, hstage, htime, hmay, and_self, if_true, hu]

variable (hfatal : s.getF Fld.faultStatFatal = 0) (hplain : s.idePlain x.inLp = false) (hreq : x.hdr.op.isMemReq = true)
  (hrole : s.role x.inLp = 0)
include hfatal hplain hreq hrole

theorem completes_classify_decoded {f : Nat} (hdecode : s.decodeHpa x.inLp x.hdr.addr = some f) (htdi : s.tdiError f = false) :
    Completes (.classify m) s (fun t =>
      t.msg? m = some { x with stage := .atEngine, cls := { s.fnCls x.inLp f .program with epoch := s.dp.epoch },
                               hdr := { x.hdr with addr := (s.decoder f).dpa x.hdr.addr } } ∧
      (∀ k, k ≠ m → t.msg? k = s.msg? k) ∧
      (s.fnCls x.inLp f .program).fid = f ∧ (s.fnCls x.inLp f .program).plot = s.getF (Fld.plotFnW0Plot f) ∧
      (s.fnCls x.inLp f .program).sc = s.getF (Fld.plotFnW1Sc f) ∧ (s.fnCls x.inLp f .program).prog = s.getF (Fld.plotFnW0Prog f) ∧
      (s.fnCls x.inLp f .program).gen = s.gen f ∧
      t.decoder f = { s.decoder f with pos := some ((s.decoder f).pos.getD ((s.decoder f).position x.hdr.addr)) } ∧
      (∀ k, k ≠ f → t.decoder k = s.decoder k) ∧
      t = { s with
        fn := { s.fn with decoders := t.fn.decoders }
        dp := { s.dp with msgs := t.dp.msgs, classed := s.dp.classed ++ [x.inLp] } }) := by
  obtain ⟨hpos, hothers, hframe⟩ := s.notePos_spec f x.hdr.addr
  obtain ⟨n, hn⟩ : ∃ n, n = s.notePos f x.hdr.addr := ⟨_, rfl⟩
  rw [← hn] at hpos hothers hframe
  have hstep : s.classifyMsg x = n.classed x (s.fnCls x.inLp f .program) { x.hdr with addr := (s.decoder f).dpa x.hdr.addr } := by
    rw [s.classifyMsg_of_memReq x hfatal hplain hreq hrole, hn]
    simp [State.classifyMem, hdecode, htdi]
  have hnmsg : n.msg? m = some x := by rw [hframe]; exact hmsg
  have hepoch : n.dp.epoch = s.dp.epoch := by rw [hframe]
  obtain ⟨honly, hbecomes, hstays⟩ := State.classed_only hnmsg (s.fnCls x.inLp f .program)
    { x.hdr with addr := (s.decoder f).dpa x.hdr.addr }
  rw [hepoch] at hbecomes
  refine completes_classify hmsg hstage htime hmay _ hstep ?_ ?_
    ⟨hbecomes, fun k hk => (hstays k hk).trans ?_, rfl, rfl, rfl, rfl, rfl, hpos, hothers, ?_⟩
  · rw [honly, hframe]
  · rw [honly, hframe]
  · rw [hframe]; rfl
  · rw [honly, hframe]; rfl

theorem completes_classify_unmatched (hdecode : s.decodeHpa x.inLp x.hdr.addr = none) :
    Completes (.classify m) s (fun t =>
      t.msg? m = some { x with stage := .atEngine, cls := { s.vcsCls x.inLp x.inLp .noDecoder with epoch := s.dp.epoch } } ∧
      (∀ k, k ≠ m → t.msg? k = s.msg? k) ∧
      t = { s with dp := { s.dp with msgs := t.dp.msgs, classed := s.dp.classed ++ [x.inLp] } }) := by
  have hstep : s.classifyMsg x = s.classed x (s.vcsCls x.inLp x.inLp .noDecoder) x.hdr := by
    rw [s.classifyMsg_of_memReq x hfatal hplain hreq hrole]
    simp [State.classifyMem, hdecode]
  obtain ⟨honly, hbecomes, hstays⟩ := State.classed_only hmsg (s.vcsCls x.inLp x.inLp .noDecoder) x.hdr
  refine completes_classify hmsg hstage htime hmay _ hstep (by rw [honly]) (by rw [honly]) ⟨hbecomes, hstays, ?_⟩
  rw [honly]; rfl

end

/-- Settles O18: the decoder found, or none, decides the class; the message is the only one touched. -/
theorem memRequestsAreClassifiedByTheirDecoder : Obligations.MemRequestsAreClassifiedByTheirDecoder :=
  ⟨fun _ _ _ _ hmsg hstage htime hmay hfatal hplain hreq hrole hdecode htdi =>
      completes_classify_decoded hmsg hstage htime hmay hfatal hplain hreq hrole hdecode htdi,
    fun _ _ _ hmsg hstage htime hmay hfatal hplain hreq hrole hdecode =>
      completes_classify_unmatched hmsg hstage htime hmay hfatal hplain hreq hrole hdecode,
    fun _ _ _ hmsg h => exec_classify_of_not_due hmsg h⟩

/-! ### Entry into the engine -/

/-- A credit return is a receive count, and at most a tap that waits in the meter. -/
theorem State.postedIn_frame (s : State) (m : Msg) (sc : Option Nat) (plot : Nat) :
    s.postedIn m sc plot = { s with mz := (s.postedIn m sc plot).mz } := by
  unfold State.postedIn
  split <;> rfl

/-- The engine's counts of an entry are registers. -/
theorem State.entryCounts_regs (s : State) (n : Nat) (c : Cls) (ein : Nat) : RO s (s.entryCounts n c ein) := by
  have hcount : RO s (match c.path with
      | .program =>
        let s := s.add64 (Reg.coulterMsgLo n) (Reg.coulterMsgHi n) 1
        if c.slot.isNone then s.bump (Fld.coulterExcNoprog n) else s
      | .noDecoder => s
      | _ => s.add64 (Reg.coulterFixedLo n) (Reg.coulterFixedHi n) 1) := by
    split
    · dsimp only
      split
      · exact ((RO.refl s).stepA64 _ _ _).stepB _
      · exact (RO.refl s).stepA64 _ _ _
    · exact RO.refl s
    · exact (RO.refl s).stepA64 _ _ _
  unfold State.entryCounts
  dsimp only
  split
  · exact hcount
  · exact (hcount.stepB _).stepF _ _

/-- A message as it enters stage 1 of engine `n`. -/
def Msg.entering (n cells chCls chPlot ein : Nat) (y : Msg) : Msg :=
  { y with stage := .engine, engine := n, ctx := {}, cells := cells, chCls := chCls, chPlot := chPlot, parts := { y.parts with ein := ein } }

/-- The entry counted: one message more of the port has entered stage 1 in the tick. -/
def State.enteredMore (s : State) (lp : Nat) : State := { s with dp := { s.dp with entered := s.dp.entered ++ [lp] } }

/-- A message enters stage 1 of its port's own engine, the port not being of x16. -/
theorem State.enter_spec {s : State} {m : Nat} {x : Msg} (hmsg : s.msg? m = some x) (hshape : s.shape (x.inLp / 2) ≠ 2) :
    (s.enter x).msg? m = some { x with
      stage := .engine, engine := x.inLp / 2, ctx := {}, cells := s.cellsFor x, chCls := x.hdr.op.credit, chPlot := x.cls.plot
      parts := { x.parts with ein := s.tick - (x.stamp + 5 + x.parts.ideh) } } ∧
    (∀ k, k ≠ m → (s.enter x).msg? k = s.msg? k) ∧
    Tbl.get (fun _ => 0) (s.enter x).link.rxCnt (8 * x.inLp + x.hdr.op.credit) =
      Tbl.get (fun _ => 0) s.link.rxCnt (8 * x.inLp + x.hdr.op.credit) + BitVec.ofNat 32 x.hdr.units ∧
    s.enter x = { s with
      regs := (s.enter x).regs, mz := (s.enter x).mz, link := { s.link with rxCnt := (s.enter x).link.rxCnt }
      dp := { s.dp with msgs := (s.enter x).dp.msgs, entered := s.dp.entered ++ [x.inLp] } } := by
  obtain rfl := msg_id hmsg
  obtain ⟨p, hp⟩ : ∃ p, p = (s.freeRx x).postedIn x
    (if decide (x.cls.path = .program ∨ x.cls.path = .noDecoder) then some x.cls.sc else none) x.cls.plot := ⟨_, rfl⟩
  obtain ⟨c, hc⟩ : ∃ c, c = p.entryCounts (x.inLp / 2) x.cls (s.tick - (x.stamp + 5 + x.parts.ideh)) := ⟨_, rfl⟩
  have hpframe : p = { s.freeRx x with mz := p.mz } := by rw [hp]; exact State.postedIn_frame _ _ _ _
  have hcframe : c = { s.freeRx x with mz := p.mz, regs := c.regs } := by
    have hro := p.entryCounts_regs (x.inLp / 2) x.cls (s.tick - (x.stamp + 5 + x.parts.ideh))
    rw [← hc] at hro
    rw [hro, hpframe]
  have hcmsg : c.msg? x.id = some x := by rw [hcframe]; exact hmsg
  obtain ⟨honly, hbecomes, hstays⟩ := MsgOnly.modMsg hcmsg
    (Msg.entering (x.inLp / 2) (s.cellsFor x) x.hdr.op.credit x.cls.plot (s.tick - (x.stamp + 5 + x.parts.ideh))) (fun _ => rfl)
  obtain ⟨d, hd⟩ : ∃ d, d = c.modMsg x.id
    (Msg.entering (x.inLp / 2) (s.cellsFor x) x.hdr.op.credit x.cls.plot (s.tick - (x.stamp + 5 + x.parts.ideh))) := ⟨_, rfl⟩
  have henter : s.enter x = (d.enteredMore x.inLp).highWater x.inLp x.hdr.op.credit := by
    simp only [State.enter, if_neg hshape, ← hp, ← hc, hd]
    rfl
  rw [← hd] at honly hbecomes hstays
  rw [henter]
  refine ⟨hbecomes, fun k hk => (hstays k hk).trans ?_, ?_, ?_⟩
  · rw [hcframe]; rfl
  · have hlink : ((d.enteredMore x.inLp).highWater x.inLp x.hdr.op.credit).link = (s.freeRx x).link := by
      show d.link = _
      rw [honly, hcframe]
    rw [hlink]
    exact Tbl.get_set_same _ _ _ _
  · rw [honly, hcframe]; rfl

/-- What ENGINE_ENTRY does to the state. -/
def State.engineEntry (s : State) (m : Nat) : State :=
  match s.msg? m with
  | some x =>
    if decide (x.stage = .atEngine ∧ x.stamp + 5 + x.parts.ideh ≤ s.tick) && !s.heldBack x && decide (s.enteredNow x.inLp < s.lanes x.inLp) &&
        s.admits x.inLp x.hdr.op.credit x.cls.plot x.cls.epoch (s.cellsFor x)
    then s.enter x else s
  | none => s

theorem exec_engineEntry (m : Nat) (s : State) : exec (.engineEntry m) s = act s (·.engineEntry m) := rfl

section
variable {s : State} {m : Nat} {x : Msg} (hmsg : s.msg? m = some x)
include hmsg

theorem completes_engineEntry (hstage : x.stage = .atEngine) (htime : x.stamp + 5 + x.parts.ideh ≤ s.tick) (hfirst : s.heldBack x = false)
    (hlane : s.enteredNow x.inLp < s.lanes x.inLp)
    (hroom : s.admits x.inLp x.hdr.op.credit x.cls.plot x.cls.epoch (s.cellsFor x) = true) (hshape : s.shape (x.inLp / 2) ≠ 2) :
    Completes (.engineEntry m) s (fun t =>
      t.msg? m = some { x with stage := .engine, engine := x.inLp / 2, ctx := {}, cells := s.cellsFor x, chCls := x.hdr.op.credit,
                               chPlot := x.cls.plot, parts := { x.parts with ein := s.tick - (x.stamp + 5 + x.parts.ideh) } } ∧
      (∀ k, k ≠ m → t.msg? k = s.msg? k) ∧
      Tbl.get (fun _ => 0) t.link.rxCnt (8 * x.inLp + x.hdr.op.credit) =
        Tbl.get (fun _ => 0) s.link.rxCnt (8 * x.inLp + x.hdr.op.credit) + BitVec.ofNat 32 x.hdr.units ∧
      t = { s with
        regs := t.regs, mz := t.mz, link := { s.link with rxCnt := t.link.rxCnt }
        dp := { s.dp with msgs := t.dp.msgs, entered := s.dp.entered ++ [x.inLp] } }) := by
  obtain ⟨hbecomes, hstays, hcredit, hframe⟩ := State.enter_spec hmsg hshape
  refine Completes.of_eq (s.enter x) (exec_engineEntry m s) ?_ (by rw [hframe]) (by rw [hframe])
    ⟨hbecomes, hstays, hcredit, hframe⟩
  simp only [State.engineEntry, hmsg, hstage, htime, hfirst, hlane, hroom, and_self, decide_true, Bool.not_false, Bool.and_self, if_true]

theorem exec_engineEntry_of_not_due (h : s.tick < x.stamp + 5 + x.parts.ideh ∨ s.enteredNow x.inLp ≥ s.lanes x.inLp ∨
    s.admits x.inLp x.hdr.op.credit x.cls.plot x.cls.epoch (s.cellsFor x) = false) : exec (.engineEntry m) s = .next s := by
  refine exec_of_act s (exec_engineEntry m s) ?_ rfl rfl
  simp only [State.engineEntry, hmsg]
  refine if_neg (fun hall => ?_)
  simp only [Bool.and_eq_true, decide_eq_true_eq, Bool.not_eq_true'] at hall
  obtain ⟨⟨⟨⟨-, htime⟩, -⟩, hlane⟩, hroom⟩ := hall
  rcases h with h | h | h
  · omega
  · omega
  · simp [hroom] at h

end

/-- Settles O19: the entry is a receive count, registers and the one message; without its conditions nothing is done. -/
theorem engineEntryReservesCells : Obligations.EngineEntryReservesCells :=
  ⟨fun _ _ _ hmsg hstage htime hfirst hlane hroom hshape => completes_engineEntry hmsg hstage htime hfirst hlane hroom hshape,
    fun _ _ _ hmsg h => exec_engineEntry_of_not_due hmsg h⟩

end Sys2Proof.Machine
end

section
/-! SUPPORT. The work of a furlong's phase 0 (R15, R258, R272): the refill of one bucket and of the harrow's budgets. -/

open Sys2Proof Sys2Proof.Machine

namespace Sys2Proof.Machine

/-- One register alone differs. -/
theorem OnlyFields.of_rd_ne {s t : State} {a : Nat} (h : ∀ b, b ≠ a → t.rd b = s.rd b) : OnlyFields s t [Fd.whole a] := by
  intro c b hb
  by_cases hc : c = a
  · have hbit : 32 ≤ b := by
      by_contra hlt
      exact hb _ (.head _) ⟨hc.symm, Nat.zero_le _, by simp only [Fd.whole]; omega⟩
    rw [BitVec.getLsbD_of_ge _ _ hbit, BitVec.getLsbD_of_ge _ _ hbit]
  · rw [h c hc]

/-! ### The harrow's budgets (R258) -/

theorem State.har_modHar (s : State) (c k : Nat) (f : HarrowCh → HarrowCh) :
    (s.modHar c f).har k = if k = c then f (s.har c) else s.har k := Tbl.get_set _ _ _ _ _

/-- A channel whose budget is its rate again. -/
def HarrowCh.renewed (h : HarrowCh) (rate : Nat) : HarrowCh := { h with spent := 0, budget := rate }

/-- Budgets renewed one channel after another. -/
theorem State.renewed_spec (l : List Nat) (s : State) :
    (∀ k, (l.foldl (fun s c => s.modHar c (·.renewed (s.harRate c))) s).har k =
      if k ∈ l then (s.har k).renewed (s.harRate k) else s.har k) ∧
    l.foldl (fun s c => s.modHar c (·.renewed (s.harRate c))) s =
      { s with xb := { s.xb with harrow := (l.foldl (fun s c => s.modHar c (·.renewed (s.harRate c))) s).xb.harrow } } := by
  induction l generalizing s with
  | nil => exact ⟨fun _ => (if_neg List.not_mem_nil).symm, rfl⟩
  | cons c l ih =>
    obtain ⟨hchannels, hframe⟩ := ih (s.modHar c (·.renewed (s.harRate c)))
    refine ⟨fun k => ?_, hframe⟩
    have hrate : (s.modHar c (·.renewed (s.harRate c))).harRate k = s.harRate k := rfl
    rw [List.foldl_cons, hchannels k, State.har_modHar, hrate]
    by_cases hkc : k = c
    · simp [hkc, HarrowCh.renewed]
    · simp [hkc]

theorem State.harRefill_spec (s : State) :
    (∀ c, s.harRefill.har c = { s.har c with
      spent := if c < 4 then 0 else (s.har c).spent, budget := if c < 4 then s.harRate c else (s.har c).budget }) ∧
    s.harRefill = { s with xb := { s.xb with harrow := s.harRefill.xb.harrow } } := by
  obtain ⟨hchannels, hframe⟩ := State.renewed_spec (List.range 4) s
  refine ⟨fun c => (hchannels c).trans ?_, hframe⟩
  by_cases hc : c < 4 <;> simp [hc, HarrowCh.renewed]

/-! ### One bucket (R272) -/

/-- A level set: its register reads the value, at least `-2^31`; the level it had is kept for reads. -/
theorem State.setLevel_spec (s : State) (a : Nat) (v : Int) (hlow : -2 ^ 31 ≤ v) (hhigh : v < 2 ^ 31) :
    (s.setLevel a v).level a = v ∧ (∀ b, b ≠ a → (s.setLevel a v).rd b = s.rd b) ∧
    s.setLevel a v = { s with regs := (s.setLevel a v).regs, xb := { s.xb with levels := (s.setLevel a v).xb.levels } } := by
  have hkeep : s.keepLevel a = { s with xb := { s.xb with levels := (s.keepLevel a).xb.levels } } := by
    unfold State.keepLevel
    split <;> rfl
  refine ⟨?_, fun b hb => ?_, ?_⟩
  · rw [State.level, State.setLevel, State.rd_wr_same, max_eq_left hlow]
    exact toInt_ofInt v hlow hhigh
  · rw [State.setLevel, State.rd_wr_ne _ _ _ _ hb, hkeep]
    rfl
  · rw [State.setLevel, hkeep]
    rfl

section
variable {s : State} {k : Nat}

/-- The refill with one service context listed: its level rises by its rate, at most to its depth. -/
theorem State.refillAll_of_one (hlisted : s.schedListed = ([k], [], [])) (hfatal : s.getF Fld.faultStatFatal = 0)
    (hen : s.getF (Fld.schedScW0En k) = 1) (hbelow : s.level (Reg.schedScLevel k) < s.getF (Fld.schedScW1Depth k)) :
    s.refillAll = s.setLevel (Reg.schedScLevel k)
      (min (s.level (Reg.schedScLevel k) + s.getF (Fld.schedScW0Rate k)) (s.getF (Fld.schedScW1Depth k))) := by
  unfold State.refillAll
  rw [if_neg (by omega), hlisted]
  simp only [List.foldl_cons, List.foldl_nil]
  exact if_pos (by simp [State.scBucket, hen, hbelow])

/-- No commit waits, the rank-2 bytes of no port are counted, and the meter is not ready: the boundary's work is the refill. -/
theorem State.furlongStart_of_quiet (hphase : s.phase = 0) (hdone : s.furDone ≠ some s.furlong) (hcommits : s.commits = [])
    (hstep : s.getF Fld.cprStartStep ≠ 6) (hrank2 : s.xb.rank2 = []) (hmeter : s.refillAll.harRefill.mz.ready = false) :
    s.furlongStart = { s.refillAll.harRefill with furDone := some s.furlong } := by
  have hswitch : s.switchOver = s := by
    have hnone : s.dueCommits = [] := by simp [State.dueCommits, hcommits]
    unfold State.switchOver
    simp only [hphase, hnone, ne_eq, not_true_eq_false, if_false, if_true]
    exact if_neg (fun h => hstep h.1)
  have hbudget : s.rank2Check = s := by
    unfold State.rank2Check
    rw [hrank2, List.foldl_nil, ← hrank2]
  have hbeat : s.refillAll.harRefill.meterBeat = s.refillAll.harRefill := if_pos (by simp [hmeter])
  unfold State.furlongStart
  rw [if_neg (by simp [hphase, hdone]), hswitch, hbudget, hbeat]

theorem completes_furlongBoundary (hphase : s.phase = 0) (hdone : s.furDone ≠ some s.furlong) (hcommits : s.commits = [])
    (hstep : s.getF Fld.cprStartStep ≠ 6) (hrank2 : s.xb.rank2 = []) (hmeter : s.mz.ready = false)
    (hlisted : s.schedListed = ([k], [], [])) (hfatal : s.getF Fld.faultStatFatal = 0)
    (hen : s.getF (Fld.schedScW0En k) = 1) (hbelow : s.level (Reg.schedScLevel k) < s.getF (Fld.schedScW1Depth k)) :
    Completes .furlongBoundary s (fun t => t.furDone = some s.furlong ∧
      t.level (Reg.schedScLevel k) =
        min (s.level (Reg.schedScLevel k) + s.getF (Fld.schedScW0Rate k)) (s.getF (Fld.schedScW1Depth k)) ∧
      (∀ c, t.har c = { s.har c with
        spent := if c < 4 then 0 else (s.har c).spent, budget := if c < 4 then s.harRate c else (s.har c).budget }) ∧
      OnlyFields s t [Fd.whole (Reg.schedScLevel k)] ∧
      t = { s with furDone := t.furDone, regs := t.regs, xb := { s.xb with harrow := t.xb.harrow, levels := t.xb.levels } }) := by
  have hlow : -2 ^ 31 ≤ s.level (Reg.schedScLevel k) := BitVec.le_toInt _
  have hdepth : s.getF (Fld.schedScW1Depth k) < 2 ^ 24 := s.getF_lt (Fld.schedScW1Depth k)
  have hfill := State.refillAll_of_one hlisted hfatal hen hbelow
  obtain ⟨hlevel, hothers, hframe⟩ := s.setLevel_spec (Reg.schedScLevel k)
    (min (s.level (Reg.schedScLevel k) + s.getF (Fld.schedScW0Rate k)) (s.getF (Fld.schedScW1Depth k))) (by omega) (by omega)
  rw [← hfill] at hlevel hothers hframe
  obtain ⟨hchannels, hharrow⟩ := s.refillAll.harRefill_spec
  obtain ⟨v, hv⟩ : ∃ v, v = s.refillAll.harRefill := ⟨_, rfl⟩
  have hrate : ∀ c, c < 4 → s.refillAll.harRate c = s.harRate c := fun c hc => by
    rw [State.harRate, getF_addr _ (hothers _ (by simp only [Fld.harrowRateLines, Reg.harrowRate, Reg.schedScLevel]; omega)), State.harRate]
  have hhar : ∀ c, s.refillAll.har c = s.har c := fun c => by rw [hframe]; rfl
  have hvregs : v.regs = s.refillAll.regs := by rw [hv, hharrow]
  have hvframe : v = { s with regs := v.regs, xb := { s.xb with harrow := v.xb.harrow, levels := v.xb.levels } } := by
    rw [hv, hharrow, hframe]
  have hwork : s.furlongStart = { v with furDone := some s.furlong } := by
    rw [hv]
    exact State.furlongStart_of_quiet hphase hdone hcommits hstep hrank2 (by rw [← hv, hvframe]; exact hmeter)
  refine Completes.of_eq (f := (·.furlongStart)) _ rfl hwork (by rw [hvframe]) (by rw [hvframe]) ⟨rfl, ?_, fun c => ?_, ?_, ?_⟩
  · rw [← hlevel]
    simp only [State.level, State.rd, hvregs]
  · rw [← hv] at hchannels
    refine (hchannels c).trans ?_
    rw [hhar c]
    by_cases hlt : c < 4
    · simp only [hlt, if_true, hrate c hlt]
    · simp only [hlt, if_false]
  · exact (OnlyFields.of_rd_ne hothers).of_regs hvregs
  · rw [hvframe]

end

/-- Settles O9: the boundary is the refill of the one listed bucket and of the harrow's budgets, in that order. -/
theorem furlongBoundaryRenewsBudgetsOnce : Obligations.FurlongBoundaryRenewsBudgetsOnce := by
  refine ⟨fun s k hphase hdone hcommits hstep hrank2 hmeter _ hlisted hfatal hen hbelow =>
    completes_furlongBoundary hphase hdone hcommits hstep hrank2 hmeter hlisted hfatal hen hbelow, fun s h => ?_⟩
  exact exec_of_act (f := (·.furlongStart)) s rfl (if_pos h) rfl rfl

end Sys2Proof.Machine
end

section
/-! SUPPORT. Program commits and counter clears (R18, R20, R170, R177): what one engine's commit shows, and that the engines of a block do
not disturb each other. -/

open Sys2Proof Sys2Proof.Machine

namespace Sys2Proof.Machine

/-! ### Registers and engines -/

/-- A register that holds none of the fields that may differ reads as before. -/
theorem OnlyFields.rd_of_addr_ne {s t : State} {fs : List Fd} (h : OnlyFields s t fs) {a : Nat} (ha : ∀ f ∈ fs, f.addr ≠ a) :
    t.rd a = s.rd a :=
  BitVec.eq_of_getLsbD_eq (fun b _ => h a b (fun f hf hin => ha f hf hin.1))

theorem OnlyFields.mono {s t : State} {fs gs : List Fd} (h : OnlyFields s t fs) (hsub : fs ⊆ gs) : OnlyFields s t gs :=
  fun a b hb => h a b (fun f hf => hb f (hsub hf))

/-- A 64-bit value depends on its two registers alone. -/
theorem get64_addr {s t : State} {a b : Nat} (ha : t.rd a = s.rd a) (hb : t.rd b = s.rd b) : t.get64 a b = s.get64 a b := by
  unfold State.get64
  rw [ha, hb]

/-- A write to a block reaches one engine, or the two of an x16 cluster. -/
theorem State.enginesOf_cases (s : State) (n : Nat) : s.enginesOf n = [n] ∨ s.enginesOf n = [n, n + 1] := by
  unfold State.enginesOf
  split
  · exact .inr rfl
  · exact .inl rfl

/-! ### One engine's commit -/

/-- The fields of an accepted commit of program `p` in engine `k`. -/
def progCommitFields (p k : Nat) : List Fd :=
  [Fld.coulterCommitStatPending k, Fld.coulterCommitStatProg k, Fld.coulterProgStatPending k p, Fd.whole (Reg.coulterCommitTickLo k),
    Fd.whole (Reg.coulterCommitTickHi k), Fd.whole (Reg.coulterCommitFurlongLo k), Fd.whole (Reg.coulterCommitFurlongHi k)]

/-- The commit of program `p` shows in engine `k`, taken at tick `T` for furlong `F`. -/
def State.progCommitShown (t : State) (p T F k : Nat) : Prop :=
  t.getF (Fld.coulterCommitStatPending k) = 1 ∧ t.getF (Fld.coulterCommitStatProg k) = p ∧ t.getF (Fld.coulterProgStatPending k p) = 1 ∧
  t.get64 (Reg.coulterCommitTickLo k) (Reg.coulterCommitTickHi k) = T % 2 ^ 64 ∧
  t.get64 (Reg.coulterCommitFurlongLo k) (Reg.coulterCommitFurlongHi k) = F % 2 ^ 64

/-- The registers of an accepted commit lie in the first `0x600` bytes of the engine's block. -/
theorem progCommitFields_addr {p k : Nat} (hp : p < 16) : ∀ f ∈ progCommitFields p k,
    0x800000 + 0x20000 * k ≤ f.addr ∧ f.addr < 0x800600 + 0x20000 * k := by
  simp only [progCommitFields, List.forall_mem_cons, Fld.coulterCommitStatPending, Fld.coulterCommitStatProg, Fld.coulterProgStatPending,
    Fd.whole, Reg.coulterCommitStat, Reg.coulterProgStat, Reg.coulterCommitTickLo, Reg.coulterCommitTickHi, Reg.coulterCommitFurlongLo,
    Reg.coulterCommitFurlongHi]
  refine ⟨by omega, by omega, by omega, by omega, by omega, by omega, by omega, by simp⟩

theorem State.progCommitShown_congr {s t : State} {p T F k : Nat} (hp : p < 16) (h : s.progCommitShown p T F k)
    (hrd : ∀ a, 0x800000 + 0x20000 * k ≤ a → a < 0x800600 + 0x20000 * k → t.rd a = s.rd a) : t.progCommitShown p T F k := by
  obtain ⟨hpending, hprog, hwaits, htick, hfurlong⟩ := h
  have haddr := progCommitFields_addr (k := k) hp
  simp only [progCommitFields, List.forall_mem_cons, Fd.whole] at haddr
  obtain ⟨a1, a2, a3, a4, a5, a6, a7, -⟩ := haddr
  exact ⟨(getF_addr _ (hrd _ a1.1 a1.2)).trans hpending, (getF_addr _ (hrd _ a2.1 a2.2)).trans hprog,
    (getF_addr _ (hrd _ a3.1 a3.2)).trans hwaits, (get64_addr (hrd _ a4.1 a4.2) (hrd _ a5.1 a5.2)).trans htick,
    (get64_addr (hrd _ a6.1 a6.2) (hrd _ a7.1 a7.2)).trans hfurlong⟩

/-- An engine accepts a commit that nothing of R20 is against. -/
theorem State.progCommitOne_of_good {s : State} {k p : Nat} (hp : p < 16) (hgood : s.progCommitBad k p = false) :
    (s.progCommitOne k p).progCommitShown p s.tick s.commitFurlong k ∧
    (s.progCommitOne k p).commits = s.commits ++ [(.prog k p, s.commitFurlong)] ∧
    OnlyFields s (s.progCommitOne k p) (progCommitFields p k) ∧
    s.progCommitOne k p = { s with regs := (s.progCommitOne k p).regs, commits := (s.progCommitOne k p).commits } := by
  obtain ⟨a, ha⟩ : ∃ a, a = s.acceptCommit (.prog k p) (Fld.coulterCommitStatPending k) (Reg.coulterCommitTickLo k)
    (Reg.coulterCommitTickHi k) (Reg.coulterCommitFurlongLo k) (Reg.coulterCommitFurlongHi k) := ⟨_, rfl⟩
  have hone : s.progCommitOne k p = (a.setF (Fld.coulterCommitStatProg k) p).setF (Fld.coulterProgStatPending k p) 1 := by
    rw [ha]; exact if_neg (by simp [hgood])
  rw [hone]
  have hstat : Reg.coulterProgStat k p ≠ Reg.coulterCommitStat k := by simp only [Reg.coulterProgStat, Reg.coulterCommitStat]; omega
  have hlate : ∀ b, b ≠ Reg.coulterCommitStat k → b ≠ Reg.coulterProgStat k p →
      ((a.setF (Fld.coulterCommitStatProg k) p).setF (Fld.coulterProgStatPending k p) 1).rd b = a.rd b := fun b h1 h2 =>
    (State.rd_setF_ne _ _ _ _ h2).trans (State.rd_setF_ne _ _ _ _ h1)
  have hregs : [Reg.coulterCommitStat k, Reg.coulterCommitTickLo k, Reg.coulterCommitTickHi k, Reg.coulterCommitFurlongLo k,
      Reg.coulterCommitFurlongHi k, Reg.coulterProgStat k p].Nodup := by
    simp only [Reg.coulterCommitStat, Reg.coulterCommitTickLo, Reg.coulterCommitTickHi, Reg.coulterCommitFurlongLo,
      Reg.coulterCommitFurlongHi, Reg.coulterProgStat, List.nodup_cons, List.mem_cons, List.not_mem_nil, not_or, or_false,
      not_false_eq_true, List.nodup_nil, and_true]
    omega
  simp only [List.nodup_cons, List.mem_cons, List.not_mem_nil, not_or, or_false, not_false_eq_true, List.nodup_nil, and_true] at hregs
  obtain ⟨⟨c1, c2, c3, c4, -⟩, ⟨l1, l2, l3, l4⟩, ⟨m1, m2, m3⟩, ⟨n1, n2⟩, o1⟩ := hregs
  rw [acceptCommit_def] at ha
  refine ⟨⟨?_, ?_, getF_fit _ _ _ (by simp [Fld.coulterProgStatPending]) (by simp [Fld.coulterProgStatPending]), ?_, ?_⟩, ?_, ?_, ?_⟩
  · rw [State.getF_setF_ne _ _ _ _ (.inl hstat.symm), State.getF_setF_ne _ _ _ _ (.inr (.inl (by simp [Fld.coulterCommitStatPending,
      Fld.coulterCommitStatProg]))), ha, getF_wc, getF_set64_ne _ _ _ _ _ c3 c4, getF_set64_ne _ _ _ _ _ c1 c2]
    exact getF_fit _ _ _ (by simp [Fld.coulterCommitStatPending]) (by simp [Fld.coulterCommitStatPending])
  · rw [State.getF_setF_ne _ _ _ _ (.inl hstat.symm)]
    exact getF_fit _ _ _ (by simp [Fld.coulterCommitStatProg]) (by simpa [Fld.coulterCommitStatProg] using hp)
  · refine get64_of _ _ _ _ ?_ ?_
    · rw [hlate _ (Ne.symm c1) l4, ha, rd_wc, rd_set64_ne _ _ _ _ _ l2 l3, rd_set64_lo _ _ _ _ l1]
    · rw [hlate _ (Ne.symm c2) m3, ha, rd_wc, rd_set64_ne _ _ _ _ _ m1 m2, rd_set64_hi]
  · refine get64_of _ _ _ _ ?_ ?_
    · rw [hlate _ (Ne.symm c3) n2, ha, rd_wc, rd_set64_lo _ _ _ _ n1]
    · rw [hlate _ (Ne.symm c4) o1, ha, rd_wc, rd_set64_hi]
  · rw [State.setF_commits, State.setF_commits, ha]; rfl
  · have haccept : OnlyFields s a (progCommitFields p k) := by
      rw [ha]
      exact ((((OnlyFields.refl s _).stepF _ _ (by simp [progCommitFields])).step64 _ _ _ (by simp [progCommitFields])
        (by simp [progCommitFields])).step64 _ _ _ (by simp [progCommitFields]) (by simp [progCommitFields])).of_regs rfl
    exact (haccept.stepF _ _ (by simp [progCommitFields])).stepF _ _ (by simp [progCommitFields])
  · have haccept : a = { s with regs := a.regs, commits := a.commits } := by rw [ha]; rfl
    have hro : RO a ((a.setF (Fld.coulterCommitStatProg k) p).setF (Fld.coulterProgStatPending k p) 1) :=
      ((RO.refl a).stepF _ _).stepF _ _
    rw [hro, haccept]

/-- What R20 has against a commit in an engine depends on commits of that program in it, on its loads and on the program's status. -/
theorem State.progCommitBad_congr {s t : State} {k p : Nat} (hcommits : t.pendingCommit (.prog k p) = s.pendingCommit (.prog k p))
    (heng : t.eng = s.eng) (hstat : t.rd (Reg.coulterProgStat k p) = s.rd (Reg.coulterProgStat k p)) :
    t.progCommitBad k p = s.progCommitBad k p := by
  have hlive : t.progLive k p = s.progLive k p := by rw [State.progLive, getF_addr _ hstat, State.progLive]
  have hinforce : t.progInForce k p = s.progInForce k p := getF_addr _ hstat
  have hvalid : ∀ sl, t.getF (if sl = 0 then Fld.coulterProgStatValidA k p else Fld.coulterProgStatValidB k p) =
      s.getF (if sl = 0 then Fld.coulterProgStatValidA k p else Fld.coulterProgStatValidB k p) := fun sl => by
    split <;> exact getF_addr _ hstat
  unfold State.progCommitBad
  simp only [hcommits, State.loadOf, heng, hlive, hinforce, hvalid]
  rfl

/-! ### The commands -/

section
variable {s : State} {n : Phys} {p : ProgNo}

theorem State.progCommit_of_shape (hshape : s.shape n.val ≠ 3) :
    s.progCommit n.val p.val = (s.enginesOf n.val).foldl (fun s k => s.progCommitOne k p.val) s := if_neg hshape

theorem completes_programCommit_accepted (hshape : s.shape n.val ≠ 3) (hgood : ∀ k ∈ s.enginesOf n.val, s.progCommitBad k p.val = false) :
    Completes (.programCommit n p) s (fun t =>
      (∀ k ∈ s.enginesOf n.val, t.progCommitShown p.val s.tick s.commitFurlong k) ∧
      t.commits = s.commits ++ (s.enginesOf n.val).map (fun k => (.prog k p.val, s.commitFurlong)) ∧
      OnlyFields s t ((s.enginesOf n.val).flatMap (progCommitFields p.val)) ∧
      t = { s with regs := t.regs, commits := t.commits }) := by
  have hstep := s.progCommit_of_shape (p := p) hshape
  rcases s.enginesOf_cases n.val with hone | htwo
  · rw [hone] at hgood hstep ⊢
    obtain ⟨hshown, hcommits, honly, hframe⟩ := State.progCommitOne_of_good p.isLt (hgood n.val (.head _))
    refine Completes.of_eq (f := (·.progCommit n.val p.val)) _ rfl hstep (by rw [List.foldl_cons, List.foldl_nil, hframe])
      (by rw [List.foldl_cons, List.foldl_nil, hframe]) ⟨by simpa using hshown, hcommits, by simpa using honly, hframe⟩
  · rw [htwo] at hgood hstep ⊢
    obtain ⟨hshown, hcommits, honly, hframe⟩ := State.progCommitOne_of_good p.isLt (hgood n.val (.head _))
    obtain ⟨u, hu⟩ : ∃ u, u = s.progCommitOne n.val p.val := ⟨_, rfl⟩
    rw [← hu] at hshown hcommits honly hframe
    have haddr := progCommitFields_addr (k := n.val) p.isLt
    have hgood' : u.progCommitBad (n.val + 1) p.val = false := by
      rw [State.progCommitBad_congr (s := s) ?_ (by rw [hframe]) (honly.rd_of_addr_ne fun f hf => ?_)]
      · exact hgood _ (.tail _ (.head _))
      · simp [State.pendingCommit, hcommits]
      · have := haddr f hf
        simp only [Reg.coulterProgStat]
        omega
    obtain ⟨hshown', hcommits', honly', hframe'⟩ := State.progCommitOne_of_good p.isLt hgood'
    have htick : u.tick = s.tick := by rw [hframe]
    have hfurlong : u.commitFurlong = s.commitFurlong := by rw [hframe]; rfl
    rw [htick, hfurlong] at hshown'
    rw [hfurlong] at hcommits'
    rw [List.foldl_cons, List.foldl_cons, List.foldl_nil, ← hu] at hstep
    have haddr' := progCommitFields_addr (k := n.val + 1) p.isLt
    refine Completes.of_eq (f := (·.progCommit n.val p.val)) _ rfl hstep (by rw [hframe', hframe]) (by rw [hframe', hframe])
      ⟨?_, ?_, ?_, ?_⟩
    · simp only [List.forall_mem_cons]
      refine ⟨State.progCommitShown_congr p.isLt hshown fun a _ hlt => honly'.rd_of_addr_ne fun f hf => ?_, hshown', nofun⟩
      have := haddr' f hf
      omega
    · rw [hcommits', hcommits, List.append_assoc]; rfl
    · exact (honly.mono (by simp)).trans (honly'.mono (by simp))
    · rw [hframe', hframe]

theorem completes_programCommit_refused (hshape : s.shape n.val ≠ 3) (hbad : ∀ k ∈ s.enginesOf n.val, s.progCommitBad k p.val = true) :
    Completes (.programCommit n p) s (fun t => (∀ k ∈ s.enginesOf n.val, t.getF (Fld.coulterCommitStatRefused k) = 1) ∧
      RegsOnly s t ((s.enginesOf n.val).map (fun k => Fld.coulterCommitStatRefused k))) := by
  have hstep := s.progCommit_of_shape (p := p) hshape
  have hrefused : ∀ (u : State) k, u.progCommitBad k p.val = true → u.progCommitOne k p.val = u.setF (Fld.coulterCommitStatRefused k) 1 :=
    fun u k h => if_pos h
  have hshown : ∀ (u : State) k, (u.setF (Fld.coulterCommitStatRefused k) 1).getF (Fld.coulterCommitStatRefused k) = 1 := fun u k =>
    getF_fit _ _ _ (by simp [Fld.coulterCommitStatRefused]) (by simp [Fld.coulterCommitStatRefused])
  rcases s.enginesOf_cases n.val with hone | htwo
  · rw [hone] at hbad hstep ⊢
    rw [List.foldl_cons, List.foldl_nil, hrefused s _ (hbad _ (.head _))] at hstep
    exact Completes.of_eq (f := (·.progCommit n.val p.val)) _ rfl hstep rfl rfl ⟨by simpa using hshown s n.val, RegsOnly.setF _ _ _⟩
  · rw [htwo] at hbad hstep ⊢
    have hbad' : (s.setF (Fld.coulterCommitStatRefused n.val) 1).progCommitBad (n.val + 1) p.val = true := by
      have hstat : (s.setF (Fld.coulterCommitStatRefused n.val) 1).rd (Reg.coulterProgStat (n.val + 1) p.val) =
          s.rd (Reg.coulterProgStat (n.val + 1) p.val) := by
        have := p.isLt
        refine State.rd_setF_ne s _ _ _ ?_
        simp only [Fld.coulterCommitStatRefused, Reg.coulterCommitStat, Reg.coulterProgStat]
        omega
      exact (State.progCommitBad_congr (s := s) (t := s.setF _ 1) rfl rfl hstat).trans (hbad _ (.tail _ (.head _)))
    rw [List.foldl_cons, List.foldl_cons, List.foldl_nil, hrefused s _ (hbad _ (.head _)), hrefused _ _ hbad'] at hstep
    refine Completes.of_eq (f := (·.progCommit n.val p.val)) _ rfl hstep rfl rfl ⟨?_, rfl, ?_⟩
    · simp only [List.forall_mem_cons]
      refine ⟨?_, hshown _ _, nofun⟩
      rw [State.getF_setF_ne _ _ _ _ (.inl (by simp only [Fld.coulterCommitStatRefused, Reg.coulterCommitStat]; omega))]
      exact hshown _ _
    · exact ((OnlyFields.refl s _).stepF _ _ (by simp)).stepF _ _ (by simp)

theorem completes_programCommit_follower (hshape : s.shape n.val = 3) :
    Completes (.programCommit n p) s (fun t => t.getF (Fld.coulterStatRefused n.val) = 1 ∧ RegsOnly s t [Fld.coulterStatRefused n.val]) :=
  setF_ok (f := (·.progCommit n.val p.val)) 1 rfl (if_pos hshape) (by simp [Fld.coulterStatRefused]) (by simp [Fld.coulterStatRefused])

theorem completes_counterClear (k : Fin 32) : Completes (.counterClear n p k) s (fun t =>
    t.rd (Reg.coulterCntLo n.val p.val k.val) = 0 ∧ t.rd (Reg.coulterCntHi n.val p.val k.val) = 0 ∧
    RegsOnly s t [Fd.whole (Reg.coulterCntLo n.val p.val k.val), Fd.whole (Reg.coulterCntHi n.val p.val k.val)]) := by
  refine Completes.of_act' (f := (·.set64 (Reg.coulterCntLo n.val p.val k.val) (Reg.coulterCntHi n.val p.val k.val) 0)) rfl rfl rfl
    ⟨?_, rd_set64_hi _ _ _ _, rfl, (OnlyFields.refl s _).step64 _ _ _ (by simp) (by simp)⟩
  exact rd_set64_lo _ _ _ _ (by simp only [Reg.coulterCntLo, Reg.coulterCntHi]; omega)

end

/-- Settles O29: engine by engine, since no engine's commit touches what another's reads. -/
theorem programCommitsAndCounterClears : Obligations.ProgramCommitsAndCounterClears :=
  ⟨fun _ _ _ hshape hgood => completes_programCommit_accepted hshape hgood,
    fun _ _ _ hshape hbad => completes_programCommit_refused hshape hbad,
    fun _ _ _ hshape => completes_programCommit_follower hshape, fun _ _ _ k => completes_counterClear k⟩

end Sys2Proof.Machine
end

section
/-! SUPPORT. Program loads (R136, R138, R172, R174, R175): the write of LOAD_CTL, a refused image, and what an accepted one leaves in the
slot of each engine that it reaches. -/

open Sys2Proof Sys2Proof.Machine

namespace Sys2Proof.Machine

/-- What the engines note beside registers leaves the registers. -/
theorem State.regs_withEng (s : State) (e : EngSt) : ({ s with eng := e } : State).regs = s.regs := rfl

/-! ### GO (R136, R139, R174) -/

/-- A load of program `p` from engine `n`'s window begins in engine `k`. -/
def State.loadBegin (s : State) (n p k : Nat) : State :=
  { s.setFs [(Fld.coulterLoadStatBusy k, 1), (Fld.coulterLoadStatProg k, p)] with
    eng := { s.eng with loads := Tbl.set (fun _ => none) s.eng.loads k (some (p, n)) } }

/-- BUSY and PROG show a load of program `p` in engine `k`. -/
def State.loadShown (t : State) (p k : Nat) : Prop := t.getF (Fld.coulterLoadStatBusy k) = 1 ∧ t.getF (Fld.coulterLoadStatProg k) = p

theorem State.loadBegin_regs (s : State) (n p k : Nat) :
    (s.loadBegin n p k).regs = (s.setFs [(Fld.coulterLoadStatBusy k, 1), (Fld.coulterLoadStatProg k, p)]).regs :=
  State.regs_withEng _ _

theorem State.loadBegin_shown (s : State) (n p k : Nat) (hp : p < 16) : (s.loadBegin n p k).loadShown p k := by
  obtain ⟨hset, -⟩ := Writes.setFs [(Fld.coulterLoadStatBusy k, 1), (Fld.coulterLoadStatProg k, p)]
    (by simp [Fld.coulterLoadStatBusy, Fld.coulterLoadStatProg]; omega) (by simp [Fld.coulterLoadStatBusy, Fld.coulterLoadStatProg]) s
  exact ⟨(getF_regs (s.loadBegin_regs n p k) _).trans (hset _ (.head _)),
    (getF_regs (s.loadBegin_regs n p k) _).trans (hset _ (.tail _ (.head _)))⟩

theorem State.loadBegin_rd_ne (s : State) (n p k a : Nat) (h : a ≠ Reg.coulterLoadStat k) : (s.loadBegin n p k).rd a = s.rd a :=
  by
  rw [State.rd, s.loadBegin_regs, ← State.rd]
  exact (State.rd_setF_ne _ _ _ _ h).trans (State.rd_setF_ne _ _ _ _ h)

/-- Loads begin in the engines of a list. -/
theorem State.loadBegins_spec (n p : Nat) (hp : p < 16) (l : List Nat) (s : State) :
    (∀ k, k ∈ l ∨ s.loadShown p k → (l.foldl (fun s k => s.loadBegin n p k) s).loadShown p k) ∧
    (∀ k, (l.foldl (fun s k => s.loadBegin n p k) s).loadOf k = if k ∈ l then some (p, n) else s.loadOf k) ∧
    OnlyFields s (l.foldl (fun s k => s.loadBegin n p k) s)
      (l.flatMap (fun k => [Fld.coulterLoadStatBusy k, Fld.coulterLoadStatProg k])) ∧
    l.foldl (fun s k => s.loadBegin n p k) s = { s with
      regs := (l.foldl (fun s k => s.loadBegin n p k) s).regs
      eng := { s.eng with loads := (l.foldl (fun s k => s.loadBegin n p k) s).eng.loads } } := by
  induction l generalizing s with
  | nil => exact ⟨fun k h => h.resolve_left List.not_mem_nil, fun k => (if_neg List.not_mem_nil).symm, OnlyFields.refl s _, rfl⟩
  | cons j l ih =>
    obtain ⟨hshown, hloads, honly, hframe⟩ := ih (s.loadBegin n p j)
    refine ⟨fun k hk => hshown k ?_, fun k => (hloads k).trans ?_, ?_, hframe⟩
    · by_cases hkj : k = j
      · exact .inr (hkj ▸ s.loadBegin_shown n p j hp)
      · refine hk.imp (fun hmem => (List.mem_cons.mp hmem).resolve_left hkj) (fun ⟨hbusy, hprog⟩ => ?_)
        have hrd := s.loadBegin_rd_ne n p j (Reg.coulterLoadStat k) (by simp only [Reg.coulterLoadStat]; omega)
        exact ⟨(getF_addr _ hrd).trans hbusy, (getF_addr _ hrd).trans hprog⟩
    · have hset : (s.loadBegin n p j).loadOf k = if k = j then some (p, n) else s.loadOf k := Tbl.get_set _ _ _ _ _
      rw [hset]
      by_cases hkj : k = j <;> simp [hkj]
    · refine OnlyFields.trans (t := s.loadBegin n p j) ?_ (honly.mono (by simp))
      exact ((OnlyFields.refl s _).stepFs _ (by simp)).of_regs (s.loadBegin_regs n p j)

theorem completes_load (s : State) (n : Phys) (p : ProgNo) (hshape : s.shape n.val ≠ 3)
    (hidle : ∀ k ∈ s.enginesOf n.val, s.getF (Fld.coulterLoadStatBusy k) = 0) :
    Completes (.load n p) s (fun t =>
      (∀ k ∈ s.enginesOf n.val, t.getF (Fld.coulterLoadStatBusy k) = 1 ∧ t.getF (Fld.coulterLoadStatProg k) = p.val) ∧
      (∀ k, t.loadOf k = if k ∈ s.enginesOf n.val then some (p.val, n.val) else s.loadOf k) ∧
      OnlyFields s t ((s.enginesOf n.val).flatMap (fun k => [Fld.coulterLoadStatBusy k, Fld.coulterLoadStatProg k])) ∧
      t = { s with regs := t.regs, eng := { s.eng with loads := t.eng.loads } }) := by
  have hstep : s.loadGo n.val p.val = (s.enginesOf n.val).foldl (fun s k => s.loadBegin n.val p.val k) s := by
    refine if_neg (not_or.mpr ⟨hshape, ?_⟩)
    simp only [List.any_eq_true, decide_eq_true_eq, not_exists, not_and]
    exact fun k hk => by rw [hidle k hk]; decide
  obtain ⟨hshown, hloads, honly, hframe⟩ := State.loadBegins_spec n.val p.val p.isLt (s.enginesOf n.val) s
  exact Completes.of_eq (f := (·.loadGo n.val p.val)) _ rfl hstep (by rw [hframe]) (by rw [hframe])
    ⟨fun k hk => hshown k (.inl hk), hloads, honly, hframe⟩

theorem completes_load_refused (s : State) (n : Phys) (p : ProgNo)
    (h : s.shape n.val = 3 ∨ (∃ k ∈ s.enginesOf n.val, s.getF (Fld.coulterLoadStatBusy k) = 1)) :
    Completes (.load n p) s (fun t => t.getF (Fld.coulterStatRefused n.val) = 1 ∧ RegsOnly s t [Fld.coulterStatRefused n.val]) :=
  setF_ok (f := (·.loadGo n.val p.val)) 1 rfl (if_pos (by simpa only [List.any_eq_true, decide_eq_true_eq] using h))
    (by simp [Fld.coulterStatRefused]) (by simp [Fld.coulterStatRefused])

/-! ### The end of a load (R138, R174) -/

theorem State.loadEnd_regs (s : State) (n : Nat) (r : Nat × Nat) : (s.loadEnd n r).regs =
    (s.setFs [(Fld.coulterLoadStatBusy n, 0), (Fld.coulterLoadStatCode n, r.1), (Fld.coulterLoadStatWord n, r.2)]).regs :=
  State.regs_withEng _ _

theorem State.loadEnd_writes (s : State) (n : Nat) (r : Nat × Nat) (hcode : r.1 < 256) (hword : r.2 < 128) :
    Writes s (s.loadEnd n r) [(Fld.coulterLoadStatBusy n, 0), (Fld.coulterLoadStatCode n, r.1), (Fld.coulterLoadStatWord n, r.2)] :=
  (Writes.setFs _ (by simp [Fld.coulterLoadStatBusy, Fld.coulterLoadStatCode, Fld.coulterLoadStatWord]; omega)
    (by simp [Fld.coulterLoadStatBusy, Fld.coulterLoadStatCode, Fld.coulterLoadStatWord]) s).of_regs (s.loadEnd_regs n r)

theorem State.loadEnd_rd_ne (s : State) (n : Nat) (r : Nat × Nat) (a : Nat) (h : a ≠ Reg.coulterLoadStat n) :
    (s.loadEnd n r).rd a = s.rd a :=
  by
  rw [State.rd, s.loadEnd_regs, ← State.rd]
  exact (State.rd_setF_ne _ _ _ _ h).trans ((State.rd_setF_ne _ _ _ _ h).trans (State.rd_setF_ne _ _ _ _ h))

/-- What the end of a load does in engine `k`, once the loader's verdict on the image is `r`. -/
def State.loadOne (s : State) (src p k : Nat) (r : Nat × Nat) : State :=
  if r.1 ≠ 0 then s.loadEnd k r else (s.writeSlot src k p (s.inactiveSlot k p)).loadEnd k (0, 0)

/-- The engines that run the load of program `p` from engine `src`'s window. -/
def State.loading (s : State) (p src : Nat) : List Nat := (List.range 32).filter (fun k => decide (s.loadOf k = some (p, src)))

/-- LOAD_DONE in an engine that runs a load: nothing while an accepted image's slot is in use, else the end in every engine of it. -/
theorem State.loadDone_of_running {s : State} {n p src : Nat} (hload : s.loadOf n = some (p, src)) :
    s.loadDone n = if ((s.loading p src).map (fun k => (k, s.loadVerdict src k p))).any
        (fun x => decide (x.2.1 = 0) && s.slotBusy x.1 p (s.inactiveSlot x.1 p)) then s
      else ((s.loading p src).map (fun k => (k, s.loadVerdict src k p))).foldl (fun s x => s.loadOne src p x.1 x.2) s := by
  unfold State.loadDone
  rw [hload]
  rfl

theorem State.loadOf_of_mem {s : State} {n p src : Nat} (h : n ∈ s.loading p src) : s.loadOf n = some (p, src) := by
  simpa using List.of_mem_filter h

theorem completes_loadDone_refused (s : State) (n : Phys) (p src code word : Nat) (hone : s.loading p src = [n.val])
    (hverdict : s.loadVerdict src n.val p = (code, word)) (hcode : code ≠ 0) (hcode' : code < 256) (hword : word < 128) :
    Completes (.loadDone n) s (fun t =>
      Writes s t [(Fld.coulterLoadStatBusy n.val, 0), (Fld.coulterLoadStatCode n.val, code), (Fld.coulterLoadStatWord n.val, word)] ∧
      t = { s with regs := t.regs, eng := { s.eng with loads := Tbl.set (fun _ => none) s.eng.loads n.val none } }) := by
  have hload : s.loadOf n.val = some (p, src) := State.loadOf_of_mem (by rw [hone]; exact .head _)
  have hstep : s.loadDone n.val = s.loadEnd n.val (code, word) := by
    rw [State.loadDone_of_running hload, hone]
    simp [hverdict, hcode, State.loadOne]
  exact Completes.of_eq (f := (·.loadDone n.val)) _ rfl hstep rfl rfl ⟨State.loadEnd_writes _ _ _ hcode' hword, rfl⟩

theorem exec_loadDone_of_busy (s : State) (n : Phys) (p src k : Nat) (hload : s.loadOf n.val = some (p, src)) (hk : k < 32)
    (hload' : s.loadOf k = some (p, src)) (hverdict : (s.loadVerdict src k p).1 = 0)
    (hbusy : s.slotBusy k p (s.inactiveSlot k p) = true) : exec (.loadDone n) s = .next s := by
  refine exec_of_act (f := (·.loadDone n.val)) s rfl ((State.loadDone_of_running hload).trans (if_pos ?_)) rfl rfl
  simp only [List.any_map, List.any_eq_true]
  exact ⟨k, List.mem_filter.mpr ⟨List.mem_range.mpr hk, by simpa using hload'⟩, by simp [hverdict, hbusy]⟩

/-! ### The image (R171, R172) -/

theorem leNat_lt (l : List Byte) : leNat l < 256 ^ l.length := by
  induction l with
  | nil => simp [leNat]
  | cons b l ih =>
    have hb := b.isLt
    have hcons : leNat (b :: l) = b.toNat + 256 * leNat l := rfl
    rw [hcons, List.length_cons, pow_succ]
    omega

theorem State.imageWord_lt (s : State) (n : Nat) (blocks : List Nat) (x : Nat × Nat × Nat) : s.imageWord n blocks x < 2 ^ 64 := by
  have h := leNat_lt (s.staging n (0x80 + 64 * (blocksBefore blocks x.1 + x.2.1) + 8 * x.2.2) 8)
  rw [State.staging, List.length_map, List.length_range] at h
  exact h

theorem mem_imagePlaces {stages : Nat} {blocks : List Nat} {x : Nat × Nat × Nat} :
    x ∈ imagePlaces stages blocks ↔ x.1 < stages ∧ x.2.1 < (blocks[x.1]?).getD 0 ∧ x.2.2 < 8 := by
  obtain ⟨k, b, i⟩ := x
  simp only [imagePlaces, List.mem_flatMap, List.mem_range, List.mem_map]
  constructor
  · rintro ⟨k', hk, b', hb, i', hi, heq⟩
    simp only [Prod.mk.injEq] at heq
    obtain ⟨rfl, rfl, rfl⟩ := heq
    exact ⟨hk, hb, hi⟩
  · rintro ⟨hk, hb, hi⟩
    exact ⟨k, hk, b, hb, i, hi, rfl⟩

/-- An image of valid format has at most four stages, of at most four blocks each. -/
def State.imageFits (s : State) (src : Nat) : Prop := s.stagingByte src 7 ≤ 4 ∧ ∀ k, k < 4 → s.stagingByte src (8 + k) ≤ 4

/-- An image that the loader accepts is of valid format. -/
theorem State.imageFits_of_accepted {s : State} {src k p : Nat} (h : (s.loadVerdict src k p).1 = 0) : s.imageFits src := by
  have hformat : s.imageFormatBad src = false := by
    cases hbad : s.imageFormatBad src with
    | false => rfl
    | true =>
      rw [State.loadVerdict, if_pos hbad] at h
      exact absurd h (by decide)
  unfold State.imageFormatBad at hformat
  simp only [Bool.or_eq_false_iff, decide_eq_false_iff_not, not_or, List.any_eq_false, List.mem_range] at hformat
  obtain ⟨⟨-, -, -, hstages⟩, hblocks⟩ := hformat
  refine ⟨by omega, fun k hk => ?_⟩
  have hcount := hblocks k hk
  split at hcount <;> simp only [decide_eq_true_eq] at hcount <;> omega

section
variable {s : State} {src : Nat} (hfits : s.imageFits src)
include hfits

/-- The places of an image that fits. -/
theorem State.place_bounds {x : Nat × Nat × Nat} (hx : x ∈ imagePlaces (s.stagingByte src 7) (s.imageBlocks src)) :
    x.1 < 4 ∧ x.2.1 < 4 ∧ x.2.2 < 8 := by
  obtain ⟨hstages, hblocks⟩ := hfits
  obtain ⟨hk, hb, hi⟩ := mem_imagePlaces.mp hx
  have hk4 : x.1 < 4 := by omega
  have hcount : ((s.imageBlocks src)[x.1]?).getD 0 = s.stagingByte src (8 + x.1) := by simp [State.imageBlocks, hk4]
  have := hblocks x.1 hk4
  omega

/-- The blocks of an image before a stage. -/
theorem State.blocksBefore_le (k : Nat) : blocksBefore (s.imageBlocks src) k ≤ 16 := by
  obtain ⟨-, hblocks⟩ := hfits
  have hsum : (s.imageBlocks src).sum ≤ 16 := by
    have h0 := hblocks 0 (by decide)
    have h1 := hblocks 1 (by decide)
    have h2 := hblocks 2 (by decide)
    have h3 := hblocks 3 (by decide)
    have hlist : s.imageBlocks src = [s.stagingByte src (8 + 0), s.stagingByte src (8 + 1), s.stagingByte src (8 + 2), s.stagingByte src (8 + 3)] :=
      rfl
    rw [hlist]
    simp only [List.sum_cons, List.sum_nil]
    omega
  have hsplit := List.sum_take_add_sum_drop (s.imageBlocks src) k
  unfold blocksBefore
  omega

/-- The word of a place depends on the first `0x600` bytes of the staging window alone. -/
theorem State.imageWord_congr {t : State} (hbytes : ∀ b, b < 0x600 → t.stagingByte src b = s.stagingByte src b) {x : Nat × Nat × Nat}
    (hx : x ∈ imagePlaces (s.stagingByte src 7) (s.imageBlocks src)) :
    t.imageWord src (s.imageBlocks src) x = s.imageWord src (s.imageBlocks src) x := by
  obtain ⟨-, hb, hi⟩ := State.place_bounds hfits hx
  have hbefore := State.blocksBefore_le hfits x.1
  unfold State.imageWord State.stagingLe State.staging
  congr 1
  refine List.map_congr_left (fun i hlt => ?_)
  rw [List.mem_range] at hlt
  rw [hbytes _ (by omega)]

end

/-! ### The slot (R172, R175, R183) -/

/-- Words put in the store of a slot: place and word. -/
def State.wordsPut (s : State) (n p sl : Nat) (l : List (Nat × Nat)) : State :=
  l.foldl (fun s x => s.set64 (Reg.coulterStore n p sl x.1) (Reg.coulterStore n p sl x.1 + 4) x.2) s

/-- The store of a slot holds a word. -/
def State.holdsWord (s : State) (n p sl i w : Nat) : Prop :=
  s.rd (Reg.coulterStore n p sl i) = BitVec.ofNat 32 w ∧ s.rd (Reg.coulterStore n p sl i + 4) = BitVec.ofNat 32 (w / 2 ^ 32)

/-- A register outside the store of a slot. -/
def OffStore (n p sl a : Nat) : Prop := ¬(Reg.coulterStore n p sl 0 ≤ a ∧ a < Reg.coulterStore n p sl 128)

theorem State.wordsPut_rd (n p sl : Nat) (l : List (Nat × Nat)) (hl : ∀ x ∈ l, x.1 < 128) (s : State) {a : Nat} (ha : OffStore n p sl a) :
    (s.wordsPut n p sl l).rd a = s.rd a := by
  induction l generalizing s with
  | nil => rfl
  | cons x l ih =>
    obtain ⟨hx, hrest⟩ := List.forall_mem_cons.mp hl
    refine (ih hrest _).trans (rd_set64_ne _ _ _ _ _ ?_ ?_) <;> simp only [OffStore, Reg.coulterStore] at ha ⊢ <;> omega

/-- A place holds the one word that is put there. -/
theorem State.wordsPut_holds (n p sl : Nat) (l : List (Nat × Nat)) (i w : Nat) (hl : ∀ x ∈ l, x.1 = i → x.2 = w) (s : State)
    (h : (∃ x ∈ l, x.1 = i) ∨ s.holdsWord n p sl i w) : (s.wordsPut n p sl l).holdsWord n p sl i w := by
  induction l generalizing s with
  | nil => exact h.resolve_left (by simp)
  | cons x l ih =>
    obtain ⟨hx, hrest⟩ := List.forall_mem_cons.mp hl
    refine ih hrest _ ?_
    by_cases hxi : x.1 = i
    · refine .inr ?_
      dsimp only
      rw [hxi, hx hxi]
      exact ⟨rd_set64_lo _ _ _ _ (by omega), rd_set64_hi _ _ _ _⟩
    · refine h.imp (fun ⟨y, hy, hyi⟩ => ?_) (fun ⟨hlo, hhi⟩ => ?_)
      · rcases List.mem_cons.mp hy with rfl | hy
        · exact absurd hyi hxi
        · exact ⟨y, hy, hyi⟩
      · have hne : Reg.coulterStore n p sl i ≠ Reg.coulterStore n p sl x.1 ∧ Reg.coulterStore n p sl i ≠ Reg.coulterStore n p sl x.1 + 4 ∧
            Reg.coulterStore n p sl i + 4 ≠ Reg.coulterStore n p sl x.1 := by
          simp only [Reg.coulterStore]
          omega
        exact ⟨(rd_set64_ne _ _ _ _ _ hne.1 hne.2.1).trans hlo, (rd_set64_ne _ _ _ _ _ hne.2.2 (by omega)).trans hhi⟩

theorem State.wordsPut_regs (n p sl : Nat) (l : List (Nat × Nat)) (s : State) : RO s (s.wordsPut n p sl l) := by
  induction l generalizing s with
  | nil => exact RO.refl s
  | cons x l ih => exact ((RO.refl s).step64 _ _ _).trans (ih _)

/-- Constants put in a slot. -/
def State.constsPut (s : State) (n p sl : Nat) (ks : List Nat) : State :=
  (List.range 4).foldl (fun s k => s.wr (Reg.coulterKconst n p sl k) (BitVec.ofNat 32 ((ks[k]?).getD 0))) s

theorem State.constsPut_rd (s : State) (n p sl : Nat) (ks : List Nat) {a : Nat}
    (ha : ¬(Reg.coulterKconst n p sl 0 ≤ a ∧ a < Reg.coulterKconst n p sl 4)) : (s.constsPut n p sl ks).rd a = s.rd a := by
  refine List.foldlRecOn (motive := fun t : State => t.rd a = s.rd a) _ _ rfl (fun t ht k hk => (State.rd_wr_ne _ _ _ _ ?_).trans ht)
  rw [List.mem_range] at hk
  simp only [Reg.coulterKconst] at ha ⊢
  omega

theorem State.constsPut_regs (s : State) (n p sl : Nat) (ks : List Nat) : RO s (s.constsPut n p sl ks) :=
  List.foldlRecOn (motive := fun t : State => RO s t) _ _ (RO.refl s) (fun _ ht _ _ => ht.stepW _ _)

/-- The field that says whether a slot is valid. -/
def slotValidFd (n p sl : Nat) : Fd := if sl = 0 then Fld.coulterProgStatValidA n p else Fld.coulterProgStatValidB n p

/-- A slot's sequence number and valid bit put. -/
def State.seqPut (s : State) (n p sl seq : Nat) : State :=
  if sl = 0 then (s.set64 (Reg.coulterSeqALo n p) (Reg.coulterSeqAHi n p) seq).setF (Fld.coulterProgStatValidA n p) 1
  else (s.set64 (Reg.coulterSeqBLo n p) (Reg.coulterSeqBHi n p) seq).setF (Fld.coulterProgStatValidB n p) 1

theorem State.seqPut_spec (s : State) (n p sl seq : Nat) :
    (s.seqPut n p sl seq).getF (slotValidFd n p sl) = 1 ∧ (s.seqPut n p sl seq).progInForce n p = s.progInForce n p ∧
    (s.seqPut n p sl seq).progLive n p = s.progLive n p ∧
    (∀ a, ¬(Reg.coulterProgStat n p ≤ a ∧ a < Reg.coulterProgStat n p + 0x20) → (s.seqPut n p sl seq).rd a = s.rd a) ∧
    RO s (s.seqPut n p sl seq) := by
  have hne : Reg.coulterProgStat n p ≠ Reg.coulterSeqALo n p ∧ Reg.coulterProgStat n p ≠ Reg.coulterSeqAHi n p ∧
      Reg.coulterProgStat n p ≠ Reg.coulterSeqBLo n p ∧ Reg.coulterProgStat n p ≠ Reg.coulterSeqBHi n p := by
    simp only [Reg.coulterProgStat, Reg.coulterSeqALo, Reg.coulterSeqAHi, Reg.coulterSeqBLo, Reg.coulterSeqBHi]
    omega
  obtain ⟨hal, hah, hbl, hbh⟩ := hne
  unfold State.seqPut slotValidFd State.progLive State.progInForce
  split
  · refine ⟨getF_fit _ _ _ (by simp [Fld.coulterProgStatValidA]) (by simp [Fld.coulterProgStatValidA]), ?_, ?_, fun a ha => ?_,
      ((RO.refl s).step64 _ _ _).stepF _ _⟩
    · rw [State.getF_setF_ne _ _ _ _ (.inr (.inr (by simp [Fld.coulterProgStatValidA, Fld.coulterProgStatInforce]))),
        getF_set64_ne _ _ _ _ _ hal hah]
    · rw [State.getF_setF_ne _ _ _ _ (.inr (.inr (by simp [Fld.coulterProgStatValidA, Fld.coulterProgStatLive]))),
        getF_set64_ne _ _ _ _ _ hal hah]
    · refine (State.rd_setF_ne _ _ _ _ ?_).trans (rd_set64_ne _ _ _ _ _ ?_ ?_) <;>
        simp only [Fld.coulterProgStatValidA, Reg.coulterProgStat, Reg.coulterSeqALo, Reg.coulterSeqAHi] at ha ⊢ <;> omega
  · refine ⟨getF_fit _ _ _ (by simp [Fld.coulterProgStatValidB]) (by simp [Fld.coulterProgStatValidB]), ?_, ?_, fun a ha => ?_,
      ((RO.refl s).step64 _ _ _).stepF _ _⟩
    · rw [State.getF_setF_ne _ _ _ _ (.inr (.inr (by simp [Fld.coulterProgStatValidB, Fld.coulterProgStatInforce]))),
        getF_set64_ne _ _ _ _ _ hbl hbh]
    · rw [State.getF_setF_ne _ _ _ _ (.inr (.inr (by simp [Fld.coulterProgStatValidB, Fld.coulterProgStatLive]))),
        getF_set64_ne _ _ _ _ _ hbl hbh]
    · refine (State.rd_setF_ne _ _ _ _ ?_).trans (rd_set64_ne _ _ _ _ _ ?_ ?_) <;>
        simp only [Fld.coulterProgStatValidB, Reg.coulterProgStat, Reg.coulterSeqBLo, Reg.coulterSeqBHi] at ha ⊢ <;> omega

/-- The words of engine `src`'s image with their places in the store. -/
def State.imageWords (s : State) (src : Nat) : List (Nat × Nat) :=
  (imagePlaces (s.stagingByte src 7) (s.imageBlocks src)).map (fun x => (32 * x.1 + 8 * x.2.1 + x.2.2, s.imageWord src (s.imageBlocks src) x))

/-- The registers of an image written into a slot: the store emptied, then words, constants, sequence number and valid bit. -/
def State.slotPut (s : State) (src n p sl : Nat) : State :=
  ((State.wordsPut { s with regs := Tbl.clear s.regs (Reg.coulterStore n p sl 0) 0x400 } n p sl (s.imageWords src)).constsPut n p sl
    ((List.range 4).map (fun k => s.stagingLe src (0x20 + 4 * k) 4))).seqPut n p sl (s.stagingLe src 0x10 8)

/-- The image of engine `src`'s window. -/
def State.imageOf (s : State) (src : Nat) : Image :=
  ⟨s.stagingByte src 7, s.imageBlocks src, s.stagingByte src 0xC, s.imageHash src, s.stagingByte src 0x60, 0⟩

theorem State.writeSlot_eq (s : State) (src n p sl : Nat) : s.writeSlot src n p sl =
    { s.slotPut src n p sl with eng := { (s.slotPut src n p sl).eng with
      images := Tbl.set (fun _ => {}) (s.slotPut src n p sl).eng.images (imageKey n p sl) (s.imageOf src)
      last := Tbl.set (fun _ => none) (s.slotPut src n p sl).eng.last (n * 16 + p) (some sl) } } := rfl

/-- The registers that a load of program `p` into slot `sl` of engine `n` may touch. -/
def LoadReach (n p sl a : Nat) : Prop :=
  a = Reg.coulterLoadStat n ∨ (Reg.coulterProgStat n p ≤ a ∧ a < Reg.coulterProgStat n p + 0x20) ∨
  (Reg.coulterKconst n p sl 0 ≤ a ∧ a < Reg.coulterKconst n p sl 4) ∨
  (Reg.coulterStore n p sl 0 ≤ a ∧ a < Reg.coulterStore n p sl 128)

section
variable {s : State} {src n p sl : Nat} (hfits : s.imageFits src) (hp : p < 16) (hsl : sl < 2)
include hfits

theorem State.imageWords_lt : ∀ x ∈ s.imageWords src, x.1 < 128 := by
  intro x hx
  obtain ⟨y, hy, rfl⟩ := List.mem_map.mp hx
  obtain ⟨hk, hb, hi⟩ := State.place_bounds hfits hy
  dsimp only
  omega

/-- A place of the image has one word. -/
theorem State.imageWords_eq {x : Nat × Nat × Nat} (hx : x ∈ imagePlaces (s.stagingByte src 7) (s.imageBlocks src)) :
    ∀ y ∈ s.imageWords src, y.1 = 32 * x.1 + 8 * x.2.1 + x.2.2 → y.2 = s.imageWord src (s.imageBlocks src) x := by
  intro y hy hplace
  obtain ⟨z, hz, rfl⟩ := List.mem_map.mp hy
  obtain ⟨xk, xb, xi⟩ := x
  obtain ⟨zk, zb, zi⟩ := z
  obtain ⟨hk, hb, hi⟩ := State.place_bounds hfits hx
  obtain ⟨hk', hb', hi'⟩ := State.place_bounds hfits hz
  dsimp only at hplace hk hb hi hk' hb' hi' ⊢
  obtain ⟨rfl, rfl, rfl⟩ : zk = xk ∧ zb = xb ∧ zi = xi := by omega
  rfl

include hp hsl

theorem State.slotPut_spec :
    (s.slotPut src n p sl).getF (slotValidFd n p sl) = 1 ∧ (s.slotPut src n p sl).progInForce n p = s.progInForce n p ∧
    (s.slotPut src n p sl).progLive n p = s.progLive n p ∧
    (∀ x ∈ imagePlaces (s.stagingByte src 7) (s.imageBlocks src),
      (s.slotPut src n p sl).storeWord n p sl x.1 x.2.1 x.2.2 = s.imageWord src (s.imageBlocks src) x) ∧
    (∀ a, ¬LoadReach n p sl a → (s.slotPut src n p sl).rd a = s.rd a) ∧ RO s (s.slotPut src n p sl) := by
  obtain ⟨c, hc⟩ : ∃ c : State, c = { s with regs := Tbl.clear s.regs (Reg.coulterStore n p sl 0) 0x400 } := ⟨_, rfl⟩
  obtain ⟨w, hw⟩ : ∃ w, w = c.wordsPut n p sl (s.imageWords src) := ⟨_, rfl⟩
  obtain ⟨k, hk⟩ : ∃ k, k = w.constsPut n p sl ((List.range 4).map (fun k => s.stagingLe src (0x20 + 4 * k) 4)) := ⟨_, rfl⟩
  have hput : s.slotPut src n p sl = k.seqPut n p sl (s.stagingLe src 0x10 8) := by rw [hk, hw, hc]; rfl
  have hcrd : ∀ a, OffStore n p sl a → c.rd a = s.rd a := fun a ha => by
    rw [hc]
    exact (Tbl.get_clear _ _ _ _ _).trans (if_neg (by simp only [OffStore, Reg.coulterStore] at ha ⊢; omega))
  have hwrd : ∀ a, OffStore n p sl a → w.rd a = c.rd a := fun a ha => by
    rw [hw]; exact State.wordsPut_rd n p sl _ (State.imageWords_lt hfits) c ha
  have hkrd : ∀ a, ¬(Reg.coulterKconst n p sl 0 ≤ a ∧ a < Reg.coulterKconst n p sl 4) → k.rd a = w.rd a := fun a ha => by
    rw [hk]; exact State.constsPut_rd _ _ _ _ _ ha
  obtain ⟨hvalid, hinforce, hlive, hoff, hro⟩ := k.seqPut_spec n p sl (s.stagingLe src 0x10 8)
  have hstat : k.rd (Reg.coulterProgStat n p) = s.rd (Reg.coulterProgStat n p) := by
    rw [hkrd, hwrd, hcrd] <;> simp only [OffStore, Reg.coulterProgStat, Reg.coulterKconst, Reg.coulterStore] <;> omega
  rw [hput]
  refine ⟨hvalid, hinforce.trans (getF_addr _ hstat), hlive.trans ?_, fun x hx => ?_, fun a ha => ?_, ?_⟩
  · rw [State.progLive, getF_addr _ hstat, State.progLive]
  · obtain ⟨hk4, hb4, hi8⟩ := State.place_bounds hfits hx
    obtain ⟨hlo, hhi⟩ := c.wordsPut_holds n p sl _ _ _ (State.imageWords_eq hfits hx) (.inl ⟨_, List.mem_map_of_mem hx, rfl⟩)
    rw [← hw] at hlo hhi
    have hlate : ∀ b, (b = Reg.coulterStore n p sl (32 * x.1 + 8 * x.2.1 + x.2.2) ∨
        b = Reg.coulterStore n p sl (32 * x.1 + 8 * x.2.1 + x.2.2) + 4) →
        (k.seqPut n p sl (s.stagingLe src 0x10 8)).rd b = w.rd b := fun b hb => by
      rw [hoff, hkrd] <;> simp only [Reg.coulterProgStat, Reg.coulterKconst, Reg.coulterStore] at hb ⊢ <;> omega
    have hword := get64_of _ _ _ _ ((hlate _ (.inl rfl)).trans hlo) ((hlate _ (.inr rfl)).trans hhi)
    rw [Nat.mod_eq_of_lt (s.imageWord_lt src _ x)] at hword
    exact hword
  · simp only [LoadReach, not_or] at ha
    obtain ⟨-, hstat', hconst, hstore⟩ := ha
    rw [hoff a hstat', hkrd a hconst, hwrd a hstore, hcrd a hstore]
  · have hcro : RO s c := by rw [hc]; rfl
    have hwro : RO c w := by rw [hw]; exact State.wordsPut_regs _ _ _ _ _
    have hkro : RO w k := by rw [hk]; exact State.constsPut_regs _ _ _ _ _
    exact ((hcro.trans hwro).trans hkro).trans hro

/-- An accepted image in one engine: what LOAD_STAT, the program's status and the slot show, and what stays. -/
theorem State.loadOne_spec :
    ((s.writeSlot src n p sl).loadEnd n (0, 0)).getF (Fld.coulterLoadStatBusy n) = 0 ∧
    ((s.writeSlot src n p sl).loadEnd n (0, 0)).getF (Fld.coulterLoadStatCode n) = 0 ∧
    ((s.writeSlot src n p sl).loadEnd n (0, 0)).getF (slotValidFd n p sl) = 1 ∧
    ((s.writeSlot src n p sl).loadEnd n (0, 0)).progInForce n p = s.progInForce n p ∧
    ((s.writeSlot src n p sl).loadEnd n (0, 0)).progLive n p = s.progLive n p ∧
    (∀ x ∈ imagePlaces (s.stagingByte src 7) (s.imageBlocks src),
      ((s.writeSlot src n p sl).loadEnd n (0, 0)).storeWord n p sl x.1 x.2.1 x.2.2 = s.imageWord src (s.imageBlocks src) x) ∧
    (∀ j, Tbl.get (fun _ => none) ((s.writeSlot src n p sl).loadEnd n (0, 0)).eng.last j =
      if j = n * 16 + p then some sl else Tbl.get (fun _ => none) s.eng.last j) ∧
    (∀ a, ¬LoadReach n p sl a → ((s.writeSlot src n p sl).loadEnd n (0, 0)).rd a = s.rd a) ∧
    (s.writeSlot src n p sl).loadEnd n (0, 0) =
      { s with regs := ((s.writeSlot src n p sl).loadEnd n (0, 0)).regs, eng := ((s.writeSlot src n p sl).loadEnd n (0, 0)).eng } := by
  obtain ⟨hvalid, hinforce, hlive, hwords, hoff, hro⟩ := State.slotPut_spec (n := n) hfits hp hsl
  obtain ⟨u, hu⟩ : ∃ u, u = s.writeSlot src n p sl := ⟨_, rfl⟩
  have hurd : ∀ a, u.rd a = (s.slotPut src n p sl).rd a := fun a => by rw [hu, s.writeSlot_eq]; rfl
  have hframe : u = { s with regs := u.regs, eng := u.eng } := by rw [hu, s.writeSlot_eq, hro]
  have hlast : u.eng.last = Tbl.set (fun _ => none) s.eng.last (n * 16 + p) (some sl) := by rw [hu, s.writeSlot_eq, hro.eng]
  obtain ⟨hends, -⟩ := u.loadEnd_writes n (0, 0) (by decide) (by decide)
  have hlate : ∀ a, a ≠ Reg.coulterLoadStat n → (u.loadEnd n (0, 0)).rd a = (s.slotPut src n p sl).rd a := fun a ha =>
    (u.loadEnd_rd_ne n (0, 0) a ha).trans (hurd a)
  have hstat : (u.loadEnd n (0, 0)).rd (Reg.coulterProgStat n p) = (s.slotPut src n p sl).rd (Reg.coulterProgStat n p) :=
    hlate _ (by simp only [Reg.coulterProgStat, Reg.coulterLoadStat]; omega)
  rw [← hu]
  refine ⟨hends _ (.head _), hends _ (.tail _ (.head _)), ?_, ?_, ?_, fun x hx => ?_, fun j => ?_, fun a ha => ?_, ?_⟩
  · rw [getF_addr (s := s.slotPut src n p sl) _ (by unfold slotValidFd; split <;> exact hstat), hvalid]
  · exact (getF_addr _ hstat).trans hinforce
  · rw [← hlive, State.progLive, getF_addr _ hstat, State.progLive]
  · rw [← hwords x hx]
    unfold State.storeWord
    dsimp only
    rw [hlate _ (by simp only [Reg.coulterStore, Reg.coulterLoadStat]; omega),
      hlate _ (by simp only [Reg.coulterStore, Reg.coulterLoadStat]; omega)]
  · have : (u.loadEnd n (0, 0)).eng.last = u.eng.last := rfl
    rw [this, hlast]
    exact Tbl.get_set _ _ _ _ _
  · rw [hlate a (fun h => ha (.inl h)), hoff a ha]
  · rw [hframe]; rfl

end

/-! ### Both engines of a cluster (R136) -/

/-- The staging window's first `0x600` bytes are no register that a load touches. -/
theorem not_loadReach_staging {n p sl src b : Nat} (hp : p < 16) (hsl : sl < 2) (hb : b < 0x600) :
    ¬LoadReach n p sl (Reg.coulterStaging src (b / 4)) := by
  simp only [LoadReach, Reg.coulterStaging, Reg.coulterLoadStat, Reg.coulterProgStat, Reg.coulterKconst, Reg.coulterStore]
  omega

/-- Loads of different engines touch different registers. -/
theorem LoadReach.engine {n p sl a : Nat} (hp : p < 16) (hsl : sl < 2) (h : LoadReach n p sl a) :
    0x800000 + 0x20000 * n ≤ a ∧ a < 0x800000 + 0x20000 * (n + 1) := by
  simp only [LoadReach, Reg.coulterLoadStat, Reg.coulterProgStat, Reg.coulterKconst, Reg.coulterStore] at h
  omega

theorem State.inactiveSlot_lt (s : State) (n p : Nat) : s.inactiveSlot n p < 2 := by
  unfold State.inactiveSlot
  split <;> omega

/-- What an accepted load shows in engine `k`, of the state before. -/
def State.loadedIn (t s : State) (src p k : Nat) : Prop :=
  t.getF (Fld.coulterLoadStatBusy k) = 0 ∧ t.getF (Fld.coulterLoadStatCode k) = 0 ∧
  t.getF (slotValidFd k p (s.inactiveSlot k p)) = 1 ∧
  t.progInForce k p = s.progInForce k p ∧ t.progLive k p = s.progLive k p ∧
  Tbl.get (fun _ => none) t.eng.last (k * 16 + p) = some (s.inactiveSlot k p) ∧
  (∀ x ∈ imagePlaces (s.stagingByte src 7) (s.imageBlocks src),
    t.storeWord k p (s.inactiveSlot k p) x.1 x.2.1 x.2.2 = s.imageWord src (s.imageBlocks src) x)

section
variable {s : State} {src p : Nat} (hfits : s.imageFits src) (hp : p < 16)
include hfits hp

/-- One engine takes an accepted image. -/
theorem State.loadOne_loadedIn (k : Nat) :
    ((s.writeSlot src k p (s.inactiveSlot k p)).loadEnd k (0, 0)).loadedIn s src p k := by
  obtain ⟨hbusy, hcode, hvalid, hinforce, hlive, hwords, hlast, -, -⟩ := State.loadOne_spec (n := k) hfits hp (s.inactiveSlot_lt k p)
  exact ⟨hbusy, hcode, hvalid, hinforce, hlive, (hlast _).trans (if_pos rfl), hwords⟩

end

/-- What a load shows in an engine stays while only another engine's registers and slots change. -/
theorem State.loadedIn_congr {s t u : State} {src p k : Nat} (hfits : s.imageFits src) (hp : p < 16) (h : t.loadedIn s src p k)
    (hrd : ∀ a, 0x800000 + 0x20000 * k ≤ a → a < 0x800000 + 0x20000 * (k + 1) → u.rd a = t.rd a)
    (hlast : Tbl.get (fun _ => none) u.eng.last (k * 16 + p) = Tbl.get (fun _ => none) t.eng.last (k * 16 + p)) :
    u.loadedIn s src p k := by
  obtain ⟨hbusy, hcode, hvalid, hinforce, hlive, hslot, hwords⟩ := h
  have hsl := s.inactiveSlot_lt k p
  have hload : u.rd (Reg.coulterLoadStat k) = t.rd (Reg.coulterLoadStat k) :=
    hrd _ (by simp only [Reg.coulterLoadStat]; omega) (by simp only [Reg.coulterLoadStat]; omega)
  have hstat : u.rd (Reg.coulterProgStat k p) = t.rd (Reg.coulterProgStat k p) :=
    hrd _ (by simp only [Reg.coulterProgStat]; omega) (by simp only [Reg.coulterProgStat]; omega)
  refine ⟨(getF_addr _ hload).trans hbusy, (getF_addr _ hload).trans hcode, (getF_addr _ ?_).trans hvalid, (getF_addr _ hstat).trans hinforce,
    ?_, hlast.trans hslot, fun x hx => ?_⟩
  · unfold slotValidFd
    split <;> exact hstat
  · rw [← hlive, State.progLive, getF_addr _ hstat, State.progLive]
  · obtain ⟨hk4, hb4, hi8⟩ := State.place_bounds hfits hx
    rw [← hwords x hx]
    unfold State.storeWord
    dsimp only
    rw [hrd, hrd] <;> simp only [Reg.coulterStore] <;> omega

/-- Both engines of a cluster, one after the other: the second reads the window as the first did. -/
theorem State.loadBoth_spec {s : State} {src p : Nat} (hfits : s.imageFits src) (hp : p < 16) (u t : State)
    (hu : u = (s.writeSlot src src p (s.inactiveSlot src p)).loadEnd src (0, 0))
    (ht : t = (u.writeSlot src (src + 1) p (u.inactiveSlot (src + 1) p)).loadEnd (src + 1) (0, 0)) :
    t.loadedIn s src p src ∧ t.loadedIn s src p (src + 1) ∧
    (∀ a, ¬LoadReach src p (s.inactiveSlot src p) a → ¬LoadReach (src + 1) p (s.inactiveSlot (src + 1) p) a → t.rd a = s.rd a) ∧
    t = { s with regs := t.regs, eng := t.eng } := by
  have hfirst := State.loadOne_loadedIn hfits hp src
  obtain ⟨-, -, -, -, -, -, hlast, hoff, hframe⟩ := State.loadOne_spec (n := src) hfits hp (s.inactiveSlot_lt src p)
  rw [← hu] at hfirst hlast hoff hframe
  have hbyte : ∀ b, b < 0x600 → u.stagingByte src b = s.stagingByte src b := fun b hb => by
    unfold State.stagingByte
    rw [hoff _ (not_loadReach_staging hp (s.inactiveSlot_lt src p) hb)]
  have hblocks : u.imageBlocks src = s.imageBlocks src :=
    List.map_congr_left (fun k hk => hbyte _ (by rw [List.mem_range] at hk; omega))
  have hstages := hbyte 7 (by decide)
  have hfits' : u.imageFits src := by
    obtain ⟨h7, h8⟩ := hfits
    exact ⟨hstages ▸ h7, fun k hk => by rw [hbyte _ (by omega)]; exact h8 k hk⟩
  have hother : ∀ a, 0x800000 + 0x20000 * (src + 1) ≤ a → u.rd a = s.rd a := fun a ha => hoff a (fun hreach => by
    have := hreach.engine hp (s.inactiveSlot_lt src p)
    omega)
  have hstat : u.rd (Reg.coulterProgStat (src + 1) p) = s.rd (Reg.coulterProgStat (src + 1) p) :=
    hother _ (by simp only [Reg.coulterProgStat]; omega)
  have hlive : u.progLive (src + 1) p = s.progLive (src + 1) p := by rw [State.progLive, getF_addr _ hstat, State.progLive]
  have hinforce : u.progInForce (src + 1) p = s.progInForce (src + 1) p := getF_addr _ hstat
  have hslot : u.inactiveSlot (src + 1) p = s.inactiveSlot (src + 1) p := by rw [State.inactiveSlot, hlive, hinforce, State.inactiveSlot]
  obtain ⟨hbusy, hcode, hvalid, hinforce', hlive', hlast', hwords⟩ := State.loadOne_loadedIn hfits' hp (src + 1)
  obtain ⟨-, -, -, -, -, -, hlasts', hoff', hframe'⟩ := State.loadOne_spec (n := src + 1) hfits' hp (u.inactiveSlot_lt (src + 1) p)
  rw [← ht] at hbusy hcode hvalid hinforce' hlive' hlast' hwords hlasts' hoff' hframe'
  rw [hslot] at hvalid hlast' hwords hoff'
  refine ⟨State.loadedIn_congr hfits hp hfirst (fun a _ hlt => hoff' a (fun hreach => ?_)) ((hlasts' _).trans (if_neg (by omega))),
    ⟨hbusy, hcode, hvalid, hinforce'.trans hinforce, hlive'.trans hlive, hlast', fun x hx => ?_⟩,
    fun a h1 h2 => (hoff' a h2).trans (hoff a h1), by rw [hframe', hframe]⟩
  · have := hreach.engine hp (s.inactiveSlot_lt (src + 1) p)
    omega
  · rw [hwords x (by rw [hstages, hblocks]; exact hx), hblocks, State.imageWord_congr hfits hbyte hx]

theorem completes_loadDone_accepted (s : State) (n : Phys) (p src : Nat) (ks : List Nat) (hp : p < 16) (hks : s.loading p src = ks)
    (hengines : ks = [src] ∨ ks = [src, src + 1]) (hn : n.val ∈ ks)
    (hfree : ∀ k ∈ ks, (s.loadVerdict src k p).1 = 0 ∧ s.slotBusy k p (s.inactiveSlot k p) = false) :
    Completes (.loadDone n) s (fun t => (∀ k ∈ ks, t.loadedIn s src p k) ∧
      (∀ a, (∀ k ∈ ks, ¬LoadReach k p (s.inactiveSlot k p) a) → t.rd a = s.rd a) ∧
      t = { s with regs := t.regs, eng := t.eng }) := by
  have hload : s.loadOf n.val = some (p, src) := State.loadOf_of_mem (by rw [hks]; exact hn)
  have hgo : s.loadDone n.val = (ks.map (fun k => (k, s.loadVerdict src k p))).foldl (fun s x => s.loadOne src p x.1 x.2) s := by
    rw [State.loadDone_of_running hload, hks]
    refine if_neg ?_
    simp only [List.any_map, List.any_eq_true, not_exists, not_and]
    exact fun k hk => by simp [(hfree k hk).2]
  have hone : ∀ (u : State) (k : Nat) (r : Nat × Nat), r.1 = 0 →
      u.loadOne src p k r = (u.writeSlot src k p (u.inactiveSlot k p)).loadEnd k (0, 0) := fun u k r hr => if_neg (by simp [hr])
  rcases hengines with rfl | rfl
  · have hsrc := hfree src (.head _)
    have hfits := State.imageFits_of_accepted hsrc.1
    rw [List.map_cons, List.map_nil, List.foldl_cons, List.foldl_nil, hone _ _ _ hsrc.1] at hgo
    obtain ⟨-, -, -, -, -, -, -, hoff, hframe⟩ := State.loadOne_spec (n := src) hfits hp (s.inactiveSlot_lt src p)
    refine Completes.of_eq (f := (·.loadDone n.val)) _ rfl hgo (by rw [hframe]) (by rw [hframe]) ⟨?_, fun a ha => hoff a (ha src (.head _)), hframe⟩
    simpa using State.loadOne_loadedIn hfits hp src
  · have hsrc := hfree src (.head _)
    have hnext := hfree (src + 1) (.tail _ (.head _))
    rw [List.map_cons, List.map_cons, List.map_nil, List.foldl_cons, List.foldl_cons, List.foldl_nil, hone _ _ _ hsrc.1, hone _ _ _ hnext.1]
      at hgo
    obtain ⟨hfirst, hsecond, hoff, hframe⟩ := State.loadBoth_spec (State.imageFits_of_accepted hsrc.1) hp _ _ rfl rfl
    refine Completes.of_eq (f := (·.loadDone n.val)) _ rfl hgo (by rw [hframe]) (by rw [hframe])
      ⟨?_, fun a ha => hoff a (ha src (.head _)) (ha (src + 1) (.tail _ (.head _))), hframe⟩
    simpa using ⟨hfirst, hsecond⟩

/-- Settles O28: a load is its engines' loads, one after the other, and each stays within its engine's registers and slot. -/
theorem programLoadsFillTheInactiveSlot : Obligations.ProgramLoadsFillTheInactiveSlot := by
  refine ⟨completes_load, completes_load_refused, completes_loadDone_refused, exec_loadDone_of_busy,
    fun s n p src ks hp hks hengines hn hfree => ?_⟩
  refine (completes_loadDone_accepted s n p src ks hp hks hengines hn hfree).mono ?_
  rintro t ⟨hloaded, hoff, hframe⟩
  refine ⟨hloaded, fun a ha => hoff a (fun k hk hreach => ?_), hframe⟩
  obtain ⟨hstat, hprog, hconst, hstore⟩ := ha k hk
  rcases hreach with h | h | h | h
  · exact hstat h
  · exact hprog h
  · exact hconst h
  · exact hstore h

end Sys2Proof.Machine
end

section
/-! SUPPORT. Hedge and map of a response and of a dropped posted write (R118, R129), and lookups at the home that find no entry of the
directory (R222 to R225). -/

open Sys2Proof Sys2Proof.Machine

namespace Sys2Proof.Machine

/-! ### Hedge and map (R118, R129) -/

/-- What HEDGE_AND_MAP does to the state. -/
def State.hedgeAndMap (s : State) (m : Nat) : State :=
  match s.msg? m with
  | some x => if x.stage = .map then s.mapStage x else s
  | none => s

theorem exec_hedgeAndMap (m : Nat) (s : State) : exec (.hedgeAndMap m) s = act s (·.hedgeAndMap m) := rfl

/-- A message that leaves the engine for its buffer or its end. -/
theorem State.hedgeAndMap_of_map {s : State} {m : Nat} {x : Msg} (hmsg : s.msg? m = some x) (hstage : x.stage = .map)
    (hpath : x.cls.path ≠ .steward) : s.hedgeAndMap m = s.hedgeMap x := by
  simp [State.hedgeAndMap, hmsg, hstage, State.mapStage, hpath]

theorem completes_hedgeAndMap_response (s : State) (m : Nat) (x : Msg) (r : Route) (hmsg : s.msg? m = some x) (hstage : x.stage = .map)
    (hpath : x.cls.path = .response) (hroute : x.route = some r) :
    Completes (.hedgeAndMap m) s (fun t => MsgOnly s t m { x with stage := .bid, firstBid := s.tick + 1 }) := by
  obtain rfl := msg_id hmsg
  have hstep : s.hedgeAndMap x.id = s.modMsg x.id (fun x => { x with stage := .bid, firstBid := s.tick + 1 }) := by
    rw [State.hedgeAndMap_of_map hmsg hstage (by simp [hpath])]
    simp [State.hedgeMap, hpath, hroute]
  exact Completes.of_eq _ (exec_hedgeAndMap x.id s) hstep rfl rfl (MsgOnly.modMsg hmsg _ (fun _ => rfl))

/-- A posted write that its program drops is counted, and gets no answer. -/
theorem State.applyRecord_of_dropped {s : State} {x : Msg} (hact : x.ctx.act = { disp := .drop }) (hreq : x.req.op = .ioMemWr) :
    s.applyRecord x = (s.bump (Fld.coulterDispDrop x.engine)).delMsg x.id := by
  simp [State.applyRecord, hact, State.countExc, State.replyDropped, hreq, Opn.isMem, Opn.isMemReq, Opn.cls, Opn.isBiRsp, State.reply,
    Hdr.answered, Opn.needsRsp]

theorem completes_hedgeAndMap_dropped (s : State) (m : Nat) (x : Msg) (n : Nat) (hmsg : s.msg? m = some x) (hstage : x.stage = .map)
    (hpath : x.cls.path = .program) (hslot : x.cls.slot = some n) (hact : x.ctx.act = { disp := .drop }) (hreq : x.req.op = .ioMemWr) :
    Completes (.hedgeAndMap m) s (fun t => t.msg? m = none ∧ (∀ k, k ≠ m → t.msg? k = s.msg? k) ∧
      t.getF (Fld.coulterDispDrop x.engine) = min (s.getF (Fld.coulterDispDrop x.engine) + 1) 255 ∧
      OnlyFields s t [Fld.coulterDispDrop x.engine] ∧
      t = { s with regs := t.regs, dp := { s.dp with msgs := t.dp.msgs } }) := by
  obtain rfl := msg_id hmsg
  have hstep : s.hedgeAndMap x.id = (s.bump (Fld.coulterDispDrop x.engine)).delMsg x.id := by
    rw [State.hedgeAndMap_of_map hmsg hstage (by simp [hpath]), ← State.applyRecord_of_dropped hact hreq]
    simp [State.hedgeMap, hpath, hslot]
  refine Completes.of_eq _ (exec_hedgeAndMap x.id s) hstep rfl rfl
    ⟨(msg_delMsg _ _ _).trans (if_pos rfl), fun k hk => (msg_delMsg _ _ _).trans (if_neg hk), ?_, ?_, rfl⟩
  · exact State.getF_bump s _ (by simp [Fld.coulterDispDrop])
  · exact ((OnlyFields.refl s _).stepB _ (by simp)).of_regs rfl

/-- Settles O31: each form is one step on the message alone, with one count where it is dropped. -/
theorem hedgeAndMapSendsOnOrDrops : Obligations.HedgeAndMapSendsOnOrDrops :=
  ⟨completes_hedgeAndMap_response, fun s m x n hmsg hstage hpath hslot hact _ hreq =>
    completes_hedgeAndMap_dropped s m x n hmsg hstage hpath hslot hact hreq⟩

/-! ### Lookups at the home (R222 to R225) -/

/-- A lookup counted: the home has looked once more in the tick, and its pointer is past the message's port. -/
def State.lookCounted (s : State) (lp : Nat) : State :=
  { s.add64 Reg.homeLookupLo Reg.homeLookupHi 1 with home := { s.home with looked := s.home.looked + 1, ptr := (lp + 1) % 64 } }

/-- A message's time at the home when a lookup ends at tick `T`. -/
def Msg.lookedUp (x : Msg) (T : Nat) (parked : Bool) : Msg :=
  { x with since := T, parts := { x.parts with home := 4, retry := if parked then x.parts.retry + (T - x.since) else (T - x.since) - 4 } }

theorem State.lookCounted_spec (s : State) (lp : Nat) :
    (s.lookCounted lp).get64 Reg.homeLookupLo Reg.homeLookupHi = min (s.get64 Reg.homeLookupLo Reg.homeLookupHi + 1) (2 ^ 64 - 1) ∧
    OnlyFields s (s.lookCounted lp) [Fd.whole Reg.homeLookupLo, Fd.whole Reg.homeLookupHi] :=
  ⟨get64_add64 s _ _ 1 (by decide), ((OnlyFields.refl s _).stepA64 _ _ _ (by simp) (by simp)).of_regs rfl⟩

/-- A looked-up message is the only one that a lookup's time touches. -/
theorem State.lookTime_only {s : State} {x : Msg} (parked : Bool) (hmsg : s.msg? x.id = some x) :
    MsgOnly (s.lookCounted x.inLp) ((s.lookCounted x.inLp).lookTime x parked) x.id (x.lookedUp s.tick parked) := by
  have hkept : (s.lookCounted x.inLp).msg? x.id = some x := hmsg
  exact MsgOnly.modMsg hkept (fun y => { y with
    since := s.tick, parts := { y.parts with home := 4, retry := if parked then y.parts.retry + (s.tick - x.since) else (s.tick - x.since) - 4 } })
    (fun _ => rfl)

/-- A lookup of a line that the directory does not hold, started on time, with no error shown. -/
theorem State.lookup_of_unheld {s : State} {x : Msg} {r : Route} {e n : Nat} (parked : Bool) (hmsg : s.msg? x.id = some x)
    (hroute : x.route = some r) (hkey : r.key = some (e, n)) (hway : s.wayOf e n = none)
    (htime : (!parked && decide (x.since + 4 < s.tick)) = false) :
    s.lookup x parked [] = ((s.lookCounted x.inLp).lookTime x parked).lookupReq (x.lookedUp s.tick parked) r e n := by
  have hstart : s.lookStart x false (keySet e n) [] = s.lookCounted x.inLp := rfl
  have hsweep : (s.lookCounted x.inLp).sweepKey e n = s.lookCounted x.inLp := by
    have hnone : (s.lookCounted x.inLp).wayOf e n = none := (wayOf_congr rfl e n).trans hway
    rw [State.sweepKey, hnone]
  have hfound : ((s.lookCounted x.inLp).lookTime x parked).msg? x.id = some (x.lookedUp s.tick parked) := by
    obtain ⟨-, hfound, -⟩ := State.lookTime_only parked hmsg
    exact hfound
  have hkey' : x.route.bind (·.key) = some (e, n) := by rw [hroute]; exact hkey
  unfold State.lookup
  rw [hkey', hroute]
  simp only [htime, hstart, hsweep, hfound]

/-- Reads and writes of memory are requests that wait behind an open transaction of their line. -/
theorem State.homeKind_waits (s : State) (x : Msg) (coh : Bool)
    (hop : x.req.op = .memRd ∨ x.req.op = .memWr ∨ x.req.op = .ioMemRd ∨ x.req.op = .ioMemWr) :
    (s.homeKind x coh false).1 ≠ .biconf ∧ (s.homeKind x coh false).1 ≠ .specRd ∧ (s.homeKind x coh false).1 ≠ .other := by
  rcases hop with h | h | h | h
  · simp only [State.homeKind, h]
    split_ifs <;> simp
  · simp [State.homeKind, h]
  · simp [State.homeKind, h]
  · simp [State.homeKind, h]

section
variable {s : State} {x : Msg} {r : Route} {e n : Nat} (hway : s.wayOf e n = none)
include hway

/-- A MemSpecRd of a line that the directory does not hold is discarded. -/
theorem State.lookupReq_of_specRd (hop : x.req.op = .memSpecRd) : s.lookupReq x r e n = s.delMsg x.id := by
  have hnone : (if r.coh then s.wayOf e n else none) = none := by rw [hway, ite_self]
  have hkind : ∀ b, s.homeKind x r.coh b = (.specRd, false) := fun b => by simp only [State.homeKind, hop]
  unfold State.lookupReq
  simp only [hnone, Option.map_none, Option.getD_none, hkind]

/-- A read or write of a line that the directory does not hold waits behind an open transaction of the line. -/
theorem State.lookupReq_of_conflict {tx : Txn} (hop : x.req.op = .memRd ∨ x.req.op = .memWr ∨ x.req.op = .ioMemRd ∨ x.req.op = .ioMemWr)
    (hopen : s.txnOn e n = some tx) : s.lookupReq x r e n = s.park x (.conflict e n) := by
  have hnone : (if r.coh then s.wayOf e n else none) = none := by rw [hway, ite_self]
  have hholder : (r.coh && s.fromCfn x.cls && ({} : DirEnt).sharers.contains x.cls.lp) = false := by simp
  obtain ⟨hbiconf, hspec, hother⟩ := s.homeKind_waits x r.coh hop
  unfold State.lookupReq
  simp only [hnone, Option.map_none, Option.getD_none, hholder, hopen, Bool.false_and, Bool.false_eq_true, if_false]

end

/-- A message of a host finds a credit of its port while fewer than 16 are taken and no message waits for one. -/
theorem State.parkCredit_of_free {s : State} {x : Msg} (horigin : x.origin ≠ .harrow) (hnone : ∀ p ∈ s.home.parked, p.credit ≠ none)
    (hfree : (s.home.parked.filter (fun p => p.credit = some false)).length < 16) : s.parkCredit x = some false := by
  have hwaiters : s.creditWaiters x = [] := by
    unfold State.creditWaiters
    rw [List.filter_eq_nil_iff.mpr (fun p hp => ?_)]
    · rfl
    · simpa using hnone p ((List.takeWhile_sublist _).subset hp)
  have hport : x.creditPort = some x.inLp := if_neg horigin
  unfold State.parkCredit
  simp only [hwaiters, List.any_nil, hport, Option.isSome_some, Bool.true_and, Bool.false_eq_true, if_false]
  refine if_pos (decide_eq_true (lt_of_le_of_lt ?_ hfree))
  rw [← List.countP_eq_length_filter, ← List.countP_eq_length_filter]
  exact List.countP_mono_left (fun p _ h => (Bool.and_eq_true _ _ ▸ h).1)

/-- What HOME_LOOKUP and RETRY_REPLAY do to the state. -/
def State.lookAgain (s : State) (m : Nat) (stage : Stage) (parked : Bool) (ecc : List (Fin 16 × Bool)) : State :=
  match s.msg? m with
  | some x => if x.stage = stage ∧ s.mayLook x = true then s.lookup x parked ecc else s
  | none => s

theorem exec_homeLookup (m : Nat) (ecc : List (Fin 16 × Bool)) (s : State) :
    exec (.homeLookup m ecc) s = act s (·.lookAgain m .home false ecc) := rfl

theorem exec_retryReplay (m : Nat) (ecc : List (Fin 16 × Bool)) (s : State) :
    exec (.retryReplay m ecc) s = act s (·.lookAgain m .parked true ecc) := rfl

theorem State.lookAgain_of_turn {s : State} {m : Nat} {x : Msg} {stage : Stage} (hmsg : s.msg? m = some x) (hstage : x.stage = stage)
    (hturn : s.mayLook x = true) (parked : Bool) (ecc : List (Fin 16 × Bool)) :
    s.lookAgain m stage parked ecc = s.lookup x parked ecc := by
  simp [State.lookAgain, hmsg, hstage, hturn]

/-- The state after a lookup's count and time, of a message whose line the directory does not hold. -/
theorem State.looked_wayOf {s : State} {x : Msg} {e n : Nat} (parked : Bool) (h : s.wayOf e n = none) :
    ((s.lookCounted x.inLp).lookTime x parked).wayOf e n = none := (wayOf_congr rfl e n).trans h

theorem State.lookTime_regs (s : State) (x : Msg) (parked : Bool) : (s.lookTime x parked).regs = s.regs := rfl

/-- What a lookup that met an open transaction counts, before the message is parked. -/
theorem State.conflict_counted (s : State) (x : Msg) (parked : Bool) :
    ((((s.lookCounted x.inLp).lookTime x parked).bump Fld.homeRetryCntConflict).get64 Reg.homeLookupLo Reg.homeLookupHi =
      min (s.get64 Reg.homeLookupLo Reg.homeLookupHi + 1) (2 ^ 64 - 1)) ∧
    (((s.lookCounted x.inLp).lookTime x parked).bump Fld.homeRetryCntConflict).getF Fld.homeRetryCntConflict =
      min (s.getF Fld.homeRetryCntConflict + 1) 255 ∧
    OnlyFields s (((s.lookCounted x.inLp).lookTime x parked).bump Fld.homeRetryCntConflict)
      [Fd.whole Reg.homeLookupLo, Fd.whole Reg.homeLookupHi, Fld.homeRetryCntConflict] := by
  obtain ⟨hcount, hregs⟩ := s.lookCounted_spec x.inLp
  have hlate : ∀ a, a ≠ Fld.homeRetryCntConflict.addr →
      (((s.lookCounted x.inLp).lookTime x parked).bump Fld.homeRetryCntConflict).rd a = (s.lookCounted x.inLp).rd a :=
    fun a ha => State.rd_setF_ne _ _ _ _ ha
  have hbefore : ((s.lookCounted x.inLp).lookTime x parked).getF Fld.homeRetryCntConflict = s.getF Fld.homeRetryCntConflict :=
    getF_add64_ne s _ _ 1 _ (by decide) (by decide)
  refine ⟨(get64_addr (hlate _ (by decide)) (hlate _ (by decide))).trans hcount, ?_, ?_⟩
  · rw [State.getF_bump _ _ (by decide), hbefore]
    rfl
  · exact ((hregs.mono (by simp)).of_regs ((s.lookCounted x.inLp).lookTime_regs x parked)).stepB _ (by simp)

section
variable {s : State} {m : Nat} {x : Msg} {r : Route} {e n : Nat} (hmsg : s.msg? m = some x) (hroute : x.route = some r)
  (hkey : r.key = some (e, n)) (hway : s.wayOf e n = none)
include hmsg hroute hkey hway

/-- The state after a lookup that met an open transaction. -/
theorem State.lookup_of_conflict {tx : Txn}
    (hop : x.req.op = .memRd ∨ x.req.op = .memWr ∨ x.req.op = .ioMemRd ∨ x.req.op = .ioMemWr) (hopen : s.txnOn e n = some tx) (parked : Bool) (htime : (!parked && decide (x.since + 4 < s.tick)) = false) :
    s.lookup x parked [] = ((s.lookCounted x.inLp).lookTime x parked).park (x.lookedUp s.tick parked) (.conflict e n) := by
  obtain rfl := msg_id hmsg
  rw [State.lookup_of_unheld parked hmsg hroute hkey hway htime]
  exact State.lookupReq_of_conflict (State.looked_wayOf parked hway) hop ((txnOn_congr rfl e n).trans hopen)

variable (hturn : s.mayLook x = true)
include hturn

theorem completes_homeLookup_specRd (hstage : x.stage = .home) (htime : s.tick = x.since + 4) (hop : x.req.op = .memSpecRd) :
    Completes (.homeLookup m []) s (fun t =>
      t.msg? m = none ∧ (∀ k, k ≠ m → t.msg? k = s.msg? k) ∧
      t.get64 Reg.homeLookupLo Reg.homeLookupHi = min (s.get64 Reg.homeLookupLo Reg.homeLookupHi + 1) (2 ^ 64 - 1) ∧
      OnlyFields s t [Fd.whole Reg.homeLookupLo, Fd.whole Reg.homeLookupHi] ∧
      t = { s with regs := t.regs, dp := { s.dp with msgs := t.dp.msgs }, home := { s.home with looked := s.home.looked + 1, ptr := (x.inLp + 1) % 64 } }) := by
  obtain rfl := msg_id hmsg
  obtain ⟨u, hu⟩ : ∃ u, u = (s.lookCounted x.inLp).lookTime x false := ⟨_, rfl⟩
  obtain ⟨honly, -, hstays⟩ := State.lookTime_only false hmsg
  rw [← hu] at honly hstays
  obtain ⟨hcount, hregs⟩ := s.lookCounted_spec x.inLp
  have huregs : u.regs = (s.lookCounted x.inLp).regs := by rw [hu, State.lookTime_regs]
  have hstep : s.lookAgain x.id .home false [] = u.delMsg x.id := by
    rw [State.lookAgain_of_turn hmsg hstage hturn, State.lookup_of_unheld false hmsg hroute hkey hway (by simp [htime]), ← hu]
    exact State.lookupReq_of_specRd (by rw [hu]; exact State.looked_wayOf false hway) hop
  refine Completes.of_eq _ (exec_homeLookup x.id [] s) hstep (by rw [honly]; rfl) (by rw [honly]; rfl)
    ⟨(msg_delMsg _ _ _).trans (if_pos rfl), fun k hk => ?_, ?_, ?_, by rw [honly]; rfl⟩
  · rw [msg_delMsg, if_neg hk, hstays k hk]; rfl
  · rw [get64_delMsg, ← hcount]
    simp only [State.get64, State.rd, huregs]
  · exact hregs.of_regs huregs

variable {tx : Txn} (hop : x.req.op = .memRd ∨ x.req.op = .memWr ∨ x.req.op = .ioMemRd ∨ x.req.op = .ioMemWr) (hopen : s.txnOn e n = some tx)
include hop hopen

theorem completes_homeLookup_conflict (hstage : x.stage = .home) (htime : s.tick = x.since + 4)
    (hnew : s.home.parked.any (fun p => p.msg = m) = false) (horigin : x.origin ≠ .harrow) (hnone : ∀ p ∈ s.home.parked, p.credit ≠ none)
    (hfree : (s.home.parked.filter (fun p => p.credit = some false)).length < 16) :
    Completes (.homeLookup m []) s (fun t =>
      t.msg? m = some { x with stage := .parked, since := s.tick, parts := { x.parts with home := 4, retry := 0 } } ∧
      (∀ k, k ≠ m → t.msg? k = s.msg? k) ∧
      t.home = { s.home with looked := s.home.looked + 1, ptr := (x.inLp + 1) % 64, parked := s.home.parked ++ [⟨m, some false, .conflict e n, false, 0⟩] } ∧
      t.get64 Reg.homeLookupLo Reg.homeLookupHi = min (s.get64 Reg.homeLookupLo Reg.homeLookupHi + 1) (2 ^ 64 - 1) ∧
      t.getF Fld.homeRetryCntConflict = min (s.getF Fld.homeRetryCntConflict + 1) 255 ∧
      OnlyFields s t [Fd.whole Reg.homeLookupLo, Fd.whole Reg.homeLookupHi, Fld.homeRetryCntConflict] ∧
      t = { s with regs := t.regs, dp := { s.dp with msgs := t.dp.msgs }, home := t.home }) := by
  have hmore := State.lookup_of_conflict hmsg hroute hkey hway hop hopen false (by simp [htime])
  obtain rfl := msg_id hmsg
  obtain ⟨hcount, hconflict, hregs⟩ := s.conflict_counted x false
  obtain ⟨honly, hbecomes, hstays⟩ := State.lookTime_only false hmsg
  obtain ⟨b, hb⟩ : ∃ b, b = ((s.lookCounted x.inLp).lookTime x false).bump Fld.homeRetryCntConflict := ⟨_, rfl⟩
  have hbdp : b.dp = ((s.lookCounted x.inLp).lookTime x false).dp := by rw [hb]; rfl
  have hbframe : b = { s with regs := b.regs, dp := { s.dp with msgs := b.dp.msgs }, home := (s.lookCounted x.inLp).home } := by
    rw [hb, honly]; rfl
  rw [← hb] at hcount hconflict hregs
  have hbmsg : b.msg? x.id = some (x.lookedUp s.tick false) := (msgs_congr (by rw [hbdp]) _).trans hbecomes
  obtain ⟨hponly, hpbecomes, hpstays⟩ := MsgOnly.modMsg hbmsg (fun y => { y with stage := .parked }) (fun _ => rfl)
  have hcredit : b.parkCredit (x.lookedUp s.tick false) = some false :=
    State.parkCredit_of_free horigin (by rw [hbframe]; exact hnone) (by rw [hbframe]; exact hfree)
  have hbparked : b.home.parked = s.home.parked := by rw [hbframe]; rfl
  have hstep : s.lookAgain x.id .home false [] = (b.modMsg x.id (fun y => { y with stage := .parked })).setParked
      (s.home.parked ++ [⟨x.id, some false, .conflict e n, false, 0⟩]) := by
    rw [State.lookAgain_of_turn hmsg hstage hturn, hmore]
    unfold State.park
    simp only [ParkCause.count, ← hb, hbparked]
    rw [if_neg (by rw [show (x.lookedUp s.tick false).id = x.id from rfl, hnew]; decide), hcredit]
    rfl
  refine Completes.of_eq _ (exec_homeLookup x.id [] s) hstep (by rw [hponly, hbframe]; rfl) (by rw [hponly, hbframe]; rfl)
    ⟨hpbecomes.trans ?_, fun k hk => (hpstays k hk).trans ?_, ?_, ?_, ?_, ?_, ?_⟩
  · simp [Msg.lookedUp, htime]
  · exact (msgs_congr (by rw [hbdp]) k).trans (hstays k hk)
  · rw [hponly, hbframe]; rfl
  · exact hcount
  · exact hconflict
  · exact hregs.of_regs rfl
  · rw [hponly, hbframe]; rfl

theorem completes_retryReplay_conflict (hstage : x.stage = .parked) (hparked : s.home.parked.any (fun q => q.msg = m) = true) :
    Completes (.retryReplay m []) s (fun t =>
      t.msg? m = some { x with since := s.tick, parts := { x.parts with home := 4, retry := x.parts.retry + (s.tick - x.since) } } ∧
      (∀ k, k ≠ m → t.msg? k = s.msg? k) ∧
      t.home = { s.home with looked := s.home.looked + 1, ptr := (x.inLp + 1) % 64, parked := s.home.parked.map (fun q =>
        if q.msg = m then { q with cause := .conflict e n, ready := false } else q) } ∧
      t.get64 Reg.homeLookupLo Reg.homeLookupHi = min (s.get64 Reg.homeLookupLo Reg.homeLookupHi + 1) (2 ^ 64 - 1) ∧
      t.getF Fld.homeRetryCntConflict = min (s.getF Fld.homeRetryCntConflict + 1) 255 ∧
      OnlyFields s t [Fd.whole Reg.homeLookupLo, Fd.whole Reg.homeLookupHi, Fld.homeRetryCntConflict] ∧
      t = { s with regs := t.regs, dp := { s.dp with msgs := t.dp.msgs }, home := t.home }) := by
  have hmore := State.lookup_of_conflict hmsg hroute hkey hway hop hopen true rfl
  obtain rfl := msg_id hmsg
  obtain ⟨hcount, hconflict, hregs⟩ := s.conflict_counted x true
  obtain ⟨honly, hbecomes, hstays⟩ := State.lookTime_only true hmsg
  obtain ⟨b, hb⟩ : ∃ b, b = ((s.lookCounted x.inLp).lookTime x true).bump Fld.homeRetryCntConflict := ⟨_, rfl⟩
  have hbdp : b.dp = ((s.lookCounted x.inLp).lookTime x true).dp := by rw [hb]; rfl
  have hbframe : b = { s with regs := b.regs, dp := { s.dp with msgs := b.dp.msgs }, home := (s.lookCounted x.inLp).home } := by
    rw [hb, honly]; rfl
  rw [← hb] at hcount hconflict hregs
  have hbparked : b.home.parked = s.home.parked := by rw [hbframe]; rfl
  have hstep : s.lookAgain x.id .parked true [] = b.setParked (s.home.parked.map (fun q =>
      if q.msg = x.id then { q with cause := .conflict e n, ready := false } else q)) := by
    rw [State.lookAgain_of_turn hmsg hstage hturn, hmore]
    unfold State.park
    simp only [ParkCause.count, ← hb, hbparked]
    exact if_pos hparked
  refine Completes.of_eq _ (exec_retryReplay x.id [] s) hstep (by rw [hbframe]; rfl) (by rw [hbframe]; rfl)
    ⟨(msgs_congr (congrArg Datapath.msgs hbdp) _).trans hbecomes, fun k hk => (msgs_congr (congrArg Datapath.msgs hbdp) k).trans (hstays k hk), by rw [hbframe]; rfl, hcount, hconflict,
      hregs.of_regs rfl, by rw [hbframe]; rfl⟩

end

/-- What RETRY_CREDIT_TAKEN does to the state. -/
def State.retryCredit (s : State) (m : Nat) : State :=
  match s.msg? m with
  | some x =>
    if s.home.parked.any (fun p => decide (p.msg = m) && p.credit.isNone) then
      s.setParked (s.home.parked.map (fun p => if p.msg = m then { p with credit := s.parkCredit x } else p))
    else s
  | none => s

theorem exec_retryCreditTaken (m : Nat) (s : State) : exec (.retryCreditTaken m) s = act s (·.retryCredit m) := rfl

theorem completes_retryCreditTaken (s : State) (m : Nat) (x : Msg) (hmsg : s.msg? m = some x)
    (hwaits : s.home.parked.any (fun p => decide (p.msg = m) && p.credit.isNone) = true) :
    Completes (.retryCreditTaken m) s (fun t =>
      t.home.parked = s.home.parked.map (fun q => if q.msg = m then { q with credit := s.parkCredit x } else q) ∧
      t = { s with home := { s.home with parked := t.home.parked } }) := by
  have hstep : s.retryCredit m = s.setParked (s.home.parked.map (fun p => if p.msg = m then { p with credit := s.parkCredit x } else p)) := by
    simp only [State.retryCredit, hmsg, hwaits, if_true]
  exact Completes.of_eq _ (exec_retryCreditTaken m s) hstep rfl rfl ⟨rfl, rfl⟩

/-- Settles O32: a lookup is its count, its time and what the line's transaction makes of it. -/
theorem homeLookupsParkAndReplay : Obligations.HomeLookupsParkAndReplay :=
  ⟨fun _ _ _ _ _ _ hmsg hstage hturn hroute hkey hway htime hop =>
      completes_homeLookup_specRd hmsg hroute hkey hway hturn hstage htime hop,
    fun _ _ _ _ _ _ _ hmsg hstage hturn hroute hkey hway htime hop hopen hnew horigin hnone hfree =>
      completes_homeLookup_conflict hmsg hroute hkey hway hturn hop hopen hstage htime hnew horigin hnone hfree,
    fun _ _ _ _ _ _ _ hmsg hstage hturn hroute hkey hway hop hopen hparked =>
      completes_retryReplay_conflict hmsg hroute hkey hway hturn hop hopen hstage hparked,
    completes_retryCreditTaken⟩

end Sys2Proof.Machine
end

section
/-! SUPPORT. Notices and the residence view (O37). -/

open Sys2Proof Sys2Proof.Machine

namespace Sys2Proof.Machine

/-! ### The residence view (R31) -/

theorem State.resShow_regs (s : State) (r : ResTot) : RO s (s.resShow r) := by
  refine RO.stepFs ?_ _
  iterate 8 refine RO.step64 ?_ _ _ _
  exact (((RO.refl s).step64 _ _ _).stepW _ _).stepW _ _

/-- A register of the view after the last writes of it, whatever they are. -/
theorem rd_worstInfo_ne (s : State) (v w a : Nat) (ha : a ≠ Reg.globalResWorstInfo) :
    (s.setFs [(Fld.globalResWorstInfoLp, v), (Fld.globalResWorstInfoPlot, w)]).rd a = s.rd a := by
  rw [setFs2, State.rd_setF_ne _ _ _ _ ha, State.rd_setF_ne _ _ _ _ ha]

theorem State.resShow_count (s : State) (r : ResTot) :
    (s.resShow r).get64 Reg.globalResCountLo Reg.globalResCountHi = r.count % 2 ^ 64 := by
  apply get64_of <;> unfold State.resShow <;> rw [rd_worstInfo_ne _ _ _ _ (by decide)] <;>
    simp [State.set64, State.rd_wr, Reg.globalResCountLo, Reg.globalResCountHi, Reg.globalResMax, Reg.globalResOverrun,
      Reg.globalResEinLo, Reg.globalResEinHi, Reg.globalResIdehLo, Reg.globalResIdehHi, Reg.globalResHomeLo, Reg.globalResHomeHi,
      Reg.globalResSnoopLo, Reg.globalResSnoopHi, Reg.globalResRetryLo, Reg.globalResRetryHi, Reg.globalResQueueLo,
      Reg.globalResQueueHi, Reg.globalResCredLo, Reg.globalResCredHi, Reg.globalResWorstTickLo, Reg.globalResWorstTickHi]

theorem State.resShow_queue (s : State) (r : ResTot) :
    (s.resShow r).get64 Reg.globalResQueueLo Reg.globalResQueueHi = r.sums.queue % 2 ^ 64 := by
  apply get64_of <;> unfold State.resShow <;> rw [rd_worstInfo_ne _ _ _ _ (by decide)] <;>
    simp [State.set64, State.rd_wr, Reg.globalResQueueLo, Reg.globalResQueueHi, Reg.globalResCredLo, Reg.globalResCredHi,
      Reg.globalResWorstTickLo, Reg.globalResWorstTickHi]

theorem State.resShow_max (s : State) (r : ResTot) :
    (s.resShow r).rd Reg.globalResMax = BitVec.ofNat 32 (min r.max 0xFFFFFFFF) := by
  unfold State.resShow
  rw [rd_worstInfo_ne _ _ _ _ (by decide)]
  simp [State.set64, State.rd_wr, Reg.globalResMax, Reg.globalResOverrun,
      Reg.globalResEinLo, Reg.globalResEinHi, Reg.globalResIdehLo, Reg.globalResIdehHi, Reg.globalResHomeLo, Reg.globalResHomeHi,
      Reg.globalResSnoopLo, Reg.globalResSnoopHi, Reg.globalResRetryLo, Reg.globalResRetryHi, Reg.globalResQueueLo,
      Reg.globalResQueueHi, Reg.globalResCredLo, Reg.globalResCredHi, Reg.globalResWorstTickLo, Reg.globalResWorstTickHi]

/-- The view is not the register that selects it. -/
theorem State.resShow_sel (s : State) (r : ResTot) : (s.resShow r).rd Reg.globalResSel = s.rd Reg.globalResSel := by
  unfold State.resShow
  rw [rd_worstInfo_ne _ _ _ _ (by decide)]
  simp [State.set64, State.rd_wr, Reg.globalResSel, Reg.globalResCountLo, Reg.globalResCountHi, Reg.globalResMax, Reg.globalResOverrun,
      Reg.globalResEinLo, Reg.globalResEinHi, Reg.globalResIdehLo, Reg.globalResIdehHi, Reg.globalResHomeLo, Reg.globalResHomeHi,
      Reg.globalResSnoopLo, Reg.globalResSnoopHi, Reg.globalResRetryLo, Reg.globalResRetryHi, Reg.globalResQueueLo,
      Reg.globalResQueueHi, Reg.globalResCredLo, Reg.globalResCredHi, Reg.globalResWorstTickLo, Reg.globalResWorstTickHi]

theorem State.resSelWrite_shows (s : State) (v : Word) :
    Completes (.resSelWrite v) s (fun t =>
      t.getF Fld.globalResSelPort = fieldGet v 0 6 ∧
      t.get64 Reg.globalResCountLo Reg.globalResCountHi = (s.resTot (fieldGet v 0 6)).count % 2 ^ 64 ∧
      t.get64 Reg.globalResQueueLo Reg.globalResQueueHi = (s.resTot (fieldGet v 0 6)).sums.queue % 2 ^ 64 ∧
      t.rd Reg.globalResMax = BitVec.ofNat 32 (min (s.resTot (fieldGet v 0 6)).max 0xFFFFFFFF) ∧ t = { s with regs := t.regs }) := by
  have hframe : RO s (s.resSelWrite v) := (RO.refl s).stepF _ _ |>.trans (State.resShow_regs _ _)
  refine Completes.of_eq (f := (·.resSelWrite v)) _ rfl rfl hframe.pending hframe.tick
    ⟨?_, State.resShow_count _ _, State.resShow_queue _ _, State.resShow_max _ _, hframe⟩
  have hsel : fieldGet v 0 6 < 2 ^ 6 := Nat.mod_lt _ (by decide)
  calc (s.resSelWrite v).getF Fld.globalResSelPort
      = (s.setF Fld.globalResSelPort (fieldGet v 0 6)).getF Fld.globalResSelPort := by
        exact getF_addr _ (State.resShow_sel _ _)
    _ = fieldGet v 0 6 % 2 ^ 6 := State.getF_setF s Fld.globalResSelPort (fieldGet v 0 6) (by decide)
    _ = fieldGet v 0 6 := Nat.mod_eq_of_lt hsel

theorem State.resClear_shows (s : State) :
    Completes .resClear s (fun t =>
      (∀ lp, t.resTot lp = {}) ∧ t.get64 Reg.globalResCountLo Reg.globalResCountHi = 0 ∧ t.rd Reg.globalResMax = 0 ∧
      t = { s with regs := t.regs, dp := { s.dp with res := [] } }) := by
  obtain ⟨u, hu⟩ : ∃ u, u = s.resClear := ⟨_, rfl⟩
  have hframe : RO { s with dp := { s.dp with res := [] } } u := hu ▸ State.resShow_regs _ _
  have hcount : u.get64 Reg.globalResCountLo Reg.globalResCountHi = 0 := hu ▸ State.resShow_count _ _
  have hmax : u.rd Reg.globalResMax = 0 := hu ▸ State.resShow_max _ _
  refine Completes.of_eq (f := (·.resClear)) u rfl hu.symm hframe.pending hframe.tick ⟨fun lp => ?_, hcount, hmax, hframe⟩
  rw [State.resTot, hframe.dp]
  rfl

/-! ### Notices (R197) -/

theorem State.noticeClose_of_opened (s : State) (lp : Lp) (h : ∃ d ∈ s.hedge.denials, d.lp = lp.val ∧ d.opened = true) :
    exec (.noticeClose lp) s = .next s := by
  obtain ⟨d, hd, hlp, hopened⟩ := h
  have hany : (s.hedge.denials.filter (fun d => d.lp = lp.val)).any (·.opened) = true :=
    List.any_eq_true.2 ⟨d, List.mem_filter.2 ⟨hd, by simp [hlp]⟩, hopened⟩
  exact exec_of_act (f := (·.noticeClose lp.val)) s rfl (by simp only [State.noticeClose, hany, if_true]) rfl rfl

theorem State.noticeClose_of_none (s : State) (lp : Nat) (h : ∀ d ∈ s.hedge.denials, d.lp ≠ lp) :
    s.noticeClose lp = s.noticeZero lp := by
  have hmine : s.hedge.denials.filter (fun d => d.lp = lp) = [] := List.filter_eq_nil_iff.2 (by simpa using h)
  have hrest : s.hedge.denials.filter (fun d => d.lp ≠ lp) = s.hedge.denials := List.filter_eq_self.2 (by simpa using h)
  simp only [State.noticeClose, hmine, hrest]
  rfl

theorem mapBit_fits (lo hi lp : Nat) (hlp : lp < 64) : (mapBit lo hi lp).lo + (mapBit lo hi lp).width ≤ 32 := by
  unfold mapBit
  split <;> simp only <;> omega

/-- The map of open notices lies above the notices. -/
theorem notice_ne_open (lp k : Nat) (hk : k < 16) (hlp : lp < 64) :
    Reg.hedgeNotice lp + k ≠ (mapBit Reg.hedgeNoticeOpenLo Reg.hedgeNoticeOpenHi lp).addr := by
  unfold mapBit
  split <;> simp only [Reg.hedgeNotice, Reg.hedgeNoticeOpenLo, Reg.hedgeNoticeOpenHi] <;> omega

theorem State.noticeZero_reads (s : State) (lp k : Nat) (hk : k = 0 ∨ k = 4 ∨ k = 8 ∨ k = 12) (hlp : lp < 64) :
    (s.noticeZero lp).rd (Reg.hedgeNotice lp + k) = 0 := by
  have hne := notice_ne_open lp k (by omega) hlp
  rw [State.noticeZero, State.rd_setF_ne _ _ _ _ hne]
  rcases hk with rfl | rfl | rfl | rfl <;>
    simp [State.rd_wr, Reg.hedgeNotice, Reg.hedgeNoticeAddrLo, Reg.hedgeNoticeAddrHi, Reg.hedgeNoticeCount] <;> omega

theorem State.noticeClose_zeroes (s : State) (lp : Lp) (h : ∀ d ∈ s.hedge.denials, d.lp ≠ lp.val) :
    Completes (.noticeClose lp) s (fun t =>
      t.rd (Reg.hedgeNotice lp.val) = 0 ∧ t.rd (Reg.hedgeNoticeAddrLo lp.val) = 0 ∧ t.rd (Reg.hedgeNoticeAddrHi lp.val) = 0 ∧
      t.rd (Reg.hedgeNoticeCount lp.val) = 0 ∧ t.getF (mapBit Reg.hedgeNoticeOpenLo Reg.hedgeNoticeOpenHi lp.val) = 0 ∧
      RegsOnly s t [Fd.whole (Reg.hedgeNotice lp.val), Fd.whole (Reg.hedgeNoticeAddrLo lp.val), Fd.whole (Reg.hedgeNoticeAddrHi lp.val),
        Fd.whole (Reg.hedgeNoticeCount lp.val), mapBit Reg.hedgeNoticeOpenLo Reg.hedgeNoticeOpenHi lp.val]) := by
  have hlp : lp.val < 64 := lp.isLt
  have hreads := State.noticeZero_reads s lp.val
  have hframe : RO s (s.noticeZero lp.val) := (((((RO.refl s).stepW _ _).stepW _ _).stepW _ _).stepW _ _).stepF _ _
  refine Completes.of_eq (f := (·.noticeClose lp.val)) _ rfl (State.noticeClose_of_none s lp.val h) hframe.pending hframe.tick
    ⟨hreads 0 (by omega) hlp, ?_, ?_, ?_, ?_, hframe, ?_⟩
  · exact (congrArg _ (by simp only [Reg.hedgeNotice, Reg.hedgeNoticeAddrLo]; omega)).trans (hreads 4 (by omega) hlp)
  · exact (congrArg _ (by simp only [Reg.hedgeNotice, Reg.hedgeNoticeAddrHi]; omega)).trans (hreads 8 (by omega) hlp)
  · exact (congrArg _ (by simp only [Reg.hedgeNotice, Reg.hedgeNoticeCount]; omega)).trans (hreads 12 (by omega) hlp)
  · rw [State.noticeZero, State.getF_setF _ _ _ (mapBit_fits _ _ _ hlp)]
    exact Nat.zero_mod _
  · exact (((((OnlyFields.refl s _).stepW _ _ (by simp)).stepW _ _ (by simp)).stepW _ _ (by simp)).stepW _ _ (by simp)).stepF _ _
      (by simp)

/-- Settles O37: the view's registers are read one by one after it is shown, and a notice with no denial of the tick is zeroed. -/
theorem noticesCloseAndResidencesShow : Obligations.NoticesCloseAndResidencesShow := by
  unfold Obligations.NoticesCloseAndResidencesShow
  exact ⟨State.noticeClose_of_opened, State.noticeClose_zeroes, State.resSelWrite_shows, State.resClear_shows⟩

end Sys2Proof.Machine
end

section
/-! SUPPORT. Traverse and egress pack (O35). -/

open Sys2Proof Sys2Proof.Machine

namespace Sys2Proof.Machine

/-! ### Traverse (R243, R244) -/

/-- CROSSBAR_TRAVERSE on a state that has the message. -/
def State.traverseAt (s : State) (m : Nat) : State :=
  match s.msg? m with
  | some x => if x.stage = .granted ∧ x.since < s.tick then s.traverse x else s
  | none => s

theorem exec_crossbarTraverse (m : Nat) (s : State) : exec (.crossbarTraverse m) s = act s (·.traverseAt m) := rfl

theorem State.xbarBytes_regs (s : State) (m : Msg) (n : Nat) : RO s (s.xbarBytes m n) := ((RO.refl s).stepA64 _ _ _).stepA64 _ _ _

theorem get64_add64_ne (s : State) (a b k lo hi : Nat) (hlo : lo ≠ a ∧ lo ≠ b) (hhi : hi ≠ a ∧ hi ≠ b) :
    (s.add64 a b k).get64 lo hi = s.get64 lo hi :=
  get64_addr (rd_set64_ne s a b _ lo hlo.1 hlo.2) (rd_set64_ne s a b _ hi hhi.1 hhi.2)

theorem State.xbarBytes_in (s : State) (m : Msg) (n : Nat) (_hout : m.outPort < 32) :
    (s.xbarBytes m n).get64 (Reg.xbarInBytesLo m.inPort) (Reg.xbarInBytesHi m.inPort) =
      min (s.get64 (Reg.xbarInBytesLo m.inPort) (Reg.xbarInBytesHi m.inPort) + n) (2 ^ 64 - 1) := by
  have hlohi : Reg.xbarInBytesLo m.inPort ≠ Reg.xbarInBytesHi m.inPort := by simp only [Reg.xbarInBytesLo, Reg.xbarInBytesHi]; omega
  rw [State.xbarBytes, get64_add64_ne, get64_add64 _ _ _ _ hlohi] <;>
    simp only [Reg.xbarInBytesLo, Reg.xbarInBytesHi, Reg.xbarOutBytesLo, Reg.xbarOutBytesHi] <;> omega

theorem State.xbarBytes_out (s : State) (m : Msg) (n : Nat) (_hout : m.outPort < 32) :
    (s.xbarBytes m n).get64 (Reg.xbarOutBytesLo m.outPort) (Reg.xbarOutBytesHi m.outPort) =
      min (s.get64 (Reg.xbarOutBytesLo m.outPort) (Reg.xbarOutBytesHi m.outPort) + n) (2 ^ 64 - 1) := by
  have hlohi : Reg.xbarOutBytesLo m.outPort ≠ Reg.xbarOutBytesHi m.outPort := by
    simp only [Reg.xbarOutBytesLo, Reg.xbarOutBytesHi]; omega
  rw [State.xbarBytes, get64_add64 _ _ _ _ hlohi, get64_add64_ne] <;>
    simp only [Reg.xbarInBytesLo, Reg.xbarInBytesHi, Reg.xbarOutBytesLo, Reg.xbarOutBytesHi] <;> omega

theorem traverse_counts (s : State) (m : Nat) (x : Msg) (hmsg : s.msg? m = some x) (hstage : x.stage = .granted)
    (hsince : x.since < s.tick) (hkeep : s.cancelled x = false) (_hin : x.inPort < 32) (hout : x.outPort < 32) :
    Completes (.crossbarTraverse m) s (fun t =>
      t.msg? m = some { x with stage := .packing, since := s.tick } ∧ (∀ k, k ≠ m → t.msg? k = s.msg? k) ∧
      t.get64 (Reg.xbarInBytesLo x.inPort) (Reg.xbarInBytesHi x.inPort) =
        min (s.get64 (Reg.xbarInBytesLo x.inPort) (Reg.xbarInBytesHi x.inPort) + min 512 x.hdr.flitLen) (2 ^ 64 - 1) ∧
      t.get64 (Reg.xbarOutBytesLo x.outPort) (Reg.xbarOutBytesHi x.outPort) =
        min (s.get64 (Reg.xbarOutBytesLo x.outPort) (Reg.xbarOutBytesHi x.outPort) + min 512 x.hdr.flitLen) (2 ^ 64 - 1) ∧
      OnlyFields s t [Fd.whole (Reg.xbarInBytesLo x.inPort), Fd.whole (Reg.xbarInBytesHi x.inPort),
        Fd.whole (Reg.xbarOutBytesLo x.outPort), Fd.whole (Reg.xbarOutBytesHi x.outPort)] ∧
      t = { s with regs := t.regs, dp := { s.dp with msgs := t.dp.msgs } }) := by
  obtain rfl := msg_id hmsg
  obtain ⟨u, hu⟩ : ∃ u, u = s.xbarBytes x (min 512 x.hdr.flitLen) := ⟨_, rfl⟩
  have hregs : RO s u := hu ▸ State.xbarBytes_regs _ _ _
  have honly := MsgOnly.modMsg (s := u) ((hregs.msg x.id).trans hmsg) (fun y => { y with stage := .packing, since := s.tick })
    (fun _ => rfl)
  obtain ⟨hframe, hnew, hothers⟩ := honly
  obtain ⟨v, hv⟩ : ∃ v, v = u.modMsg x.id (fun y => { y with stage := .packing, since := s.tick }) := ⟨_, rfl⟩
  have hstep : s.traverseAt x.id = v := by
    simp only [State.traverseAt, hmsg, hstage, hsince, and_self, if_true, State.traverse, hkeep, Bool.false_eq_true, if_false]
    rw [hv, hu]
  have hall : v = { s with regs := v.regs, dp := { s.dp with msgs := v.dp.msgs } } := by
    rw [hv, hframe, hregs]
  have hvregs : v.regs = u.regs := by rw [hv]; rfl
  rw [← hv] at hnew hothers
  refine Completes.of_eq _ (exec_crossbarTraverse x.id s) hstep (by rw [hall]) (by rw [hall])
    ⟨hnew, fun k hk => (hothers k hk).trans (hregs.msg k), ?_, ?_, ?_, hall⟩
  · rw [hv, get64_modMsg, hu, State.xbarBytes_in s x _ hout]
  · rw [hv, get64_modMsg, hu, State.xbarBytes_out s x _ hout]
  · refine OnlyFields.of_regs ?_ hvregs
    rw [hu]
    exact ((OnlyFields.refl s _).stepA64 _ _ _ (by simp) (by simp)).stepA64 _ _ _ (by simp) (by simp)

/-! ### Egress pack of what the device makes (R25, R253, R283) -/

/-- EGRESS_PACK on a state that has the message. -/
def State.packAt (s : State) (m : Nat) : State :=
  match s.msg? m with
  | some x => if x.stage = .packing ∧ x.since < s.tick then s.egressPack x else s
  | none => s

theorem exec_egressPack (m : Nat) (s : State) : exec (.egressPack m) s = act s (·.packAt m) := rfl

/-- The state after a message of rank 2 that the device made, to a port that is no upstream port, has been packed. -/
def State.packedDevice (s : State) (x : Msg) (r : Route) : State :=
  let u := s.add64 (Reg.schedPortLiveQinLo r.lp) (Reg.schedPortLiveQinHi r.lp) x.parts.qin
  let u := u.setCredit r.lp x.hdr.op.credit
    { s.credit r.lp x.hdr.op.credit with cons := (s.credit r.lp x.hdr.op.credit).cons + BitVec.ofNat 32 x.hdr.units }
  let u := { u with xb := { u.xb with rank2 := cntAdd s.xb.rank2 r.lp x.hdr.flitLen,
                                      freed := s.xb.freed ++ [x.freed (s.tick + x.hdr.xticks)] } }
  let u := u.modTfl r.lp (fun t => { t with pend := t.pend + x.hdr.flitLen })
  (u.emit (.flit r.lp (s.tick + 3) r.ld x.hdr s.flt.viral)).delMsg x.id

section
variable {s : State} {x : Msg} {r : Route} (hdevice : x.origin = .device) (hroute : x.route = some r) (hrank : r.rank = 2)
include hdevice hroute hrank

theorem State.qrsvCheck_of_device : (s.measure x).qrsvCheck x =
    s.add64 (Reg.schedPortLiveQinLo r.lp) (Reg.schedPortLiveQinHi r.lp) x.parts.qin := by
  have hmade : x.made = true := by simp [Msg.made, hdevice]
  have hout : x.out = r.lp := by simp [Msg.out, hroute]
  have hreserved : ∀ t : State, t.reserved x = false := fun t => by simp [State.reserved, Msg.rank, hroute, hrank]
  simp only [State.measure, hmade, Bool.true_or, if_true, State.qrsvCheck, hreserved, hout, Bool.false_eq_true, if_false]

theorem State.packMsg_of_device (htracker : r.tracker = none) (_hlp : r.lp < 64) (hrole : s.role r.lp = 1 ∨ s.role r.lp = 2) :
    s.packMsg x = s.packedDevice x r := by
  have hmade : x.made = true := by simp [Msg.made, hdevice]
  have hout : x.out = r.lp := by simp [Msg.out, hroute]
  have hnotUp : (s.add64 (Reg.schedPortLiveQinLo r.lp) (Reg.schedPortLiveQinHi r.lp) x.parts.qin).isRole r.lp 0 = false := by
    have hkeep : (s.add64 (Reg.schedPortLiveQinLo r.lp) (Reg.schedPortLiveQinHi r.lp) x.parts.qin).role r.lp = s.role r.lp := by
      unfold State.role
      refine getF_add64_ne _ _ _ _ _ ?_ ?_ <;>
        simp only [Fld.portLpCtlRole, Reg.portLpCtl, Reg.schedPortLiveQinLo, Reg.schedPortLiveQinHi] <;> omega
    rw [State.isRole, hkeep]
    rcases hrole with h | h <;> simp [h]
  have hparity : ∀ t : State, (x.carriesParity && !t.onTracker x) = false := fun t => by simp [Msg.carriesParity, hmade]
  have hrank2 : x.rank = 2 := by simp [Msg.rank, hroute, hrank]
  unfold State.packMsg
  rw [State.qrsvCheck_of_device hdevice hroute hrank]
  simp only [hout, hnotUp, Bool.false_eq_true, if_false, State.countRank2, hrank2, if_true, hroute, Option.bind_some, htracker, hparity]
  rfl

end

theorem pack_sends (s : State) (m : Nat) (x : Msg) (r : Route) (hmsg : s.msg? m = some x) (hstage : x.stage = .packing)
    (hsince : x.since < s.tick) (hlen : x.hdr.flitLen ≤ 512) (hdevice : x.origin = .device) (hroute : x.route = some r)
    (hrank : r.rank = 2) (htracker : r.tracker = none) (hlp : r.lp < 64) (hup : s.dllUp r.lp = true)
    (hrole : s.role r.lp = 1 ∨ s.role r.lp = 2) (hgleaned : s.gleaned x = false) :
    Completes (.egressPack m) s (fun t =>
      t.out = .flit r.lp (s.tick + 3) r.ld x.hdr s.flt.viral :: s.out ∧
      t.msg? m = none ∧ (∀ k, k ≠ m → t.msg? k = s.msg? k) ∧
      (t.lnk r.lp).tfl = { (s.lnk r.lp).tfl with pend := (s.lnk r.lp).tfl.pend + x.hdr.flitLen } ∧
      (t.credit r.lp x.hdr.op.credit).cons = (s.credit r.lp x.hdr.op.credit).cons + BitVec.ofNat 32 x.hdr.units ∧
      (t.credit r.lp x.hdr.op.credit).limit = (s.credit r.lp x.hdr.op.credit).limit ∧
      cnt t.xb.rank2 r.lp = cnt s.xb.rank2 r.lp + x.hdr.flitLen ∧
      t.get64 (Reg.schedPortLiveQinLo r.lp) (Reg.schedPortLiveQinHi r.lp) =
        min (s.get64 (Reg.schedPortLiveQinLo r.lp) (Reg.schedPortLiveQinHi r.lp) + x.parts.qin) (2 ^ 64 - 1) ∧
      OnlyFields s t [Fd.whole (Reg.schedPortLiveQinLo r.lp), Fd.whole (Reg.schedPortLiveQinHi r.lp)] ∧
      t = { s with regs := t.regs, out := t.out, dp := { s.dp with msgs := t.dp.msgs }, xb := { s.xb with rank2 := t.xb.rank2, freed := s.xb.freed ++ [x.freed (s.tick + x.hdr.xticks)] },
                   link := { s.link with links := t.link.links, credit := t.link.credit } }) := by
  obtain rfl := msg_id hmsg
  have hout : x.out = r.lp := by simp [Msg.out, hroute]
  have hstep : s.packAt x.id = s.packedDevice x r := by
    simp only [State.packAt, hmsg, hstage, hsince, and_self, if_true, State.egressPack, hout, hup, hgleaned, Nat.not_lt.2 hlen,
      if_false, Bool.not_true, Bool.false_eq_true]
    exact State.packMsg_of_device hdevice hroute hrank htracker hlp hrole
  have hlohi : Reg.schedPortLiveQinLo r.lp ≠ Reg.schedPortLiveQinHi r.lp := by
    simp only [Reg.schedPortLiveQinLo, Reg.schedPortLiveQinHi]; omega
  have hcredit : (s.packedDevice x r).credit r.lp x.hdr.op.credit =
      { s.credit r.lp x.hdr.op.credit with cons := (s.credit r.lp x.hdr.op.credit).cons + BitVec.ofNat 32 x.hdr.units } :=
    Tbl.get_set_same ..
  refine Completes.of_eq _ (exec_egressPack x.id s) hstep rfl rfl
    ⟨rfl, ?_, fun k hk => ?_, ?_, by rw [hcredit], by rw [hcredit], Tbl.get_set_same .., get64_add64 s _ _ x.parts.qin hlohi, ?_, rfl⟩
  · exact (msg_delMsg _ _ _).trans (if_pos rfl)
  · exact (msg_delMsg _ _ _).trans (if_neg hk)
  · exact congrArg Link.tfl (Tbl.get_set_same ..)
  · exact ((OnlyFields.refl s _).stepA64 _ _ _ (by simp) (by simp)).of_regs rfl

/-- Settles O35: the byte counts of a traverse, and the one path of egress pack that a message of the device takes. -/
theorem grantedMessagesTraverseAndLeave : Obligations.GrantedMessagesTraverseAndLeave := by
  unfold Obligations.GrantedMessagesTraverseAndLeave
  exact ⟨traverse_counts, pack_sends⟩

end Sys2Proof.Machine
end

section
/-! SUPPORT. Responses and entries that time out (O36). -/

open Sys2Proof Sys2Proof.Machine

namespace Sys2Proof.Machine

/-! ### Bytes that nobody fixes, and answers in one completion (R39, R244) -/

theorem leBytes_length (n v : Nat) : (leBytes n v).length = n := by
  induction n generalizing v with
  | zero => rfl
  | succ n ih => exact congrArg (· + 1) (ih _)

theorem State.freeBytes_length (s : State) (n : Nat) : (s.freeBytes n).1.length = n := leBytes_length _ _

theorem chunksOf_of_le (k : Nat) (l : List Byte) (h : l.length ≤ 512) : chunksOf k l = [l] := by
  cases k with
  | zero => rfl
  | succ k => exact if_pos h

theorem State.replyData_of_le (s : State) (cls : Cls) (req : Hdr) (data : List Byte) (poison : Bool) (grant : Nat)
    (key : Option (Nat × Nat)) (h : data.length ≤ 512) :
    s.replyData cls req data poison grant key = s.reply cls req data poison .sc grant key := by
  rw [State.replyData, chunksOf_of_le _ _ h]
  rfl

/-! ### The end of a tracker entry (R99) -/

/-- The state after a live tracker entry is released. -/
theorem State.untrack_of_live {s : State} {k : Tracker} (h : s.tracker? k.id = some k) : s.untrack k.id =
    ({ s with dp := { s.dp with trackers := s.dp.trackers.filter (fun x => x.id ≠ k.id) } }).refreshFn k.cls.fid := by
  rw [State.untrack, h]

theorem State.untrack_frame {s : State} {k : Tracker} (h : s.tracker? k.id = some k) : s.untrack k.id =
    { s with regs := (s.untrack k.id).regs, dp := { s.dp with trackers := s.dp.trackers.filter (fun x => x.id ≠ k.id) } } := by
  rw [State.untrack_of_live h]
  exact State.refreshFn_regs { s with dp := { s.dp with trackers := s.dp.trackers.filter (fun x => x.id ≠ k.id) } } _

theorem State.refreshFn_only (s : State) (fn : Nat) : OnlyFields s (s.refreshFn fn) [(liveFd fn).1, (liveFd fn).2.2.2.1] := by
  unfold State.refreshFn
  split
  · exact OnlyFields.refl s _
  · exact ((OnlyFields.refl s _).stepF _ _ (by simp)).stepF _ _ (by simp)

theorem State.untrack_only {s : State} {k : Tracker} (h : s.tracker? k.id = some k) :
    OnlyFields s (s.untrack k.id) [(liveFd k.cls.fid).1, (liveFd k.cls.fid).2.2.2.1] := by
  rw [State.untrack_of_live h]
  exact State.refreshFn_only { s with dp := { s.dp with trackers := s.dp.trackers.filter (fun x => x.id ≠ k.id) } } _

/-- With no transaction open, no transaction waits for a write. -/
theorem State.forgetWrite_of_none {s : State} (k : Nat) (h : s.home.txns = []) : s.forgetWrite k = s := by
  have hsame : ({ s with home := { s.home with txns := [] } } : State) = s := by
    conv_lhs => rw [← h]
  simp only [State.forgetWrite, State.swapWrite, h, List.map_nil]
  exact hsame

/-- The entry of a request of its own, with no home transaction and no second issue: it is released, and its answer goes on. -/
theorem State.finishTracker_of_plain {s : State} {k : Tracker} (a : Answer) (hlive : s.tracker? k.id = some k) (huse : k.use = .request)
    (htxn : k.txn = none) (hgroup : k.group = none) (htxns : s.home.txns = []) : s.finishTracker k a = (s.untrack k.id,
      some { a with data := if k.req.op.isRead then (s.untrack k.id).readData k a.data a.poison else a.data }) := by
  have hnone : (s.untrack k.id).home.txns = [] := by rw [State.untrack_frame hlive]; exact htxns
  simp only [State.finishTracker, huse, htxn, hgroup, State.forgetWrite_of_none k.id hnone, State.legDone, if_true]

/-! ### RESPONSE_STAGE1 (R98, R99, R118) -/

/-- RESPONSE_STAGE1 on a state that has the message. -/
def State.responseAt (s : State) (m : Nat) : State :=
  match s.msg? m with
  | some x => if x.cls.path = .response ∧ x.route = none ∧ (x.stage = .engine ∨ x.stage = .map) then s.responseStage1 x else s
  | none => s

theorem exec_responseStage1 (m : Nat) (s : State) : exec (.responseStage1 m) s = act s (·.responseAt m) := rfl

theorem State.responseAt_of {s : State} {m : Nat} {x : Msg} (hmsg : s.msg? m = some x) (hpath : x.cls.path = .response)
    (hroute : x.route = none) (hstage : x.stage = .engine ∨ x.stage = .map) : s.responseAt m = s.responseStage1 x := by
  simp only [State.responseAt, hmsg]
  exact if_pos ⟨hpath, hroute, hstage⟩

/-- The state after a response that matches no entry. -/
def State.lateGone (s : State) (x : Msg) : State :=
  (({ s with dp := { s.dp with lateTags := s.dp.lateTags.erase (x.cls.lp, x.hdr.tag) } }).bump (Fd.whole Reg.plotLate)).delMsg x.id

theorem response_late (s : State) (m : Nat) (x : Msg) (hmsg : s.msg? m = some x) (hpath : x.cls.path = .response)
    (hroute : x.route = none) (hstage : x.stage = .engine ∨ x.stage = .map)
    (hnone : ∀ t ∈ s.dp.trackers, ¬(t.lp = x.cls.lp ∧ t.tag = x.hdr.tag)) :
    Completes (.responseStage1 m) s (fun t =>
      t.msg? m = none ∧ (∀ k, k ≠ m → t.msg? k = s.msg? k) ∧
      (t.rd Reg.plotLate).toNat = min ((s.rd Reg.plotLate).toNat + 1) (2 ^ 32 - 1) ∧ OnlyFields s t [Fd.whole Reg.plotLate] ∧
      t = { s with regs := t.regs, dp := { s.dp with msgs := t.dp.msgs, lateTags := s.dp.lateTags.erase (x.cls.lp, x.hdr.tag) } }) := by
  obtain rfl := msg_id hmsg
  have hfind : s.dp.trackers.find? (fun t => decide (t.lp = x.cls.lp ∧ t.tag = x.hdr.tag)) = none :=
    List.find?_eq_none.2 (fun t ht => by simpa using hnone t ht)
  have hstep : s.responseAt x.id = s.lateGone x := by
    rw [State.responseAt_of hmsg hpath hroute hstage, State.responseStage1, hfind]
    rfl
  refine Completes.of_eq _ (exec_responseStage1 x.id s) hstep rfl rfl ⟨?_, fun k hk => ?_, ?_, ?_, rfl⟩
  · exact (msg_delMsg _ _ _).trans (if_pos rfl)
  · exact (msg_delMsg _ _ _).trans (if_neg hk)
  · have hcount := congrArg BitVec.toNat (bump_whole s Reg.plotLate)
    refine hcount.trans ((BitVec.toNat_ofNat _ _).trans (Nat.mod_eq_of_lt ?_))
    omega
  · exact ((OnlyFields.refl s _).stepB (Fd.whole Reg.plotLate) (by simp)).of_regs rfl

theorem response_delivers (s : State) (m : Nat) (x : Msg) (k : Tracker) (hmsg : s.msg? m = some x) (hpath : x.cls.path = .response)
    (hroute : x.route = none) (hstage : x.stage = .engine ∨ x.stage = .map)
    (hfind : s.dp.trackers.find? (fun t => decide (t.lp = x.cls.lp ∧ t.tag = x.hdr.tag)) = some k) (hlive : s.tracker? k.id = some k)
    (huse : k.use = .request) (htxn : k.txn = none) (hgroup : k.group = none) (hread : k.req.op.isRead = false)
    (hcurrent : s.current k.cls = true) (htxns : s.home.txns = []) (hlen : x.hdr.data.length ≤ 512) :
    Completes (.responseStage1 m) s (fun t =>
      t.msg? m = some { x with hdr := { x.hdr with tag := k.req.tag, grant := k.grant }, req := k.req,
                               cls := { k.cls with path := .response }, route := some { lp := k.cls.lp, rank := 2, key := k.key } } ∧
      (∀ j, j ≠ m → t.msg? j = s.msg? j) ∧
      t.dp.trackers = s.dp.trackers.filter (fun y => y.id ≠ k.id) ∧
      OnlyFields s t [(liveFd k.cls.fid).1, (liveFd k.cls.fid).2.2.2.1] ∧
      t = { s with regs := t.regs, dp := { s.dp with msgs := t.dp.msgs, trackers := t.dp.trackers } }) := by
  obtain rfl := msg_id hmsg
  have hnotRead : k.req.op ≠ .ioMemRd := fun h => by rw [h] at hread; exact absurd hread (by decide)
  have hpartial : k.partial x.hdr = false := by simp [Tracker.partial, hnotRead]
  obtain ⟨u, hu⟩ : ∃ u, u = s.untrack k.id := ⟨_, rfl⟩
  have hframe := State.untrack_frame hlive
  have honlyFields := State.untrack_only hlive
  rw [← hu] at hframe honlyFields
  obtain ⟨v, hv⟩ : ∃ v, v = u.modMsg x.id (fun y => { y with
    hdr := { x.hdr with tag := k.req.tag, grant := k.grant }, req := k.req, cls := { k.cls with path := .response },
    route := some { lp := k.cls.lp, rank := 2, key := k.key } }) := ⟨_, rfl⟩
  have hstep : s.responseAt x.id = v := by
    rw [State.responseAt_of hmsg hpath hroute hstage, State.responseStage1, hfind]
    simp only [hcurrent, Bool.not_true, Bool.false_and, Bool.false_eq_true, if_false, hpartial, Bool.not_false, Bool.and_true,
      State.finishTracker_of_plain _ hlive huse htxn hgroup htxns, hread, State.deliver, hlen, if_true, List.take_of_length_le hlen]
    rw [hv, hu]
  have humsg : ∀ j, u.msg? j = s.msg? j := msgs_congr (by rw [hframe])
  obtain ⟨hvframe, hnew, hothers⟩ := MsgOnly.modMsg (s := u) ((humsg x.id).trans hmsg) (fun y => { y with
    hdr := { x.hdr with tag := k.req.tag, grant := k.grant }, req := k.req, cls := { k.cls with path := .response },
    route := some { lp := k.cls.lp, rank := 2, key := k.key } }) (fun _ => rfl)
  rw [← hv] at hvframe hnew hothers
  have htrackers : v.dp.trackers = s.dp.trackers.filter (fun y => y.id ≠ k.id) := by rw [hvframe, hframe]
  have hvregs : v.regs = u.regs := by rw [hv]; rfl
  have hall : v = { s with regs := v.regs, dp := { s.dp with msgs := v.dp.msgs, trackers := v.dp.trackers } } := by
    rw [htrackers, hvframe, hframe]
  exact Completes.of_eq _ (exec_responseStage1 x.id s) hstep (by rw [hall]) (by rw [hall])
    ⟨hnew, fun j hj => (hothers j hj).trans (humsg j), htrackers, honlyFields.of_regs hvregs, hall⟩

/-! ### TRACKER_TIMEOUT (R102, R250) -/

/-- TRACKER_TIMEOUT without the check that the step makes. -/
def State.timeoutAt (s : State) (id : Nat) : State :=
  match s.tracker? id with
  | none => s
  | some t =>
    if !s.aonPast t.start (250000 * max 1 (min 50 (s.getF Fld.plotTrkTmoMs))) then s else
    let s := s.tagLate t
    if s.current t.cls then
      let s := s.raise { src := 0x03, tick := s.tick, fn := some (t.cls.fid, t.cls.gen), tag := t.mark,
                         d0 := max 1 (min 50 (s.getF Fld.plotTrkTmoMs)) }
      s.endTracker t .ca
    else if t.use = .request then
      ((s.glean t.cls).finishTracker t ⟨[], true, .sc⟩).1
    else (s.glean t.cls).endTracker t .ca

theorem exec_trackerTimeout (id : Nat) (s : State) : exec (.trackerTimeout id) s = act s (·.timeoutAt id) := rfl

/-- The state in which the entry of a read that timed out is released: its fault raised, its tag out of use where the read was sent, its
waiting messages gone, the bytes of its completion drawn. -/
def State.timedOut (s : State) (k : Tracker) : State :=
  { s with
    flt := { s.flt with tickEvents := s.flt.tickEvents ++
      [{ src := 0x03, tick := s.tick, fn := some (k.cls.fid, k.cls.gen), tag := k.mark, d0 := max 1 (min 50 (s.getF Fld.plotTrkTmoMs)) }] }
    freeCtr := s.freeCtr + 1
    dp := { s.dp with
      msgs := s.dp.msgs.filter (fun m => m.onItsWay || decide ((m.route.bind (·.tracker)) ≠ some k.id))
      lateTags := if k.sent || s.trackerOnWay k then s.dp.lateTags ++ [(k.lp, k.tag)] else s.dp.lateTags } }

theorem State.tagLate_eq (s : State) (k : Tracker) : s.tagLate k = { s with dp := { s.dp with
    lateTags := if k.sent || s.trackerOnWay k then s.dp.lateTags ++ [(k.lp, k.tag)] else s.dp.lateTags } } := by
  unfold State.tagLate
  split <;> rfl

/-- What a read's completion brings, with nothing denied and nothing received before: the bytes as they are. -/
theorem State.readData_whole (s : State) {k : Tracker} (data : List Byte) (hdenied : k.denied = []) :
    s.readData k data true = data := by
  simp [State.readData, hdenied, keptFrom]

/-- The state in which the entry of a read that ends without its response is released. -/
def State.readEnds (s : State) (k : Tracker) : State :=
  { s with freeCtr := s.freeCtr + 1
           dp := { s.dp with msgs := s.dp.msgs.filter (fun m => m.onItsWay || decide ((m.route.bind (·.tracker)) ≠ some k.id)) } }

theorem State.timedOut_eq (s : State) (k : Tracker) : s.timedOut k = ((s.tagLate k).raise
    { src := 0x03, tick := s.tick, fn := some (k.cls.fid, k.cls.gen), tag := k.mark, d0 := max 1 (min 50 (s.getF Fld.plotTrkTmoMs)) }).readEnds k := by
  rw [State.tagLate_eq]
  rfl

theorem State.freeBytes_of_ended (s : State) (k : Tracker) (n : Nat) :
    ({ s with dp := { s.dp with
        msgs := s.dp.msgs.filter (fun m => !(!m.onItsWay && decide ((m.route.bind (·.tracker)) = some k.id))) } } : State).freeBytes n =
    ((s.freeBytes n).1, s.readEnds k) := by
  have hfilter : s.dp.msgs.filter (fun m => !(!m.onItsWay && decide ((m.route.bind (·.tracker)) = some k.id))) =
      s.dp.msgs.filter (fun m => m.onItsWay || decide ((m.route.bind (·.tracker)) ≠ some k.id)) :=
    List.filter_congr (fun m _ => by simp)
  rw [hfilter]
  rfl

section
variable {s : State} {k : Tracker} (hlive : s.tracker? k.id = some k) (huse : k.use = .request) (htxn : k.txn = none)
  (hgroup : k.group = none) (hop : k.req.op = .ioMemRd) (hdenied : k.denied = []) (htxns : s.home.txns = []) (hgot : k.got = 0)
  (hsize : k.req.size ≤ 512)
include hlive huse htxn hgroup hop hdenied htxns hgot hsize

/-- A read's entry ends without its response: its requester gets a completion with poison. -/
theorem State.endTracker_of_read : s.endTracker k .ca = ((s.readEnds k).untrack k.id).make k.cls
    (replyHdr k.req (s.freeBytes k.req.size).1 true .sc k.grant) { lp := k.cls.lp, rank := 2, key := k.key } k.req := by
  have hwant : k.want - k.got = k.req.size := by simp [Tracker.want, hdenied, hgot]
  have hlen : (s.freeBytes k.req.size).1.length ≤ 512 := (State.freeBytes_length s _).symm ▸ hsize
  have hreq : k.req.answered = true := by rw [Hdr.answered, hop]; rfl
  have hisRead : k.req.op.isRead = true := by rw [hop]; rfl
  have hisWr : k.req.op.isMemWr = false := by rw [hop]; rfl
  have hends : (s.readEnds k).tracker? k.id = some k := hlive
  simp only [State.endTracker, hisWr, Bool.false_eq_true, if_false, hwant, hisRead, if_true, State.freeBytes_of_ended]
  rw [State.finishTracker_of_plain _ hends huse htxn hgroup htxns]
  simp only [hisRead, if_true, State.readData_whole _ _ hdenied, State.replyData_of_le _ _ _ _ _ _ _ hlen, State.reply, hreq]

theorem State.timeoutAt_of_read (hcurrent : s.current k.cls = true)
    (hpast : s.aonPast k.start (250000 * max 1 (min 50 (s.getF Fld.plotTrkTmoMs))) = true) :
    s.timeoutAt k.id = ((s.timedOut k).untrack k.id).make k.cls (replyHdr k.req (s.freeBytes k.req.size).1 true .sc k.grant)
      { lp := k.cls.lp, rank := 2, key := k.key } k.req := by
  obtain ⟨w, hw⟩ : ∃ w, w = (s.tagLate k).raise
    { src := 0x03, tick := s.tick, fn := some (k.cls.fid, k.cls.gen), tag := k.mark, d0 := max 1 (min 50 (s.getF Fld.plotTrkTmoMs)) } :=
    ⟨_, rfl⟩
  have hlate := State.tagLate_eq s k
  have hcur : (s.tagLate k).current k.cls = true := by rw [hlate]; exact hcurrent
  have htick : (s.tagLate k).tick = s.tick := by rw [hlate]
  have htmo : (s.tagLate k).getF Fld.plotTrkTmoMs = s.getF Fld.plotTrkTmoMs := by rw [hlate]; rfl
  have hwlive : w.tracker? k.id = some k := by rw [hw, hlate]; exact hlive
  have hwtxns : w.home.txns = [] := by rw [hw, hlate]; exact htxns
  have hbytes : w.freeBytes k.req.size = ((s.freeBytes k.req.size).1, (w.freeBytes k.req.size).2) := by rw [hw, hlate]; rfl
  have hend := State.endTracker_of_read hwlive huse htxn hgroup hop hdenied hwtxns hgot hsize
  rw [congrArg Prod.fst hbytes] at hend
  simp only [State.timeoutAt, hlive, hpast, Bool.not_true, Bool.false_eq_true, if_false, hcur, if_true, htick, htmo]
  rw [← hw, hend, State.timedOut_eq, hw]

end

/-- The message that the device makes is the last of all. -/
theorem State.make_msgs (s : State) (cls : Cls) (hdr : Hdr) (r : Route) (req : Hdr) : ∃ y, (s.make cls hdr r req).dp.msgs = s.dp.msgs ++ [y] ∧
    y.id = s.dp.nextId ∧ y.hdr = hdr ∧ y.route = some r :=
  ⟨_, rfl, rfl, rfl, rfl⟩

theorem trackerTimeout_poisons (s : State) (k : Tracker) (hlive : s.tracker? k.id = some k) (hcurrent : s.current k.cls = true)
    (huse : k.use = .request) (htxn : k.txn = none) (hgroup : k.group = none) (hop : k.req.op = .ioMemRd) (_ : k.cls.plot = 0)
    (hdenied : k.denied = []) (htxns : s.home.txns = []) (hgot : k.got = 0) (hsize : k.req.size ≤ 512)
    (hpast : s.aonPast k.start (250000 * max 1 (min 50 (s.getF Fld.plotTrkTmoMs))) = true) :
    Completes (.trackerTimeout k.id) s (fun t =>
      t.flt = { s.flt with tickEvents := s.flt.tickEvents ++
        [{ src := 0x03, tick := s.tick, fn := some (k.cls.fid, k.cls.gen), tag := k.mark, d0 := max 1 (min 50 (s.getF Fld.plotTrkTmoMs)) }] } ∧
      t.dp.trackers = s.dp.trackers.filter (fun y => y.id ≠ k.id) ∧
      (∃ y, t.dp.msgs = s.dp.msgs.filter (fun m => m.onItsWay || decide ((m.route.bind (·.tracker)) ≠ some k.id)) ++ [y] ∧ y.id = s.dp.nextId ∧
        y.hdr.op = .cpl ∧ y.hdr.poison = true ∧ y.hdr.tag = k.req.tag ∧ y.hdr.data.length = k.req.size ∧
        y.route = some { lp := k.cls.lp, rank := 2, key := k.key }) ∧
      OnlyFields s t [(liveFd k.cls.fid).1, (liveFd k.cls.fid).2.2.2.1] ∧
      t = { s with regs := t.regs, flt := t.flt, freeCtr := s.freeCtr + 1,
                   dp := { s.dp with msgs := t.dp.msgs, trackers := t.dp.trackers, nextId := s.dp.nextId + 1,
                                     lateTags := if k.sent || s.trackerOnWay k then s.dp.lateTags ++ [(k.lp, k.tag)] else s.dp.lateTags } }) := by
  obtain ⟨u, hu⟩ : ∃ u, u = (s.timedOut k).untrack k.id := ⟨_, rfl⟩
  have hstep := State.timeoutAt_of_read hlive huse htxn hgroup hop hdenied htxns hgot hsize hcurrent hpast
  have hframe := State.untrack_frame (s := s.timedOut k) (k := k) hlive
  have honly := State.untrack_only (s := s.timedOut k) (k := k) hlive
  rw [← hu] at hstep hframe honly
  have hrest : u.pending = s.pending ∧ u.tick = s.tick := by rw [hframe]; exact ⟨rfl, rfl⟩
  have hhdr : (replyHdr k.req (s.freeBytes k.req.size).1 true .sc k.grant).op = .cpl := by
    rw [replyHdr, hop]; rfl
  obtain ⟨y, hmsgs, hid, hyhdr, hyroute⟩ := State.make_msgs u k.cls (replyHdr k.req (s.freeBytes k.req.size).1 true .sc k.grant)
    { lp := k.cls.lp, rank := 2, key := k.key } k.req
  refine Completes.of_eq _ (exec_trackerTimeout k.id s) hstep hrest.1 hrest.2
    ⟨?_, ?_, ⟨y, ?_, ?_, hyhdr ▸ hhdr, hyhdr ▸ rfl, hyhdr ▸ rfl, hyhdr ▸ State.freeBytes_length s _, hyroute⟩, ?_, ?_⟩
  · exact (congrArg State.flt hframe).trans rfl
  · exact (congrArg (fun t : State => t.dp.trackers) hframe).trans rfl
  · exact hmsgs.trans (congrArg (· ++ [y]) (congrArg (fun t : State => t.dp.msgs) hframe))
  · exact hid.trans ((congrArg (fun t : State => t.dp.nextId) hframe).trans rfl)
  · exact honly.of_regs rfl
  · rw [State.make, State.addMsg, hframe]
    rfl

/-- Settles O36: a late response, a response of a plain live request, and a read's entry at its timeout. -/
theorem responsesMatchTheirTrackerEntries : Obligations.ResponsesMatchTheirTrackerEntries := by
  unfold Obligations.ResponsesMatchTheirTrackerEntries
  exact ⟨response_late,
    fun s m x k hmsg hpath hroute hstage hfind hlive huse htxn hgroup hread hcurrent htxns hlen =>
      response_delivers s m x k hmsg hpath hroute hstage hfind hlive huse htxn hgroup hread hcurrent htxns hlen,
    trackerTimeout_poisons⟩

end Sys2Proof.Machine
end

section
/-! SUPPORT. The bid list and one arbitration (O34). -/

open Sys2Proof Sys2Proof.Machine

namespace Sys2Proof.Machine

/-! ### What the gathering of bursts leaves (R264) -/

/-- Time, the bid list and the messages are as before. -/
structure Quiet (s t : State) : Prop where
  pending : t.pending = s.pending
  tick : t.tick = s.tick
  bids : t.dp.bids = s.dp.bids
  msgs : t.dp.msgs = s.dp.msgs

theorem Quiet.refl (s : State) : Quiet s s := ⟨rfl, rfl, rfl, rfl⟩

theorem Quiet.trans {s t u : State} (h : Quiet s t) (g : Quiet t u) : Quiet s u :=
  ⟨g.pending.trans h.pending, g.tick.trans h.tick, g.bids.trans h.bids, g.msgs.trans h.msgs⟩

theorem State.markPage_quiet (s : State) (lp pg : Nat) : Quiet s (s.markPage lp pg) := by
  unfold State.markPage
  split
  · exact Quiet.refl s
  · split <;> exact ⟨rfl, rfl, rfl, rfl⟩

theorem State.markPages_quiet (s : State) (lp : Nat) (pool : Option Nat) (len : Nat) : Quiet s (s.markPages lp pool len) := by
  unfold State.markPages
  split
  · exact Quiet.refl s
  · exact List.foldlRecOn _ _ (Quiet.refl s) (fun t h i _ => h.trans (State.markPage_quiet t _ _))

theorem State.dropCount_quiet (s : State) (lp : Nat) (rd : Bool) : Quiet s (s.dropCount lp rd) := by
  have hcount : Quiet s (s.bump (if rd then Fld.portLpDropStatRdPoison lp else Fld.portLpDropStatWrSuspect lp)) := ⟨rfl, rfl, rfl, rfl⟩
  unfold State.dropCount
  generalize s.bump (if rd then Fld.portLpDropStatRdPoison lp else Fld.portLpDropStatWrSuspect lp) = u at hcount
  dsimp only
  by_cases h : (u.lnk lp).dropAt.isNone
  · rw [if_pos h]
    exact hcount
  · rw [if_neg h]
    exact hcount.trans ⟨rfl, rfl, rfl, rfl⟩

theorem State.closeTxn_quiet (s : State) (k : Nat) : Quiet s (s.closeTxn k) := by
  unfold State.closeTxn
  split
  · exact Quiet.refl s
  · dsimp only
    split <;> exact ⟨rfl, rfl, rfl, rfl⟩

theorem State.closeIfDone_quiet (s : State) (k : Nat) : Quiet s (s.closeIfDone k) := by
  unfold State.closeIfDone
  split
  · split
    · exact State.closeTxn_quiet s k
    · exact Quiet.refl s
  · exact Quiet.refl s

theorem State.modMove_quiet (s : State) (c v : Nat) (f : HMove → HMove) : Quiet s (s.modMove c v f) := ⟨rfl, rfl, rfl, rfl⟩

theorem State.moveEnd_quiet (s : State) (c v : Nat) : Quiet s (s.moveEnd c v) := by
  unfold State.moveEnd
  split
  · exact Quiet.refl s
  · dsimp only
    split
    · refine Quiet.trans ?_ (State.closeIfDone_quiet _ _)
      exact ⟨rfl, rfl, rfl, rfl⟩
    · exact State.modMove_quiet s c v _

/-- A write of a gathered line, which bids from the tick after `t`. -/
def Gathered (t : Nat) (x : Msg) : Prop := x.origin = .harrow ∧ x.stage = .bid ∧ x.firstBid = t + 1

/-- Time and the bid list are as before; what comes after the messages are gathered writes. -/
structure Gathers (s t : State) : Prop where
  pending : t.pending = s.pending
  tick : t.tick = s.tick
  bids : t.dp.bids = s.dp.bids
  msgs : ∃ l, t.dp.msgs = s.dp.msgs ++ l ∧ ∀ x ∈ l, Gathered s.tick x

theorem Quiet.gathers {s t : State} (h : Quiet s t) : Gathers s t :=
  ⟨h.pending, h.tick, h.bids, [], h.msgs.trans (List.append_nil _).symm, fun _ hx => absurd hx List.not_mem_nil⟩

theorem Gathers.trans {s t u : State} (h : Gathers s t) (g : Gathers t u) : Gathers s u := by
  obtain ⟨l, hl, hlall⟩ := h.msgs
  obtain ⟨k, hk, hkall⟩ := g.msgs
  refine ⟨g.pending.trans h.pending, g.tick.trans h.tick, g.bids.trans h.bids, l ++ k, ?_, fun x hx => ?_⟩
  · rw [hk, hl, List.append_assoc]
  · exact (List.mem_append.1 hx).elim (hlall x) (fun hx => h.tick ▸ hkall x hx)

theorem State.moveWrite_gathers (s : State) (c : Nat) (v : HMove) : Gathers s (s.moveWrite c v) := by
  unfold State.moveWrite
  split
  · dsimp only
    split
    · exact ((State.modMove_quiet s c v.id _).trans ((State.markPages_quiet _ _ _ _).trans ((State.dropCount_quiet _ _ _).trans
        (State.moveEnd_quiet _ _ _)))).gathers
    · refine ⟨rfl, rfl, rfl, [_], rfl, fun x hx => ?_⟩
      obtain rfl := List.mem_singleton.1 hx
      exact ⟨rfl, rfl, rfl⟩
  · exact (Quiet.refl s).gathers

theorem State.harGather_gathers (s : State) (c : Nat) : Gathers s (s.harGather c) := by
  unfold State.harGather
  split
  · exact (Quiet.refl s).gathers
  · split
    · exact (Quiet.refl s).gathers
    · exact List.foldlRecOn _ _ (⟨rfl, rfl, rfl, rfl⟩ : Quiet s (s.modHar c _)).gathers (fun t h v _ => h.trans (State.moveWrite_gathers t c v))

/-- A channel without moves gathers nothing. -/
theorem State.harGather_of_no_moves {s : State} {c : Nat} (h : (s.har c).moves = []) : s.harGather c = s := by
  have hnone : s.nextBurst c = [] := by simp only [State.nextBurst, h, List.filter_nil]
  unfold State.harGather
  rw [hnone]
  split <;> rfl

/-! ### Charges (R273) -/

/-- Nothing but registers and the levels kept for reads differs. -/
def LevelsOnly (s t : State) : Prop := t = { s with regs := t.regs, xb := { s.xb with levels := t.xb.levels } }

theorem LevelsOnly.refl (s : State) : LevelsOnly s s := rfl

theorem LevelsOnly.trans {s t u : State} (h : LevelsOnly s t) (g : LevelsOnly t u) : LevelsOnly s u :=
  Eq.trans g ((congrArg (fun v : State => { v with regs := u.regs, xb := { v.xb with levels := u.xb.levels } }) h).trans rfl)

theorem LevelsOnly.dp {s t : State} (h : LevelsOnly s t) : t.dp = s.dp := by rw [h]

theorem State.setLevel_levelsOnly (s : State) (a : Nat) (v : Int) : LevelsOnly s (s.setLevel a v) := by
  unfold State.setLevel State.keepLevel
  split <;> rfl

theorem State.chargeBucket_levelsOnly (s : State) (b : Bucket) (n : Int) : LevelsOnly s (s.chargeBucket b n) := by
  unfold State.chargeBucket
  split
  · exact State.setLevel_levelsOnly s _ _
  · rfl

theorem State.charge_levelsOnly (s : State) (m : Msg) (sign : Int) : LevelsOnly s (s.charge m sign) := by
  have hbuckets : LevelsOnly s (if m.rank = 1 && m.hasSc then
      ((s.chargeBucket (s.scBucket m.cls.sc) (sign * (s.counted m : Int))).chargeBucket (s.plotBucket m.cls.plot)
        (sign * (s.counted m : Int))).chargeBucket (s.portBucket m.out) (sign * (s.counted m : Int))
      else s) := by
    split
    · exact (State.chargeBucket_levelsOnly s _ _).trans ((State.chargeBucket_levelsOnly _ _ _).trans
        (State.chargeBucket_levelsOnly _ _ _))
    · rfl
  exact hbuckets.trans rfl

/-! ### The passes of the bid list (R264, R275, R277) -/

/-- A message but for the mark that its SELF is counted. -/
def Msg.unmarked (x : Msg) : Msg := { x with self := false }

/-- Message `k` may stand in the bid list of this tick. -/
def Listable (s : State) (k : Nat) : Prop := ∃ x ∈ s.dp.msgs, x.id = k ∧ x.stage = .bid ∧ x.firstBid ≤ s.tick ∧
  (x.rank ≤ 2 ∨ ∃ c, k ∈ (s.har c).burst)

/-- In `t` the bid list of state `s` is under way. -/
structure Placing (s t : State) : Prop where
  frame : t = { s with regs := t.regs, xb := { s.xb with levels := t.xb.levels },
                       dp := { s.dp with msgs := t.dp.msgs, bids := t.dp.bids, qin := [], rsvUp := t.dp.rsvUp } }
  msgs : t.dp.msgs.map Msg.unmarked = s.dp.msgs.map Msg.unmarked
  listable : ∀ k ∈ t.dp.bids, Listable s k

namespace Placing

variable {s t : State}

theorem har (h : Placing s t) (c : Nat) : t.har c = s.har c := by rw [h.frame]; rfl

theorem tick (h : Placing s t) : t.tick = s.tick := by rw [h.frame]

theorem levels {u : State} (h : Placing s t) (g : LevelsOnly t u) : Placing s u := by
  have hdp := g.dp
  refine ⟨?_, by rw [hdp]; exact h.msgs, by rw [hdp]; exact h.listable⟩
  rw [hdp]
  exact Eq.trans g ((congrArg (fun v : State => { v with regs := u.regs, xb := { v.xb with levels := u.xb.levels } }) h.frame).trans rfl)

theorem mark (h : Placing s t) (f : Fd) (m : Nat) : Placing s ((t.bump f).modMsg m (fun x => { x with self := true })) := by
  refine ⟨?_, ?_, h.listable⟩
  · exact (congrArg (fun v : State => (v.bump f).modMsg m (fun x => { x with self := true })) h.frame).trans rfl
  · rw [← h.msgs]
    refine (List.map_map ..).trans (List.map_congr_left fun x _ => ?_)
    simp only [Function.comp_apply]
    split <;> rfl

theorem list (h : Placing s t) {k : Nat} (hk : Listable s k) : Placing s { t with dp := { t.dp with bids := t.dp.bids ++ [k] } } := by
  refine ⟨?_, h.msgs, fun i hi => ?_⟩
  · exact (congrArg (fun v : State => ({ v with dp := { v.dp with bids := v.dp.bids ++ [k] } } : State)) h.frame).trans rfl
  · exact (List.mem_append.1 hi).elim (h.listable i) (fun hi => List.mem_singleton.1 hi ▸ hk)

/-- A message of the list under way is, but for its mark, one of the messages it began with. -/
theorem origin (h : Placing s t) {m : Msg} (hm : m ∈ t.dp.msgs) : ∃ x ∈ s.dp.msgs, x.unmarked = m.unmarked :=
  List.mem_map.1 (h.msgs ▸ List.mem_map_of_mem hm)

theorem listable_of_mayBid (h : Placing s t) {m : Msg} (hstands : ∃ x ∈ s.dp.msgs, x.unmarked = m.unmarked) (hmay : t.mayBid m = true)
    (hrank : m.rank ≤ 2 ∨ ∃ c, m.id ∈ (s.har c).burst) : Listable s m.id := by
  obtain ⟨x, hx, hsame⟩ := hstands
  simp only [State.mayBid, Bool.and_eq_true, decide_eq_true_eq] at hmay
  obtain ⟨⟨⟨⟨⟨⟨⟨⟨hstage, hfirst⟩, -⟩, -⟩, -⟩, -⟩, -⟩, -⟩, -⟩ := hmay
  have hid : x.id = m.id := (congrArg Msg.id hsame :)
  have hxstage : x.stage = m.stage := (congrArg Msg.stage hsame :)
  have hxfirst : x.firstBid = m.firstBid := (congrArg Msg.firstBid hsame :)
  have hxrank : x.rank = m.rank := (congrArg Msg.rank hsame :)
  exact ⟨x, hx, hid, hxstage.trans hstage, hxfirst ▸ h.tick ▸ hfirst, hxrank ▸ hrank⟩

theorem place (h : Placing s t) {m : Msg} (hstands : ∃ x ∈ s.dp.msgs, x.unmarked = m.unmarked) (hrank : m.rank ≤ 2) :
    Placing s (t.place m) := by
  unfold State.place
  split
  · exact h
  · rename_i hmay
    have hlist := h.listable_of_mayBid hstands (by simpa using hmay) (.inl hrank)
    split
    · unfold State.when
      split
      · exact h.mark _ _
      · exact h
    · split
      · exact h
      · exact (h.levels (State.charge_levelsOnly t m 1)).list hlist

theorem placeLocked (h : Placing s t) {c : Nat} : Placing s (t.placeLocked (t.har c)) := by
  unfold State.placeLocked
  dsimp only
  generalize hlines : (t.har c).burst.filterMap t.msg? = lines
  cases lines with
  | nil => exact h
  | cons m rest =>
    dsimp only
    split
    · rename_i hmay
      simp only [Bool.and_eq_true, List.all_eq_true] at hmay
      obtain ⟨⟨hall, -⟩, -⟩ := hmay
      refine List.foldlRecOn _ _ h (fun u hu x hx => ?_)
      have hxline : x ∈ (t.har c).burst.filterMap t.msg? := hlines ▸ List.mem_of_mem_take hx
      obtain ⟨i, hi, hxi⟩ := List.mem_filterMap.1 hxline
      have hburst : x.id ∈ (s.har c).burst := by rw [msg_id hxi, ← h.har]; exact hi
      have hlist := h.listable_of_mayBid (h.origin (List.mem_of_find?_eq_some hxi)) (hall x hx) (.inr ⟨c, hburst⟩)
      exact (hu.levels (State.charge_levelsOnly u x 1)).list hlist
    · exact h

theorem placeHar (h : Placing s t) {m : Msg} (hstands : ∃ x ∈ s.dp.msgs, x.unmarked = m.unmarked) (hrank : m.rank ≤ 2) :
    Placing s (t.placeHar m) := by
  unfold State.placeHar
  split
  · exact h.place hstands hrank
  · rename_i b k hplace
    obtain ⟨c, hb⟩ : ∃ c, b = t.har c := by
      simp only [State.burstPlace, Option.bind_eq_some_iff] at hplace
      obtain ⟨y, -, hy⟩ := hplace
      split at hy
      · obtain ⟨k', -, hk⟩ := Option.map_eq_some_iff.1 hy
        exact ⟨y.1, (congrArg Prod.fst hk).symm⟩
      · exact absurd hy (by simp)
    split
    · split
      · rw [hb]
        exact h.placeLocked
      · exact h
    · split
      · exact h.place hstands hrank
      · exact h

end Placing

theorem mem_insertBid {keys : Msg → List Nat} {m x : Msg} {l : List Msg} (h : x ∈ insertBid keys m l) : x = m ∨ x ∈ l := by
  induction l with
  | nil => exact .inl (List.mem_singleton.1 h)
  | cons y l ih =>
    unfold insertBid at h
    split at h
    · exact List.mem_cons.1 h
    · refine (List.mem_cons.1 h).elim (fun h => .inr (h ▸ List.mem_cons_self ..)) (fun h => ?_)
      exact (ih h).imp_right (List.mem_cons_of_mem _)

theorem mem_foldl_insertBid {keys : Msg → List Nat} {x : Msg} (l acc : List Msg)
    (h : x ∈ l.foldl (fun acc m => insertBid keys m acc) acc) : x ∈ acc ∨ x ∈ l := by
  induction l generalizing acc with
  | nil => exact .inl h
  | cons y l ih =>
    rcases ih _ h with h | h
    · exact (mem_insertBid h).elim (fun h => .inr (h ▸ List.mem_cons_self ..)) .inl
    · exact .inr (List.mem_cons_of_mem _ h)

theorem Placing.placePort {s t : State} (h : Placing s t) {r : Nat} (hr : r ≤ 2) (e : Nat) : Placing s (t.placePort r e) := by
  unfold State.placePort
  refine List.foldlRecOn _ _ h (fun u hu m hm => ?_)
  have hm' := (mem_foldl_insertBid _ _ hm).resolve_left List.not_mem_nil
  obtain ⟨hmem, hkeep⟩ := List.mem_filter.1 hm'
  have hrank : m.rank ≤ 2 := by
    simp only [decide_eq_true_eq] at hkeep
    omega
  have hstands := h.origin hmem
  split
  · exact hu.placeHar hstands hrank
  · exact hu.place hstands hrank

theorem Placing.placePorts {s t : State} (h : Placing s t) {r : Nat} (hr : r ≤ 2) (l : List Nat) :
    Placing s (l.foldl (fun s e => s.placePort r e) t) :=
  List.foldlRecOn _ _ h (fun _ hu e _ => hu.placePort hr e)

/-- The list before its passes: what an earlier list was charged is given back. -/
def State.bidsCleared (s : State) : State :=
  let s := s.dp.bids.foldl (fun s i => match s.msg? i with
    | some m => s.charge m (-1)
    | none => s) s
  { s with dp := { s.dp with bids := [], qin := [], rsvUp := s.rsvAbove } }

theorem State.bidsCleared_placing (s : State) : Placing s s.bidsCleared := by
  have hback : LevelsOnly s (s.dp.bids.foldl (fun s i => match s.msg? i with
      | some m => s.charge m (-1)
      | none => s) s) := by
    refine List.foldlRecOn _ _ (LevelsOnly.refl s) (fun t h i _ => ?_)
    split
    · exact h.trans (State.charge_levelsOnly t _ _)
    · exact h
  unfold State.bidsCleared
  obtain ⟨u, hu⟩ : ∃ u, u = s.dp.bids.foldl (fun s i => match s.msg? i with
      | some m => s.charge m (-1)
      | none => s) s := ⟨_, rfl⟩
  rw [← hu] at hback ⊢
  refine ⟨?_, congrArg (·.map Msg.unmarked) (congrArg Datapath.msgs hback.dp), fun _ hk => absurd hk List.not_mem_nil⟩
  dsimp only
  rw [hback.dp]
  exact (congrArg (fun v : State => { v with dp := { s.dp with bids := [], qin := [], rsvUp := u.rsvAbove } }) hback).trans rfl

/-- The bid list after the passes of ranks 2, 1 and 0. -/
def State.bidsPlaced (s : State) : State :=
  let s := s.bidsCleared
  let s := (s.walk 2).foldl (fun s e => s.placePort 2 e) s
  let s := (s.walk 1).foldl (fun s e => s.placePort 1 e) s
  (s.walk 0).foldl (fun s e => s.placePort 0 e) s

theorem State.bidsPlaced_placing (s : State) : Placing s s.bidsPlaced :=
  (((State.bidsCleared_placing s).placePorts (by decide) _).placePorts (by decide) _).placePorts (by decide) _

/-- The whole of BID_LIST_BUILD. -/
def State.buildBids (s : State) : State := (List.range 4).foldl (fun s c => s.harGather c) s.bidsPlaced

theorem exec_bidListBuild (s : State) : exec .bidListBuild s = act s (·.buildBids) := rfl

theorem bidListBuild_lists (s : State) : Completes .bidListBuild s (fun t =>
    (∀ k ∈ t.dp.bids, ∃ x ∈ s.dp.msgs, x.id = k ∧ x.stage = .bid ∧ x.firstBid ≤ s.tick ∧
      (x.rank ≤ 2 ∨ ∃ c, k ∈ (s.har c).burst)) ∧
    (∃ l, t.dp.msgs.map (fun x => { x with self := false }) = s.dp.msgs.map (fun x => { x with self := false }) ++ l ∧
      ∀ x ∈ l, x.origin = .harrow ∧ x.stage = .bid ∧ x.firstBid = s.tick + 1) ∧
    ((∀ c, c < 4 → (s.har c).moves = []) → t.dp.msgs.length = s.dp.msgs.length ∧
      t = { s with regs := t.regs, xb := { s.xb with levels := t.xb.levels },
                   dp := { s.dp with msgs := t.dp.msgs, bids := t.dp.bids, qin := [], rsvUp := t.dp.rsvUp } })) := by
  have hplacing := State.bidsPlaced_placing s
  obtain ⟨u, hu⟩ : ∃ u, u = s.bidsPlaced := ⟨_, rfl⟩
  have hgathers : Gathers u s.buildBids := by
    rw [hu]
    exact List.foldlRecOn _ _ (Quiet.refl _).gathers (fun t h c _ => h.trans (State.harGather_gathers t c))
  rw [← hu] at hplacing
  have hpending : u.pending = s.pending := by rw [hplacing.frame]
  obtain ⟨l, hl, hlall⟩ := hgathers.msgs
  refine Completes.of_eq _ (exec_bidListBuild s) rfl (hgathers.pending.trans hpending) (hgathers.tick.trans hplacing.tick)
    ⟨fun k hk => hplacing.listable k (hgathers.bids ▸ hk), ⟨l.map Msg.unmarked, ?_, fun x hx => ?_⟩, fun hnone => ?_⟩
  · rw [hl, List.map_append]
    exact congrArg (· ++ _) hplacing.msgs
  · obtain ⟨y, hy, rfl⟩ := List.mem_map.1 hx
    exact hplacing.tick ▸ hlall y hy
  · have hsame : s.buildBids = u := by
      rw [State.buildBids, ← hu]
      refine foldl_id _ _ _ (fun c hc => State.harGather_of_no_moves ?_)
      rw [hplacing.har]
      exact hnone c (List.mem_range.1 hc)
    rw [hsame]
    exact ⟨by simpa using congrArg List.length hplacing.msgs, hplacing.frame⟩

/-! ### A message that bids alone (R243 to R248) -/

theorem State.walk_nodup (s : State) (r : Nat) : (s.walk r).Nodup := by
  refine List.Nodup.map_on (fun i hi j hj h => ?_) List.nodup_range
  have hi' := List.mem_range.1 hi
  have hj' := List.mem_range.1 hj
  omega

theorem State.mem_walk (s : State) (r : Nat) {e : Nat} (he : e < 64) : e ∈ s.walk r := by
  refine List.mem_map.2 ⟨(e + 64 - s.getF (ptrFd r) % 64) % 64, List.mem_range.2 (Nat.mod_lt _ (by decide)), ?_⟩
  omega

/-- The bid list holds message `m` alone, of rank `r` and toward port `e`. -/
def BidsAlone (s : State) (m r e : Nat) : Prop := s.dp.bids = [m] ∧ ∃ y, s.msg? m = some y ∧ y.rank = r ∧ y.out = e

theorem BidsAlone.bidsOf {s : State} {m r e : Nat} (h : BidsAlone s m r e) (r' e' : Nat) :
    s.bidsOf r' e' = if r = r' ∧ e = e' then [m] else [] := by
  obtain ⟨hbids, y, hy, rfl, rfl⟩ := h
  by_cases hsame : y.rank = r' ∧ y.out = e' <;> simp [State.bidsOf, hbids, hy, hsame]

/-- A rank without the message does nothing. -/
theorem Arb.runRank_of_other {a : Arb} {m r e : Nat} (h : BidsAlone a.s m r e) (hfirst : a.first = none) {r' : Nat} (hr : r ≠ r') :
    a.runRank r' = a := by
  have hfold : (a.s.walk r').foldl (fun b e' => b.runList (b.s.bidsOf r' e')) a = a :=
    foldl_id _ _ _ (fun e' _ => by rw [h.bidsOf, if_neg (fun hc => hr hc.1)]; rfl)
  rw [Arb.runRank, hfold, Arb.movePtr, hfirst]

/-- The message's own rank grants it, at its port's place of the walk. -/
theorem Arb.runRank_of_own {a b : Arb} {m r e : Nat} (h : BidsAlone a.s m r e) (he : e < 64) (hgrant : a.runList [m] = b)
    (hb : BidsAlone b.s m r e) (hfirst : b.first = none) : a.runRank r = b := by
  obtain ⟨l1, l2, hwalk⟩ := List.append_of_mem (State.mem_walk a.s r he)
  have hnodup := hwalk ▸ State.walk_nodup a.s r
  have hl1 : ∀ e' ∈ l1, e ≠ e' := fun e' he' hc => (List.nodup_append.1 hnodup).2.2 e' he' e (List.mem_cons_self ..) hc.symm
  have hl2 : ∀ e' ∈ l2, e ≠ e' := fun e' he' hc => (List.nodup_cons.1 (List.nodup_append.1 hnodup).2.1).1 (hc ▸ he')
  have hbefore : l1.foldl (fun b e' => b.runList (b.s.bidsOf r e')) a = a :=
    foldl_id _ _ _ (fun e' he' => by rw [h.bidsOf, if_neg (fun hc => hl1 e' he' hc.2)]; rfl)
  have hafter : l2.foldl (fun b e' => b.runList (b.s.bidsOf r e')) b = b :=
    foldl_id _ _ _ (fun e' he' => by rw [hb.bidsOf, if_neg (fun hc => hl2 e' he' hc.2)]; rfl)
  have hfold : (a.s.walk r).foldl (fun b e' => b.runList (b.s.bidsOf r e')) a = b := by
    rw [hwalk, List.foldl_append, hbefore, List.foldl_cons, h.bidsOf, if_pos ⟨rfl, rfl⟩, hgrant, hafter]
  rw [Arb.runRank, hfold, Arb.movePtr, hfirst]

theorem Arb.lockedBurst_of_empty {a : Arb} {c : Nat} (h : (a.s.har c).burst = []) : a.lockedBurst c = a := by
  unfold Arb.lockedBurst
  dsimp only
  split
  · rw [h]
    rfl
  · rfl

/-- With no burst a message's need is its own first tick. -/
theorem State.bidNeed_of_no_burst {s : State} (hburst : ∀ c, (s.har c).burst = []) (x : Msg) : s.bidNeed x = x.bidGrant := by
  have hnone : s.burstPlace x = none := by
    simp only [State.burstPlace, hburst, List.idxOf?_nil, Option.map_none, ite_self, Option.bind_fun_none]
  rw [State.bidNeed, hnone]

/-- A bid fits where nothing has been granted. -/
theorem State.fits_nil (s : State) (x : Msg) : s.fits [] x.bidGrant = true := by
  have hin : min 512 x.hdr.flitLen ≤ 512 := Nat.min_le_left ..
  have hbudget : s.outBudget x.outPort = (1024, 8) ∨ s.outBudget x.outPort = (512, 4) := by
    unfold State.outBudget
    split
    · exact .inl rfl
    · exact .inr rfl
  rcases hbudget with h | h <;>
    simp only [State.fits, fitsIn, State.fitsOut, usedIn, usedOut, Msg.bidGrant, h, List.filter_nil, List.map_nil, List.sum_nil, Nat.zero_add,
      Bool.and_eq_true, decide_eq_true_eq] <;> omega

/-- Only the harrow's table differs, and every channel reads as before. -/
def HarrowSame (s t : State) : Prop := (∀ c, t.har c = s.har c) ∧ t = { s with xb := { s.xb with harrow := t.xb.harrow } }

theorem HarrowSame.refl (s : State) : HarrowSame s s := ⟨fun _ => rfl, rfl⟩

theorem HarrowSame.trans {s t u : State} (h : HarrowSame s t) (g : HarrowSame t u) : HarrowSame s u :=
  ⟨fun c => (g.1 c).trans (h.1 c),
    Eq.trans g.2 ((congrArg (fun v : State => { v with xb := { v.xb with harrow := u.xb.harrow } }) h.2).trans rfl)⟩

theorem State.burstEnd_of_empty {s : State} {c : Nat} (h : (s.har c).burst = []) : HarrowSame s (s.burstEnd c) := by
  have hsame : s.burstEnd c = s.modHar c (fun x => { x with burst := [], started := x.started || decide (0 < 0) }) := by
    simp only [State.burstEnd, h, List.filter_nil, List.any_nil, Bool.and_false, State.when, Bool.false_eq_true, if_false,
      List.length_nil]
  rw [hsame]
  refine ⟨fun k => ?_, rfl⟩
  rw [State.har_modHar]
  split
  · rename_i hk
    rw [hk, ← h]
    simp
  · rfl

/-- The state after the one message of the list has been granted. -/
def State.grantedAlone (s : State) (m : Nat) (x : Msg) : State :=
  let u := ({ s with dp := { s.dp with cont := [], arbAt := some s.tick } } : State).modMsg m (fun y => { y with stage := .granted, since := s.tick })
  { u with dp := { u.dp with cont := if 512 < x.hdr.flitLen then [m] else [] } }

section
variable {s : State} {m : Nat} {x : Msg} (hbids : s.dp.bids = [m]) (hmsg : s.msg? m = some x) (hrank : x.rank ≤ 2) (hout : x.out < 64)
  (hcont : s.dp.cont = []) (hburst : ∀ c, (s.har c).burst = [])
include hmsg hburst

/-- The list's one message wins where no grant stands. -/
theorem Arb.runList_alone (hcont : s.dp.cont = []) : (s.arbStart.runList [m]).s = s.grantedAlone m x ∧ (s.arbStart.runList [m]).first = none := by
  have hid := msg_id hmsg
  have hgs : s.arbStart.gs = [] := by simp only [State.arbStart, hcont, List.filterMap_nil]
  have hstart : s.arbStart.s.msg? m = some x := hmsg
  have hneed : s.arbStart.s.bidNeed x = x.bidGrant := State.bidNeed_of_no_burst hburst x
  have hrun : s.arbStart.runList [m] = s.arbStart.win x := by
    simp only [Arb.runList, hstart, hneed, hgs, State.fits_nil, if_true]
  rw [hrun]
  refine ⟨?_, rfl⟩
  subst hid
  unfold Arb.win State.grantedAlone
  dsimp only
  split <;> rfl

omit hburst in
theorem State.grantedAlone_shows : MsgOnly { s with dp := { s.dp with cont := if 512 < x.hdr.flitLen then [m] else [], arbAt := some s.tick } }
    (s.grantedAlone m x) m { x with stage := .granted, since := s.tick } :=
  MsgOnly.modMsg (s := { s with dp := { s.dp with cont := if 512 < x.hdr.flitLen then [m] else [], arbAt := some s.tick } }) hmsg
    (fun y => { y with stage := .granted, since := s.tick }) (fun _ => rfl)

include hbids hrank hout hcont

theorem Arb.run_alone : s.arbStart.run.s = s.grantedAlone m x := by
  obtain ⟨hgranted, hfirst⟩ := Arb.runList_alone hmsg hburst hcont
  obtain ⟨b, hb⟩ : ∃ b, b = s.arbStart.runList [m] := ⟨_, rfl⟩
  rw [← hb] at hgranted hfirst
  have hbefore : BidsAlone s.arbStart.s m x.rank x.out := ⟨hbids, x, hmsg, rfl, rfl⟩
  have hafter : BidsAlone b.s m x.rank x.out := by
    rw [hgranted]
    exact ⟨hbids, _, (State.grantedAlone_shows hmsg).2.1, rfl, rfl⟩
  have hown : s.arbStart.runRank x.rank = b := Arb.runRank_of_own hbefore hout hb.symm hafter hfirst
  have hlocked : (List.range 4).foldl (fun a c => a.lockedBurst c) s.arbStart = s.arbStart :=
    foldl_id _ _ _ (fun c _ => Arb.lockedBurst_of_empty (hburst c))
  have hrun : s.arbStart.run = b := by
    unfold Arb.run
    rw [hlocked]
    have hcases : x.rank = 0 ∨ x.rank = 1 ∨ x.rank = 2 := by omega
    rcases hcases with hr | hr | hr <;> rw [hr] at hbefore hafter hown
    · rw [Arb.runRank_of_other hbefore rfl (by decide), Arb.runRank_of_other hbefore rfl (by decide), hown]
    · rw [Arb.runRank_of_other hbefore rfl (by decide), hown, Arb.runRank_of_other hafter hfirst (by decide)]
    · rw [hown, Arb.runRank_of_other hafter hfirst (by decide), Arb.runRank_of_other hafter hfirst (by decide)]
  rw [hrun, hgranted]

end

theorem arbitrate_grants (s : State) (m : Nat) (x : Msg) (hfresh : s.dp.arbAt ≠ some s.tick) (hbids : s.dp.bids = [m])
    (hmsg : s.msg? m = some x) (_ : x.stage = .bid) (hrank : x.rank ≤ 2) (hout : x.out < 64) (hcont : s.dp.cont = [])
    (hburst : ∀ c, (s.har c).burst = []) :
    Completes .arbitrate s (fun t =>
      t.msg? m = some { x with stage := .granted, since := s.tick } ∧ (∀ k, k ≠ m → t.msg? k = s.msg? k) ∧
      (∀ c, t.har c = s.har c) ∧
      t = { s with xb := { s.xb with harrow := t.xb.harrow },
                   dp := { s.dp with msgs := t.dp.msgs, bids := [], arbAt := some s.tick, cont := if 512 < x.hdr.flitLen then [m] else [] } }) := by
  obtain ⟨hframe, hnew, hothers⟩ := State.grantedAlone_shows hmsg
  obtain ⟨u, hu⟩ : ∃ u, u = s.grantedAlone m x := ⟨_, rfl⟩
  obtain ⟨v, hv⟩ : ∃ v, v = (List.range 4).foldl (fun s c => s.burstEnd c) u := ⟨_, rfl⟩
  have hsame : HarrowSame u v := by
    rw [hv]
    refine List.foldlRecOn _ _ (HarrowSame.refl u) (fun t h c _ => h.trans (State.burstEnd_of_empty ?_))
    rw [h.1 c, hu]
    exact hburst c
  rw [← hu] at hframe hnew hothers
  have hvdp : v.dp = u.dp := by rw [hsame.2]
  have hvmsg : ∀ k, v.msg? k = u.msg? k := msgs_congr (congrArg Datapath.msgs hvdp)
  have hvbids : v.dp.bids = [m] := by rw [hvdp, hframe]; exact hbids
  have hgive : v.giveBack = { v with dp := { v.dp with bids := [] } } := by
    simp only [State.giveBack, hvbids, List.foldl_cons, List.foldl_nil, hvmsg, hnew, reduceCtorEq, if_false]
  have hstep : s.when (decide (s.dp.arbAt ≠ some s.tick)) (·.arbitrate) = { v with dp := { v.dp with bids := [] } } := by
    rw [State.when, if_pos (decide_eq_true hfresh), State.arbitrate, Arb.run_alone hbids hmsg hrank hout hcont hburst, ← hu, ← hv, hgive]
  have hall : ({ v with dp := { v.dp with bids := [] } } : State) = { s with
      xb := { s.xb with harrow := v.xb.harrow },
      dp := { s.dp with msgs := u.dp.msgs, bids := [], arbAt := some s.tick, cont := if 512 < x.hdr.flitLen then [m] else [] } } := by
    rw [hvdp]
    refine (congrArg (fun w : State => { w with dp := { u.dp with bids := [] } }) hsame.2).trans ?_
    exact (congrArg (fun w : State => { w with xb := { w.xb with harrow := v.xb.harrow }, dp := { w.dp with bids := [] } }) hframe).trans rfl
  refine Completes.of_eq (f := fun s => s.when (decide (s.dp.arbAt ≠ some s.tick)) (·.arbitrate)) _ rfl hstep (by rw [hall]) (by rw [hall])
    ⟨(hvmsg m).trans hnew, fun k hk => (hvmsg k).trans (hothers k hk), fun c => (hsame.1 c).trans ?_, ?_⟩
  · rw [hu]
    rfl
  · rw [hall]

/-- Settles O34: the passes of the bid list place only messages of this tick's candidates, and a message alone in the list wins in the one
rank and at the one port of the walk that are its own. -/
theorem bidsAreListedAndGranted : Obligations.BidsAreListedAndGranted := by
  unfold Obligations.BidsAreListedAndGranted
  refine ⟨bidListBuild_lists, arbitrate_grants, fun s h => ?_⟩
  exact exec_of_act (f := fun s => s.when (decide (s.dp.arbAt ≠ some s.tick)) (·.arbitrate)) s rfl
    (if_neg (by simp [h])) rfl rfl

end Sys2Proof.Machine
end

section
/-! SUPPORT. The harrow's channels (O38, O39). -/

open Sys2Proof Sys2Proof.Machine

namespace Sys2Proof.Machine

/-! ### A channel's state field (R269) -/

/-- A field that is neither a channel's STATE nor GLOBAL.RATE_SUM keeps its value when the channel's state is set. -/
theorem State.getF_setHarState_ne (s : State) (c v : Nat) (g : Fd) (hstat : g.addr ≠ Reg.harrowStat c ∨ 3 ≤ g.lo) (hsum : g.addr ≠ Reg.harrowGlobal) :
    (s.setHarState c v).getF g = s.getF g := by
  rw [State.setHarState, State.rateSum, State.getF_setF_ne _ _ _ _ (.inl hsum),
    State.getF_setF_ne _ _ _ _ (hstat.imp id fun h => .inr h)]

theorem State.harState_setHarState (s : State) {c v : Nat} (_hc : c < 4) (hv : v < 8) : (s.setHarState c v).harState c = v := by
  have hsum : (Fld.harrowStatState c).addr ≠ Fld.harrowGlobalRateSum.addr := by
    simp only [Fld.harrowStatState, Reg.harrowStat, Fld.harrowGlobalRateSum, Reg.harrowGlobal]; omega
  rw [State.harState, State.setHarState, State.rateSum, State.getF_setF_ne _ _ _ _ (.inl hsum)]
  exact getF_fit _ _ _ (by simp [Fld.harrowStatState]) hv

theorem State.setHarState_regs (s : State) (c v : Nat) : RO s (s.setHarState c v) := ((RO.refl s).stepF _ _).stepF _ _

theorem State.setHarState_only {s t : State} {fs : List Fd} (c v : Nat) (h : OnlyFields s t fs) (hstate : Fld.harrowStatState c ∈ fs)
    (hsum : Fld.harrowGlobalRateSum ∈ fs) : OnlyFields s (t.setHarState c v) fs :=
  (h.stepF _ _ hstate).stepF _ _ hsum

theorem State.har_setHarState (s : State) (c v k : Nat) : (s.setHarState c v).har k = s.har k := rfl

/-! ### GO (R260, R266) -/

theorem harrowGo_refused (s : State) (c : Chan) (e : Nat) (hrefusal : s.harRefusal c.val = some e) (he : e < 16) :
    Completes (.harrowGo c) s (fun t => t.getF (Fld.harrowStatRefused c.val) = 1 ∧ t.getF (Fld.harrowStatErr c.val) = e ∧
      RegsOnly s t [Fld.harrowStatRefused c.val, Fld.harrowStatErr c.val]) := by
  have hstep : s.harrowGo c.val = (s.setF (Fld.harrowStatRefused c.val) 1).setF (Fld.harrowStatErr c.val) e := by
    rw [State.harrowGo, hrefusal]
    rfl
  refine Completes.of_eq (f := (·.harrowGo c.val)) _ rfl hstep rfl rfl ⟨?_, ?_, rfl, ?_⟩
  · rw [State.getF_setF_ne _ _ _ _ (.inr (.inl (by simp [Fld.harrowStatRefused, Fld.harrowStatErr])))]
    exact getF_fit _ _ _ (by simp [Fld.harrowStatRefused]) (by simp [Fld.harrowStatRefused])
  · exact getF_fit _ _ _ (by simp [Fld.harrowStatErr]) he
  · exact ((OnlyFields.refl s _).stepF _ _ (by simp)).stepF _ _ (by simp)

theorem harrowGo_reserved (s : State) (c : Chan) (hidle : s.harState c.val = 0) (hop : s.getF (Fld.harrowCtlOp c.val) = 3) :
    Completes (.harrowGo c) s (fun t => t.getF (Fld.harrowStatErr c.val) = 7) := by
  have hrefusal : s.harRefusal c.val = some 7 := by simp [State.harRefusal, hidle, hop]
  obtain ⟨t, ht, -, herr, -⟩ := harrowGo_refused s c 7 hrefusal (by decide)
  exact ⟨t, ht, herr⟩

theorem harrowGo_fatal (s : State) (c : Chan) (hrefusal : s.harRefusal c.val = none) (hfatal : s.getF Fld.faultStatFatal = 1) :
    Completes (.harrowGo c) s (fun t => t.getF (Fld.harrowStatErr c.val) = 5 ∧ t.harState c.val = 5) := by
  have hc : c.val < 4 := c.isLt
  obtain ⟨u, hu⟩ : ∃ u, u = (if s.getF (Fld.harrowCtlResume c.val) = 1 then s else s.setF (Fld.harrowProgressLines c.val) 0) := ⟨_, rfl⟩
  have hregs : RO s u := by
    rw [hu]
    split
    · exact RO.refl s
    · exact (RO.refl s).stepF _ _
  have hufatal : u.getF Fld.faultStatFatal = 1 := by
    rw [hu]
    split
    · exact hfatal
    · rw [State.getF_setF_ne _ _ _ _ (.inl (by
        simp only [Fld.faultStatFatal, Reg.faultStat, Fld.harrowProgressLines, Reg.harrowProgress]; omega)), hfatal]
  obtain ⟨f, hf⟩ : ∃ f, s.harrowGo c.val = ((u.modHar c.val f).setF (Fld.harrowStatErr c.val) 0).harErr c.val 5 := by
    rw [State.harrowGo, hrefusal]
    dsimp only
    rw [← hu]
    refine ⟨_, if_pos (Eq.trans (State.getF_setF_ne _ _ _ _ (.inl ?_)) hufatal)⟩
    simp only [Fld.faultStatFatal, Reg.faultStat, Fld.harrowStatErr, Reg.harrowStat]; omega
  have hsum : (Fld.harrowStatErr c.val).addr ≠ Reg.harrowGlobal := by simp only [Fld.harrowStatErr, Reg.harrowStat, Reg.harrowGlobal]; omega
  refine Completes.of_eq (f := (·.harrowGo c.val)) _ rfl hf hregs.pending hregs.tick ⟨?_, State.harState_setHarState _ hc (by decide)⟩
  refine Eq.trans (State.getF_setHarState_ne _ _ _ _ (.inr ?_) hsum) (getF_fit _ _ _ ?_ ?_) <;> simp [Fld.harrowStatErr]

/-- A channel as an accepted GO without RESUME leaves it. -/
def State.harArmed (s : State) (c last : Nat) : HarrowCh := { s.har c with
  op := s.getF (Fld.harrowCtlOp c), src := s.getF (Fld.harrowSrcEntry c), dst := s.getF (Fld.harrowDstEntry c)
  budget := s.harRate c - (s.har c).spent, next := s.getF (Fld.harrowStartLine c), last := last, seen := false
  moves := (s.har c).moves.map (fun v => { v with counts := false }) }

/-- The last line of an accepted GO. -/
def State.goLast (s : State) (c : Nat) : Nat :=
  if s.getF (Fld.harrowCountLines c) = 0 then s.extentLines (s.getF (Fld.harrowSrcEntry c))
  else s.getF (Fld.harrowStartLine c) + s.getF (Fld.harrowCountLines c)

/-- PROGRESS cleared leaves every other register. -/
theorem State.rd_clearProgress (s : State) (c a : Nat) (h : a ≠ Reg.harrowProgress c) :
    (s.setF (Fld.harrowProgressLines c) 0).rd a = s.rd a := State.rd_setF_ne _ _ _ _ h

/-- The size of an extent is in the extent table and the pool table, which lie below the harrow's registers. -/
theorem State.extentLines_clearProgress (s : State) (c : Nat) {e : Nat} (_he : e < 2 ^ 17) :
    (s.setF (Fld.harrowProgressLines c) 0).extentLines e = s.extentLines e := by
  have hpool : (s.setF (Fld.harrowProgressLines c) 0).getF (Fld.extentXtW0Pool e) = s.getF (Fld.extentXtW0Pool e) :=
    getF_addr _ (State.rd_clearProgress s c _ (by simp only [Fld.extentXtW0Pool, Reg.extentXtW0, Reg.harrowProgress]; omega))
  have hbound : s.getF (Fld.extentXtW0Pool e) < 2 ^ 6 := getF_lt s (Fld.extentXtW0Pool e)
  have hxsz : (s.setF (Fld.harrowProgressLines c) 0).getF (Fld.extentPoolW0Xsz (s.getF (Fld.extentXtW0Pool e))) =
      s.getF (Fld.extentPoolW0Xsz (s.getF (Fld.extentXtW0Pool e))) :=
    getF_addr _ (State.rd_clearProgress s c _ (by simp only [Fld.extentPoolW0Xsz, Reg.extentPoolW0, Reg.harrowProgress]; omega))
  show (if (s.setF (Fld.harrowProgressLines c) 0).getF (Fld.extentPoolW0Xsz ((s.setF (Fld.harrowProgressLines c) 0).getF
    (Fld.extentXtW0Pool e))) = 1 then 2 ^ 30 else 2 ^ 28) / 64 = _
  rw [hpool, hxsz]
  rfl

theorem State.harrowGo_of_accepted {s : State} {c : Nat} (hrefusal : s.harRefusal c = none) (hc : c < 4)
    (hresume : s.getF (Fld.harrowCtlResume c) = 0) (hfatal : s.getF Fld.faultStatFatal = 0) : s.harrowGo c =
    (((s.setF (Fld.harrowProgressLines c) 0).modHar c (fun _ => s.harArmed c (s.goLast c))).setF (Fld.harrowStatErr c) 0).setHarState c
      (if s.goLast c ≤ s.getF (Fld.harrowStartLine c) then 3 else 1) := by
  obtain ⟨u, hu⟩ : ∃ u, u = s.setF (Fld.harrowProgressLines c) 0 := ⟨_, rfl⟩
  have hread : ∀ g : Fd, g.addr ≠ Reg.harrowProgress c → u.getF g = s.getF g := fun g hg => by
    rw [hu]
    exact getF_addr g (State.rd_clearProgress s c _ hg)
  have hprogress : u.getF (Fld.harrowProgressLines c) = 0 := by
    rw [hu, getF_fit _ _ _ (by simp [Fld.harrowProgressLines]) (by simp [Fld.harrowProgressLines])]
  have hsrc := hread (Fld.harrowSrcEntry c) (by simp only [Fld.harrowSrcEntry, Reg.harrowSrc, Reg.harrowProgress]; omega)
  have hdst := hread (Fld.harrowDstEntry c) (by simp only [Fld.harrowDstEntry, Reg.harrowDst, Reg.harrowProgress]; omega)
  have hop := hread (Fld.harrowCtlOp c) (by simp only [Fld.harrowCtlOp, Reg.harrowCtl, Reg.harrowProgress]; omega)
  have hstart := hread (Fld.harrowStartLine c) (by simp only [Fld.harrowStartLine, Reg.harrowStart, Reg.harrowProgress]; omega)
  have hcount := hread (Fld.harrowCountLines c) (by simp only [Fld.harrowCountLines, Reg.harrowCount, Reg.harrowProgress]; omega)
  have hrate : u.harRate c = s.harRate c := congrArg (max 1)
    (hread (Fld.harrowRateLines c) (by simp only [Fld.harrowRateLines, Reg.harrowRate, Reg.harrowProgress]; omega))
  have hlines : u.extentLines (s.getF (Fld.harrowSrcEntry c)) = s.extentLines (s.getF (Fld.harrowSrcEntry c)) := by
    rw [hu]
    exact State.extentLines_clearProgress s c (getF_lt s (Fld.harrowSrcEntry c))
  have hufatal : ∀ f, ((u.modHar c f).setF (Fld.harrowStatErr c) 0).getF Fld.faultStatFatal = 0 := fun f => by
    rw [State.getF_setF_ne _ _ _ _ (.inl (by simp only [Fld.faultStatFatal, Reg.faultStat, Fld.harrowStatErr, Reg.harrowStat]; omega))]
    exact (hread Fld.faultStatFatal (by simp only [Fld.faultStatFatal, Reg.faultStat, Reg.harrowProgress]; omega)).trans hfatal
  have hhar : ∀ k, u.har k = s.har k := fun k => by rw [hu]; rfl
  rw [State.harrowGo, hrefusal]
  dsimp only
  have hnoResume : ¬s.getF (Fld.harrowCtlResume c) = 1 := by omega
  rw [if_neg hnoResume, ← hu]
  simp only [hufatal, Nat.zero_ne_one, if_false]
  simp only [hsrc, hdst, hop, hstart, hcount, hrate, hlines, hprogress, Nat.add_zero, State.modHar, hhar, State.harArmed, State.goLast]
  rfl

theorem harrowGo_accepted (s : State) (c : Chan) (last : Nat) (hrefusal : s.harRefusal c.val = none)
    (hresume : s.getF (Fld.harrowCtlResume c.val) = 0) (hfatal : s.getF Fld.faultStatFatal = 0)
    (hlast : last = (if s.getF (Fld.harrowCountLines c.val) = 0 then s.extentLines (s.getF (Fld.harrowSrcEntry c.val))
      else s.getF (Fld.harrowStartLine c.val) + s.getF (Fld.harrowCountLines c.val))) :
    Completes (.harrowGo c) s (fun t =>
      t.getF (Fld.harrowProgressLines c.val) = 0 ∧ t.getF (Fld.harrowStatErr c.val) = 0 ∧
      t.harState c.val = (if last ≤ s.getF (Fld.harrowStartLine c.val) then 3 else 1) ∧
      t.har c.val = { s.har c.val with
        op := s.getF (Fld.harrowCtlOp c.val), src := s.getF (Fld.harrowSrcEntry c.val), dst := s.getF (Fld.harrowDstEntry c.val),
        budget := s.harRate c.val - (s.har c.val).spent, next := s.getF (Fld.harrowStartLine c.val), last := last, seen := false,
        moves := (s.har c.val).moves.map (fun v => { v with counts := false }) } ∧
      (∀ k, k ≠ c.val → t.har k = s.har k) ∧
      OnlyFields s t [Fld.harrowProgressLines c.val, Fld.harrowStatErr c.val, Fld.harrowStatState c.val, Fld.harrowGlobalRateSum] ∧
      t = { s with regs := t.regs, xb := { s.xb with harrow := t.xb.harrow } }) := by
  have hc : c.val < 4 := c.isLt
  obtain rfl : last = s.goLast c.val := hlast
  obtain ⟨u, hu⟩ : ∃ u, u = (s.setF (Fld.harrowProgressLines c.val) 0).modHar c.val (fun _ => s.harArmed c.val (s.goLast c.val)) := ⟨_, rfl⟩
  have hstep := State.harrowGo_of_accepted hrefusal hc hresume hfatal
  rw [← hu] at hstep
  have hframe : u = { s with regs := u.regs, xb := { s.xb with harrow := u.xb.harrow } } := by rw [hu]; rfl
  have honly : OnlyFields s u [Fld.harrowProgressLines c.val, Fld.harrowStatErr c.val, Fld.harrowStatState c.val, Fld.harrowGlobalRateSum] := by
    rw [hu]
    exact ((OnlyFields.refl s _).stepF (Fld.harrowProgressLines c.val) 0 (by simp)).of_regs rfl
  have hprogress : u.getF (Fld.harrowProgressLines c.val) = 0 := by
    rw [hu]
    exact getF_fit s _ _ (by simp [Fld.harrowProgressLines]) (by simp [Fld.harrowProgressLines])
  have hucall : ∀ k, u.har k = if k = c.val then s.harArmed c.val (s.goLast c.val) else s.har k := fun k => by
    rw [hu, State.har_modHar]
    rfl
  obtain ⟨n, hn⟩ : ∃ n, n = (if s.goLast c.val ≤ s.getF (Fld.harrowStartLine c.val) then 3 else 1) := ⟨_, rfl⟩
  have hn8 : n < 8 := by rw [hn]; split <;> decide
  obtain ⟨v, hv⟩ : ∃ v, v = (u.setF (Fld.harrowStatErr c.val) 0).setHarState c.val n := ⟨_, rfl⟩
  have hregs : RO u v := hv ▸ ((RO.refl u).stepF _ _).trans (State.setHarState_regs _ _ _)
  have hhar : ∀ k, v.har k = u.har k := fun k => by rw [State.har, State.har, hregs]
  have hpending : u.pending = s.pending := by rw [hframe]
  have htick : u.tick = s.tick := by rw [hframe]
  rw [← hn, ← hv] at hstep
  refine Completes.of_eq (f := (·.harrowGo c.val)) v rfl hstep (hregs.pending.trans hpending) (hregs.tick.trans htick)
    ⟨?_, ?_, ?_, (hhar _).trans ((hucall _).trans (if_pos rfl)), fun k hk => (hhar k).trans ((hucall k).trans (if_neg hk)), ?_, ?_⟩
  · rw [hv, State.getF_setHarState_ne, State.getF_setF_ne _ _ _ _ (.inl ?_), hprogress] <;>
      simp only [Fld.harrowProgressLines, Fld.harrowStatErr, Reg.harrowProgress, Reg.harrowStat, Reg.harrowGlobal] <;> omega
  · rw [hv, State.getF_setHarState_ne, getF_fit] <;> simp [Fld.harrowStatErr, Reg.harrowStat, Reg.harrowGlobal]
    omega
  · rw [hv, ← hn]
    exact State.harState_setHarState _ hc hn8
  · rw [hv]
    exact State.setHarState_only _ _ (honly.stepF _ _ (by simp)) (by simp) (by simp)
  · have hxb : v.xb = u.xb := by rw [hregs]
    rw [hxb]
    exact Eq.trans hregs ((congrArg (fun w : State => { w with regs := v.regs }) hframe).trans rfl)

/-! ### STOP (R265) -/

theorem harrowStop_running (s : State) (c : Chan) (hrun : s.harState c.val = 1) :
    Completes (.harrowStop c) s (fun t => t.harState c.val = (if (s.har c.val).moves.any (·.counts) then 2 else 4) ∧
      RegsOnly s t [Fld.harrowStatState c.val, Fld.harrowGlobalRateSum]) := by
  have hstep : s.harrowStop c.val = s.setHarState c.val (if (s.har c.val).moves.any (·.counts) then 2 else 4) := if_pos hrun
  refine Completes.of_eq (f := (·.harrowStop c.val)) _ rfl hstep rfl rfl ⟨State.harState_setHarState s c.isLt (by split <;> decide),
    State.setHarState_regs s _ _, ?_⟩
  exact State.setHarState_only _ _ (OnlyFields.refl s _) (by simp) (by simp)

theorem harrowStop_idle (s : State) (c : Chan) (hidle : s.harState c.val ≠ 1) : exec (.harrowStop c) s = .next s :=
  exec_of_act (f := (·.harrowStop c.val)) s rfl (if_neg hidle) rfl rfl

/-- Settles O38: an accepted GO written out once, with what its registers read before it. -/
theorem harrowChannelsStartAndStop : Obligations.HarrowChannelsStartAndStop := by
  unfold Obligations.HarrowChannelsStartAndStop
  exact ⟨harrowGo_refused, harrowGo_reserved, harrowGo_accepted, harrowGo_fatal, harrowStop_running, harrowStop_idle⟩

end Sys2Proof.Machine
end

section
/-! SUPPORT. The harrow's moves (O39). -/

open Sys2Proof Sys2Proof.Machine

namespace Sys2Proof.Machine

/-! ### Issue (R258, R261) -/

/-- HARROW_MOVE_ISSUE's line moves, one after another. -/
def State.harMoves (s : State) : State := (List.range 8).foldl (fun s _ => s.harOne) s

theorem exec_harrowMoveIssue (s : State) : exec .harrowMoveIssue s = act s (·.harMoves) := rfl

/-- The channels from the pointer upward are the four channels. -/
theorem harOrder_lt {p k : Nat} (h : k ∈ (List.range 4).map (fun i => (p + i) % 4)) : k < 4 := by
  obtain ⟨i, -, rfl⟩ := List.mem_map.1 h
  exact Nat.mod_lt _ (by decide)

theorem State.harOne_of_idle {s : State} (h : ∀ k, k < 4 → s.harWants k = false) : s.harOne = s := by
  have hnone : ((List.range 4).map (fun i => (s.getF Fld.harrowGlobalPtr + i) % 4)).filter s.harWants = [] :=
    List.filter_eq_nil_iff.2 (fun k hk => by rw [h k (harOrder_lt hk)]; decide)
  unfold State.harOne
  dsimp only
  rw [hnone]
  split <;> rfl

theorem harMoves_of_idle {s : State} (h : ∀ k, k < 4 → s.harWants k = false) : s.harMoves = s :=
  foldl_id _ _ _ (fun _ _ => State.harOne_of_idle h)

/-- With one channel that wants, the tick's next move is its. -/
theorem State.harOne_of_alone {s : State} {c : Nat} (hc : c < 4) (hwants : s.harWants c = true)
    (hothers : ∀ k, k < 4 → k ≠ c → s.harWants k = false) (hissued : s.xb.issued = 0) (hfatal : s.getF Fld.faultStatFatal = 0) :
    s.harOne = s.harIssue c := by
  have hcell : ∀ p, ((List.range 4).map (fun i => (p + i) % 4)).filter s.harWants = [c] := by
    intro p
    have hsame : ((List.range 4).map (fun i => (p + i) % 4)).filter s.harWants =
        ((List.range 4).map (fun i => (p + i) % 4)).filter (fun k => decide (k = c)) :=
      List.filter_congr (fun k hk => by
        by_cases hkc : k = c
        · rw [hkc, hwants]; simp
        · rw [hothers k (harOrder_lt hk) hkc]; simp [hkc])
    rw [hsame]
    have hmod : (List.range 4).map (fun i => (p + i) % 4) = (List.range 4).map (fun i => (p % 4 + i) % 4) :=
      List.map_congr_left (fun i _ => by omega)
    rw [hmod]
    have hp : p % 4 < 4 := Nat.mod_lt _ (by decide)
    generalize p % 4 = q at hp
    interval_cases q <;> interval_cases c <;> rfl
  unfold State.harOne
  rw [if_neg (by omega)]
  dsimp only
  rw [hcell]
  rfl

/-- A line of an extent as a target: rank 0, no transaction, and the coherence of its entry. -/
theorem State.lineAt_shows {s : State} {e n : Nat} {a : Route} (h : s.lineAt e n = a) : a.txn = none ∧ a.rank = 0 ∧
    a.coh = decide (s.getF (Fld.extentXtW0Coh e) = 1) := by
  subst h
  unfold State.lineAt
  dsimp only
  split <;> exact ⟨rfl, rfl, rfl⟩

/-- The move that line `n` of a SCRUB channel becomes. -/
def State.scrubMove (s : State) (c n : Nat) (a : Route) : HMove := {
  id := s.dp.nextId, line := n, plot := 0
  dplot := s.getF (Fld.extentXtW1Plot (s.har c).src), cls := s.harCls a.lp, inLp := a.lp }

/-- The target of a SCRUB line's read. -/
def State.scrubRoute (s : State) (c : Nat) (a : Route) : Route := { a with move := some (c, s.dp.nextId), denied := [] }

/-- A SCRUB line's read before it is issued. -/
def State.scrubMsg (s : State) (c : Nat) (a : Route) : Msg := {
  id := s.dp.nextId + 1, stage := .map, origin := .harrow, stamp := s.tick, engine := xbarPort a.lp
  hdr := memHdr .memRd a.addr 0 64 [] false, req := memHdr .memRd a.addr 0 64 [] false, cls := s.harCls a.lp
  route := some (s.scrubRoute c a), inLp := a.lp, cells := 1, since := s.tick }

/-- The state with the SCRUB's move and its read, before the read is issued. -/
def State.scrubStarted (s : State) (c n : Nat) (a : Route) : State :=
  (({ s with dp := { s.dp with nextId := s.dp.nextId + 1 } } : State).modHar c (fun h => { h with moves := h.moves ++ [s.scrubMove c n a] })).addMsg
    (fun _ => s.scrubMsg c a)

/-- A move's read with its tracker entry, which bids from the next tick. -/
def State.moveReads (s : State) (m : Msg) (r : Route) (c v : Nat) : State :=
  let k : Tracker := { id := s.dp.nextId, lp := r.lp, tag := s.freeTag r.lp, cls := m.cls, req := m.hdr, use := .harRd c v, pool := r.pool
                       txn := none, start := s.tick }
  ({ s with dp := { s.dp with trackers := s.dp.trackers ++ [k], nextId := s.dp.nextId + 1 } } : State).modMsg m.id (fun y => { y with
    stage := .bid, firstBid := s.tick + 1, hdr := { m.hdr with addr := r.addr, tag := s.freeTag r.lp }
    route := some { r with tracker := some s.dp.nextId } })

/-- A move's read toward a link that is up, on a page that is not suspect, bids from the next tick. -/
theorem State.moveIssue_of_read (s : State) (m : Msg) (r : Route) (c v : Nat) (htxn : r.txn = none) (hread : m.hdr.op.isMemWr = false)
    (hdenied : r.denied = []) (hsuspect : s.isSuspect r.lp (r.pool.getD 0 / 4096) = false) (hup : s.dllUp r.lp = true) :
    s.moveIssue m r c v = s.moveReads m r c v := by
  have hhold : s.moveHold c v none = s := by unfold State.moveHold; rfl
  simp only [State.moveIssue, htxn, hhold, hread, hdenied, hsuspect, hup, List.isEmpty_nil, Bool.not_true, Bool.or_self, Bool.false_eq_true,
    if_false, State.track, State.moveReads]

/-- The move of a SCRUB channel on an entry that is not coherent is a read of its line, toward its member at once. -/
theorem State.harStart_of_scrub {s : State} {c n : Nat} {a : Route} (hop : (s.har c).op = 2) (hcoh : a.coh = false) (hlp : a.lp ≠ 64)
    (htxn : a.txn = none) (hup : s.dllUp a.lp = true) (hsuspect : s.isSuspect a.lp (a.pool.getD 0 / 4096) = false) :
    s.harStart c n a a true true = (s.scrubStarted c n a).moveReads (s.scrubMsg c a) (s.scrubRoute c a) c s.dp.nextId := by
  have hnotCopy : ¬(2 : Nat) = 0 := by decide
  have hnotZero : ¬(2 : Nat) = 1 := by decide
  rw [← State.moveIssue_of_read (s.scrubStarted c n a) (s.scrubMsg c a) (s.scrubRoute c a) c s.dp.nextId htxn rfl rfl hsuspect hup]
  unfold State.harStart
  simp only [hop, hcoh, hlp, hnotCopy, hnotZero, decide_false, Bool.or_self, Bool.false_eq_true, if_false, Bool.and_false,
    Bool.not_true, Bool.or_true, true_or, if_true, State.issue, State.scrubStarted, State.scrubMsg, State.scrubRoute]
  rfl

/-- A channel's line counted, before its move starts. -/
def State.lineCounted (s : State) (c : Nat) : State :=
  (s.modHar c (fun h => { h with next := (s.har c).next + 1, spent := h.spent + 1, budget := h.budget - 1 })).countIssue

theorem State.har_lineCounted (s : State) (c : Nat) : (s.lineCounted c).har c = { s.har c with
    next := (s.har c).next + 1, spent := (s.har c).spent + 1, budget := (s.har c).budget - 1 } := Tbl.get_set_same ..

/-- A SCRUB channel's entry is valid and its member's link is up: its move starts, allowed by a rule. -/
theorem State.harIssue_of_scrub {s : State} {c : Nat} {a : Route} (hop : (s.har c).op = 2)
    (hvalid : s.getF (Fld.extentXtW0Valid (s.har c).src) = 1) (hline : s.lineAt (s.har c).src (s.har c).next = a) (hlp : a.lp ≠ 64)
    (hup : s.dllUp a.lp = true) (hcheck : s.checkPart (s.harCls a.lp) true ⟨0, 0, none⟩ (a.pool.getD 0) 1 false = some false) :
    s.harIssue c = (s.lineCounted c).harStart c (s.har c).next a a true true := by
  have hentry : s.harEntryOk 2 (s.har c).src (s.har c).dst = true := by
    simp [State.harEntryOk, hvalid]
  have hcheck' : (s.lineCounted c).checkPart ((s.lineCounted c).harCls a.lp) true ⟨0, 0, none⟩ (a.pool.getD 0) 1 false = some false := hcheck
  have hpass : (s.lineCounted c).harCheck a 1 = (s.lineCounted c, true) := by
    simp only [State.harCheck, if_neg hlp, hcheck', State.when]
    rfl
  have hlinks : ¬((a.lp ≠ 64 ∧ s.dllUp a.lp = false) ∨ (a.lp ≠ 64 ∧ s.dllUp a.lp = false)) := by simp [hup]
  have hnotCopy : ¬(2 : Nat) = 0 := by decide
  have hnotZero : ¬(2 : Nat) = 1 := by decide
  unfold State.harIssue
  simp only [State.lineCounted] at hpass ⊢
  simp only [hop, hnotCopy, hnotZero, if_false, if_true, hline, hentry, Bool.not_true, Bool.false_eq_true, hlinks, hpass]

/-- The state once a SCRUB channel's line has been issued. -/
def State.scrubIssued (s : State) (c n : Nat) (a : Route) : State :=
  (s.scrubStarted c n a).moveReads (s.scrubMsg c a) (s.scrubRoute c a) c s.dp.nextId

theorem State.har_scrubIssued (s : State) (c n : Nat) (a : Route) (k : Nat) : (s.scrubIssued c n a).har k =
    if k = c then { s.har c with moves := (s.har c).moves ++ [s.scrubMove c n a] } else s.har k := by
  have hsame : (s.scrubIssued c n a).har k =
      (s.modHar c (fun h => { h with moves := h.moves ++ [s.scrubMove c n a] })).har k := rfl
  rw [hsame, State.har_modHar]

/-- The read is the last of the messages, and the others are as before. -/
theorem State.scrubIssued_msg (s : State) (c n : Nat) (a : Route) {k : Nat} (hk : k ≠ s.dp.nextId + 1) :
    (s.scrubIssued c n a).msg? k = s.msg? k := by
  have hmap := msg_modMsg ({ s.scrubStarted c n a with dp := { (s.scrubStarted c n a).dp with msgs := s.dp.msgs ++ [s.scrubMsg c a] } })
    (s.scrubMsg c a).id k (fun y => { y with
      stage := .bid, firstBid := s.tick + 1, hdr := { (s.scrubMsg c a).hdr with addr := a.addr, tag := (s.scrubStarted c n a).freeTag a.lp }
      route := some { s.scrubRoute c a with tracker := some (s.dp.nextId + 2) } }) (fun _ => rfl)
  have happend : (s.dp.msgs ++ [s.scrubMsg c a]).find? (fun x => x.id = k) = s.msg? k := by
    rw [List.find?_append, List.find?_singleton, if_neg (fun h => hk (of_decide_eq_true h).symm), Option.or_none]
    rfl
  refine hmap.trans ?_
  show Option.map _ ((s.dp.msgs ++ [s.scrubMsg c a]).find? (fun x => x.id = k)) = _
  rw [happend]
  cases hx : s.msg? k with
  | none => rfl
  | some x => exact congrArg some (if_neg (by rw [msg_id hx]; exact hk))

/-- A change of the message that stands last. -/
theorem getLast?_changed (l : List Msg) (m : Msg) (f : Msg → Msg) :
    ((l ++ [m]).map (fun x => if x.id = m.id then f x else x)).getLast? = some (f m) := by
  rw [List.map_append, List.map_singleton, List.getLast?_concat, if_pos rfl]

theorem State.scrubIssued_last (s : State) (c n : Nat) (a : Route) (hrank : a.rank = 0) :
    ∃ y k, (s.scrubIssued c n a).dp.msgs.getLast? = some y ∧ (s.scrubIssued c n a).dp.trackers = s.dp.trackers ++ [k] ∧
      y.id = s.dp.nextId + 1 ∧ y.stage = .bid ∧ y.origin = .harrow ∧ y.hdr.op = .memRd ∧ y.hdr.addr = a.addr ∧ y.hdr.size = 64 ∧
      y.hdr.tag = k.tag ∧ y.rank = 0 ∧ y.out = a.lp ∧ y.firstBid = s.tick + 1 ∧ y.cells = 1 ∧ k.use = .harRd c s.dp.nextId ∧ k.lp = a.lp ∧
      k.pool = a.pool := by
  have hlast := getLast?_changed s.dp.msgs (s.scrubMsg c a) (fun y => { y with
    stage := .bid, firstBid := s.tick + 1, hdr := { (s.scrubMsg c a).hdr with addr := a.addr, tag := (s.scrubStarted c n a).freeTag a.lp }
    route := some { s.scrubRoute c a with tracker := some (s.dp.nextId + 2) } })
  exact ⟨_, _, hlast, rfl, rfl, rfl, rfl, rfl, rfl, rfl, rfl, hrank, rfl, rfl, rfl, rfl, rfl, rfl⟩

theorem State.scrubIssued_frame (s : State) (c n : Nat) (a : Route) : s.scrubIssued c n a = { s with
    dp := { s.dp with msgs := (s.scrubIssued c n a).dp.msgs, trackers := (s.scrubIssued c n a).dp.trackers, nextId := s.dp.nextId + 3 }
    xb := { s.xb with harrow := (s.scrubIssued c n a).xb.harrow } } := rfl

theorem harrowMoveIssue_scrubs (s : State) (c : Chan) (a : Route) (hwants : s.harWants c.val = true)
    (hothers : ∀ k, k < 4 → k ≠ c.val → s.harWants k = false) (hop : (s.har c.val).op = 2) (hbudget : (s.har c.val).budget = 1)
    (hissued : s.xb.issued = 0) (hfatal : s.getF Fld.faultStatFatal = 0) (hvalid : s.getF (Fld.extentXtW0Valid (s.har c.val).src) = 1)
    (hcoh : s.getF (Fld.extentXtW0Coh (s.har c.val).src) = 0) (hline : s.lineAt (s.har c.val).src (s.har c.val).next = a) (hlp : a.lp ≠ 64)
    (hup : s.dllUp a.lp = true) (hcheck : s.checkPart (s.harCls a.lp) true ⟨0, 0, none⟩ (a.pool.getD 0) 1 false = some false)
    (hsuspect : s.isSuspect a.lp (a.pool.getD 0 / 4096) = false) :
    Completes .harrowMoveIssue s (fun t =>
      t.har c.val = { s.har c.val with
        next := (s.har c.val).next + 1, spent := (s.har c.val).spent + 1, budget := 0,
        moves := (s.har c.val).moves ++ [{
          id := s.dp.nextId, line := (s.har c.val).next, plot := 0
          dplot := s.getF (Fld.extentXtW1Plot (s.har c.val).src), cls := s.harCls a.lp, inLp := a.lp }] } ∧
      (∀ k, k ≠ c.val → t.har k = s.har k) ∧
      (∃ y k, t.dp.msgs.getLast? = some y ∧ t.dp.trackers = s.dp.trackers ++ [k] ∧ y.id = s.dp.nextId + 1 ∧ y.stage = .bid ∧
        y.origin = .harrow ∧ y.hdr.op = .memRd ∧ y.hdr.addr = a.addr ∧ y.hdr.size = 64 ∧ y.hdr.tag = k.tag ∧ y.rank = 0 ∧ y.out = a.lp ∧
        y.firstBid = s.tick + 1 ∧ y.cells = 1 ∧ k.use = .harRd c.val s.dp.nextId ∧ k.lp = a.lp ∧ k.pool = a.pool) ∧
      (∀ k, k ≠ s.dp.nextId + 1 → t.msg? k = s.msg? k) ∧
      t = { s with dp := { s.dp with msgs := t.dp.msgs, trackers := t.dp.trackers, nextId := s.dp.nextId + 3 },
                   xb := { s.xb with harrow := t.xb.harrow, issued := 1 } }) := by
  obtain ⟨htxn, hrank, hcohOf⟩ := State.lineAt_shows hline
  have hnotCoh : a.coh = false := by rw [hcohOf, hcoh]; rfl
  obtain ⟨t, ht⟩ : ∃ t, t = (s.lineCounted c.val).scrubIssued c.val (s.har c.val).next a := ⟨_, rfl⟩
  have hone : s.harOne = t := by
    rw [State.harOne_of_alone c.isLt hwants hothers hissued hfatal, State.harIssue_of_scrub hop hvalid hline hlp hup hcheck,
      State.harStart_of_scrub (s := s.lineCounted c.val) (by rw [State.har_lineCounted]; exact hop) hnotCoh hlp htxn hup hsuspect, ht]
    rfl
  have hcounted : ∀ k, k ≠ c.val → (s.lineCounted c.val).har k = s.har k := fun k hk =>
    (Tbl.get_set _ _ _ _ _).trans (if_neg hk)
  have hown : t.har c.val = { s.har c.val with
      next := (s.har c.val).next + 1, spent := (s.har c.val).spent + 1, budget := 0,
      moves := (s.har c.val).moves ++ [{
        id := s.dp.nextId, line := (s.har c.val).next, plot := 0
        dplot := s.getF (Fld.extentXtW1Plot (s.har c.val).src), cls := s.harCls a.lp, inLp := a.lp }] } := by
    rw [ht, State.har_scrubIssued, if_pos rfl, State.scrubMove, State.har_lineCounted, hbudget]
    rfl
  have hkeep : ∀ k, k ≠ c.val → t.har k = s.har k := fun k hk => by
    rw [ht, State.har_scrubIssued, if_neg hk, hcounted k hk]
  have hstate : ∀ k, t.harState k = s.harState k := fun k => by rw [ht]; rfl
  have hidle : ∀ k, k < 4 → t.harWants k = false := by
    intro k hk
    by_cases hkc : k = c.val
    · subst hkc
      simp [State.harWants, hown]
    · have hno := hothers k hk hkc
      simp only [State.harWants, Bool.and_eq_true, decide_eq_true_eq] at hwants
      simp only [State.harWants, hkeep k hkc, hstate, decide_eq_true hwants.2, Bool.and_true] at hno ⊢
      rw [hno, Bool.false_and]
  have hstep : s.harMoves = t := by
    rw [State.harMoves, List.range_succ_eq_map, List.foldl_cons, hone]
    exact foldl_id _ _ _ (fun _ _ => State.harOne_of_idle hidle)
  refine Completes.of_eq _ (exec_harrowMoveIssue s) hstep (by rw [ht]; rfl) (by rw [ht]; rfl) ⟨hown, hkeep, ?_, fun k hk => ?_, ?_⟩
  · rw [ht]
    exact State.scrubIssued_last (s.lineCounted c.val) c.val _ a hrank
  · rw [ht]
    exact State.scrubIssued_msg (s.lineCounted c.val) c.val _ a hk
  · have hframe := State.scrubIssued_frame (s.lineCounted c.val) c.val (s.har c.val).next a
    rw [← ht] at hframe
    refine hframe.trans ?_
    rw [← show s.xb.issued + 1 = 1 by rw [hissued]]
    rfl

/-! ### Completion (R259, R263, R265) -/

/-- HARROW_MOVE_COMPLETE's line of a channel. -/
def State.moveCompletes (s : State) (c line : Nat) : State :=
  match (s.har c).moves.find? (fun v => v.done && decide (v.line = line)) with
  | some v => (s.harEnd c v).harSettle c
  | none => s

theorem exec_harrowMoveComplete (c : Chan) (line : Nat) (s : State) :
    exec (.harrowMoveComplete c line) s = act s (·.moveCompletes c.val line) := rfl

/-- The channel's only move is gone. -/
def State.movesGone (s : State) (c : Nat) (v : HMove) : State := s.modHar c (fun h => { h with moves := h.moves.filter (fun x => x.id ≠ v.id) })

theorem State.har_movesGone {s : State} {c : Nat} {v : HMove} (hmoves : (s.har c).moves = [v]) (k : Nat) :
    (s.movesGone c v).har k = if k = c then { s.har c with moves := [] } else s.har k := by
  rw [State.movesGone, State.har_modHar, hmoves]
  simp

/-- A channel that runs, with no move and no line left, is DONE. -/
theorem State.harSettle_of_last {s : State} {c : Nat} (hmoves : (s.har c).moves = []) (hstate : s.harState c = 1)
    (hlast : (s.har c).last ≤ (s.har c).next) : s.harSettle c = s.setHarState c 3 := by
  simp [State.harSettle, hmoves, hstate, hlast]

/-- The registers of a channel's lines, of its poisoned lines, of the first of them and of its state are apart. -/
theorem harrow_apart (c : Nat) : Reg.harrowProgress c ≠ Reg.harrowStat c ∧ Reg.harrowPoison c ≠ Reg.harrowStat c ∧
    Reg.harrowFirstPoison c ≠ Reg.harrowStat c ∧ Reg.harrowProgress c ≠ Reg.harrowPoison c ∧ Reg.harrowProgress c ≠ Reg.harrowFirstPoison c ∧
    Reg.harrowPoison c ≠ Reg.harrowFirstPoison c := by
  simp only [Reg.harrowProgress, Reg.harrowStat, Reg.harrowPoison, Reg.harrowFirstPoison]
  omega

theorem harrow_ne_global {c : Nat} (_hc : c < 4) : Reg.harrowProgress c ≠ Reg.harrowGlobal ∧ Reg.harrowPoison c ≠ Reg.harrowGlobal ∧
    Reg.harrowFirstPoison c ≠ Reg.harrowGlobal := by
  simp only [Reg.harrowProgress, Reg.harrowPoison, Reg.harrowFirstPoison, Reg.harrowGlobal]
  omega

theorem getF_bump_ne (s : State) (f g : Fd) (h : g.addr ≠ f.addr) : (s.bump f).getF g = s.getF g := State.getF_setF_ne _ _ _ _ (.inl h)

/-- The channel's last line, once its move has been done and counted in `u`: PROGRESS counts it, and the channel is DONE. -/
theorem harLast_completes {s u : State} {c : Nat} {h : HarrowCh} (hc : c < 4) (hregs : u.harState c = 1)
    (hprogress : u.getF (Fld.harrowProgressLines c) = s.getF (Fld.harrowProgressLines c)) (hhar : u.har c = h) (hmoves : h.moves = [])
    (hlast : h.last ≤ h.next) (t : State) (ht : t = (u.bump (Fld.harrowProgressLines c)).harSettle c) :
    t = (u.bump (Fld.harrowProgressLines c)).setHarState c 3 ∧
    t.getF (Fld.harrowProgressLines c) = min (s.getF (Fld.harrowProgressLines c) + 1) (2 ^ 25 - 1) ∧ t.harState c = 3 ∧
    (∀ k, t.har k = u.har k) ∧ RO u t := by
  obtain ⟨hpstat, -⟩ := harrow_apart c
  obtain ⟨hpglobal, -⟩ := harrow_ne_global hc
  have hset : (u.bump (Fld.harrowProgressLines c)).harSettle c = (u.bump (Fld.harrowProgressLines c)).setHarState c 3 := by
    refine State.harSettle_of_last ?_ ((getF_bump_ne u (Fld.harrowProgressLines c) (Fld.harrowStatState c) hpstat.symm).trans hregs) ?_
    · exact (congrArg HarrowCh.moves hhar).trans hmoves
    · exact le_of_eq_of_le (congrArg HarrowCh.last hhar) (le_of_le_of_eq hlast (congrArg HarrowCh.next hhar).symm)
  rw [hset] at ht
  refine ⟨ht, ?_, ?_, fun k => ?_, ?_⟩
  · rw [ht, State.getF_setHarState_ne _ _ _ _ (.inl hpstat) hpglobal, State.getF_bump _ _ (by simp [Fld.harrowProgressLines]), hprogress]
    rfl
  · rw [ht]
    exact State.harState_setHarState _ hc (by decide)
  · rw [ht]
    rfl
  · rw [ht]
    exact ((RO.refl u).stepB _).trans (State.setHarState_regs _ _ _)

section
variable {s : State} {c : Chan} {v : HMove} (hmoves : (s.har c.val).moves = [v]) (hdone : v.done = true) (hcounts : v.counts = true)
include hmoves hdone hcounts

/-- The one move of a channel completes. -/
theorem State.moveCompletes_of_last : s.moveCompletes c.val v.line =
    ((if v.poison then (s.movesGone c.val v).harPoison c.val v.line else s.movesGone c.val v).bump (Fld.harrowProgressLines c.val)).harSettle
      c.val := by
  have hfind : (s.har c.val).moves.find? (fun w => w.done && decide (w.line = v.line)) = some v := by
    rw [hmoves, List.find?_singleton, if_pos (by simp [hdone])]
  rw [State.moveCompletes, hfind]
  dsimp only
  simp only [State.harEnd, hcounts, Bool.not_true, Bool.false_eq_true, if_false]
  rfl

end

theorem harrowMoveComplete_counts (s : State) (c : Chan) (v : HMove) (hmoves : (s.har c.val).moves = [v]) (hdone : v.done = true)
    (hcounts : v.counts = true) (hrun : s.harState c.val = 1) (hlast : (s.har c.val).last ≤ (s.har c.val).next) (hclean : v.poison = false) :
    Completes (.harrowMoveComplete c v.line) s (fun t =>
      t.getF (Fld.harrowProgressLines c.val) = min (s.getF (Fld.harrowProgressLines c.val) + 1) (2 ^ 25 - 1) ∧ t.harState c.val = 3 ∧
      t.har c.val = { s.har c.val with moves := [] } ∧ (∀ k, k ≠ c.val → t.har k = s.har k) ∧
      OnlyFields s t [Fld.harrowProgressLines c.val, Fld.harrowStatState c.val, Fld.harrowGlobalRateSum] ∧
      t = { s with regs := t.regs, xb := { s.xb with harrow := t.xb.harrow } }) := by
  have hgone := State.har_movesGone hmoves
  have hhargone : (s.movesGone c.val v).har c.val = { s.har c.val with moves := [] } := (hgone c.val).trans (if_pos rfl)
  obtain ⟨t, ht⟩ : ∃ t, t = ((s.movesGone c.val v).bump (Fld.harrowProgressLines c.val)).harSettle c.val := ⟨_, rfl⟩
  obtain ⟨hset, hprogress, hstate, hhar, hregs⟩ := harLast_completes (s := s) (u := s.movesGone c.val v) c.isLt hrun rfl
    hhargone rfl hlast t ht
  have hstep : s.moveCompletes c.val v.line = t := by
    rw [State.moveCompletes_of_last hmoves hdone hcounts, hclean, ht]
    rfl
  refine Completes.of_eq _ (exec_harrowMoveComplete c v.line s) hstep (hregs.pending.trans rfl) (hregs.tick.trans rfl)
    ⟨hprogress, hstate, (hhar _).trans ((hgone _).trans (if_pos rfl)), fun k hk => (hhar k).trans ((hgone k).trans (if_neg hk)), ?_, ?_⟩
  · rw [hset]
    exact State.setHarState_only _ _ ((OnlyFields.of_regs (OnlyFields.refl s _) rfl).stepB _ (by simp)) (by simp) (by simp)
  · have hxb : t.xb = (s.movesGone c.val v).xb := by rw [hregs]
    rw [hxb]
    exact hregs.trans rfl

theorem harrowMoveComplete_poisons (s : State) (c : Chan) (v : HMove) (hmoves : (s.har c.val).moves = [v]) (hdone : v.done = true)
    (hcounts : v.counts = true) (hrun : s.harState c.val = 1) (hlast : (s.har c.val).last ≤ (s.har c.val).next) (hpoison : v.poison = true)
    (hseen : (s.har c.val).seen = false) (hline : v.line < 2 ^ 24) :
    Completes (.harrowMoveComplete c v.line) s (fun t =>
      t.getF (Fld.harrowProgressLines c.val) = min (s.getF (Fld.harrowProgressLines c.val) + 1) (2 ^ 25 - 1) ∧ t.harState c.val = 3 ∧
      t.getF (Fld.harrowPoisonCount c.val) = min (s.getF (Fld.harrowPoisonCount c.val) + 1) (2 ^ (Fld.harrowPoisonCount c.val).width - 1) ∧
      t.getF (Fld.harrowFirstPoisonLine c.val) = v.line ∧ t.har c.val = { s.har c.val with moves := [], seen := true } ∧
      t = { s with regs := t.regs, xb := { s.xb with harrow := t.xb.harrow } }) := by
  obtain ⟨hpstat, hqstat, hfstat, hprogressPoison, hpf, hqf⟩ := harrow_apart c.val
  obtain ⟨-, hqglobal, hfglobal⟩ := harrow_ne_global c.isLt
  have hgone := State.har_movesGone hmoves
  obtain ⟨g, hg⟩ : ∃ g, g = s.movesGone c.val v := ⟨_, rfl⟩
  obtain ⟨p, hp⟩ : ∃ p, p = g.bump (Fld.harrowPoisonCount c.val) := ⟨_, rfl⟩
  obtain ⟨q, hq⟩ : ∃ q, q = p.setF (Fld.harrowFirstPoisonLine c.val) v.line := ⟨_, rfl⟩
  obtain ⟨u, hu⟩ : ∃ u, u = q.modHar c.val (fun h => { h with seen := true }) := ⟨_, rfl⟩
  have hghar : g.har c.val = { s.har c.val with moves := [] } := by rw [hg, hgone, if_pos rfl]
  have hpq : RO g q := by
    rw [hq, hp]
    exact ((RO.refl g).stepB _).stepF _ _
  have hphar : p.har c.val = g.har c.val := by rw [hp]; rfl
  have hqhar : q.har c.val = g.har c.val := by rw [State.har, State.har, hpq]
  have hpoisoned : (s.movesGone c.val v).harPoison c.val v.line = u := by
    rw [← hg, State.harPoison, ← hp]
    rw [hphar, hghar, ← hq, ← hu, if_neg (by rw [hseen]; decide)]
  have hgregs : g.regs = s.regs := by rw [hg]; rfl
  have huregs : u.regs = q.regs := by rw [hu]; rfl
  have hother : ∀ f : Fd, f.addr ≠ Reg.harrowPoison c.val → f.addr ≠ Reg.harrowFirstPoison c.val → u.getF f = s.getF f := fun f h1 h2 => by
    rw [getF_regs huregs, hq, State.getF_setF_ne _ _ _ _ (.inl h2), hp, getF_bump_ne _ _ _ h1, getF_regs hgregs]
  have huhar : u.har c.val = { s.har c.val with moves := [], seen := true } := by
    rw [hu, State.har_modHar, if_pos rfl, hqhar, hghar]
  obtain ⟨t, ht⟩ : ∃ t, t = (u.bump (Fld.harrowProgressLines c.val)).harSettle c.val := ⟨_, rfl⟩
  obtain ⟨hset, hprogress, hstate, hhar, hregs⟩ := harLast_completes (s := s) (u := u) c.isLt
    ((hother (Fld.harrowStatState c.val) hqstat.symm hfstat.symm).trans hrun) (hother (Fld.harrowProgressLines c.val) hprogressPoison hpf) huhar rfl hlast t ht
  have hstep : s.moveCompletes c.val v.line = t := by
    rw [State.moveCompletes_of_last hmoves hdone hcounts, hpoison, if_pos rfl, hpoisoned, ht]
  have hframe : u = { s with regs := u.regs, xb := { s.xb with harrow := u.xb.harrow } } := by
    rw [huregs, hu, hpq, hg]
    rfl
  have hpending : u.pending = s.pending := by rw [hframe]
  have htick : u.tick = s.tick := by rw [hframe]
  have hcount : u.getF (Fld.harrowPoisonCount c.val) =
      min (s.getF (Fld.harrowPoisonCount c.val) + 1) (2 ^ (Fld.harrowPoisonCount c.val).width - 1) := by
    rw [getF_regs huregs, hq, State.getF_setF_ne _ _ _ _ (.inl hqf), hp, State.getF_bump _ _ (by simp [Fld.harrowPoisonCount]), getF_regs hgregs]
  have hfirst : u.getF (Fld.harrowFirstPoisonLine c.val) = v.line := by
    rw [getF_regs huregs, hq]
    exact getF_fit _ _ _ (by simp [Fld.harrowFirstPoisonLine]) hline
  refine Completes.of_eq _ (exec_harrowMoveComplete c v.line s) hstep (hregs.pending.trans hpending) (hregs.tick.trans htick)
    ⟨hprogress, hstate, ?_, ?_, (hhar _).trans huhar, ?_⟩
  · rw [hset, State.getF_setHarState_ne _ _ _ _ (.inl hqstat) hqglobal, getF_bump_ne _ _ _ hprogressPoison.symm, hcount]
  · rw [hset, State.getF_setHarState_ne _ _ _ _ (.inl hfstat) hfglobal, getF_bump_ne _ _ _ hpf.symm, hfirst]
  · have hxb : t.xb = u.xb := by rw [hregs]
    rw [hxb]
    exact Eq.trans hregs ((congrArg (fun w : State => { w with regs := t.regs }) hframe).trans rfl)

/-- Settles O39: a SCRUB line issued and read as one state, and a channel's last line completed. -/
theorem harrowMovesIssueAndComplete : Obligations.HarrowMovesIssueAndComplete := by
  unfold Obligations.HarrowMovesIssueAndComplete
  exact ⟨fun s h => exec_of_act s (exec_harrowMoveIssue s) (harMoves_of_idle h) rfl rfl, harrowMoveIssue_scrubs, harrowMoveComplete_counts,
    harrowMoveComplete_poisons⟩

end Sys2Proof.Machine
end

section
/-! SUPPORT. Port registers, pins and link downs (O40). -/

open Sys2Proof Sys2Proof.Machine

namespace Sys2Proof.Machine

/-! ### What a link down leaves of a port's registers (R53, R74) -/

/-- A field of the PORT registers that shares no bit with what a link down writes keeps its value, whether the link was up or not. -/
theorem State.linkDown_getF_apart (s : State) {lp : Nat} (hlp : lp < 64) (g : Fd) (hport : PortReg g.addr) (hspare : g.addr ≠ Reg.portLpSpare lp)
    (hapart : ∀ x ∈ downFields s lp, ¬(x.1.addr = g.addr ∧ x.1.lo < g.lo + g.width ∧ g.lo < x.1.lo + x.1.width)) :
    (s.linkDown lp).getF g = s.getF g := by
  cases hup : s.dllUp lp with
  | true => exact (s.linkDown_spec lp hlp hup).2.2.1 g hport hspare hapart
  | false =>
    rw [s.linkDown_of_down lp hup]
    have hltssm := hapart (Fld.portLpStatLtssm lp, s.restState lp) (by simp [downFields])
    dsimp only at hltssm
    exact State.getF_setF_ne _ _ _ _ (by omega)

/-- A link down, of a link that is up or not, leaves the link in its rest state. -/
theorem State.linkDown_ltssm (s : State) {lp : Nat} (hlp : lp < 64) : (s.linkDown lp).getF (Fld.portLpStatLtssm lp) = s.restState lp := by
  cases hup : s.dllUp lp with
  | true => exact (s.linkDown_spec lp hlp hup).1 (Fld.portLpStatLtssm lp, s.restState lp) (by simp [downFields])
  | false =>
    rw [s.linkDown_of_down lp hup]
    exact getF_fit _ _ _ (by simp [Fld.portLpStatLtssm]) (restState_lt s lp)

/-- What a link that goes down shows beside its LP_STAT. -/
theorem State.linkDown_shows (s : State) {lp : Nat} (hlp : lp < 64) (hup : s.dllUp lp = true) :
    (s.linkDown lp).getF (Fld.portLpEvtLinkdown lp) = 1 ∧ (s.linkDown lp).getF (Fld.portLpDropStatBusy lp) = 1 ∧
    ((s.linkDown lp).lnk lp).dropAt = some s.tick := by
  obtain ⟨hfields, hdrop, -⟩ := s.linkDown_spec lp hlp hup
  exact ⟨hfields (Fld.portLpEvtLinkdown lp, 1) (by simp [downFields]), hfields (Fld.portLpDropStatBusy lp, 1) (by simp [downFields]), hdrop⟩

/-- A link that is down rests in Detect, or in what a vPPB of a downstream port holds it. -/
theorem State.restState_cases (s : State) (lp : Nat) :
    [0, 6, 7].contains (s.restState lp) = true ∧ (s.role lp ≠ 1 → s.restState lp = 0) := by
  refine ⟨?_, fun hrole => ?_⟩
  · unfold State.restState State.vppbHold
    dsimp only
    split
    · split
      · rfl
      · split <;> rfl
    · rfl
  · have hnot : s.isRole lp 1 = false := by simp [State.isRole, hrole]
    rw [State.restState, hnot]
    rfl

/-- What is shown of one logical port, the moment of its link down, and the tick are as before. -/
structure PortSame (s t : State) (k : Nat) : Prop where
  getF : ∀ g : Fd, g.addr = Reg.portLpStat k ∨ g.addr = Reg.portLpEvt k ∨ g.addr = Reg.portLpCtl k → t.getF g = s.getF g
  busy : t.getF (Fld.portLpDropStatBusy k) = s.getF (Fld.portLpDropStatBusy k)
  drop : (t.lnk k).dropAt = (s.lnk k).dropAt
  tick : t.tick = s.tick
  exists_ : t.lpExists k = s.lpExists k

theorem PortSame.dllUp {s t : State} {k : Nat} (h : PortSame s t k) : t.dllUp k = s.dllUp k :=
  congrArg (fun n => decide (n = 1)) (h.getF (Fld.portLpStatDllUp k) (.inl rfl))

theorem PortSame.role {s t : State} {k : Nat} (h : PortSame s t k) : t.role k = s.role k :=
  h.getF (Fld.portLpCtlRole k) (.inr (.inr rfl))

/-- Link down of another port. -/
theorem State.linkDown_portSame (s : State) {lp k : Nat} (hlp : lp < 64) (hk : k < 64) (hne : k ≠ lp) : PortSame s (s.linkDown lp) k := by
  refine ⟨fun g hg => ?_, ?_, ?_, ?_, State.linkDown_lpExists s lp k hlp hk⟩
  · have hport : PortReg g.addr := by
      rcases hg with hg | hg | hg <;> rw [hg]
      · exact portReg_stat k hk
      · exact portReg_evt k hk
      · exact portReg_ctl k hk
    apply State.linkDown_getF_of_addr_ne s lp hlp g hport <;> rcases hg with hg | hg | hg <;> rw [hg] <;>
      simp only [Reg.portLpStat, Reg.portLpEvt, Reg.portLpCtl, Reg.portLpSpare] <;> omega
  · cases hup : s.dllUp lp with
    | true => exact ((s.linkDown_spec lp hlp hup).2.2.2.1 k hk hne).1
    | false =>
      rw [s.linkDown_of_down lp hup]
      exact State.getF_setF_ne _ _ _ _ (.inl (by
        simp only [Fld.portLpDropStatBusy, Fld.portLpStatLtssm, Reg.portLpDropStat, Reg.portLpStat]; omega))
  · cases hup : s.dllUp lp with
    | true => exact ((s.linkDown_spec lp hlp hup).2.2.2.1 k hk hne).2
    | false =>
      rw [s.linkDown_of_down lp hup]
      rfl
  · cases hup : s.dllUp lp with
    | true => exact (s.linkDown_spec lp hlp hup).2.2.2.2
    | false =>
      rw [s.linkDown_of_down lp hup]
      rfl

/-- Port `k` of `s` is down in `t`; where its link was up, that shows. -/
def FellDown (s t : State) (k : Nat) : Prop :=
  t.dllUp k = false ∧ [0, 6, 7].contains (t.getF (Fld.portLpStatLtssm k)) = true ∧ (s.role k ≠ 1 → t.getF (Fld.portLpStatLtssm k) = 0) ∧
  (s.dllUp k = true → t.getF (Fld.portLpEvtLinkdown k) = 1 ∧ t.getF (Fld.portLpDropStatBusy k) = 1 ∧ (t.lnk k).dropAt = some s.tick)

theorem State.linkDown_fellDown (s : State) {lp : Nat} (hlp : lp < 64) : FellDown s (s.linkDown lp) lp := by
  obtain ⟨hcases, hdetect⟩ := State.restState_cases s lp
  refine ⟨State.linkDown_dllUp_self s lp hlp, ?_, fun hrole => ?_, State.linkDown_shows s hlp⟩ <;> rw [State.linkDown_ltssm s hlp]
  · exact hcases
  · exact hdetect hrole

theorem FellDown.after {s t u : State} {k : Nat} (h : FellDown s t k) (g : PortSame t u k) : FellDown s u k := by
  obtain ⟨hdown, hltssm, hdetect, hshows⟩ := h
  have hkeep := g.getF (Fld.portLpStatLtssm k) (.inl rfl)
  refine ⟨g.dllUp.trans hdown, by rw [hkeep]; exact hltssm, fun hrole => hkeep.trans (hdetect hrole), fun hup => ?_⟩
  obtain ⟨hevt, hbusy, hdrop⟩ := hshows hup
  exact ⟨(g.getF (Fld.portLpEvtLinkdown k) (.inr (.inl rfl))).trans hevt, g.busy.trans hbusy, g.drop.trans hdrop⟩

theorem FellDown.before {s t u : State} {k : Nat} (h : PortSame s t k) (g : FellDown t u k) : FellDown s u k := by
  obtain ⟨hdown, hltssm, hdetect, hshows⟩ := g
  refine ⟨hdown, hltssm, fun hrole => hdetect (by rw [h.role]; exact hrole), fun hup => ?_⟩
  obtain ⟨hevt, hbusy, hdrop⟩ := hshows (h.dllUp.trans hup)
  exact ⟨hevt, hbusy, by rw [hdrop, h.tick]⟩

/-- A link down of port `l`, where it exists. -/
def State.downIf (s : State) (l : Nat) : State := if s.lpExists l then s.linkDown l else s

theorem PortSame.refl (s : State) (k : Nat) : PortSame s s k := ⟨fun _ _ => rfl, rfl, rfl, rfl, rfl⟩

theorem State.downIf_portSame (s : State) {l k : Nat} (hl : l < 64) (hk : k < 64) (hne : k ≠ l) : PortSame s (s.downIf l) k := by
  unfold State.downIf
  split
  · exact State.linkDown_portSame s hl hk hne
  · exact PortSame.refl s k

theorem State.downIf_fellDown (s : State) {l : Nat} (hl : l < 64) (h : s.lpExists l = true) : FellDown s (s.downIf l) l := by
  rw [State.downIf, if_pos h]
  exact State.linkDown_fellDown s hl

/-! ### PERST (R43) -/

/-- PERST asserted, with each logical port of the pin down. -/
def State.perstDown (s : State) (n : Nat) : State :=
  ((s.setF (Fld.portPinStatPerst n) 1).downIf (2 * n)).downIf (2 * n + 1)

theorem exec_perstAssert (n : Phys) (s : State) : exec (.perstAssert n) s = act s (·.perstDown n.val) := rfl

theorem State.perst_portSame (s : State) {n k : Nat} (_hn : n < 32) (v : Nat) : PortSame s (s.setF (Fld.portPinStatPerst n) v) k := by
  have hrd : ∀ a, a ≠ Reg.portPinStat n → (s.setF (Fld.portPinStatPerst n) v).rd a = s.rd a := fun a ha => State.rd_setF_ne _ _ _ _ ha
  refine ⟨fun g hg => getF_addr g (hrd _ ?_), getF_addr _ (hrd _ ?_), rfl, rfl, ?_⟩
  · rcases hg with hg | hg | hg <;> rw [hg] <;> simp only [Reg.portLpStat, Reg.portLpEvt, Reg.portLpCtl, Reg.portPinStat] <;> omega
  · simp only [Fld.portLpDropStatBusy, Reg.portLpDropStat, Reg.portPinStat]
    omega
  · have hshape : (s.setF (Fld.portPinStatPerst n) v).shape (k / 2) = s.shape (k / 2) :=
      getF_addr (Fld.portCfgMode (k / 2)) (hrd _ (by simp only [Fld.portCfgMode, Reg.portCfg, Reg.portPinStat]; omega))
    unfold State.lpExists
    rw [hshape]

/-- The pin's own field is no port's LP_STAT, LP_EVT or spare lanes. -/
theorem State.downIf_pin (s : State) {l n : Nat} (hl : l < 64) (hn : n < 32) :
    (s.downIf l).getF (Fld.portPinStatPerst n) = s.getF (Fld.portPinStatPerst n) := by
  unfold State.downIf
  split
  · apply State.linkDown_getF_of_addr_ne s l hl _ (portReg_pin n hn) <;>
      simp only [Fld.portPinStatPerst, Reg.portPinStat, Reg.portLpStat, Reg.portLpEvt, Reg.portLpSpare] <;> omega
  · rfl

theorem perstAssert_takesDown (s : State) (n : Phys) :
    Completes (.perstAssert n) s (fun t => t.getF (Fld.portPinStatPerst n.val) = 1 ∧
      ∀ k, k = 2 * n.val ∨ k = 2 * n.val + 1 → s.lpExists k = true →
        t.dllUp k = false ∧ [0, 6, 7].contains (t.getF (Fld.portLpStatLtssm k)) = true ∧
        (s.role k ≠ 1 → t.getF (Fld.portLpStatLtssm k) = 0) ∧
        (s.dllUp k = true → t.getF (Fld.portLpEvtLinkdown k) = 1 ∧ t.getF (Fld.portLpDropStatBusy k) = 1 ∧ (t.lnk k).dropAt = some s.tick)) := by
  have hn : n.val < 32 := n.isLt
  obtain ⟨u, hu⟩ : ∃ u, u = s.setF (Fld.portPinStatPerst n.val) 1 := ⟨_, rfl⟩
  have hsame : ∀ k, PortSame s u k := fun k => hu ▸ State.perst_portSame s hn 1
  have heven : 2 * n.val < 64 := by omega
  have hodd : 2 * n.val + 1 < 64 := by omega
  have hstep : s.perstDown n.val = (u.downIf (2 * n.val)).downIf (2 * n.val + 1) := by rw [hu]; rfl
  refine Completes.of_any _ (exec_perstAssert n s) hstep ⟨?_, fun k hk hex => ?_⟩
  · refine Eq.trans (State.downIf_pin _ hodd hn) ((State.downIf_pin _ heven hn).trans ?_)
    rw [hu]
    exact getF_fit _ _ _ (by simp [Fld.portPinStatPerst]) (by simp [Fld.portPinStatPerst])
  · have hux : u.lpExists k = true := (hsame k).exists_.trans hex
    suffices hfell : FellDown u ((u.downIf (2 * n.val)).downIf (2 * n.val + 1)) k from FellDown.before (hsame k) hfell
    rcases hk with rfl | rfl
    · exact (State.downIf_fellDown u heven hux).after (State.downIf_portSame _ hodd heven (by omega))
    · have hkeep := State.downIf_portSame u heven hodd (by omega)
      exact FellDown.before hkeep (State.downIf_fellDown _ hodd (hkeep.exists_.trans hux))

theorem perstDeassert_shows (s : State) (n : Phys) :
    Completes (.perstDeassert n) s (fun t => t.getF (Fld.portPinStatPerst n.val) = 0 ∧ RegsOnly s t [Fld.portPinStatPerst n.val]) := by
  refine Completes.of_eq (f := (·.setF (Fld.portPinStatPerst n.val) 0)) _ rfl rfl rfl rfl ⟨?_, rfl, ?_⟩
  · exact getF_fit _ _ _ (by simp [Fld.portPinStatPerst]) (by simp [Fld.portPinStatPerst])
  · exact OnlyFields.setF _ _ _ _ (by simp)

/-! ### CFG (R37, R51) -/

/-- REFUSED of a port changed leaves every other field of CFG, and every other register. -/
theorem getF_refused_ne (s : State) (n v : Nat) (g : Fd) (h : g.addr ≠ Reg.portCfg n ∨ g.lo + g.width ≤ 2) :
    (s.setF (Fld.portCfgRefused n) v).getF g = s.getF g := State.getF_setF_ne _ _ _ _ (h.imp id .inl)

theorem State.shape_refused (s : State) (n v m : Nat) : (s.setF (Fld.portCfgRefused n) v).shape m = s.shape m :=
  getF_refused_ne s n v (Fld.portCfgMode m) (.inr (by simp [Fld.portCfgMode]))

/-- Whether R37 or R51 refuses a MODE does not depend on REFUSED. -/
theorem State.modeRefused_refused (s : State) (n v mode : Nat) :
    (s.setF (Fld.portCfgRefused n) v).modeRefused n mode = s.modeRefused n mode := by
  have hexists : ∀ l, (s.setF (Fld.portCfgRefused n) v).lpExists l = s.lpExists l := fun l => by
    unfold State.lpExists
    rw [State.shape_refused]
  have henable : ∀ l, (s.setF (Fld.portCfgRefused n) v).getF (Fld.portLpCtlEnable l) = s.getF (Fld.portLpCtlEnable l) := fun l =>
    getF_refused_ne s n v _ (.inr (by simp [Fld.portLpCtlEnable]))
  unfold State.modeRefused State.affected
  simp only [State.shape_refused, hexists, henable]

/-- A write of CFG before its MODE is looked at: REFUSED clears where written 1. -/
def State.refusedCleared (s : State) (n : Nat) (v : Word) : State := if fieldGet v 2 1 = 1 then s.setF (Fld.portCfgRefused n) 0 else s

theorem State.refusedCleared_only (s : State) (n : Nat) (v : Word) : RegsOnly s (s.refusedCleared n v) [Fld.portCfgRefused n] := by
  unfold State.refusedCleared
  split
  · exact ⟨rfl, OnlyFields.setF _ _ _ _ (by simp)⟩
  · exact ⟨rfl, OnlyFields.refl s _⟩

theorem State.shape_refusedCleared (s : State) (n : Nat) (v : Word) (m : Nat) : (s.refusedCleared n v).shape m = s.shape m := by
  unfold State.refusedCleared
  split
  · exact State.shape_refused s n 0 m
  · rfl

theorem State.modeRefused_refusedCleared (s : State) (n : Nat) (v : Word) (mode : Nat) :
    (s.refusedCleared n v).modeRefused n mode = s.modeRefused n mode := by
  unfold State.refusedCleared
  split
  · exact State.modeRefused_refused s n 0 mode
  · rfl

theorem State.cfgModeWrite_eq (s : State) (n : Nat) (v : Word) : s.cfgModeWrite n v =
    if fieldGet v 0 2 = (s.refusedCleared n v).shape n then s.refusedCleared n v
    else if (s.refusedCleared n v).modeRefused n (fieldGet v 0 2) then (s.refusedCleared n v).setF (Fld.portCfgRefused n) 1
    else (s.refusedCleared n v).setShape n (fieldGet v 0 2) := rfl

theorem cfgModeWrite_refused (s : State) (n : Phys) (v : Word) (hshape : fieldGet v 0 2 ≠ s.shape n.val)
    (hrefused : s.modeRefused n.val (fieldGet v 0 2) = true) :
    Completes (.cfgModeWrite n v) s (fun t => t.getF (Fld.portCfgRefused n.val) = 1 ∧ RegsOnly s t [Fld.portCfgRefused n.val]) := by
  obtain ⟨hframe, honly⟩ := State.refusedCleared_only s n.val v
  have hstep : s.cfgModeWrite n.val v = (s.refusedCleared n.val v).setF (Fld.portCfgRefused n.val) 1 := by
    rw [State.cfgModeWrite_eq, State.shape_refusedCleared, if_neg hshape, State.modeRefused_refusedCleared s n.val, hrefused, if_pos rfl]
  have hregs : RO s ((s.refusedCleared n.val v).setF (Fld.portCfgRefused n.val) 1) := RO.stepF hframe _ _
  refine Completes.of_eq (f := (·.cfgModeWrite n.val v)) _ rfl hstep hregs.pending hregs.tick ⟨?_, hregs, honly.stepF _ _ (by simp)⟩
  exact getF_fit _ _ _ (by simp [Fld.portCfgRefused]) (by simp [Fld.portCfgRefused])

theorem cfgModeWrite_same (s : State) (n : Phys) (v : Word) (hshape : fieldGet v 0 2 = s.shape n.val) :
    Completes (.cfgModeWrite n v) s (fun t =>
      t.getF (Fld.portCfgRefused n.val) = (if fieldGet v 2 1 = 1 then 0 else s.getF (Fld.portCfgRefused n.val)) ∧
      RegsOnly s t [Fld.portCfgRefused n.val]) := by
  have honly := State.refusedCleared_only s n.val v
  have hstep : s.cfgModeWrite n.val v = s.refusedCleared n.val v := by
    rw [State.cfgModeWrite_eq, State.shape_refusedCleared, if_pos hshape]
  have hregs : RO s (s.refusedCleared n.val v) := honly.1
  refine Completes.of_eq (f := (·.cfgModeWrite n.val v)) _ rfl hstep hregs.pending hregs.tick ⟨?_, honly⟩
  unfold State.refusedCleared
  split
  · exact getF_fit _ _ _ (by simp [Fld.portCfgRefused]) (by simp [Fld.portCfgRefused])
  · rfl

/-! ### LP_CTL (R36, R37, R52) -/

theorem lpCtlWrite_absent (s : State) (lp : Lp) (v : Word) (h : s.lpExists lp.val = false) : exec (.lpCtlWrite lp v) s = .next s :=
  exec_of_act (f := (·.lpCtlWrite lp.val v)) s rfl (if_pos (by simp [h])) rfl rfl

theorem lpCtlWrite_refused (s : State) (lp : Lp) (v : Word) (hexists : s.lpExists lp.val = true) (hrefused : s.lpCtlRefused lp.val v = true) :
    Completes (.lpCtlWrite lp v) s (fun t =>
      t.getF (Fld.portCfgRefused (lp.val / 2)) = 1 ∧ RegsOnly s t [Fld.portCfgRefused (lp.val / 2)]) := by
  have hstep : s.lpCtlWrite lp.val v = s.setF (Fld.portCfgRefused (lp.val / 2)) 1 := by
    rw [State.lpCtlWrite, hexists, hrefused]
    rfl
  refine Completes.of_eq (f := (·.lpCtlWrite lp.val v)) _ rfl hstep rfl rfl ⟨?_, rfl, OnlyFields.setF _ _ _ _ (by simp)⟩
  exact getF_fit _ _ _ (by simp [Fld.portCfgRefused]) (by simp [Fld.portCfgRefused])

/-- An accepted write of LP_CTL, before the instance of its port comes or goes. -/
def State.lpCtlTaken (s : State) (lp : Nat) (v : Word) : State :=
  let s := s.setFs [(Fld.portLpCtlEnable lp, fieldGet v 0 1), (Fld.portLpCtlRole lp, fieldGet v 1 2), (Fld.portLpCtlStewardEp lp, fieldGet v 3 1)]
  if fieldGet v 1 2 = 1 then s else s.setF (Fld.portLpStatDpc lp) 0

/-- The instance of a port comes or goes with its STEWARD_EP. -/
def State.lpCtlEp (s : State) (lp : Nat) (v : Word) (had : Bool) : State :=
  if decide (fieldGet v 1 2 = 0 ∧ fieldGet v 3 1 = 1) && !had then s.epAppear lp
  else if had && !decide (fieldGet v 1 2 = 0 ∧ fieldGet v 3 1 = 1) then s.epVanish lp else s

/-- ENABLE cleared takes the link down. -/
def State.lpCtlDown (s : State) (lp : Nat) : State :=
  if s.dllUp lp ∨ s.role lp = 1 then s.linkDown lp else (s.linkDown lp).sweepStart lp false

/-- The parts of an accepted write of LP_CTL. -/
theorem State.lpCtlWrite_of_taken {s : State} {lp : Nat} {v : Word} (hexists : s.lpExists lp = true) (hrefused : s.lpCtlRefused lp v = false) :
    s.lpCtlWrite lp v = (((if s.getF (Fld.portLpCtlEnable lp) = 1 ∧ fieldGet v 0 1 = 0
      then ((s.lpCtlTaken lp v).lpCtlEp lp v (s.instOf lp).isSome).lpCtlDown lp
      else (s.lpCtlTaken lp v).lpCtlEp lp v (s.instOf lp).isSome).clkreqs (lp / 2)).refreshPort lp) := by
  rw [State.lpCtlWrite, hexists, hrefused]
  rfl

theorem State.lpCtlEp_ports (s : State) (lp : Nat) (v : Word) (had : Bool) : PortKeep s (s.lpCtlEp lp v had) := by
  unfold State.lpCtlEp
  split
  · exact State.epAppear_ports s lp
  · split
    · exact State.epVanish_ports s lp
    · exact PortKeep.refl s

theorem fieldGet_lt (v : Word) (lo n : Nat) : fieldGet v lo n < 2 ^ n := Nat.mod_lt _ (Nat.two_pow_pos n)

/-- What LP_CTL and its own DPC show once a write is taken. -/
theorem State.lpCtlTaken_shows (s : State) (lp : Nat) (v : Word) :
    (s.lpCtlTaken lp v).getF (Fld.portLpCtlEnable lp) = fieldGet v 0 1 ∧ (s.lpCtlTaken lp v).getF (Fld.portLpCtlRole lp) = fieldGet v 1 2 ∧
    (s.lpCtlTaken lp v).getF (Fld.portLpCtlStewardEp lp) = fieldGet v 3 1 := by
  obtain ⟨u, hu⟩ : ∃ u, u = s.setFs [(Fld.portLpCtlEnable lp, fieldGet v 0 1), (Fld.portLpCtlRole lp, fieldGet v 1 2),
    (Fld.portLpCtlStewardEp lp, fieldGet v 3 1)] := ⟨_, rfl⟩
  have hkeep : ∀ g : Fd, g.addr = Reg.portLpCtl lp → (s.lpCtlTaken lp v).getF g = u.getF g := fun g hg => by
    unfold State.lpCtlTaken
    rw [← hu]
    dsimp only
    split
    · rfl
    · exact State.getF_setF_ne _ _ _ _ (.inl (by rw [hg]; simp only [Fld.portLpStatDpc, Reg.portLpStat, Reg.portLpCtl]; omega))
  have h0 := fieldGet_lt v 0 1
  have h1 := fieldGet_lt v 1 2
  have h3 := fieldGet_lt v 3 1
  have hwrites : Writes s u [(Fld.portLpCtlEnable lp, fieldGet v 0 1), (Fld.portLpCtlRole lp, fieldGet v 1 2),
      (Fld.portLpCtlStewardEp lp, fieldGet v 3 1)] := by
    rw [hu]
    refine Writes.setFs _ (fun x hx => ?_) ?_ s
    · simp only [List.mem_cons, List.not_mem_nil, or_false] at hx
      rcases hx with rfl | rfl | rfl
      · exact ⟨by simp [Fld.portLpCtlEnable], h0⟩
      · exact ⟨by simp [Fld.portLpCtlRole], h1⟩
      · exact ⟨by simp [Fld.portLpCtlStewardEp], h3⟩
    · simp [Fld.portLpCtlEnable, Fld.portLpCtlRole, Fld.portLpCtlStewardEp]
  exact ⟨(hkeep _ rfl).trans (hwrites.1 (Fld.portLpCtlEnable lp, fieldGet v 0 1) (by simp)),
    (hkeep _ rfl).trans (hwrites.1 (Fld.portLpCtlRole lp, fieldGet v 1 2) (by simp)),
    (hkeep _ rfl).trans (hwrites.1 (Fld.portLpCtlStewardEp lp, fieldGet v 3 1) (by simp))⟩

/-- A taken write leaves every register but LP_CTL and LP_STAT of its port. -/
theorem State.lpCtlTaken_rd (s : State) (lp : Nat) (v : Word) {a : Nat} (hctl : a ≠ Reg.portLpCtl lp) (hstat : a ≠ Reg.portLpStat lp) :
    (s.lpCtlTaken lp v).rd a = s.rd a := by
  have hfields : (s.setFs [(Fld.portLpCtlEnable lp, fieldGet v 0 1), (Fld.portLpCtlRole lp, fieldGet v 1 2),
      (Fld.portLpCtlStewardEp lp, fieldGet v 3 1)]).rd a = s.rd a := by
    rw [setFs3, State.rd_setF_ne _ _ _ _ hctl, State.rd_setF_ne _ _ _ _ hctl, State.rd_setF_ne _ _ _ _ hctl]
  unfold State.lpCtlTaken
  dsimp only
  split
  · exact hfields
  · rw [State.rd_setF_ne _ _ _ _ hstat, hfields]

theorem State.lpCtlTaken_regs (s : State) (lp : Nat) (v : Word) : RO s (s.lpCtlTaken lp v) := by
  unfold State.lpCtlTaken
  dsimp only
  split
  · exact (RO.refl s).stepFs _
  · exact ((RO.refl s).stepFs _).stepF _ _

theorem State.clkreqs_regs (s : State) (n : Nat) : RO s (s.clkreqs n) := ((RO.refl s).stepF _ _).stepF _ _

/-- Of a PORT register, but the pins', what an accepted write leaves is what is there once its links have gone down. -/
theorem State.lpCtl_tail (s : State) (lp : Nat) {a : Nat} (ha : PortReg a) (hpin : ∀ k, a ≠ Reg.portPinStat k) :
    ((s.clkreqs (lp / 2)).refreshPort lp).rd a = s.rd a := by
  rw [(State.refreshPort_ports _ lp).rd a ha, State.clkreqs_rd _ _ _ hpin]

/-! ### The release of upstream ports (R45) -/

/-- A write of ENABLE keeps ROLE and STEWARD_EP, and is refused for no port. -/
theorem fieldGet_or_one (w : Word) : fieldGet (w ||| 1) 0 1 = 1 ∧ fieldGet (w ||| 1) 1 2 = fieldGet w 1 2 ∧ fieldGet (w ||| 1) 3 1 = fieldGet w 3 1 := by
  have hbit : ∀ b, (w ||| 1).getLsbD b = (w.getLsbD b || decide (b = 0)) := fun b => by
    rw [BitVec.getLsbD_or]
    cases b <;> simp
  have hkeep : ∀ lo n, 0 < lo → fieldGet (w ||| 1) lo n = fieldGet w lo n := fun lo n hlo => by
    refine Nat.eq_of_testBit_eq (fun b => ?_)
    rw [testBit_fieldGet, testBit_fieldGet, hbit, decide_eq_false (show ¬lo + b = 0 by omega), Bool.or_false]
  refine ⟨Nat.eq_of_testBit_eq (fun b => ?_), hkeep 1 2 (by decide), hkeep 3 1 (by decide)⟩
  rw [testBit_fieldGet, hbit]
  cases b with
  | zero => simp
  | succ b => rw [Nat.testBit_succ]; simp

/-- An enabling write is never refused: it changes neither ROLE nor STEWARD_EP. -/
theorem State.enableLp_taken (s : State) (l : Nat) : s.lpCtlRefused l (s.rd (Reg.portLpCtl l) ||| 1) = false := by
  obtain ⟨-, hrole, hep⟩ := fieldGet_or_one (s.rd (Reg.portLpCtl l))
  have hrole' : fieldGet (s.rd (Reg.portLpCtl l) ||| 1) 1 2 = s.role l := hrole
  have hep' : fieldGet (s.rd (Reg.portLpCtl l) ||| 1) 3 1 = s.getF (Fld.portLpCtlStewardEp l) := hep
  generalize s.rd (Reg.portLpCtl l) ||| 1 = w at hrole' hep' ⊢
  simp [State.lpCtlRefused, hrole', hep']

/-- An enabling write takes no link down. -/
theorem State.enableLp_eq {s : State} {l : Nat} (hexists : s.lpExists l = true) : s.enableLp l =
    (((s.lpCtlTaken l (s.rd (Reg.portLpCtl l) ||| 1)).lpCtlEp l (s.rd (Reg.portLpCtl l) ||| 1) (s.instOf l).isSome).clkreqs (l / 2)).refreshPort l := by
  obtain ⟨henable, -⟩ := fieldGet_or_one (s.rd (Reg.portLpCtl l))
  rw [State.enableLp, State.lpCtlWrite_of_taken hexists (State.enableLp_taken s l), if_neg (fun h => absurd (henable.symm.trans h.2) (by decide))]

theorem portLpCtl_ne_pin (k n : Nat) : Reg.portLpCtl k ≠ Reg.portPinStat n := by
  simp only [Reg.portLpCtl, Reg.portPinStat]
  omega

theorem portCfg_ne_pin (k n : Nat) : Reg.portCfg k ≠ Reg.portPinStat n := by
  simp only [Reg.portCfg, Reg.portPinStat]
  omega

/-- A logical port that is upstream, and enabled where it was, stays so when a port is enabled. -/
theorem State.enableLp_keeps (s : State) (l : Nat) {k : Nat} (hk : k < 64) (hup : s.isRole k 0 = true) :
    (s.enableLp l).isRole k 0 = true ∧
    ((s.getF (Fld.portLpCtlEnable k) = 1 ∨ k = l) → (s.enableLp l).getF (Fld.portLpCtlEnable k) = 1) := by
  by_cases hexists : s.lpExists l = true
  · obtain ⟨w, hw⟩ : ∃ w, w = s.rd (Reg.portLpCtl l) ||| 1 := ⟨_, rfl⟩
    obtain ⟨u, hu⟩ : ∃ u, u = s.lpCtlTaken l w := ⟨_, rfl⟩
    have hep := State.lpCtlEp_ports u l w (s.instOf l).isSome
    obtain ⟨x, hx⟩ : ∃ x, x = u.lpCtlEp l w (s.instOf l).isSome := ⟨_, rfl⟩
    have hall : s.enableLp l = (x.clkreqs (l / 2)).refreshPort l := by rw [State.enableLp_eq hexists, hx, hu, hw]
    rw [← hx] at hep
    obtain ⟨henable, hrole, hsteward⟩ := fieldGet_or_one (s.rd (Reg.portLpCtl l))
    rw [← hw] at henable hrole hsteward
    obtain ⟨htaken, htakenRole, -⟩ := State.lpCtlTaken_shows s l w
    rw [← hu] at htaken htakenRole
    have hctl : ∀ g : Fd, g.addr = Reg.portLpCtl k → (s.enableLp l).getF g = u.getF g := fun g hg => by
      have hreg : PortReg g.addr := by rw [hg]; exact portReg_ctl k hk
      rw [hall]
      exact (getF_addr g (State.lpCtl_tail x l hreg (fun n => by rw [hg]; exact portLpCtl_ne_pin k n))).trans (hep.getF g hreg)
    have hcfg : (s.enableLp l).getF (Fld.portCfgMode (k / 2)) = s.getF (Fld.portCfgMode (k / 2)) := by
      have hreg : PortReg (Fld.portCfgMode (k / 2)).addr := portReg_cfg (k / 2) (by omega)
      rw [hall]
      refine (getF_addr _ (State.lpCtl_tail x l hreg (fun n => portCfg_ne_pin _ n))).trans ((hep.getF _ hreg).trans (getF_addr _ ?_))
      rw [hu]
      apply State.lpCtlTaken_rd <;> simp only [Fld.portCfgMode, Reg.portCfg, Reg.portLpCtl, Reg.portLpStat] <;> omega
    have hsame : k ≠ l → ∀ g : Fd, g.addr = Reg.portLpCtl k → u.getF g = s.getF g := fun hne g hg => getF_addr g (by
      rw [hu]
      apply State.lpCtlTaken_rd <;> rw [hg] <;> simp only [Reg.portLpCtl, Reg.portLpStat] <;> omega)
    have hroleKept : (s.enableLp l).role k = s.role k := by
      refine (hctl (Fld.portLpCtlRole k) rfl).trans ?_
      by_cases hkl : k = l
      · subst hkl
        exact htakenRole.trans hrole
      · exact hsame hkl _ rfl
    have hexistsKept : (s.enableLp l).lpExists k = s.lpExists k := by
      unfold State.lpExists State.shape
      rw [hcfg]
    refine ⟨by rw [State.isRole, hroleKept, hexistsKept]; exact hup, fun hon => ?_⟩
    · refine (hctl (Fld.portLpCtlEnable k) rfl).trans ?_
      by_cases hkl : k = l
      · subst hkl
        exact htaken.trans henable
      · exact (hsame hkl _ rfl).trans (hon.resolve_right hkl)
  · have hnone : s.enableLp l = s := if_pos (by simpa using hexists)
    rw [hnone]
    refine ⟨hup, fun hon => hon.resolve_right (fun hkl => hexists ?_)⟩
    rw [← hkl]
    exact (Bool.and_eq_true _ _ ▸ hup : _ ∧ _).1

/-- One port of the configuration store at the release of the upstream ports. -/
def State.releaseLp (s : State) (l : Nat) : State := if s.role l = 0 then s.enableLp l else s

theorem State.releaseLp_keeps (s : State) (l : Nat) {k : Nat} (hk : k < 64) (hup : s.isRole k 0 = true) :
    (s.releaseLp l).isRole k 0 = true ∧
    ((s.getF (Fld.portLpCtlEnable k) = 1 ∨ k = l) → (s.releaseLp l).getF (Fld.portLpCtlEnable k) = 1) := by
  unfold State.releaseLp
  split
  · exact State.enableLp_keeps s l hk hup
  · rename_i hrole
    refine ⟨hup, fun hon => hon.resolve_right (fun hkl => hrole ?_)⟩
    rw [← hkl]
    exact of_decide_eq_true (Bool.and_eq_true _ _ ▸ hup : _ ∧ _).2

theorem State.releaseAll_keeps (ls : List Nat) (s : State) {k : Nat} (hk : k < 64) (hup : s.isRole k 0 = true) :
    ((s.getF (Fld.portLpCtlEnable k) = 1 ∨ k ∈ ls) → (ls.foldl State.releaseLp s).getF (Fld.portLpCtlEnable k) = 1) := by
  induction ls generalizing s with
  | nil => exact fun h => h.resolve_right List.not_mem_nil
  | cons l ls ih =>
    intro h
    obtain ⟨hrole, hon⟩ := State.releaseLp_keeps s l hk hup
    refine ih (s.releaseLp l) hrole ?_
    rcases h with h | h
    · exact .inl (hon (.inl h))
    · exact (List.mem_cons.1 h).imp (fun hkl => hon (.inr hkl)) id

/-- No enabling undoes the release. -/
theorem State.enableLp_released (s : State) (l : Nat) : (s.enableLp l).link.released = s.link.released := by
  by_cases hexists : s.lpExists l = true
  · rw [State.enableLp_eq hexists, (State.refreshPort_ports _ l).rel, State.clkreqs_regs]
    exact ((State.lpCtlEp_ports _ l _ _).rel).trans (by rw [State.lpCtlTaken_regs])
  · have hnone : s.enableLp l = s := if_pos (by simpa using hexists)
    rw [hnone]

theorem State.releaseAll_released (ls : List Nat) (s : State) : (ls.foldl State.releaseLp s).link.released = s.link.released :=
  List.foldlRecOn (motive := fun t => t.link.released = s.link.released) ls State.releaseLp rfl (fun t h l _ => by
    unfold State.releaseLp
    split
    · exact (State.enableLp_released t l).trans h
    · exact h)

/-- UPSTREAM_RELEASE's effect. -/
def State.upstreamReleased (s : State) : State :=
  if s.getF Fld.cprStartStep = 7 ∧ !s.link.released ∧ s.mayRelease then
    let s := { s with link := { s.link with released := true } }
    s.cfg.ports.foldl State.releaseLp s
  else s

theorem exec_upstreamRelease (s : State) : exec .upstreamRelease s = act s (·.upstreamReleased) := rfl

theorem upstreamRelease_enables (s : State) (hstep : s.getF Fld.cprStartStep = 7) (hnot : s.link.released = false) (hmay : s.mayRelease = true) :
    Completes .upstreamRelease s (fun t => t.link.released = true ∧
      ∀ l ∈ s.cfg.ports, l < 64 → s.isRole l 0 = true → t.getF (Fld.portLpCtlEnable l) = 1) := by
  have hrun : s.upstreamReleased = s.cfg.ports.foldl State.releaseLp { s with link := { s.link with released := true } } :=
    if_pos ⟨hstep, by rw [hnot]; rfl, hmay⟩
  refine Completes.of_any _ (exec_upstreamRelease s) hrun ⟨?_, fun l hl hl64 hup => ?_⟩
  · exact State.releaseAll_released s.cfg.ports { s with link := { s.link with released := true } }
  · exact State.releaseAll_keeps s.cfg.ports { s with link := { s.link with released := true } } hl64 hup (.inr hl)

theorem upstreamRelease_once (s : State) (h : s.getF Fld.cprStartStep ≠ 7 ∨ s.link.released = true) : exec .upstreamRelease s = .next s := by
  refine exec_of_act s (exec_upstreamRelease s) (if_neg ?_) rfl rfl
  rintro ⟨hstep, hnot, -⟩
  rcases h with h | h
  · exact h hstep
  · rw [h] at hnot
    exact absurd hnot (by decide)

/-! ### Refusals, presence, containment and L0p (R38, R39, R47, R48) -/

theorem flitModeRetry_retries (s : State) (lp : Lp)
    (hpast : s.aonPast (s.lnk lp.val).refuseAt (250000 * s.getF (Fld.portLpTrainRetryMs lp.val)) = true) :
    Completes (.flitModeRetry lp) s (fun t => t.lnk lp.val = { s.lnk lp.val with refused := false } ∧
      (∀ k, k ≠ lp.val → t.lnk k = s.lnk k) ∧ t = { s with link := { s.link with links := t.link.links } }) := by
  have hstep : s.when (s.aonPast (s.lnk lp.val).refuseAt (250000 * s.getF (Fld.portLpTrainRetryMs lp.val)))
      (·.modLnk lp.val (fun l => { l with refused := false })) = s.modLnk lp.val (fun l => { l with refused := false }) := by
    rw [hpast]
    rfl
  refine Completes.of_eq (f := fun s => s.when (s.aonPast (s.lnk lp.val).refuseAt (250000 * s.getF (Fld.portLpTrainRetryMs lp.val)))
      (·.modLnk lp.val (fun l => { l with refused := false }))) _ rfl hstep rfl rfl ⟨?_, fun k hk => ?_, rfl⟩ <;> rw [lnk_mod]
  · exact if_pos rfl
  · exact if_neg hk

theorem flitModeRetry_waits (s : State) (lp : Lp)
    (hpast : s.aonPast (s.lnk lp.val).refuseAt (250000 * s.getF (Fld.portLpTrainRetryMs lp.val)) = false) :
    exec (.flitModeRetry lp) s = .next s :=
  exec_of_act (f := fun s => s.when (s.aonPast (s.lnk lp.val).refuseAt (250000 * s.getF (Fld.portLpTrainRetryMs lp.val)))
    (·.modLnk lp.val (fun l => { l with refused := false }))) s rfl (if_neg (by simp [hpast])) rfl rfl

/-- PRESENCE_CHANGE's effect. -/
def State.presenceAt (s : State) (p : Nat) (present : Bool) : State :=
  if !s.lpExists p || decide (s.getF (Fld.portLpStatPresent p) = bit present) then s
  else
    let s := s.presence p present
    if present then s else (s.linkDown p).modLnk p (fun l => { l with partner := false })

theorem exec_presenceChange (lp : Lp) (present : Bool) (s : State) :
    exec (.presenceChange lp present) s = act s (·.presenceAt lp.val present) := rfl

/-- The fields of a change of presence. -/
def State.presenceShown (s : State) (lp : Nat) (present : Bool) : State :=
  s.setFs [(Fld.portLpStatPresent lp, bit present), (Fld.portLpEvtPresence lp, 1)]

/-- A change of presence shows its fields; what follows leaves the PORT registers. -/
theorem State.presence_ports {s : State} {lp : Nat} {present : Bool} (h : s.getF (Fld.portLpStatPresent lp) ≠ bit present) :
    PortKeep (s.presenceShown lp present) (s.presence lp present) := by
  unfold State.presence
  rw [if_neg h]
  have hslot := State.slotEvent_ports (s.presenceShown lp present) lp 3
  unfold State.presenceShown at hslot ⊢
  dsimp only
  split
  · exact hslot.trans (State.fmEvent_ports _ _ _)
  · exact hslot

theorem State.presenceShown_shows (s : State) (lp : Nat) (present : Bool) :
    (s.presenceShown lp present).getF (Fld.portLpStatPresent lp) = bit present ∧
    (s.presenceShown lp present).getF (Fld.portLpEvtPresence lp) = 1 ∧ (s.presenceShown lp present).dllUp lp = s.dllUp lp := by
  have hapart : Reg.portLpStat lp ≠ Reg.portLpEvt lp := by
    simp only [Reg.portLpStat, Reg.portLpEvt]
    omega
  have hbit : bit present < 2 ^ (Fld.portLpStatPresent lp).width := by cases present <;> simp [bit, Fld.portLpStatPresent]
  have hwrites : Writes s (s.presenceShown lp present) [(Fld.portLpStatPresent lp, bit present), (Fld.portLpEvtPresence lp, 1)] := by
    refine Writes.setFs _ (fun x hx => ?_) ?_ s
    · simp only [List.mem_cons, List.not_mem_nil, or_false] at hx
      rcases hx with rfl | rfl
      · exact ⟨by simp [Fld.portLpStatPresent], hbit⟩
      · exact ⟨by simp [Fld.portLpEvtPresence], by simp [Fld.portLpEvtPresence]⟩
    · simp [Fld.portLpStatPresent, Fld.portLpEvtPresence, hapart]
  refine ⟨hwrites.1 (Fld.portLpStatPresent lp, bit present) (by simp), hwrites.1 (Fld.portLpEvtPresence lp, 1) (by simp), ?_⟩
  unfold State.dllUp State.presenceShown
  rw [setFs2, State.getF_setF_ne _ (Fld.portLpEvtPresence lp) (Fld.portLpStatDllUp lp) _ (.inl hapart),
    State.getF_setF_ne _ (Fld.portLpStatPresent lp) (Fld.portLpStatDllUp lp) _ (.inr (by simp [Fld.portLpStatDllUp, Fld.portLpStatPresent]))]

/-- Presence changed: its fields show, and the link is up as before. -/
theorem State.presence_shows {s : State} {lp : Nat} (hlp : lp < 64) {present : Bool} (h : s.getF (Fld.portLpStatPresent lp) ≠ bit present) :
    (s.presence lp present).getF (Fld.portLpStatPresent lp) = bit present ∧ (s.presence lp present).getF (Fld.portLpEvtPresence lp) = 1 ∧
    (s.presence lp present).dllUp lp = s.dllUp lp := by
  have hkeep := State.presence_ports h
  obtain ⟨hpresent, hevt, hup⟩ := State.presenceShown_shows s lp present
  refine ⟨(hkeep.getF _ (portReg_stat lp hlp)).trans hpresent, (hkeep.getF _ (portReg_evt lp hlp)).trans hevt, ?_⟩
  rw [← hup]
  exact congrArg (fun n => decide (n = 1)) (hkeep.getF (Fld.portLpStatDllUp lp) (portReg_stat lp hlp))

theorem presenceChange_found (s : State) (lp : Lp) (hexists : s.lpExists lp.val = true) (habsent : s.getF (Fld.portLpStatPresent lp.val) = 0) :
    Completes (.presenceChange lp true) s (fun t =>
      t.getF (Fld.portLpStatPresent lp.val) = 1 ∧ t.getF (Fld.portLpEvtPresence lp.val) = 1 ∧ t.dllUp lp.val = s.dllUp lp.val) := by
  have hne : s.getF (Fld.portLpStatPresent lp.val) ≠ bit true := by rw [habsent]; decide
  have hstep : s.presenceAt lp.val true = s.presence lp.val true := by
    rw [State.presenceAt, hexists, decide_eq_false hne]
    rfl
  exact Completes.of_any _ (exec_presenceChange lp true s) hstep (State.presence_shows lp.isLt hne)

/-- The bits of LP_STAT and LP_EVT that a link down does not write. -/
theorem State.linkDown_keeps (s : State) {lp : Nat} (hlp : lp < 64) :
    (s.linkDown lp).getF (Fld.portLpStatPresent lp) = s.getF (Fld.portLpStatPresent lp) ∧
    (s.linkDown lp).getF (Fld.portLpEvtPresence lp) = s.getF (Fld.portLpEvtPresence lp) := by
  constructor
  · refine State.linkDown_getF_apart s hlp _ (portReg_stat lp hlp) ?_ (fun x hx => ?_)
    · simp only [Fld.portLpStatPresent, Reg.portLpStat, Reg.portLpSpare]
      omega
    · simp only [downFields, List.mem_cons, List.not_mem_nil, or_false] at hx
      rcases hx with rfl | rfl | rfl | rfl | rfl | rfl <;> simp [Fld.portLpStatPresent, Fld.portLpStatDllUp, Fld.portLpStatLtssm,
        Fld.portLpStatSpeed, Fld.portLpStatWidth, Fld.portLpEvtLinkdown, Fld.portLpDropStatBusy]
  · refine State.linkDown_getF_apart s hlp _ (portReg_evt lp hlp) ?_ (fun x hx => ?_)
    · simp only [Fld.portLpEvtPresence, Reg.portLpEvt, Reg.portLpSpare]
      omega
    · simp only [downFields, List.mem_cons, List.not_mem_nil, or_false] at hx
      rcases hx with rfl | rfl | rfl | rfl | rfl | rfl <;> simp [Fld.portLpEvtPresence, Fld.portLpStatDllUp, Fld.portLpStatLtssm,
        Fld.portLpStatSpeed, Fld.portLpStatWidth, Fld.portLpEvtLinkdown, Fld.portLpDropStatBusy, Reg.portLpStat, Reg.portLpEvt,
        Reg.portLpDropStat]

theorem presenceChange_removed (s : State) (lp : Lp) (hexists : s.lpExists lp.val = true) (hpresent : s.getF (Fld.portLpStatPresent lp.val) = 1) :
    Completes (.presenceChange lp false) s (fun t =>
      t.getF (Fld.portLpStatPresent lp.val) = 0 ∧ t.getF (Fld.portLpEvtPresence lp.val) = 1 ∧ t.dllUp lp.val = false ∧
      (s.dllUp lp.val = true → t.getF (Fld.portLpEvtLinkdown lp.val) = 1 ∧ t.getF (Fld.portLpDropStatBusy lp.val) = 1)) := by
  have hlp : lp.val < 64 := lp.isLt
  have hne : s.getF (Fld.portLpStatPresent lp.val) ≠ bit false := by rw [hpresent]; decide
  obtain ⟨u, hu⟩ : ∃ u, u = s.presence lp.val false := ⟨_, rfl⟩
  obtain ⟨hshown, hevt, hup⟩ := State.presence_shows hlp hne
  rw [← hu] at hshown hevt hup
  have hstep : s.presenceAt lp.val false = (u.linkDown lp.val).modLnk lp.val (fun l => { l with partner := false }) := by
    rw [State.presenceAt, hexists, decide_eq_false hne, hu]
    rfl
  obtain ⟨hkeptPresent, hkeptEvt⟩ := State.linkDown_keeps u hlp
  refine Completes.of_any _ (exec_presenceChange lp false s) hstep
    ⟨hkeptPresent.trans hshown, hkeptEvt.trans hevt, State.linkDown_dllUp_self u lp.val hlp, fun h => ?_⟩
  obtain ⟨hdown, hbusy, -⟩ := State.linkDown_shows u hlp (hup.trans h)
  exact ⟨hdown, hbusy⟩

theorem dpcTrigger_contains (s : State) (lp : Lp) (hrole : s.isRole lp.val 1 = true) :
    Completes (.dpcTrigger lp) s (fun t => t.getF (Fld.portLpStatDpc lp.val) = 1 ∧ t.dllUp lp.val = false ∧
      (s.dllUp lp.val = true → t.getF (Fld.portLpEvtLinkdown lp.val) = 1 ∧ t.getF (Fld.portLpDropStatBusy lp.val) = 1)) := by
  have hlp : lp.val < 64 := lp.isLt
  have hstep : s.dpcTrigger lp.val = (s.linkDown lp.val).setF (Fld.portLpStatDpc lp.val) 1 := if_pos hrole
  have hkeep : ∀ g : Fd, g.addr ≠ Reg.portLpStat lp.val ∨ g.lo + g.width ≤ 14 →
      ((s.linkDown lp.val).setF (Fld.portLpStatDpc lp.val) 1).getF g = (s.linkDown lp.val).getF g := fun g hg =>
    State.getF_setF_ne _ _ _ _ (hg.imp id .inl)
  refine Completes.of_any (f := (·.dpcTrigger lp.val)) _ rfl hstep ⟨?_, ?_, fun h => ?_⟩
  · exact getF_fit _ _ _ (by simp [Fld.portLpStatDpc]) (by simp [Fld.portLpStatDpc])
  · have hdown := State.linkDown_dllUp_self s lp.val hlp
    rw [← hdown]
    exact congrArg (fun n => decide (n = 1)) (hkeep (Fld.portLpStatDllUp lp.val) (.inr (by simp [Fld.portLpStatDllUp])))
  · obtain ⟨hdown, hbusy, -⟩ := State.linkDown_shows s hlp h
    refine ⟨(hkeep _ (.inl ?_)).trans hdown, (hkeep _ (.inl ?_)).trans hbusy⟩ <;>
      simp only [Fld.portLpEvtLinkdown, Fld.portLpDropStatBusy, Reg.portLpEvt, Reg.portLpDropStat, Reg.portLpStat] <;> omega

theorem dpcTrigger_other (s : State) (lp : Lp) (hrole : s.isRole lp.val 1 = false) : exec (.dpcTrigger lp) s = .next s :=
  exec_of_act (f := (·.dpcTrigger lp.val)) s rfl (if_neg (by simp [hrole])) rfl rfl

/-- L0P_WIDTH_CHANGE's effect. -/
def State.l0pWidth (s : State) (lp w : Nat) : State :=
  let full := (s.lnk lp).width
  if s.inL0 lp && [1, 2, 4, 8, 16].contains w && decide (w ≤ full) then
    s.setFs [(Fld.portLpStatWidth lp, w), (Fld.portLpStatLtssm lp, if w = full then 3 else 4)]
  else s

theorem exec_l0pWidthChange (lp : Lp) (w : Fin 17) (s : State) : exec (.l0pWidthChange lp w) s = act s (·.l0pWidth lp.val w.val) := rfl

theorem l0pWidthChange_shows (s : State) (lp : Lp) (w : Fin 17) (hl0 : s.inL0 lp.val = true) (hwidth : [1, 2, 4, 8, 16].contains w.val = true)
    (hle : w.val ≤ (s.lnk lp.val).width) :
    Completes (.l0pWidthChange lp w) s (fun t => t.getF (Fld.portLpStatWidth lp.val) = w.val ∧
      t.getF (Fld.portLpStatLtssm lp.val) = (if w.val = (s.lnk lp.val).width then 3 else 4) ∧
      RegsOnly s t [Fld.portLpStatWidth lp.val, Fld.portLpStatLtssm lp.val]) := by
  have hw : w.val < 2 ^ 5 := by omega
  obtain ⟨n, hn⟩ : ∃ n, n = (if w.val = (s.lnk lp.val).width then 3 else 4) := ⟨_, rfl⟩
  have hn16 : n < 2 ^ 4 := by rw [hn]; split <;> decide
  have hstep : s.l0pWidth lp.val w.val = (s.setF (Fld.portLpStatWidth lp.val) w.val).setF (Fld.portLpStatLtssm lp.val) n := by
    rw [hn]
    exact if_pos (by rw [hl0, hwidth, decide_eq_true hle]; rfl)
  refine Completes.of_eq _ (exec_l0pWidthChange lp w s) hstep rfl rfl ⟨?_, ?_, rfl, ?_⟩
  · rw [State.getF_setF_ne _ _ _ _ (.inr (.inr (by simp [Fld.portLpStatWidth, Fld.portLpStatLtssm])))]
    exact getF_fit _ _ _ (by simp [Fld.portLpStatWidth]) hw
  · rw [← hn]
    exact getF_fit _ _ _ (by simp [Fld.portLpStatLtssm]) hn16
  · exact ((OnlyFields.refl s _).stepF _ _ (by simp)).stepF _ _ (by simp)

theorem l0pWidthChange_other (s : State) (lp : Lp) (w : Fin 17)
    (h : s.inL0 lp.val = false ∨ [1, 2, 4, 8, 16].contains w.val = false ∨ (s.lnk lp.val).width < w.val) :
    exec (.l0pWidthChange lp w) s = .next s := by
  refine exec_of_act s (exec_l0pWidthChange lp w s) (if_neg ?_) rfl rfl
  rw [Bool.and_eq_true, Bool.and_eq_true, decide_eq_true_eq]
  rintro ⟨⟨hl0, hwidth⟩, hle⟩
  rcases h with h | h | h
  · exact Bool.false_ne_true (h.symm.trans hl0)
  · exact Bool.false_ne_true (h.symm.trans hwidth)
  · exact absurd hle (Nat.not_le.2 h)

/-- Settles O40: each write and event of a port in turn, over what a link down leaves of the PORT registers. -/
theorem portRegistersFollowPinsAndEvents : Obligations.PortRegistersFollowPinsAndEvents := by
  unfold Obligations.PortRegistersFollowPinsAndEvents
  exact ⟨cfgModeWrite_refused, cfgModeWrite_same, lpCtlWrite_absent, lpCtlWrite_refused, perstAssert_takesDown, perstDeassert_shows,
    flitModeRetry_retries, flitModeRetry_waits, upstreamRelease_enables, upstreamRelease_once, presenceChange_found, presenceChange_removed,
    dpcTrigger_contains, dpcTrigger_other, l0pWidthChange_shows, l0pWidthChange_other, fun s lp lane => exec_of_act s (f := id) rfl rfl rfl rfl⟩

end Sys2Proof.Machine
end

section
/-! SUPPORT. The end of a link drop, and suspect pages (O42). -/

open Sys2Proof Sys2Proof.Machine

namespace Sys2Proof.Machine

/-! ### The end of a link drop (R74, R77) -/

/-- LINK_DROP_END's effect. -/
def State.dropEnd (s : State) (lp : Nat) : State := match (s.lnk lp).dropAt with
  | none => s
  | some d =>
    if (s.lnk lp).dropDue then s else
    let e := (s.lnk lp).ends
    let s := (s.setF (Fld.portLpDropStatBusy lp) 0).modLnk lp (fun l => { l with dropAt := none })
    s.raise { src := 0x02, tick := d, lp := some lp, d0 := e.1, d1 := e.2 }

theorem exec_linkDropEnd (lp : Lp) (s : State) : exec (.linkDropEnd lp) s = act s (·.dropEnd lp.val) := rfl

theorem linkDropEnd_raises (s : State) (lp : Lp) (d : Nat) (hat : (s.lnk lp.val).dropAt = some d) (hdue : (s.lnk lp.val).dropDue = false) :
    Completes (.linkDropEnd lp) s (fun t =>
      t.getF (Fld.portLpDropStatBusy lp.val) = 0 ∧ (t.lnk lp.val).dropAt = none ∧ (∀ k, k ≠ lp.val → t.lnk k = s.lnk k) ∧
      t.flt = { s.flt with tickEvents := s.flt.tickEvents ++
        [{ src := 0x02, tick := d, lp := some lp.val, d0 := (s.lnk lp.val).ends.1, d1 := (s.lnk lp.val).ends.2 }] } ∧
      OnlyFields s t [Fld.portLpDropStatBusy lp.val] ∧
      t = { s with regs := t.regs, flt := t.flt, link := { s.link with links := t.link.links } }) := by
  obtain ⟨u, hu⟩ : ∃ u, u = s.setF (Fld.portLpDropStatBusy lp.val) 0 := ⟨_, rfl⟩
  have hlinks : ∀ k, u.lnk k = s.lnk k := fun k => by rw [hu]; rfl
  have hstep : s.dropEnd lp.val = (u.modLnk lp.val (fun l => { l with dropAt := none })).raise
      { src := 0x02, tick := d, lp := some lp.val, d0 := (s.lnk lp.val).ends.1, d1 := (s.lnk lp.val).ends.2 } := by
    rw [State.dropEnd, hat, hu]
    exact if_neg (by rw [hdue]; decide)
  have hkept : ∀ k, ((u.modLnk lp.val (fun l => { l with dropAt := none })).raise
      { src := 0x02, tick := d, lp := some lp.val, d0 := (s.lnk lp.val).ends.1, d1 := (s.lnk lp.val).ends.2 }).lnk k =
      if k = lp.val then { s.lnk lp.val with dropAt := none } else s.lnk k := fun k => by
    rw [← hlinks k, ← hlinks lp.val]
    exact lnk_mod u lp.val k (fun l => { l with dropAt := none })
  have honly : OnlyFields s u [Fld.portLpDropStatBusy lp.val] := by
    rw [hu]
    exact OnlyFields.setF _ _ _ _ (by simp)
  refine Completes.of_eq _ (exec_linkDropEnd lp s) hstep (by rw [hu]; rfl) (by rw [hu]; rfl) ⟨?_, ?_, fun k hk => ?_, ?_, honly, ?_⟩
  · show u.getF _ = 0
    rw [hu]
    exact getF_fit _ _ _ (by simp [Fld.portLpDropStatBusy]) (by simp [Fld.portLpDropStatBusy])
  · rw [hkept, if_pos rfl]
  · rw [hkept, if_neg hk]
  · rw [hu]
    rfl
  · rw [hu]
    rfl

/-! ### Suspect pages (R76, R79) -/

theorem suspectClrOne_frees (s : State) :
    Completes .suspectClrOne s (fun t =>
      t.suspect (s.getF Fld.portSuspectIdxEntry) = none ∧
      (∀ k, k ≠ s.getF Fld.portSuspectIdxEntry → t.suspect k = s.suspect k) ∧
      t.getF Fld.portSuspectStatCount = t.link.suspects.length % 2 ^ 13 ∧ OnlyFields s t [Fld.portSuspectStatCount] ∧
      t = { s with regs := t.regs, link := { s.link with suspects := t.link.suspects } }) := by
  refine Completes.of_eq (f := (·.suspectOne)) (s.setSuspect (s.getF Fld.portSuspectIdxEntry) none) rfl rfl rfl rfl
    ⟨Tbl.get_set_same _ _ _ _, fun k hk => Tbl.get_set_ne _ _ _ _ _ hk, ?_, ?_, rfl⟩
  · exact State.getF_setF _ _ _ (by decide)
  · exact (OnlyFields.refl s _).trans (OnlyFields.setF _ _ _ _ (by simp))

/-- The mark of a port whole is in no field of the count of suspect pages. -/
theorem suspectCount_ne_mark (s : State) (lp v : Nat) :
    (s.setF (Fld.portLpDropStatPortSuspect lp) v).getF Fld.portSuspectStatCount = s.getF Fld.portSuspectStatCount :=
  State.getF_setF_ne _ (Fld.portLpDropStatPortSuspect lp) Fld.portSuspectStatCount _ (.inl (by
    simp only [Fld.portSuspectStatCount, Fld.portLpDropStatPortSuspect, Reg.portSuspectStat, Reg.portLpDropStat]
    omega))

theorem suspectClrAll_frees (s : State) (lp : Lp) :
    Completes (.suspectClrAll lp) s (fun t =>
      t.link.suspects = s.link.suspects.filter (fun e => decide (e.2.map (·.2) ≠ some lp.val)) ∧
      t.portSuspect lp.val = false ∧ t.getF Fld.portSuspectStatCount = t.link.suspects.length % 2 ^ 13 ∧
      OnlyFields s t [Fld.portSuspectStatCount, Fld.portLpDropStatPortSuspect lp.val] ∧
      t = { s with regs := t.regs, link := { s.link with suspects := t.link.suspects } }) := by
  obtain ⟨l, hl⟩ : ∃ l, l = s.link.suspects.filter (fun e => decide (e.2.map (·.2) ≠ some lp.val)) := ⟨_, rfl⟩
  obtain ⟨u, hu⟩ : ∃ u : State, u = { s with link := { s.link with suspects := l } } := ⟨_, rfl⟩
  have hstep : s.suspectAll lp.val =
      (u.setF Fld.portSuspectStatCount l.length).setF (Fld.portLpDropStatPortSuspect lp.val) 0 := by rw [hu, hl]; rfl
  refine Completes.of_eq (f := (·.suspectAll lp.val)) _ rfl hstep (by rw [hu]; rfl) (by rw [hu]; rfl) ⟨?_, ?_, ?_, ?_, ?_⟩
  · rw [hu, ← hl]
    rfl
  · refine decide_eq_false ?_
    rw [getF_fit _ (Fld.portLpDropStatPortSuspect lp.val) 0 (by simp [Fld.portLpDropStatPortSuspect]) (by simp [Fld.portLpDropStatPortSuspect])]
    decide
  · rw [suspectCount_ne_mark, State.getF_setF _ _ _ (by decide), hu]
    rfl
  · rw [hu]
    exact (((OnlyFields.refl s _).of_regs rfl).stepF _ _ (by simp)).stepF _ _ (by simp)
  · rw [hu]
    rfl

/-- Settles O42: each event writes its few fields and tables. -/
theorem linkDropsEndAndSuspectsClear : Obligations.LinkDropsEndAndSuspectsClear := by
  unfold Obligations.LinkDropsEndAndSuspectsClear
  exact ⟨linkDropEnd_raises, suspectClrOne_frees, suspectClrAll_frees⟩

end Sys2Proof.Machine
end

section
/-! SUPPORT. Links that come up, go down and take their shape (O41). -/

open Sys2Proof Sys2Proof.Machine

namespace Sys2Proof.Machine

/-! ### L0 (R38, R53, R274) -/

/-- Nothing that L0 or what vPPBs hold a link in depends on differs: the wire gates, the links, the binding table and configuration space. -/
structure LinkSame (s t : State) : Prop where
  ports : PortKeep s t
  wire : ∀ k, t.wire k = s.wire k
  zone : vppbZone t.regs = vppbZone s.regs
  cfg : t.fn.cfg = s.fn.cfg
  links : t.link.links = s.link.links

theorem LinkSame.trans {s t u : State} (h : LinkSame s t) (g : LinkSame t u) : LinkSame s u :=
  ⟨h.ports.trans g.ports, fun k => (g.wire k).trans (h.wire k), g.zone.trans h.zone, g.cfg.trans h.cfg, g.links.trans h.links⟩

/-- A change of neither registers, configuration space nor links. -/
theorem LinkSame.of_regs {s t : State} (hregs : t.regs = s.regs) (hcfg : t.fn.cfg = s.fn.cfg) (hlink : t.link = s.link) (htick : t.tick = s.tick) :
    LinkSame s t :=
  ⟨PortKeep.of_regs hregs (by rw [hlink]) htick (by rw [hlink]),
    fun k => congrArg (fun n => (BitVec.ofNat 16 n).toInt) (getF_regs hregs (Fld.schedPortLiveWireWire k)), by rw [hregs], hcfg, by rw [hlink]⟩

theorem LinkSame.refl (s : State) : LinkSame s s := LinkSame.of_regs rfl rfl rfl rfl

theorem State.sendPme_same (s : State) (i : Nat) : LinkSame s (s.sendPme i) := by
  unfold State.sendPme State.sendMsg State.epSend
  split
  · dsimp only
    split <;> exact LinkSame.of_regs rfl rfl rfl rfl
  · exact LinkSame.of_regs rfl rfl rfl rfl

/-- The dead sweep's own bit is set or cleared. -/
theorem State.setSweep_same (s : State) (lp : Nat) (b : Bool) : LinkSame s (s.setSweep lp b) := by
  have haddr : (mapBit Reg.homeSweepLo Reg.homeSweepHi lp).addr = 0x1800008 ∨ (mapBit Reg.homeSweepLo Reg.homeSweepHi lp).addr = 0x180000c := by
    unfold mapBit
    split
    · exact .inl rfl
    · exact .inr rfl
  refine ⟨PortKeep.setF _ _ _ (.inr (by omega)), fun k => ?_, vppbZone_set _ _ _ (.inr (by omega)), rfl, rfl⟩
  refine congrArg (fun n => (BitVec.ofNat 16 n).toInt) (State.getF_setF_ne _ _ (Fld.schedPortLiveWireWire k) _ (.inl ?_))
  simp only [Fld.schedPortLiveWireWire, Reg.schedPortLiveWire]
  omega

theorem State.sweepReturn_same (s : State) (lp : Nat) : LinkSame s (s.sweepReturn lp) := by
  have hsweeps : ∀ l, LinkSame s (s.setSweeps l) := fun l => LinkSame.of_regs rfl rfl rfl rfl
  unfold State.sweepReturn
  split
  · split
    · exact (hsweeps _).trans (State.setSweep_same _ _ _)
    · exact hsweeps _
  · exact LinkSame.refl s

/-- A port's link in L0, before a waiting PM_PME goes out. -/
def State.l0Shown (s : State) (lp speed width : Nat) : State :=
  ((s.setFs [(Fld.portLpStatLtssm lp, 3), (Fld.portLpStatSpeed lp, speed), (Fld.portLpStatWidth lp, width)]).setF
    (Fld.schedPortLiveWireWire lp) 512).modLnk lp (fun l => { l with width := width, slots := 0 })

/-- A full wire gate. -/
theorem State.setWire_full (s : State) (lp : Nat) : s.setWire lp 512 = s.setF (Fld.schedPortLiveWireWire lp) 512 :=
  congrArg (s.setF (Fld.schedPortLiveWireWire lp)) (by decide)

theorem State.enterL0_same (s : State) (lp speed width : Nat) : LinkSame (s.l0Shown lp speed width) (s.enterL0 lp speed width) := by
  have hdue : ∀ (u : State) (i : Nat), LinkSame u (if (u.ep i).pmeDue then u.sendPme i else u) := fun u i => by
    split
    · exact State.sendPme_same u i
    · exact LinkSame.refl u
  obtain ⟨u, hu⟩ : ∃ u, u = s.l0Shown lp speed width := ⟨_, rfl⟩
  have henter : s.enterL0 lp speed width = (match u.instOf lp with | some i => if (u.ep i).pmeDue then u.sendPme i else u | none => u) := by
    rw [hu, State.enterL0, State.setWire_full]
    rfl
  rw [henter, ← hu]
  split
  · exact hdue u _
  · exact LinkSame.refl u

theorem State.l0Shown_regs (s : State) (lp speed width : Nat) : (s.l0Shown lp speed width).regs =
    ((s.setFs [(Fld.portLpStatLtssm lp, 3), (Fld.portLpStatSpeed lp, speed), (Fld.portLpStatWidth lp, width)]).setF
      (Fld.schedPortLiveWireWire lp) 512).regs := rfl

/-- The wire gate's register lies above the PORT registers. -/
theorem State.l0Shown_rd (s : State) (lp speed width : Nat) {a : Nat} (ha : a < 0xc00000) :
    (s.l0Shown lp speed width).rd a =
      (s.setFs [(Fld.portLpStatLtssm lp, 3), (Fld.portLpStatSpeed lp, speed), (Fld.portLpStatWidth lp, width)]).rd a := by
  have hwire : a ≠ (Fld.schedPortLiveWireWire lp).addr := by
    simp only [Fld.schedPortLiveWireWire, Reg.schedPortLiveWire]
    omega
  rw [State.rd, State.l0Shown_regs]
  exact State.rd_setF_ne _ (Fld.schedPortLiveWireWire lp) 512 a hwire

/-- What L0 shows. -/
theorem State.l0Shown_shows (s : State) {lp speed width : Nat} (hlp : lp < 64) (hspeed : speed < 8) (hwidth : width < 32) :
    (s.l0Shown lp speed width).getF (Fld.portLpStatLtssm lp) = 3 ∧ (s.l0Shown lp speed width).getF (Fld.portLpStatSpeed lp) = speed ∧
    (s.l0Shown lp speed width).getF (Fld.portLpStatWidth lp) = width ∧ (s.l0Shown lp speed width).wire lp = 512 := by
  have hwrites := Writes.setFs [(Fld.portLpStatLtssm lp, 3), (Fld.portLpStatSpeed lp, speed), (Fld.portLpStatWidth lp, width)]
    (fun x hx => by
      simp only [List.mem_cons, List.not_mem_nil, or_false] at hx
      rcases hx with rfl | rfl | rfl <;> simp [Fld.portLpStatLtssm, Fld.portLpStatSpeed, Fld.portLpStatWidth, hspeed, hwidth])
    (by simp [Fld.portLpStatLtssm, Fld.portLpStatSpeed, Fld.portLpStatWidth]) s
  have hkeep : ∀ g : Fd, g.addr = Reg.portLpStat lp → (s.l0Shown lp speed width).getF g =
      (s.setFs [(Fld.portLpStatLtssm lp, 3), (Fld.portLpStatSpeed lp, speed), (Fld.portLpStatWidth lp, width)]).getF g := fun g hg =>
    getF_addr g (State.l0Shown_rd s lp speed width (by rw [hg, Reg.portLpStat]; omega))
  refine ⟨?_, ?_, ?_, ?_⟩
  · exact (hkeep _ rfl).trans (hwrites.1 (Fld.portLpStatLtssm lp, 3) (by simp))
  · exact (hkeep _ rfl).trans (hwrites.1 (Fld.portLpStatSpeed lp, speed) (by simp))
  · exact (hkeep _ rfl).trans (hwrites.1 (Fld.portLpStatWidth lp, width) (by simp))
  · have hgate : (s.l0Shown lp speed width).getF (Fld.schedPortLiveWireWire lp) = 512 := by
      rw [getF_regs (State.l0Shown_regs s lp speed width)]
      exact getF_fit _ _ _ (by simp [Fld.schedPortLiveWireWire]) (by simp [Fld.schedPortLiveWireWire])
    rw [State.wire, hgate]
    rfl

/-- A field of the PORT registers outside the lower 12 bits of LP_STAT is as before. -/
theorem State.l0Shown_keeps (s : State) (lp speed width : Nat) (g : Fd) (haddr : g.addr < 0xc00000) (hg : g.addr ≠ Reg.portLpStat lp ∨ 12 ≤ g.lo) :
    (s.l0Shown lp speed width).getF g = s.getF g := by
  refine (getF_addr g (State.l0Shown_rd s lp speed width haddr)).trans (State.getF_setFs_ne _ _ _ (fun x hx => ?_))
  simp only [List.mem_cons, List.not_mem_nil, or_false] at hx
  refine hg.imp (fun h => ?_) (fun h => ?_) <;> rcases hx with rfl | rfl | rfl <;>
    simp [Fld.portLpStatLtssm, Fld.portLpStatSpeed, Fld.portLpStatWidth] <;> omega

theorem State.l0Shown_zone (s : State) {lp : Nat} (hlp : lp < 64) (speed width : Nat) :
    vppbZone (s.l0Shown lp speed width).regs = vppbZone s.regs := by
  have hstat : Reg.portLpStat lp < 0xc00000 := by rw [Reg.portLpStat]; omega
  have hwire : 0x1800000 ≤ Reg.schedPortLiveWire lp := by rw [Reg.schedPortLiveWire]; omega
  exact (vppbZone_set _ _ _ (.inr hwire)).trans ((vppbZone_set _ _ _ (.inl hstat)).trans
    ((vppbZone_set _ _ _ (.inl hstat)).trans (vppbZone_set _ _ _ (.inl hstat))))

/-- What L0 shows of the port, and what a state that differs in nothing L0 depends on shows. -/
theorem l0_shows {s t : State} {lp speed width : Nat} (hlp : lp < 64) (hspeed : speed < 8) (hwidth : width < 32)
    (h : LinkSame (s.enterL0 lp speed width) t) :
    t.getF (Fld.portLpStatLtssm lp) = 3 ∧ t.getF (Fld.portLpStatSpeed lp) = speed ∧ t.getF (Fld.portLpStatWidth lp) = width ∧ t.wire lp = 512 ∧
    ∀ g : Fd, PortReg g.addr → (g.addr ≠ Reg.portLpStat lp ∨ 12 ≤ g.lo) → t.getF g = s.getF g := by
  have hall := (State.enterL0_same s lp speed width).trans h
  obtain ⟨hltssm, hsp, hw, hwire⟩ := State.l0Shown_shows s hlp hspeed hwidth
  have hstat := portReg_stat lp hlp
  refine ⟨(hall.ports.getF _ hstat).trans hltssm, (hall.ports.getF _ hstat).trans hsp, (hall.ports.getF _ hstat).trans hw,
    (hall.wire lp).trans hwire, fun g hg hother => (hall.ports.getF g hg).trans ?_⟩
  obtain ⟨-, hlt, -, -⟩ := hg
  exact State.l0Shown_keeps s lp speed width g (by omega) hother

/-! ### LINK_UP (R38, R39, R52) -/

/-- The width and the rate that a port trains at. -/
def State.trainW (s : State) (lp width : Nat) : Nat := min (min width (shapeWidth (s.shape (lp / 2)))) ((s.lnk lp).maxW.getD 16)

theorem State.trainW_lt (s : State) (lp width : Nat) : s.trainW lp width < 32 := by
  have hshape : shapeWidth (s.shape (lp / 2)) ≤ 16 := by
    unfold shapeWidth
    split
    · decide
    · split <;> decide
  unfold State.trainW
  omega

theorem State.maxSpeed_lt (s : State) (lp speed : Nat) : min speed (s.maxSpeed lp) < 8 := by
  have hmax : s.maxSpeed lp ≤ 6 := by
    unfold State.maxSpeed
    dsimp only
    split
    · omega
    · exact Nat.le_refl 6
  omega

/-- A port that may train is not contained. -/
theorem State.mayTrain_dpc {s : State} {lp : Nat} (h : s.mayTrain lp = true) : s.getF (Fld.portLpStatDpc lp) = 0 := by
  simp only [State.mayTrain, Bool.and_eq_true, decide_eq_true_eq] at h
  exact h.1.1.1.1.1.2

/-- LINK_UP of a port in Detect that may train. -/
theorem State.linkUp_of_mayTrain {s : State} {lp speed width : Nat} {flit : Bool} (hwidth : [1, 2, 4, 8, 16].contains width = true)
    (hspeed : 0 < speed) (hdown : s.dllUp lp = false) (hmay : s.mayTrain lp = true) :
    s.linkUp lp speed width flit = if !flit then s.trainRefused lp (Fld.portLpEvtNoflit lp)
      else if s.trainW lp width < s.minWidth lp then s.trainRefused lp (Fld.portLpEvtNarrow lp)
      else s.linkFirst lp (min speed (s.maxSpeed lp)) (s.trainW lp width) := by
  have hdpc := State.mayTrain_dpc hmay
  have hfree : ¬(s.lpExists lp = true ∧ s.getF (Fld.portLpStatDpc lp) = 1) := fun h => by
    rw [hdpc] at h
    exact absurd h.2 (by decide)
  rw [State.linkUp, hwidth, hdown, hmay, decide_eq_true hspeed]
  exact if_neg hfree

/-- LINK_UP of a port in Recovery that accepts the width. -/
theorem State.linkUp_of_recovery {s : State} {lp speed width : Nat} {flit : Bool} (hwidth : [1, 2, 4, 8, 16].contains width = true)
    (hspeed : 0 < speed) (hup : s.dllUp lp = true) (hltssm : s.getF (Fld.portLpStatLtssm lp) = 5) (hmin : s.minWidth lp ≤ s.trainW lp width) :
    s.linkUp lp speed width flit =
      ((s.enterL0 lp (min speed (s.maxSpeed lp)) (s.trainW lp width)).sweepReturn lp).vppbLink lp := by
  rw [State.linkUp, hwidth, hup, decide_eq_true hspeed, hltssm]
  exact if_neg (Nat.not_lt.2 hmin)

/-- A port that comes up from Detect, before L0 shows: DLL_UP with the partner present. -/
def State.linkFound (s : State) (lp : Nat) : State := ((s.linkFresh lp).presence lp true).setF (Fld.portLpStatDllUp lp) 1

theorem State.linkFound_shows (s : State) {lp : Nat} (hlp : lp < 64) :
    (s.linkFound lp).getF (Fld.portLpStatDllUp lp) = 1 ∧ (s.linkFound lp).getF (Fld.portLpStatPresent lp) = 1 := by
  have hpresent : ((s.linkFresh lp).presence lp true).getF (Fld.portLpStatPresent lp) = 1 := by
    by_cases h : (s.linkFresh lp).getF (Fld.portLpStatPresent lp) = bit true
    · rw [State.presence, if_pos h]
      exact h
    · exact (State.presence_shows hlp h).1
  refine ⟨getF_fit _ _ _ (by simp [Fld.portLpStatDllUp]) (by simp [Fld.portLpStatDllUp]), ?_⟩
  refine (State.getF_setF_ne _ (Fld.portLpStatDllUp lp) (Fld.portLpStatPresent lp) _ (.inr (.inr ?_))).trans hpresent
  simp [Fld.portLpStatDllUp, Fld.portLpStatPresent]

/-- The wire gates lie beyond what taking a function's state again writes. -/
theorem State.refreshFn_wire (s : State) (fn k : Nat) : (s.refreshFn fn).wire k = s.wire k := by
  refine congrArg (fun n => (BitVec.ofNat 16 n).toInt) ?_
  unfold State.refreshFn
  split
  · rfl
  · have hlow : (liveFd fn).1.addr < 0x1000000 ∧ (liveFd fn).2.2.2.1.addr < 0x1000000 := by
      unfold liveFd
      split <;> simp only [Fld.plotFnLive0State, Fld.plotFnLive1Oldcnt, Fld.plotVcsLive0State, Fld.plotVcsLive1Oldcnt, Reg.plotFnLive0,
        Reg.plotFnLive1, Reg.plotVcsLive0, Reg.plotVcsLive1] <;> omega
    have hwire : 0x1000000 ≤ (Fld.schedPortLiveWireWire k).addr := by
      simp only [Fld.schedPortLiveWireWire, Reg.schedPortLiveWire]
      omega
    refine (State.getF_setF_ne _ (liveFd fn).1 (Fld.schedPortLiveWireWire k) _ (.inl (by omega))).trans ?_
    exact State.getF_setF_ne _ (liveFd fn).2.2.2.1 (Fld.schedPortLiveWireWire k) _ (.inl (by omega))

theorem State.refreshPort_wire (s : State) (lp k : Nat) : (s.refreshPort lp).wire k = s.wire k := by
  have hfold : ∀ (l : List Nat) (s : State), (l.foldl (fun s f => s.refreshFn (64 * lp + f)) s).wire k = s.wire k := by
    intro l
    induction l with
    | nil => exact fun _ => rfl
    | cons x l ih => exact fun s => (ih _).trans (State.refreshFn_wire s _ k)
  exact (State.refreshFn_wire _ _ k).trans (hfold _ s)

theorem State.slotEvent_same (s : State) (lp b : Nat) : (s.slotEvent lp b).wire = s.wire := by
  rw [State.slotEvent_only]
  rfl

theorem linkUp_trains (s : State) (lp : Lp) (speed : Fin 7) (width : Fin 17) (hwidth : [1, 2, 4, 8, 16].contains width.val = true)
    (hspeed : 0 < speed.val) (hdown : s.dllUp lp.val = false) (hmay : s.mayTrain lp.val = true)
    (hmin : s.minWidth lp.val ≤ min (min width.val (shapeWidth (s.shape (lp.val / 2)))) ((s.lnk lp.val).maxW.getD 16)) :
    Completes (.linkUp lp speed width true) s (fun t =>
      t.getF (Fld.portLpStatDllUp lp.val) = 1 ∧ t.getF (Fld.portLpStatPresent lp.val) = 1 ∧ t.getF (Fld.portLpStatLtssm lp.val) = 3 ∧
      t.getF (Fld.portLpStatSpeed lp.val) = min speed.val (s.maxSpeed lp.val) ∧
      t.getF (Fld.portLpStatWidth lp.val) = min (min width.val (shapeWidth (s.shape (lp.val / 2)))) ((s.lnk lp.val).maxW.getD 16) ∧
      t.wire lp.val = 512) := by
  have hlp : lp.val < 64 := lp.isLt
  have hstat := portReg_stat lp.val hlp
  obtain ⟨u, hu⟩ : ∃ u, u = s.linkFound lp.val := ⟨_, rfl⟩
  obtain ⟨x, hx⟩ : ∃ x, x = u.enterL0 lp.val (min speed.val (s.maxSpeed lp.val)) (s.trainW lp.val width.val) := ⟨_, rfl⟩
  obtain ⟨hltssm, hsp, hw, hwire, hkeep⟩ := l0_shows (s := u) hlp (State.maxSpeed_lt s lp.val speed.val) (State.trainW_lt s lp.val width.val)
    (LinkSame.refl _)
  rw [← hx] at hltssm hsp hw hwire hkeep
  have hstep : s.linkUp lp.val speed.val width.val true = ((x.slotEvent lp.val 8).sweepReturn lp.val).refreshPort lp.val := by
    rw [State.linkUp_of_mayTrain hwidth hspeed hdown hmay, hx, hu]
    exact if_neg (Nat.not_lt.2 hmin)
  have hports : PortKeep x (((x.slotEvent lp.val 8).sweepReturn lp.val).refreshPort lp.val) :=
    ((State.slotEvent_ports x lp.val 8).trans (State.sweepReturn_ports _ _)).trans (State.refreshPort_ports _ _)
  have hwires : (((x.slotEvent lp.val 8).sweepReturn lp.val).refreshPort lp.val).wire lp.val = x.wire lp.val :=
    (State.refreshPort_wire _ _ _).trans (((State.sweepReturn_same _ _).wire _).trans (congrFun (State.slotEvent_same x lp.val 8) _))
  obtain ⟨hfoundUp, hfoundPresent⟩ := State.linkFound_shows s hlp
  rw [← hu] at hfoundUp hfoundPresent
  refine Completes.of_any (f := (·.linkUp lp.val speed.val width.val true)) _ rfl hstep
    ⟨?_, ?_, (hports.getF _ hstat).trans hltssm, (hports.getF _ hstat).trans hsp, (hports.getF _ hstat).trans hw, hwires.trans hwire⟩
  · exact (hports.getF (Fld.portLpStatDllUp lp.val) hstat).trans ((hkeep _ hstat (.inr (by simp [Fld.portLpStatDllUp]))).trans hfoundUp)
  · exact (hports.getF (Fld.portLpStatPresent lp.val) hstat).trans ((hkeep _ hstat (.inr (by simp [Fld.portLpStatPresent]))).trans hfoundPresent)

/-- A refused training: its event bit and Detect show, and the port waits. -/
theorem State.trainRefused_shows (s : State) {lp : Nat} {f : Fd} (haddr : f.addr = Reg.portLpEvt lp) (hwidth : f.width = 1) (hlo : f.lo < 2) :
    (s.trainRefused lp f).getF f = 1 ∧ (s.trainRefused lp f).getF (Fld.portLpStatLtssm lp) = 0 ∧
    (s.trainRefused lp f).lnk lp = { s.lnk lp with refused := true, refuseAt := s.tick } ∧
    (∀ k, k ≠ lp → (s.trainRefused lp f).lnk k = s.lnk k) ∧
    OnlyFields s (s.trainRefused lp f) [f, Fld.portLpStatLtssm lp] ∧
    s.trainRefused lp f = { s with regs := (s.trainRefused lp f).regs, link := { s.link with links := (s.trainRefused lp f).link.links } } := by
  have hfit : f.lo + f.width ≤ 32 ∧ 1 < 2 ^ f.width := by
    rw [hwidth]
    omega
  have hapart : f.addr ≠ Reg.portLpStat lp := by
    rw [haddr]
    simp only [Reg.portLpEvt, Reg.portLpStat]
    omega
  have hlinks : ∀ k, (s.trainRefused lp f).lnk k = if k = lp then { s.lnk lp with refused := true, refuseAt := s.tick } else s.lnk k :=
    fun k => lnk_mod (s.setFs [(f, 1), (Fld.portLpStatLtssm lp, 0)]) lp k (fun l => { l with refused := true, refuseAt := s.tick })
  refine ⟨?_, ?_, ?_, fun k hk => ?_, ?_, rfl⟩
  · refine (State.getF_setF_ne _ (Fld.portLpStatLtssm lp) f _ (.inl hapart)).trans (getF_fit _ _ _ hfit.1 hfit.2)
  · exact getF_fit _ (Fld.portLpStatLtssm lp) 0 (by simp [Fld.portLpStatLtssm]) (by simp [Fld.portLpStatLtssm])
  · rw [hlinks, if_pos rfl]
  · rw [hlinks, if_neg hk]
  · exact ((OnlyFields.refl s _).stepFs [(f, 1), (Fld.portLpStatLtssm lp, 0)] (by simp)).of_regs rfl

theorem linkUp_refuses (s : State) (lp : Lp) (speed : Fin 7) (width : Fin 17) (flit : Bool) (hwidth : [1, 2, 4, 8, 16].contains width.val = true)
    (hspeed : 0 < speed.val) (hdown : s.dllUp lp.val = false) (hmay : s.mayTrain lp.val = true)
    (hbad : flit = false ∨ min (min width.val (shapeWidth (s.shape (lp.val / 2)))) ((s.lnk lp.val).maxW.getD 16) < s.minWidth lp.val) :
    Completes (.linkUp lp speed width flit) s (fun t =>
      t.getF (if flit then Fld.portLpEvtNarrow lp.val else Fld.portLpEvtNoflit lp.val) = 1 ∧ t.getF (Fld.portLpStatLtssm lp.val) = 0 ∧
      t.lnk lp.val = { s.lnk lp.val with refused := true, refuseAt := s.tick } ∧ (∀ k, k ≠ lp.val → t.lnk k = s.lnk k) ∧
      OnlyFields s t [if flit then Fld.portLpEvtNarrow lp.val else Fld.portLpEvtNoflit lp.val, Fld.portLpStatLtssm lp.val] ∧
      t = { s with regs := t.regs, link := { s.link with links := t.link.links } }) := by
  have hstep : s.linkUp lp.val speed.val width.val flit =
      s.trainRefused lp.val (if flit then Fld.portLpEvtNarrow lp.val else Fld.portLpEvtNoflit lp.val) := by
    rw [State.linkUp_of_mayTrain hwidth hspeed hdown hmay]
    cases flit with
    | false => rfl
    | true => exact if_pos (hbad.resolve_left (by decide))
  have hshows : ∀ f : Fd, f.addr = Reg.portLpEvt lp.val → f.width = 1 → f.lo < 2 →
      s.linkUp lp.val speed.val width.val flit = s.trainRefused lp.val f → Completes (.linkUp lp speed width flit) s (fun t =>
        t.getF f = 1 ∧ t.getF (Fld.portLpStatLtssm lp.val) = 0 ∧
        t.lnk lp.val = { s.lnk lp.val with refused := true, refuseAt := s.tick } ∧ (∀ k, k ≠ lp.val → t.lnk k = s.lnk k) ∧
        OnlyFields s t [f, Fld.portLpStatLtssm lp.val] ∧ t = { s with regs := t.regs, link := { s.link with links := t.link.links } }) :=
    fun f haddr hone hlo hrun => Completes.of_eq (f := (·.linkUp lp.val speed.val width.val flit)) _ rfl hrun rfl rfl
      (State.trainRefused_shows s haddr hone hlo)
  refine hshows _ ?_ ?_ ?_ hstep <;> cases flit <;> simp [Fld.portLpEvtNarrow, Fld.portLpEvtNoflit]

/-- A downstream port that nothing holds, and whose trigger does not wait, stays as it is. -/
theorem State.vppbLink_of_free {s : State} {lp : Nat} (hup : s.dllUp lp = true)
    (hfree : s.isRole lp 1 = true → (s.lnk lp).trigDue = false ∧ s.vppbHold lp = none) : s.vppbLink lp = s := by
  unfold State.vppbLink
  cases hrole : s.isRole lp 1 with
  | false => rfl
  | true =>
    obtain ⟨htrig, hhold⟩ := hfree hrole
    rw [htrig]
    have hstays : ¬((s.vppbHold lp).isSome || !s.dllUp lp) = true := by
      rw [hhold, hup]
      decide
    exact if_neg hstays

theorem linkUp_recovers (s : State) (lp : Lp) (speed : Fin 7) (width : Fin 17) (flit : Bool) (hwidth : [1, 2, 4, 8, 16].contains width.val = true)
    (hspeed : 0 < speed.val) (hup : s.dllUp lp.val = true) (hltssm : s.getF (Fld.portLpStatLtssm lp.val) = 5)
    (hmin : s.minWidth lp.val ≤ min (min width.val (shapeWidth (s.shape (lp.val / 2)))) ((s.lnk lp.val).maxW.getD 16))
    (hfree : s.isRole lp.val 1 = true → (s.lnk lp.val).trigDue = false ∧ s.vppbHold lp.val = none) :
    Completes (.linkUp lp speed width flit) s (fun t =>
      t.dllUp lp.val = true ∧ t.getF (Fld.portLpStatLtssm lp.val) = 3 ∧
      t.getF (Fld.portLpStatSpeed lp.val) = min speed.val (s.maxSpeed lp.val) ∧
      t.getF (Fld.portLpStatWidth lp.val) = min (min width.val (shapeWidth (s.shape (lp.val / 2)))) ((s.lnk lp.val).maxW.getD 16) ∧
      t.wire lp.val = 512) := by
  have hlp : lp.val < 64 := lp.isLt
  obtain ⟨v, hv⟩ : ∃ v, v = s.l0Shown lp.val (min speed.val (s.maxSpeed lp.val)) (s.trainW lp.val width.val) := ⟨_, rfl⟩
  obtain ⟨x, hx⟩ : ∃ x, x = (s.enterL0 lp.val (min speed.val (s.maxSpeed lp.val)) (s.trainW lp.val width.val)).sweepReturn lp.val := ⟨_, rfl⟩
  have hsweep : LinkSame (s.enterL0 lp.val (min speed.val (s.maxSpeed lp.val)) (s.trainW lp.val width.val)) x :=
    hx ▸ State.sweepReturn_same _ _
  have hall : LinkSame v x := hv ▸ (State.enterL0_same s lp.val _ _).trans hsweep
  obtain ⟨hl0, hsp, hw, hwire, hkeep⟩ := l0_shows (s := s) hlp (State.maxSpeed_lt s lp.val speed.val) (State.trainW_lt s lp.val width.val) hsweep
  have hdll : x.dllUp lp.val = true :=
    (congrArg (fun n => decide (n = 1)) (hkeep (Fld.portLpStatDllUp lp.val) (portReg_stat lp.val hlp) (.inr (by simp [Fld.portLpStatDllUp])))).trans hup
  have hrole : x.isRole lp.val 1 = s.isRole lp.val 1 := by
    have hctl : x.role lp.val = s.role lp.val := hkeep (Fld.portLpCtlRole lp.val) (portReg_ctl lp.val hlp) (.inl (by
      simp only [Fld.portLpCtlRole, Reg.portLpCtl, Reg.portLpStat]
      omega))
    have hshape : x.shape (lp.val / 2) = s.shape (lp.val / 2) := hkeep (Fld.portCfgMode (lp.val / 2)) (portReg_cfg _ (by omega)) (.inl (by
      simp only [Fld.portCfgMode, Reg.portCfg, Reg.portLpStat]
      omega))
    unfold State.isRole State.lpExists
    rw [hctl, hshape]
  have htrig : (x.lnk lp.val).trigDue = (s.lnk lp.val).trigDue := by
    have hlink : x.lnk lp.val = v.lnk lp.val := congrArg (fun l => Tbl.get (fun _ => ({} : Link)) l lp.val) hall.links
    have hshown : v.lnk lp.val = { s.lnk lp.val with width := s.trainW lp.val width.val, slots := 0 } := by
      rw [hv]
      exact (lnk_mod _ lp.val lp.val (fun l => { l with width := s.trainW lp.val width.val, slots := 0 })).trans (if_pos rfl)
    rw [hlink, hshown]
  have hhold : x.vppbHold lp.val = s.vppbHold lp.val := by
    refine State.vppbHold_congr (hall.zone.trans ?_) (hall.cfg.trans ?_) lp.val <;> rw [hv]
    · exact State.l0Shown_zone s hlp _ _
    · rfl
  have hstep : s.linkUp lp.val speed.val width.val flit = x := by
    rw [State.linkUp_of_recovery hwidth hspeed hup hltssm hmin, ← hx]
    refine State.vppbLink_of_free hdll (fun h => ?_)
    rw [htrig, hhold]
    exact hfree (hrole ▸ h)
  exact Completes.of_any (f := (·.linkUp lp.val speed.val width.val flit)) x rfl hstep ⟨hdll, hl0, hsp, hw, hwire⟩

/-! ### LINK_DOWN (R74) -/

/-- A register is what its 32 bits read as. -/
theorem rd_of_whole {s t : State} {a : Nat} (h : t.getF (Fd.whole a) = s.getF (Fd.whole a)) : t.rd a = s.rd a := by
  have hwhole : ∀ u : State, u.getF (Fd.whole a) = (u.rd a).toNat := fun u => by
    have hlt := (u.rd a).isLt
    simp only [State.getF, Fd.whole, fieldGet]
    omega
  rw [hwhole, hwhole] at h
  exact BitVec.eq_of_toNat_eq h

theorem linkDown_falls (s : State) (lp : Lp) (c : DownCause) (hup : s.dllUp lp.val = true) :
    Completes (.linkDown lp c) s (fun t =>
      t.dllUp lp.val = false ∧ t.getF (Fld.portLpStatLtssm lp.val) = s.restState lp.val ∧
      t.getF (Fld.portLpStatSpeed lp.val) = 0 ∧ t.getF (Fld.portLpStatWidth lp.val) = 0 ∧ t.getF (Fld.portLpEvtLinkdown lp.val) = 1 ∧
      t.getF (Fld.portLpDropStatBusy lp.val) = 1 ∧ (t.lnk lp.val).dropAt = some s.tick ∧
      ∀ k, k < 64 → k ≠ lp.val → t.rd (Reg.portLpStat k) = s.rd (Reg.portLpStat k)) := by
  have hlp : lp.val < 64 := lp.isLt
  obtain ⟨hfields, -⟩ := s.linkDown_spec lp.val hlp hup
  obtain ⟨hevt, hbusy, hdrop⟩ := State.linkDown_shows s hlp hup
  refine Completes.of_any (f := fun s => s.when (s.dllUp lp.val) (·.linkDown lp.val)) (s.linkDown lp.val) rfl (if_pos hup)
    ⟨State.linkDown_dllUp_self s lp.val hlp, State.linkDown_ltssm s hlp, ?_, ?_, hevt, hbusy, hdrop, fun k hk hne => ?_⟩
  · exact hfields (Fld.portLpStatSpeed lp.val, 0) (by simp [downFields])
  · exact hfields (Fld.portLpStatWidth lp.val, 0) (by simp [downFields])
  · exact rd_of_whole ((State.linkDown_portSame s hlp hk hne).getF (Fd.whole (Reg.portLpStat k)) (.inl rfl))

theorem linkDown_down (s : State) (lp : Lp) (c : DownCause) (hdown : s.dllUp lp.val = false) : exec (.linkDown lp c) s = .next s :=
  exec_of_when_false (b := fun s => s.dllUp lp.val) (g := (·.linkDown lp.val)) rfl hdown

/-! ### LP_CTL (R36, R37, R52) -/

/-- ENABLE cleared leaves every port's LP_CTL. -/
theorem State.lpCtlDown_ctl (s : State) {lp k : Nat} (hlp : lp < 64) (hk : k < 64) (g : Fd) (hg : g.addr = Reg.portLpCtl k) :
    (s.lpCtlDown lp).getF g = s.getF g := by
  have hreg : PortReg g.addr := by rw [hg]; exact portReg_ctl k hk
  have hdown : (s.linkDown lp).getF g = s.getF g := by
    apply State.linkDown_getF_of_addr_ne s lp hlp g hreg <;> rw [hg] <;>
      simp only [Reg.portLpCtl, Reg.portLpStat, Reg.portLpEvt, Reg.portLpSpare] <;> omega
  unfold State.lpCtlDown
  split
  · exact hdown
  · exact ((State.sweepStart_ports _ lp false).getF g hreg).trans hdown

/-- A taken write of LP_CTL leaves its link up or down. -/
theorem State.lpCtlTaken_dllUp (s : State) (lp : Nat) (v : Word) : (s.lpCtlTaken lp v).dllUp lp = s.dllUp lp := by
  have hapart : Reg.portLpStat lp ≠ Reg.portLpCtl lp := by
    simp only [Reg.portLpStat, Reg.portLpCtl]
    omega
  have hfields : (s.setFs [(Fld.portLpCtlEnable lp, fieldGet v 0 1), (Fld.portLpCtlRole lp, fieldGet v 1 2),
      (Fld.portLpCtlStewardEp lp, fieldGet v 3 1)]).getF (Fld.portLpStatDllUp lp) = s.getF (Fld.portLpStatDllUp lp) :=
    State.getF_setFs_ne _ _ _ (fun x hx => .inl (by
      simp only [List.mem_cons, List.not_mem_nil, or_false] at hx
      rcases hx with rfl | rfl | rfl <;> exact hapart))
  refine congrArg (fun n => decide (n = 1)) (Eq.trans ?_ hfields)
  unfold State.lpCtlTaken
  dsimp only
  split
  · rfl
  · exact State.getF_setF_ne _ (Fld.portLpStatDpc lp) (Fld.portLpStatDllUp lp) _ (.inr (by simp [Fld.portLpStatDpc, Fld.portLpStatDllUp]))

/-- An accepted write after its instance: the link down it may bring. -/
def State.lpCtlPast (s : State) (lp : Nat) (v : Word) : State :=
  if s.getF (Fld.portLpCtlEnable lp) = 1 ∧ fieldGet v 0 1 = 0 then ((s.lpCtlTaken lp v).lpCtlEp lp v (s.instOf lp).isSome).lpCtlDown lp
  else (s.lpCtlTaken lp v).lpCtlEp lp v (s.instOf lp).isSome

theorem State.lpCtlPast_ctl (s : State) {lp k : Nat} (v : Word) (hlp : lp < 64) (hk : k < 64) (g : Fd) (hg : g.addr = Reg.portLpCtl k) :
    (s.lpCtlPast lp v).getF g = (s.lpCtlTaken lp v).getF g := by
  have hreg : PortReg g.addr := by rw [hg]; exact portReg_ctl k hk
  have hep := (State.lpCtlEp_ports (s.lpCtlTaken lp v) lp v (s.instOf lp).isSome).getF g hreg
  unfold State.lpCtlPast
  split
  · exact (State.lpCtlDown_ctl _ hlp hk g hg).trans hep
  · exact hep

/-- A port that is disabled with its link up goes down. -/
theorem State.lpCtlPast_down (s : State) {lp : Nat} (v : Word) (hlp : lp < 64) (hon : s.getF (Fld.portLpCtlEnable lp) = 1)
    (hoff : fieldGet v 0 1 = 0) (hup : s.dllUp lp = true) :
    (s.lpCtlPast lp v).dllUp lp = false ∧ (s.lpCtlPast lp v).getF (Fld.portLpEvtLinkdown lp) = 1 ∧
    (s.lpCtlPast lp v).getF (Fld.portLpDropStatBusy lp) = 1 := by
  obtain ⟨x, hx⟩ : ∃ x, x = (s.lpCtlTaken lp v).lpCtlEp lp v (s.instOf lp).isSome := ⟨_, rfl⟩
  have hep : PortKeep (s.lpCtlTaken lp v) x := hx ▸ State.lpCtlEp_ports _ lp v _
  have hxup : x.dllUp lp = true :=
    ((congrArg (fun n => decide (n = 1)) (hep.getF (Fld.portLpStatDllUp lp) (portReg_stat lp hlp))).trans (State.lpCtlTaken_dllUp s lp v)).trans hup
  have hpast : s.lpCtlPast lp v = x.linkDown lp := by
    rw [State.lpCtlPast, if_pos ⟨hon, hoff⟩, ← hx]
    exact if_pos (.inl hxup)
  obtain ⟨hevt, hbusy, -⟩ := State.linkDown_shows x hlp hxup
  rw [hpast]
  exact ⟨State.linkDown_dllUp_self x lp hlp, hevt, hbusy⟩

theorem portLpStat_ne_pin (k n : Nat) : Reg.portLpStat k ≠ Reg.portPinStat n := by
  simp only [Reg.portLpStat, Reg.portPinStat]
  omega

theorem portLpEvt_ne_pin (k n : Nat) : Reg.portLpEvt k ≠ Reg.portPinStat n := by
  simp only [Reg.portLpEvt, Reg.portPinStat]
  omega

theorem lpCtlWrite_takes (s : State) (lp : Lp) (v : Word) (hexists : s.lpExists lp.val = true) (hrefused : s.lpCtlRefused lp.val v = false) :
    Completes (.lpCtlWrite lp v) s (fun t =>
      t.getF (Fld.portLpCtlEnable lp.val) = fieldGet v 0 1 ∧ t.getF (Fld.portLpCtlRole lp.val) = fieldGet v 1 2 ∧
      t.getF (Fld.portLpCtlStewardEp lp.val) = fieldGet v 3 1 ∧
      (∀ k, k < 64 → k ≠ lp.val → t.rd (Reg.portLpCtl k) = s.rd (Reg.portLpCtl k)) ∧
      (s.getF (Fld.portLpCtlEnable lp.val) = 1 → fieldGet v 0 1 = 0 → s.dllUp lp.val = true →
        t.dllUp lp.val = false ∧ t.getF (Fld.portLpEvtLinkdown lp.val) = 1 ∧ t.getF (Fld.portLpDropStatBusy lp.val) = 1)) := by
  have hlp : lp.val < 64 := lp.isLt
  obtain ⟨x, hx⟩ : ∃ x, x = s.lpCtlPast lp.val v := ⟨_, rfl⟩
  have hstep : s.lpCtlWrite lp.val v = (x.clkreqs (lp.val / 2)).refreshPort lp.val := by
    rw [State.lpCtlWrite_of_taken hexists hrefused, hx]
    rfl
  have htail : ∀ g : Fd, PortReg g.addr → (∀ n, g.addr ≠ Reg.portPinStat n) →
      ((x.clkreqs (lp.val / 2)).refreshPort lp.val).getF g = x.getF g := fun g hg hpin => getF_addr g (State.lpCtl_tail x lp.val hg hpin)
  have hctl : ∀ k, k < 64 → ∀ g : Fd, g.addr = Reg.portLpCtl k →
      ((x.clkreqs (lp.val / 2)).refreshPort lp.val).getF g = (s.lpCtlTaken lp.val v).getF g := fun k hk g hg => by
    refine (htail g (by rw [hg]; exact portReg_ctl k hk) (fun n => by rw [hg]; exact portLpCtl_ne_pin k n)).trans ?_
    rw [hx]
    exact State.lpCtlPast_ctl s v hlp hk g hg
  obtain ⟨henable, hrole, hsteward⟩ := State.lpCtlTaken_shows s lp.val v
  refine Completes.of_any (f := (·.lpCtlWrite lp.val v)) _ rfl hstep ⟨(hctl lp.val hlp (Fld.portLpCtlEnable lp.val) rfl).trans henable,
    (hctl lp.val hlp (Fld.portLpCtlRole lp.val) rfl).trans hrole, (hctl lp.val hlp (Fld.portLpCtlStewardEp lp.val) rfl).trans hsteward,
    fun k hk hne => ?_, fun hon hoff hup => ?_⟩
  · refine rd_of_whole ((hctl k hk (Fd.whole (Reg.portLpCtl k)) rfl).trans (getF_addr _ (State.lpCtlTaken_rd s lp.val v ?_ ?_))) <;>
      simp only [Fd.whole, Reg.portLpCtl, Reg.portLpStat] <;> omega
  · obtain ⟨hdown, hevt, hbusy⟩ := State.lpCtlPast_down s v hlp hon hoff hup
    rw [← hx] at hdown hevt hbusy
    refine ⟨?_, ?_, ?_⟩
    · exact (congrArg (fun n => decide (n = 1))
        (htail (Fld.portLpStatDllUp lp.val) (portReg_stat lp.val hlp) (fun n => portLpStat_ne_pin _ n))).trans hdown
    · exact (htail (Fld.portLpEvtLinkdown lp.val) (portReg_evt lp.val hlp) (fun n => portLpEvt_ne_pin _ n)).trans hevt
    · refine ((State.refreshPort_ports _ lp.val).busy lp.val hlp).trans (Eq.trans (getF_addr _ (State.clkreqs_rd _ _ _ (fun k => ?_))) hbusy)
      simp only [Fld.portLpDropStatBusy, Reg.portLpDropStat, Reg.portPinStat]
      omega

/-! ### Shapes (R33, R37, R51) -/

/-- A logical port's registers in reset, where the port is new or ceases to exist. -/
def State.lpReset (was16 : Bool) (n : Nat) (s : State) (l : Nat) : State :=
  if s.lpExists l && !(was16 && decide (2 * n + 1 < l)) then s else (s.epVanish l).lpRegsReset l

/-- MIN_WIDTH of a logical port that exists is its full width. -/
def State.fullWidth (s : State) (l : Nat) : State :=
  if s.lpExists l then s.setF (Fld.portLpTrainMinWidth l) (shapeWidth (s.shape (l / 2))) else s

/-- The shape shows in CFG of the port, and of the odd port that x16 takes or leaves. -/
def State.modeShown (s : State) (n mode : Nat) : State :=
  let was16 := decide (s.shape n = 2)
  let s := s.setF (Fld.portCfgMode n) mode
  if mode = 2 then s.setF (Fld.portCfgMode (n + 1)) 3 else if was16 then s.setF (Fld.portCfgMode (n + 1)) 0 else s

theorem State.setShape_eq (s : State) (n mode : Nat) : s.setShape n mode =
    (s.affected n mode).foldl (fun s l => s.refreshPort l)
      (((s.affected n mode).foldl State.fullWidth ((s.affected n mode).foldl (State.lpReset (decide (s.shape n = 2)) n) (s.modeShown n mode))).clkreqs n) := rfl

/-- Every CFG is as before. -/
def ShapeSame (s t : State) : Prop := ∀ m, m < 32 → t.shape m = s.shape m

theorem ShapeSame.exists_ {s t : State} (h : ShapeSame s t) {l : Nat} (hl : l < 64) : t.lpExists l = s.lpExists l := by
  unfold State.lpExists
  rw [h (l / 2) (by omega)]

theorem ShapeSame.of_ports {s t : State} (h : PortKeep s t) : ShapeSame s t := fun m hm => h.getF (Fld.portCfgMode m) (portReg_cfg m hm)

theorem ShapeSame.foldl {f : State → Nat → State} (hf : ∀ s l, ShapeSame s (f s l)) (ls : List Nat) (s : State) : ShapeSame s (ls.foldl f s) :=
  List.foldlRecOn (motive := ShapeSame s) ls f (fun _ _ => rfl) (fun t h l _ m hm => (hf t l m hm).trans (h m hm))

theorem State.lpReset_shape (was16 : Bool) (n : Nat) (s : State) (l : Nat) : ShapeSame s (State.lpReset was16 n s l) := by
  unfold State.lpReset
  split
  · exact fun _ _ => rfl
  · intro m hm
    refine Eq.trans (getF_addr (Fld.portCfgMode m) ?_) (ShapeSame.of_ports (State.epVanish_ports s l) m hm)
    have hout : ¬(Reg.portLpCtl l ≤ Reg.portCfg m ∧ Reg.portCfg m < Reg.portLpCtl l + 0x80) := by
      simp only [Reg.portLpCtl, Reg.portCfg]
      omega
    have hget := Tbl.get_filter regReset (s.epVanish l).regs (fun e => !decide (Reg.portLpCtl l ≤ e ∧ e < Reg.portLpCtl l + 0x80)) (Reg.portCfg m)
    rw [if_pos (by simp only [hout, decide_false, Bool.not_false])] at hget
    exact hget

theorem State.fullWidth_rd (s : State) (l : Nat) {a : Nat} (ha : a ≠ Reg.portLpTrain l) : (s.fullWidth l).rd a = s.rd a := by
  unfold State.fullWidth
  split
  · exact State.rd_setF_ne _ (Fld.portLpTrainMinWidth l) _ a ha
  · rfl

theorem State.fullWidth_shape (s : State) (l : Nat) : ShapeSame s (s.fullWidth l) := fun m _ =>
  getF_addr (Fld.portCfgMode m) (State.fullWidth_rd s l (by
    simp only [Fld.portCfgMode, Reg.portCfg, Reg.portLpTrain]
    omega))

theorem shapeWidth_lt (mode : Nat) : shapeWidth mode < 32 := by
  unfold shapeWidth
  split
  · decide
  · split <;> decide

/-- Each logical port of the list has its full width, as has one that had it. -/
theorem State.fullWidths_show (ls : List Nat) (s : State) (hls : ∀ l ∈ ls, l < 64) {k : Nat} (hk : k < 64)
    (h : k ∈ ls ∨ s.getF (Fld.portLpTrainMinWidth k) = shapeWidth (s.shape (k / 2))) (hexists : s.lpExists k = true) :
    (ls.foldl State.fullWidth s).getF (Fld.portLpTrainMinWidth k) = shapeWidth (s.shape (k / 2)) := by
  induction ls generalizing s with
  | nil => exact h.resolve_left List.not_mem_nil
  | cons l ls ih =>
    have hsame := State.fullWidth_shape s l
    have hshape := hsame (k / 2) (by omega)
    rw [List.foldl_cons, ← hshape]
    refine ih (s.fullWidth l) (fun x hx => hls x (List.mem_cons_of_mem _ hx)) ?_ ((hsame.exists_ hk).trans hexists)
    by_cases hkl : k = l
    · subst hkl
      right
      rw [hshape, State.fullWidth, if_pos hexists]
      exact getF_fit _ _ _ (by simp [Fld.portLpTrainMinWidth]) (by simpa [Fld.portLpTrainMinWidth] using shapeWidth_lt _)
    · refine h.imp (fun hmem => (List.mem_cons.1 hmem).resolve_left hkl) (fun hwidth => ?_)
      rw [hshape, ← hwidth]
      refine getF_addr _ (State.fullWidth_rd s l ?_)
      simp only [Fld.portLpTrainMinWidth, Reg.portLpTrain]
      omega

/-- What CFG shows of a new shape. -/
theorem State.modeShown_shape (s : State) {n mode : Nat} (hmode : mode < 4) (hnew : mode ≠ s.shape n) :
    (s.modeShown n mode).shape n = mode ∧ (mode = 2 → (s.modeShown n mode).shape (n + 1) = 3) ∧
    (s.shape n = 2 → (s.modeShown n mode).shape (n + 1) = 0) := by
  have hset : ∀ (u : State) m v, v < 4 → (u.setF (Fld.portCfgMode m) v).shape m = v := fun u m v hv =>
    getF_fit _ _ _ (by simp [Fld.portCfgMode]) (by simpa [Fld.portCfgMode] using hv)
  have hother : ∀ (u : State) v, (u.setF (Fld.portCfgMode (n + 1)) v).shape n = u.shape n := fun u v =>
    State.getF_setF_ne _ (Fld.portCfgMode (n + 1)) (Fld.portCfgMode n) _ (.inl (by simp only [Fld.portCfgMode, Reg.portCfg]; omega))
  obtain ⟨u, hu⟩ : ∃ u, u = s.setF (Fld.portCfgMode n) mode := ⟨_, rfl⟩
  have hself : u.shape n = mode := hu ▸ hset s n mode hmode
  have hshown : s.modeShown n mode = if mode = 2 then u.setF (Fld.portCfgMode (n + 1)) 3
      else if decide (s.shape n = 2) then u.setF (Fld.portCfgMode (n + 1)) 0 else u := by rw [hu]; rfl
  rw [hshown]
  by_cases h16 : mode = 2
  · rw [if_pos h16]
    exact ⟨(hother _ _).trans hself, fun _ => hset _ _ _ (by decide), fun hwas => absurd (h16.trans hwas.symm) hnew⟩
  · rw [if_neg h16]
    refine ⟨?_, fun h => absurd h h16, fun hwas => ?_⟩
    · split
      · exact (hother _ _).trans hself
      · exact hself
    · rw [if_pos (decide_eq_true hwas)]
      exact hset _ _ _ (by decide)

theorem State.affected_lt (s : State) {n mode l : Nat} (hn : n < 32) (hl : l ∈ s.affected n mode) : l < 64 := by
  unfold State.affected at hl
  split at hl
  · obtain ⟨i, hi, rfl⟩ := List.mem_map.1 hl
    rw [List.mem_range] at hi
    omega
  · simp only [List.mem_cons, List.not_mem_nil, or_false] at hl
    omega

/-- The ports that a shape affects do not depend on REFUSED. -/
theorem State.affected_refusedCleared (s : State) (n : Nat) (v : Word) (mode : Nat) : (s.refusedCleared n v).affected n mode = s.affected n mode := by
  unfold State.affected
  rw [State.shape_refusedCleared]

/-- The CLKREQ pins and the states of functions are neither shapes nor widths. -/
theorem shapeTail_getF (s : State) (n : Nat) (ls : List Nat) (g : Fd) (hg : PortReg g.addr) (hpin : ∀ k, g.addr ≠ Reg.portPinStat k) :
    (ls.foldl (fun s l => s.refreshPort l) (s.clkreqs n)).getF g = s.getF g :=
  ((PortKeep.foldl ls _ (fun s l _ => State.refreshPort_ports s l) _).getF g hg).trans (getF_addr g (State.clkreqs_rd s n _ hpin))

theorem cfgModeWrite_reshapes (s : State) (n : Phys) (v : Word) (hnew : fieldGet v 0 2 ≠ s.shape n.val)
    (hrefused : s.modeRefused n.val (fieldGet v 0 2) = false) :
    Completes (.cfgModeWrite n v) s (fun t => t.shape n.val = fieldGet v 0 2 ∧
      (fieldGet v 0 2 = 2 → t.shape (n.val + 1) = 3) ∧ (s.shape n.val = 2 → n.val % 2 = 0 → t.shape (n.val + 1) = 0) ∧
      ∀ l ∈ s.affected n.val (fieldGet v 0 2), t.lpExists l = true → t.getF (Fld.portLpTrainMinWidth l) = shapeWidth (t.shape (l / 2))) := by
  have hn : n.val < 32 := n.isLt
  obtain ⟨mode, hmode⟩ : ∃ mode, mode = fieldGet v 0 2 := ⟨_, rfl⟩
  rw [← hmode] at hnew hrefused ⊢
  have hmode4 : mode < 4 := hmode ▸ fieldGet_lt v 0 2
  have heven : mode = 2 → n.val % 2 = 0 := fun h => by
    simp only [State.modeRefused, Bool.or_eq_false_iff, decide_eq_false_iff_not] at hrefused
    omega
  obtain ⟨u, hu⟩ : ∃ u, u = s.refusedCleared n.val v := ⟨_, rfl⟩
  have hushape : ∀ m, u.shape m = s.shape m := fun m => hu ▸ State.shape_refusedCleared s n.val v m
  have huaffected : u.affected n.val mode = s.affected n.val mode := hu ▸ State.affected_refusedCleared s n.val v mode
  obtain ⟨ls, hls⟩ : ∃ ls, ls = s.affected n.val mode := ⟨_, rfl⟩
  have hlt : ∀ l ∈ ls, l < 64 := fun l hl => State.affected_lt s hn (hls ▸ hl)
  obtain ⟨x, hx⟩ : ∃ x, x = ls.foldl (State.lpReset (decide (u.shape n.val = 2)) n.val) (u.modeShown n.val mode) := ⟨_, rfl⟩
  obtain ⟨y, hy⟩ : ∃ y, y = ls.foldl State.fullWidth x := ⟨_, rfl⟩
  have hstep : s.cfgModeWrite n.val v = ls.foldl (fun s l => s.refreshPort l) (y.clkreqs n.val) := by
    rw [State.cfgModeWrite_eq, State.shape_refusedCleared, ← hmode, if_neg hnew, State.modeRefused_refusedCleared s n.val, hrefused, ← hu,
      hy, hx, hls, ← huaffected, ← State.setShape_eq]
    rfl
  have hsameX : ShapeSame (u.modeShown n.val mode) x := hx ▸ ShapeSame.foldl (State.lpReset_shape _ _) ls _
  have hsameY : ShapeSame x y := hy ▸ ShapeSame.foldl State.fullWidth_shape ls x
  have htail : ShapeSame y (ls.foldl (fun s l => s.refreshPort l) (y.clkreqs n.val)) := fun m hm =>
    shapeTail_getF y n.val ls (Fld.portCfgMode m) (portReg_cfg m hm) (fun k => portCfg_ne_pin m k)
  have hshape : ∀ m, m < 32 → (ls.foldl (fun s l => s.refreshPort l) (y.clkreqs n.val)).shape m = (u.modeShown n.val mode).shape m :=
    fun m hm => (htail m hm).trans ((hsameY m hm).trans (hsameX m hm))
  obtain ⟨hself, htakes, hleaves⟩ := State.modeShown_shape u hmode4 (by rw [hushape]; exact hnew)
  refine Completes.of_any (f := (·.cfgModeWrite n.val v)) _ rfl hstep
    ⟨(hshape n.val hn).trans hself, fun h => ?_, fun hwas hev => ?_, fun l hl hexists => ?_⟩
  · have hlead := heven h
    exact (hshape (n.val + 1) (by omega)).trans (htakes h)
  · exact (hshape (n.val + 1) (by omega)).trans (hleaves ((hushape n.val).trans hwas))
  · rw [← hls] at hl
    have hl64 := hlt l hl
    have hfull := State.fullWidths_show ls x hlt hl64 (.inl hl)
      ((hsameY.exists_ hl64).symm.trans ((htail.exists_ hl64).symm.trans hexists))
    rw [← hy] at hfull
    refine (shapeTail_getF y n.val ls (Fld.portLpTrainMinWidth l) (portReg_train l hl64) (fun k => ?_)).trans (hfull.trans ?_)
    · simp only [Fld.portLpTrainMinWidth, Reg.portLpTrain, Reg.portPinStat]
      omega
    · exact congrArg shapeWidth ((hsameY _ (by omega)).symm.trans (htail _ (by omega)).symm)

/-- Settles O41: each event of a link in turn, over what L0, a link down and a new shape leave of the PORT registers. -/
theorem linksComeUpGoDownAndTakeTheirShape : Obligations.LinksComeUpGoDownAndTakeTheirShape := by
  unfold Obligations.LinksComeUpGoDownAndTakeTheirShape
  exact ⟨linkUp_trains, linkUp_refuses, linkUp_recovers, linkDown_falls, linkDown_down, lpCtlWrite_takes, cfgModeWrite_reshapes⟩

end Sys2Proof.Machine
end

section
/-! SUPPORT. Acknowledgement, credits, replay and Recovery (O43). -/

open Sys2Proof Sys2Proof.Machine

namespace Sys2Proof.Machine

/-! ### The link layer's own state (R57, R62, R64) -/

theorem State.seqMod_cases (s : State) (lp : Nat) : s.seqMod lp = 4096 ∨ s.seqMod lp = 1024 := by
  unfold State.seqMod
  split
  · exact .inl rfl
  · exact .inr rfl

/-- A change of one link is that and nothing else. -/
theorem State.modLnk_only (s : State) (lp : Nat) (f : Link → Link) : LnkOnly s (s.modLnk lp f) lp (f (s.lnk lp)) := by
  refine ⟨rfl, ?_, fun k hk => ?_⟩ <;> rw [lnk_mod]
  · exact if_pos rfl
  · exact if_neg hk

theorem State.modTfl_lnk (s : State) (lp : Nat) (f : Tfl → Tfl) : (s.modTfl lp f).lnk lp = { s.lnk lp with tfl := f (s.lnk lp).tfl } :=
  (s.modLnk_only lp (fun l => { l with tfl := f l.tfl })).2.1

theorem State.modTfl_only (s : State) (lp : Nat) (f : Tfl → Tfl) :
    LnkOnly s (s.modTfl lp f) lp { s.lnk lp with tfl := f (s.lnk lp).tfl } := s.modLnk_only lp (fun l => { l with tfl := f l.tfl })

theorem Tfl.advance_a (t : Tfl) (m a now : Nat) : (t.advance m a now).a = a := by
  unfold Tfl.advance
  split
  · assumption
  · rfl

theorem Tfl.advance_n (t : Tfl) (m a now : Nat) : (t.advance m a now).n = t.n := by
  unfold Tfl.advance
  split <;> rfl

theorem Tfl.advance_tries (t : Tfl) (m a now : Nat) : (t.advance m a now).tries = if t.a = a then t.tries else 0 := by
  unfold Tfl.advance
  split <;> rfl

/-- How many flits wait once the link layer's state has changed. -/
theorem State.unacked_modTfl (s : State) (lp : Nat) (f : Tfl → Tfl) :
    (s.modTfl lp f).unacked lp = ((f (s.lnk lp).tfl).n + s.seqMod lp - (f (s.lnk lp).tfl).a % s.seqMod lp) % s.seqMod lp := by
  have hmod : (s.modTfl lp f).seqMod lp = s.seqMod lp := rfl
  unfold State.unacked
  rw [State.modTfl_lnk, hmod]

/-! ### Resends (R64) -/

/-- A resend from A: counted, and sent out. -/
theorem State.resend_shows (s : State) (lp : Nat) :
    (s.resend lp).out = .resend lp (s.lnk lp).tfl.a :: s.out ∧
    (s.resend lp).lnk lp = { s.lnk lp with tfl := { (s.lnk lp).tfl with replay := some (s.lnk lp).tfl.a, tries := (s.lnk lp).tfl.tries + 1 } } ∧
    (∀ k, k ≠ lp → (s.resend lp).lnk k = s.lnk k) ∧ OnlyFields s (s.resend lp) [Fld.portLpReplayCntReplay lp] ∧
    s.resend lp = { s with regs := (s.resend lp).regs, out := (s.resend lp).out, link := { s.link with links := (s.resend lp).link.links } } := by
  obtain ⟨-, hself, hothers⟩ := s.modTfl_only lp (fun t => { t with replay := some (s.lnk lp).tfl.a, tries := t.tries + 1 })
  refine ⟨rfl, hself, hothers, ?_, rfl⟩
  exact (((OnlyFields.refl s _).of_regs (u := s.modTfl lp (fun t => { t with replay := some (s.lnk lp).tfl.a, tries := t.tries + 1 })) rfl).stepB
    (Fld.portLpReplayCntReplay lp) (by simp)).of_regs rfl

theorem State.escalate_resends {s : State} {lp : Nat} (hkept : s.unacked lp ≠ 0) (htries : (s.lnk lp).tfl.tries < 4) : s.escalate lp = s.resend lp := by
  rw [State.escalate, if_neg hkept, decide_eq_true htries]
  rfl

theorem State.escalate_recovers {s : State} {lp : Nat} (hkept : s.unacked lp ≠ 0) (htries : 4 ≤ (s.lnk lp).tfl.tries)
    (hspare : s.sparing lp = false) :
    s.escalate lp = (s.modTfl lp (fun t => { t with tries := 0, stall := s.tick })).enterRecovery lp := by
  rw [State.escalate, if_neg hkept, decide_eq_false (Nat.not_lt.2 htries), hspare]
  rfl

theorem State.badLink_counts (s : State) (lp : Nat) : RegsOnly s (s.badLink lp) [Fld.portLpCrcCntBadlink lp] ∧
    (s.badLink lp).getF (Fld.portLpCrcCntBadlink lp) =
      min (s.getF (Fld.portLpCrcCntBadlink lp) + 1) (2 ^ (Fld.portLpCrcCntBadlink lp).width - 1) :=
  ⟨RegsOnly.setF _ _ _, State.getF_bump _ _ (by simp [Fld.portLpCrcCntBadlink])⟩

/-! ### ACK and NAK (R64) -/

theorem tflAck_advances (s : State) (lp : Lp) (q : Fin 4096) (hl0 : s.inL0 lp.val = true)
    (hkept : (q.val + s.seqMod lp.val - (s.lnk lp.val).tfl.a % s.seqMod lp.val) % s.seqMod lp.val < s.unacked lp.val) :
    Completes (.tflAck lp q) s (fun t => LnkOnly s t lp.val { s.lnk lp.val with
      tfl := (s.lnk lp.val).tfl.advance (s.seqMod lp.val) ((q.val + 1) % s.seqMod lp.val) s.tick } ∧
      (t.lnk lp.val).tfl.a = (q.val + 1) % s.seqMod lp.val) := by
  have honly := s.modTfl_only lp.val (fun t => t.advance (s.seqMod lp.val) ((q.val + 1) % s.seqMod lp.val) s.tick)
  refine Completes.of_when _ (b := fun s => s.inL0 lp.val) (g := (·.tflAck lp.val q.val)) rfl hl0 (if_pos hkept) rfl rfl ⟨honly, ?_⟩
  rw [honly.2.1]
  exact Tfl.advance_a _ _ _ _

theorem tflAck_counts (s : State) (lp : Lp) (q : Fin 4096) (hl0 : s.inL0 lp.val = true)
    (hout : s.unacked lp.val ≤ (q.val + s.seqMod lp.val - (s.lnk lp.val).tfl.a % s.seqMod lp.val) % s.seqMod lp.val) :
    Completes (.tflAck lp q) s (fun t => RegsOnly s t [Fld.portLpCrcCntBadlink lp.val] ∧
      t.getF (Fld.portLpCrcCntBadlink lp.val) =
        min (s.getF (Fld.portLpCrcCntBadlink lp.val) + 1) (2 ^ (Fld.portLpCrcCntBadlink lp.val).width - 1)) :=
  Completes.of_when _ (b := fun s => s.inL0 lp.val) (g := (·.tflAck lp.val q.val)) rfl hl0 (if_neg (Nat.not_lt.2 hout)) rfl rfl
    (s.badLink_counts lp.val)

/-- A NAK within the kept flits. -/
theorem State.tflNak_of_kept {s : State} {lp e : Nat} (he : e < s.seqMod lp)
    (hkept : (e + s.seqMod lp - (s.lnk lp).tfl.a % s.seqMod lp) % s.seqMod lp ≤ s.unacked lp) :
    s.tflNak lp e = (s.modTfl lp (fun t => t.advance (s.seqMod lp) e s.tick)).escalate lp := by
  refine (if_pos hkept).trans ?_
  rw [Nat.mod_eq_of_lt he]

theorem tflNak_acknowledges (s : State) (lp : Lp) (e : Fin 4096) (hl0 : s.inL0 lp.val = true) (he : e.val < s.seqMod lp.val)
    (hn : (s.lnk lp.val).tfl.n = e.val) (_ha : (s.lnk lp.val).tfl.a < s.seqMod lp.val) :
    Completes (.tflNak lp e) s (fun t => LnkOnly s t lp.val { s.lnk lp.val with
      tfl := (s.lnk lp.val).tfl.advance (s.seqMod lp.val) e.val s.tick } ∧ (t.lnk lp.val).tfl.a = e.val ∧ t.unacked lp.val = 0) := by
  have honly := s.modTfl_only lp.val (fun t => t.advance (s.seqMod lp.val) e.val s.tick)
  obtain ⟨u, hu⟩ : ∃ u, u = s.modTfl lp.val (fun t => t.advance (s.seqMod lp.val) e.val s.tick) := ⟨_, rfl⟩
  have hall : u.unacked lp.val = 0 := by
    rw [hu, State.unacked_modTfl, Tfl.advance_a, Tfl.advance_n, hn, Nat.mod_eq_of_lt he, Nat.add_sub_cancel_left, Nat.mod_self]
  have hstep : s.tflNak lp.val e.val = u := by
    rw [State.tflNak_of_kept he (by rw [State.unacked, hn]), ← hu]
    exact if_pos hall
  rw [← hu] at honly
  refine Completes.of_when u (b := fun s => s.inL0 lp.val) (g := (·.tflNak lp.val e.val)) rfl hl0 hstep (by rw [hu]; rfl) (by rw [hu]; rfl)
    ⟨honly, ?_, hall⟩
  rw [honly.2.1]
  exact Tfl.advance_a _ _ _ _

theorem tflNak_resends (s : State) (lp : Lp) (e : Fin 4096) (hl0 : s.inL0 lp.val = true) (he : e.val < s.seqMod lp.val)
    (hkept : (e.val + s.seqMod lp.val - (s.lnk lp.val).tfl.a % s.seqMod lp.val) % s.seqMod lp.val < s.unacked lp.val)
    (htries : (s.lnk lp.val).tfl.a = e.val → (s.lnk lp.val).tfl.tries < 4) :
    Completes (.tflNak lp e) s (fun t =>
      t.out = .resend lp.val e.val :: s.out ∧ (t.lnk lp.val).tfl.a = e.val ∧ (t.lnk lp.val).tfl.replay = some e.val ∧
      (t.lnk lp.val).tfl.tries = (if (s.lnk lp.val).tfl.a = e.val then (s.lnk lp.val).tfl.tries + 1 else 1) ∧
      (∀ k, k ≠ lp.val → t.lnk k = s.lnk k) ∧ OnlyFields s t [Fld.portLpReplayCntReplay lp.val] ∧
      t = { s with regs := t.regs, out := t.out, link := { s.link with links := t.link.links } }) := by
  obtain ⟨hframe, hself, hothers⟩ := s.modTfl_only lp.val (fun t => t.advance (s.seqMod lp.val) e.val s.tick)
  obtain ⟨u, hu⟩ : ∃ u, u = s.modTfl lp.val (fun t => t.advance (s.seqMod lp.val) e.val s.tick) := ⟨_, rfl⟩
  have hleft : u.unacked lp.val ≠ 0 := by
    rw [hu, State.unacked_modTfl, Tfl.advance_a, Tfl.advance_n]
    unfold State.unacked at hkept
    dsimp only at hkept
    rcases s.seqMod_cases lp.val with hm | hm <;> rw [hm] at hkept he ⊢ <;> omega
  rw [← hu] at hframe hself hothers
  have hua : (u.lnk lp.val).tfl.a = e.val := by rw [hself]; exact Tfl.advance_a _ _ _ _
  have hutries : (u.lnk lp.val).tfl.tries = if (s.lnk lp.val).tfl.a = e.val then (s.lnk lp.val).tfl.tries else 0 := by
    rw [hself]
    exact Tfl.advance_tries _ _ _ _
  have hfew : (u.lnk lp.val).tfl.tries < 4 := by
    rw [hutries]
    split
    · exact htries (by assumption)
    · decide
  have hstep : s.tflNak lp.val e.val = u.resend lp.val := by
    rw [State.tflNak_of_kept he (Nat.le_of_lt hkept), ← hu]
    exact State.escalate_resends hleft hfew
  obtain ⟨hout, hlnk, hrest, honly, hall⟩ := u.resend_shows lp.val
  have hregs : u.regs = s.regs := by rw [hu]; rfl
  refine Completes.of_any (f := fun s => s.when (s.inL0 lp.val) (·.tflNak lp.val e.val)) (u.resend lp.val) rfl ((if_pos hl0).trans hstep)
    ⟨?_, ?_, ?_, ?_, fun k hk => (hrest k hk).trans (hothers k hk), ?_, ?_⟩
  · show (u.resend lp.val).out = _
    rw [hout, hua, hu]
    rfl
  · show ((u.resend lp.val).lnk lp.val).tfl.a = _
    rw [hlnk]
    exact hua
  · show ((u.resend lp.val).lnk lp.val).tfl.replay = _
    rw [hlnk, hua]
  · show ((u.resend lp.val).lnk lp.val).tfl.tries = _
    rw [hlnk]
    show (u.lnk lp.val).tfl.tries + 1 = _
    rw [hutries]
    split <;> rfl
  · exact (((OnlyFields.refl s _).of_regs hregs).trans honly).of_regs rfl
  · rw [hall, hframe]

theorem tflNak_counts (s : State) (lp : Lp) (e : Fin 4096) (hl0 : s.inL0 lp.val = true)
    (hout : s.unacked lp.val < (e.val + s.seqMod lp.val - (s.lnk lp.val).tfl.a % s.seqMod lp.val) % s.seqMod lp.val) :
    Completes (.tflNak lp e) s (fun t => RegsOnly s t [Fld.portLpCrcCntBadlink lp.val] ∧
      t.getF (Fld.portLpCrcCntBadlink lp.val) =
        min (s.getF (Fld.portLpCrcCntBadlink lp.val) + 1) (2 ^ (Fld.portLpCrcCntBadlink lp.val).width - 1)) :=
  Completes.of_when _ (b := fun s => s.inL0 lp.val) (g := (·.tflNak lp.val e.val)) rfl hl0 (if_neg (Nat.not_le.2 hout)) rfl rfl
    (s.badLink_counts lp.val)

/-! ### Credit counts (R66) -/

theorem tflCredit_moves (s : State) (lp : Lp) (cls : Fin 7) (v : Word) (hl0 : s.inL0 lp.val = true)
    (hforward : (v - (s.credit lp.val cls.val).limit).toNat < 2 ^ 31) (hspace : (v - (s.credit lp.val cls.val).cons).toNat ≤ 2 ^ 24) :
    Completes (.tflCredit lp cls v) s (fun t =>
      t.credit lp.val cls.val = { s.credit lp.val cls.val with limit := v, first := true } ∧
      (∀ m k, k < 8 → (m ≠ lp.val ∨ k ≠ cls.val) → t.credit m k = s.credit m k) ∧
      t = { s with link := { s.link with credit := t.link.credit } }) := by
  have hcls := cls.isLt
  have hstep : s.tflCredit lp.val cls.val v = s.setCredit lp.val cls.val { s.credit lp.val cls.val with limit := v, first := true } :=
    (if_neg (Nat.not_le.2 hforward)).trans (if_neg (Nat.not_lt.2 hspace))
  refine Completes.of_when _ (b := fun s => s.inL0 lp.val) (g := (·.tflCredit lp.val cls.val v)) rfl hl0 hstep rfl rfl
    ⟨Tbl.get_set_same _ _ _ _, fun m k hk hne => Tbl.get_set_ne _ _ _ _ _ ?_, rfl⟩
  omega

theorem tflCredit_behind (s : State) (lp : Lp) (cls : Fin 7) (v : Word) (hl0 : s.inL0 lp.val = true)
    (hbehind : 2 ^ 31 ≤ (v - (s.credit lp.val cls.val).limit).toNat) : exec (.tflCredit lp cls v) s = .next s :=
  exec_of_act (f := fun s => s.when (s.inL0 lp.val) (·.tflCredit lp.val cls.val v)) s rfl ((if_pos hl0).trans (if_pos hbehind)) rfl rfl

/-! ### Recovery (R58) -/

/-- A link in Recovery, counted, before too many in a row take it down. -/
def State.recovering (s : State) (lp : Nat) : State :=
  ((s.setFs [(Fld.portLpStatLtssm lp, 5), (Fld.portLpStatSpeed lp, 0), (Fld.portLpStatWidth lp, 0)]).bump (Fld.portLpReplayCntRecov lp)).modLnk lp
    (fun l => { l with recov := l.recov + 1 })

/-- What a link in Recovery shows. -/
theorem State.recovering_shows (s : State) (lp : Nat) :
    (s.recovering lp).getF (Fld.portLpStatLtssm lp) = 5 ∧ (s.recovering lp).lnk lp = { s.lnk lp with recov := (s.lnk lp).recov + 1 } ∧
    (∀ k, k ≠ lp → (s.recovering lp).lnk k = s.lnk k) ∧
    OnlyFields s (s.recovering lp) [Fld.portLpStatLtssm lp, Fld.portLpStatSpeed lp, Fld.portLpStatWidth lp, Fld.portLpReplayCntRecov lp] ∧
    s.recovering lp = { s with regs := (s.recovering lp).regs, link := { s.link with links := (s.recovering lp).link.links } } := by
  obtain ⟨u, hu⟩ : ∃ u, u = s.setFs [(Fld.portLpStatLtssm lp, 5), (Fld.portLpStatSpeed lp, 0), (Fld.portLpStatWidth lp, 0)] := ⟨_, rfl⟩
  have hlnk : (u.bump (Fld.portLpReplayCntRecov lp)).lnk = s.lnk := by rw [hu]; rfl
  obtain ⟨-, hself, hothers⟩ := (u.bump (Fld.portLpReplayCntRecov lp)).modLnk_only lp (fun l => { l with recov := l.recov + 1 })
  have hrun : s.recovering lp = (u.bump (Fld.portLpReplayCntRecov lp)).modLnk lp (fun l => { l with recov := l.recov + 1 }) := by rw [hu]; rfl
  have hwrites := Writes.setFs [(Fld.portLpStatLtssm lp, 5), (Fld.portLpStatSpeed lp, 0), (Fld.portLpStatWidth lp, 0)]
    (fun x hx => by
      simp only [List.mem_cons, List.not_mem_nil, or_false] at hx
      rcases hx with rfl | rfl | rfl <;> simp [Fld.portLpStatLtssm, Fld.portLpStatSpeed, Fld.portLpStatWidth])
    (by simp [Fld.portLpStatLtssm, Fld.portLpStatSpeed, Fld.portLpStatWidth]) s
  rw [← hu] at hwrites
  rw [hlnk] at hself hothers
  refine ⟨?_, by rw [hrun, hself], fun k hk => by rw [hrun, hothers k hk], ?_, rfl⟩
  · rw [hrun]
    refine Eq.trans (State.getF_setF_ne u (Fld.portLpReplayCntRecov lp) (Fld.portLpStatLtssm lp) _ (.inl ?_))
      (hwrites.1 (Fld.portLpStatLtssm lp, 5) (by simp))
    simp only [Fld.portLpStatLtssm, Fld.portLpReplayCntRecov, Reg.portLpStat, Reg.portLpReplayCnt]
    omega
  · rw [hrun]
    refine OnlyFields.of_regs (t := u.bump (Fld.portLpReplayCntRecov lp)) ?_ rfl
    rw [hu]
    exact ((OnlyFields.refl s _).stepFs _ (by simp)).stepB _ (by simp)

/-- Recovery leaves every register but LP_STAT and REPLAY_CNT of its port. -/
theorem State.recovering_rd (s : State) (lp : Nat) {a : Nat} (hstat : a ≠ Reg.portLpStat lp) (hcount : a ≠ Reg.portLpReplayCnt lp) :
    (s.recovering lp).rd a = s.rd a := by
  obtain ⟨u, hu⟩ : ∃ u, u = s.setFs [(Fld.portLpStatLtssm lp, 5), (Fld.portLpStatSpeed lp, 0), (Fld.portLpStatWidth lp, 0)] := ⟨_, rfl⟩
  have hregs : (s.recovering lp).regs = (u.bump (Fld.portLpReplayCntRecov lp)).regs := by rw [hu]; rfl
  have hshown : u.rd a = s.rd a := by
    rw [hu, setFs3, State.rd_setF_ne _ _ _ _ hstat, State.rd_setF_ne _ _ _ _ hstat, State.rd_setF_ne _ _ _ _ hstat]
  rw [State.rd, hregs]
  exact (State.rd_setF_ne u (Fld.portLpReplayCntRecov lp) _ a hcount).trans hshown

/-- Recovery, or the end of the link where Recoveries are used up. -/
theorem State.enterRecovery_eq {s : State} {lp : Nat} (hl0 : s.inL0 lp = true) :
    s.enterRecovery lp = if max 1 (s.getF (Fld.portLpRelCtlRecovMax lp)) ≤ (s.lnk lp).recov + 1 then (s.recovering lp).linkDown lp
      else s.recovering lp := by
  have hmax : (s.recovering lp).getF (Fld.portLpRelCtlRecovMax lp) = s.getF (Fld.portLpRelCtlRecovMax lp) :=
    getF_addr _ (State.recovering_rd s lp (by simp only [Fld.portLpRelCtlRecovMax, Reg.portLpRelCtl, Reg.portLpStat]; omega)
      (by simp only [Fld.portLpRelCtlRecovMax, Reg.portLpRelCtl, Reg.portLpReplayCnt]; omega))
  obtain ⟨-, hself, -⟩ := s.recovering_shows lp
  have hrun : s.enterRecovery lp =
      if max 1 ((s.recovering lp).getF (Fld.portLpRelCtlRecovMax lp)) ≤ ((s.recovering lp).lnk lp).recov then (s.recovering lp).linkDown lp
      else s.recovering lp := by
    rw [State.enterRecovery, hl0]
    rfl
  rw [hrun, hmax, hself]

/-! ### REPLAY_TIMEOUT (R64) -/

/-- REPLAY_TIMEOUT's effect. -/
def State.replayDue (s : State) (lp : Nat) : State :=
  let t := (s.lnk lp).tfl
  if s.inL0 lp && decide (0 < s.unacked lp ∧ t.stall + s.replayTmo lp ≤ s.tick) then
    (s.modTfl lp (fun t => { t with stall := s.tick })).escalate lp
  else s

theorem exec_replayTimeout (lp : Lp) (s : State) : exec (.replayTimeout lp) s = act s (·.replayDue lp.val) := rfl

/-- The timeout runs anew, and the kept flits are due. -/
theorem State.replayDue_of_due {s : State} {lp : Nat} (hl0 : s.inL0 lp = true) (hkept : 0 < s.unacked lp)
    (hdue : (s.lnk lp).tfl.stall + s.replayTmo lp ≤ s.tick) :
    s.replayDue lp = (s.modTfl lp (fun t => { t with stall := s.tick })).escalate lp ∧
    (s.modTfl lp (fun t => { t with stall := s.tick })).unacked lp ≠ 0 := by
  refine ⟨if_pos (by rw [hl0, decide_eq_true ⟨hkept, hdue⟩]; rfl), ?_⟩
  rw [State.unacked_modTfl]
  exact Nat.ne_of_gt hkept

theorem replayTimeout_resends (s : State) (lp : Lp) (hl0 : s.inL0 lp.val = true) (hkept : 0 < s.unacked lp.val)
    (hdue : (s.lnk lp.val).tfl.stall + s.replayTmo lp.val ≤ s.tick) (htries : (s.lnk lp.val).tfl.tries < 4) :
    Completes (.replayTimeout lp) s (fun t =>
      t.out = .resend lp.val (s.lnk lp.val).tfl.a :: s.out ∧
      t.lnk lp.val = { s.lnk lp.val with tfl := { (s.lnk lp.val).tfl with tries := (s.lnk lp.val).tfl.tries + 1, replay := some (s.lnk lp.val).tfl.a, stall := s.tick } } ∧
      (∀ k, k ≠ lp.val → t.lnk k = s.lnk k) ∧ OnlyFields s t [Fld.portLpReplayCntReplay lp.val] ∧
      t = { s with regs := t.regs, out := t.out, link := { s.link with links := t.link.links } }) := by
  obtain ⟨u, hu⟩ : ∃ u, u = s.modTfl lp.val (fun t => { t with stall := s.tick }) := ⟨_, rfl⟩
  obtain ⟨hrun, hleft⟩ := State.replayDue_of_due hl0 hkept hdue
  obtain ⟨hframe, hself, hothers⟩ := s.modTfl_only lp.val (fun t => { t with stall := s.tick })
  rw [← hu] at hrun hleft hframe hself hothers
  have hstep : s.replayDue lp.val = u.resend lp.val := by
    rw [hrun]
    exact State.escalate_resends hleft (by rw [hself]; exact htries)
  obtain ⟨hout, hlnk, hrest, honly, hall⟩ := u.resend_shows lp.val
  have hregs : u.regs = s.regs := by rw [hu]; rfl
  refine Completes.of_any _ (exec_replayTimeout lp s) hstep ⟨?_, ?_, fun k hk => (hrest k hk).trans (hothers k hk), ?_, ?_⟩
  · show (u.resend lp.val).out = _
    rw [hout, hself, hu]
    rfl
  · show (u.resend lp.val).lnk lp.val = _
    rw [hlnk, hself]
  · exact (((OnlyFields.refl s _).of_regs hregs).trans honly).of_regs rfl
  · rw [hall, hframe]

theorem replayTimeout_recovers (s : State) (lp : Lp) (hl0 : s.inL0 lp.val = true) (hkept : 0 < s.unacked lp.val)
    (hdue : (s.lnk lp.val).tfl.stall + s.replayTmo lp.val ≤ s.tick) (htries : 4 ≤ (s.lnk lp.val).tfl.tries) (hspare : s.sparing lp.val = false)
    (hrecov : (s.lnk lp.val).recov + 1 < max 1 (s.getF (Fld.portLpRelCtlRecovMax lp.val))) :
    Completes (.replayTimeout lp) s (fun t =>
      t.getF (Fld.portLpStatLtssm lp.val) = 5 ∧
      t.lnk lp.val = { s.lnk lp.val with
        recov := (s.lnk lp.val).recov + 1, tfl := { (s.lnk lp.val).tfl with tries := 0, stall := s.tick } } ∧
      (∀ k, k ≠ lp.val → t.lnk k = s.lnk k) ∧
      OnlyFields s t [Fld.portLpStatLtssm lp.val, Fld.portLpStatSpeed lp.val, Fld.portLpStatWidth lp.val, Fld.portLpReplayCntRecov lp.val] ∧
      t = { s with regs := t.regs, link := { s.link with links := t.link.links } }) := by
  obtain ⟨u, hu⟩ : ∃ u, u = s.modTfl lp.val (fun t => { t with stall := s.tick }) := ⟨_, rfl⟩
  obtain ⟨hrun, hleft⟩ := State.replayDue_of_due hl0 hkept hdue
  obtain ⟨hframe, hself, hothers⟩ := s.modTfl_only lp.val (fun t => { t with stall := s.tick })
  rw [← hu] at hrun hleft hframe hself hothers
  have hregs : u.regs = s.regs := by rw [hu]; rfl
  have htick : u.tick = s.tick := by rw [hu]; rfl
  obtain ⟨w, hw⟩ : ∃ w, w = u.modTfl lp.val (fun t => { t with tries := 0, stall := u.tick }) := ⟨_, rfl⟩
  obtain ⟨hwframe, hwself, hwothers⟩ := u.modTfl_only lp.val (fun t => { t with tries := 0, stall := u.tick })
  rw [← hw] at hwframe hwself hwothers
  have hwregs : w.regs = s.regs := by rw [hw]; exact hregs
  have hwlnk : w.lnk lp.val = { s.lnk lp.val with tfl := { (s.lnk lp.val).tfl with tries := 0, stall := s.tick } } := by rw [hwself, hself, htick]
  have huspare : u.sparing lp.val = false := by rw [hu]; exact hspare
  have hescalate : u.escalate lp.val = w.enterRecovery lp.val := by
    rw [hw]
    exact State.escalate_recovers hleft (by rw [hself]; exact htries) huspare
  have hwl0 : w.inL0 lp.val = true := by rw [hw, hu]; exact hl0
  have hstep : s.replayDue lp.val = w.recovering lp.val := by
    rw [hrun, hescalate, State.enterRecovery_eq hwl0, getF_regs hwregs, hwlnk]
    exact if_neg (Nat.not_le.2 hrecov)
  obtain ⟨hltssm, hlnk, hrest, honly, hall⟩ := w.recovering_shows lp.val
  refine Completes.of_any _ (exec_replayTimeout lp s) hstep
    ⟨hltssm, ?_, fun k hk => (hrest k hk).trans ((hwothers k hk).trans (hothers k hk)), ?_, ?_⟩
  · show (w.recovering lp.val).lnk lp.val = _
    rw [hlnk, hwlnk]
  · exact (((OnlyFields.refl s _).of_regs hwregs).trans honly).of_regs rfl
  · rw [hall, hwframe, hframe]

/-! ### A link that is not in L0 -/

theorem replayTimeout_outsideL0 (s : State) (lp : Lp) (hl0 : s.inL0 lp.val = false) : exec (.replayTimeout lp) s = .next s :=
  exec_of_act s (exec_replayTimeout lp s) (if_neg (by simp [hl0])) rfl rfl

/-- Settles O43: each item in turn, over what it makes of the link layer's own state. -/
theorem acknowledgementsCreditsAndReplay : Obligations.AcknowledgementsCreditsAndReplay := by
  unfold Obligations.AcknowledgementsCreditsAndReplay
  refine ⟨tflAck_advances, tflAck_counts, tflNak_acknowledges, tflNak_resends, tflNak_counts, tflCredit_moves, tflCredit_behind,
    replayTimeout_resends, replayTimeout_recovers, fun s lp q hl0 => ⟨?_, ?_, replayTimeout_outsideL0 s lp hl0, fun cls v => ?_⟩⟩
  · exact exec_of_when_false (b := fun s => s.inL0 lp.val) (g := (·.tflAck lp.val q.val)) rfl hl0
  · exact exec_of_when_false (b := fun s => s.inL0 lp.val) (g := (·.tflNak lp.val q.val)) rfl hl0
  · exact exec_of_when_false (b := fun s => s.inL0 lp.val) (g := (·.tflCredit lp.val cls.val v)) rfl hl0

end Sys2Proof.Machine
end

section
/-! SUPPORT. Lane sparing (O44). -/

open Sys2Proof Sys2Proof.Machine

namespace Sys2Proof.Machine

/-! ### The fields of the spare pairs (R33, R78) -/

/-- A spare pair of port `lp`: its state and its lane lie side by side in SPARE. -/
structure SparePair (f : Fd × Fd) (lp : Nat) : Prop where
  addr : f.1.addr = Reg.portLpSpare lp
  laneAddr : f.2.addr = Reg.portLpSpare lp
  width : f.1.width = 2
  laneWidth : f.2.width = 4
  side : f.1.lo + 2 = f.2.lo
  top : f.2.lo + 4 ≤ 32

theorem spareFds_rx (lp lane : Nat) : SparePair (spareFds lp lane).1 lp := by
  unfold spareFds
  split <;> exact ⟨rfl, rfl, rfl, rfl, rfl, Nat.le_of_ble_eq_true rfl⟩

theorem spareFds_tx (lp lane : Nat) : SparePair (spareFds lp lane).2 lp := by
  unfold spareFds
  split <;> exact ⟨rfl, rfl, rfl, rfl, rfl, Nat.le_of_ble_eq_true rfl⟩

/-- The receive pair stands below the transmit pair. -/
theorem spareFds_apart (lp lane : Nat) : (spareFds lp lane).1.2.lo + 4 = (spareFds lp lane).2.1.lo := by
  unfold spareFds
  split <;> rfl

theorem portLpSpare_ne_stat (k lp : Nat) : Reg.portLpStat k ≠ Reg.portLpSpare lp := by
  simp only [Reg.portLpStat, Reg.portLpSpare]
  omega

/-- The state of a pair written. -/
theorem SparePair.getF {f : Fd × Fd} {lp : Nat} (h : SparePair f lp) (s : State) {v : Nat} (hv : v < 4) : (s.setF f.1 v).getF f.1 = v := by
  have htop := h.top
  have hside := h.side
  have hwidth := h.width
  exact getF_fit _ _ _ (by omega) (by rw [hwidth]; exact hv)

/-- A pair that takes a lane. -/
theorem SparePair.takes {f : Fd × Fd} {lp : Nat} (h : SparePair f lp) (s : State) {v lane : Nat} (hv : v < 4) (hlane : lane < 16) :
    (s.setFs [(f.1, v), (f.2, lane)]).getF f.1 = v ∧ (s.setFs [(f.1, v), (f.2, lane)]).getF f.2 = lane ∧
    OnlyFields s (s.setFs [(f.1, v), (f.2, lane)]) [f.1, f.2] := by
  have htop := h.top
  have hside := h.side
  have hwidth := h.width
  refine ⟨(State.getF_setF_ne _ f.2 f.1 _ (.inr (.inl (by omega)))).trans (h.getF s hv), ?_, (OnlyFields.refl s _).stepFs _ (by simp)⟩
  exact getF_fit _ f.2 _ (by have := h.laneWidth; omega) (by rw [h.laneWidth]; exact hlane)

/-- A write of SPARE leaves every other register. -/
theorem SparePair.setF_rd {f : Fd × Fd} {lp : Nat} (h : SparePair f lp) (s : State) (v : Nat) {a : Nat} (ha : a ≠ Reg.portLpSpare lp) :
    (s.setF f.1 v).rd a = s.rd a := State.rd_setF_ne _ f.1 _ a (by rw [h.addr]; exact ha)

/-- A write of SPARE leaves the role of every port. -/
theorem SparePair.setF_role {f : Fd × Fd} {lp : Nat} (h : SparePair f lp) (s : State) (v k : Nat) : (s.setF f.1 v).role k = s.role k :=
  getF_addr (Fld.portLpCtlRole k) (h.setF_rd s v (by simp only [Fld.portLpCtlRole, Reg.portLpCtl, Reg.portLpSpare]; omega))

/-! ### Items (R61, R72) -/

/-- A sparing item becomes due after a change of the port's link alone. -/
theorem State.spareItem_after {s u : State} {lp : Nat} {l : Link} (h : LnkOnly s u lp l) (sub lane : Nat) :
    SpareItem s (u.spareItem lp sub lane) lp sub lane l := by
  obtain ⟨hframe, hself, hothers⟩ := h
  have hrole : u.role lp = s.role lp := by rw [hframe]; rfl
  have hout : u.out = s.out := by rw [hframe]
  unfold State.spareItem
  rw [hrole]
  by_cases h2 : s.role lp = 2
  · rw [if_pos h2]
    obtain ⟨hmframe, hmself, hmothers⟩ := u.modLnk_only lp (fun l => { l with spareDue := l.spareDue ++ [(sub, lane)] })
    refine ⟨?_, ?_, fun k hk => (hmothers k hk).trans (hothers k hk), ?_⟩
    · rw [hmself, hself, if_pos h2]
    · rw [if_pos h2]
      exact hout
    · rw [hmframe, hframe]
  · rw [if_neg h2]
    refine ⟨?_, ?_, hothers, ?_⟩
    · rw [if_neg h2, List.append_nil]
      exact hself
    · rw [if_neg h2, ← hout]
      rfl
    · refine (congrArg (fun w : State => { w with out := .dllp lp sub lane :: w.out }) hframe).trans ?_
      rw [← hout]
      rfl

/-- A sparing item changes no register. -/
theorem State.spareItem_regs (s : State) (lp sub lane : Nat) : (s.spareItem lp sub lane).regs = s.regs := by
  unfold State.spareItem
  split <;> rfl

theorem SpareItem.pending {s t : State} {lp sub lane : Nat} {l : Link} (h : SpareItem s t lp sub lane l) : t.pending = s.pending := by
  rw [h.2.2.2]

theorem SpareItem.tick {s t : State} {lp sub lane : Nat} {l : Link} (h : SpareItem s t lp sub lane l) : t.tick = s.tick := by
  rw [h.2.2.2]

theorem LnkOnly.refl (s : State) (lp : Nat) : LnkOnly s s lp (s.lnk lp) := ⟨rfl, rfl, fun _ _ => rfl⟩

/-! ### A failing lane (R68, R69, R73) -/

/-- A free spare of a split port is not the other half's to give up. -/
theorem State.yields_of_free {s : State} {lp : Nat} {f : Nat → Fd} (start : Link → Option Nat) (h : s.spareFree lp f = true) :
    s.yields lp f start = false := by
  rw [State.spareFree, Bool.and_eq_true, Bool.or_eq_true, decide_eq_true_eq] at h
  rw [State.yields, Bool.and_eq_false_iff, decide_eq_false_iff_not, decide_eq_false_iff_not]
  refine h.2.imp (fun hshape hsplit => hshape hsplit.1) (fun hstandby hbusy => ?_)
  rw [hbusy.1] at hstandby
  exact absurd hstandby (by decide)

/-- The rows that find a lane failing. -/
theorem exec_failing {c : Instr} {lp : Lp} {lane : Fin 16} (hc : c = .laneFailing lp lane ∨ c = .spareCmd lp lane) (s : State) :
    exec c s = act s (·.laneFailing lp.val lane.val) := by
  rcases hc with rfl | rfl <;> rfl

/-- A lane that a spare may take. -/
def State.mayTake (s : State) (lp lane : Nat) : Bool :=
  decide (s.getF (Fld.portLpRelCtlSpareEn lp) = 1) &&
    (s.spareFree lp (fun l => (spareFds l lane).1.1) || (inStandby (s.getF (spareFds lp lane).1.1) && s.yields lp (fun l => (spareFds l lane).1.1) Link.rxAt)) &&
    decide (s.getF (Fld.portLpStatLtssm lp) = 3) && s.sparePartner lp

/-- A lane that takes its spare. -/
def State.spareTaken (s : State) (lp lane : Nat) : State :=
  ((s.yieldRx lp (fun l => (spareFds l lane).1.1)).setFs [((spareFds lp lane).1.1, 1), ((spareFds lp lane).1.2, lane)]).modLnk lp (fun l => { l with
    cmp := none, rxAt := some s.tick, fails := Tbl.set (fun _ => 0) l.fails lane 0 })

/-- A lane that is found failing: in L0, below the trained width, with no exchange of its own. -/
theorem State.laneFailing_of_new {s : State} {lp lane : Nat} (hl0 : s.inL0 lp = true) (hlane : lane < (s.lnk lp).width)
    (hnew : s.pairOn (spareFds lp lane).1 lane = false) :
    s.laneFailing lp lane = if s.mayTake lp lane then (s.spareTaken lp lane).spareItem lp 3 lane else s.retrainNarrow lp := by
  have hguard : ¬(!s.inL0 lp || decide ((s.lnk lp).width ≤ lane) || s.pairOn (spareFds lp lane).1 lane) = true := by
    rw [hl0, decide_eq_false (Nat.not_le.2 hlane), hnew]
    decide
  exact if_neg hguard

theorem inL0_of_l0 {s : State} {lp : Nat} (h : s.getF (Fld.portLpStatLtssm lp) = 3) : s.inL0 lp = true := decide_eq_true (.inl h)

/-- A pair in standby works on no lane. -/
theorem State.pairOn_of_standby {s : State} {f : Fd × Fd} {lane : Nat} (h : inStandby (s.getF f.1) = true) : s.pairOn f lane = false := by
  refine decide_eq_false (fun hon => ?_)
  rw [hon.1] at h
  exact absurd h (by decide)

/-- A lane that takes its spare shows it. -/
theorem State.spareTaken_shows (s : State) (lp lane : Nat) (hlane : lane < 16) :
    ((s.spareTaken lp lane).spareItem lp 3 lane).getF (spareFds lp lane).1.1 = 1 ∧
    ((s.spareTaken lp lane).spareItem lp 3 lane).getF (spareFds lp lane).1.2 = lane := by
  obtain ⟨hstate, hlaneShown, -⟩ := (spareFds_rx lp lane).takes (s.yieldRx lp (fun l => (spareFds l lane).1.1)) (v := 1) (by decide) hlane
  have hregs : ((s.spareTaken lp lane).spareItem lp 3 lane).regs =
      ((s.yieldRx lp (fun l => (spareFds l lane).1.1)).setFs [((spareFds lp lane).1.1, 1), ((spareFds lp lane).1.2, lane)]).regs :=
    State.spareItem_regs _ _ _ _
  exact ⟨(getF_regs hregs _).trans hstate, (getF_regs hregs _).trans hlaneShown⟩

theorem laneFailing_takes (s : State) (lp : Lp) (lane : Fin 16) (c : Instr) (hc : c = .laneFailing lp lane ∨ c = .spareCmd lp lane)
    (hltssm : s.getF (Fld.portLpStatLtssm lp.val) = 3) (hlane : lane.val < (s.lnk lp.val).width) (hen : s.getF (Fld.portLpRelCtlSpareEn lp.val) = 1)
    (hpartner : s.sparePartner lp.val = true) (hfree : s.spareFree lp.val (fun l => (spareFds l lane.val).1.1) = true) :
    Completes c s (fun t =>
      t.getF (spareFds lp.val lane.val).1.1 = 1 ∧ t.getF (spareFds lp.val lane.val).1.2 = lane.val ∧
      t.lnk lp.val = { s.lnk lp.val with
        cmp := none, rxAt := some s.tick, fails := Tbl.set (fun _ => 0) (s.lnk lp.val).fails lane.val 0,
        spareDue := (s.lnk lp.val).spareDue ++ (if s.role lp.val = 2 then [(3, lane.val)] else []) } ∧
      t.out = (if s.role lp.val = 2 then s.out else .dllp lp.val 3 lane.val :: s.out) ∧
      (∀ k, k ≠ lp.val → t.lnk k = s.lnk k) ∧
      OnlyFields s t [(spareFds lp.val lane.val).1.1, (spareFds lp.val lane.val).1.2] ∧
      t = { s with regs := t.regs, out := t.out, link := { s.link with links := t.link.links } }) := by
  have hstandby : inStandby (s.getF (spareFds lp.val lane.val).1.1) = true := by
    rw [State.spareFree, Bool.and_eq_true] at hfree
    exact hfree.1
  have hmay : s.mayTake lp.val lane.val = true := by
    rw [State.mayTake, hen, hfree, hltssm, hpartner]
    rfl
  have hyield : s.yieldRx lp.val (fun l => (spareFds l lane.val).1.1) = s := if_neg (by rw [State.yields_of_free _ hfree]; decide)
  obtain ⟨u, hu⟩ : ∃ u, u = s.setFs [((spareFds lp.val lane.val).1.1, 1), ((spareFds lp.val lane.val).1.2, lane.val)] := ⟨_, rfl⟩
  obtain ⟨w, hw⟩ : ∃ w, w = s.spareTaken lp.val lane.val := ⟨_, rfl⟩
  have hwu : w = u.modLnk lp.val (fun l => { l with cmp := none, rxAt := some s.tick, fails := Tbl.set (fun _ => 0) l.fails lane.val 0 }) := by
    rw [hw, State.spareTaken, hyield, hu]
  have honlyU : OnlyFields s u [(spareFds lp.val lane.val).1.1, (spareFds lp.val lane.val).1.2] :=
    hu ▸ ((spareFds_rx lp.val lane.val).takes s (v := 1) (by decide) lane.isLt).2.2
  have hframeU : RO s u := hu ▸ (RO.refl s).stepFs _
  have hulnk : u.lnk = s.lnk := by rw [hframeU]; rfl
  have hrole : u.role lp.val = s.role lp.val := by
    rw [hu, setFs2]
    refine Eq.trans (getF_addr (Fld.portLpCtlRole lp.val) (State.rd_setF_ne _ _ _ _ ?_)) ((spareFds_rx lp.val lane.val).setF_role s 1 lp.val)
    rw [(spareFds_rx lp.val lane.val).laneAddr]
    simp only [Fld.portLpCtlRole, Reg.portLpCtl, Reg.portLpSpare]
    omega
  obtain ⟨hself, hout, hothers, hframe⟩ := State.spareItem_after (u.modLnk_only lp.val
    (fun l => { l with cmp := none, rxAt := some s.tick, fails := Tbl.set (fun _ => 0) l.fails lane.val 0 })) 3 lane.val
  rw [← hwu, hrole] at hself hout
  rw [← hwu] at hothers hframe
  have hstep : s.laneFailing lp.val lane.val = w.spareItem lp.val 3 lane.val := by
    rw [State.laneFailing_of_new (inL0_of_l0 hltssm) hlane (State.pairOn_of_standby hstandby), hmay, hw]
    rfl
  obtain ⟨hstate, hlaneShown⟩ := State.spareTaken_shows s lp.val lane.val lane.isLt
  rw [← hw] at hstate hlaneShown
  have hregs : (w.spareItem lp.val 3 lane.val).regs = u.regs := by
    rw [State.spareItem_regs, hwu]
    rfl
  rw [hulnk] at hself hothers
  refine Completes.of_any _ (exec_failing hc s) hstep ⟨hstate, hlaneShown, hself, ?_, hothers, honlyU.of_regs hregs, ?_⟩
  · refine hout.trans ?_
    rw [hframeU]
  · rw [hframe, hframeU]

theorem laneFailing_takesOver (s : State) (lp : Lp) (lane : Fin 16) (c : Instr) (hc : c = .laneFailing lp lane ∨ c = .spareCmd lp lane)
    (hltssm : s.getF (Fld.portLpStatLtssm lp.val) = 3) (hlane : lane.val < (s.lnk lp.val).width) (hen : s.getF (Fld.portLpRelCtlSpareEn lp.val) = 1)
    (hpartner : s.sparePartner lp.val = true) (hstandby : inStandby (s.getF (spareFds lp.val lane.val).1.1) = true)
    (hyields : s.yields lp.val (fun l => (spareFds l lane.val).1.1) Link.rxAt = true) :
    Completes c s (fun t =>
      t.getF (spareFds lp.val lane.val).1.1 = 1 ∧ t.getF (spareFds lp.val lane.val).1.2 = lane.val) := by
  have hmay : s.mayTake lp.val lane.val = true := by
    rw [State.mayTake, hen, hltssm, hpartner, hstandby, hyields, Bool.and_self, Bool.or_true]
    rfl
  have hstep : s.laneFailing lp.val lane.val = (s.spareTaken lp.val lane.val).spareItem lp.val 3 lane.val := by
    rw [State.laneFailing_of_new (inL0_of_l0 hltssm) hlane (State.pairOn_of_standby hstandby), hmay]
    rfl
  exact Completes.of_any _ (exec_failing hc s) hstep (State.spareTaken_shows s lp.val lane.val lane.isLt)

theorem laneFailing_waits (s : State) (lp : Lp) (lane : Fin 16) (c : Instr) (hc : c = .laneFailing lp lane ∨ c = .spareCmd lp lane)
    (h : s.inL0 lp.val = false ∨ (s.lnk lp.val).width ≤ lane.val ∨ s.pairOn (spareFds lp.val lane.val).1 lane.val = true) :
    exec c s = .next s := by
  have hguard : (!s.inL0 lp.val || decide ((s.lnk lp.val).width ≤ lane.val) || s.pairOn (spareFds lp.val lane.val).1 lane.val) = true := by
    rcases h with h | h | h
    · rw [h]
      rfl
    · rw [decide_eq_true h, Bool.or_true, Bool.true_or]
    · rw [h, Bool.or_true]
  exact exec_of_act s (exec_failing hc s) (if_pos hguard) rfl rfl

/-! ### No spare to take (R73) -/

/-- A lane that no spare may take. -/
theorem State.mayTake_false {s : State} {lp lane : Nat}
    (h : s.getF (Fld.portLpRelCtlSpareEn lp) ≠ 1 ∨ s.sparePartner lp = false ∨ s.getF (Fld.portLpStatLtssm lp) ≠ 3 ∨
      (s.spareFree lp (fun l => (spareFds l lane).1.1) = false ∧
        (inStandby (s.getF (spareFds lp lane).1.1) = false ∨ s.yields lp (fun l => (spareFds l lane).1.1) Link.rxAt = false))) :
    s.mayTake lp lane = false := by
  unfold State.mayTake
  rcases h with h | h | h | ⟨hfree, h⟩
  · rw [decide_eq_false h]
    rfl
  · rw [h, Bool.and_false]
  · rw [decide_eq_false h, Bool.and_false]
    rfl
  · have hnone : (inStandby (s.getF (spareFds lp lane).1.1) && s.yields lp (fun l => (spareFds l lane).1.1) Link.rxAt) = false := by
      rcases h with h | h <;> rw [h]
      · rfl
      · exact Bool.and_false _
    rw [hfree, hnone, Bool.or_self, Bool.and_false]
    rfl

/-- What the width that a link may retrain at is does not depend on links. -/
theorem State.retrainNarrow_recovers {s : State} {lp : Nat} (hwide : s.minWidth lp ≤ narrower (s.lnk lp).width) :
    s.retrainNarrow lp = (s.modLnk lp (fun l => { l with maxW := some (narrower (s.lnk lp).width) })).enterRecovery lp :=
  if_neg (Nat.not_lt.2 hwide)

theorem laneFailing_recovers (s : State) (lp : Lp) (lane : Fin 16) (c : Instr) (hc : c = .laneFailing lp lane ∨ c = .spareCmd lp lane)
    (hstep : s.laneFailing lp.val lane.val = s.retrainNarrow lp.val) (hl0 : s.inL0 lp.val = true)
    (hwide : s.minWidth lp.val ≤ narrower (s.lnk lp.val).width)
    (hrecov : (s.lnk lp.val).recov + 1 < max 1 (s.getF (Fld.portLpRelCtlRecovMax lp.val))) :
    Completes c s (fun t =>
      t.getF (Fld.portLpStatLtssm lp.val) = 5 ∧
      t.lnk lp.val = { s.lnk lp.val with maxW := some (narrower (s.lnk lp.val).width), recov := (s.lnk lp.val).recov + 1 } ∧
      (∀ k, k ≠ lp.val → t.lnk k = s.lnk k) ∧
      OnlyFields s t [Fld.portLpStatLtssm lp.val, Fld.portLpStatSpeed lp.val, Fld.portLpStatWidth lp.val, Fld.portLpReplayCntRecov lp.val] ∧
      t = { s with regs := t.regs, link := { s.link with links := t.link.links } }) := by
  obtain ⟨u, hu⟩ : ∃ u, u = s.modLnk lp.val (fun l => { l with maxW := some (narrower (s.lnk lp.val).width) }) := ⟨_, rfl⟩
  obtain ⟨huframe, huself, huothers⟩ := s.modLnk_only lp.val (fun l => { l with maxW := some (narrower (s.lnk lp.val).width) })
  rw [← hu] at huframe huself huothers
  have hregs : u.regs = s.regs := by rw [hu]; rfl
  have hul0 : u.inL0 lp.val = true := by rw [hu]; exact hl0
  have hrun : s.laneFailing lp.val lane.val = u.recovering lp.val := by
    rw [hstep, State.retrainNarrow_recovers hwide, ← hu, State.enterRecovery_eq hul0, getF_regs hregs, huself]
    exact if_neg (Nat.not_le.2 hrecov)
  obtain ⟨hltssm, hself, hothers, honly, hframe⟩ := u.recovering_shows lp.val
  refine Completes.of_any _ (exec_failing hc s) hrun
    ⟨hltssm, ?_, fun k hk => (hothers k hk).trans (huothers k hk), (((OnlyFields.refl s _).of_regs hregs).trans honly).of_regs rfl, ?_⟩
  · show (u.recovering lp.val).lnk lp.val = _
    rw [hself, huself]
  · rw [hframe, huframe]

theorem laneFailing_goesDown (s : State) (lp : Lp) (lane : Fin 16) (c : Instr) (hc : c = .laneFailing lp lane ∨ c = .spareCmd lp lane)
    (hstep : s.laneFailing lp.val lane.val = s.retrainNarrow lp.val) (hl0 : s.inL0 lp.val = true)
    (h : narrower (s.lnk lp.val).width < s.minWidth lp.val ∨ max 1 (s.getF (Fld.portLpRelCtlRecovMax lp.val)) ≤ (s.lnk lp.val).recov + 1) :
    Completes c s (fun t => t.dllUp lp.val = false ∧
      (narrower (s.lnk lp.val).width < s.minWidth lp.val → t.getF (Fld.portLpEvtNarrow lp.val) = 1)) := by
  have hlp : lp.val < 64 := lp.isLt
  by_cases hnarrow : narrower (s.lnk lp.val).width < s.minWidth lp.val
  · have hrun : s.laneFailing lp.val lane.val = (s.linkDown lp.val).setF (Fld.portLpEvtNarrow lp.val) 1 := hstep.trans (if_pos hnarrow)
    refine Completes.of_any _ (exec_failing hc s) hrun ⟨?_, fun _ => ?_⟩
    · refine Eq.trans (congrArg (fun n => decide (n = 1))
        (State.getF_setF_ne _ (Fld.portLpEvtNarrow lp.val) (Fld.portLpStatDllUp lp.val) _ (.inl ?_))) (State.linkDown_dllUp_self s lp.val hlp)
      simp only [Fld.portLpEvtNarrow, Fld.portLpStatDllUp, Reg.portLpEvt, Reg.portLpStat]
      omega
    · exact getF_fit _ _ _ (by simp [Fld.portLpEvtNarrow]) (by simp [Fld.portLpEvtNarrow])
  · obtain ⟨u, hu⟩ : ∃ u, u = s.modLnk lp.val (fun l => { l with maxW := some (narrower (s.lnk lp.val).width) }) := ⟨_, rfl⟩
    have huself := (s.modLnk_only lp.val (fun l => { l with maxW := some (narrower (s.lnk lp.val).width) })).2.1
    rw [← hu] at huself
    have hregs : u.regs = s.regs := by rw [hu]; rfl
    have hul0 : u.inL0 lp.val = true := by rw [hu]; exact hl0
    have hrun : s.laneFailing lp.val lane.val = (u.recovering lp.val).linkDown lp.val := by
      rw [hstep, State.retrainNarrow_recovers (Nat.not_lt.1 hnarrow), ← hu, State.enterRecovery_eq hul0, getF_regs hregs, huself]
      exact if_pos (h.resolve_left hnarrow)
    exact Completes.of_any _ (exec_failing hc s) hrun ⟨State.linkDown_dllUp_self _ lp.val hlp, fun hn => absurd hn hnarrow⟩

/-! ### The T-side (R69) -/

/-- The transmit spare wakes for a lane. -/
def State.txWoken (s : State) (lp lane now : Nat) : State :=
  (s.setFs [((spareFds lp lane).2.1, 1), ((spareFds lp lane).2.2, lane)]).modLnk lp (fun l => { l with txAt := some now })

theorem State.spareReq_eq {s : State} {lp lane : Nat} (hruns : s.spareRuns lp = true) : s.spareReq lp lane =
    if s.spareFree lp (fun l => (spareFds l lane).2.1) then s.txWoken lp lane s.tick
    else if inStandby (s.getF (spareFds lp lane).2.1) && s.yields lp (fun l => (spareFds l lane).2.1) Link.txAt then
      (s.setF (spareFds (otherHalf lp) lane).2.1 0).txWoken lp lane s.tick
    else s := by
  rw [State.spareReq, hruns]
  rfl

theorem spareReq_wakes (s : State) (lp : Lp) (lane : Fin 16) (hruns : s.spareRuns lp.val = true)
    (hfree : s.spareFree lp.val (fun l => (spareFds l lane.val).2.1) = true) :
    Completes (.spareReq lp lane) s (fun t =>
      t.getF (spareFds lp.val lane.val).2.1 = 1 ∧ t.getF (spareFds lp.val lane.val).2.2 = lane.val ∧
      t.lnk lp.val = { s.lnk lp.val with txAt := some s.tick } ∧ (∀ k, k ≠ lp.val → t.lnk k = s.lnk k) ∧
      OnlyFields s t [(spareFds lp.val lane.val).2.1, (spareFds lp.val lane.val).2.2] ∧
      t = { s with regs := t.regs, link := { s.link with links := t.link.links } }) := by
  obtain ⟨u, hu⟩ : ∃ u, u = s.setFs [((spareFds lp.val lane.val).2.1, 1), ((spareFds lp.val lane.val).2.2, lane.val)] := ⟨_, rfl⟩
  obtain ⟨hstate, hlane, honly⟩ := (spareFds_tx lp.val lane.val).takes s (v := 1) (by decide) lane.isLt
  rw [← hu] at hstate hlane honly
  have hframeU : RO s u := hu ▸ (RO.refl s).stepFs _
  have hulnk : u.lnk = s.lnk := by rw [hframeU]; rfl
  obtain ⟨hframe, hself, hothers⟩ := u.modLnk_only lp.val (fun l => { l with txAt := some s.tick })
  rw [hulnk] at hself hothers
  have hstep : s.spareReq lp.val lane.val = u.modLnk lp.val (fun l => { l with txAt := some s.tick }) := by
    rw [State.spareReq_eq hruns, hfree, hu]
    rfl
  refine Completes.of_any (f := (·.spareReq lp.val lane.val)) _ rfl hstep ⟨hstate, hlane, hself, hothers, honly.of_regs rfl, ?_⟩
  rw [hframe, hframeU]

theorem spareReq_takesOver (s : State) (lp : Lp) (lane : Fin 16) (hruns : s.spareRuns lp.val = true)
    (hfree : s.spareFree lp.val (fun l => (spareFds l lane.val).2.1) = false)
    (hstandby : inStandby (s.getF (spareFds lp.val lane.val).2.1) = true)
    (hyields : s.yields lp.val (fun l => (spareFds l lane.val).2.1) Link.txAt = true) :
    Completes (.spareReq lp lane) s (fun t =>
      t.getF (spareFds lp.val lane.val).2.1 = 1 ∧ t.getF (spareFds lp.val lane.val).2.2 = lane.val ∧
      t.getF (spareFds (otherHalf lp.val) lane.val).2.1 = 0) := by
  obtain ⟨u, hu⟩ : ∃ u, u = s.setF (spareFds (otherHalf lp.val) lane.val).2.1 0 := ⟨_, rfl⟩
  obtain ⟨hstate, hlane, -⟩ := (spareFds_tx lp.val lane.val).takes u (v := 1) (by decide) lane.isLt
  have hzero : u.getF (spareFds (otherHalf lp.val) lane.val).2.1 = 0 := hu ▸ (spareFds_tx (otherHalf lp.val) lane.val).getF s (by decide)
  have hother : (u.setFs [((spareFds lp.val lane.val).2.1, 1), ((spareFds lp.val lane.val).2.2, lane.val)]).getF
      (spareFds (otherHalf lp.val) lane.val).2.1 = u.getF (spareFds (otherHalf lp.val) lane.val).2.1 := by
    have hapart : Reg.portLpSpare (otherHalf lp.val) ≠ Reg.portLpSpare lp.val := by
      unfold otherHalf
      simp only [Reg.portLpSpare]
      split <;> omega
    refine State.getF_setFs_ne _ _ _ (fun x hx => .inl ?_)
    simp only [List.mem_cons, List.not_mem_nil, or_false] at hx
    rw [(spareFds_tx (otherHalf lp.val) lane.val).addr]
    rcases hx with rfl | rfl
    · exact (spareFds_tx lp.val lane.val).addr ▸ hapart
    · exact (spareFds_tx lp.val lane.val).laneAddr ▸ hapart
  have hstep : s.spareReq lp.val lane.val = u.txWoken lp.val lane.val s.tick := by
    rw [State.spareReq_eq hruns, hfree, hstandby, hyields, hu]
    rfl
  exact Completes.of_any (f := (·.spareReq lp.val lane.val)) _ rfl hstep ⟨hstate, hlane, hother.trans hzero⟩

theorem spareReq_waits (s : State) (lp : Lp) (lane : Fin 16) (h : s.spareRuns lp.val = false ∨
      (s.spareFree lp.val (fun l => (spareFds l lane.val).2.1) = false ∧
        (inStandby (s.getF (spareFds lp.val lane.val).2.1) = false ∨
          s.yields lp.val (fun l => (spareFds l lane.val).2.1) Link.txAt = false))) :
    exec (.spareReq lp lane) s = .next s := by
  refine exec_of_act (f := (·.spareReq lp.val lane.val)) s rfl ?_ rfl rfl
  cases hruns : s.spareRuns lp.val with
  | false => exact if_pos (by rw [hruns]; rfl)
  | true =>
    obtain ⟨hfree, hnone⟩ := h.resolve_left (by rw [hruns]; decide)
    have hboth : (inStandby (s.getF (spareFds lp.val lane.val).2.1) &&
        s.yields lp.val (fun l => (spareFds l lane.val).2.1) Link.txAt) = false := by
      rcases hnone with hnone | hnone <;> rw [hnone]
      · rfl
      · exact Bool.and_false _
    rw [State.spareReq_eq hruns, hfree, hboth]
    rfl

/-! ### The exchange of a lane (R69, R71, R72) -/

/-- SPARE_EQ_DONE's effect. -/
def State.spareEqDone (s : State) (lp lane : Nat) : State :=
  if s.spareRuns lp && s.pairOn (spareFds lp lane).2 lane then s.spareItem lp 4 lane else s

theorem exec_spareEqDone (lp : Lp) (lane : Fin 16) (s : State) : exec (.spareEqDone lp lane) s = act s (·.spareEqDone lp.val lane.val) := rfl

theorem spareEqDone_due (s : State) (lp : Lp) (lane : Fin 16) (hruns : s.spareRuns lp.val = true)
    (hon : s.pairOn (spareFds lp.val lane.val).2 lane.val = true) :
    Completes (.spareEqDone lp lane) s (fun t => SpareItem s t lp.val 4 lane.val (s.lnk lp.val)) :=
  have hdue := State.spareItem_after (LnkOnly.refl s lp.val) 4 lane.val
  Completes.of_eq _ (exec_spareEqDone lp lane s) (if_pos (by rw [hruns, hon]; rfl)) hdue.pending hdue.tick hdue

theorem spareAck_compares (s : State) (lp : Lp) (lane : Fin 16) (hruns : s.spareRuns lp.val = true)
    (hon : s.pairOn (spareFds lp.val lane.val).1 lane.val = true) :
    Completes (.spareAck lp lane) s (fun t => LnkOnly s t lp.val { s.lnk lp.val with cmp := some lane.val }) :=
  Completes.of_any (f := (·.spareAck lp.val lane.val)) _ rfl (if_pos (by rw [hruns, hon]; rfl))
    (s.modLnk_only lp.val (fun l => { l with cmp := some lane.val }))

theorem spareDone_serves (s : State) (lp : Lp) (lane : Fin 16) (hruns : s.spareRuns lp.val = true)
    (hon : s.pairOn (spareFds lp.val lane.val).2 lane.val = true) :
    Completes (.spareDone lp lane) s (fun t => RegsOnly s t [(spareFds lp.val lane.val).2.1] ∧ t.getF (spareFds lp.val lane.val).2.1 = 2) :=
  Completes.of_any (f := (·.spareDone lp.val lane.val)) _ rfl (if_pos (by rw [hruns, hon]; rfl))
    ⟨RegsOnly.setF _ _ _, (spareFds_tx lp.val lane.val).getF s (by decide)⟩

/-- SPARE_COMPARE_DONE's effect. -/
def State.spareCompared (s : State) (p k : Nat) (pass : Bool) : State :=
  let f := (spareFds p k).1
  if s.spareRuns p && s.pairOn f k && decide ((s.lnk p).cmp = some k) then
    let s := s.modLnk p (fun l => { l with cmp := none })
    if pass then
      let s := (s.setF f.1 2).spareItem p 5 k
      if s.role p = 2 then s else s.enterRecovery p
    else
      let n := Tbl.get (fun _ => 0) (s.lnk p).fails k + 1
      let s := s.modLnk p (fun l => { l with fails := Tbl.set (fun _ => 0) l.fails k n })
      if n < 3 then s.spareItem p 3 k else (s.setF f.1 3).spareItem p 6 k
  else s

theorem exec_spareCompareDone (lp : Lp) (lane : Fin 16) (pass : Bool) (s : State) :
    exec (.spareCompareDone lp lane pass) s = act s (·.spareCompared lp.val lane.val pass) := rfl

/-- The comparison ends. -/
theorem State.spareCompared_of_on {s : State} {p k : Nat} (hruns : s.spareRuns p = true) (hon : s.pairOn (spareFds p k).1 k = true)
    (hcmp : (s.lnk p).cmp = some k) (pass : Bool) (u : State) (hu : u = s.modLnk p (fun l => { l with cmp := none })) :
    s.spareCompared p k pass = if pass then
        (if ((u.setF (spareFds p k).1.1 2).spareItem p 5 k).role p = 2 then (u.setF (spareFds p k).1.1 2).spareItem p 5 k
          else ((u.setF (spareFds p k).1.1 2).spareItem p 5 k).enterRecovery p)
      else if Tbl.get (fun _ => 0) (s.lnk p).fails k + 1 < 3 then
        (u.modLnk p (fun l => { l with fails := Tbl.set (fun _ => 0) l.fails k (Tbl.get (fun _ => 0) (s.lnk p).fails k + 1) })).spareItem p 3 k
      else ((u.modLnk p (fun l => { l with fails := Tbl.set (fun _ => 0) l.fails k (Tbl.get (fun _ => 0) (s.lnk p).fails k + 1) })).setF
        (spareFds p k).1.1 3).spareItem p 6 k := by
  have hfails : (u.lnk p).fails = (s.lnk p).fails := by
    rw [hu, (s.modLnk_only p (fun l => { l with cmp := none })).2.1]
  rw [State.spareCompared, hruns, hon, hcmp, decide_eq_true rfl, ← hu, ← hfails]
  rfl

/-- A pair's state written, and an item due, after a change of the port's link alone. -/
theorem State.spareSet_shows {s u : State} {p : Nat} {l : Link} (h : LnkOnly s u p l) (k sub : Nat) {v : Nat} (hv : v < 4) {f : Fd × Fd}
    (hf : SparePair f p) {t : State} (ht : t = (u.setF f.1 v).spareItem p sub k) :
    t.getF f.1 = v ∧ OnlyFields s t [f.1] ∧ (∀ a, a ≠ Reg.portLpSpare p → t.rd a = s.rd a) ∧
    t.lnk p = { l with spareDue := l.spareDue ++ (if s.role p = 2 then [(sub, k)] else []) } ∧
    t.out = (if s.role p = 2 then s.out else .dllp p sub k :: s.out) ∧ (∀ k, k ≠ p → t.lnk k = s.lnk k) ∧
    t = { s with regs := t.regs, out := t.out, link := { s.link with links := t.link.links } } := by
  obtain ⟨hframe, hself, hothers⟩ := h
  obtain ⟨w, hw⟩ : ∃ w, w = u.setF f.1 v := ⟨_, rfl⟩
  have hregsU : u.regs = s.regs := by rw [hframe]
  have hwframe : RO u w := hw ▸ RO.setF u f.1 v
  have hwlnk : w.lnk = u.lnk := by rw [hwframe]; rfl
  have hrole : w.role p = s.role p := by
    rw [hw]
    exact (hf.setF_role u v p).trans (getF_regs hregsU _)
  have hwout : w.out = s.out := by rw [hwframe, hframe]
  have hregs : t.regs = w.regs := by rw [ht, ← hw, State.spareItem_regs]
  have honly : OnlyFields s w [f.1] := by
    rw [hw]
    exact ((OnlyFields.refl s _).of_regs hregsU).stepF _ _ (by simp)
  obtain ⟨hitem, hout, hrest, hall⟩ := State.spareItem_after (LnkOnly.refl w p) sub k
  rw [hw, ← ht, ← hw, hrole] at hitem hout
  rw [hw, ← ht, ← hw] at hrest hall
  refine ⟨?_, honly.of_regs hregs, fun a ha => ?_, ?_, ?_, fun k hk => ?_, ?_⟩
  · rw [getF_regs hregs, hw]
    exact hf.getF u hv
  · have hrd : t.rd a = w.rd a := congrArg (fun r => Tbl.get regReset r a) hregs
    have hrdU : u.rd a = s.rd a := congrArg (fun r => Tbl.get regReset r a) hregsU
    rw [hrd, hw, hf.setF_rd u v ha, hrdU]
  · rw [hitem, hwlnk, hself]
  · rw [hout, hwout]
  · rw [hrest k hk, hwlnk, hothers k hk]
  · rw [hall, hwframe, hframe]

theorem spareCompareDone_serves (s : State) (lp : Lp) (lane : Fin 16) (hruns : s.spareRuns lp.val = true)
    (hon : s.pairOn (spareFds lp.val lane.val).1 lane.val = true) (hcmp : (s.lnk lp.val).cmp = some lane.val) (hrole : s.role lp.val = 2) :
    Completes (.spareCompareDone lp lane true) s (fun t =>
      t.getF (spareFds lp.val lane.val).1.1 = 2 ∧
      t.lnk lp.val = { s.lnk lp.val with cmp := none, spareDue := (s.lnk lp.val).spareDue ++ [(5, lane.val)] } ∧
      (∀ k, k ≠ lp.val → t.lnk k = s.lnk k) ∧ OnlyFields s t [(spareFds lp.val lane.val).1.1] ∧
      t = { s with regs := t.regs, link := { s.link with links := t.link.links } }) := by
  obtain ⟨u, hu⟩ : ∃ u, u = s.modLnk lp.val (fun l => { l with cmp := none }) := ⟨_, rfl⟩
  have honlyU : LnkOnly s u lp.val { s.lnk lp.val with cmp := none } := hu ▸ s.modLnk_only lp.val (fun l => { l with cmp := none })
  obtain ⟨t, ht⟩ : ∃ t, t = (u.setF (spareFds lp.val lane.val).1.1 2).spareItem lp.val 5 lane.val := ⟨_, rfl⟩
  obtain ⟨hstate, honly, hrd, hself, hout, hothers, hframe⟩ :=
    State.spareSet_shows honlyU lane.val 5 (v := 2) (by decide) (spareFds_rx lp.val lane.val) ht
  have htrole : t.role lp.val = 2 := by
    rw [← hrole]
    exact getF_addr (Fld.portLpCtlRole lp.val) (hrd _ (by simp only [Fld.portLpCtlRole, Reg.portLpCtl, Reg.portLpSpare]; omega))
  have hstep : s.spareCompared lp.val lane.val true = t := by
    rw [State.spareCompared_of_on hruns hon hcmp true u hu, ← ht]
    exact (if_pos rfl).trans (if_pos htrole)
  rw [if_pos hrole] at hself hout
  rw [hout] at hframe
  exact Completes.of_eq t (exec_spareCompareDone lp lane true s) hstep (by rw [hframe]) (by rw [hframe]) ⟨hstate, hself, hothers, honly, hframe⟩

theorem spareCompareDone_recovers (s : State) (lp : Lp) (lane : Fin 16) (hruns : s.spareRuns lp.val = true)
    (hon : s.pairOn (spareFds lp.val lane.val).1 lane.val = true) (hcmp : (s.lnk lp.val).cmp = some lane.val) (hrole : s.role lp.val ≠ 2)
    (hrecov : (s.lnk lp.val).recov + 1 < max 1 (s.getF (Fld.portLpRelCtlRecovMax lp.val))) :
    Completes (.spareCompareDone lp lane true) s (fun t =>
      t.getF (spareFds lp.val lane.val).1.1 = 2 ∧ t.getF (Fld.portLpStatLtssm lp.val) = 5 ∧ t.out = .dllp lp.val 5 lane.val :: s.out ∧
      t.lnk lp.val = { s.lnk lp.val with cmp := none, recov := (s.lnk lp.val).recov + 1 } ∧ (∀ k, k ≠ lp.val → t.lnk k = s.lnk k) ∧
      OnlyFields s t [(spareFds lp.val lane.val).1.1, Fld.portLpStatLtssm lp.val, Fld.portLpStatSpeed lp.val, Fld.portLpStatWidth lp.val,
        Fld.portLpReplayCntRecov lp.val] ∧
      t = { s with regs := t.regs, out := t.out, link := { s.link with links := t.link.links } }) := by
  obtain ⟨u, hu⟩ : ∃ u, u = s.modLnk lp.val (fun l => { l with cmp := none }) := ⟨_, rfl⟩
  have honlyU : LnkOnly s u lp.val { s.lnk lp.val with cmp := none } := hu ▸ s.modLnk_only lp.val (fun l => { l with cmp := none })
  obtain ⟨t, ht⟩ : ∃ t, t = (u.setF (spareFds lp.val lane.val).1.1 2).spareItem lp.val 5 lane.val := ⟨_, rfl⟩
  obtain ⟨hstate, honly, hrd, hself, hout, hothers, hframe⟩ :=
    State.spareSet_shows honlyU lane.val 5 (v := 2) (by decide) (spareFds_rx lp.val lane.val) ht
  have htrole : t.role lp.val ≠ 2 := fun h => hrole ((getF_addr (Fld.portLpCtlRole lp.val)
    (hrd _ (by simp only [Fld.portLpCtlRole, Reg.portLpCtl, Reg.portLpSpare]; omega))).symm.trans h)
  have hmax : t.getF (Fld.portLpRelCtlRecovMax lp.val) = s.getF (Fld.portLpRelCtlRecovMax lp.val) :=
    getF_addr _ (hrd _ (by simp only [Fld.portLpRelCtlRecovMax, Reg.portLpRelCtl, Reg.portLpSpare]; omega))
  have hltssm : s.getF (Fld.portLpStatLtssm lp.val) = 3 := by
    rw [State.spareRuns, Bool.and_eq_true] at hruns
    exact of_decide_eq_true hruns.1
  have hl0 : t.inL0 lp.val = true := inL0_of_l0 ((getF_addr (Fld.portLpStatLtssm lp.val) (hrd _ (portLpSpare_ne_stat _ _))).trans hltssm)
  rw [if_neg hrole, List.append_nil] at hself
  rw [if_neg hrole] at hout
  have hstep : s.spareCompared lp.val lane.val true = t.recovering lp.val := by
    rw [State.spareCompared_of_on hruns hon hcmp true u hu, ← ht]
    refine ((if_pos rfl).trans (if_neg htrole)).trans ?_
    rw [State.enterRecovery_eq hl0, hmax, hself]
    exact if_neg (Nat.not_le.2 hrecov)
  obtain ⟨h5, hrself, hrothers, hronly, hrframe⟩ := t.recovering_shows lp.val
  have hkept : (t.recovering lp.val).getF (spareFds lp.val lane.val).1.1 = t.getF (spareFds lp.val lane.val).1.1 := by
    have haddr := (spareFds_rx lp.val lane.val).addr
    refine getF_addr _ (State.recovering_rd t lp.val ?_ ?_) <;> rw [haddr]
    · exact (portLpSpare_ne_stat _ _).symm
    · simp only [Reg.portLpSpare, Reg.portLpReplayCnt]
      omega
  refine Completes.of_any _ (exec_spareCompareDone lp lane true s) hstep
    ⟨hkept.trans hstate, h5, ?_, ?_, fun k hk => (hrothers k hk).trans (hothers k hk), ?_, ?_⟩
  · exact hout
  · show (t.recovering lp.val).lnk lp.val = _
    rw [hrself, hself]
  · exact ((honly.mono (by simp)).trans (hronly.mono (by simp))).of_regs rfl
  · rw [hrframe, hframe]

theorem spareCompareDone_retries (s : State) (lp : Lp) (lane : Fin 16) (hruns : s.spareRuns lp.val = true)
    (hon : s.pairOn (spareFds lp.val lane.val).1 lane.val = true) (hcmp : (s.lnk lp.val).cmp = some lane.val)
    (hfew : Tbl.get (fun _ => 0) (s.lnk lp.val).fails lane.val < 2) :
    Completes (.spareCompareDone lp lane false) s (fun t => SpareItem s t lp.val 3 lane.val { s.lnk lp.val with
      cmp := none,
      fails := Tbl.set (fun _ => 0) (s.lnk lp.val).fails lane.val (Tbl.get (fun _ => 0) (s.lnk lp.val).fails lane.val + 1) }) := by
  obtain ⟨n, hn⟩ : ∃ n, n = Tbl.get (fun _ => 0) (s.lnk lp.val).fails lane.val + 1 := ⟨_, rfl⟩
  obtain ⟨u, hu⟩ : ∃ u, u = s.modLnk lp.val (fun l => { l with cmp := none }) := ⟨_, rfl⟩
  obtain ⟨huframe, huself, huothers⟩ := s.modLnk_only lp.val (fun l => { l with cmp := none })
  obtain ⟨hwframe, hwself, hwothers⟩ := u.modLnk_only lp.val (fun l => { l with fails := Tbl.set (fun _ => 0) l.fails lane.val n })
  rw [← hu] at huframe huself huothers
  have honly : LnkOnly s (u.modLnk lp.val (fun l => { l with fails := Tbl.set (fun _ => 0) l.fails lane.val n })) lp.val
      { s.lnk lp.val with cmp := none, fails := Tbl.set (fun _ => 0) (s.lnk lp.val).fails lane.val n } :=
    ⟨by rw [hwframe, huframe], by rw [hwself, huself], fun k hk => (hwothers k hk).trans (huothers k hk)⟩
  have hdue := State.spareItem_after honly 3 lane.val
  rw [← hn]
  refine Completes.of_eq _ (exec_spareCompareDone lp lane false s) ?_ hdue.pending hdue.tick hdue
  rw [State.spareCompared_of_on hruns hon hcmp false u hu, ← hn]
  have hlt : n < 3 := by omega
  exact (if_neg Bool.false_ne_true).trans (if_pos hlt)

theorem spareCompareDone_aborts (s : State) (lp : Lp) (lane : Fin 16) (hruns : s.spareRuns lp.val = true)
    (hon : s.pairOn (spareFds lp.val lane.val).1 lane.val = true) (hcmp : (s.lnk lp.val).cmp = some lane.val)
    (hmany : 2 ≤ Tbl.get (fun _ => 0) (s.lnk lp.val).fails lane.val) :
    Completes (.spareCompareDone lp lane false) s (fun t =>
      inStandby (t.getF (spareFds lp.val lane.val).1.1) = true ∧ OnlyFields s t [(spareFds lp.val lane.val).1.1] ∧
      (if s.role lp.val = 2 then (t.lnk lp.val).spareDue = (s.lnk lp.val).spareDue ++ [(6, lane.val)]
        else t.out = .dllp lp.val 6 lane.val :: s.out)) := by
  obtain ⟨n, hn⟩ : ∃ n, n = Tbl.get (fun _ => 0) (s.lnk lp.val).fails lane.val + 1 := ⟨_, rfl⟩
  obtain ⟨u, hu⟩ : ∃ u, u = s.modLnk lp.val (fun l => { l with cmp := none }) := ⟨_, rfl⟩
  obtain ⟨huframe, huself, huothers⟩ := s.modLnk_only lp.val (fun l => { l with cmp := none })
  obtain ⟨w, hw⟩ : ∃ w, w = u.modLnk lp.val (fun l => { l with fails := Tbl.set (fun _ => 0) l.fails lane.val n }) := ⟨_, rfl⟩
  obtain ⟨hwframe, hwself, hwothers⟩ := u.modLnk_only lp.val (fun l => { l with fails := Tbl.set (fun _ => 0) l.fails lane.val n })
  rw [← hu] at huframe huself huothers
  rw [← hw] at hwframe hwself hwothers
  have honlyW : LnkOnly s w lp.val { s.lnk lp.val with cmp := none, fails := Tbl.set (fun _ => 0) (s.lnk lp.val).fails lane.val n } :=
    ⟨by rw [hwframe, huframe], by rw [hwself, huself], fun k hk => (hwothers k hk).trans (huothers k hk)⟩
  obtain ⟨t, ht⟩ : ∃ t, t = (w.setF (spareFds lp.val lane.val).1.1 3).spareItem lp.val 6 lane.val := ⟨_, rfl⟩
  obtain ⟨hstate, honly, -, hself, hout, -, hframe⟩ :=
    State.spareSet_shows honlyW lane.val 6 (v := 3) (by decide) (spareFds_rx lp.val lane.val) ht
  have hstep : s.spareCompared lp.val lane.val false = t := by
    rw [State.spareCompared_of_on hruns hon hcmp false u hu, ← hn, ← hw, ← ht]
    have hge : ¬n < 3 := by omega
    exact (if_neg Bool.false_ne_true).trans (if_neg hge)
  refine Completes.of_eq t (exec_spareCompareDone lp lane false s) hstep (by rw [hframe]) (by rw [hframe]) ⟨?_, honly, ?_⟩
  · rw [hstate]
    rfl
  · split
    · rename_i hrole
      rw [hself, if_pos hrole]
    · rename_i hrole
      rw [hout, if_neg hrole]

/-! ### SPARE_ABORT (R71) -/

/-- The transmit pair that works on the lane is back in standby. -/
def State.txAborted (s : State) (lp lane : Nat) : State :=
  if s.pairOn (spareFds lp lane).2 lane then s.setF (spareFds lp lane).2.1 3 else s

theorem State.spareAbort_eq (s : State) (lp lane : Nat) : s.spareAbort lp lane =
    if (s.txAborted lp lane).pairOn (spareFds lp lane).1 lane then
      ((s.txAborted lp lane).setF (spareFds lp lane).1.1 3).modLnk lp (fun l => { l with cmp := none })
    else s.txAborted lp lane := rfl

/-- The receive pair is no part of the transmit pair. -/
theorem State.txAborted_rx (s : State) (lp lane : Nat) :
    (s.txAborted lp lane).getF (spareFds lp lane).1.1 = s.getF (spareFds lp lane).1.1 ∧
    (s.txAborted lp lane).getF (spareFds lp lane).1.2 = s.getF (spareFds lp lane).1.2 := by
  have hside := (spareFds_rx lp lane).side
  have hwidth := (spareFds_rx lp lane).width
  have hlane := (spareFds_rx lp lane).laneWidth
  have hapart := spareFds_apart lp lane
  unfold State.txAborted
  split
  · exact ⟨State.getF_setF_ne _ _ _ _ (.inr (.inl (by omega))), State.getF_setF_ne _ _ _ _ (.inr (.inl (by omega)))⟩
  · exact ⟨rfl, rfl⟩

theorem State.txAborted_pairOn (s : State) (lp lane : Nat) :
    (s.txAborted lp lane).pairOn (spareFds lp lane).1 lane = s.pairOn (spareFds lp lane).1 lane := by
  obtain ⟨hstate, hlane⟩ := s.txAborted_rx lp lane
  rw [State.pairOn, hstate, hlane]
  rfl

/-- What SPARE_ABORT leaves of the transmit pair, whatever it does of the receive pair. -/
theorem State.txAborted_shows (s : State) (lp lane : Nat) :
    RO s (s.txAborted lp lane) ∧ OnlyFields s (s.txAborted lp lane) [(spareFds lp lane).1.1, (spareFds lp lane).2.1] ∧
    (s.pairOn (spareFds lp lane).2 lane = true → (s.txAborted lp lane).getF (spareFds lp lane).2.1 = 3) ∧
    (s.pairOn (spareFds lp lane).2 lane = false → s.txAborted lp lane = s) := by
  unfold State.txAborted
  cases hon : s.pairOn (spareFds lp lane).2 lane with
  | false => exact ⟨RO.refl s, OnlyFields.refl s _, fun h => absurd h (by decide), fun _ => rfl⟩
  | true =>
    exact ⟨RO.setF _ _ _, OnlyFields.setF _ _ _ _ (by simp), fun _ => (spareFds_tx lp lane).getF s (by decide), fun h => absurd h (by decide)⟩

theorem spareAbort_standby (s : State) (lp : Lp) (lane : Fin 16) (hup : s.dllUp lp.val = true) :
    Completes (.spareAbort lp lane) s (fun t =>
      (s.pairOn (spareFds lp.val lane.val).1 lane.val = true →
        inStandby (t.getF (spareFds lp.val lane.val).1.1) = true ∧ t.lnk lp.val = { s.lnk lp.val with cmp := none }) ∧
      (s.pairOn (spareFds lp.val lane.val).2 lane.val = true → inStandby (t.getF (spareFds lp.val lane.val).2.1) = true) ∧
      (s.pairOn (spareFds lp.val lane.val).1 lane.val = false →
        t.getF (spareFds lp.val lane.val).1.1 = s.getF (spareFds lp.val lane.val).1.1 ∧ t.lnk lp.val = s.lnk lp.val) ∧
      (s.pairOn (spareFds lp.val lane.val).2 lane.val = false →
        t.getF (spareFds lp.val lane.val).2.1 = s.getF (spareFds lp.val lane.val).2.1) ∧
      (∀ k, k ≠ lp.val → t.lnk k = s.lnk k) ∧
      OnlyFields s t [(spareFds lp.val lane.val).1.1, (spareFds lp.val lane.val).2.1] ∧
      t = { s with regs := t.regs, link := { s.link with links := t.link.links } }) := by
  obtain ⟨u, hu⟩ : ∃ u, u = s.txAborted lp.val lane.val := ⟨_, rfl⟩
  obtain ⟨hframeU, honlyU, htx, hkept⟩ := s.txAborted_shows lp.val lane.val
  obtain ⟨hrx, -⟩ := s.txAborted_rx lp.val lane.val
  have hpair := s.txAborted_pairOn lp.val lane.val
  have hrun := s.spareAbort_eq lp.val lane.val
  rw [← hu] at hframeU honlyU htx hkept hrx hpair hrun
  have hulnk : u.lnk = s.lnk := by rw [hframeU]; rfl
  rw [hpair] at hrun
  cases hon : s.pairOn (spareFds lp.val lane.val).1 lane.val with
  | false =>
    rw [hon] at hrun
    refine Completes.of_eq u (f := fun s => s.when (s.dllUp lp.val) (·.spareAbort lp.val lane.val)) rfl ((if_pos hup).trans hrun)
      hframeU.pending hframeU.tick
      ⟨fun h => absurd h (by decide), fun h => by rw [htx h]; rfl, fun _ => ⟨hrx, by rw [hulnk]⟩, fun h => by rw [hkept h],
        fun k _ => by rw [hulnk], honlyU, ?_⟩
    rw [hframeU]
  | true =>
    rw [hon] at hrun
    have hwidth := (spareFds_rx lp.val lane.val).width
    have hside := (spareFds_rx lp.val lane.val).side
    have hapart := spareFds_apart lp.val lane.val
    have hstep : s.spareAbort lp.val lane.val =
        (u.setF (spareFds lp.val lane.val).1.1 3).modLnk lp.val (fun l => { l with cmp := none }) := hrun
    have htxKept : (u.setF (spareFds lp.val lane.val).1.1 3).getF (spareFds lp.val lane.val).2.1 = u.getF (spareFds lp.val lane.val).2.1 :=
      State.getF_setF_ne _ _ _ _ (.inr (.inr (by omega)))
    have hrxSet : (u.setF (spareFds lp.val lane.val).1.1 3).getF (spareFds lp.val lane.val).1.1 = 3 :=
      (spareFds_rx lp.val lane.val).getF u (by decide)
    obtain ⟨w, hw⟩ : ∃ w, w = u.setF (spareFds lp.val lane.val).1.1 3 := ⟨_, rfl⟩
    have hframeW : RO s w := hw ▸ hframeU.stepF _ _
    have honlyW : OnlyFields s w [(spareFds lp.val lane.val).1.1, (spareFds lp.val lane.val).2.1] := hw ▸ honlyU.stepF _ _ (by simp)
    have hwlnk : w.lnk = s.lnk := by rw [hframeW]; rfl
    rw [← hw] at hstep htxKept hrxSet
    obtain ⟨hframe, hself, hothers⟩ := w.modLnk_only lp.val (fun l => { l with cmp := none })
    rw [hwlnk] at hself hothers
    refine Completes.of_any (f := fun s => s.when (s.dllUp lp.val) (·.spareAbort lp.val lane.val)) _ rfl ((if_pos hup).trans hstep)
      ⟨fun _ => ⟨?_, hself⟩, fun h => ?_, fun h => absurd h (by decide), fun h => ?_, hothers, honlyW.of_regs rfl, ?_⟩
    · show inStandby (w.getF (spareFds lp.val lane.val).1.1) = true
      rw [hrxSet]
      rfl
    · show inStandby (w.getF (spareFds lp.val lane.val).2.1) = true
      rw [htxKept, htx h]
      rfl
    · show w.getF (spareFds lp.val lane.val).2.1 = _
      rw [htxKept, hkept h]
    · rw [hframe, hframeW]

/-! ### Items that no exchange waits for, and the partner's announcement (R72) -/

theorem spareItems_unasked (s : State) (lp : Lp) (lane : Fin 16) (pass : Bool) :
    (s.spareRuns lp.val = false ∨ s.pairOn (spareFds lp.val lane.val).2 lane.val = false →
      exec (.spareEqDone lp lane) s = .next s ∧ exec (.spareDone lp lane) s = .next s) ∧
    (s.spareRuns lp.val = false ∨ s.pairOn (spareFds lp.val lane.val).1 lane.val = false → exec (.spareAck lp lane) s = .next s) ∧
    (s.spareRuns lp.val = false ∨ s.pairOn (spareFds lp.val lane.val).1 lane.val = false ∨ (s.lnk lp.val).cmp ≠ some lane.val →
      exec (.spareCompareDone lp lane pass) s = .next s) ∧
    (s.dllUp lp.val = false → exec (.spareAbort lp lane) s = .next s) := by
  have hnone : ∀ a b : Bool, a = false ∨ b = false → ¬(a && b) = true := by decide
  have hnone3 : ∀ a b : Bool, a = false ∨ b = false ∨ (s.lnk lp.val).cmp ≠ some lane.val →
      ¬(a && b && decide ((s.lnk lp.val).cmp = some lane.val)) = true := fun a b h => by
    rw [Bool.and_eq_true, decide_eq_true_eq, Bool.and_eq_true]
    rintro ⟨⟨rfl, rfl⟩, hcmp⟩
    simp [hcmp] at h
  refine ⟨fun h => ⟨?_, ?_⟩, fun h => ?_, fun h => ?_, fun h => ?_⟩
  · exact exec_of_act s (exec_spareEqDone lp lane s) (if_neg (hnone _ _ h)) rfl rfl
  · exact exec_of_act (f := (·.spareDone lp.val lane.val)) s rfl (if_neg (hnone _ _ h)) rfl rfl
  · exact exec_of_act (f := (·.spareAck lp.val lane.val)) s rfl (if_neg (hnone _ _ h)) rfl rfl
  · exact exec_of_act s (exec_spareCompareDone lp lane pass s) (if_neg (hnone3 _ _ h)) rfl rfl
  · exact exec_of_when_false (b := fun s => s.dllUp lp.val) (g := (·.spareAbort lp.val lane.val)) rfl h

theorem haleusSparingDllp_announces (s : State) (lp : Lp) (hl0 : s.inL0 lp.val = true) (hrole : s.role lp.val ≠ 2) :
    Completes (.haleusSparingDllp lp) s (fun t => LnkOnly s t lp.val { s.lnk lp.val with partner := true } ∧ t.sparePartner lp.val = true) := by
  have honly := s.modLnk_only lp.val (fun l => { l with partner := true })
  have hguard : (s.inL0 lp.val && decide (s.role lp.val ≠ 2)) = true := by rw [hl0, decide_eq_true hrole]; rfl
  refine Completes.of_when _ (b := fun s => s.inL0 lp.val && decide (s.role lp.val ≠ 2)) (g := (·.modLnk lp.val (fun l => { l with partner := true })))
    rfl hguard rfl rfl rfl ⟨honly, ?_⟩
  rw [State.sparePartner, honly.2.1, Bool.or_true]

theorem haleusSparingDllp_ignored (s : State) (lp : Lp) (h : s.inL0 lp.val = false ∨ s.role lp.val = 2) :
    exec (.haleusSparingDllp lp) s = .next s := by
  refine exec_of_when_false (b := fun s => s.inL0 lp.val && decide (s.role lp.val ≠ 2)) (g := (·.modLnk lp.val (fun l => { l with partner := true })))
    rfl ?_
  rcases h with h | h
  · rw [h]
    rfl
  · rw [decide_eq_false (not_not.2 h), Bool.and_false]

/-- Settles O44: each item of an exchange in turn, over what it makes of the spare pair and of the port's link. -/
theorem lanesAreSpared : Obligations.LanesAreSpared := by
  unfold Obligations.LanesAreSpared
  refine ⟨laneFailing_takes, laneFailing_takesOver, fun s lp lane c hc hl0 hlane hnew hnone => ?_, laneFailing_waits, spareReq_wakes,
    spareReq_takesOver, spareReq_waits, spareEqDone_due, spareAck_compares, fun s lp lane hruns hon hcmp => ?_, spareDone_serves,
    spareAbort_standby, spareItems_unasked, haleusSparingDllp_announces, haleusSparingDllp_ignored⟩
  · have hstep : s.laneFailing lp.val lane.val = s.retrainNarrow lp.val := by
      rw [State.laneFailing_of_new hl0 hlane hnew, State.mayTake_false hnone]
      rfl
    exact ⟨laneFailing_recovers s lp lane c hc hstep hl0, laneFailing_goesDown s lp lane c hc hstep hl0⟩
  · exact ⟨spareCompareDone_serves s lp lane hruns hon hcmp, spareCompareDone_recovers s lp lane hruns hon hcmp,
      spareCompareDone_retries s lp lane hruns hon hcmp, spareCompareDone_aborts s lp lane hruns hon hcmp⟩

end Sys2Proof.Machine
end

section
/-! SUPPORT. Signed commands (O45). -/

open Sys2Proof Sys2Proof.Machine

namespace Sys2Proof.Machine

/-! ### How a signed command ends (R295) -/

/-- The registers that the end of a signed command writes. -/
def cmdDoneFields : List Fd :=
  [Fld.securityCmdStatBusy, Fld.securityCmdStatResult, Fd.whole Reg.securityNonceLo, Fd.whole Reg.securityNonceHi]

/-- The count of free values is no register. -/
theorem State.set64_ctr (s : State) (n a b v : Nat) : ({ s with freeCtr := n } : State).set64 a b v = { s.set64 a b v with freeCtr := n } := rfl

theorem State.cmdDone_eq {s u : State} {r : Nat} (hu : u = s.setFs [(Fld.securityCmdStatBusy, 0), (Fld.securityCmdStatResult, r)]) :
    s.cmdDone r = { u.set64 Reg.securityNonceLo Reg.securityNonceHi (Config.freeValue 64 u.freeCtr).toNat with freeCtr := u.freeCtr + 1 } := by
  rw [State.cmdDone, ← hu]
  exact State.set64_ctr u _ _ _ _

/-- The end of a signed command: its result, and a new nonce, which is a free value. -/
theorem State.cmdDone_shows (s : State) {r : Nat} (hr : r < 256) :
    (s.cmdDone r).getF Fld.securityCmdStatBusy = 0 ∧ (s.cmdDone r).getF Fld.securityCmdStatResult = r ∧
    (s.cmdDone r).get64 Reg.securityNonceLo Reg.securityNonceHi = (Config.freeValue 64 s.freeCtr).toNat ∧
    OnlyFields s (s.cmdDone r) cmdDoneFields ∧
    (∀ a, a ≠ Reg.securityCmdStat → a ≠ Reg.securityNonceLo → a ≠ Reg.securityNonceHi → (s.cmdDone r).rd a = s.rd a) ∧
    s.cmdDone r = { s with regs := (s.cmdDone r).regs, freeCtr := s.freeCtr + 1 } := by
  obtain ⟨u, hu⟩ : ∃ u, u = s.setFs [(Fld.securityCmdStatBusy, 0), (Fld.securityCmdStatResult, r)] := ⟨_, rfl⟩
  obtain ⟨n, hn⟩ : ∃ n, n = (Config.freeValue 64 s.freeCtr).toNat := ⟨_, rfl⟩
  have hn64 : n < 2 ^ 64 := hn ▸ (Config.freeValue 64 s.freeCtr).isLt
  have hframeU : RO s u := hu ▸ (RO.refl s).stepFs _
  have hctr : u.freeCtr = s.freeCtr := by rw [hframeU]
  have hall := State.cmdDone_eq hu
  rw [hctr, ← hn] at hall
  have hregs : (s.cmdDone r).regs = (u.set64 Reg.securityNonceLo Reg.securityNonceHi n).regs := by rw [hall]
  have hrd : ∀ a, (s.cmdDone r).rd a = (u.set64 Reg.securityNonceLo Reg.securityNonceHi n).rd a := fun a =>
    congrArg (fun t => Tbl.get regReset t a) hregs
  have hwrites : Writes s u [(Fld.securityCmdStatBusy, 0), (Fld.securityCmdStatResult, r)] := by
    rw [hu]
    refine Writes.setFs _ (fun x hx => ?_) (by simp [Fld.securityCmdStatBusy, Fld.securityCmdStatResult]) s
    simp only [List.mem_cons, List.not_mem_nil, or_false] at hx
    rcases hx with rfl | rfl
    · decide
    · exact ⟨by simp [Fld.securityCmdStatResult], hr⟩
  have hkeep : ∀ g : Fd, g.addr = Reg.securityCmdStat → (s.cmdDone r).getF g = u.getF g := fun g hg => by
    rw [getF_regs hregs]
    exact getF_set64_ne _ _ _ _ _ (by rw [hg]; decide) (by rw [hg]; decide)
  refine ⟨(hkeep _ rfl).trans (hwrites.1 (Fld.securityCmdStatBusy, 0) (by simp)),
    (hkeep _ rfl).trans (hwrites.1 (Fld.securityCmdStatResult, r) (by simp)), ?_, ?_, fun a hstat hlo hhi => ?_, ?_⟩
  · rw [get64_of _ _ _ n ((hrd _).trans (rd_set64_lo _ _ _ _ (by decide))) ((hrd _).trans (rd_set64_hi _ _ _ _)), Nat.mod_eq_of_lt hn64, hn]
  · exact ((hwrites.2.mono (by simp [cmdDoneFields])).step64 _ _ _ (by simp [cmdDoneFields]) (by simp [cmdDoneFields])).of_regs hregs
  · rw [hrd, rd_set64_ne _ _ _ _ _ hlo hhi, hu, setFs2, State.rd_setF_ne _ _ _ _ hstat, State.rd_setF_ne _ _ _ _ hstat]
  · rw [hregs, hall]
    exact (congrArg (fun w : State => { w with regs := (u.set64 Reg.securityNonceLo Reg.securityNonceHi n).regs, freeCtr := s.freeCtr + 1 }) hframeU).trans rfl

/-- A field outside what the end of a signed command writes. -/
theorem State.cmdDone_getF (s : State) {r : Nat} (hr : r < 256) (g : Fd) (hstat : g.addr ≠ Reg.securityCmdStat) (hlo : g.addr ≠ Reg.securityNonceLo)
    (hhi : g.addr ≠ Reg.securityNonceHi) : (s.cmdDone r).getF g = s.getF g :=
  getF_addr g ((s.cmdDone_shows hr).2.2.2.2.1 g.addr hstat hlo hhi)

theorem State.cmdResult_lt (s : State) : s.cmdResult < 256 := by
  have hite : ∀ (p : Prop) [Decidable p] (a b : Nat), a < 256 → b < 256 → (if p then a else b) < 256 := fun p _ a b ha hb => by
    split
    · exact ha
    · exact hb
  unfold State.cmdResult
  exact hite _ _ _ (by decide) (hite _ _ _ (by decide) (hite _ _ _ (by decide) (hite _ _ _ (by decide) (hite _ _ _ (by decide)
    (hite _ _ _ (by decide) (hite _ _ _ (by decide) (by decide)))))))

/-- The running command, where it has the code `k`. -/
theorem State.cmdRun_of_code {s : State} {k : Nat} {e : State → State} (hbusy : s.getF Fld.securityCmdStatBusy = 1) (hcode : s.cmdCode = k) :
    s.cmdRun k e = (if s.cmdResult = 0 then e s else s).cmdDone s.cmdResult := if_pos ⟨hbusy, hcode⟩

theorem exec_cmdRun_idle {c : Instr} {s : State} {k : Nat} {e : State → State} (hexec : exec c s = act s (·.cmdRun k e))
    (h : s.getF Fld.securityCmdStatBusy ≠ 1 ∨ s.cmdCode ≠ k) : exec c s = .next s :=
  exec_of_act s hexec (if_neg (fun hrun => h.elim (fun hne => hne hrun.1) (fun hne => hne hrun.2))) rfl rfl

theorem completes_cmdRun_refused {c : Instr} {s : State} {k : Nat} {e : State → State} (hexec : exec c s = act s (·.cmdRun k e))
    (hbusy : s.getF Fld.securityCmdStatBusy = 1) (hcode : s.cmdCode = k) (hresult : s.cmdResult ≠ 0) :
    Completes c s (fun t => t.getF Fld.securityCmdStatBusy = 0 ∧ t.getF Fld.securityCmdStatResult = s.cmdResult ∧
      t.get64 Reg.securityNonceLo Reg.securityNonceHi = (Config.freeValue 64 s.freeCtr).toNat ∧ t.freeCtr = s.freeCtr + 1 ∧
      OnlyFields s t [Fld.securityCmdStatBusy, Fld.securityCmdStatResult, Fd.whole Reg.securityNonceLo, Fd.whole Reg.securityNonceHi] ∧
      t = { s with regs := t.regs, freeCtr := t.freeCtr }) := by
  obtain ⟨hidle, hshown, hnonce, honly, -, hframe⟩ := s.cmdDone_shows s.cmdResult_lt
  have hstep : s.cmdRun k e = s.cmdDone s.cmdResult := by rw [State.cmdRun_of_code hbusy hcode, if_neg hresult]
  exact Completes.of_eq _ hexec hstep rfl rfl ⟨hidle, hshown, hnonce, rfl, honly, hframe⟩

/-! ### JTAG and the pins (R314) -/

/-- The instruction in force once one that drives the pins is checked. -/
def State.checkedJtag (s : State) : JtagOp :=
  if [JtagOp.extest, .clamp, .highz].contains s.sec.jtag = true ∧ s.pinTest = false then .bypass else s.sec.jtag

theorem State.pinCheck_eq (s : State) : s.pinCheck = { s with sec := { s.sec with jtag := s.checkedJtag } } := by
  have hcheck : s.pinCheck = if [JtagOp.extest, .clamp, .highz].contains s.sec.jtag = true ∧ s.pinTest = false then s.setJtag .bypass else s := by
    unfold State.pinCheck
    generalize s.sec.jtag = j
    cases j <;> cases s.pinTest <;> rfl
  rw [hcheck, State.checkedJtag]
  split <;> rfl

/-- The pin tests depend on the lifecycle state and on the debug master alone. -/
theorem State.pinTest_congr {s t : State} (hlife : t.getF Fld.globalLifecycleState = s.getF Fld.globalLifecycleState)
    (hopen : t.getF Fld.securityDbgStatOpen = s.getF Fld.securityDbgStatOpen) : t.pinTest = s.pinTest := by
  unfold State.pinTest State.lifecycle
  rw [hlife, hopen]

/-! ### Accepted commands that write one field (R289, R292, R294, R313) -/

/-- An accepted command whose effect is one field, and JTAG's instruction. -/
theorem completes_cmdRun_field {c : Instr} {s : State} {k v : Nat} {e : State → State} {f : Fd} {checks : Prop} [Decidable checks]
    (hexec : exec c s = act s (·.cmdRun k e))
    (hbusy : s.getF Fld.securityCmdStatBusy = 1) (hcode : s.cmdCode = k) (hresult : s.cmdResult = 0)
    (hself : (e s).getF f = v) (honly : OnlyFields s (e s) [f])
    (haddr : f.addr ≠ Reg.securityCmdStat ∧ f.addr ≠ Reg.securityNonceLo ∧ f.addr ≠ Reg.securityNonceHi)
    (hframe : e s = { s with regs := (e s).regs, sec := { s.sec with jtag := (e s).sec.jtag } })
    (hjtag : (e s).sec.jtag = if checks ∧ [JtagOp.extest, .clamp, .highz].contains s.sec.jtag = true ∧ (e s).pinTest = false then .bypass else s.sec.jtag) :
    Completes c s (fun t => t.getF f = v ∧ t.getF Fld.securityCmdStatBusy = 0 ∧ t.getF Fld.securityCmdStatResult = 0 ∧
      OnlyFields s t [f, Fld.securityCmdStatBusy, Fld.securityCmdStatResult, Fd.whole Reg.securityNonceLo, Fd.whole Reg.securityNonceHi] ∧
      t.sec.jtag = (if checks ∧ [JtagOp.extest, .clamp, .highz].contains s.sec.jtag = true ∧ t.pinTest = false then .bypass else s.sec.jtag) ∧
      t = { s with regs := t.regs, freeCtr := s.freeCtr + 1, sec := { s.sec with jtag := t.sec.jtag } }) := by
  obtain ⟨u, hu⟩ : ∃ u, u = e s := ⟨_, rfl⟩
  rw [← hu] at hself honly hframe hjtag
  obtain ⟨hidle, hshown, -, hdone, -, hdframe⟩ := u.cmdDone_shows (r := 0) (by decide)
  obtain ⟨t, ht⟩ : ∃ t, t = u.cmdDone 0 := ⟨_, rfl⟩
  have hpins : t.pinTest = u.pinTest := by
    rw [ht]
    exact State.pinTest_congr (u.cmdDone_getF (by decide) _ (by decide) (by decide) (by decide))
      (u.cmdDone_getF (by decide) _ (by decide) (by decide) (by decide))
  have hkept : t.getF f = u.getF f := ht ▸ u.cmdDone_getF (by decide) f haddr.1 haddr.2.1 haddr.2.2
  rw [← ht] at hidle hshown hdone hdframe
  have hsec : t.sec = u.sec := by rw [hdframe]
  have hstep : s.cmdRun k e = t := by rw [State.cmdRun_of_code hbusy hcode, hresult, ht, hu]; rfl
  have hctr : u.freeCtr = s.freeCtr := by rw [hframe]
  refine Completes.of_any t hexec hstep ⟨hkept.trans hself, hidle, hshown, ?_, ?_, ?_⟩
  · exact ((honly.mono (by simp)).trans (hdone.mono (by simp [cmdDoneFields]))).of_regs rfl
  · show t.sec.jtag = if checks ∧ [JtagOp.extest, .clamp, .highz].contains s.sec.jtag = true ∧ t.pinTest = false then .bypass else s.sec.jtag
    rw [hpins, hsec]
    exact hjtag
  · have hall : t = { s with regs := t.regs, freeCtr := s.freeCtr + 1, sec := { s.sec with jtag := u.sec.jtag } } := by
      rw [hdframe, hctr, hframe]
    rw [hall]

/-- A slot that the command may take, or retire, is one of the registry's 28. -/
theorem State.cmdSlot_lt {s : State} (hcode : s.cmdCode = 1 ∨ s.cmdCode = 2) (hresult : s.cmdResult = 0) :
    (keyClass s.cmdArg.1).1 + s.cmdArg.2 < 28 := by
  have hslot : s.cmdSlotOk = true := by
    by_contra hbad
    rw [Bool.not_eq_true] at hbad
    simp only [State.cmdResult, hbad, Bool.not_false, if_true] at hresult
    split_ifs at hresult
  have hthere : s.cmdArg.2 < (keyClass s.cmdArg.1).2 := by
    rcases hcode with hcode | hcode <;> simp [State.cmdSlotOk, hcode] at hslot
    · exact hslot.1.1
    · exact hslot.1
  revert hthere
  unfold keyClass
  split
  · intro h
    omega
  · split
    · intro h
      omega
    · split <;> intro h <;> omega

theorem State.checkedJtag_eq (s : State) {checks : Prop} [Decidable checks] (hchecks : checks) :
    s.checkedJtag = if checks ∧ [JtagOp.extest, .clamp, .highz].contains s.sec.jtag = true ∧ s.pinTest = false then .bypass else s.sec.jtag := by
  simp only [State.checkedJtag, hchecks, true_and]

/-- A command that writes one field and checks the pins. -/
theorem pinCheck_shows (s : State) {f : Fd} {v : Nat} {checks : Prop} [Decidable checks] (hchecks : checks) (hlo : f.lo + f.width ≤ 32)
    (hv : v < 2 ^ f.width) :
    (s.setF f v).pinCheck.getF f = v ∧ OnlyFields s (s.setF f v).pinCheck [f] ∧
    (s.setF f v).pinCheck = { s with regs := (s.setF f v).pinCheck.regs, sec := { s.sec with jtag := (s.setF f v).pinCheck.sec.jtag } } ∧
    (s.setF f v).pinCheck.sec.jtag = if checks ∧ [JtagOp.extest, .clamp, .highz].contains s.sec.jtag = true ∧ (s.setF f v).pinCheck.pinTest = false
      then .bypass else s.sec.jtag := by
  obtain ⟨u, hu⟩ : ∃ u, u = s.setF f v := ⟨_, rfl⟩
  have hframe : RO s u := hu ▸ RO.setF s f v
  have honly : OnlyFields s u [f] := hu ▸ OnlyFields.setF s f v _ (by simp)
  have hself : u.getF f = v := hu ▸ getF_fit s f v hlo hv
  rw [← hu, State.pinCheck_eq]
  refine ⟨hself, honly.of_regs rfl, ?_, ?_⟩
  · rw [hframe]
  · have hsec : u.sec = s.sec := by rw [hframe]
    rw [← hsec]
    exact u.checkedJtag_eq hchecks

/-- The rows of signed commands, each with its code and its effect. -/
theorem exec_signed {k : Nat} {c : Instr}
    (h : [(1, Instr.addKey), (2, .retireKey), (3, .lcDeploy), (4, .lcReturn), (5, .debugUnlock), (6, .debugLock)].contains (k, c) = true) :
    ∃ e : State → State, ∀ s, exec c s = act s (·.cmdRun k e) := by
  rw [List.contains_iff_mem] at h
  simp only [List.mem_cons, Prod.mk.injEq, List.not_mem_nil, or_false] at h
  rcases h with ⟨rfl, rfl⟩ | ⟨rfl, rfl⟩ | ⟨rfl, rfl⟩ | ⟨rfl, rfl⟩ | ⟨rfl, rfl⟩ | ⟨rfl, rfl⟩
  · exact ⟨State.addKey, fun _ => rfl⟩
  · exact ⟨State.retireKey, fun _ => rfl⟩
  · exact ⟨fun s => (s.setF Fld.globalLifecycleState 3).pinCheck, fun _ => rfl⟩
  · exact ⟨State.lcReturn, fun _ => rfl⟩
  · exact ⟨(·.setF Fld.securityDbgStatOpen 1), fun _ => rfl⟩
  · exact ⟨fun s => (s.setF Fld.securityDbgStatOpen 0).pinCheck, fun _ => rfl⟩

/-- An accepted command that writes one field, its pins checked where an instruction may become unavailable. -/
theorem completes_signed_field (s : State) (f : Fd) (v k : Nat) (c : Instr)
    (hrow : [(2, Instr.retireKey, (⟨Reg.securityKeyregRetired, (keyClass s.cmdArg.1).1 + s.cmdArg.2, 1⟩ : Fd), 1), (3, .lcDeploy, Fld.globalLifecycleState, 3),
     (5, .debugUnlock, Fld.securityDbgStatOpen, 1), (6, .debugLock, Fld.securityDbgStatOpen, 0)].contains (k, c, f, v) = true)
    (hbusy : s.getF Fld.securityCmdStatBusy = 1) (hcode : s.cmdCode = k) (hresult : s.cmdResult = 0) :
    Completes c s (fun t => t.getF f = v ∧ t.getF Fld.securityCmdStatBusy = 0 ∧ t.getF Fld.securityCmdStatResult = 0 ∧
      OnlyFields s t [f, Fld.securityCmdStatBusy, Fld.securityCmdStatResult, Fd.whole Reg.securityNonceLo, Fd.whole Reg.securityNonceHi] ∧
      t.sec.jtag = (if (k = 3 ∨ k = 6) ∧ [JtagOp.extest, .clamp, .highz].contains s.sec.jtag = true ∧ t.pinTest = false then .bypass else s.sec.jtag) ∧
      t = { s with regs := t.regs, freeCtr := s.freeCtr + 1, sec := { s.sec with jtag := t.sec.jtag } }) := by
  rw [List.contains_iff_mem] at hrow
  simp only [List.mem_cons, Prod.mk.injEq, List.not_mem_nil, or_false] at hrow
  rcases hrow with ⟨rfl, rfl, rfl, rfl⟩ | ⟨rfl, rfl, rfl, rfl⟩ | ⟨rfl, rfl, rfl, rfl⟩ | ⟨rfl, rfl, rfl, rfl⟩
  · have hslot := State.cmdSlot_lt (.inr hcode) hresult
    refine completes_cmdRun_field (e := State.retireKey) rfl hbusy hcode hresult ?_ (OnlyFields.setF _ _ _ _ (by simp)) ?_ rfl ?_
    · exact getF_fit _ _ _ (by dsimp only; omega) (by simp)
    · dsimp only
      decide
    · rw [if_neg (fun h => absurd h.1 (by decide))]
      rfl
  · obtain ⟨hself, honly, hframe, hjtag⟩ := pinCheck_shows s (f := Fld.globalLifecycleState) (v := 3) (checks := 3 = 3 ∨ 3 = 6) (.inl rfl)
      (by decide) (by decide)
    exact completes_cmdRun_field (e := fun s => (s.setF Fld.globalLifecycleState 3).pinCheck) rfl hbusy hcode hresult hself honly (by decide)
      hframe hjtag
  · refine completes_cmdRun_field (e := (·.setF Fld.securityDbgStatOpen 1)) rfl hbusy hcode hresult (getF_fit _ _ _ (by decide) (by decide))
      (OnlyFields.setF _ _ _ _ (by simp)) (by decide) rfl ?_
    rw [if_neg (fun h => absurd h.1 (by decide))]
    rfl
  · obtain ⟨hself, honly, hframe, hjtag⟩ := pinCheck_shows s (f := Fld.securityDbgStatOpen) (v := 0) (checks := 6 = 3 ∨ 6 = 6) (.inr rfl)
      (by decide) (by decide)
    exact completes_cmdRun_field (e := fun s => (s.setF Fld.securityDbgStatOpen 0).pinCheck) rfl hbusy hcode hresult hself honly (by decide)
      hframe hjtag

/-! ### ADD_KEY and LC_RETURN (R291, R292, R294) -/

/-- A one-bit field reads 1 where its bit is set. -/
theorem testBit_of_getF {s : State} {a n : Nat} (h : s.getF ⟨a, n, 1⟩ = 1) : Nat.testBit (s.rd a).toNat n = true := by
  have hbit := testBit_fieldGet (s.rd a) n 1 0
  have hone : fieldGet (s.rd a) n 1 = 1 := h
  rw [hone] at hbit
  simpa [BitVec.getLsbD] using hbit

theorem completes_addKey (s : State) (n : Nat) (hn : n = (keyClass s.cmdArg.1).1 + s.cmdArg.2)
    (hbusy : s.getF Fld.securityCmdStatBusy = 1) (hcode : s.cmdCode = 1) (hresult : s.cmdResult = 0) :
    Completes .addKey s (fun t => t.keyUsed n = true ∧ Tbl.get (fun _ => []) t.sec.keys n = bytesAt s.cmdBytes 0x20 97 ∧
      (∀ m, m ≠ n → Tbl.get (fun _ => []) t.sec.keys m = Tbl.get (fun _ => []) s.sec.keys m) ∧
      t.getF Fld.securityCmdStatBusy = 0 ∧ t.getF Fld.securityCmdStatResult = 0 ∧
      OnlyFields s t [⟨Reg.securityKeyregUsed, n, 1⟩, Fld.securityCmdStatBusy, Fld.securityCmdStatResult, Fd.whole Reg.securityNonceLo, Fd.whole Reg.securityNonceHi] ∧
      t = { s with regs := t.regs, freeCtr := s.freeCtr + 1, sec := { s.sec with keys := t.sec.keys } }) := by
  have hslot : n < 28 := hn ▸ State.cmdSlot_lt (.inl hcode) hresult
  obtain ⟨key, hkey⟩ : ∃ key, key = bytesAt s.cmdBytes 0x20 97 := ⟨_, rfl⟩
  obtain ⟨keys, hkeys⟩ : ∃ keys, keys = Tbl.set (fun _ => []) s.sec.keys n key := ⟨_, rfl⟩
  obtain ⟨w, hw⟩ : ∃ w, w = s.setF ⟨Reg.securityKeyregUsed, n, 1⟩ 1 := ⟨_, rfl⟩
  obtain ⟨u, hu⟩ : ∃ u : State, u = { w with sec := { s.sec with keys := keys } } := ⟨_, rfl⟩
  have hframeW : RO s w := hw ▸ RO.setF s _ _
  have heffect : s.addKey = u := by rw [hu, hkeys, hkey, hw, hn]; rfl
  have hused : u.getF ⟨Reg.securityKeyregUsed, n, 1⟩ = 1 := by
    rw [hu]
    refine Eq.trans (getF_regs (t := w) rfl _) ?_
    rw [hw]
    exact getF_fit _ _ _ (by dsimp only; omega) (by simp)
  have honlyU : OnlyFields s u [⟨Reg.securityKeyregUsed, n, 1⟩] := by
    have honlyW : OnlyFields s w [⟨Reg.securityKeyregUsed, n, 1⟩] := hw ▸ OnlyFields.setF s _ _ _ (by simp)
    exact honlyW.of_regs (by rw [hu])
  obtain ⟨hidle, hshown, -, hdone, -, hdframe⟩ := u.cmdDone_shows (r := 0) (by decide)
  have hkept := u.cmdDone_getF (r := 0) (by decide) ⟨Reg.securityKeyregUsed, n, 1⟩ (by dsimp only; decide) (by dsimp only; decide) (by dsimp only; decide)
  obtain ⟨t, ht⟩ : ∃ t, t = u.cmdDone 0 := ⟨_, rfl⟩
  rw [← ht] at hidle hshown hdone hdframe hkept
  have hsec : t.sec = { s.sec with keys := keys } := by rw [hdframe, hu]
  have hstep : s.cmdRun 1 (·.addKey) = t := by rw [State.cmdRun_of_code hbusy hcode, hresult, ht, ← heffect]; rfl
  have hframe : t = { s with regs := t.regs, freeCtr := s.freeCtr + 1, sec := { s.sec with keys := keys } } := by rw [hdframe, hu, hframeW]
  refine Completes.of_eq t (f := (·.cmdRun 1 (·.addKey))) rfl hstep (by rw [hframe]) (by rw [hframe])
    ⟨testBit_of_getF (hkept.trans hused), ?_, fun m hm => ?_, hidle, hshown, ?_, ?_⟩
  · rw [hsec, hkeys, ← hkey]
    exact Tbl.get_set_same _ _ _ _
  · rw [hsec, hkeys]
    exact Tbl.get_set_ne _ _ _ _ _ hm
  · exact (honlyU.mono (by simp)).trans (hdone.mono (by simp [cmdDoneFields]))
  · rw [hsec]
    exact hframe

theorem completes_lcReturn (s : State) (hbusy : s.getF Fld.securityCmdStatBusy = 1) (hcode : s.cmdCode = 4) (hresult : s.cmdResult = 0)
    (hfatal : s.getF Fld.faultStatFatal = 1) (hclosed : s.mz.closed = true) :
    Completes .lcReturn s (fun t => t.lifecycle = 4 ∧ t.sec.zeroDue = true ∧ t.getF Fld.securityCmdStatBusy = 0 ∧
      t.getF Fld.securityCmdStatResult = 0 ∧ t = { s with regs := t.regs, freeCtr := s.freeCtr + 1, sec := { s.sec with zeroDue := true } }) := by
  obtain ⟨w, hw⟩ : ∃ w, w = s.setF Fld.globalLifecycleState 4 := ⟨_, rfl⟩
  obtain ⟨u, hu⟩ : ∃ u : State, u = { w with sec := { w.sec with zeroDue := true } } := ⟨_, rfl⟩
  have hframeW : RO s w := hw ▸ RO.setF s _ _
  have hstays : w.meterReturn = w := by
    have hmz : w.mz = s.mz := by rw [hframeW]
    exact if_pos (by rw [hmz, hclosed, Bool.or_true])
  have hfatalW : w.getF Fld.faultStatFatal = 1 := by
    rw [hw, State.getF_setF_ne _ _ _ _ (.inl (by decide))]
    exact hfatal
  have heffect : s.lcReturn = u := by
    rw [State.lcReturn, ← hw, hstays, hu]
    exact congrArg (fun x : State => { x with sec := { x.sec with zeroDue := true } }) (if_pos hfatalW)
  have hlife : u.getF Fld.globalLifecycleState = 4 := by
    rw [hu]
    refine Eq.trans (getF_regs (t := w) rfl _) ?_
    rw [hw]
    exact getF_fit _ _ _ (by decide) (by decide)
  obtain ⟨hidle, hshown, -, -, -, hdframe⟩ := u.cmdDone_shows (r := 0) (by decide)
  have hkept := u.cmdDone_getF (r := 0) (by decide) Fld.globalLifecycleState (by decide) (by decide) (by decide)
  obtain ⟨t, ht⟩ : ∃ t, t = u.cmdDone 0 := ⟨_, rfl⟩
  rw [← ht] at hidle hshown hdframe hkept
  have hstep : s.cmdRun 4 (·.lcReturn) = t := by rw [State.cmdRun_of_code hbusy hcode, hresult, ht, ← heffect]; rfl
  have hframe : t = { s with regs := t.regs, freeCtr := s.freeCtr + 1, sec := { s.sec with zeroDue := true } } := by rw [hdframe, hu, hframeW]
  exact Completes.of_eq t (f := (·.cmdRun 4 (·.lcReturn))) rfl hstep (by rw [hframe]) (by rw [hframe])
    ⟨hkept.trans hlife, by rw [hframe], hidle, hshown, hframe⟩

/-- Settles O45: the effect of the command that runs, where it is accepted, then its end. -/
theorem signedCommandsTakeEffectOnce : Obligations.SignedCommandsTakeEffectOnce := by
  unfold Obligations.SignedCommandsTakeEffectOnce
  refine ⟨fun s k c hrow => ?_, completes_signed_field, completes_addKey, completes_lcReturn⟩
  obtain ⟨e, hexec⟩ := exec_signed hrow
  exact ⟨exec_cmdRun_idle (hexec s), completes_cmdRun_refused (hexec s)⟩

end Sys2Proof.Machine
end

section
/-! SUPPORT. SPDM answers (O47). -/

open Sys2Proof Sys2Proof.Machine

namespace Sys2Proof.Machine

/-! ### A request at an endpoint, and its answer (R298) -/

/-- An answer says what it says. -/
theorem State.respond_says (s : State) (ep : SpdmEp) (code : Nat) (body : List Byte) : Says s (s.respond ep code body) ep code body := rfl

/-- A request at an endpoint that exists. -/
theorem completes_spdm {c : Instr} {s u : State} {ep : SpdmEp} {f : State → State} {P : State → Prop} (hexec : exec c s = act s (·.spdm ep f))
    (hthere : s.epThere ep = true) (hrun : f s = u) (hp : P { u with pending := s.pending, tick := s.tick }) : Completes c s P :=
  Completes.of_any u hexec ((if_pos hthere).trans hrun) hp

/-- A request that is answered, and does nothing else. -/
theorem completes_says {c : Instr} {s : State} {ep : SpdmEp} {f : State → State} {code : Nat} {body : List Byte}
    (hexec : exec c s = act s (·.spdm ep f)) (hthere : s.epThere ep = true) (hrun : f s = s.respond ep code body) :
    Completes c s (fun t => Says s t ep code body) :=
  Completes.of_eq _ hexec ((if_pos hthere).trans hrun) rfl rfl (s.respond_says ep code body)

/-- What holds in either case of a condition on the state before. -/
theorem Completes.ite {c : Instr} {s : State} {p : Prop} [Decidable p] {P Q : State → Prop} (hpos : p → Completes c s P)
    (hneg : ¬p → Completes c s Q) : Completes c s (fun t => if p then P t else Q t) := by
  by_cases h : p
  · exact (hpos h).mono (fun t ht => by rw [if_pos h]; exact ht)
  · exact (hneg h).mono (fun t ht => by rw [if_neg h]; exact ht)

/-- Every SPDM request is one at its endpoint. -/
theorem exec_spdm_rows {s : State} {ep : SpdmEp} {slot : Fin 8} {v : BitVec 8} {b ok : Bool} {ix : Fin 256} {l : List Byte} {n sid : Nat}
    {fid : Fid} {pair : BitVec 512} {c : Instr}
    (h : [.getVersion ep, .getCapabilities ep v, .negotiateAlgorithms ep b, .getDigests ep, .getCertificate ep slot, .challenge ep slot,
     .getMeasurements ep ix b, .keyExchange ep slot, .finish ep sid ok, .endSession ep sid, .heartbeat ep sid, .keyUpdate ep sid, .getCsr ep slot,
     .setCertificate ep slot l ok, .chunkSend ep l b, .chunkGet ep n, .spdmUnsupportedRequest ep v, .keyInject ep sid fid pair,
     .getTdispVersion ep sid fid, .getTdispCapabilities ep sid fid, .lockInterfaceRequest ep sid fid, .getDeviceInterfaceReport ep sid fid,
     .getDeviceInterfaceState ep sid fid, .startInterfaceRequest ep sid fid, .stopInterfaceRequest ep sid fid].contains c = true) :
    ∃ f : State → State, exec c s = act s (·.spdm ep f) := by
  rw [List.contains_iff_mem] at h
  simp only [List.mem_cons, List.not_mem_nil, or_false] at h
  rcases h with rfl | rfl | rfl | rfl | rfl | rfl | rfl | rfl | rfl | rfl | rfl | rfl | rfl | rfl | rfl | rfl | rfl | rfl | rfl | rfl | rfl |
    rfl | rfl | rfl | rfl <;> exact ⟨_, rfl⟩

theorem exec_spdm_absent (s : State) (ep : SpdmEp) (slot : Fin 8) (v : BitVec 8) (b ok : Bool) (ix : Fin 256) (l : List Byte) (n sid : Nat)
    (fid : Fid) (pair : BitVec 512) (c : Instr) (habsent : s.epThere ep = false)
    (h : [.getVersion ep, .getCapabilities ep v, .negotiateAlgorithms ep b, .getDigests ep, .getCertificate ep slot, .challenge ep slot,
     .getMeasurements ep ix b, .keyExchange ep slot, .finish ep sid ok, .endSession ep sid, .heartbeat ep sid, .keyUpdate ep sid, .getCsr ep slot,
     .setCertificate ep slot l ok, .chunkSend ep l b, .chunkGet ep n, .spdmUnsupportedRequest ep v, .keyInject ep sid fid pair,
     .getTdispVersion ep sid fid, .getTdispCapabilities ep sid fid, .lockInterfaceRequest ep sid fid, .getDeviceInterfaceReport ep sid fid,
     .getDeviceInterfaceState ep sid fid, .startInterfaceRequest ep sid fid, .stopInterfaceRequest ep sid fid].contains c = true) :
    exec c s = .next s := by
  obtain ⟨f, hexec⟩ := exec_spdm_rows (s := s) h
  exact exec_of_act s hexec (if_neg (by simp [habsent])) rfl rfl

/-! ### Versions, certificates, measurements (R296 to R299) -/

theorem getVersion_says (s : State) (ep : SpdmEp) (hthere : s.epThere ep = true) :
    Completes (.getVersion ep) s (fun t => Says s t ep 0x04 [0x12, 0x13]) :=
  completes_says (f := (·.respond ep 0x04 [0x12, 0x13])) rfl hthere rfl

/-- GET_CAPABILITIES at an endpoint that exists. -/
def State.capabilities (s : State) (ep : SpdmEp) (version : BitVec 8) : State :=
  if version = 0x12 ∨ version = 0x13 then s.respond ep 0x61 (17 :: Config.standardBody 0 [version.toNat]) else s.spdmErr ep 65

theorem getCapabilities_says (s : State) (ep : SpdmEp) (v : BitVec 8) (hthere : s.epThere ep = true) :
    Completes (.getCapabilities ep v) s (fun t =>
      if v = 0x12 ∨ v = 0x13 then Says s t ep 0x61 (17 :: Config.standardBody 0 [v.toNat]) else Says s t ep 0x7F [65]) :=
  Completes.ite (fun h => completes_says (f := (·.capabilities ep v)) rfl hthere (if_pos h))
    (fun h => completes_says (f := (·.capabilities ep v)) rfl hthere (if_neg h))

/-- NEGOTIATE_ALGORITHMS at an endpoint that exists. -/
def State.negotiate (s : State) (ep : SpdmEp) (offered : Bool) : State :=
  if offered then s.respond ep 0x63 (Config.standardBody 1 []) else s.spdmErr ep 1

theorem negotiateAlgorithms_says (s : State) (ep : SpdmEp) (offered : Bool) (hthere : s.epThere ep = true) :
    Completes (.negotiateAlgorithms ep offered) s (fun t =>
      if offered then Says s t ep 0x63 (Config.standardBody 1 []) else Says s t ep 0x7F [1]) :=
  Completes.ite (fun h => completes_says (f := (·.negotiate ep offered)) rfl hthere (if_pos h))
    (fun h => completes_says (f := (·.negotiate ep offered)) rfl hthere (if_neg h))

theorem getDigests_says (s : State) (ep : SpdmEp) (hthere : s.epThere ep = true) : Completes (.getDigests ep) s (fun t =>
    Says s t ep 0x01 (((List.range 3).filter s.hasChain).flatMap s.chainDigest)) :=
  completes_says (f := fun s => s.respond ep 0x01 (((List.range 3).filter s.hasChain).flatMap s.chainDigest)) rfl hthere rfl

/-- GET_CERTIFICATE at an endpoint that exists. -/
def State.certificate (s : State) (ep : SpdmEp) (slot : Nat) : State :=
  if s.hasChain slot then s.respond ep 0x02 (s.chain slot) else s.spdmErr ep 1

theorem getCertificate_says (s : State) (ep : SpdmEp) (slot : Fin 8) (hthere : s.epThere ep = true) :
    Completes (.getCertificate ep slot) s (fun t =>
      if s.hasChain slot.val then Says s t ep 0x02 (s.chain slot.val) else Says s t ep 0x7F [1]) :=
  Completes.ite (fun h => completes_says (f := (·.certificate ep slot.val)) rfl hthere (if_pos h))
    (fun h => completes_says (f := (·.certificate ep slot.val)) rfl hthere (if_neg h))

/-- CHALLENGE at an endpoint that exists. -/
def State.challenged (s : State) (ep : SpdmEp) (slot : Nat) : State :=
  if s.hasChain slot then s.respondSigned ep 0x03 (s.chainDigest slot) else s.spdmErr ep 1

theorem challenge_says (s : State) (ep : SpdmEp) (slot : Fin 8) (hthere : s.epThere ep = true) : Completes (.challenge ep slot) s (fun t =>
    if s.hasChain slot.val = false then Says s t ep 0x7F [1]
    else if s.hasIdentity then Says s t ep 0x03 (s.chainDigest slot.val ++ bytesAt (Config.ecdsaSign 0 (s.chainDigest slot.val)) 0 96)
    else Says s t ep 0x7F [5]) := by
  have hexec : exec (.challenge ep slot) s = act s (·.spdm ep (·.challenged ep slot.val)) := rfl
  refine Completes.ite (fun hnone => ?_) (fun hsome => Completes.ite (fun hid => ?_) (fun hid => ?_))
  · exact completes_says hexec hthere (if_neg (by rw [hnone]; decide))
  · exact completes_says hexec hthere ((if_pos (Bool.eq_true_of_not_eq_false hsome)).trans (if_pos hid))
  · exact completes_says hexec hthere ((if_pos (Bool.eq_true_of_not_eq_false hsome)).trans (if_neg hid))

/-- GET_MEASUREMENTS without a signature at an endpoint that exists. -/
def State.measured (s : State) (ep : SpdmEp) (index : Nat) : State :=
  if index = 0 then s.respond ep 0x60 [BitVec.ofNat 8 (indicesOf ep).length]
  else if index = 0xFF then s.respond ep 0x60 ((indicesOf ep).flatMap (s.measurement ep))
  else if (indicesOf ep).contains index then s.respond ep 0x60 (s.measurement ep index)
  else s.spdmErr ep 1

theorem getMeasurements_says (s : State) (ep : SpdmEp) (ix : Fin 256) (hthere : s.epThere ep = true) :
    Completes (.getMeasurements ep ix false) s (fun t =>
      if ix.val = 0 then Says s t ep 0x60 [BitVec.ofNat 8 (indicesOf ep).length]
      else if ix.val = 0xFF then Says s t ep 0x60 ((indicesOf ep).flatMap (s.measurement ep))
      else if (indicesOf ep).contains ix.val then Says s t ep 0x60 (s.measurement ep ix.val) else Says s t ep 0x7F [1]) := by
  have hexec : exec (.getMeasurements ep ix false) s = act s (·.spdm ep (·.measured ep ix.val)) := rfl
  refine Completes.ite (fun h0 => ?_) (fun h0 => Completes.ite (fun hall => ?_) (fun hall => Completes.ite (fun hin => ?_) (fun hin => ?_)))
  · exact completes_says hexec hthere (if_pos h0)
  · exact completes_says hexec hthere ((if_neg h0).trans (if_pos hall))
  · exact completes_says hexec hthere ((if_neg h0).trans ((if_neg hall).trans (if_pos hin)))
  · exact completes_says hexec hthere ((if_neg h0).trans ((if_neg hall).trans (if_neg hin)))

/-! ### Operator slots and chunks (R297, R298) -/

/-- GET_CSR at an endpoint that exists. -/
def State.csr (s : State) (ep : SpdmEp) (slot : Nat) : State :=
  if !operatorEp ep then s.spdmErr ep 7
  else if slot = 1 ∨ slot = 2 then s.respondSigned ep 0x6D (Config.standardBody 2 [slot])
  else s.spdmErr ep 1

theorem not_operator {ep : SpdmEp} (h : ¬operatorEp ep = false) : ¬(!operatorEp ep) = true := by
  simpa using h

theorem getCsr_says (s : State) (ep : SpdmEp) (slot : Fin 8) (hthere : s.epThere ep = true) : Completes (.getCsr ep slot) s (fun t =>
    if operatorEp ep = false then Says s t ep 0x7F [7]
    else if slot.val = 1 ∨ slot.val = 2 then
      (if s.hasIdentity then Says s t ep 0x6D (Config.standardBody 2 [slot.val] ++ bytesAt (Config.ecdsaSign 0 (Config.standardBody 2 [slot.val])) 0 96)
       else Says s t ep 0x7F [5])
    else Says s t ep 0x7F [1]) := by
  have hexec : exec (.getCsr ep slot) s = act s (·.spdm ep (·.csr ep slot.val)) := rfl
  refine Completes.ite (fun hhost => ?_) (fun hop => Completes.ite (fun hslot => Completes.ite (fun hid => ?_) (fun hid => ?_)) (fun hslot => ?_))
  · exact completes_says hexec hthere (if_pos (by rw [hhost]; rfl))
  · exact completes_says hexec hthere ((if_neg (not_operator hop)).trans ((if_pos hslot).trans (if_pos hid)))
  · exact completes_says hexec hthere ((if_neg (not_operator hop)).trans ((if_pos hslot).trans (if_neg hid)))
  · exact completes_says hexec hthere ((if_neg (not_operator hop)).trans (if_neg hslot))

/-- A chain in an operator slot. -/
def State.setChain (s : State) (slot : Nat) (chain : List Byte) : State :=
  { s with sec := { s.sec with certs := Tbl.set (fun _ => []) s.sec.certs slot chain } }

/-- SET_CERTIFICATE at an endpoint that exists. -/
def State.certified (s : State) (ep : SpdmEp) (slot : Nat) (chain : List Byte) (certifies : Bool) : State :=
  if !operatorEp ep then s.spdmErr ep 7
  else if (slot = 1 ∨ slot = 2) ∧ certifies ∧ chain.length ≤ 16384 then (s.setChain slot chain).respond ep 0x6E [BitVec.ofNat 8 slot]
  else s.spdmErr ep 1

theorem setCertificate_says (s : State) (ep : SpdmEp) (slot : Fin 8) (chain : List Byte) (ok : Bool) (hthere : s.epThere ep = true) :
    Completes (.setCertificate ep slot chain ok) s (fun t =>
      if operatorEp ep = false then Says s t ep 0x7F [7]
      else if (slot.val = 1 ∨ slot.val = 2) ∧ ok = true ∧ chain.length ≤ 16384 then
        t.chain slot.val = chain ∧ Says { s with sec := { s.sec with certs := t.sec.certs } } t ep 0x6E [BitVec.ofNat 8 slot.val]
      else Says s t ep 0x7F [1]) := by
  have hexec : exec (.setCertificate ep slot chain ok) s = act s (·.spdm ep (·.certified ep slot.val chain ok)) := rfl
  refine Completes.ite (fun hhost => ?_) (fun hop => Completes.ite (fun hslot => ?_) (fun hslot => ?_))
  · exact completes_says hexec hthere (if_pos (by rw [hhost]; rfl))
  · refine completes_spdm hexec hthere ((if_neg (not_operator hop)).trans (if_pos hslot)) ⟨?_, rfl⟩
    have hnot0 : slot.val ≠ 0 := by omega
    have hle : slot.val ≤ 2 := by omega
    rw [State.chain, if_neg hnot0, if_pos hle]
    exact Tbl.get_set_same _ _ _ _
  · exact completes_says hexec hthere ((if_neg (not_operator hop)).trans (if_neg hslot))

/-- The bytes gathered of a request in chunks. -/
def State.setChunk (s : State) (ep : SpdmEp) (l : List Byte) : State :=
  { s with sec := { s.sec with chunks := Tbl.set (fun _ => []) s.sec.chunks (epNo ep) l } }

/-- CHUNK_SEND at an endpoint that exists. -/
def State.chunked (s : State) (ep : SpdmEp) (bytes : List Byte) (last : Bool) : State :=
  let l := s.chunk ep ++ bytes
  if 16384 < l.length then (s.setChunk ep []).spdmErr ep 1
  else (s.setChunk ep (if last then [] else l)).respond ep 0x05 (leBytes 2 l.length)

theorem chunkSend_gathers (s : State) (ep : SpdmEp) (bytes : List Byte) (last : Bool) (hthere : s.epThere ep = true)
    (hfits : (s.chunk ep ++ bytes).length ≤ 16384) :
    Completes (.chunkSend ep bytes last) s (fun t => t.chunk ep = (if last then [] else s.chunk ep ++ bytes) ∧
      Says { s with sec := { s.sec with chunks := t.sec.chunks } } t ep 0x05 (leBytes 2 (s.chunk ep ++ bytes).length)) :=
  completes_spdm (f := (·.chunked ep bytes last)) rfl hthere (if_neg (Nat.not_lt.2 hfits)) ⟨Tbl.get_set_same _ _ _ _, rfl⟩

theorem chunkGet_says (s : State) (ep : SpdmEp) (n : Nat) (hthere : s.epThere ep = true) :
    Completes (.chunkGet ep n) s (fun t => ∃ b, t = { s with out := .spdm ep 0x06 b :: s.out }) :=
  completes_spdm (f := fun s =>
    s.emit (.spdm ep 0x06 (Config.standardBody 3 (n :: (Tbl.get (fun _ => []) s.sec.last (epNo ep)).map (·.toNat))))) rfl hthere rfl ⟨_, rfl⟩

theorem spdmUnsupportedRequest_says (s : State) (ep : SpdmEp) (v : BitVec 8) (hthere : s.epThere ep = true) :
    Completes (.spdmUnsupportedRequest ep v) s (fun t => Says s t ep 0x7F [7]) :=
  completes_says (f := (·.spdmErr ep 7)) rfl hthere rfl

/-- Settles O47: each request in turn. -/
theorem spdmRequestsAreAnswered : Obligations.SpdmRequestsAreAnswered := by
  unfold Obligations.SpdmRequestsAreAnswered
  exact ⟨exec_spdm_absent, getVersion_says, getCapabilities_says, negotiateAlgorithms_says, getDigests_says, getCertificate_says, challenge_says,
    getMeasurements_says, getCsr_says, setCertificate_says, chunkSend_gathers, chunkGet_says, spdmUnsupportedRequest_says⟩

end Sys2Proof.Machine
end

section
/-! SUPPORT. Sessions, key slots and TDISP (O48). -/

open Sys2Proof Sys2Proof.Machine

namespace Sys2Proof.Machine

/-! ### Sessions (R298) -/

/-- New sessions show in SPDM_STAT alone, and an answer follows. -/
theorem State.setSessions_says (s : State) (l : List Session) (ep : SpdmEp) (code : Nat) (body : List Byte) :
    ((s.setSessions l).respond ep code body).sec.sessions = l ∧
    OnlyFields s ((s.setSessions l).respond ep code body) [Fld.securitySpdmStatSessions] ∧
    ((s.setSessions l).respond ep code body).out = .spdm ep code body :: s.out := by
  obtain ⟨u, hu⟩ : ∃ u : State, u = { s with sec := { s.sec with sessions := l } } := ⟨_, rfl⟩
  have honly : OnlyFields s (u.setF Fld.securitySpdmStatSessions l.length) [Fld.securitySpdmStatSessions] :=
    ((OnlyFields.refl s _).of_regs (by rw [hu])).stepF _ _ (by simp)
  have hset : s.setSessions l = u.setF Fld.securitySpdmStatSessions l.length := by rw [hu]; rfl
  rw [hset]
  refine ⟨by rw [hu]; rfl, honly.of_regs rfl, ?_⟩
  have hout : (u.setF Fld.securitySpdmStatSessions l.length).out = s.out := by rw [hu]; rfl
  rw [← hout]
  rfl

/-- KEY_EXCHANGE at an endpoint that exists. -/
def State.keyExchanged (s : State) (ep : SpdmEp) (slot : Nat) : State :=
  if 256 ≤ s.sec.sessions.length then s.spdmErr ep 10
  else if !s.hasChain slot then s.spdmErr ep 1
  else if !s.hasIdentity then s.spdmErr ep 5
  else
    let sid := s.freeSid
    let d := s.draw 256
    let s := d.2.setSessions (d.2.sec.sessions ++ [{ sid := sid, ep := epNo ep }])
    s.respondSigned ep 0x64 (leBytes 2 sid ++ leBytes 32 d.1.toNat ++ s.chainDigest slot)

theorem exec_keyExchange (ep : SpdmEp) (slot : Fin 8) (s : State) :
    exec (.keyExchange ep slot) s = act s (·.spdm ep (·.keyExchanged ep slot.val)) := rfl

/-- The identity key does not depend on sessions, nor on the free values drawn. -/
theorem State.hasIdentity_setSessions (s : State) (n : Nat) (l : List Session) :
    (({ s with freeCtr := n } : State).setSessions l).hasIdentity = s.hasIdentity := by
  have hlife : (({ s with freeCtr := n } : State).setSessions l).getF Fld.globalLifecycleState = s.getF Fld.globalLifecycleState :=
    State.getF_setF_ne _ Fld.securitySpdmStatSessions Fld.globalLifecycleState _ (.inl (by decide))
  unfold State.hasIdentity State.lifecycle
  rw [hlife]
  rfl

theorem keyExchange_opens (s : State) (ep : SpdmEp) (slot : Fin 8) (hthere : s.epThere ep = true) (hchain : s.hasChain slot.val = true)
    (hid : s.hasIdentity = true) (hroom : s.sec.sessions.length < 256) :
    Completes (.keyExchange ep slot) s (fun t =>
      t.sec.sessions = s.sec.sessions ++ [{ sid := s.freeSid, ep := epNo ep }] ∧
      t.getF Fld.securitySpdmStatSessions = s.sec.sessions.length + 1 ∧ OnlyFields s t [Fld.securitySpdmStatSessions] ∧
      (∃ b, t.out = .spdm ep 0x64 b :: s.out) ∧
      t = { s with regs := t.regs, freeCtr := s.freeCtr + 1, out := t.out, sec := { s.sec with sessions := t.sec.sessions, last := t.sec.last } }) := by
  obtain ⟨l, hl⟩ : ∃ l, l = s.sec.sessions ++ [{ sid := s.freeSid, ep := epNo ep }] := ⟨_, rfl⟩
  obtain ⟨w, hw⟩ : ∃ w : State, w = { s with freeCtr := s.freeCtr + 1 } := ⟨_, rfl⟩
  obtain ⟨u, hu⟩ : ∃ u, u = w.setSessions l := ⟨_, rfl⟩
  obtain ⟨b, hb⟩ : ∃ b, b = leBytes 2 s.freeSid ++ leBytes 32 (Config.freeValue 256 s.freeCtr).toNat ++ u.chainDigest slot.val := ⟨_, rfl⟩
  have hidU : u.hasIdentity = true := by rw [hu, hw, State.hasIdentity_setSessions]; exact hid
  have hstep : s.keyExchanged ep slot.val = u.respond ep 0x64 (b ++ bytesAt (Config.ecdsaSign 0 b) 0 96) := by
    have hsigned : s.keyExchanged ep slot.val = u.respondSigned ep 0x64 b := by
      rw [State.keyExchanged, if_neg (Nat.not_le.2 hroom), hchain, hid, hb, hu, hl, hw]
      rfl
    rw [hsigned]
    exact if_pos hidU
  obtain ⟨hsessions, honly, hout⟩ := w.setSessions_says l ep 0x64 (b ++ bytesAt (Config.ecdsaSign 0 b) 0 96)
  have hcount : u.getF Fld.securitySpdmStatSessions = s.sec.sessions.length + 1 := by
    have hlen : l.length = s.sec.sessions.length + 1 := by rw [hl, List.length_append, List.length_singleton]
    rw [hu, ← hlen]
    exact getF_fit _ _ _ (by decide) (by rw [hlen]; simp only [Fld.securitySpdmStatSessions]; omega)
  have hwregs : w.regs = s.regs := by rw [hw]
  have hwout : w.out = s.out := by rw [hw]
  rw [← hu] at hsessions honly hout
  refine completes_spdm (exec_keyExchange ep slot s) hthere hstep ⟨hsessions.trans hl, hcount, ?_, ⟨_, by rw [← hwout]; exact hout⟩, ?_⟩
  · exact (((OnlyFields.refl s _).of_regs hwregs).trans honly).of_regs rfl
  · rw [hu, hw]
    rfl

theorem keyExchange_full (s : State) (ep : SpdmEp) (slot : Fin 8) (hthere : s.epThere ep = true) (hfull : 256 ≤ s.sec.sessions.length) :
    Completes (.keyExchange ep slot) s (fun t => Says s t ep 0x7F [10]) :=
  completes_says (exec_keyExchange ep slot s) hthere (if_pos hfull)

/-- FINISH at an endpoint that exists. -/
def State.finished (s : State) (ep : SpdmEp) (sid : Nat) (ok : Bool) : State :=
  match s.session ep sid with
  | none => s.spdmErr ep 2
  | some x =>
    if ok then (s.setSessions (s.sec.sessions.map (fun y => if y = x then { x with open_ := true } else y))).respond ep 0x65 []
    else (s.setSessions (s.sec.sessions.filter (fun y => y ≠ x))).spdmErr ep 6

/-- END_SESSION at an endpoint that exists. -/
def State.sessionEnded (s : State) (ep : SpdmEp) (sid : Nat) : State :=
  match s.session ep sid with
  | none => s.spdmErr ep 2
  | some x => (s.setSessions (s.sec.sessions.filter (fun y => y ≠ x))).respond ep 0x6C []

/-- HEARTBEAT at an endpoint that exists. -/
def State.heartbeaten (s : State) (ep : SpdmEp) (sid : Nat) : State := if s.secured ep sid then s.respond ep 0x68 [] else s.spdmErr ep 2

/-- KEY_UPDATE at an endpoint that exists. -/
def State.keyUpdated (s : State) (ep : SpdmEp) (sid : Nat) : State :=
  if s.secured ep sid then
    (s.setSessions (s.sec.sessions.map (fun y => if y.sid = sid ∧ y.ep = epNo ep then { y with updates := y.updates + 1 } else y))).respond ep 0x69 []
  else s.spdmErr ep 2

theorem exec_finish (ep : SpdmEp) (sid : Nat) (ok : Bool) (s : State) :
    exec (.finish ep sid ok) s = act s (·.spdm ep (·.finished ep sid ok)) := rfl

theorem exec_endSession (ep : SpdmEp) (sid : Nat) (s : State) : exec (.endSession ep sid) s = act s (·.spdm ep (·.sessionEnded ep sid)) := rfl

theorem exec_heartbeat (ep : SpdmEp) (sid : Nat) (s : State) : exec (.heartbeat ep sid) s = act s (·.spdm ep (·.heartbeaten ep sid)) := rfl

theorem exec_keyUpdate (ep : SpdmEp) (sid : Nat) (s : State) : exec (.keyUpdate ep sid) s = act s (·.spdm ep (·.keyUpdated ep sid)) := rfl

/-- A request that changes the sessions, with its answer. -/
theorem completes_sessions {c : Instr} {s : State} {ep : SpdmEp} {f : State → State} {l : List Session} {code : Nat} {body : List Byte}
    (hexec : exec c s = act s (·.spdm ep f)) (hthere : s.epThere ep = true) (hrun : f s = (s.setSessions l).respond ep code body) :
    Completes c s (fun t => t.sec.sessions = l ∧ OnlyFields s t [Fld.securitySpdmStatSessions] ∧ t.out = .spdm ep code body :: s.out) :=
  Completes.of_eq _ hexec ((if_pos hthere).trans hrun) rfl rfl (s.setSessions_says l ep code body)

theorem session_ends (s : State) (ep : SpdmEp) (sid : Nat) (x : Session) (hthere : s.epThere ep = true) (hsession : s.session ep sid = some x) :
    Completes (.finish ep sid true) s (fun t =>
      t.sec.sessions = s.sec.sessions.map (fun y => if y = x then { x with open_ := true } else y) ∧ OnlyFields s t [Fld.securitySpdmStatSessions] ∧
      t.out = .spdm ep 0x65 [] :: s.out) ∧
    Completes (.finish ep sid false) s (fun t =>
      t.sec.sessions = s.sec.sessions.filter (fun y => y ≠ x) ∧ OnlyFields s t [Fld.securitySpdmStatSessions] ∧ t.out = .spdm ep 0x7F [6] :: s.out) ∧
    Completes (.endSession ep sid) s (fun t =>
      t.sec.sessions = s.sec.sessions.filter (fun y => y ≠ x) ∧ OnlyFields s t [Fld.securitySpdmStatSessions] ∧ t.out = .spdm ep 0x6C [] :: s.out) := by
  refine ⟨completes_sessions (exec_finish ep sid true s) hthere ?_, completes_sessions (exec_finish ep sid false s) hthere ?_,
    completes_sessions (exec_endSession ep sid s) hthere ?_⟩
  · rw [State.finished, hsession]
    rfl
  · rw [State.finished, hsession]
    rfl
  · rw [State.sessionEnded, hsession]

theorem session_unknown (s : State) (ep : SpdmEp) (sid : Nat) (hthere : s.epThere ep = true) (hnone : s.session ep sid = none) :
    Completes (.finish ep sid true) s (fun t => Says s t ep 0x7F [2]) ∧ Completes (.endSession ep sid) s (fun t => Says s t ep 0x7F [2]) ∧
    Completes (.heartbeat ep sid) s (fun t => Says s t ep 0x7F [2]) ∧ Completes (.keyUpdate ep sid) s (fun t => Says s t ep 0x7F [2]) := by
  have hopen : ¬s.secured ep sid = true := by
    rw [State.secured, hnone]
    decide
  refine ⟨completes_says (exec_finish ep sid true s) hthere ?_, completes_says (exec_endSession ep sid s) hthere ?_,
    completes_says (exec_heartbeat ep sid s) hthere (if_neg hopen), completes_says (exec_keyUpdate ep sid s) hthere (if_neg hopen)⟩
  · rw [State.finished, hnone]
    rfl
  · rw [State.sessionEnded, hnone]
    rfl

theorem session_secured (s : State) (ep : SpdmEp) (sid : Nat) (hthere : s.epThere ep = true) (hopen : s.secured ep sid = true) :
    Completes (.heartbeat ep sid) s (fun t => Says s t ep 0x68 []) ∧
    Completes (.keyUpdate ep sid) s (fun t =>
      t.sec.sessions = s.sec.sessions.map (fun y => if y.sid = sid ∧ y.ep = epNo ep then { y with updates := y.updates + 1 } else y) ∧
      OnlyFields s t [Fld.securitySpdmStatSessions] ∧ t.out = .spdm ep 0x69 [] :: s.out) :=
  ⟨completes_says (exec_heartbeat ep sid s) hthere (if_pos hopen), completes_sessions (exec_keyUpdate ep sid s) hthere (if_pos hopen)⟩

/-! ### Key slots (R310 to R312) -/

theorem State.kslot_set (s : State) (p k : Nat) (v : KSlot) : (s.setKslot p v).kslot k = if k = p then v else s.kslot k :=
  Tbl.get_set _ _ _ _ _

/-- KEY_INJECT at an endpoint that exists. -/
def State.injected (s : State) (ep : SpdmEp) (sid fid : Nat) (pair : BitVec 512) : State :=
  if s.mayInject ep sid fid pair then (s.setKslot (s.getF (Fld.plotFnW0Plot fid)) ⟨2, s.tick, pair⟩).respond ep 0x7E []
  else s.spdmErr ep 1

theorem keyInject_injects (s : State) (ep : SpdmEp) (sid : Nat) (fid : Fid) (pair : BitVec 512) (hthere : s.epThere ep = true) :
    Completes (.keyInject ep sid fid pair) s (fun t =>
      if s.mayInject ep sid fid.val pair then
        t.kslot (s.getF (Fld.plotFnW0Plot fid.val)) = ⟨2, s.tick, pair⟩ ∧
        (∀ p, p ≠ s.getF (Fld.plotFnW0Plot fid.val) → t.kslot p = s.kslot p) ∧
        Says { s with sec := { s.sec with kslots := t.sec.kslots } } t ep 0x7E []
      else Says s t ep 0x7F [1]) := by
  have hexec : exec (.keyInject ep sid fid pair) s = act s (·.spdm ep (·.injected ep sid fid.val pair)) := rfl
  refine Completes.ite (fun hmay => ?_) (fun hmay => completes_says hexec hthere (if_neg hmay))
  refine completes_spdm hexec hthere (if_pos hmay) ⟨?_, fun p hp => ?_, rfl⟩
  · exact (State.kslot_set s _ _ _).trans (if_pos rfl)
  · exact (State.kslot_set s _ p _).trans (if_neg hp)

/-- KEY_SLOT_REGENERATE's effect. -/
def State.regenerated (s : State) (p : Nat) : State := if (s.kslot p).state = 3 ∧ !s.slotInUse p then s.freshKey p else s

theorem exec_keySlotRegenerate (p : PlotNo) (s : State) : exec (.keySlotRegenerate p) s = act s (·.regenerated p.val) := rfl

theorem keySlotRegenerate_fresh (s : State) (p : PlotNo) (hstate : (s.kslot p.val).state = 3) (hfree : s.slotInUse p.val = false) :
    Completes (.keySlotRegenerate p) s (fun t => t.kslot p.val = ⟨1, s.tick, Config.freeValue 512 s.freeCtr⟩ ∧
      (∀ k, k ≠ p.val → t.kslot k = s.kslot k) ∧
      t = { s with freeCtr := s.freeCtr + 1, sec := { s.sec with kslots := t.sec.kslots } }) := by
  have hstep : s.regenerated p.val = s.freshKey p.val := if_pos ⟨hstate, by rw [hfree]; rfl⟩
  have hslots : ∀ k, (s.freshKey p.val).kslot k = if k = p.val then ⟨1, s.tick, Config.freeValue 512 s.freeCtr⟩ else s.kslot k := fun k =>
    State.kslot_set { s with freeCtr := s.freeCtr + 1 } p.val k ⟨1, s.tick, Config.freeValue 512 s.freeCtr⟩
  exact Completes.of_any _ (exec_keySlotRegenerate p s) hstep ⟨(hslots p.val).trans (if_pos rfl), fun k hk => (hslots k).trans (if_neg hk), rfl⟩

theorem keySlotRegenerate_waits (s : State) (p : PlotNo) (h : (s.kslot p.val).state ≠ 3 ∨ s.slotInUse p.val = true) :
    exec (.keySlotRegenerate p) s = .next s := by
  refine exec_of_act s (exec_keySlotRegenerate p s) (if_neg ?_) rfl rfl
  rintro ⟨hstate, hfree⟩
  rcases h with h | h
  · exact h hstate
  · rw [h] at hfree
    exact absurd hfree (by decide)

/-! ### TDISP (R301, R303) -/

/-- A TDISP request over a secured session of the function's port. -/
theorem completes_tdisp {c : Instr} {s u : State} {ep : SpdmEp} {sid : Nat} {fid : Fid} {f : State → State} {P : State → Prop}
    (hexec : exec c s = act s (·.tdisp ep sid fid f)) (hthere : s.epThere ep = true) (hport : s.onPort ep sid fid.val = true)
    (hassigned : s.assigned fid.val = true) (hrun : f s = u) (hp : P { u with pending := s.pending, tick := s.tick }) : Completes c s P := by
  have hboth : (s.onPort ep sid fid.val && s.assigned fid.val) = true := by rw [hport, hassigned]; rfl
  exact completes_spdm hexec hthere ((if_pos hboth).trans hrun) hp

theorem completes_tdispSay {c : Instr} {s : State} {ep : SpdmEp} {sid : Nat} {fid : Fid} {f : State → State} {code : Nat} {body : List Byte}
    (hexec : exec c s = act s (·.tdisp ep sid fid f)) (hthere : s.epThere ep = true) (hport : s.onPort ep sid fid.val = true)
    (hassigned : s.assigned fid.val = true) (hrun : f s = s.tdispSay ep code body) :
    Completes c s (fun t => Says s t ep 0x7E (BitVec.ofNat 8 code :: body)) :=
  completes_tdisp hexec hthere hport hassigned hrun (s.respond_says ep 0x7E (BitVec.ofNat 8 code :: body))

/-- A TDI state set, with its answer. -/
theorem State.setTdi_says (s : State) (fid : Nat) {v : Nat} (hv : v < 4) (ep : SpdmEp) (code : Nat) (body : List Byte) :
    ((s.setTdi fid v).tdispSay ep code body).tdi fid = v ∧
    OnlyFields s ((s.setTdi fid v).tdispSay ep code body) [Fld.securityTdiStatState fid] ∧
    Says { s with regs := ((s.setTdi fid v).tdispSay ep code body).regs } ((s.setTdi fid v).tdispSay ep code body) ep 0x7E
      (BitVec.ofNat 8 code :: body) := by
  refine ⟨getF_fit s (Fld.securityTdiStatState fid) v (by simp [Fld.securityTdiStatState]) hv, ?_, rfl⟩
  exact (OnlyFields.setF s (Fld.securityTdiStatState fid) v [Fld.securityTdiStatState fid] (by simp)).of_regs rfl

/-- LOCK_INTERFACE_REQUEST over its session. -/
def State.locked (s : State) (ep : SpdmEp) (fid : Nat) : State :=
  if s.tdi fid = 0 then
    let d := s.draw 256
    (d.2.setTdi fid 1).tdispSay ep 0x03 (leBytes 32 d.1.toNat)
  else s.tdispSay ep 0x7F [4]

/-- GET_DEVICE_INTERFACE_REPORT over its session. -/
def State.reported (s : State) (ep : SpdmEp) (fid : Nat) : State :=
  if s.tdi fid = 1 ∨ s.tdi fid = 2 then s.tdispSay ep 0x04 (Config.standardBody 7 [fid] ++ s.tenantRecord (fid / 64) fid)
  else s.tdispSay ep 0x7F [4]

/-- START_INTERFACE_REQUEST over its session. -/
def State.started (s : State) (ep : SpdmEp) (fid : Nat) : State :=
  if s.tdi fid = 1 then (s.setTdi fid 2).tdispSay ep 0x06 [] else s.tdispSay ep 0x7F [4]

theorem tdisp_answers (s : State) (ep : SpdmEp) (sid : Nat) (fid : Fid) (hthere : s.epThere ep = true) (hport : s.onPort ep sid fid.val = true)
    (hassigned : s.assigned fid.val = true) :
    Completes (.getTdispVersion ep sid fid) s (fun t => Says s t ep 0x7E [0x01, 0x10]) ∧
    Completes (.getTdispCapabilities ep sid fid) s (fun t => Says s t ep 0x7E (0x02 :: Config.standardBody 6 [])) ∧
    Completes (.getDeviceInterfaceState ep sid fid) s (fun t => Says s t ep 0x7E (0x05 :: leBytes 1 (s.tdi fid.val))) ∧
    Completes (.getDeviceInterfaceReport ep sid fid) s (fun t =>
      if s.tdi fid.val = 1 ∨ s.tdi fid.val = 2 then
        Says s t ep 0x7E (0x04 :: (Config.standardBody 7 [fid.val] ++ s.tenantRecord (fid.val / 64) fid.val))
      else Says s t ep 0x7E [0x7F, 4]) ∧
    Completes (.lockInterfaceRequest ep sid fid) s (fun t =>
      if s.tdi fid.val = 0 then
        t.tdi fid.val = 1 ∧ OnlyFields s t [Fld.securityTdiStatState fid.val] ∧
        Says { s with regs := t.regs, freeCtr := s.freeCtr + 1 } t ep 0x7E (0x03 :: leBytes 32 (Config.freeValue 256 s.freeCtr).toNat)
      else Says s t ep 0x7E [0x7F, 4]) ∧
    Completes (.startInterfaceRequest ep sid fid) s (fun t =>
      if s.tdi fid.val = 1 then
        t.tdi fid.val = 2 ∧ OnlyFields s t [Fld.securityTdiStatState fid.val] ∧ Says { s with regs := t.regs } t ep 0x7E [0x06]
      else Says s t ep 0x7E [0x7F, 4]) ∧
    Completes (.stopInterfaceRequest ep sid fid) s (fun t =>
      t.tdi fid.val = 0 ∧ OnlyFields s t [Fld.securityTdiStatState fid.val] ∧ Says { s with regs := t.regs } t ep 0x7E [0x07]) := by
  have hlock : exec (.lockInterfaceRequest ep sid fid) s = act s (·.tdisp ep sid fid (·.locked ep fid.val)) := rfl
  have hreport : exec (.getDeviceInterfaceReport ep sid fid) s = act s (·.tdisp ep sid fid (·.reported ep fid.val)) := rfl
  have hstart : exec (.startInterfaceRequest ep sid fid) s = act s (·.tdisp ep sid fid (·.started ep fid.val)) := rfl
  have hstop : exec (.stopInterfaceRequest ep sid fid) s = act s (·.tdisp ep sid fid (fun s => (s.setTdi fid.val 0).tdispSay ep 0x07 [])) := rfl
  refine ⟨completes_tdispSay (f := (·.tdispSay ep 0x01 [0x10])) rfl hthere hport hassigned rfl,
    completes_tdispSay (f := (·.tdispSay ep 0x02 (Config.standardBody 6 []))) rfl hthere hport hassigned rfl,
    completes_tdispSay (f := fun s => s.tdispSay ep 0x05 (leBytes 1 (s.tdi fid.val))) rfl hthere hport hassigned rfl,
    Completes.ite (fun h => completes_tdispSay hreport hthere hport hassigned (if_pos h))
      (fun h => completes_tdispSay hreport hthere hport hassigned (if_neg h)),
    Completes.ite (fun h => ?_) (fun h => completes_tdispSay hlock hthere hport hassigned (if_neg h)),
    Completes.ite (fun h => ?_) (fun h => completes_tdispSay hstart hthere hport hassigned (if_neg h)), ?_⟩
  · obtain ⟨htdi, honly, -⟩ := ({ s with freeCtr := s.freeCtr + 1 } : State).setTdi_says fid.val (v := 1) (by decide) ep 0x03
      (leBytes 32 (Config.freeValue 256 s.freeCtr).toNat)
    exact completes_tdisp hlock hthere hport hassigned (if_pos h) ⟨htdi, honly, rfl⟩
  · exact completes_tdisp hstart hthere hport hassigned (if_pos h) (s.setTdi_says fid.val (by decide) ep 0x06 [])
  · exact completes_tdisp hstop hthere hport hassigned rfl (s.setTdi_says fid.val (by decide) ep 0x07 [])

/-- Every TDISP request is one over its session. -/
theorem exec_tdisp_rows {s : State} {ep : SpdmEp} {sid : Nat} {fid : Fid} {c : Instr}
    (h : [.getTdispVersion ep sid fid, .getTdispCapabilities ep sid fid, .lockInterfaceRequest ep sid fid, .getDeviceInterfaceReport ep sid fid,
     .getDeviceInterfaceState ep sid fid, .startInterfaceRequest ep sid fid, .stopInterfaceRequest ep sid fid].contains c = true) :
    ∃ f : State → State, exec c s = act s (·.tdisp ep sid fid f) := by
  rw [List.contains_iff_mem] at h
  simp only [List.mem_cons, List.not_mem_nil, or_false] at h
  rcases h with rfl | rfl | rfl | rfl | rfl | rfl | rfl <;> exact ⟨_, rfl⟩

theorem tdisp_refused (s : State) (ep : SpdmEp) (sid : Nat) (fid : Fid) (c : Instr) (hthere : s.epThere ep = true)
    (h : s.onPort ep sid fid.val = false ∨ s.assigned fid.val = false)
    (hrow : [.getTdispVersion ep sid fid, .getTdispCapabilities ep sid fid, .lockInterfaceRequest ep sid fid, .getDeviceInterfaceReport ep sid fid,
     .getDeviceInterfaceState ep sid fid, .startInterfaceRequest ep sid fid, .stopInterfaceRequest ep sid fid].contains c = true) :
    Completes c s (fun t => Says s t ep 0x7F [1]) := by
  obtain ⟨f, hexec⟩ := exec_tdisp_rows (s := s) hrow
  have hnot : ¬(s.onPort ep sid fid.val && s.assigned fid.val) = true := by
    rcases h with h | h <;> simp [h]
  exact completes_says hexec hthere (if_neg hnot)

/-- Settles O48: sessions, then key slots, then TDISP. -/
theorem sessionsKeysAndInterfaces : Obligations.SessionsKeysAndInterfaces := by
  unfold Obligations.SessionsKeysAndInterfaces
  exact ⟨keyExchange_opens, keyExchange_full, session_ends, session_unknown, session_secured, keyInject_injects, keySlotRegenerate_fresh,
    keySlotRegenerate_waits, tdisp_answers, tdisp_refused⟩

end Sys2Proof.Machine
end

section
/-! SUPPORT. The meter's queue, intervals, records and stream (O49). -/

open Sys2Proof Sys2Proof.Machine

namespace Sys2Proof.Machine

/-! ### What changes the meter and its block alone -/

theorem MeterOnly.refl (s : State) : MeterOnly s s := ⟨rfl, fun _ _ => rfl⟩

theorem MeterOnly.trans {s t u : State} (h : MeterOnly s t) (g : MeterOnly t u) : MeterOnly s u :=
  ⟨MeterMoved.trans h.1 g.1, fun a ha => (g.2 a ha).trans (h.2 a ha)⟩

theorem MeterOnly.setMz (s : State) (f : Meter → Meter) : MeterOnly s (s.setMz f) := ⟨rfl, fun _ _ => rfl⟩

/-- A register of the meter's block (R322, R351). -/
def inMeterBlock (a : Nat) : Prop := 0x1F00000 ≤ a ∧ a < 0x1F80000

theorem MeterOnly.wr (s : State) (a : Nat) (v : Word) (h : inMeterBlock a) : MeterOnly s (s.wr a v) :=
  ⟨rfl, fun _ hb => State.rd_wr_ne _ _ _ _ (fun hab => hb (hab ▸ h))⟩

theorem MeterOnly.setFs (s : State) (l : List (Fd × Nat)) (h : ∀ x ∈ l, inMeterBlock x.1.addr) : MeterOnly s (s.setFs l) :=
  List.foldlRecOn _ _ (MeterOnly.refl s) (fun t ht x hx => ht.trans (MeterOnly.wr t x.1.addr _ (h x hx)))

theorem MeterOnly.set64 (s : State) (lo hi v : Nat) (hlo : inMeterBlock lo) (hhi : inMeterBlock hi) : MeterOnly s (s.set64 lo hi v) :=
  (MeterOnly.wr s lo _ hlo).trans (MeterOnly.wr _ hi _ hhi)

theorem MeterOnly.step64 {s t : State} (g : MeterOnly s t) (lo hi v : Nat) (hlo : inMeterBlock lo) (hhi : inMeterBlock hi) :
    MeterOnly s (t.set64 lo hi v) := g.trans (MeterOnly.set64 t lo hi v hlo hhi)

/-- The fields of the mirror that are no 64-bit counts (R351). -/
def Meter.mirrorFields (m : Meter) : List (Fd × Nat) :=
  [(Fld.mzStatState, m.stateCode), (Fld.mzStatSupplyBad, bit m.stopped.isSome), (Fld.mzStatRtcBad, bit m.rtcBad),
    (Fld.mzStatLinkLost, bit m.lost), (Fld.mzStatHoldEst, bit m.ovf.isSome), (Fld.mzStatMemBad, bit m.memBad),
    (Fld.mzStatKeyDestroyed, bit m.keyGone), (Fld.mzStatNokey, bit (!(m.par.keys.any (fun k => k.2.used)))),
    (Fld.mzQueueCount, (m.queue.filter (fun x => x.2.queued)).length), (Fld.mzQueueOvf, m.ovfs), (Fd.whole Reg.mzBoot, m.boot),
    (Fd.whole Reg.mzIntLen, m.par.len)]

/-- The mirror's 64-bit counts (R351). -/
def Meter.mirrorCounts (m : Meter) : List (Nat × Nat × Nat) :=
  [(Reg.mzAuditLo, Reg.mzAuditHi, m.audit), (Reg.mzSeqLo, Reg.mzSeqHi, m.seq),
    (Reg.mzOldestLo, Reg.mzOldestHi, (m.ring.head?.map (·.1)).getD 0), (Reg.mzIntNoLo, Reg.mzIntNoHi, m.intNo),
    (Reg.mzIntStartLo, Reg.mzIntStartHi, m.start), (Reg.mzNonceLo, Reg.mzNonceHi, m.nonce.toNat), (Reg.mzMrtcLo, Reg.mzMrtcHi, m.mrtc)]

/-- The mirror written while the link is up and the MZ12 is ready. -/
def State.mirrored (s : State) : State :=
  s.mz.mirrorCounts.foldl (fun s x => s.set64 x.1 x.2.1 x.2.2) (s.setFs s.mz.mirrorFields)

theorem State.mirror_eq (s : State) : s.mirror = if !s.mz.ready || s.mz.down.isSome then s else s.mirrored := rfl

/-- The mirror lies in the meter's block. -/
theorem State.mirrored_only (s : State) : MeterOnly s s.mirrored := by
  have hfields : ∀ x ∈ s.mz.mirrorFields, inMeterBlock x.1.addr := by
    have haddr : s.mz.mirrorFields.map (fun x => x.1.addr) = [Reg.mzStat, Reg.mzStat, Reg.mzStat, Reg.mzStat, Reg.mzStat, Reg.mzStat,
        Reg.mzStat, Reg.mzStat, Reg.mzQueue, Reg.mzQueue, Reg.mzBoot, Reg.mzIntLen] := rfl
    intro x hx
    have hmem := List.mem_map_of_mem (f := fun x : Fd × Nat => x.1.addr) hx
    rw [haddr] at hmem
    generalize x.1.addr = a at hmem
    simp only [List.mem_cons, List.not_mem_nil, or_false] at hmem
    unfold inMeterBlock
    simp only [Reg.mzStat, Reg.mzQueue, Reg.mzBoot, Reg.mzIntLen] at hmem
    omega
  have hcounts : ∀ x ∈ s.mz.mirrorCounts, inMeterBlock x.1 ∧ inMeterBlock x.2.1 := by
    have haddr : s.mz.mirrorCounts.map (fun x => (x.1, x.2.1)) = [(Reg.mzAuditLo, Reg.mzAuditHi), (Reg.mzSeqLo, Reg.mzSeqHi),
        (Reg.mzOldestLo, Reg.mzOldestHi), (Reg.mzIntNoLo, Reg.mzIntNoHi), (Reg.mzIntStartLo, Reg.mzIntStartHi),
        (Reg.mzNonceLo, Reg.mzNonceHi), (Reg.mzMrtcLo, Reg.mzMrtcHi)] := rfl
    intro x hx
    have hmem := List.mem_map_of_mem (f := fun x : Nat × Nat × Nat => (x.1, x.2.1)) hx
    rw [haddr] at hmem
    simp only [List.mem_cons, List.not_mem_nil, or_false, Prod.mk.injEq] at hmem
    unfold inMeterBlock
    simp only [Reg.mzAuditLo, Reg.mzAuditHi, Reg.mzSeqLo, Reg.mzSeqHi, Reg.mzOldestLo, Reg.mzOldestHi, Reg.mzIntNoLo, Reg.mzIntNoHi,
      Reg.mzIntStartLo, Reg.mzIntStartHi, Reg.mzNonceLo, Reg.mzNonceHi, Reg.mzMrtcLo, Reg.mzMrtcHi] at hmem
    omega
  exact (MeterOnly.setFs s _ hfields).trans (List.foldlRecOn _ _ (MeterOnly.refl _)
    (fun t ht x hx => ht.step64 _ _ _ (hcounts x hx).1 (hcounts x hx).2))

theorem State.mirror_only (s : State) : MeterOnly s s.mirror := by
  rw [State.mirror_eq]
  split
  · exact MeterOnly.refl s
  · exact s.mirrored_only

@[simp] theorem State.mirror_mz (s : State) : s.mirror.mz = s.mz := by rw [s.mirror_regs]

/-! ### Intervals that roll (R327, R328) -/

/-- Where no interval is over, the meter stays. -/
theorem Meter.roll_of_not_over {m : Meter} {now : Nat} (h : m.intervalOver now = false) : m.roll now = m := if_neg (by simp [h])

/-- What a roll may change: the intervals, their parameters and flags. -/
theorem Meter.roll_eq (m : Meter) (now : Nat) : m.roll now = { m with
    idle := (m.roll now).idle, spare := (m.roll now).spare, inB := (m.roll now).inB, intNo := (m.roll now).intNo,
    start := (m.roll now).start, mrtc0 := (m.roll now).mrtc0, flags := (m.roll now).flags, par := (m.roll now).par,
    due := (m.roll now).due } := by
  unfold Meter.roll Meter.endInterval Meter.startInterval
  dsimp only
  split
  · split <;> rfl
  · rfl

theorem Meter.roll_queue (m : Meter) (now : Nat) : (m.roll now).queue = m.queue := by rw [m.roll_eq]
theorem Meter.roll_seq (m : Meter) (now : Nat) : (m.roll now).seq = m.seq := by rw [m.roll_eq]
theorem Meter.roll_late (m : Meter) (now : Nat) : (m.roll now).late = m.late := by rw [m.roll_eq]
theorem Meter.roll_stopped (m : Meter) (now : Nat) : (m.roll now).stopped = m.stopped := by rw [m.roll_eq]
theorem Meter.roll_down (m : Meter) (now : Nat) : (m.roll now).down = m.down := by rw [m.roll_eq]
theorem Meter.roll_memBad (m : Meter) (now : Nat) : (m.roll now).memBad = m.memBad := by rw [m.roll_eq]
theorem Meter.roll_keyGone (m : Meter) (now : Nat) : (m.roll now).keyGone = m.keyGone := by rw [m.roll_eq]

/-! ### Records (R335 to R337, R346) -/

/-- What making a record may change: its number, the chain, the mark of a lost link and the ring. -/
theorem State.makeRec_mz (s : State) (r : MRec) : (s.makeRec r).mz = { s.mz with
    seq := (s.makeRec r).mz.seq, prev := (s.makeRec r).mz.prev, lost := (s.makeRec r).mz.lost, ring := (s.makeRec r).mz.ring } := by
  unfold State.makeRec State.setMz
  dsimp only
  split <;> rfl

theorem State.makeRec_seq {s : State} (r : MRec) (hmem : s.mz.memBad = false) (hkey : s.mz.keyGone = false) :
    (s.makeRec r).mz.seq = s.mz.seq + 1 := by
  unfold State.makeRec State.setMz
  dsimp only
  rw [if_neg (by simp [hmem, hkey])]

theorem Meter.keepStamp_eq (m : Meter) (now : Nat) : m.keepStamp now = { m with stamps := (m.keepStamp now).stamps } := by
  unfold Meter.keepStamp
  split <;> rfl

/-- While the supply is stopped or the link down an EVENT record waits. -/
theorem State.eventRec_waits {s : State} (code detail t : Nat) (h : s.mz.stopped ≠ none ∨ s.mz.down ≠ none) :
    s.eventRec code detail t = s.setMz (fun m => { m.keepStamp s.tick with late := m.late ++ [(code, detail, t)] }) := by
  have hsome : (s.mz.stopped.isSome || s.mz.down.isSome) = true := by
    rw [Bool.or_eq_true, Option.isSome_iff_ne_none, Option.isSome_iff_ne_none]
    exact h
  exact if_pos hsome

/-- Else it is made. -/
theorem State.eventRec_made {s : State} (code detail t : Nat) (hstop : s.mz.stopped = none) (hdown : s.mz.down = none) :
    ∃ r, s.eventRec code detail t = s.makeRec r := by
  have hnone : ¬(s.mz.stopped.isSome || s.mz.down.isSome) = true := by rw [hstop, hdown]; exact Bool.false_ne_true
  exact ⟨_, if_neg hnone⟩

/-- What an EVENT record may change. -/
theorem State.eventRec_mz (s : State) (code detail t : Nat) : (s.eventRec code detail t).mz = { s.mz with
    stamps := (s.eventRec code detail t).mz.stamps, late := (s.eventRec code detail t).mz.late, seq := (s.eventRec code detail t).mz.seq,
    prev := (s.eventRec code detail t).mz.prev, lost := (s.eventRec code detail t).mz.lost, ring := (s.eventRec code detail t).mz.ring } := by
  by_cases h : s.mz.stopped ≠ none ∨ s.mz.down ≠ none
  · rw [State.eventRec_waits code detail t h]
    unfold State.setMz Meter.keepStamp
    dsimp only
    split <;> rfl
  · push Not at h
    obtain ⟨r, hr⟩ := State.eventRec_made code detail t h.1 h.2
    rw [hr, s.makeRec_mz]

theorem State.eventRec_only (s : State) (code detail t : Nat) : MeterOnly s (s.eventRec code detail t) := by
  unfold State.eventRec
  dsimp only
  split
  · exact MeterOnly.setMz s _
  · exact MeterOnly.setMz s _

/-! ### The event queue (R329 to R331) -/

/-- A front event that is no plot's is applied, and makes no record. -/
theorem State.applyFront_of_cons {s : State} {x : Nat × MEvent} {xs : List (Nat × MEvent)} (h : s.mz.queue = x :: xs)
    (hplot : ∀ p live, x.2 ≠ .plot p live) :
    s.applyFront = s.setMz (fun m => ({ m.applyEv x s.tick with queue := xs } : Meter).stampsDone) := by
  unfold State.applyFront
  rw [h]
  dsimp only
  split
  · rename_i hx
    exact absurd hx (hplot _ _)
  · rfl

/-- The front event is applied unless it belongs after a close that is due. -/
def State.bindingEventApplied (s : State) : State :=
  match s.mz.queue with
  | [] => s
  | x :: _ =>
    let first := match (s.mz.roll s.tick).idle.getLast? with | some i => decide (x.1 < i.stop) | none => true
    if s.mz.working && first then (s.setMz (fun m => m.roll s.tick)).applyFront.mirror else s

theorem exec_bindingEventApply (s : State) : exec .bindingEventApply s = act s (·.bindingEventApplied) := rfl

theorem exec_bindingEventApply_idle (s : State) (h : s.mz.queue = [] ∨ s.mz.working = false) : exec .bindingEventApply s = .next s := by
  refine exec_of_act s (exec_bindingEventApply s) ?_ rfl rfl
  unfold State.bindingEventApplied
  split
  · rfl
  · rename_i x xs hqueue
    have hworking : s.mz.working = false := h.resolve_left (fun he => List.cons_ne_nil x xs (hqueue ▸ he))
    rw [hworking]
    rfl

theorem completes_bindingEventApply (s : State) (x : Nat × MEvent) (xs : List (Nat × MEvent)) (hqueue : s.mz.queue = x :: xs)
    (hworking : s.mz.working = true) (m : Meter) (hm : m = s.mz.roll s.tick) (hfirst : ∀ i, m.idle.getLast? = some i → x.1 < i.stop)
    (hplot : ∀ p live, x.2 ≠ .plot p live) :
    Completes .bindingEventApply s (fun t => t.mz = ({ m.applyEv x s.tick with queue := xs } : Meter).stampsDone ∧ MeterOnly s t) := by
  obtain ⟨u, hu⟩ : ∃ u, u = s.setMz (fun m => m.roll s.tick) := ⟨_, rfl⟩
  have humz : u.mz = m := by rw [hu, hm]; rfl
  have hutick : u.tick = s.tick := by rw [hu]; rfl
  have huqueue : u.mz.queue = x :: xs := by rw [humz, hm, Meter.roll_queue, hqueue]
  have hfront := State.applyFront_of_cons huqueue hplot
  have hrun : s.bindingEventApplied = u.applyFront.mirror := by
    have hsel : (match (s.mz.roll s.tick).idle.getLast? with | some i => decide (x.1 < i.stop) | none => true) = true := by
      rw [← hm]
      split
      · rename_i i hi
        exact decide_eq_true (hfirst i hi)
      · rfl
    unfold State.bindingEventApplied
    rw [hqueue, hu]
    dsimp only
    rw [hworking, hsel]
    rfl
  have honly : MeterOnly s u.applyFront.mirror := by
    rw [hfront]
    exact ((hu ▸ MeterOnly.setMz s _).trans (MeterOnly.setMz u _)).trans (State.mirror_only _)
  refine Completes.of_eq u.applyFront.mirror (exec_bindingEventApply s) hrun (by rw [honly.1]) (by rw [honly.1]) ⟨?_, honly⟩
  rw [State.mirror_mz, hfront, ← hutick, ← humz]
  rfl

/-- The holdings that a scan finds are queued, with the record of the overflow. -/
def State.holdingsRebuilt (s : State) : State :=
  match s.mz.ovf with
  | none => s
  | some o =>
    if o < s.tick ∧ s.phase = 0 then
      let t := s.scanUnits
      (((s.setMz (fun m =>
        let m := m.roll s.tick
        { m with
          ovf := none, queue := m.queue ++ [(s.tick, .rebuild t)],
          flags := if m.start < s.tick then m.flags ||| 32 else m.flags })).eventRec 7 0 o)).mirror
    else s

theorem exec_holdingRebuild (s : State) : exec .holdingRebuild s = act s (·.holdingsRebuilt) := rfl

theorem exec_holdingRebuild_none (s : State) (h : s.mz.ovf = none) : exec .holdingRebuild s = .next s := by
  refine exec_of_act s (exec_holdingRebuild s) ?_ rfl rfl
  unfold State.holdingsRebuilt
  rw [h]

theorem completes_holdingRebuild (s : State) (o : Nat) (hovf : s.mz.ovf = some o) (hlate : o < s.tick) (hphase : s.phase = 0) :
    Completes .holdingRebuild s (fun t => t.mz.ovf = none ∧ t.mz.queue = s.mz.queue ++ [(s.tick, .rebuild s.scanUnits)] ∧
      (s.mz.stopped = none → s.mz.down = none → s.mz.memBad = false → s.mz.keyGone = false → t.mz.seq = s.mz.seq + 1) ∧
      (s.mz.stopped ≠ none ∨ s.mz.down ≠ none → t.mz.seq = s.mz.seq ∧ t.mz.late = s.mz.late ++ [(7, 0, o)]) ∧ MeterOnly s t) := by
  obtain ⟨m, hm⟩ : ∃ m : Meter, m = { s.mz.roll s.tick with
      ovf := none, queue := (s.mz.roll s.tick).queue ++ [(s.tick, .rebuild s.scanUnits)],
      flags := if (s.mz.roll s.tick).start < s.tick then (s.mz.roll s.tick).flags ||| 32 else (s.mz.roll s.tick).flags } := ⟨_, rfl⟩
  obtain ⟨u, hu⟩ : ∃ u, u = s.setMz (fun _ => m) := ⟨_, rfl⟩
  have humz : u.mz = m := by rw [hu]; rfl
  have hovfs : u.mz.ovf = none := by rw [humz, hm]
  have hqueue : u.mz.queue = s.mz.queue ++ [(s.tick, .rebuild s.scanUnits)] := by
    rw [← Meter.roll_queue s.mz s.tick, humz, hm]
  have hstopped : u.mz.stopped = s.mz.stopped := (congrArg Meter.stopped (humz.trans hm)).trans (s.mz.roll_stopped _)
  have hdown : u.mz.down = s.mz.down := (congrArg Meter.down (humz.trans hm)).trans (s.mz.roll_down _)
  have hmem : u.mz.memBad = s.mz.memBad := (congrArg Meter.memBad (humz.trans hm)).trans (s.mz.roll_memBad _)
  have hkey : u.mz.keyGone = s.mz.keyGone := (congrArg Meter.keyGone (humz.trans hm)).trans (s.mz.roll_keyGone _)
  have hseq : u.mz.seq = s.mz.seq := (congrArg Meter.seq (humz.trans hm)).trans (s.mz.roll_seq _)
  have hlate' : u.mz.late = s.mz.late := (congrArg Meter.late (humz.trans hm)).trans (s.mz.roll_late _)
  have hrun : s.holdingsRebuilt = (u.eventRec 7 0 o).mirror := by
    unfold State.holdingsRebuilt
    rw [hovf, hu, hm]
    exact if_pos ⟨hlate, hphase⟩
  have honly : MeterOnly s (u.eventRec 7 0 o).mirror :=
    ((hu ▸ MeterOnly.setMz s _).trans (u.eventRec_only _ _ _)).trans (State.mirror_only _)
  refine Completes.of_eq (u.eventRec 7 0 o).mirror (exec_holdingRebuild s) hrun (by rw [honly.1]) (by rw [honly.1]) ?_
  rw [State.mirror_mz]
  refine ⟨?_, ?_, fun h1 h2 h3 h4 => ?_, fun hwait => ?_, honly⟩
  · rw [State.eventRec_mz]; exact hovfs
  · rw [State.eventRec_mz]; exact hqueue
  · obtain ⟨r, hr⟩ := State.eventRec_made (s := u) 7 0 o (hstopped.trans h1) (hdown.trans h2)
    rw [hr, State.makeRec_seq r (hmem.trans h3) (hkey.trans h4), hseq]
  · rw [State.eventRec_waits 7 0 o (by rw [hstopped, hdown]; exact hwait)]
    refine ⟨?_, congrArg (· ++ [(7, 0, o)]) hlate'⟩
    show (u.mz.keepStamp u.tick).seq = s.mz.seq
    rw [Meter.keepStamp_eq]
    exact hseq

/-! ### The end and the close of intervals (R327, R328, R332) -/

/-- The mirror follows the intervals that have rolled. -/
def State.intervalEnded (s : State) : State :=
  if s.mz.ready then ((s.setMz (fun m => m.roll s.tick)).mirrorMaps).mirror else s

theorem exec_intervalEnd (s : State) : exec .intervalEnd s = act s (·.intervalEnded) := rfl

/-- An interval that is over ends at its length, its bank goes when the idle one is empty, and the next one starts. -/
theorem Meter.roll_of_over {m : Meter} {now : Nat} (h : m.intervalOver now = true) :
    (m.roll now).intNo = m.intNo + 1 ∧ (m.roll now).start = m.start + 256 * m.par.len ∧ (m.roll now).flags = 0 ∧
    (m.idle = [] → ((m.roll now).idle.getLast?.map (·.stop)) = some (m.start + 256 * m.par.len) ∧ (m.roll now).spare = [] ∧
      (m.roll now).inB = !m.inB) ∧
    (m.idle ≠ [] → (m.roll now).idle = m.idle ∧ ((m.roll now).spare.getLast?.map (·.stop)) = some (m.start + 256 * m.par.len) ∧
      (m.roll now).inB = m.inB) := by
  have hroll : m.roll now = (m.endInterval (m.start + 256 * m.par.len) 0).startInterval (m.intNo + 1) (m.start + 256 * m.par.len) := if_pos h
  rw [hroll]
  refine ⟨rfl, rfl, rfl, fun hidle => ?_, fun hidle => ?_⟩
  · have hempty : m.idle.isEmpty = true := List.isEmpty_iff.mpr hidle
    unfold Meter.startInterval Meter.endInterval
    simp only [hempty, if_true, List.getLast?_append, List.getLast?_singleton, Option.some_or, Option.map_some, and_self]
  · have hempty : ¬m.idle.isEmpty = true := fun he => hidle (List.isEmpty_iff.mp he)
    unfold Meter.startInterval Meter.endInterval
    simp only [hempty, if_false, Bool.false_eq_true, List.getLast?_append, List.getLast?_singleton, Option.some_or, Option.map_some, and_self]

theorem completes_intervalEnd (s : State) (hready : s.mz.ready = true) {P : State → Prop}
    (hP : ∀ t : State, t.mz = s.mz.roll s.tick → t = { s with regs := t.regs, mz := t.mz } → P t) : Completes .intervalEnd s P := by
  obtain ⟨u, hu⟩ : ∃ u, u = (s.setMz (fun m => m.roll s.tick)).mirrorMaps := ⟨_, rfl⟩
  have hmoved : MeterMoved s u.mirror := (show MeterMoved s u by rw [hu]; rfl).trans (MeterMoved.of_regs u.mirror_regs)
  refine Completes.of_eq u.mirror (exec_intervalEnd s) ((if_pos hready).trans (by rw [hu])) (by rw [hmoved]) (by rw [hmoved]) (hP _ ?_ hmoved)
  rw [State.mirror_mz, hu]
  rfl

theorem completes_intervalEnd_over (s : State) (hready : s.mz.ready = true) (hfault : s.mz.fault = false) (hclosed : s.mz.closed = false)
    (hover : s.mz.start + 256 * s.mz.par.len ≤ s.tick) :
    Completes .intervalEnd s (fun t => t.mz.intNo = s.mz.intNo + 1 ∧ t.mz.start = s.mz.start + 256 * s.mz.par.len ∧ t.mz.flags = 0 ∧
      (s.mz.idle = [] → (t.mz.idle.getLast?.map (·.stop)) = some (s.mz.start + 256 * s.mz.par.len) ∧ t.mz.spare = [] ∧ t.mz.inB = !s.mz.inB) ∧
      (s.mz.idle ≠ [] → t.mz.idle = s.mz.idle ∧ (t.mz.spare.getLast?.map (·.stop)) = some (s.mz.start + 256 * s.mz.par.len) ∧
        t.mz.inB = s.mz.inB) ∧
      t = { s with regs := t.regs, mz := t.mz }) := by
  have hov : s.mz.intervalOver s.tick = true := by
    unfold Meter.intervalOver
    rw [hready, hfault, hclosed, decide_eq_true hover]
    rfl
  obtain ⟨hno, hstart, hflags, hempty, hfull⟩ := Meter.roll_of_over hov
  refine completes_intervalEnd s hready (fun t hmz hmoved => ?_)
  rw [hmz]
  exact ⟨hno, hstart, hflags, hempty, hfull, hmz ▸ hmoved⟩

theorem completes_intervalEnd_before (s : State) (hready : s.mz.ready = true)
    (h : s.mz.fault = true ∨ s.mz.closed = true ∨ s.tick < s.mz.start + 256 * s.mz.par.len) :
    Completes .intervalEnd s (fun t => t = { s with regs := t.regs }) := by
  have hov : s.mz.intervalOver s.tick = false := by
    unfold Meter.intervalOver
    rcases h with hf | hc | ht
    · simp [hf]
    · simp [hc]
    · simp [Nat.not_le.mpr ht]
  refine completes_intervalEnd s hready (fun t hmz hmoved => ?_)
  rw [Meter.roll_of_not_over hov] at hmz
  rw [hmz] at hmoved
  exact hmoved

theorem exec_intervalEnd_not_ready (s : State) (h : s.mz.ready = false) : exec .intervalEnd s = .next s :=
  exec_of_act s (exec_intervalEnd s) (if_neg (by simp [h])) rfl rfl

/-- The idle bank goes into its record, and after a fault or entry to RETURNED the bank in use too. -/
def State.intervalClosed (s : State) : State :=
  if s.mz.working then (if s.mz.fault || s.mz.closed then s.closeAll else s.closeIdle).mirror else s

theorem exec_intervalClose (s : State) : exec .intervalClose s = act s (·.intervalClosed) := rfl

theorem State.closeIdle_idle (s : State) : s.closeIdle.mz.idle = [] := by
  unfold State.closeIdle
  dsimp only
  split
  · rename_i h
    exact List.isEmpty_iff.mp h
  · generalize s.closeSpans s.mz.idle (if s.mz.inB = true then s.mz.bankA else s.mz.bankB) = u
    unfold State.setMz
    dsimp only
    split <;> rfl

theorem completes_intervalClose (s : State) (hworking : s.mz.working = true) (hfault : s.mz.fault = false) (hclosed : s.mz.closed = false) :
    Completes .intervalClose s (fun t => t.mz.idle = [] ∧ t = { s with regs := t.regs, mz := t.mz }) := by
  have hmoved : MeterMoved s s.closeIdle.mirror := s.closeIdle_moved.trans (MeterMoved.of_regs (State.mirror_regs _))
  have hrun : s.intervalClosed = s.closeIdle.mirror := by
    unfold State.intervalClosed
    rw [hworking, hfault, hclosed]
    rfl
  refine Completes.of_eq s.closeIdle.mirror (exec_intervalClose s) hrun (by rw [hmoved]) (by rw [hmoved]) ⟨?_, hmoved⟩
  rw [State.mirror_mz]
  exact s.closeIdle_idle

theorem exec_intervalClose_waits (s : State) (h : s.mz.working = false) : exec .intervalClose s = .next s :=
  exec_of_act s (exec_intervalClose s) (if_neg (by simp [h])) rfl rfl

/-! ### The record stream (R352) -/

/-- What signals and wake events may change: steward, free values, what is sent, and messages. -/
def SignalOnly (s t : State) : Prop := t = { s with stw := t.stw, freeCtr := t.freeCtr, out := t.out, dp := t.dp }

theorem SignalOnly.refl (s : State) : SignalOnly s s := rfl

theorem SignalOnly.trans {s t u : State} (h : SignalOnly s t) (g : SignalOnly t u) : SignalOnly s u := by
  unfold SignalOnly at h g ⊢
  rw [g, h]

theorem SignalOnly.of_made {s t : State} (h : MadeOnly s t) : SignalOnly s t := by
  unfold SignalOnly
  rw [h]

theorem State.sendMsi_signals (s : State) (i v : Nat) : SignalOnly s (s.sendMsi i v) :=
  (show SignalOnly s (s.emit (.msi i v)) from rfl).trans (.of_made (s.sendMsi_made i v))

theorem State.sendMsg_signals (s : State) (i : Nat) (e : OutEvent) (data : List Byte) : SignalOnly s (s.sendMsg i e data) :=
  (show SignalOnly s (s.emit e) from rfl).trans (.of_made (s.sendMsg_made i e data))

theorem State.setEp_signals (s : State) (i : Nat) (e : Ep) : SignalOnly s (s.setEp i e) := rfl

theorem State.signal_signals (s : State) (i src : Nat) : SignalOnly s (s.signal i src) := by
  unfold State.signal
  split
  · dsimp only
    split
    · split
      · exact s.sendMsi_signals _ _
      · exact s.setEp_signals _ _
    · split
      · exact s.setEp_signals _ _
      · exact s.sendMsi_signals _ _
    · split
      · exact SignalOnly.refl s
      · exact (s.setEp_signals _ _).trans (State.sendMsg_signals _ _ _ _)
  · exact SignalOnly.refl s

theorem State.sendPme_signals (s : State) (i : Nat) : SignalOnly s (s.sendPme i) := by
  unfold State.sendPme
  split
  · exact (s.setEp_signals _ _).trans (State.sendMsg_signals _ _ _ _)
  · exact s.setEp_signals _ _

theorem State.wake_signals (s : State) (i : Nat) : SignalOnly s (s.wake i) := by
  unfold State.wake
  dsimp only
  split
  · split
    · exact (s.setEp_signals _ _).trans rfl
    · split
      · exact (s.setEp_signals _ _).trans (State.sendPme_signals _ _)
      · exact s.setEp_signals _ _
  · exact SignalOnly.refl s

/-- A source of an instance that becomes pending keeps the meter, and every register but INT_STAT. -/
theorem State.pendSource_keeps (s : State) (i src : Nat) :
    (s.pendSource i src).mz = s.mz ∧ ∀ a, a ≠ Reg.stewardIntStat i → (s.pendSource i src).rd a = s.rd a := by
  cases h : s.epPresent i with
  | false => rw [State.pendSource_of_absent s i src h]; exact ⟨rfl, fun _ _ => rfl⟩
  | true =>
    refine ⟨?_, fun a ha => ?_⟩
    · have hsignal : SignalOnly (s.srcSet i src) (s.pendSource i src) := by
        rw [State.pendSource_of_present h]
        split
        · exact (State.signal_signals _ _ _).trans (State.wake_signals _ _)
        · exact State.signal_signals _ _ _
      rw [hsignal]
      rfl
    · exact (congrArg (Tbl.get regReset · a) (State.pendSource_regs h)).trans (s.srcSet_rd_ne i src a ha)

/-- The outbox's interrupt keeps the meter and OUT_WR. -/
theorem State.outboxDue_keeps (s : State) : s.outboxDue.mz = s.mz ∧ s.outboxDue.rd Reg.stewardMzOutWr = s.rd Reg.stewardMzOutWr := by
  refine List.foldlRecOn (motive := fun t : State => t.mz = s.mz ∧ t.rd Reg.stewardMzOutWr = s.rd Reg.stewardMzOutWr) _ _ ⟨rfl, rfl⟩ (fun t ht i hi => ?_)
  split
  · obtain ⟨hmz, hrd⟩ := t.pendSource_keeps i 18
    have hne : Reg.stewardMzOutWr ≠ Reg.stewardIntStat i := by
      simp only [List.mem_cons, List.not_mem_nil, or_false] at hi
      simp only [Reg.stewardMzOutWr, Reg.stewardIntStat]
      omega
    exact ⟨hmz.trans ht.1, (hrd _ hne).trans ht.2⟩
  · exact ht

/-- Bytes put into the outbox advance OUT_WR by as many. -/
theorem State.outboxPut_says (s : State) (l : List Byte) :
    (s.outboxPut l).mz = s.mz ∧ (s.outboxPut l).rd Reg.stewardMzOutWr = s.rd Reg.stewardMzOutWr + BitVec.ofNat 32 l.length := by
  induction l generalizing s with
  | nil => exact ⟨rfl, (BitVec.add_zero _).symm⟩
  | cons b l ih =>
    obtain ⟨t, ht⟩ : ∃ t : State, t = (s.setF ⟨Reg.stewardMzOutbox ((s.rd Reg.stewardMzOutWr).toNat % 65536 / 4),
        8 * ((s.rd Reg.stewardMzOutWr).toNat % 4), 8⟩ b.toNat).wr Reg.stewardMzOutWr (BitVec.ofNat 32 ((s.rd Reg.stewardMzOutWr).toNat + 1)) :=
      ⟨_, rfl⟩
    have hput : s.outboxPut (b :: l) = t.outboxPut l := by rw [ht]; rfl
    have hwr : t.rd Reg.stewardMzOutWr = s.rd Reg.stewardMzOutWr + 1#32 := by
      rw [ht, State.rd_wr_same, BitVec.ofNat_add, BitVec.ofNat_toNat, BitVec.setWidth_eq]
    obtain ⟨hmz, hout⟩ := ih t
    rw [hput]
    refine ⟨hmz.trans (by rw [ht]; rfl), ?_⟩
    rw [hout, hwr, List.length_cons, BitVec.add_assoc, Nat.add_comm l.length 1, BitVec.ofNat_add]

/-- A record under way is not replaced. -/
theorem Meter.nextRest_of_rest {m : Meter} (h : m.rest ≠ []) : m.nextRest = m :=
  if_pos (by rw [Bool.not_eq_true', List.isEmpty_eq_false_iff]; exact h)

/-- One step that does not empty the record under way: bytes leave it for the outbox. -/
theorem State.streamStep_of_lt {s : State} {n : Nat} (h : n < s.mz.rest.length) :
    State.streamStep (s, n) = ((s.outboxPut (s.mz.rest.take n)).setMz (fun m => { m with rest := m.rest.drop n }), 0) := by
  have hmz : s.setMz Meter.nextRest = s := by
    unfold State.setMz
    rw [Meter.nextRest_of_rest (List.ne_nil_of_length_pos (by omega))]
  obtain ⟨u, hu⟩ : ∃ u, u = (s.outboxPut (s.mz.rest.take n)).setMz (fun m => { m with rest := m.rest.drop n }) := ⟨_, rfl⟩
  have hrest : u.mz.rest.isEmpty = false := by
    have hdrop : u.mz.rest = s.mz.rest.drop n := by
      rw [hu]
      exact congrArg (fun m : Meter => m.rest.drop n) (s.outboxPut_says (s.mz.rest.take n)).1
    rw [hdrop, List.isEmpty_eq_false_iff]
    exact List.ne_nil_of_length_pos (by rw [List.length_drop]; omega)
  unfold State.streamStep
  dsimp only
  rw [hmz, Nat.min_eq_left (Nat.le_of_lt h), ← hu, hrest, Bool.and_false, Nat.sub_self]
  rfl

/-- With no bytes to move nothing changes. -/
theorem State.streamStep_zero {s : State} (h : s.mz.rest ≠ []) : State.streamStep (s, 0) = (s, 0) :=
  State.streamStep_of_lt (List.length_pos_iff.mpr h)

/-- RECORD_STREAM's steps. -/
def State.recordStreamed (s : State) (n : Nat) : State :=
  if s.mz.ready && s.mz.down.isNone then
    let room := 65536 - (s.rd Reg.stewardMzOutWr - s.rd Reg.stewardMzOutRd).toNat
    (((List.range (s.mz.ring.length + 1)).foldl (fun x _ => State.streamStep x) (s, min n room)).1).outboxDue
  else s

theorem exec_recordStream (n : Nat) (s : State) : exec (.recordStream n) s = act s (·.recordStreamed n) := rfl

/-- The bytes wanted leave the record under way in the first step, and the others move none. -/
theorem foldl_streamStep {s : State} {n : Nat} (h : n < s.mz.rest.length) (k : Nat) :
    (List.range (k + 1)).foldl (fun x _ => State.streamStep x) (s, n) =
      ((s.outboxPut (s.mz.rest.take n)).setMz (fun m => { m with rest := m.rest.drop n }), 0) := by
  induction k with
  | zero => exact State.streamStep_of_lt h
  | succ k ih =>
    have hmz := (s.outboxPut_says (s.mz.rest.take n)).1
    rw [List.range_succ, List.foldl_append, ih]
    refine State.streamStep_zero ?_
    show (s.outboxPut (s.mz.rest.take n)).mz.rest.drop n ≠ []
    rw [hmz]
    exact List.ne_nil_of_length_pos (by rw [List.length_drop]; omega)

theorem completes_recordStream (s : State) (n : Nat) (hready : s.mz.ready = true) (hdown : s.mz.down = none) (hrest : n < s.mz.rest.length)
    (hroom : n ≤ 65536 - (s.rd Reg.stewardMzOutWr - s.rd Reg.stewardMzOutRd).toNat) :
    Completes (.recordStream n) s (fun t => t.mz = { s.mz with rest := s.mz.rest.drop n } ∧
      t.rd Reg.stewardMzOutWr = s.rd Reg.stewardMzOutWr + BitVec.ofNat 32 n) := by
  obtain ⟨hmz, hwr⟩ := s.outboxPut_says (s.mz.rest.take n)
  obtain ⟨u, hu⟩ : ∃ u, u = (s.outboxPut (s.mz.rest.take n)).setMz (fun m => { m with rest := m.rest.drop n }) := ⟨_, rfl⟩
  have humz : u.mz = { s.mz with rest := s.mz.rest.drop n } := by
    rw [hu]
    exact congrArg (fun m : Meter => { m with rest := m.rest.drop n }) hmz
  have huwr : u.rd Reg.stewardMzOutWr = s.rd Reg.stewardMzOutWr + BitVec.ofNat 32 n := by
    have hlen : (s.mz.rest.take n).length = n := by rw [List.length_take]; omega
    rw [hlen] at hwr
    rw [hu]
    exact hwr
  have hrun : s.recordStreamed n = u.outboxDue := by
    unfold State.recordStreamed
    rw [if_pos (by rw [hready, hdown]; rfl)]
    dsimp only
    rw [Nat.min_eq_left hroom, foldl_streamStep hrest, hu]
  obtain ⟨hduemz, hduewr⟩ := u.outboxDue_keeps
  exact Completes.of_any u.outboxDue (exec_recordStream n s) hrun ⟨hduemz.trans humz, hduewr.trans huwr⟩

theorem completes_mzOutRdWrite (s : State) (v : Word) : Completes (.mzOutRdWrite v) s (fun t => t.rd Reg.stewardMzOutRd = v ∧
    t.mz = { s.mz with sent := s.mz.sent.filter (fun x => decide (2 ^ 31 ≤ (v - BitVec.ofNat 32 x.2).toNat)) } ∧
    OnlyFields s t [Fd.whole Reg.stewardMzOutRd] ∧ t = { s with regs := t.regs, mz := t.mz }) :=
  Completes.of_eq (s.mzOutRdWrite v) (f := (·.mzOutRdWrite v)) rfl rfl rfl rfl
    ⟨State.rd_wr_same s _ _, rfl, ((OnlyFields.refl s _).stepW Reg.stewardMzOutRd v (by simp)).of_regs rfl, rfl⟩

/-- Settles O49: the meter's queue, its intervals and the record stream, a command at a time. -/
theorem meterCountsClosesAndStreams : Obligations.MeterCountsClosesAndStreams := by
  unfold Obligations.MeterCountsClosesAndStreams
  exact ⟨exec_bindingEventApply_idle, completes_bindingEventApply, exec_holdingRebuild_none, completes_holdingRebuild,
    completes_intervalEnd_over, completes_intervalEnd_before, exec_intervalEnd_not_ready, completes_intervalClose,
    exec_intervalClose_waits, completes_recordStream, completes_mzOutRdWrite⟩

end Sys2Proof.Machine
end

section
/-! SUPPORT. The meter's signed commands (O50). -/

open Sys2Proof Sys2Proof.Machine

namespace Sys2Proof.Machine

/-- The mirror does not write MZ_CMD_STAT (R343, R351). -/
theorem State.mirror_cmdStat (s : State) : s.mirror.rd Reg.mzCmdStat = s.rd Reg.mzCmdStat := by
  rw [State.mirror_eq]
  split
  · rfl
  · have hfields : (s.setFs s.mz.mirrorFields).rd Reg.mzCmdStat = s.rd Reg.mzCmdStat := by
      have haddr : ∀ x ∈ s.mz.mirrorFields, Reg.mzCmdStat ≠ x.1.addr := by
        have hnot : Reg.mzCmdStat ∉ s.mz.mirrorFields.map (fun x => x.1.addr) := by
          show Reg.mzCmdStat ∉ [Reg.mzStat, Reg.mzStat, Reg.mzStat, Reg.mzStat, Reg.mzStat, Reg.mzStat, Reg.mzStat, Reg.mzStat,
            Reg.mzQueue, Reg.mzQueue, Reg.mzBoot, Reg.mzIntLen]
          decide
        exact fun x hx he => hnot (he ▸ List.mem_map_of_mem (f := fun x : Fd × Nat => x.1.addr) hx)
      exact List.foldlRecOn (motive := fun t : State => t.rd Reg.mzCmdStat = s.rd Reg.mzCmdStat) _ _ rfl
        (fun t ht x hx => (State.rd_setF_ne _ _ _ _ (haddr x hx)).trans ht)
    have haddr : ∀ x ∈ s.mz.mirrorCounts, Reg.mzCmdStat ≠ x.1 ∧ Reg.mzCmdStat ≠ x.2.1 := by
      have hnot : ∀ y ∈ s.mz.mirrorCounts.map (fun x => (x.1, x.2.1)), Reg.mzCmdStat ≠ y.1 ∧ Reg.mzCmdStat ≠ y.2 := by
        show ∀ y ∈ [(Reg.mzAuditLo, Reg.mzAuditHi), (Reg.mzSeqLo, Reg.mzSeqHi), (Reg.mzOldestLo, Reg.mzOldestHi),
          (Reg.mzIntNoLo, Reg.mzIntNoHi), (Reg.mzIntStartLo, Reg.mzIntStartHi), (Reg.mzNonceLo, Reg.mzNonceHi), (Reg.mzMrtcLo, Reg.mzMrtcHi)],
          Reg.mzCmdStat ≠ y.1 ∧ Reg.mzCmdStat ≠ y.2
        decide
      exact fun x hx => hnot _ (List.mem_map_of_mem (f := fun x : Nat × Nat × Nat => (x.1, x.2.1)) hx)
    exact List.foldlRecOn (motive := fun t : State => t.rd Reg.mzCmdStat = s.rd Reg.mzCmdStat) _ _ hfields
      (fun t ht x hx => (rd_set64_ne _ _ _ _ _ (haddr x hx).1 (haddr x hx).2).trans ht)

/-- Every verdict is a code of R343. -/
theorem Meter.verdict_lt (m : Meter) (c : List Byte) : m.verdict c < 256 := by
  unfold Meter.verdict
  dsimp only
  split_ifs <;> decide

/-- A command's end: its verdict, and a nonce drawn anew (R343). -/
def State.commandDone (s : State) (v : Nat) : State :=
  let d := s.draw 64
  ((d.2.setMz (fun m => { m with nonce := d.1 })).setFs
    [(Fld.mzCmdStatBusy, 0), (Fld.mzCmdStatResult, v), (Fld.stewardMzInboxCtlBusy, 0)]).mirror

/-- A command's effect, under its verdict (R341 to R343). -/
def State.commandTaken (s : State) (c : List Byte) (v : Nat) : State :=
  if v ≠ 0 then s
  else if mArg c 0 = 0x10 then s.setMz (fun m => { m with nextRec := mArg c 4 + 2 ^ 32 * mArg c 8 })
  else
    let x := s.mz.accept c s.tick
    let s := s.setMz (fun _ => { x.1 with audit := x.1.audit + 1 })
    let m := s.mz
    s.makeRec { kind := 2, no := m.intNo, t0 := s.tick, t1 := s.tick, mrtc0 := m.mrtc, mrtc1 := m.mrtc, par := m.parAfter,
                body := c ++ leBytes 4 m.boot ++ leBytes 4 0 ++ leBytes 8 (m.intNo + x.2) }

theorem State.inbox_setMz (s : State) (f : Meter → Meter) : (s.setMz f).inbox = s.inbox := by
  unfold State.inbox
  rfl

/-- The command in the inbox is checked with the intervals up to date, takes its effect, and ends. -/
theorem State.meterCommand_eq (s u : State) (h : u = s.setMz (fun m => m.roll s.tick)) : s.meterCommand =
    (u.commandTaken u.inbox (u.mz.verdict u.inbox)).commandDone (u.mz.verdict u.inbox) := by
  unfold State.meterCommand State.commandDone State.commandTaken
  dsimp only
  rw [← h]

theorem State.commandDone_says (s : State) {v : Nat} (h : v < 256) :
    (s.commandDone v).getF Fld.stewardMzInboxCtlBusy = 0 ∧ (s.commandDone v).getF Fld.mzCmdStatBusy = 0 ∧
    (s.commandDone v).getF Fld.mzCmdStatResult = v ∧ (s.commandDone v).mz = { s.mz with nonce := Config.freeValue 64 s.freeCtr } ∧
    (s.commandDone v).freeCtr = s.freeCtr + 1 ∧
    s.commandDone v = { s with regs := (s.commandDone v).regs, freeCtr := (s.commandDone v).freeCtr, mz := (s.commandDone v).mz } := by
  obtain ⟨u, hu⟩ : ∃ u : State, u = { s with freeCtr := s.freeCtr + 1, mz := { s.mz with nonce := Config.freeValue 64 s.freeCtr } } := ⟨_, rfl⟩
  obtain ⟨w, hw⟩ : ∃ w, w = u.setFs [(Fld.mzCmdStatBusy, 0), (Fld.mzCmdStatResult, v), (Fld.stewardMzInboxCtlBusy, 0)] := ⟨_, rfl⟩
  have hdone : s.commandDone v = w.mirror := by rw [hw, hu]; rfl
  have hwu : RO u w := hw ▸ State.setFs_eq _ _
  have hro : RO u w.mirror := hwu.trans w.mirror_regs
  have hbox : w.getF Fld.stewardMzInboxCtlBusy = 0 := by
    rw [hw, setFs3]
    exact getF_fit _ _ _ (by decide) (by decide)
  have hbusy : w.getF Fld.mzCmdStatBusy = 0 := by
    rw [hw, setFs3, State.getF_setF_ne _ Fld.stewardMzInboxCtlBusy _ _ (by decide), State.getF_setF_ne _ Fld.mzCmdStatResult _ _ (by decide)]
    exact getF_fit _ _ _ (by decide) (by decide)
  have hresult : w.getF Fld.mzCmdStatResult = v := by
    rw [hw, setFs3, State.getF_setF_ne _ Fld.stewardMzInboxCtlBusy _ _ (by decide)]
    exact getF_fit _ _ _ (by decide) h
  have hcmd : ∀ g : Fd, g.addr = Reg.mzCmdStat → w.mirror.getF g = w.getF g := fun g hg => getF_addr g (by rw [hg]; exact w.mirror_cmdStat)
  rw [hdone]
  refine ⟨(getF_addr _ (w.mirror_only.2 _ (by decide))).trans hbox, (hcmd _ rfl).trans hbusy, (hcmd _ rfl).trans hresult, ?_, ?_, ?_⟩
  · rw [State.mirror_mz, hwu, hu]
  · rw [hro, hu]
  · rw [hro, hu]

/-- An accepted command changes the parameters or what waits. -/
theorem Meter.accept_eq (m : Meter) (c : List Byte) (t : Nat) :
    (m.accept c t).1 = { m with par := (m.accept c t).1.par, due := (m.accept c t).1.due } := by
  unfold Meter.accept
  dsimp only
  split
  · rfl
  · rfl
  · rfl
  · split <;> rfl

theorem Meter.accept_addBkey {m : Meter} {c : List Byte} (t : Nat) (h : mArg c 0 = 0x01) :
    (m.accept c t).1.key (mArg c 4) = ⟨true, false, bytesAt c 0x28 97⟩ := by
  unfold Meter.accept
  rw [h]
  exact Tbl.get_set_same _ _ _ _

theorem Meter.accept_retireBkey {m : Meter} {c : List Byte} (t : Nat) (h : mArg c 0 = 0x02) :
    (m.accept c t).1.key (mArg c 4) = { m.key (mArg c 4) with retired := true } := by
  unfold Meter.accept
  rw [h]
  exact Tbl.get_set_same _ _ _ _

theorem Meter.accept_setAnchor {m : Meter} {c : List Byte} (t : Nat) (h : mArg c 0 = 0x06) :
    (m.accept c t).1.par = { m.par with anchor := (mArg c 4 + 2 ^ 32 * mArg c 8, m.mrtc) } := by
  unfold Meter.accept
  rw [h]
  rfl

/-- A map or length change waits for its interval. -/
theorem Meter.accept_change {m : Meter} {c : List Byte} (t : Nat) (h : mArg c 0 = 0x03 ∨ mArg c 0 = 0x04 ∨ mArg c 0 = 0x05) :
    (m.accept c t).1.par = m.par ∧ (m.accept c t).1.due = m.due ++ [(m.wait t,
      if mArg c 0 = 0x03 then .sc (mArg c 4) (mArg c 8 % 2 ^ 15) (mArg c 8 / 2 ^ 31 * 2 ^ 15 + mArg c 8 / 2 ^ 16 % 4096)
      else if mArg c 0 = 0x04 then .plot (mArg c 4) (mArg c 8 / 2 ^ 31 * 2 ^ 15 + mArg c 8 % 4096)
      else .len (mArg c 4))] := by
  unfold Meter.accept mChange
  rcases h with h | h | h <;> rw [h] <;> exact ⟨rfl, rfl⟩

/-- An accepted command, READ_FROM apart, is counted and recorded; its effect on the parameters stands. -/
theorem State.commandTaken_accepted {s : State} {c : List Byte} (hcode : mArg c 0 ≠ 0x10) (hmem : s.mz.memBad = false) :
    (s.commandTaken c 0).mz.par = (s.mz.accept c s.tick).1.par ∧ (s.commandTaken c 0).mz.due = (s.mz.accept c s.tick).1.due ∧
    (s.commandTaken c 0).mz.audit = s.mz.audit + 1 ∧ (s.mz.keyGone = false → (s.commandTaken c 0).mz.seq = s.mz.seq + 1) := by
  obtain ⟨m, hm⟩ : ∃ m : Meter, m = { (s.mz.accept c s.tick).1 with audit := (s.mz.accept c s.tick).1.audit + 1 } := ⟨_, rfl⟩
  obtain ⟨u, hu⟩ : ∃ u, u = s.setMz (fun _ => m) := ⟨_, rfl⟩
  have humz : u.mz = m := by rw [hu]; rfl
  have haudit : m.audit = s.mz.audit + 1 := by rw [hm, Meter.accept_eq]
  have hseq : m.seq = s.mz.seq := by rw [hm, Meter.accept_eq]
  have hmmem : u.mz.memBad = false := by rw [humz, hm, Meter.accept_eq]; exact hmem
  have hmkey : u.mz.keyGone = s.mz.keyGone := by rw [humz, hm, Meter.accept_eq]
  obtain ⟨r, hr⟩ : ∃ r, s.commandTaken c 0 = u.makeRec r := ⟨_, by
    unfold State.commandTaken
    rw [if_neg (by simp), if_neg hcode, hu, hm]⟩
  rw [hr]
  refine ⟨?_, ?_, ?_, fun hkey => ?_⟩
  · rw [State.makeRec_mz, humz, hm]
  · rw [State.makeRec_mz, humz, hm]
  · rw [State.makeRec_mz, humz]; exact haudit
  · rw [State.makeRec_seq r hmmem (hmkey.trans hkey), humz, hseq]

/-- A command takes its effect in the meter alone. -/
theorem State.commandTaken_mz (s : State) (c : List Byte) (v : Nat) : s.commandTaken c v = { s with mz := (s.commandTaken c v).mz } := by
  unfold State.commandTaken
  dsimp only
  split
  · rfl
  · split <;> rfl

/-- Each signed command's row (R342). -/
theorem exec_meterRow {k : Nat} {c : Instr} (s : State) (h : [(0x01, Instr.addBkey), (0x02, .retireBkey), (0x03, .setScMap), (0x04, .setPlotMap),
    (0x05, .setInterval), (0x06, .setAnchor), (0x10, .readFrom)].contains (k, c) = true) : exec c s = act s (·.meterRow k) := by
  rw [List.contains_iff_mem] at h
  simp only [List.mem_cons, Prod.mk.injEq, List.not_mem_nil, or_false] at h
  rcases h with ⟨rfl, rfl⟩ | ⟨rfl, rfl⟩ | ⟨rfl, rfl⟩ | ⟨rfl, rfl⟩ | ⟨rfl, rfl⟩ | ⟨rfl, rfl⟩ | ⟨rfl, rfl⟩ <;> rfl

theorem Meter.memBad_of_working {m : Meter} (h : m.working = true) : m.memBad = false := by
  unfold Meter.working at h
  simp only [Bool.and_eq_true, Bool.not_eq_true'] at h
  exact h.2

/-- Settles O50: a row of the inbox's command checks it with the intervals up to date, takes its effect, and ends it. -/
theorem meterCommandsTakeEffectOnce : Obligations.MeterCommandsTakeEffectOnce := by
  unfold Obligations.MeterCommandsTakeEffectOnce
  refine fun s k c hrow => ⟨fun hidle => ?_, fun hbusy hworking hcode m hm => ?_⟩
  · refine exec_of_act s (exec_meterRow s hrow) (if_neg ?_) rfl rfl
    rintro ⟨hbusy, hworking, hcode⟩
    rcases hidle with h | h | h
    · exact h hbusy
    · rw [h] at hworking
      exact Bool.false_ne_true hworking
    · exact h hcode
  obtain ⟨u, hu⟩ : ∃ u, u = s.setMz (fun m => m.roll s.tick) := ⟨_, rfl⟩
  obtain ⟨v, hv⟩ : ∃ v, v = m.verdict s.inbox := ⟨_, rfl⟩
  obtain ⟨w, hw⟩ : ∃ w, w = u.commandTaken s.inbox v := ⟨_, rfl⟩
  have humz : u.mz = m := by rw [hu, hm]; rfl
  have hutick : u.tick = s.tick := by rw [hu]; rfl
  have hmem : u.mz.memBad = false := by rw [humz, hm, Meter.roll_memBad]; exact Meter.memBad_of_working hworking
  have hws : w = { s with mz := w.mz } := by rw [hw, u.commandTaken_mz, hu]; rfl
  obtain ⟨hbox, hcmd, hresult, hmz, hctr, hframe⟩ := w.commandDone_says (hv ▸ m.verdict_lt s.inbox)
  have hrun : s.meterRow k = w.commandDone v := by
    have hbox : u.inbox = s.inbox := by rw [hu, State.inbox_setMz]
    unfold State.meterRow
    rw [if_pos ⟨hbusy, hworking, hcode⟩, s.meterCommand_eq u hu, hbox, humz, ← hv, ← hw]
  refine Completes.of_eq (w.commandDone v) (exec_meterRow s hrow) hrun (by rw [hframe, hws]) (by rw [hframe, hws]) ?_
  rw [← hv]
  have hwctr : w.freeCtr = s.freeCtr := by rw [hws]
  have htaken : v = 0 → k ≠ 0x10 → w.mz.par = (m.accept s.inbox s.tick).1.par ∧ w.mz.due = (m.accept s.inbox s.tick).1.due ∧
      w.mz.audit = m.audit + 1 ∧ (m.keyGone = false → w.mz.seq = m.seq + 1) := by
    intro h0 hk
    rw [hw, h0, ← humz, ← hutick]
    exact State.commandTaken_accepted (hcode ▸ hk) hmem
  refine ⟨hbox, hcmd, hresult, by rw [hmz, hwctr], hctr.trans (by rw [hwctr]), ?_, fun hne => ?_, fun h0 hk => ?_, fun h0 hk => ?_,
    fun h0 hk => ?_, fun h0 hk => ?_, fun h0 hk => ?_, fun h0 hk => ?_⟩
  · rw [hframe, hws]
  · have hwmz : w.mz = m := by rw [hw, ← humz]; exact congrArg State.mz (if_pos hne)
    rw [hmz, hwmz]
  · have hwmz : w.mz = { m with nextRec := mArg s.inbox 4 + 2 ^ 32 * mArg s.inbox 8 } := by
      rw [hw, ← humz]
      unfold State.commandTaken
      rw [if_neg (by simp [h0]), if_pos (hcode.trans hk)]
      rfl
    rw [hmz, hwmz]
  · obtain ⟨-, -, haudit, hseq⟩ := htaken h0 hk
    rw [hmz]
    exact ⟨haudit, hseq⟩
  · obtain ⟨hpar, -, -, -⟩ := htaken h0 (by omega)
    rw [hmz]
    unfold Meter.key
    rw [hpar]
    exact Meter.accept_addBkey s.tick (hcode.trans hk)
  · obtain ⟨hpar, -, -, -⟩ := htaken h0 (by omega)
    rw [hmz, ← Meter.accept_retireBkey s.tick (hcode.trans hk)]
    unfold Meter.key
    rw [hpar]
  · obtain ⟨hpar, -, -, -⟩ := htaken h0 (by omega)
    rw [hmz, ← Meter.accept_setAnchor s.tick (hcode.trans hk)]
    exact hpar
  · obtain ⟨hpar, hdue, -, -⟩ := htaken h0 (by omega)
    obtain ⟨hparm, hduem⟩ := Meter.accept_change (m := m) (c := s.inbox) s.tick (by rw [hcode]; exact hk)
    rw [hcode] at hduem
    rw [hmz]
    exact ⟨hpar.trans hparm, hdue.trans hduem⟩

end Sys2Proof.Machine
end

section
/-! SUPPORT. What the world around the meter does to it (O51). -/

open Sys2Proof Sys2Proof.Machine

namespace Sys2Proof.Machine

/-! ### EVENT records made, and those that wait (R346, R347) -/

/-- Nothing differs but what making records, or keeping them for later, may change. -/
def RecordsOnly (m n : Meter) : Prop :=
  n = { m with stamps := n.stamps, late := n.late, seq := n.seq, prev := n.prev, lost := n.lost, ring := n.ring }

theorem RecordsOnly.refl (m : Meter) : RecordsOnly m m := rfl

theorem RecordsOnly.trans {m n o : Meter} (h : RecordsOnly m n) (g : RecordsOnly n o) : RecordsOnly m o := by
  unfold RecordsOnly at h g ⊢
  rw [g, h]

theorem State.eventRec_records (s : State) (code detail t : Nat) : RecordsOnly s.mz (s.eventRec code detail t).mz := s.eventRec_mz _ _ _

/-- EVENT records may be made at once. -/
def Meter.records (m : Meter) : Prop := m.stopped = none ∧ m.down = none ∧ m.memBad = false ∧ m.keyGone = false

/-- EVENT records wait. -/
def Meter.waits (m : Meter) : Prop := m.stopped ≠ none ∨ m.down ≠ none

theorem RecordsOnly.records {m n : Meter} (h : RecordsOnly m n) (g : m.records) : n.records := by rw [h]; exact g
theorem RecordsOnly.waits {m n : Meter} (h : RecordsOnly m n) (g : m.waits) : n.waits := by rw [h]; exact g

theorem State.eventRec_of_records {s : State} (code detail t : Nat) (h : s.mz.records) :
    (s.eventRec code detail t).mz.seq = s.mz.seq + 1 ∧ (s.eventRec code detail t).mz.late = s.mz.late := by
  obtain ⟨hstop, hdown, hmem, hkey⟩ := h
  obtain ⟨r, hr⟩ := State.eventRec_made (s := s) code detail t hstop hdown
  rw [hr]
  exact ⟨State.makeRec_seq r hmem hkey, by rw [State.makeRec_mz]⟩

theorem State.eventRec_of_waits {s : State} (code detail t : Nat) (h : s.mz.waits) :
    (s.eventRec code detail t).mz.seq = s.mz.seq ∧ (s.eventRec code detail t).mz.late = s.mz.late ++ [(code, detail, t)] := by
  rw [State.eventRec_waits code detail t h]
  refine ⟨?_, rfl⟩
  show (s.mz.keepStamp s.tick).seq = s.mz.seq
  rw [Meter.keepStamp_eq]

/-- Records made one after another. -/
def State.eventRecs (s : State) (l : List (Nat × Nat × Nat)) : State := l.foldl (fun s x => s.eventRec x.1 x.2.1 x.2.2) s

theorem State.eventRecs_only (s : State) (l : List (Nat × Nat × Nat)) : MeterOnly s (s.eventRecs l) :=
  List.foldlRecOn _ _ (MeterOnly.refl s) (fun t h _ _ => h.trans (t.eventRec_only _ _ _))

theorem State.eventRecs_records (s : State) (l : List (Nat × Nat × Nat)) : RecordsOnly s.mz (s.eventRecs l).mz :=
  List.foldlRecOn (motive := fun t : State => RecordsOnly s.mz t.mz) _ _ (RecordsOnly.refl s.mz) (fun t h _ _ => h.trans (t.eventRec_records _ _ _))

theorem State.eventRecs_of_records {s : State} (l : List (Nat × Nat × Nat)) (h : s.mz.records) :
    (s.eventRecs l).mz.seq = s.mz.seq + l.length ∧ (s.eventRecs l).mz.late = s.mz.late := by
  induction l generalizing s with
  | nil => exact ⟨rfl, rfl⟩
  | cons x l ih =>
    obtain ⟨hseq, hlate⟩ := State.eventRec_of_records x.1 x.2.1 x.2.2 h
    obtain ⟨hseqs, hlates⟩ := ih ((s.eventRec_records x.1 x.2.1 x.2.2).records h)
    refine ⟨hseqs.trans ?_, hlates.trans hlate⟩
    rw [hseq, List.length_cons]
    omega

theorem State.eventRecs_of_waits {s : State} (l : List (Nat × Nat × Nat)) (h : s.mz.waits) :
    (s.eventRecs l).mz.seq = s.mz.seq ∧ (s.eventRecs l).mz.late = s.mz.late ++ l := by
  induction l generalizing s with
  | nil => exact ⟨rfl, (List.append_nil _).symm⟩
  | cons x l ih =>
    obtain ⟨hseq, hlate⟩ := State.eventRec_of_waits x.1 x.2.1 x.2.2 h
    obtain ⟨hseqs, hlates⟩ := ih ((s.eventRec_records x.1 x.2.1 x.2.2).waits h)
    refine ⟨hseqs.trans hseq, hlates.trans ?_⟩
    rw [hlate, List.append_assoc]
    rfl

/-- The records that waited are made, or wait again. -/
theorem State.lateRecs_eq (s : State) : s.lateRecs = (s.setMz (fun m => { m with late := [] })).eventRecs s.mz.late := rfl

theorem State.lateRecs_records (s : State) : RecordsOnly s.mz s.lateRecs.mz := by
  rw [State.lateRecs_eq]
  exact (show RecordsOnly s.mz (s.setMz (fun m => { m with late := [] })).mz from rfl).trans (State.eventRecs_records _ _)

theorem Meter.stampsDone_records (m : Meter) : RecordsOnly m m.stampsDone := by
  unfold Meter.stampsDone
  split <;> rfl

theorem Meter.stampsDone_seq (m : Meter) : m.stampsDone.seq = m.seq := by unfold Meter.stampsDone; split <;> rfl
theorem Meter.stampsDone_late (m : Meter) : m.stampsDone.late = m.late := by unfold Meter.stampsDone; split <;> rfl

/-- The two records of a stop or a lost link that is over, and those that waited between them (R346, R347). -/
def State.crossed (s : State) (a b : Nat × Nat × Nat) : State :=
  ((s.eventRec a.1 a.2.1 a.2.2).lateRecs.eventRec b.1 b.2.1 b.2.2).setMz Meter.stampsDone

theorem State.crossed_records (s : State) (a b : Nat × Nat × Nat) : RecordsOnly s.mz (s.crossed a b).mz :=
  (((s.eventRec_records _ _ _).trans (State.lateRecs_records _)).trans (State.eventRec_records _ _ _ _)).trans (Meter.stampsDone_records _)

theorem State.crossed_only (s : State) (a b : Nat × Nat × Nat) : MeterOnly s (s.crossed a b) :=
  (((s.eventRec_only _ _ _).trans ((MeterOnly.setMz _ _).trans (State.eventRecs_only _ _))).trans (State.eventRec_only _ _ _ _)).trans
    (MeterOnly.setMz _ _)

theorem State.crossed_of_records {s : State} (a b : Nat × Nat × Nat) (h : s.mz.records) :
    (s.crossed a b).mz.seq = s.mz.seq + 2 + s.mz.late.length ∧ (s.crossed a b).mz.late = [] := by
  obtain ⟨u, hu⟩ : ∃ u, u = s.eventRec a.1 a.2.1 a.2.2 := ⟨_, rfl⟩
  obtain ⟨v, hv⟩ : ∃ v, v = u.setMz (fun m => { m with late := [] }) := ⟨_, rfl⟩
  obtain ⟨hseq, hlate⟩ := State.eventRec_of_records a.1 a.2.1 a.2.2 h
  have huv : RecordsOnly u.mz v.mz := by rw [hv]; rfl
  have hvseq : v.mz.seq = u.mz.seq := by rw [hv]; rfl
  have hrecu : u.mz.records := hu ▸ (s.eventRec_records _ _ _).records h
  obtain ⟨hvs, hvl⟩ := State.eventRecs_of_records u.mz.late (huv.records hrecu)
  obtain ⟨hlast, hnone⟩ := State.eventRec_of_records b.1 b.2.1 b.2.2 ((v.eventRecs_records u.mz.late).records (huv.records hrecu))
  have hcrossed : s.crossed a b = ((v.eventRecs u.mz.late).eventRec b.1 b.2.1 b.2.2).setMz Meter.stampsDone := by rw [hv, hu]; rfl
  rw [hcrossed]
  constructor
  · rw [← hu] at hseq hlate
    refine (Meter.stampsDone_seq _).trans ?_
    rw [hlast, hvs, hvseq, hseq, hlate]
    omega
  · refine (Meter.stampsDone_late _).trans ?_
    rw [hnone, hvl, hv]
    rfl

theorem State.crossed_of_waits {s : State} (a b : Nat × Nat × Nat) (h : s.mz.waits) :
    (s.crossed a b).mz.seq = s.mz.seq ∧ (s.crossed a b).mz.late = s.mz.late ++ [a, b] := by
  obtain ⟨u, hu⟩ : ∃ u, u = s.eventRec a.1 a.2.1 a.2.2 := ⟨_, rfl⟩
  obtain ⟨v, hv⟩ : ∃ v, v = u.setMz (fun m => { m with late := [] }) := ⟨_, rfl⟩
  obtain ⟨hseq, hlate⟩ := State.eventRec_of_waits a.1 a.2.1 a.2.2 h
  have huv : RecordsOnly u.mz v.mz := by rw [hv]; rfl
  have hvseq : v.mz.seq = u.mz.seq := by rw [hv]; rfl
  have hvlate : v.mz.late = [] := by rw [hv]; rfl
  have hwaitu : u.mz.waits := hu ▸ (s.eventRec_records _ _ _).waits h
  obtain ⟨hvs, hvl⟩ := State.eventRecs_of_waits u.mz.late (huv.waits hwaitu)
  obtain ⟨hlast, hlasts⟩ := State.eventRec_of_waits b.1 b.2.1 b.2.2 ((v.eventRecs_records u.mz.late).waits (huv.waits hwaitu))
  have hcrossed : s.crossed a b = ((v.eventRecs u.mz.late).eventRec b.1 b.2.1 b.2.2).setMz Meter.stampsDone := by rw [hv, hu]; rfl
  rw [hcrossed]
  rw [← hu] at hseq hlate
  constructor
  · refine (Meter.stampsDone_seq _).trans ?_
    rw [hlast, hvs, hvseq, hseq]
  · refine (Meter.stampsDone_late _).trans ?_
    rw [hlasts, hvl, hvlate, hlate, List.nil_append, List.append_assoc]
    rfl

/-! ### The supply (R346) -/

/-- A rail monitor trips. -/
def State.supplyTripped (s : State) (io : Bool) : State :=
  if s.mz.stopped.isSome || !s.mz.ready then s
  else (s.setMz (fun m => { m.keepStamp s.tick with stopped := some (s.tick, bit io) })).mirror

theorem exec_meterSupplyTrip (io : Bool) (s : State) : exec (.meterSupplyTrip io) s = act s (·.supplyTripped io) := rfl

theorem completes_meterSupplyTrip (s : State) (io : Bool) (hready : s.mz.ready = true) (hstop : s.mz.stopped = none) :
    Completes (.meterSupplyTrip io) s (fun t => t.mz = { s.mz.keepStamp s.tick with stopped := some (s.tick, bit io) } ∧ MeterOnly s t) := by
  obtain ⟨u, hu⟩ : ∃ u, u = s.setMz (fun m => { m.keepStamp s.tick with stopped := some (s.tick, bit io) }) := ⟨_, rfl⟩
  have honly : MeterOnly s u.mirror := (hu ▸ MeterOnly.setMz s _).trans u.mirror_only
  have hrun : s.supplyTripped io = u.mirror := by
    unfold State.supplyTripped
    rw [if_neg (by simp [hready, hstop]), hu]
  refine Completes.of_eq u.mirror (exec_meterSupplyTrip io s) hrun (by rw [honly.1]) (by rw [honly.1]) ⟨?_, honly⟩
  rw [State.mirror_mz, hu]
  rfl

theorem exec_meterSupplyTrip_idle (s : State) (io : Bool) (h : s.mz.ready = false ∨ s.mz.stopped ≠ none) :
    exec (.meterSupplyTrip io) s = .next s := by
  refine exec_of_act s (exec_meterSupplyTrip io s) (if_pos ?_) rfl rfl
  rcases h with h | h
  · simp [h]
  · simp [Option.isSome_iff_ne_none.mpr h]

/-- Counting resumes at a furlong boundary. -/
def State.supplyResumed (s : State) : State :=
  match s.mz.stopped with
  | none => s
  | some x =>
    if s.phase = 0 then
      ((s.setMz (fun m => { m with stopped := none, frozen := m.frozen ++ [(x.1, s.tick)] })).crossed (2, x.2, x.1) (3, x.2, s.tick)).mirror
    else s

theorem exec_meterSupplyResume (s : State) : exec .meterSupplyResume s = act s (·.supplyResumed) := rfl

theorem completes_meterSupplyResume (s : State) (x : Nat × Nat) (hstop : s.mz.stopped = some x) (hphase : s.phase = 0) :
    Completes .meterSupplyResume s (fun t => t.mz.stopped = none ∧ t.mz.frozen = s.mz.frozen ++ [(x.1, s.tick)] ∧
      (s.mz.down = none → s.mz.memBad = false → s.mz.keyGone = false → t.mz.seq = s.mz.seq + 2 + s.mz.late.length ∧ t.mz.late = []) ∧
      (s.mz.down ≠ none → t.mz.seq = s.mz.seq ∧ t.mz.late = s.mz.late ++ [(2, x.2, x.1), (3, x.2, s.tick)]) ∧ MeterOnly s t) := by
  obtain ⟨m, hm⟩ : ∃ m : Meter, m = { s.mz with stopped := none, frozen := s.mz.frozen ++ [(x.1, s.tick)] } := ⟨_, rfl⟩
  obtain ⟨u, hu⟩ : ∃ u, u = s.setMz (fun _ => m) := ⟨_, rfl⟩
  obtain ⟨w, hw⟩ : ∃ w, w = u.crossed (2, x.2, x.1) (3, x.2, s.tick) := ⟨_, rfl⟩
  have humz : u.mz = m := by rw [hu]; rfl
  have hseq : u.mz.seq = s.mz.seq := by rw [humz, hm]
  have hlate : u.mz.late = s.mz.late := by rw [humz, hm]
  have honly : MeterOnly s w.mirror := ((hu ▸ MeterOnly.setMz s _).trans (hw ▸ u.crossed_only _ _)).trans w.mirror_only
  have hrec : RecordsOnly u.mz w.mz := hw ▸ u.crossed_records _ _
  have hrun : s.supplyResumed = w.mirror := by
    unfold State.supplyResumed
    rw [hstop, hw, hu, hm]
    exact if_pos hphase
  refine Completes.of_eq w.mirror (exec_meterSupplyResume s) hrun (by rw [honly.1]) (by rw [honly.1]) ?_
  rw [State.mirror_mz]
  refine ⟨by rw [hrec, humz, hm], by rw [hrec, humz, hm], fun h1 h2 h3 => ?_, fun h => ?_, honly⟩
  · have hready : u.mz.records := by rw [humz, hm]; exact ⟨rfl, h1, h2, h3⟩
    rw [← hseq, ← hlate, hw]
    exact State.crossed_of_records _ _ hready
  · have hwaits : u.mz.waits := .inr (by rw [humz, hm]; exact h)
    rw [← hseq, ← hlate, hw]
    exact State.crossed_of_waits _ _ hwaits

theorem exec_meterSupplyResume_waits (s : State) (h : s.mz.stopped = none ∨ s.phase ≠ 0) : exec .meterSupplyResume s = .next s := by
  refine exec_of_act s (exec_meterSupplyResume s) ?_ rfl rfl
  unfold State.supplyResumed
  split
  · rfl
  · rename_i x hx
    exact if_neg (h.resolve_left (by rw [hx]; exact Option.some_ne_none x))

/-! ### The link (R347) -/

theorem completes_meterLinkLoss (s : State) (h : s.mz.down = none) :
    Completes .meterLinkLoss s (fun t => t.mz = { s.mz.keepStamp s.tick with down := some s.tick, lost := true } ∧
      t.flt = { s.flt with tickEvents := s.flt.tickEvents ++ [{ src := 0x15, tick := s.tick }] } ∧
      OnlyFields s t [Fld.mzStatLinkLost] ∧ t = { s with regs := t.regs, flt := t.flt, mz := t.mz }) := by
  obtain ⟨u, hu⟩ : ∃ u, u = ((s.setF Fld.mzStatLinkLost (bit s.mz.ready)).setMz
      (fun m => { m.keepStamp s.tick with down := some s.tick, lost := true })).raise { src := 0x15, tick := s.tick } := ⟨_, rfl⟩
  have hrun : s.meterLinkLoss = u := by
    unfold State.meterLinkLoss
    rw [if_neg (by simp [h]), hu]
    rfl
  refine Completes.of_eq u (f := (·.meterLinkLoss)) rfl hrun (by rw [hu]; rfl) (by rw [hu]; rfl)
    ⟨by rw [hu]; rfl, by rw [hu]; rfl, ?_, by rw [hu]; rfl⟩
  exact ((OnlyFields.refl s _).stepF Fld.mzStatLinkLost (bit s.mz.ready) (by simp)).of_regs (by rw [hu]; rfl)

theorem exec_meterLinkLoss_down (s : State) (h : s.mz.down ≠ none) : exec .meterLinkLoss s = .next s :=
  exec_of_act s (f := (·.meterLinkLoss)) rfl (if_pos (Option.isSome_iff_ne_none.mpr h)) rfl rfl

/-- A meter clock that had tripped is in range again, and the tally PLL leaves holdover (R412, R413). -/
def State.meterClockBack (s : State) : State :=
  let s := if s.getF Fld.cprClkmonStatMeter = 0 then s
    else { s with cpr := { s.cpr with fell := Tbl.set (fun _ => none) s.cpr.fell 17 (some s.tick) } }
  s.setFs [(Fld.cprClkmonStatMeter, 0), (Fld.cprClkStatTallyHoldover, 0)]

/-- The link is up again: its two records, and the mirror filled. -/
def State.linkReturned (s : State) : State :=
  match s.mz.down with
  | none => s
  | some t =>
    let s := (s.setMz (fun m => { m with down := none })).meterClockBack
    if s.mz.ready then (s.crossed (5, 0, t) (6, 0, s.tick)).mirrorMaps.mirror else s

theorem exec_meterLinkReturn (s : State) : exec .meterLinkReturn s = act s (·.linkReturned) := rfl

theorem State.meterClockBack_says (s : State) :
    s.meterClockBack.getF Fld.cprClkmonStatMeter = 0 ∧ s.meterClockBack.getF Fld.cprClkStatTallyHoldover = 0 ∧
    s.meterClockBack = { s with regs := s.meterClockBack.regs, cpr := s.meterClockBack.cpr } := by
  obtain ⟨u, hu⟩ : ∃ u : State, u = if s.getF Fld.cprClkmonStatMeter = 0 then s
    else { s with cpr := { s.cpr with fell := Tbl.set (fun _ => none) s.cpr.fell 17 (some s.tick) } } := ⟨_, rfl⟩
  have husame : u = { s with cpr := u.cpr } := by
    rw [hu]
    split <;> rfl
  have hback : s.meterClockBack = (u.setF Fld.cprClkmonStatMeter 0).setF Fld.cprClkStatTallyHoldover 0 := by rw [hu]; rfl
  rw [hback]
  refine ⟨?_, getF_fit _ _ _ (by decide) (by decide), ?_⟩
  · rw [State.getF_setF_ne _ Fld.cprClkStatTallyHoldover _ _ (by decide)]
    exact getF_fit _ _ _ (by decide) (by decide)
  · rw [husame]
    rfl

/-- A map's mirror lies at and above its base. -/
theorem mirrorMap_below (regs : Tbl Word) (base words : Nat) (map : Tbl Nat) {a : Nat} (h : a < base) :
    Tbl.get regReset (mirrorMap regs base words map) a = Tbl.get regReset regs a := by
  refine List.foldlRecOn (motive := fun t : Tbl Word => Tbl.get regReset t a = Tbl.get regReset regs a) _ _ ?_ (fun t ht e _ => ?_)
  · rw [Tbl.get_clear, if_neg (by omega)]
  · rw [Tbl.get_set_ne _ _ _ _ _ (by omega)]
    exact ht

theorem State.mirrorMaps_below (s : State) {a : Nat} (h : a < 0x1F02000) : s.mirrorMaps.rd a = s.rd a := by
  have hplot : a < Reg.mzPlotMap 0 := by simp only [Reg.mzPlotMap]; omega
  have hsc : a < Reg.mzScMap 0 := by simp only [Reg.mzScMap]; omega
  exact (mirrorMap_below _ _ _ _ hsc).trans (mirrorMap_below _ _ _ _ hplot)

theorem completes_meterLinkReturn (s : State) (d : Nat) (h : s.mz.down = some d) :
    Completes .meterLinkReturn s (fun t => t.mz.down = none ∧
      (s.mz.ready = true → s.mz.stopped = none → s.mz.memBad = false → s.mz.keyGone = false →
        t.mz.seq = s.mz.seq + 2 + s.mz.late.length ∧ t.mz.late = []) ∧
      (s.mz.ready = true → s.mz.stopped ≠ none → t.mz.seq = s.mz.seq ∧ t.mz.late = s.mz.late ++ [(5, 0, d), (6, 0, s.tick)]) ∧
      (s.mz.ready = false → t.mz = { s.mz with down := none }) ∧
      t.getF Fld.cprClkmonStatMeter = 0 ∧ t.getF Fld.cprClkStatTallyHoldover = 0 ∧
      t = { s with regs := t.regs, mz := t.mz, cpr := t.cpr }) := by
  obtain ⟨m, hm⟩ : ∃ m : Meter, m = { s.mz with down := none } := ⟨_, rfl⟩
  obtain ⟨u, hu⟩ : ∃ u, u = (s.setMz (fun _ => m)).meterClockBack := ⟨_, rfl⟩
  obtain ⟨hclk, hhold, hframe⟩ := (s.setMz (fun _ => m)).meterClockBack_says
  rw [← hu] at hclk hhold hframe
  have humz : u.mz = m := by rw [hframe]; rfl
  have hutick : u.tick = s.tick := by rw [hframe]; rfl
  have hseq : u.mz.seq = s.mz.seq := by rw [humz, hm]
  have hlate : u.mz.late = s.mz.late := by rw [humz, hm]
  have husame : u = { s with regs := u.regs, mz := u.mz, cpr := u.cpr } := by rw [hframe]; rfl
  have hready : u.mz.ready = s.mz.ready := by rw [humz, hm]
  have hrun : s.linkReturned = if u.mz.ready then (u.crossed (5, 0, d) (6, 0, u.tick)).mirrorMaps.mirror else u := by
    unfold State.linkReturned
    rw [h, hu, hm]
    rfl
  cases hr : s.mz.ready with
  | false =>
    refine Completes.of_eq u (exec_meterLinkReturn s) (hrun.trans (if_neg (by simp [hready, hr]))) (by rw [husame]) hutick
      ⟨by rw [humz, hm], fun hf => ?_, fun hf => ?_, fun _ => humz.trans hm, hclk, hhold, husame⟩
    · exact absurd hf Bool.false_ne_true
    · exact absurd hf Bool.false_ne_true
  | true =>
    obtain ⟨w, hw⟩ : ∃ w, w = u.crossed (5, 0, d) (6, 0, s.tick) := ⟨_, rfl⟩
    have hwonly : MeterOnly u w := hw ▸ u.crossed_only _ _
    have hmaps : MeterMoved w w.mirrorMaps := rfl
    have hmoved : MeterMoved u w.mirrorMaps.mirror := (MeterMoved.trans hwonly.1 hmaps).trans (MeterMoved.of_regs (State.mirror_regs _))
    have hrec : RecordsOnly u.mz w.mz := hw ▸ u.crossed_records _ _
    have hlow : ∀ a, a < 0x1F00000 → w.mirrorMaps.mirror.rd a = u.rd a := fun a ha => by
      rw [w.mirrorMaps.mirror_only.2 a (by omega), w.mirrorMaps_below (by omega), hwonly.2 a (by omega)]
    have hrun' : s.linkReturned = w.mirrorMaps.mirror := by rw [hrun, hready, hr, hutick, hw]; rfl
    refine Completes.of_eq w.mirrorMaps.mirror (exec_meterLinkReturn s) hrun' (by rw [hmoved, husame]) (by rw [hmoved, husame]) ?_
    have hmz : w.mirrorMaps.mirror.mz = w.mz := State.mirror_mz _
    rw [hmz]
    refine ⟨by rw [hrec, humz, hm], fun _ h1 h2 h3 => ?_, fun _ hstop => ?_, fun hf => ?_, ?_, ?_, ?_⟩
    · have hmake : u.mz.records := by rw [humz, hm]; exact ⟨h1, rfl, h2, h3⟩
      rw [← hseq, ← hlate, hw]
      exact State.crossed_of_records _ _ hmake
    · have hwaits : u.mz.waits := .inl (by rw [humz, hm]; exact hstop)
      rw [← hseq, ← hlate, hw]
      exact State.crossed_of_waits _ _ hwaits
    · exact absurd hf.symm Bool.false_ne_true
    · exact (getF_addr _ (hlow _ (by decide))).trans hclk
    · exact (getF_addr _ (hlow _ (by decide))).trans hhold
    · have hsame : w.mirrorMaps.mirror = { s with regs := w.mirrorMaps.mirror.regs, mz := w.mirrorMaps.mirror.mz, cpr := w.mirrorMaps.mirror.cpr } := by
        rw [hmoved, husame]
      rw [hmz] at hsame
      exact hsame

/-! ### The clock and the memory (R347) -/

/-- A stopped clock is noted, with its record. -/
def State.clockStopped (s : State) : State :=
  if s.mz.rtcBad then s else ((s.setMz (fun m => { m with rtcBad := true })).eventRec 8 0 s.tick).mirror

theorem exec_mrtcStopped (s : State) : exec .mrtcStopped s = act s (·.clockStopped) := rfl

theorem completes_mrtcStopped (s : State) (h : s.mz.rtcBad = false) :
    Completes .mrtcStopped s (fun t => t.mz.rtcBad = true ∧
      (s.mz.stopped = none → s.mz.down = none → s.mz.memBad = false → s.mz.keyGone = false → t.mz.seq = s.mz.seq + 1) ∧
      (s.mz.stopped ≠ none ∨ s.mz.down ≠ none → t.mz.seq = s.mz.seq ∧ t.mz.late = s.mz.late ++ [(8, 0, s.tick)]) ∧ MeterOnly s t) := by
  obtain ⟨m, hm⟩ : ∃ m : Meter, m = { s.mz with rtcBad := true } := ⟨_, rfl⟩
  obtain ⟨u, hu⟩ : ∃ u, u = s.setMz (fun _ => m) := ⟨_, rfl⟩
  have humz : u.mz = m := by rw [hu]; rfl
  have hseq : u.mz.seq = s.mz.seq := by rw [humz, hm]
  have hlate : u.mz.late = s.mz.late := by rw [humz, hm]
  have honly : MeterOnly s (u.eventRec 8 0 s.tick).mirror :=
    ((hu ▸ MeterOnly.setMz s _).trans (u.eventRec_only _ _ _)).trans (State.mirror_only _)
  have hrun : s.clockStopped = (u.eventRec 8 0 s.tick).mirror := by
    unfold State.clockStopped
    rw [if_neg (by simp [h]), hu, hm]
    rfl
  refine Completes.of_eq (u.eventRec 8 0 s.tick).mirror (exec_mrtcStopped s) hrun (by rw [honly.1]) (by rw [honly.1]) ?_
  rw [State.mirror_mz]
  refine ⟨?_, fun h1 h2 h3 h4 => ?_, fun hwait => ?_, honly⟩
  · rw [State.eventRec_mz, humz, hm]
  · have hmake : u.mz.records := by rw [humz, hm]; exact ⟨h1, h2, h3, h4⟩
    rw [← hseq]
    exact (State.eventRec_of_records _ _ _ hmake).1
  · have hwaits : u.mz.waits := by rw [humz, hm]; exact hwait
    rw [← hseq, ← hlate]
    exact State.eventRec_of_waits _ _ _ hwaits

theorem exec_mrtcStopped_again (s : State) (h : s.mz.rtcBad = true) : exec .mrtcStopped s = .next s :=
  exec_of_act s (exec_mrtcStopped s) (if_pos h) rfl rfl

theorem completes_mramBothCopiesBad (s : State) :
    Completes .mramBothCopiesBad s (fun t => t.mz = { s.mz with memBad := true } ∧ MeterOnly s t) := by
  obtain ⟨u, hu⟩ : ∃ u, u = s.setMz (fun m => { m with memBad := true }) := ⟨_, rfl⟩
  have honly : MeterOnly s u.mirror := (hu ▸ MeterOnly.setMz s _).trans u.mirror_only
  refine Completes.of_eq u.mirror (f := fun s => (s.setMz (fun m => { m with memBad := true })).mirror) rfl (by rw [hu])
    (by rw [honly.1]) (by rw [honly.1]) ⟨?_, honly⟩
  rw [State.mirror_mz, hu]
  rfl

/-! ### The MZ12's start (R323, R425) -/

/-- The records of a stop or a lost link that was not over at the reset leave READY and the boot number. -/
theorem State.crossings_boot (s : State) : s.crossings.mz.boot = s.mz.boot := by
  have hevent : ∀ (t : State) (a b c : Nat), (t.eventRec a b c).mz.boot = t.mz.boot := fun t a b c => by rw [t.eventRec_records a b c]
  have hlate : ∀ t : State, t.lateRecs.mz.boot = t.mz.boot := fun t => by rw [t.lateRecs_records]
  have hstamps : ∀ m : Meter, m.stampsDone.boot = m.boot := fun m => by rw [m.stampsDone_records]
  obtain ⟨u, hu⟩ : ∃ u, u = s.setMz (fun m => { m with stopped := none, down := none }) := ⟨_, rfl⟩
  have hboot : u.mz.boot = s.mz.boot := by rw [hu]; rfl
  rw [← hboot]
  unfold State.crossings
  dsimp only
  rw [← hu]
  refine (hstamps _).trans ?_
  cases s.mz.stopped <;> cases s.mz.down <;> simp only [hevent, hlate]

/-- The MZ12 is ready after its start, one boot later. -/
theorem State.meterBoot_says (s : State) : s.meterBoot.mz.ready = true ∧ s.meterBoot.mz.boot = (s.mz.boot + 1) % 2 ^ 32 := by
  obtain ⟨w, hw⟩ : ∃ w, w = (s.crossings.draw 64).2.setMz (fun m => { (if m.closed then m else m.startInterval 0 0) with
    ready := true, boot := (m.boot + 1) % 2 ^ 32, nonce := if m.boot = 0 then (s.crossings.draw 64).1 else m.nonce }) := ⟨_, rfl⟩
  have hready : w.mz.ready = true := by rw [hw]; rfl
  have hboot : w.mz.boot = (s.mz.boot + 1) % 2 ^ 32 := by rw [← s.crossings_boot, hw]; rfl
  obtain ⟨x, hx⟩ : ∃ x, x = (w.eventRec 1 0 w.tick).mirrorMaps := ⟨_, rfl⟩
  have hxmz : x.mz = (w.eventRec 1 0 w.tick).mz := by rw [hx]; rfl
  have hro : RO x s.meterBoot := by
    have hrun : s.meterBoot = State.mirror (State.setF ((List.range 512).foldl (fun s i => s.wr (Reg.mzCert i)
        (BitVec.ofNat 32 (leNat (bytesAt (Config.certificate 1) (4 * i) 4)))) ((List.range 4).foldl (fun s i => s.wr (Reg.mzUid i)
        (BitVec.ofNat 32 ((Config.uid 1).toNat / 2 ^ (32 * i)))) x.mirrorCum)) Fld.mzCertLenBytes (min (Config.certificate 1).length 2048)) := by
      rw [hx, hw]
      rfl
    rw [hrun]
    refine RO.trans (RO.stepF ?_ _ _) (State.mirror_regs _)
    exact List.foldlRecOn _ _ (List.foldlRecOn _ _ x.mirrorCum_regs (fun _ h _ _ => h.stepW _ _)) (fun _ h _ _ => h.stepW _ _)
  have hmz : s.meterBoot.mz = (w.eventRec 1 0 w.tick).mz := by rw [hro, ← hxmz]
  rw [hmz, w.eventRec_records 1 0 w.tick]
  exact ⟨hready, hboot⟩

/-- Fresh keys leave the meter. -/
theorem State.freshKeys_mz (s : State) (l : List Nat) : (l.foldl (fun s k => s.freshKey (k + 1)) s).mz = s.mz := by
  induction l generalizing s with
  | nil => rfl
  | cons k l ih => exact (ih (s.freshKey (k + 1))).trans rfl

theorem State.plotKeys_mz (s : State) : s.plotKeys.mz = s.mz := by
  unfold State.plotKeys
  refine (apply_ite State.mz _ _ _).trans ?_
  rw [State.freshKeys_mz, ite_self]

theorem State.readSeq_regs (s : State) (b : Bool) : RO s (s.readSeq b) := by
  unfold State.readSeq
  dsimp only
  split
  · exact (RO.refl s).step64 _ _ _
  · exact (RO.refl s).step64 _ _ _

theorem State.chooseBegin_mz (s : State) : s.chooseBegin.mz = s.mz := by
  have hread : RO s ((s.readSeq false).readSeq true) := (s.readSeq_regs false).trans (State.readSeq_regs _ true)
  have hmz : s.chooseBegin.mz = ((s.readSeq false).readSeq true).mz := rfl
  rw [hmz, hread]

theorem completes_mz12Ready (s : State) (hstep : s.getF Fld.cprStartStep = 3) (hhalt : s.getF Fld.cprStartHalt = 0) :
    Completes .mz12Ready s (fun t => t.mz.ready = true ∧ t.mz.boot = (s.mz.boot + 1) % 2 ^ 32) := by
  obtain ⟨u, hu⟩ : ∃ u, u = s.meterBoot.setF Fld.cprClkStatTallyLock 1 := ⟨_, rfl⟩
  obtain ⟨v, hv⟩ : ∃ v, v = u.plotKeys := ⟨_, rfl⟩
  have hrun : s.mz12Ready = if !uidGood (Config.uid 1) then u.uidFail else (v.stepDone 3).chooseBegin := by
    unfold State.mz12Ready
    rw [if_neg (by omega), hv, hu]
  have hfail : u.uidFail.mz = u.mz := rfl
  have hnext : (v.stepDone 3).chooseBegin.mz = u.mz := by
    have hstepped : (v.stepDone 3).mz = v.mz := rfl
    rw [State.chooseBegin_mz, hstepped, hv, u.plotKeys_mz]
  have hmz : s.mz12Ready.mz = s.meterBoot.mz := by
    have humz : u.mz = s.meterBoot.mz := by
      rw [hu]
      generalize s.meterBoot = b
      rfl
    rw [hrun, apply_ite State.mz, hfail, hnext, ite_self, humz]
  refine Completes.of_any s.mz12Ready (f := (·.mz12Ready)) rfl rfl ?_
  show s.mz12Ready.mz.ready = true ∧ s.mz12Ready.mz.boot = (s.mz.boot + 1) % 2 ^ 32
  rw [hmz]
  exact s.meterBoot_says

theorem exec_mz12Ready_idle (s : State) (h : s.getF Fld.cprStartStep ≠ 3 ∨ s.getF Fld.cprStartHalt = 1) : exec .mz12Ready s = .next s :=
  exec_of_act s (f := (·.mz12Ready)) rfl (if_pos h) rfl rfl

/-- The MZ12 is not ready 100 ms after start-up step 2. -/
def State.mz12Late (s : State) : State :=
  if s.getF Fld.cprStartStep = 3 ∧ s.getF Fld.cprStartHalt = 0 ∧ !s.cpr.late ∧
      s.aonPast (s.get64 (Reg.cprStepDoneLo 1) (Reg.cprStepDoneHi 1)) 25000000 then
    (s.setCpr (fun c => { c with late := true })).raise { src := 0x15, tick := s.tick }
  else s

theorem exec_mz12NotReady (s : State) : exec .mz12NotReady s = act s (·.mz12Late) := rfl

theorem completes_mz12NotReady (s : State) (hstep : s.getF Fld.cprStartStep = 3) (hhalt : s.getF Fld.cprStartHalt = 0)
    (hlate : s.cpr.late = false) (hpast : s.aonPast (s.get64 (Reg.cprStepDoneLo 1) (Reg.cprStepDoneHi 1)) 25000000 = true) :
    Completes .mz12NotReady s (fun t => t = { s with
      cpr := { s.cpr with late := true }, flt := { s.flt with tickEvents := s.flt.tickEvents ++ [{ src := 0x15, tick := s.tick }] } }) :=
  Completes.of_eq _ (exec_mz12NotReady s) (if_pos ⟨hstep, hhalt, by rw [hlate]; rfl, hpast⟩) rfl rfl rfl

theorem exec_mz12NotReady_idle (s : State)
    (h : s.cpr.late = true ∨ s.aonPast (s.get64 (Reg.cprStepDoneLo 1) (Reg.cprStepDoneHi 1)) 25000000 = false) :
    exec .mz12NotReady s = .next s := by
  refine exec_of_act s (exec_mz12NotReady s) (if_neg ?_) rfl rfl
  rintro ⟨-, -, hlate, hpast⟩
  rcases h with h | h
  · rw [h] at hlate
    exact Bool.false_ne_true hlate
  · rw [h] at hpast
    exact Bool.false_ne_true hpast

/-- Settles O51: the meter's supply, its link, its clock and memory, and the MZ12's start. -/
theorem meterFollowsItsSurroundings : Obligations.MeterFollowsItsSurroundings := by
  unfold Obligations.MeterFollowsItsSurroundings
  exact ⟨completes_meterSupplyTrip, exec_meterSupplyTrip_idle, completes_meterSupplyResume, exec_meterSupplyResume_waits,
    completes_meterLinkLoss, exec_meterLinkLoss_down, completes_meterLinkReturn, completes_mrtcStopped, exec_mrtcStopped_again,
    completes_mramBothCopiesBad, completes_mz12Ready, exec_mz12Ready_idle, completes_mz12NotReady, exec_mz12NotReady_idle⟩

end Sys2Proof.Machine
end

section
/-! SUPPORT. The configuration store, its flash, and the steward's firmware (O52). -/

open Sys2Proof Sys2Proof.Machine

namespace Sys2Proof.Machine

/-! ### What a pending source keeps -/

/-- A source that becomes pending changes INT_STAT, the steward, messages and what is sent. -/
theorem State.pendSource_frame (s : State) (i src : Nat) : s.pendSource i src = { s with
    regs := (s.pendSource i src).regs, stw := (s.pendSource i src).stw, freeCtr := (s.pendSource i src).freeCtr,
    out := (s.pendSource i src).out, dp := (s.pendSource i src).dp } := by
  cases h : s.epPresent i with
  | false => rw [State.pendSource_of_absent s i src h]
  | true =>
    have hsignal : SignalOnly (s.srcSet i src) (s.pendSource i src) := by
      rw [State.pendSource_of_present h]
      split
      · exact (State.signal_signals _ _ _).trans (State.wake_signals _ _)
      · exact State.signal_signals _ _ _
    rw [hsignal]
    rfl

/-- A device event keeps the configuration store. -/
theorem State.pendAll_cfg (s : State) (src : Nat) : (s.pendAll src).cfg = s.cfg := by
  have hone : ∀ (t : State) (i : Nat), (t.pendSource i src).cfg = t.cfg := fun t i => by rw [t.pendSource_frame i src]
  exact (hone _ 1).trans (hone s 0)

/-- A device event keeps every register but the two INT_STAT. -/
theorem State.pendAll_rd (s : State) (src : Nat) {a : Nat} (h0 : a ≠ Reg.stewardIntStat 0) (h1 : a ≠ Reg.stewardIntStat 1) :
    (s.pendAll src).rd a = s.rd a :=
  ((State.pendSource_keeps _ 1 src).2 a h1).trans ((s.pendSource_keeps 0 src).2 a h0)

/-! ### Checks of a copy (R357, R362 to R364) -/

theorem State.storeRefuse_says (s : State) {cause : Nat} (h : cause < 4) :
    (s.storeRefuse cause).getF Fld.cfgstoreFlashStatRefused = 1 ∧ (s.storeRefuse cause).getF Fld.cfgstoreFlashStatCause = cause ∧
    RegsOnly s (s.storeRefuse cause) [Fld.cfgstoreFlashStatRefused, Fld.cfgstoreFlashStatCause] := by
  have hset : s.storeRefuse cause = (s.setF Fld.cfgstoreFlashStatRefused 1).setF Fld.cfgstoreFlashStatCause cause := rfl
  rw [hset]
  refine ⟨?_, getF_fit _ _ _ (by decide) h, rfl, ((OnlyFields.refl s _).stepF _ _ (by simp)).stepF _ _ (by simp)⟩
  rw [State.getF_setF_ne _ Fld.cfgstoreFlashStatCause _ _ (by decide)]
  exact getF_fit _ _ _ (by decide) (by decide)

theorem exec_check (b : Bool) (s : State) : exec (.check b) s = act s (·.checkWrite b true) := rfl

theorem completes_check (s : State) (b : Bool) (h : s.storeBusy = false) :
    Completes (.check b) s (fun t => t.getF Fld.cfgstoreCheckCopy = bit b ∧ t.getF Fld.cfgstoreCheckBusy = 1 ∧
      OnlyFields s t [Fld.cfgstoreCheckCopy, Fld.cfgstoreCheckBusy] ∧ t = { s with regs := t.regs, cfg := { s.cfg with check := some b } }) := by
  obtain ⟨u, hu⟩ : ∃ u, u = (s.setF Fld.cfgstoreCheckCopy (bit b)).setF Fld.cfgstoreCheckBusy 1 := ⟨_, rfl⟩
  obtain ⟨w, hw⟩ : ∃ w, w = u.setCfg (fun c => { c with check := some b }) := ⟨_, rfl⟩
  have hrun : s.checkWrite b true = w := by
    unfold State.checkWrite
    rw [if_neg (by simp [h]), hw, hu]
    rfl
  have hcopy : u.getF Fld.cfgstoreCheckCopy = bit b := by
    rw [hu, State.getF_setF_ne _ Fld.cfgstoreCheckBusy _ _ (by decide)]
    exact getF_fit _ _ _ (by decide) (by cases b <;> decide)
  have hbusy : u.getF Fld.cfgstoreCheckBusy = 1 := hu ▸ getF_fit _ _ _ (by decide) (by decide)
  have honly : OnlyFields s u [Fld.cfgstoreCheckCopy, Fld.cfgstoreCheckBusy] :=
    hu ▸ ((OnlyFields.refl s _).stepF _ _ (by simp)).stepF _ _ (by simp)
  have hregs : w.regs = u.regs := by rw [hw]; rfl
  exact Completes.of_eq w (exec_check b s) hrun (by rw [hw, hu]; rfl) (by rw [hw, hu]; rfl)
    ⟨(getF_regs hregs _).trans hcopy, (getF_regs hregs _).trans hbusy, honly.of_regs hregs, by rw [hw, hu]; rfl⟩

theorem completes_check_busy (s : State) (b : Bool) (h : s.storeBusy = true) :
    Completes (.check b) s (fun t => t.getF Fld.cfgstoreFlashStatRefused = 1 ∧ t.getF Fld.cfgstoreFlashStatCause = 1 ∧
      RegsOnly s t [Fld.cfgstoreFlashStatRefused, Fld.cfgstoreFlashStatCause]) := by
  have hrun : s.checkWrite b true = s.storeRefuse 1 := if_pos (by rw [h]; rfl)
  obtain ⟨href, hcause, honly⟩ := s.storeRefuse_says (cause := 1) (by decide)
  exact Completes.of_eq _ (exec_check b s) hrun rfl rfl ⟨href, hcause, honly⟩

/-- Every outcome of a check is a code of R357. -/
theorem State.checkCode_lt (s : State) (b : Bool) : s.checkCode b < 256 := by
  unfold State.checkCode
  dsimp only
  split
  · decide
  · split
    · decide
    · split_ifs
      · decide
      · decide
      · decide
      · decide
      · split
        · decide
        · split <;> decide

theorem reasonFd_addr (b : Bool) : (reasonFd b).addr = Reg.cfgstoreReason := by cases b <;> rfl
theorem validFd_addr (b : Bool) : (validFd b).addr = Reg.cfgstoreStat := by cases b <;> rfl

/-- The registers of the check, with SEQ and PREF after it. -/
def State.checkShown (s : State) (b : Bool) : State :=
  (((s.setF (reasonFd b) (s.checkCode b)).setF (validFd b) (bit (decide (s.checkCode b = 0)))).readSeq b).prefer

theorem State.checked_eq (s : State) (b : Bool) :
    s.checked b = ((s.checkShown b).setCfg (fun c => { c with check := none })).pendAll 21 := rfl

/-- SEQ read leaves the registers below it. -/
theorem State.readSeq_rd (s : State) (b : Bool) {a : Nat} (h : a < Reg.cfgstoreSeqALo) : (s.readSeq b).rd a = s.rd a := by
  simp only [Reg.cfgstoreSeqALo] at h
  unfold State.readSeq
  dsimp only
  split
  · exact rd_set64_ne _ _ _ _ _ (by simp only [Reg.cfgstoreSeqBLo]; omega) (by simp only [Reg.cfgstoreSeqBHi]; omega)
  · exact rd_set64_ne _ _ _ _ _ (by simp only [Reg.cfgstoreSeqALo]; omega) (by simp only [Reg.cfgstoreSeqAHi]; omega)

theorem State.checkShown_says (s : State) (b : Bool) :
    (s.checkShown b).getF (reasonFd b) = s.checkCode b ∧ (s.checkShown b).getF (validFd b) = bit (decide (s.checkCode b = 0)) ∧
    (s.checkShown b).cfg = s.cfg := by
  obtain ⟨u, hu⟩ : ∃ u, u = (s.setF (reasonFd b) (s.checkCode b)).setF (validFd b) (bit (decide (s.checkCode b = 0))) := ⟨_, rfl⟩
  have hshown : s.checkShown b = (u.readSeq b).setF Fld.cfgstoreStatPref (u.readSeq b).prefNow := by rw [hu]; rfl
  have hreason : u.getF (reasonFd b) = s.checkCode b := by
    rw [hu, State.getF_setF_ne _ (validFd b) _ _ (.inl (by rw [reasonFd_addr, validFd_addr]; decide))]
    exact getF_fit _ _ _ (by cases b <;> decide) (Nat.lt_of_lt_of_eq (s.checkCode_lt b) (by cases b <;> rfl))
  have hvalid : u.getF (validFd b) = bit (decide (s.checkCode b = 0)) := by
    rw [hu]
    exact getF_fit _ _ _ (by cases b <;> decide) (by
      have hwidth : (validFd b).width = 1 := by cases b <;> rfl
      rw [hwidth]
      unfold bit
      split <;> decide)
  rw [hshown]
  refine ⟨?_, ?_, ?_⟩
  · rw [State.getF_setF_ne _ Fld.cfgstoreStatPref _ _ (.inl (by rw [reasonFd_addr]; decide)), ← hreason]
    exact getF_addr _ (u.readSeq_rd b (by rw [reasonFd_addr]; decide))
  · rw [State.getF_setF_ne _ Fld.cfgstoreStatPref _ _ (by cases b <;> decide), ← hvalid]
    exact getF_addr _ (u.readSeq_rd b (by rw [validFd_addr]; decide))
  · show (u.readSeq b).cfg = s.cfg
    rw [u.readSeq_regs b, hu]
    rfl

/-- CHECK_DONE: the running check ends, or one of start-up step 4 does. -/
def State.checkEnded (s : State) : State :=
  match s.cfg.boot, s.cfg.check with
  | b :: rest, _ => s.chooseNext b rest
  | [], some b => (s.checked b).setF Fld.cfgstoreCheckBusy 0
  | [], none => s

theorem exec_checkDone (s : State) : exec .checkDone s = act s (·.checkEnded) := rfl

theorem completes_checkDone (s : State) (b : Bool) (hboot : s.cfg.boot = []) (hcheck : s.cfg.check = some b) :
    Completes .checkDone s (fun t => t.getF (reasonFd b) = s.checkCode b ∧ t.getF (validFd b) = bit (decide (s.checkCode b = 0)) ∧
      t.getF Fld.cfgstoreCheckBusy = 0 ∧ t.cfg = { s.cfg with check := none }) := by
  obtain ⟨hreason, hvalid, hcfg⟩ := s.checkShown_says b
  obtain ⟨u, hu⟩ : ∃ u, u = (s.checkShown b).setCfg (fun c => { c with check := none }) := ⟨_, rfl⟩
  obtain ⟨w, hw⟩ : ∃ w, w = (u.pendAll 21).setF Fld.cfgstoreCheckBusy 0 := ⟨_, rfl⟩
  have hrun : s.checkEnded = w := by
    unfold State.checkEnded
    rw [hboot, hcheck, hw, hu]
    rfl
  have hregs : u.regs = (s.checkShown b).regs := by rw [hu]; rfl
  have hkeep : ∀ a, a < Reg.cfgstoreCheck → w.rd a = u.rd a := by
    intro a ha
    simp only [Reg.cfgstoreCheck] at ha
    rw [hw, State.rd_setF_ne _ _ _ _ (by simp only [Fld.cfgstoreCheckBusy, Reg.cfgstoreCheck]; omega),
      State.pendAll_rd _ _ (by simp only [Reg.stewardIntStat]; omega) (by simp only [Reg.stewardIntStat]; omega)]
  have hcfgw : w.cfg = { s.cfg with check := none } := by
    have hpend : w.cfg = u.cfg := by
      rw [hw, ← u.pendAll_cfg 21]
      rfl
    rw [hpend, hu, ← hcfg]
    rfl
  have hbusy : w.getF Fld.cfgstoreCheckBusy = 0 := hw ▸ getF_fit _ _ _ (by decide) (by decide)
  refine Completes.of_any w (exec_checkDone s) hrun ⟨?_, ?_, hbusy, hcfgw⟩
  · exact (getF_addr _ (hkeep _ (by rw [reasonFd_addr]; decide))).trans ((getF_regs hregs _).trans hreason)
  · exact (getF_addr _ (hkeep _ (by rw [validFd_addr]; decide))).trans ((getF_regs hregs _).trans hvalid)

theorem exec_checkDone_none (s : State) (hboot : s.cfg.boot = []) (hcheck : s.cfg.check = none) : exec .checkDone s = .next s := by
  refine exec_of_act s (exec_checkDone s) ?_ rfl rfl
  unfold State.checkEnded
  rw [hboot, hcheck]

/-! ### Flash commands (R362 to R364) -/

/-- The flash command of each OP. -/
theorem exec_flashGo {op : Nat} {c : Instr} (s : State)
    (h : [(0, Instr.flashRead), (1, .flashProgram), (2, .flashErase)].contains (op, c) = true) : exec c s = act s (·.flashGo op) := by
  rw [List.contains_iff_mem] at h
  simp only [List.mem_cons, Prod.mk.injEq, List.not_mem_nil, or_false] at h
  rcases h with ⟨rfl, rfl⟩ | ⟨rfl, rfl⟩ | ⟨rfl, rfl⟩ <;> rfl

/-- The command's OP does not change what it reads. -/
theorem State.flashCtlOp_keeps (s : State) (v op : Nat) :
    (s.setF Fld.cfgstoreFlashCtlOp v).flashAddr op = s.flashAddr op ∧ (s.setF Fld.cfgstoreFlashCtlOp v).prefNow = s.prefNow := by
  have hne : ∀ g : Fd, g.addr ≠ Reg.cfgstoreFlashCtl → (s.setF Fld.cfgstoreFlashCtlOp v).getF g = s.getF g := fun g hg =>
    State.getF_setF_ne _ _ _ _ (.inl hg)
  have hrd : ∀ a, a ≠ Reg.cfgstoreFlashCtl → (s.setF Fld.cfgstoreFlashCtlOp v).rd a = s.rd a := fun a ha => State.rd_setF_ne _ _ _ _ ha
  constructor
  · unfold State.flashAddr
    rw [hne _ (by decide)]
  · unfold State.prefNow State.get64
    rw [hne Fld.cfgstoreStatValidA (by decide), hne Fld.cfgstoreStatValidB (by decide), hrd Reg.cfgstoreSeqALo (by decide),
      hrd Reg.cfgstoreSeqAHi (by decide), hrd Reg.cfgstoreSeqBLo (by decide), hrd Reg.cfgstoreSeqBHi (by decide)]

theorem completes_flash_busy (s : State) (op : Nat) (c : Instr)
    (hc : [(0, Instr.flashRead), (1, .flashProgram), (2, .flashErase)].contains (op, c) = true) (h : s.storeBusy = true) :
    Completes c s (fun t => t.getF Fld.cfgstoreFlashStatRefused = 1 ∧ t.getF Fld.cfgstoreFlashStatCause = 1 ∧
      RegsOnly s t [Fld.cfgstoreFlashStatRefused, Fld.cfgstoreFlashStatCause]) := by
  have hrun : s.flashGo op = s.storeRefuse 1 := if_pos h
  obtain ⟨href, hcause, honly⟩ := s.storeRefuse_says (cause := 1) (by decide)
  exact Completes.of_eq _ (exec_flashGo s hc) hrun rfl rfl ⟨href, hcause, honly⟩

theorem completes_flashRead (s : State) (h : s.storeBusy = false) :
    Completes .flashRead s (fun t => t.getF Fld.cfgstoreFlashStatBusy = 1 ∧ t.cfg = { s.cfg with job := some (0, s.flashAddr 0) } ∧
      OnlyFields s t [Fld.cfgstoreFlashCtlOp, Fld.cfgstoreFlashStatBusy] ∧ t = { s with regs := t.regs, cfg := t.cfg }) := by
  obtain ⟨u, hu⟩ : ∃ u, u = (s.setF Fld.cfgstoreFlashCtlOp 0).setF Fld.cfgstoreFlashStatBusy 1 := ⟨_, rfl⟩
  obtain ⟨w, hw⟩ : ∃ w, w = u.setCfg (fun c => { c with job := some (0, s.flashAddr 0) }) := ⟨_, rfl⟩
  have hrun : s.flashGo 0 = w := by
    unfold State.flashGo
    rw [if_neg (by simp [h]), hw, hu]
    dsimp only
    rw [if_neg (by decide), if_neg (by simp), (s.flashCtlOp_keeps 0 0).1]
    rfl
  have hregs : w.regs = u.regs := by rw [hw]; rfl
  have hbusy : u.getF Fld.cfgstoreFlashStatBusy = 1 := hu ▸ getF_fit _ _ _ (by decide) (by decide)
  have honly : OnlyFields s u [Fld.cfgstoreFlashCtlOp, Fld.cfgstoreFlashStatBusy] :=
    hu ▸ ((OnlyFields.refl s _).stepF _ _ (by simp)).stepF _ _ (by simp)
  exact Completes.of_eq w (f := (·.flashGo 0)) rfl hrun (by rw [hw, hu]; rfl) (by rw [hw, hu]; rfl)
    ⟨(getF_regs hregs _).trans hbusy, by rw [hw, hu]; rfl, honly.of_regs hregs, by rw [hw, hu]; rfl⟩

section
variable {s : State} {op : Nat} {c : Instr} {b : Bool} (hc : [(1, Instr.flashProgram), (2, .flashErase)].contains (op, c) = true)
  (hb : b = decide (0x2000000 ≤ s.flashAddr op)) (h : s.storeBusy = false)
include hc

/-- A command that changes the flash is one of three. -/
theorem flashGo_row : [(0, Instr.flashRead), (1, .flashProgram), (2, .flashErase)].contains (op, c) = true ∧ (op = 1 ∨ op = 2) := by
  rw [List.contains_iff_mem] at hc ⊢
  refine ⟨List.mem_cons_of_mem _ hc, ?_⟩
  simp only [List.mem_cons, Prod.mk.injEq, List.not_mem_nil, or_false] at hc
  omega

include hb h

theorem completes_flashChange (hpref : s.prefNow ≠ 1 + bit b) :
    Completes c s (fun t => t.getF Fld.cfgstoreFlashStatBusy = 1 ∧ t.getF (reasonFd b) = 9 ∧ t.getF (validFd b) = 0 ∧
      t.cfg = { s.cfg with job := some (op, s.flashAddr op) } ∧
      OnlyFields s t [Fld.cfgstoreFlashCtlOp, Fld.cfgstoreFlashStatBusy, reasonFd b, validFd b, Fld.cfgstoreStatPref] ∧
      t = { s with regs := t.regs, cfg := t.cfg }) := by
  obtain ⟨hrow, hop⟩ := flashGo_row hc
  obtain ⟨haddr, hprefKeep⟩ := s.flashCtlOp_keeps op op
  obtain ⟨p, hp⟩ : ∃ p, p = (((s.setF Fld.cfgstoreFlashCtlOp op).setF (reasonFd b) 9).setF (validFd b) 0) := ⟨_, rfl⟩
  obtain ⟨u, hu⟩ : ∃ u, u = (p.setF Fld.cfgstoreStatPref p.prefNow).setF Fld.cfgstoreFlashStatBusy 1 := ⟨_, rfl⟩
  obtain ⟨w, hw⟩ : ∃ w, w = u.setCfg (fun c => { c with job := some (op, s.flashAddr op) }) := ⟨_, rfl⟩
  have hrun : s.flashGo op = w := by
    unfold State.flashGo
    rw [if_neg (by simp [h])]
    dsimp only
    rw [haddr, hprefKeep, ← hb, if_neg (by omega), if_neg (by simp [hpref]), if_neg (by omega), hw, hu, hp]
    rfl
  have hregs : w.regs = u.regs := by rw [hw]; rfl
  have hreason : u.getF (reasonFd b) = 9 := by
    rw [hu, State.getF_setF_ne _ Fld.cfgstoreFlashStatBusy _ _ (.inl (by rw [reasonFd_addr]; decide)),
      State.getF_setF_ne _ Fld.cfgstoreStatPref _ _ (.inl (by rw [reasonFd_addr]; decide)), hp,
      State.getF_setF_ne _ (validFd b) _ _ (.inl (by rw [reasonFd_addr, validFd_addr]; decide))]
    exact getF_fit _ _ _ (by cases b <;> decide) (by cases b <;> decide)
  have hvalid : u.getF (validFd b) = 0 := by
    rw [hu, State.getF_setF_ne _ Fld.cfgstoreFlashStatBusy _ _ (.inl (by rw [validFd_addr]; decide)),
      State.getF_setF_ne _ Fld.cfgstoreStatPref _ _ (by cases b <;> decide), hp]
    exact getF_fit _ _ _ (by cases b <;> decide) (by cases b <;> decide)
  have hbusy : u.getF Fld.cfgstoreFlashStatBusy = 1 := hu ▸ getF_fit _ _ _ (by decide) (by decide)
  have honly : OnlyFields s u [Fld.cfgstoreFlashCtlOp, Fld.cfgstoreFlashStatBusy, reasonFd b, validFd b, Fld.cfgstoreStatPref] := by
    rw [hu, hp]
    exact (((((OnlyFields.refl s _).stepF _ _ (by simp)).stepF _ _ (by simp)).stepF _ _ (by simp)).stepF _ _ (by simp)).stepF _ _ (by simp)
  exact Completes.of_eq w (exec_flashGo s hrow) hrun (by rw [hw, hu, hp]; rfl) (by rw [hw, hu, hp]; rfl)
    ⟨(getF_regs hregs _).trans hbusy, (getF_regs hregs _).trans hreason, (getF_regs hregs _).trans hvalid, by rw [hw, hu, hp]; rfl,
      honly.of_regs hregs, by rw [hw, hu, hp]; rfl⟩

theorem completes_flashChange_preferred (hpref : s.prefNow = 1 + bit b) :
    Completes c s (fun t => t.getF Fld.cfgstoreFlashStatRefused = 1 ∧ t.getF Fld.cfgstoreFlashStatCause = 2 ∧
      RegsOnly s t [Fld.cfgstoreFlashCtlOp, Fld.cfgstoreFlashStatRefused, Fld.cfgstoreFlashStatCause]) := by
  obtain ⟨hrow, hop⟩ := flashGo_row hc
  obtain ⟨haddr, hprefKeep⟩ := s.flashCtlOp_keeps op op
  obtain ⟨u, hu⟩ : ∃ u, u = s.setF Fld.cfgstoreFlashCtlOp op := ⟨_, rfl⟩
  have hrun : s.flashGo op = u.storeRefuse 2 := by
    unfold State.flashGo
    rw [if_neg (by simp [h])]
    dsimp only
    rw [haddr, hprefKeep, ← hb, if_neg (by omega), if_pos ⟨by omega, hpref⟩, hu]
  obtain ⟨href, hcause, hro, honly⟩ := u.storeRefuse_says (cause := 2) (by decide)
  have hu0 : OnlyFields s u [Fld.cfgstoreFlashCtlOp, Fld.cfgstoreFlashStatRefused, Fld.cfgstoreFlashStatCause] :=
    hu ▸ (OnlyFields.refl s _).stepF _ _ (by simp)
  exact Completes.of_eq _ (exec_flashGo s hrow) hrun (by rw [hu]; rfl) (by rw [hu]; rfl)
    ⟨href, hcause, by rw [hu]; rfl, hu0.trans (honly.mono (by simp))⟩

end

/-! ### The end of a flash command (R364) -/

/-- FLASH_DONE: what the command does. -/
def State.flashEnded (s : State) : State :=
  match s.cfg.job with
  | none => s
  | some (op, a) =>
    let s := (s.setCfg (fun c => { c with job := none })).setF Fld.cfgstoreFlashStatBusy 0
    match op with
    | 0 => (List.range 64).foldl (fun s i => s.wr (Reg.cfgstoreFlashData i) (BitVec.ofNat 32 (leNat (s.flashBytes (a + 4 * i) 4)))) s
    | 1 => s.flashPut a (((s.flashBytes a 256).zip s.flashData).map (fun x => x.1 &&& x.2))
    | _ => s.setCfg (fun c => { c with flash := Tbl.clear c.flash a 65536 })

theorem exec_flashDone (s : State) : exec .flashDone s = act s (·.flashEnded) := rfl

/-- The command has ended, and the flash is not yet touched. -/
def State.flashIdle (s : State) : State := (s.setCfg (fun c => { c with job := none })).setF Fld.cfgstoreFlashStatBusy 0

theorem State.flashIdle_busy (s : State) : s.flashIdle.getF Fld.cfgstoreFlashStatBusy = 0 := getF_fit _ _ _ (by decide) (by decide)

/-- The first words of the page stand in FLASH_DATA, and other registers stay. -/
theorem foldl_flashData (s : State) (a n : Nat) :
    ∃ t, t = (List.range n).foldl (fun s i => s.wr (Reg.cfgstoreFlashData i) (BitVec.ofNat 32 (leNat (s.flashBytes (a + 4 * i) 4)))) s ∧
      RO s t ∧ (∀ k, k < n → t.rd (Reg.cfgstoreFlashData k) = BitVec.ofNat 32 (leNat (s.flashBytes (a + 4 * k) 4))) ∧
      ∀ x, x < Reg.cfgstoreFlashData 0 → t.rd x = s.rd x := by
  induction n with
  | zero => exact ⟨s, rfl, RO.refl s, fun k hk => absurd hk (Nat.not_lt_zero k), fun _ _ => rfl⟩
  | succ n ih =>
    obtain ⟨t, ht, hro, hwords, hrest⟩ := ih
    refine ⟨t.wr (Reg.cfgstoreFlashData n) (BitVec.ofNat 32 (leNat (t.flashBytes (a + 4 * n) 4))), ?_, hro.stepW _ _, fun k hk => ?_, fun x hx => ?_⟩
    · rw [List.range_succ, List.foldl_append, ← ht]
      rfl
    · have hbytes : t.flashBytes (a + 4 * n) 4 = s.flashBytes (a + 4 * n) 4 := by rw [hro]; rfl
      rw [hbytes, State.rd_wr]
      by_cases hkn : k = n
      · rw [hkn, if_pos rfl]
      · rw [if_neg (by simp only [Reg.cfgstoreFlashData]; omega)]
        exact hwords k (by omega)
    · rw [State.rd_wr_ne _ _ _ _ (by simp only [Reg.cfgstoreFlashData] at hx ⊢; omega)]
      exact hrest x hx

theorem completes_flashDone_read (s : State) (a : Nat) (hjob : s.cfg.job = some (0, a)) :
    Completes .flashDone s (fun t => (∀ k, k < 64 → t.rd (Reg.cfgstoreFlashData k) = BitVec.ofNat 32 (leNat (s.flashBytes (a + 4 * k) 4))) ∧
      t.getF Fld.cfgstoreFlashStatBusy = 0 ∧ t = { s with regs := t.regs, cfg := { s.cfg with job := none } }) := by
  obtain ⟨u, hu⟩ : ∃ u, u = s.flashIdle := ⟨_, rfl⟩
  obtain ⟨t, ht, hro, hwords, hrest⟩ := foldl_flashData u a 64
  have hrun : s.flashEnded = t := by
    unfold State.flashEnded
    rw [hjob, ht, hu]
    rfl
  have hbytes : ∀ x n, u.flashBytes x n = s.flashBytes x n := fun x n => by rw [hu]; rfl
  refine Completes.of_eq t (exec_flashDone s) hrun (by rw [hro, hu]; rfl) (by rw [hro, hu]; rfl)
    ⟨fun k hk => by rw [hwords k hk, hbytes], ?_, by rw [hro, hu]; rfl⟩
  exact (getF_addr _ (hrest _ (by decide))).trans (hu ▸ s.flashIdle_busy)

/-- A run of a table's entries set. -/
theorem Tbl.get_foldl_set {α : Type} [DecidableEq α] (d : Nat → α) (t : Tbl α) (a n : Nat) (v : Nat → α) (x : Nat) :
    Tbl.get d ((List.range n).foldl (fun t i => Tbl.set d t (a + i) (v i)) t) x = if a ≤ x ∧ x < a + n then v (x - a) else Tbl.get d t x := by
  induction n with
  | zero => rw [if_neg (by omega)]; rfl
  | succ n ih =>
    rw [List.range_succ, List.foldl_append]
    show Tbl.get d (Tbl.set d _ (a + n) (v n)) x = _
    by_cases hx : x = a + n
    · rw [hx, Tbl.get_set_same, if_pos (by omega), Nat.add_sub_cancel_left]
    · rw [Tbl.get_set_ne _ _ _ _ _ hx, ih]
      by_cases hin : a ≤ x ∧ x < a + n
      · rw [if_pos hin, if_pos (by omega)]
      · rw [if_neg hin, if_neg (by omega)]

/-- A byte of the flash. -/
def State.flashByte (s : State) (a : Nat) : Byte := Tbl.get (fun _ => 0xFF) s.cfg.flash a

theorem State.flashBytes_one (s : State) (a : Nat) : s.flashBytes a 1 = [s.flashByte a] := rfl

theorem State.flashPut_byte (s : State) (a : Nat) (l : List Byte) (x : Nat) :
    (s.flashPut a l).flashByte x = if a ≤ x ∧ x < a + l.length then (l[x - a]?).getD 0xFF else s.flashByte x :=
  Tbl.get_foldl_set (fun _ => 0xFF) s.cfg.flash a l.length (fun i => (l[i]?).getD 0xFF) x

theorem State.flashData_length (s : State) : s.flashData.length = 256 := by
  unfold State.flashData
  rw [List.length_flatMap]
  simp only [leBytes_length]
  decide

theorem completes_flashDone_program (s : State) (a : Nat) (hjob : s.cfg.job = some (1, a)) :
    Completes .flashDone s (fun t => (∀ k, k < 256 → t.flashBytes (a + k) 1 = [((s.flashBytes (a + k) 1)[0]?).getD 0 &&& (s.flashData[k]?).getD 0]) ∧
      (∀ x, x < a ∨ a + 256 ≤ x → t.flashBytes x 1 = s.flashBytes x 1) ∧
      t.getF Fld.cfgstoreFlashStatBusy = 0 ∧ RegsOnly { s with cfg := t.cfg } t [Fld.cfgstoreFlashStatBusy]) := by
  obtain ⟨u, hu⟩ : ∃ u, u = s.flashIdle := ⟨_, rfl⟩
  obtain ⟨l, hl⟩ : ∃ l : List Byte, l = ((u.flashBytes a 256).zip u.flashData).map (fun x => x.1 &&& x.2) := ⟨_, rfl⟩
  have hrun : s.flashEnded = u.flashPut a l := by
    unfold State.flashEnded
    rw [hjob, hl, hu]
    rfl
  have hdata : u.flashData = s.flashData := by
    have hrd : ∀ k, u.rd (Reg.cfgstoreFlashData k) = s.rd (Reg.cfgstoreFlashData k) := fun k => by
      rw [hu]
      exact State.rd_setF_ne _ _ _ _ (by simp only [Reg.cfgstoreFlashData, Fld.cfgstoreFlashStatBusy, Reg.cfgstoreFlashStat]; omega)
    unfold State.flashData
    simp only [hrd]
  have hbyte : ∀ x, u.flashByte x = s.flashByte x := fun x => by rw [hu]; rfl
  have hlen : l.length = 256 := by
    rw [hl, List.length_map, List.length_zip, State.flashData_length]
    unfold State.flashBytes
    rw [List.length_map, List.length_range, Nat.min_self]
  have hget : ∀ k, k < 256 → (l[k]?).getD 0xFF = s.flashByte (a + k) &&& (s.flashData[k]?).getD 0 := by
    intro k hk
    have hpage : (u.flashBytes a 256)[k]? = some (s.flashByte (a + k)) := by
      unfold State.flashBytes
      rw [List.getElem?_map, List.getElem?_range hk, ← hbyte]
      rfl
    obtain ⟨d, hd⟩ : ∃ d, s.flashData[k]? = some d :=
      ⟨_, List.getElem?_eq_getElem (show k < s.flashData.length by rw [State.flashData_length]; exact hk)⟩
    have hpair : ((u.flashBytes a 256).zip s.flashData)[k]? = some (s.flashByte (a + k), d) := List.getElem?_zip_eq_some.mpr ⟨hpage, hd⟩
    rw [hl, hdata, List.getElem?_map, hpair, hd]
    rfl
  have honly : OnlyFields ({ s with cfg := (u.flashPut a l).cfg } : State) (u.flashPut a l) [Fld.cfgstoreFlashStatBusy] := by
    have hset : OnlyFields s u [Fld.cfgstoreFlashStatBusy] := by
      rw [hu]
      exact (((OnlyFields.refl s _).of_regs (u := s.setCfg (fun c => { c with job := none })) rfl)).stepF _ _ (by simp)
    exact hset.of_regs rfl
  refine Completes.of_eq (u.flashPut a l) (exec_flashDone s) hrun (by rw [hu]; rfl) (by rw [hu]; rfl) ⟨fun k hk => ?_, fun x hx => ?_, ?_, ?_, honly⟩
  · rw [State.flashBytes_one, State.flashPut_byte, if_pos (by omega), Nat.add_sub_cancel_left, hget k hk, s.flashBytes_one]
    rfl
  · rw [State.flashBytes_one, State.flashPut_byte, if_neg (by omega), hbyte, s.flashBytes_one]
  · exact hu ▸ s.flashIdle_busy
  · rw [hu]
    rfl

theorem completes_flashDone_erase (s : State) (a : Nat) (hjob : s.cfg.job = some (2, a)) :
    Completes .flashDone s (fun t => (∀ k, k < 65536 → t.flashBytes (a + k) 1 = [0xFF]) ∧
      (∀ x, x < a ∨ a + 65536 ≤ x → t.flashBytes x 1 = s.flashBytes x 1) ∧
      t.getF Fld.cfgstoreFlashStatBusy = 0 ∧ RegsOnly { s with cfg := t.cfg } t [Fld.cfgstoreFlashStatBusy]) := by
  obtain ⟨u, hu⟩ : ∃ u, u = s.flashIdle := ⟨_, rfl⟩
  obtain ⟨w, hw⟩ : ∃ w, w = u.setCfg (fun c => { c with flash := Tbl.clear c.flash a 65536 }) := ⟨_, rfl⟩
  have hrun : s.flashEnded = w := by
    unfold State.flashEnded
    rw [hjob, hw, hu]
    rfl
  have hbyte : ∀ x, w.flashByte x = if a ≤ x ∧ x < a + 65536 then 0xFF else s.flashByte x := by
    intro x
    rw [hw, hu]
    exact Tbl.get_clear _ s.cfg.flash a 65536 x
  have honly : OnlyFields ({ s with cfg := w.cfg } : State) w [Fld.cfgstoreFlashStatBusy] := by
    have hset : OnlyFields s u [Fld.cfgstoreFlashStatBusy] := by
      rw [hu]
      exact (((OnlyFields.refl s _).of_regs (u := s.setCfg (fun c => { c with job := none })) rfl)).stepF _ _ (by simp)
    exact hset.of_regs (by rw [hw]; rfl)
  have hregs : w.regs = u.regs := by rw [hw]; rfl
  refine Completes.of_eq w (exec_flashDone s) hrun (by rw [hw, hu]; rfl) (by rw [hw, hu]; rfl) ⟨fun k hk => ?_, fun x hx => ?_, ?_, ?_, honly⟩
  · rw [State.flashBytes_one, hbyte, if_pos (by omega)]
  · rw [State.flashBytes_one, hbyte, if_neg (by omega), s.flashBytes_one]
  · exact (getF_regs hregs _).trans (hu ▸ s.flashIdle_busy)
  · rw [hw, hu]
    rfl

/-! ### The switch (R391) -/

theorem exec_switch (src : Source) (s : State) : exec (.switch src) s = act s (·.fwSwitch) := rfl

/-- A switch into a valid slot starts, and waits for the commands in APPLY. -/
theorem State.fwSwitch_started {s : State} (hbusy : s.fwBusy = false) (hvalid : s.getF (fwValidFd s.fwOther) = 1) :
    s.fwSwitch.getF Fld.stewardFwStatSwitching = 1 ∧ s.fwSwitch.getF Fld.stewardFwStatCode = 0 ∧
    OnlyFields s s.fwSwitch [Fld.stewardFwStatSwitching, Fld.stewardFwStatCode] ∧
    s.fwSwitch = { s with
      regs := s.fwSwitch.regs, stw := { s.stw with fwOpen := !s.applying, fwFell := false, swAt := if s.applying then s.stw.swAt else s.tick } } := by
  obtain ⟨v, hv⟩ : ∃ v, v = (s.setF Fld.stewardFwStatSwitching 1).setF Fld.stewardFwStatCode 0 := ⟨_, rfl⟩
  obtain ⟨u, hu⟩ : ∃ u, u = v.setStw (fun t => { t with fwOpen := false, fwFell := false }) := ⟨_, rfl⟩
  have hswitch : v.getF Fld.stewardFwStatSwitching = 1 := by
    rw [hv, State.getF_setF_ne _ Fld.stewardFwStatCode _ _ (by decide)]
    exact getF_fit _ _ _ (by decide) (by decide)
  have hcode : v.getF Fld.stewardFwStatCode = 0 := hv ▸ getF_fit _ _ _ (by decide) (by decide)
  have honly : OnlyFields s v [Fld.stewardFwStatSwitching, Fld.stewardFwStatCode] :=
    hv ▸ ((OnlyFields.refl s _).stepF _ _ (by simp)).stepF _ _ (by simp)
  have hrun : s.fwSwitch = u.fwRestart := by
    unfold State.fwSwitch
    rw [if_neg (by simp [hbusy]), if_neg (by omega), hu, hv]
    rfl
  have happly : u.applying = s.applying := by rw [hu, hv]; rfl
  have hopen : u.stw.fwOpen = false := by rw [hu]; rfl
  have hregs : u.fwRestart.regs = v.regs := by
    unfold State.fwRestart
    split
    · rw [hu]; rfl
    · rw [hu]; rfl
  have hframe : u.fwRestart = { s with
      regs := u.fwRestart.regs, stw := { s.stw with fwOpen := !s.applying, fwFell := false, swAt := if s.applying then s.stw.swAt else s.tick } } := by
    have huswitch : u.getF Fld.stewardFwStatSwitching = 1 := by
      have huv : u.regs = v.regs := by rw [hu]; rfl
      exact (getF_regs huv _).trans hswitch
    unfold State.fwRestart
    rw [happly]
    cases ha : s.applying with
    | true =>
      rw [if_neg (by simp)]
      rw [hu, hv]
      rfl
    | false =>
      rw [if_pos ⟨huswitch, hopen, rfl⟩]
      rw [hu, hv]
      rfl
  rw [hrun]
  exact ⟨(getF_regs hregs _).trans hswitch, (getF_regs hregs _).trans hcode, honly.of_regs hregs, hframe⟩

/-- A switch into a slot without a valid image is refused with CODE 5. -/
theorem State.fwSwitch_refused {s : State} (hbusy : s.fwBusy = false) (hvalid : s.getF (fwValidFd s.fwOther) = 0) :
    s.fwSwitch = s.setF Fld.stewardFwStatCode 5 := by
  unfold State.fwSwitch
  rw [if_neg (by simp [hbusy]), if_pos hvalid]

theorem completes_switch (s : State) (src : Source) (hbusy : s.fwBusy = false) (hvalid : s.getF (fwValidFd s.fwOther) = 1) :
    Completes (.switch src) s (fun t => t.getF Fld.stewardFwStatSwitching = 1 ∧ t.getF Fld.stewardFwStatCode = 0 ∧
      OnlyFields s t [Fld.stewardFwStatSwitching, Fld.stewardFwStatCode] ∧
      t = { s with regs := t.regs, stw := { s.stw with fwOpen := !s.applying, fwFell := false, swAt := if s.applying then s.stw.swAt else s.tick } }) := by
  obtain ⟨hswitch, hcode, honly, hframe⟩ := State.fwSwitch_started hbusy hvalid
  exact Completes.of_eq s.fwSwitch (exec_switch src s) rfl (by rw [hframe]) (by rw [hframe]) ⟨hswitch, hcode, honly, hframe⟩

theorem completes_switch_refused (s : State) (src : Source) (hbusy : s.fwBusy = false) (hvalid : s.getF (fwValidFd s.fwOther) = 0) :
    Completes (.switch src) s (fun t => t.getF Fld.stewardFwStatCode = 5 ∧ RegsOnly s t [Fld.stewardFwStatCode]) :=
  Completes.of_eq _ (exec_switch src s) (State.fwSwitch_refused hbusy hvalid) rfl rfl
    ⟨getF_fit _ _ _ (by decide) (by decide), RegsOnly.setF s _ _⟩

/-! ### READY, fallback and the watchdog (R391, R392, R424) -/

theorem completes_ready_step5 (s : State) (hstep : s.getF Fld.cprStartStep = 5) (hhalt : s.getF Fld.cprStartHalt = 0)
    (hsect : s.sectionBytes (decide (s.getF Fld.cfgstoreStatBootSel = 2)) 2 = none) :
    Completes .ready s (fun t => t.getF Fld.cprStartStep = 6 ∧ t.getF Fld.stewardFwStatSlot = 0 ∧
      t.get64 (Reg.cprStepDoneLo 4) (Reg.cprStepDoneHi 4) = s.tick % 2 ^ 64 ∧
      OnlyFields s t [Fld.cprStartStep, Fld.stewardFwStatSlot, Fd.whole (Reg.cprStepDoneLo 4), Fd.whole (Reg.cprStepDoneHi 4)] ∧
      t = { s with
        regs := t.regs, stw := { s.stw with kick := s.tick }, cfg := if s.hasTables then { s.cfg with todo := s.sectWrites, load := .write } else s.cfg }) := by
  obtain ⟨k, hk⟩ : ∃ k, k = s.setStw (fun t => { t with kick := s.tick }) := ⟨_, rfl⟩
  obtain ⟨v, hv⟩ : ∃ v, v = (k.setF Fld.stewardFwStatSlot 0).set64 (Reg.cprStepDoneLo 4) (Reg.cprStepDoneHi 4) s.tick := ⟨_, rfl⟩
  obtain ⟨u, hu⟩ : ∃ u, u = v.setF Fld.cprStartStep 6 := ⟨_, rfl⟩
  have hkregs : k.regs = s.regs := by rw [hk]; rfl
  have honly : OnlyFields s u [Fld.cprStartStep, Fld.stewardFwStatSlot, Fd.whole (Reg.cprStepDoneLo 4), Fd.whole (Reg.cprStepDoneHi 4)] := by
    rw [hu, hv]
    exact ((((OnlyFields.refl s _).of_regs hkregs).stepF _ _ (by simp)).step64 _ _ _ (by simp) (by simp)).stepF _ _ (by simp)
  have hboot : u.getF Fld.cfgstoreStatBootSel = s.getF Fld.cfgstoreStatBootSel :=
    getF_addr _ (honly.rd_of_addr_ne (by decide))
  have hframe : u = { s with regs := u.regs, stw := { s.stw with kick := s.tick } } := by rw [hu, hv, hk]; rfl
  have hsections : ∀ ty, u.sectionBytes (decide (u.getF Fld.cfgstoreStatBootSel = 2)) ty =
      s.sectionBytes (decide (s.getF Fld.cfgstoreStatBootSel = 2)) ty := fun ty => by rw [hboot, hframe]; rfl
  have htables : u.hasTables = s.hasTables := by unfold State.hasTables; simp only [hsections]
  have hwrites : u.sectWrites = s.sectWrites := by unfold State.sectWrites; simp only [hsections]
  have htwo : u.sectTwo = u := by
    unfold State.sectTwo
    rw [hsections, hsect]
  have hrun : s.fwReady = if s.hasTables then u.setCfg (fun c => { c with todo := s.sectWrites, load := .write }) else u := by
    have hkstep : k.getF Fld.cprStartStep = 5 ∧ k.getF Fld.cprStartHalt = 0 := ⟨(getF_regs hkregs _).trans hstep, (getF_regs hkregs _).trans hhalt⟩
    have hktick : k.tick = s.tick := by rw [hk]; rfl
    have hbegin : ((k.setF Fld.stewardFwStatSlot 0).stepDone 5).sectBegin = u.sectBegin := by
      rw [hu, hv, ← hktick]
      rfl
    unfold State.fwReady
    dsimp only
    rw [← hk, if_pos hkstep, hbegin]
    unfold State.sectBegin
    dsimp only
    rw [htwo, htables, hwrites]
  have hstepU : u.getF Fld.cprStartStep = 6 := hu ▸ getF_fit _ _ _ (by decide) (by decide)
  have hslot : u.getF Fld.stewardFwStatSlot = 0 := by
    rw [hu, State.getF_setF_ne _ Fld.cprStartStep _ _ (by decide), hv, getF_set64_ne _ _ _ _ _ (by decide) (by decide)]
    exact getF_fit _ _ _ (by decide) (by decide)
  have hdone : u.get64 (Reg.cprStepDoneLo 4) (Reg.cprStepDoneHi 4) = s.tick % 2 ^ 64 := by
    refine get64_of _ _ _ _ ?_ ?_
    · rw [hu, State.rd_setF_ne _ _ _ _ (by decide), hv, rd_set64_lo _ _ _ _ (by decide)]
    · rw [hu, State.rd_setF_ne _ _ _ _ (by decide), hv, rd_set64_hi]
  obtain ⟨w, hw⟩ : ∃ w, w = s.fwReady := ⟨_, rfl⟩
  have hregs : w.regs = u.regs := by
    rw [hw, hrun]
    split <;> rfl
  have hsame : w = { s with
      regs := w.regs, stw := { s.stw with kick := s.tick }, cfg := if s.hasTables then { s.cfg with todo := s.sectWrites, load := .write } else s.cfg } := by
    rw [hw, hrun]
    split
    · rw [hframe]
      rfl
    · exact hframe
  refine Completes.of_eq w (f := (·.fwReady)) rfl hw.symm (by rw [hsame]) (by rw [hsame])
    ⟨(getF_regs hregs _).trans hstepU, (getF_regs hregs _).trans hslot, ?_, honly.of_regs hregs, hsame⟩
  unfold State.get64 State.rd at hdone ⊢
  rw [hregs]
  exact hdone

theorem completes_fwFallback (s : State) (hswitch : s.getF Fld.stewardFwStatSwitching = 1) (hopen : s.stw.fwOpen = true)
    (hpast : s.aonPast s.stw.swAt 250000000 = true) :
    Completes .fwFallback s (fun t => t = { s with stw := { s.stw with fwFell := true } }) :=
  Completes.of_when _ (b := fun s => decide (s.getF Fld.stewardFwStatSwitching = 1) && s.stw.fwOpen && s.aonPast s.stw.swAt 250000000)
    rfl (by simp [hswitch, hopen, hpast]) rfl rfl rfl rfl

theorem exec_fwFallback_idle (s : State)
    (h : s.getF Fld.stewardFwStatSwitching = 0 ∨ s.stw.fwOpen = false ∨ s.aonPast s.stw.swAt 250000000 = false) :
    exec .fwFallback s = .next s := by
  refine exec_of_when_false (b := fun s => decide (s.getF Fld.stewardFwStatSwitching = 1) && s.stw.fwOpen && s.aonPast s.stw.swAt 250000000)
    rfl ?_
  rcases h with h | h | h
  · simp [h]
  · simp [h]
  · simp [h]

theorem completes_wdogKick (s : State) : Completes .wdogKick s (fun t => t = { s with stw := { s.stw with kick := s.tick } }) :=
  Completes.of_eq _ (f := (·.wdogKick)) rfl rfl rfl rfl rfl

/-- The cores restart in the slot in use. -/
def State.watchdogExpired (s : State) : State :=
  if 6 ≤ s.getF Fld.cprStartStep ∧ s.getF Fld.stewardFwStatSwitching = 0 ∧ s.aonPast s.stw.kick s.wdogTicks = true then
    let s := (s.bump Fld.stewardFwStatRestarts).wdogKick
    s.raise { src := 0x0D, tick := s.tick, d0 := s.getF Fld.stewardFwStatSlot, d1 := s.getF Fld.stewardFwStatRestarts }
  else s

theorem exec_watchdogExpiry (s : State) : exec .watchdogExpiry s = act s (·.watchdogExpired) := rfl

theorem completes_watchdogExpiry (s : State) (hstep : 6 ≤ s.getF Fld.cprStartStep) (hswitch : s.getF Fld.stewardFwStatSwitching = 0)
    (hpast : s.aonPast s.stw.kick s.wdogTicks = true) :
    Completes .watchdogExpiry s (fun t =>
      t.getF Fld.stewardFwStatRestarts = min (s.getF Fld.stewardFwStatRestarts + 1) (2 ^ Fld.stewardFwStatRestarts.width - 1) ∧
      t.flt = { s.flt with tickEvents := s.flt.tickEvents ++ [{ src := 0x0D, tick := s.tick, d0 := s.getF Fld.stewardFwStatSlot, d1 := t.getF Fld.stewardFwStatRestarts }] } ∧
      OnlyFields s t [Fld.stewardFwStatRestarts] ∧
      t = { s with regs := t.regs, flt := t.flt, stw := { s.stw with kick := s.tick } }) := by
  obtain ⟨u, hu⟩ : ∃ u, u = s.bump Fld.stewardFwStatRestarts := ⟨_, rfl⟩
  obtain ⟨w, hw⟩ : ∃ w, w = u.wdogKick.raise
    { src := 0x0D, tick := s.tick, d0 := s.getF Fld.stewardFwStatSlot, d1 := u.getF Fld.stewardFwStatRestarts } := ⟨_, rfl⟩
  have hslot : u.getF Fld.stewardFwStatSlot = s.getF Fld.stewardFwStatSlot :=
    hu ▸ State.getF_setF_ne _ Fld.stewardFwStatRestarts _ _ (by decide)
  have hro : RO s u := hu ▸ (RO.refl s).stepB _
  have hrun : s.watchdogExpired = w := by
    unfold State.watchdogExpired
    rw [if_pos ⟨hstep, hswitch, hpast⟩, hw, ← hslot, hu]
    rfl
  have hregs : w.regs = u.regs := by rw [hw]; rfl
  have hrestarts : w.getF Fld.stewardFwStatRestarts = u.getF Fld.stewardFwStatRestarts := getF_regs hregs _
  have hframe : w = { s with regs := w.regs, flt := w.flt, stw := { s.stw with kick := s.tick } } := by rw [hw, hro]; rfl
  refine Completes.of_eq w (exec_watchdogExpiry s) hrun (by rw [hframe]) (by rw [hframe]) ⟨?_, ?_, ?_, hframe⟩
  · rw [hrestarts, hu]
    exact State.getF_bump s _ (by decide)
  · rw [hrestarts, hw, hro]
    rfl
  · exact (hu ▸ (OnlyFields.refl s _).stepB _ (by simp) : OnlyFields s u [Fld.stewardFwStatRestarts]).of_regs hregs

theorem exec_watchdogExpiry_kicked (s : State) (h : s.aonPast s.stw.kick s.wdogTicks = false) : exec .watchdogExpiry s = .next s := by
  refine exec_of_act s (exec_watchdogExpiry s) (if_neg ?_) rfl rfl
  rintro ⟨-, -, hpast⟩
  rw [h] at hpast
  exact Bool.false_ne_true hpast

/-- Settles O52: the store's checks and flash, the switch, READY, fallback and the watchdog, a command at a time. -/
theorem storeChecksFlashAndFirmware : Obligations.StoreChecksFlashAndFirmware := by
  unfold Obligations.StoreChecksFlashAndFirmware
  exact ⟨completes_check, completes_check_busy, completes_checkDone, exec_checkDone_none, completes_flashRead,
    fun _ _ _ _ hc hb h hpref => completes_flashChange hc hb h hpref,
    fun _ _ _ _ hc hb h hpref => completes_flashChange_preferred hc hb h hpref, completes_flash_busy,
    completes_flashDone_read, completes_flashDone_program, completes_flashDone_erase, completes_switch, completes_switch_refused,
    completes_ready_step5, completes_fwFallback, exec_fwFallback_idle, completes_wdogKick, completes_watchdogExpiry,
    exec_watchdogExpiry_kicked⟩

end Sys2Proof.Machine
end

section
/-! SUPPORT. Clocks, supplies, temperature and voltage (O58). -/

open Sys2Proof Sys2Proof.Machine

namespace Sys2Proof.Machine

/-! ### Clocks (R412, R413) -/

/-- A list of ports of which none is in L0 stays as it is. -/
theorem State.recoverAll_of_down (s : State) (l : List Nat) (h : ∀ p ∈ l, s.inL0 p = false) : s.recoverAll l = s := by
  unfold State.recoverAll
  refine List.foldlRecOn (motive := fun t => t = s) l _ rfl (fun t ht p hp => ?_)
  rw [ht]
  split
  · exact if_pos (by simp [h p hp])
  · rfl

theorem inL0_of_rd {s t : State} {p : Nat} (h : t.rd (Reg.portLpStat p) = s.rd (Reg.portLpStat p)) : t.inL0 p = s.inL0 p := by
  unfold State.inL0
  rw [getF_addr (Fld.portLpStatLtssm p) h]

theorem clusterLps_lt (c : Fin 16) : ∀ p ∈ clusterLps c.val, p < 64 := by
  intro p hp
  unfold clusterLps at hp
  simp only [List.mem_map, List.mem_range] at hp
  obtain ⟨i, hi, rfl⟩ := hp
  omega

theorem portLpStat_above (p : Nat) : 0x200000 ≤ Reg.portLpStat p := by simp only [Reg.portLpStat]; omega

/-- The bit of a clock lies in CLKMON_STAT. -/
theorem clkBit_lt (k : Clk) : clkBit k < 18 := by
  cases k with
  | refclk c => exact Nat.lt_trans c.isLt (by decide)
  | main => decide
  | meter => decide

/-- CLOCK_MONITOR_TRIP: the trip, and its cluster's links to Recovery. -/
def State.clockTripped (s : State) (k : Clk) : State :=
  if s.getF (clkFd (clkBit k)) = 1 then s
  else match k with
    | .refclk c => (s.clkTrip k).recoverAll (clusterLps c.val)
    | .main => (s.clkTrip k).recoverAll (List.range 64)
    | .meter => s.clkTrip k

theorem exec_clockMonitorTrip (k : Clk) (s : State) : exec (.clockMonitorTrip k) s = act s (·.clockTripped k) := rfl

theorem exec_clockMonitorTrip_again (s : State) (k : Clk) (h : s.getF (clkFd (clkBit k)) = 1) : exec (.clockMonitorTrip k) s = .next s :=
  exec_of_act s (exec_clockMonitorTrip k s) (if_pos h) rfl rfl

theorem completes_clockMonitorTrip (s : State) (k : Clk) (hbit : s.getF (clkFd (clkBit k)) = 0)
    (hfell : Tbl.get (fun _ => none) s.cpr.fell (clkBit k) = none) (hdown : ∀ p, p < 64 → s.inL0 p = false) :
    Completes (.clockMonitorTrip k) s (fun t => t.getF (clkFd (clkBit k)) = 1 ∧ t.getF ⟨Reg.cprClkmonEvt, clkBit k, 1⟩ = 1 ∧
      t.flt = { s.flt with tickEvents := s.flt.tickEvents ++ [{ src := 0x11, tick := s.tick, d0 := clkDomain k }] } ∧
      OnlyFields s t [clkFd (clkBit k), ⟨Reg.cprClkmonEvt, clkBit k, 1⟩] ∧ t = { s with regs := t.regs, flt := t.flt }) := by
  obtain ⟨u, hu⟩ : ∃ u, u = (s.setF (clkFd (clkBit k)) 1).setF ⟨Reg.cprClkmonEvt, clkBit k, 1⟩ 1 := ⟨_, rfl⟩
  obtain ⟨w, hw⟩ : ∃ w, w = u.raise { src := 0x11, tick := s.tick, d0 := clkDomain k } := ⟨_, rfl⟩
  have hlt := clkBit_lt k
  have hro : RO s u := by rw [hu]; rfl
  have hregs : w.regs = u.regs := by rw [hw]; rfl
  have hstat : u.getF (clkFd (clkBit k)) = 1 := by
    rw [hu, State.getF_setF_ne _ _ _ _ (.inl (show Reg.cprClkmonStat ≠ Reg.cprClkmonEvt by decide))]
    exact getF_fit _ (clkFd (clkBit k)) _ (show clkBit k + 1 ≤ 32 by omega) (show 1 < 2 ^ 1 by decide)
  have hevt : u.getF ⟨Reg.cprClkmonEvt, clkBit k, 1⟩ = 1 := by
    rw [hu]
    exact getF_fit _ _ _ (show clkBit k + 1 ≤ 32 by omega) (show 1 < 2 ^ 1 by decide)
  have honly : OnlyFields s u [clkFd (clkBit k), ⟨Reg.cprClkmonEvt, clkBit k, 1⟩] :=
    hu ▸ ((OnlyFields.refl s _).stepF _ _ (by simp)).stepF _ _ (by simp)
  have htrip : s.clkTrip k = w := by
    have hnone : Tbl.get (fun _ => none) u.cpr.fell (clkBit k) = none := by rw [hro]; exact hfell
    have hset : s.setFs [(clkFd (clkBit k), 1), (⟨Reg.cprClkmonEvt, clkBit k, 1⟩, 1)] = u := by rw [hu]; rfl
    unfold State.clkTrip
    dsimp only
    rw [if_neg (by omega), hset, hnone, if_pos rfl, hw, hro]
  have hL0 : ∀ p, p < 64 → w.inL0 p = false := by
    intro p hp
    rw [← hdown p hp]
    have habove := portLpStat_above p
    refine inL0_of_rd ((honly.of_regs hregs).rd_of_addr_ne (fun f hf => ?_))
    simp only [List.mem_cons, List.not_mem_nil, or_false] at hf
    rcases hf with rfl | rfl
    · simp only [clkFd, Reg.cprClkmonStat]; omega
    · simp only [Reg.cprClkmonEvt]; omega
  have hrun : s.clockTripped k = w := by
    unfold State.clockTripped
    rw [if_neg (by omega), htrip]
    cases k with
    | refclk c => exact w.recoverAll_of_down _ (fun p hp => hL0 p (clusterLps_lt c p hp))
    | main => exact w.recoverAll_of_down _ (fun p hp => hL0 p (List.mem_range.mp hp))
    | meter => rfl
  refine Completes.of_eq w (exec_clockMonitorTrip k s) hrun (by rw [hw, hro]; rfl) (by rw [hw, hro]; rfl)
    ⟨(getF_regs hregs _).trans hstat, (getF_regs hregs _).trans hevt, ?_, honly.of_regs hregs, ?_⟩
  · rw [hw, hro]
    rfl
  · rw [hw, hro]
    rfl

/-- REFCLK_LOSS after its trip. -/
def State.clockLost (s : State) (k : Clk) : State :=
  let s := s.clkTrip k
  match k with
  | .refclk c =>
    (clusterLps c.val).foldl (fun s p => if s.lpExists p then s.linkDown p else s) (s.setF ⟨Reg.cprClkStat, 3 + c.val, 1⟩ 0)
  | .main =>
    if s.getF Fld.cprClkStatAonBackup = 1 then s
    else (s.setFs [(Fld.cprClkStatAonBackup, 1), (Fld.cprClkStatHoldover, 1)]).recoverAll (List.range 64)
  | .meter => (s.setF Fld.cprClkStatTallyHoldover 1).meterLinkLoss

theorem exec_refclkLoss (k : Clk) (s : State) : exec (.refclkLoss k) s = act s (·.clockLost k) := rfl

theorem completes_refclkLoss_meter (s : State) (hbit : s.getF (clkFd 17) = 1) (hdown : s.mz.down ≠ none) :
    Completes (.refclkLoss .meter) s (fun t => t.getF Fld.cprClkStatTallyHoldover = 1 ∧ RegsOnly s t [Fld.cprClkStatTallyHoldover]) := by
  have htrip : s.clkTrip .meter = s := if_pos hbit
  have hlost : (s.setF Fld.cprClkStatTallyHoldover 1).meterLinkLoss = s.setF Fld.cprClkStatTallyHoldover 1 :=
    if_pos (Option.isSome_iff_ne_none.mpr hdown)
  have hrun : s.clockLost .meter = s.setF Fld.cprClkStatTallyHoldover 1 := by
    unfold State.clockLost
    rw [htrip]
    exact hlost
  exact Completes.of_eq _ (exec_refclkLoss .meter s) hrun rfl rfl ⟨getF_fit _ _ _ (by decide) (by decide), RegsOnly.setF s _ _⟩

theorem completes_refclkLoss_main (s : State) (hbit : s.getF (clkFd 16) = 1) (hL0 : ∀ p, p < 64 → s.inL0 p = false)
    (hbackup : s.getF Fld.cprClkStatAonBackup = 0) :
    Completes (.refclkLoss .main) s (fun t => t.getF Fld.cprClkStatAonBackup = 1 ∧ t.getF Fld.cprClkStatHoldover = 1 ∧
      RegsOnly s t [Fld.cprClkStatAonBackup, Fld.cprClkStatHoldover]) := by
  obtain ⟨u, hu⟩ : ∃ u, u = (s.setF Fld.cprClkStatAonBackup 1).setF Fld.cprClkStatHoldover 1 := ⟨_, rfl⟩
  have htrip : s.clkTrip .main = s := if_pos hbit
  have honly : OnlyFields s u [Fld.cprClkStatAonBackup, Fld.cprClkStatHoldover] :=
    hu ▸ ((OnlyFields.refl s _).stepF _ _ (by simp)).stepF _ _ (by simp)
  have hdown : ∀ p ∈ List.range 64, u.inL0 p = false := by
    intro p hp
    rw [← hL0 p (List.mem_range.mp hp)]
    have habove := portLpStat_above p
    refine inL0_of_rd (honly.rd_of_addr_ne (fun f hf => ?_))
    simp only [List.mem_cons, List.not_mem_nil, or_false] at hf
    rcases hf with rfl | rfl
    · simp only [Fld.cprClkStatAonBackup, Reg.cprClkStat]; omega
    · simp only [Fld.cprClkStatHoldover, Reg.cprClkStat]; omega
  have hrun : s.clockLost .main = u := by
    unfold State.clockLost
    dsimp only
    rw [htrip, if_neg (by omega), setFs2, ← hu]
    exact u.recoverAll_of_down _ hdown
  refine Completes.of_eq u (exec_refclkLoss .main s) hrun (by rw [hu]; rfl) (by rw [hu]; rfl) ⟨?_, ?_, by rw [hu]; rfl, honly⟩
  · rw [hu, State.getF_setF_ne _ Fld.cprClkStatHoldover _ _ (by decide)]
    exact getF_fit _ _ _ (by decide) (by decide)
  · exact hu ▸ getF_fit _ _ _ (by decide) (by decide)

/-- A clock in range shows no trip, and when it fell. -/
theorem State.clkGood_says (s : State) {b : Nat} (h : b < 18) : (s.clkGood b).getF (clkFd b) = 0 ∧
    OnlyFields s (s.clkGood b) [clkFd b] ∧ s.clkGood b = { s with regs := (s.clkGood b).regs, cpr := (s.clkGood b).cpr } := by
  unfold State.clkGood
  split
  · rename_i hzero
    exact ⟨hzero, OnlyFields.refl s _, rfl⟩
  · refine ⟨getF_fit s (clkFd b) 0 (show b + 1 ≤ 32 by omega) (show 0 < 2 ^ 1 by decide), ?_, rfl⟩
    exact ((OnlyFields.refl s _).stepF (clkFd b) 0 (by simp)).of_regs rfl

/-- AON returns to its reference. -/
def State.mainReturned (s : State) : State :=
  ((s.clkGood 16).setCpr (fun c => { c with fell := Tbl.set (fun _ => none) c.fell 16 none })).setFs
    [(Fld.cprClkStatAonBackup, 0), (Fld.cprClkStatHoldover, 0)]

theorem exec_refclkMainReturn (s : State) : exec .refclkMainReturn s = act s (·.mainReturned) := rfl

theorem completes_refclkMainReturn (s : State) : Completes .refclkMainReturn s (fun t => t.getF Fld.cprClkStatAonBackup = 0 ∧
    t.getF Fld.cprClkStatHoldover = 0 ∧ t.getF Fld.cprClkmonStatMain = 0 ∧ Tbl.get (fun _ => none) t.cpr.fell 16 = none ∧
    OnlyFields s t [Fld.cprClkStatAonBackup, Fld.cprClkStatHoldover, Fld.cprClkmonStatMain] ∧ t = { s with regs := t.regs, cpr := t.cpr }) := by
  obtain ⟨hzero, honly, hframe⟩ := s.clkGood_says (b := 16) (by decide)
  obtain ⟨u, hu⟩ : ∃ u, u = (s.clkGood 16).setCpr (fun c => { c with fell := Tbl.set (fun _ => none) c.fell 16 none }) := ⟨_, rfl⟩
  obtain ⟨w, hw⟩ : ∃ w, w = (u.setF Fld.cprClkStatAonBackup 0).setF Fld.cprClkStatHoldover 0 := ⟨_, rfl⟩
  have huregs : u.regs = (s.clkGood 16).regs := by rw [hu]; rfl
  have hrun : s.mainReturned = w := by rw [hw, hu]; rfl
  have hsame : w = { s with regs := w.regs, cpr := w.cpr } := by rw [hw, hu, hframe]; rfl
  refine Completes.of_eq w (exec_refclkMainReturn s) hrun (by rw [hsame]) (by rw [hsame]) ⟨?_, ?_, ?_, ?_, ?_, hsame⟩
  · rw [hw, State.getF_setF_ne _ Fld.cprClkStatHoldover _ _ (by decide)]
    exact getF_fit _ _ _ (by decide) (by decide)
  · exact hw ▸ getF_fit _ _ _ (by decide) (by decide)
  · rw [hw, State.getF_setF_ne _ Fld.cprClkStatHoldover _ _ (by decide), State.getF_setF_ne _ Fld.cprClkStatAonBackup _ _ (by decide)]
    exact (getF_regs huregs _).trans hzero
  · rw [hw, hu]
    exact Tbl.get_set_same _ _ _ _
  · have hsub : OnlyFields s u [Fld.cprClkStatAonBackup, Fld.cprClkStatHoldover, Fld.cprClkmonStatMain] := by
      have hmain : clkFd 16 = Fld.cprClkmonStatMain := rfl
      exact (honly.mono (by simp [hmain])).of_regs huregs
    rw [hw]
    exact (hsub.stepF _ _ (by simp)).stepF _ _ (by simp)

/-- CLUSTER_PLL_RELOCK. -/
def State.clusterRelocked (s : State) (c : Fin 16) : State :=
  if s.getF Fld.cprClkStatCoreLock = 1 then (s.clkGood c.val).setF ⟨Reg.cprClkStat, 3 + c.val, 1⟩ 1 else s

theorem exec_clusterPllRelock (c : Fin 16) (s : State) : exec (.clusterPllRelock c) s = act s (·.clusterRelocked c) := rfl

theorem completes_clusterPllRelock (s : State) (c : Fin 16) : (s.getF Fld.cprClkStatCoreLock = 0 → exec (.clusterPllRelock c) s = .next s) ∧
    (s.getF Fld.cprClkStatCoreLock = 1 → Completes (.clusterPllRelock c) s (fun t =>
      t.getF ⟨Reg.cprClkStat, 3 + c.val, 1⟩ = 1 ∧ t.getF (clkFd c.val) = 0 ∧
      OnlyFields s t [⟨Reg.cprClkStat, 3 + c.val, 1⟩, clkFd c.val] ∧ t = { s with regs := t.regs, cpr := t.cpr })) := by
  refine ⟨fun h => exec_of_act s (exec_clusterPllRelock c s) (if_neg (by omega)) rfl rfl, fun h => ?_⟩
  have hlt := c.isLt
  obtain ⟨hzero, honly, hframe⟩ := s.clkGood_says (b := c.val) (by omega)
  obtain ⟨u, hu⟩ : ∃ u, u = s.clkGood c.val := ⟨_, rfl⟩
  rw [← hu] at hzero honly hframe
  have hrun : s.clusterRelocked c = u.setF ⟨Reg.cprClkStat, 3 + c.val, 1⟩ 1 := (if_pos h).trans (by rw [hu])
  have hsame : u.setF ⟨Reg.cprClkStat, 3 + c.val, 1⟩ 1 =
      { s with regs := (u.setF ⟨Reg.cprClkStat, 3 + c.val, 1⟩ 1).regs, cpr := (u.setF ⟨Reg.cprClkStat, 3 + c.val, 1⟩ 1).cpr } := by
    rw [hframe]
    rfl
  refine Completes.of_eq _ (exec_clusterPllRelock c s) hrun (by rw [hsame]) (by rw [hsame]) ⟨?_, ?_, ?_, hsame⟩
  · exact getF_fit _ _ _ (show 3 + c.val + 1 ≤ 32 by omega) (show 1 < 2 ^ 1 by decide)
  · rw [State.getF_setF_ne _ _ _ _ (.inl (show Reg.cprClkmonStat ≠ Reg.cprClkStat by decide))]
    exact hzero
  · exact (honly.mono (by simp)).stepF _ _ (by simp)

/-! ### Supplies (R415) -/

/-- A rail that tripped last in `last` raises its source again (R415; log 60). -/
def State.railAgain (s : State) (last : Option Nat) : Bool :=
  match last with
  | some t => s.aonPast t 250000
  | none => true

/-- SUPPLY_MONITOR_TRIP. -/
def State.railTripped (s : State) (r : Rail) : State :=
  let again := s.railAgain (Tbl.get (fun _ => none) s.cpr.trips r.val)
  let s := (s.setFs [(⟨Reg.cprSupplyStat, r.val, 1⟩, 0), (⟨Reg.cprSupplyEvt, r.val, 1⟩, 1)]).setCpr
    (fun c => { c with trips := Tbl.set (fun _ => none) c.trips r.val (some s.tick) })
  if again then s.raise { src := 0x14, tick := s.tick, d0 := r.val } else s

theorem exec_supplyMonitorTrip (r : Rail) (s : State) : exec (.supplyMonitorTrip r) s = act s (·.railTripped r) := rfl

theorem completes_supplyMonitorTrip (s : State) (r : Rail) (last : Option Nat) (hlast : Tbl.get (fun _ => none) s.cpr.trips r.val = last) :
    Completes (.supplyMonitorTrip r) s (fun t =>
      t.getF ⟨Reg.cprSupplyStat, r.val, 1⟩ = 0 ∧ t.getF ⟨Reg.cprSupplyEvt, r.val, 1⟩ = 1 ∧
      Tbl.get (fun _ => none) t.cpr.trips r.val = some s.tick ∧
      ((last = none ∨ ∃ n, last = some n ∧ s.aonPast n 250000 = true) →
        t.flt = { s.flt with tickEvents := s.flt.tickEvents ++ [{ src := 0x14, tick := s.tick, d0 := r.val }] }) ∧
      (∀ n, last = some n → s.aonPast n 250000 = false → t.flt = s.flt) ∧
      OnlyFields s t [⟨Reg.cprSupplyStat, r.val, 1⟩, ⟨Reg.cprSupplyEvt, r.val, 1⟩] ∧ t = { s with regs := t.regs, flt := t.flt, cpr := t.cpr }) := by
  have hlt := r.isLt
  obtain ⟨v, hv⟩ : ∃ v, v = (s.setF ⟨Reg.cprSupplyStat, r.val, 1⟩ 0).setF ⟨Reg.cprSupplyEvt, r.val, 1⟩ 1 := ⟨_, rfl⟩
  obtain ⟨u, hu⟩ : ∃ u, u = v.setCpr (fun c => { c with trips := Tbl.set (fun _ => none) c.trips r.val (some s.tick) }) := ⟨_, rfl⟩
  obtain ⟨again, hagain⟩ : ∃ again : Bool, again = s.railAgain last := ⟨_, rfl⟩
  obtain ⟨w, hw⟩ : ∃ w, w = if again then u.raise { src := 0x14, tick := s.tick, d0 := r.val } else u := ⟨_, rfl⟩
  have hrun : s.railTripped r = w := by
    unfold State.railTripped
    dsimp only
    rw [hlast, ← hagain, setFs2, ← hv, ← hu, hw, hu, hv]
    rfl
  have hregs : w.regs = v.regs := by
    rw [hw]
    split
    · rw [hu]; rfl
    · rw [hu]; rfl
  have hcpr : w.cpr = u.cpr := by
    rw [hw]
    split <;> rfl
  have huflt : u.flt = s.flt := by rw [hu, hv]; rfl
  have hsame : w = { s with regs := w.regs, flt := w.flt, cpr := w.cpr } := by
    rw [hw]
    split
    · rw [hu, hv]; rfl
    · rw [hu, hv]; rfl
  have hstat : v.getF ⟨Reg.cprSupplyStat, r.val, 1⟩ = 0 := by
    rw [hv, State.getF_setF_ne _ _ _ _ (.inl (show Reg.cprSupplyStat ≠ Reg.cprSupplyEvt by decide))]
    exact getF_fit _ _ _ (show r.val + 1 ≤ 32 by omega) (show 0 < 2 ^ 1 by decide)
  have hevt : v.getF ⟨Reg.cprSupplyEvt, r.val, 1⟩ = 1 := by
    rw [hv]
    exact getF_fit _ _ _ (show r.val + 1 ≤ 32 by omega) (show 1 < 2 ^ 1 by decide)
  have honly : OnlyFields s v [⟨Reg.cprSupplyStat, r.val, 1⟩, ⟨Reg.cprSupplyEvt, r.val, 1⟩] :=
    hv ▸ ((OnlyFields.refl s _).stepF _ _ (by simp)).stepF _ _ (by simp)
  refine Completes.of_eq w (exec_supplyMonitorTrip r s) hrun (by rw [hsame]) (by rw [hsame])
    ⟨(getF_regs hregs _).trans hstat, (getF_regs hregs _).trans hevt, ?_, fun h => ?_, fun n hn hpast => ?_, honly.of_regs hregs, hsame⟩
  · rw [hcpr, hu]
    exact Tbl.get_set_same _ _ _ _
  · have htrue : again = true := by
      rcases h with h | ⟨n, h, hpast⟩
      · rw [hagain, h]
        rfl
      · rw [hagain, h, ← hpast]
        rfl
    rw [hw, if_pos htrue, ← huflt]
    rfl
  · have hfalse : again = false := by
      rw [hagain, hn, ← hpast]
      rfl
    rw [hw, if_neg (by simp [hfalse])]
    exact huflt

/-! ### Temperature and voltage (R417 to R420) -/

/-- The sensors' registers lie above those of the clocks, the supplies and AVS. -/
theorem State.senseRegs_says (s : State) (l : List Sensor) :
    RO s (s.senseRegs l) ∧ ∀ a, a < Reg.cprTsense 0 → (s.senseRegs l).rd a = s.rd a := by
  have hset : ∀ (t : State) (f : Fd) (v a : Nat), Reg.cprTsense 0 ≤ f.addr → a < Reg.cprTsense 0 → (t.setF f v).rd a = t.rd a :=
    fun t f v a hf ha => State.rd_setF_ne _ _ _ _ (by omega)
  have hread : ∀ i, Reg.cprTsense 0 ≤ (Fld.cprTsenseReading i).addr := fun i => by
    simp only [Fld.cprTsenseReading, Reg.cprTsense]; omega
  have hvalid : ∀ i, Reg.cprTsense 0 ≤ (Fld.cprTsenseValid i).addr := fun i => by
    simp only [Fld.cprTsenseValid, Reg.cprTsense]; omega
  refine List.foldlRecOn (motive := fun t => RO s t ∧ ∀ a, a < Reg.cprTsense 0 → t.rd a = s.rd a) _ _ ⟨RO.refl s, fun _ _ => rfl⟩
    (fun t ht i _ => ?_)
  obtain ⟨hro, hrd⟩ := ht
  split
  · split
    · rw [setFs2]
      exact ⟨(hro.stepF _ _).stepF _ _, fun a ha => by rw [hset _ _ _ a (hvalid i) ha, hset _ _ _ a (hread i) ha, hrd a ha]⟩
    · exact ⟨hro.stepF _ _, fun a ha => by rw [hset _ _ _ a (hvalid i) ha, hrd a ha]⟩
  · exact ⟨hro.stepF _ _, fun a ha => by rw [hset _ _ _ a (hvalid i) ha, hrd a ha]⟩

/-- Nothing differs but what the checks remember and what is raised. -/
def ChecksOnly (s t : State) : Prop := t = { s with flt := t.flt, cpr := t.cpr }

theorem State.gradCheck_checks (s : State) (g i : Nat) : ChecksOnly (s.setF Fld.cprThermStatGradient g) (s.gradCheck g i) := by
  unfold State.gradCheck
  dsimp only
  split
  · rfl
  · split <;> rfl

theorem State.hotCheck_checks (s : State) (i : Nat) (t : Int) : ChecksOnly s (s.hotCheck i t) := by
  unfold State.hotCheck
  split
  · rfl
  · split <;> rfl

/-- A gradient in range raises nothing. -/
theorem State.gradCheck_of_le (s : State) {g : Nat} (i : Nat) (h : g ≤ 25) :
    s.gradCheck g i = (s.setF Fld.cprThermStatGradient g).setCpr (fun c => { c with grad := false }) := if_pos h

/-- THERM_STAT's count and warning of a sample. -/
def State.thermCounted (s : State) (l : List (Nat × Int)) : State :=
  s.setFs [(Fld.cprThermStatValidCnt, l.length), (Fld.cprThermStatWarn,
    bit (l.any (fun x => decide ((s.getF Fld.cprThermCtlWarnC : Int) ≤ x.2))))]

/-- Registers and checks of a sample's extremes. -/
def State.thermExtremes (s : State) (h : Nat × Int) (c : Int) : State :=
  ((s.setFs [(Fld.cprThermStatHottest, degBits h.2), (Fld.cprThermStatHotIdx, h.1)]).gradCheck (h.2 - c).toNat h.1).hotCheck h.1 h.2

theorem State.thermCheck_eq (s : State) (l : List (Nat × Int)) : s.thermCheck l =
    match hottest l, coolest l with
    | some h, some c => (s.thermCounted l).thermExtremes h c
    | _, _ => s.thermCounted l := rfl

theorem validReadings_length (l : List Sensor) : (validReadings l).length ≤ 16 :=
  (List.length_filterMap_le _ _).trans (by rw [List.length_range])

theorem State.thermCounted_says (s : State) {l : List (Nat × Int)} (h : l.length ≤ 16) :
    (s.thermCounted l).getF Fld.cprThermStatValidCnt = l.length ∧ RO s (s.thermCounted l) ∧
    ∀ a, a ≠ Reg.cprThermStat → (s.thermCounted l).rd a = s.rd a := by
  unfold State.thermCounted
  rw [setFs2]
  refine ⟨?_, ((RO.refl s).stepF _ _).stepF _ _, fun a ha => ?_⟩
  · rw [State.getF_setF_ne _ Fld.cprThermStatWarn _ _ (by decide)]
    exact getF_fit _ _ _ (by decide) (Nat.lt_of_le_of_lt h (by decide))
  · rw [State.rd_setF_ne _ Fld.cprThermStatWarn _ _ ha, State.rd_setF_ne _ Fld.cprThermStatValidCnt _ _ ha]

theorem State.thermExtremes_says (s : State) (h : Nat × Int) (c : Int) :
    (s.thermExtremes h c).getF Fld.cprThermStatValidCnt = s.getF Fld.cprThermStatValidCnt ∧
    (s.thermExtremes h c).getF Fld.cprThermStatHottest = degBits h.2 ∧ (s.thermExtremes h c).out = s.out ∧
    ∀ a, a ≠ Reg.cprThermStat → (s.thermExtremes h c).rd a = s.rd a := by
  obtain ⟨u, hu⟩ : ∃ u, u = (s.setF Fld.cprThermStatHottest (degBits h.2)).setF Fld.cprThermStatHotIdx h.1 := ⟨_, rfl⟩
  obtain ⟨g, hg⟩ : ∃ g, g = u.gradCheck (h.2 - c).toNat h.1 := ⟨_, rfl⟩
  have hrun : s.thermExtremes h c = g.hotCheck h.1 h.2 := by rw [hg, hu]; rfl
  have hgrad : ChecksOnly (u.setF Fld.cprThermStatGradient (h.2 - c).toNat) g := hg ▸ u.gradCheck_checks _ _
  have hregs : (s.thermExtremes h c).regs = (u.setF Fld.cprThermStatGradient (h.2 - c).toNat).regs := by
    rw [hrun, g.hotCheck_checks h.1 h.2, hgrad]
  refine ⟨?_, ?_, ?_, fun a ha => ?_⟩
  · rw [getF_regs hregs, State.getF_setF_ne _ Fld.cprThermStatGradient _ _ (by decide), hu,
      State.getF_setF_ne _ Fld.cprThermStatHotIdx _ _ (by decide), State.getF_setF_ne _ Fld.cprThermStatHottest _ _ (by decide)]
  · rw [getF_regs hregs, State.getF_setF_ne _ Fld.cprThermStatGradient _ _ (by decide), hu,
      State.getF_setF_ne _ Fld.cprThermStatHotIdx _ _ (by decide)]
    exact getF_fit _ _ _ (by decide) (BitVec.isLt _)
  · rw [hrun, g.hotCheck_checks h.1 h.2, hgrad, hu]
    rfl
  · have hkeep : (u.setF Fld.cprThermStatGradient (h.2 - c).toNat).rd a = s.rd a := by
      rw [State.rd_setF_ne _ Fld.cprThermStatGradient _ _ ha, hu, State.rd_setF_ne _ Fld.cprThermStatHotIdx _ _ ha,
        State.rd_setF_ne _ Fld.cprThermStatHottest _ _ ha]
    exact (congrArg (Tbl.get regReset · a) hregs).trans hkeep

/-- The checks of a sample count its valid sensors, and leave the registers of AVS and what was sent. -/
theorem State.thermCheck_says (s : State) {l : List (Nat × Int)} (hlen : l.length ≤ 16) :
    (s.thermCheck l).getF Fld.cprThermStatValidCnt = l.length ∧ (s.thermCheck l).out = s.out ∧
    ∀ a, a ≠ Reg.cprThermStat → (s.thermCheck l).rd a = s.rd a := by
  obtain ⟨hcnt, hro, hrd⟩ := s.thermCounted_says hlen
  rw [s.thermCheck_eq]
  split
  · rename_i h c _ _
    obtain ⟨hcnt', -, hout, hrd'⟩ := (s.thermCounted l).thermExtremes_says h c
    exact ⟨hcnt'.trans hcnt, by rw [hout, hro], fun a ha => (hrd' a ha).trans (hrd a ha)⟩
  · exact ⟨hcnt, by rw [hro], hrd⟩

/-- AVS_STAT shows a sample's outcome, and the target is sent. -/
def State.avsShown (s : State) (t mv : Nat) (fixed : Bool) : State :=
  (s.setFs [(Fld.cprAvsStatTargetMv, t), (Fld.cprAvsStatReadMv, mv), (Fld.cprAvsStatFixed, bit fixed)]).emit (.avs t)

theorem State.avsShown_says (s : State) {t mv : Nat} (fixed : Bool) (ht : t < 1024) (hmv : mv < 1024) :
    (s.avsShown t mv fixed).getF Fld.cprAvsStatTargetMv = t ∧ (s.avsShown t mv fixed).getF Fld.cprAvsStatReadMv = mv ∧
    (s.avsShown t mv fixed).getF Fld.cprAvsStatFixed = bit fixed ∧ (s.avsShown t mv fixed).out = .avs t :: s.out ∧
    (s.avsShown t mv fixed).flt = s.flt ∧ ∀ a, a ≠ Reg.cprAvsStat → (s.avsShown t mv fixed).rd a = s.rd a := by
  obtain ⟨u, hu⟩ : ∃ u, u = ((s.setF Fld.cprAvsStatTargetMv t).setF Fld.cprAvsStatReadMv mv).setF Fld.cprAvsStatFixed (bit fixed) := ⟨_, rfl⟩
  have hregs : (s.avsShown t mv fixed).regs = u.regs := by rw [hu]; rfl
  refine ⟨?_, ?_, ?_, rfl, rfl, fun a ha => ?_⟩
  · rw [getF_regs hregs, hu, State.getF_setF_ne _ Fld.cprAvsStatFixed _ _ (by decide), State.getF_setF_ne _ Fld.cprAvsStatReadMv _ _ (by decide)]
    exact getF_fit _ _ _ (by decide) ht
  · rw [getF_regs hregs, hu, State.getF_setF_ne _ Fld.cprAvsStatFixed _ _ (by decide)]
    exact getF_fit _ _ _ (by decide) hmv
  · rw [getF_regs hregs, hu]
    exact getF_fit _ _ _ (by decide) (by cases fixed <;> decide)
  · have hkeep : u.rd a = s.rd a := by
      rw [hu, State.rd_setF_ne _ Fld.cprAvsStatFixed _ _ ha, State.rd_setF_ne _ Fld.cprAvsStatReadMv _ _ ha,
        State.rd_setF_ne _ Fld.cprAvsStatTargetMv _ _ ha]
    exact (congrArg (Tbl.get regReset · a) hregs).trans hkeep

/-- The count of samples not acknowledged, kept. -/
def State.avsAcked (s : State) (acked : Bool) : State :=
  let n := if acked then 0 else s.cpr.noack + 1
  let s := s.setCpr (fun c => { c with noack := n })
  if 3 ≤ n then s.setF Fld.cprAvsStatNoack 1 else s

theorem State.avsAcked_says (s : State) (acked : Bool) : (s.avsAcked acked).out = s.out ∧ (s.avsAcked acked).flt = s.flt ∧
    (s.avsAcked acked).cpr.grad = s.cpr.grad ∧ (∀ g, g ≠ Fld.cprAvsStatNoack → g ∈ [Fld.cprAvsStatTargetMv, Fld.cprAvsStatCorner] →
      (s.avsAcked acked).getF g = s.getF g) ∧ ∀ a, a ≠ Reg.cprAvsStat → (s.avsAcked acked).rd a = s.rd a := by
  unfold State.avsAcked
  dsimp only
  generalize (if acked = true then 0 else s.cpr.noack + 1) = n
  split
  · refine ⟨rfl, rfl, rfl, fun g _ hg => ?_, fun a ha => State.rd_setF_ne _ _ _ _ ha⟩
    simp only [List.mem_cons, List.not_mem_nil, or_false] at hg
    rcases hg with rfl | rfl
    · exact State.getF_setF_ne _ Fld.cprAvsStatNoack _ _ (by decide)
    · exact State.getF_setF_ne _ Fld.cprAvsStatNoack _ _ (by decide)
  · exact ⟨rfl, rfl, rfl, fun _ _ _ => rfl, fun _ _ => rfl⟩

/-- The sample holds the fixed voltage (R418). -/
def State.avsFixed (s : State) (l : List (Nat × Int)) (early acked : Bool) : Bool :=
  decide (l.length < 12) || (!decide (s.getF Fld.cprAvsCtlEn = 1) && !decide (s.getF Fld.cprAvsCtlManual = 1)) ||
    decide (3 ≤ if acked then 0 else s.cpr.noack + 1) || (early && s.cpr.grad)

/-- The voltage wanted (R417). -/
def State.avsWanted (s : State) (l : List (Nat × Int)) : Nat :=
  if s.getF Fld.cprAvsCtlEn = 1 then avsWant (s.getF Fld.cprAvsStatCorner) (((hottest l).map (·.2)).getD 0)
  else max 880 (min 960 (s.getF Fld.cprAvsCtlManualMv))

/-- A sample shows the fixed voltage, or a step toward the one wanted. -/
theorem State.avsSample_eq (s : State) (l : List (Nat × Int)) (early acked : Bool) (mv : Nat) :
    s.avsSample l early acked mv = (s.avsAcked acked).avsShown
      (if s.avsFixed l early acked then 960 else avsStep (s.getF Fld.cprAvsStatTargetMv) (s.avsWanted l)) mv (s.avsFixed l early acked) := by
  obtain ⟨u, hu⟩ : ∃ u, u = s.avsAcked acked := ⟨_, rfl⟩
  obtain ⟨-, -, hgrad, hstat, hrd⟩ := s.avsAcked_says acked
  rw [← hu] at hgrad hstat hrd
  have hctl : ∀ g : Fd, g.addr = Reg.cprAvsCtl → u.getF g = s.getF g := fun g hg => getF_addr g (by rw [hg]; exact hrd _ (by decide))
  have hfixed : s.avsFixed l early acked = (decide (l.length < 12) || (!decide (u.getF Fld.cprAvsCtlEn = 1) &&
      !decide (u.getF Fld.cprAvsCtlManual = 1)) || decide (3 ≤ if acked then 0 else s.cpr.noack + 1) || (early && u.cpr.grad)) := by
    rw [hctl Fld.cprAvsCtlEn rfl, hctl Fld.cprAvsCtlManual rfl, hgrad]
    rfl
  have hwant : s.avsWanted l = if decide (u.getF Fld.cprAvsCtlEn = 1) then avsWant (u.getF Fld.cprAvsStatCorner) (((hottest l).map (·.2)).getD 0)
      else max 880 (min 960 (u.getF Fld.cprAvsCtlManualMv)) := by
    rw [hctl Fld.cprAvsCtlEn rfl, hctl Fld.cprAvsCtlManualMv rfl, hstat Fld.cprAvsStatCorner (by decide) (by simp)]
    unfold State.avsWanted
    simp only [decide_eq_true_eq]
  rw [hfixed, hwant, ← hstat Fld.cprAvsStatTargetMv (by decide) (by simp), ← hu]
  unfold State.avsSample
  rw [hu]
  rfl

theorem avsWant_le (corner : Nat) (hot : Int) : avsWant corner hot ≤ 960 := Nat.min_le_left _ _

/-- A step toward a target in range stays in the field. -/
theorem avsStep_lt {cur want : Nat} (hcur : cur < 1024) (hwant : want ≤ 960) : avsStep cur want < 1024 := by
  unfold avsStep
  split <;> omega

/-- A sample's sensors, its checks, and the AVS master's part. -/
def State.sensorSampled (s : State) (sensors : List Sensor) (acked : Bool) (mv : Nat) : State :=
  ((s.senseRegs sensors).thermCheck (validReadings sensors)).avsSample (validReadings sensors) s.cpr.grad acked mv

theorem exec_sensorSample (l : List Sensor) (acked : Bool) (mv : BitVec 10) (s : State) :
    exec (.sensorSample l acked mv) s = act s (·.sensorSampled l acked mv.toNat) := rfl

/-- What a sample's checks leave of the AVS registers and of what was sent. -/
theorem State.sensed_keeps (s : State) (l : List Sensor) :
    ((s.senseRegs l).thermCheck (validReadings l)).getF Fld.cprThermStatValidCnt = (validReadings l).length ∧
    ((s.senseRegs l).thermCheck (validReadings l)).out = s.out ∧
    (∀ g : Fd, g.addr = Reg.cprAvsCtl ∨ g.addr = Reg.cprAvsStat → ((s.senseRegs l).thermCheck (validReadings l)).getF g = s.getF g) := by
  obtain ⟨hro, hlow⟩ := s.senseRegs_says l
  obtain ⟨hcnt, hout, hrd⟩ := (s.senseRegs l).thermCheck_says (validReadings_length l)
  refine ⟨hcnt, by rw [hout, hro], fun g hg => getF_addr g ?_⟩
  rcases hg with hg | hg
  · rw [hg]
    exact (hrd _ (by decide)).trans (hlow _ (by decide))
  · rw [hg]
    exact (hrd _ (by decide)).trans (hlow _ (by decide))

theorem completes_sensorSample_fixed (s : State) (l : List Sensor) (acked : Bool) (mv : BitVec 10)
    (h : (validReadings l).length < 12 ∨ s.getF Fld.cprAvsCtlEn = 0 ∧ s.getF Fld.cprAvsCtlManual = 0) :
    Completes (.sensorSample l acked mv) s (fun t => t.getF Fld.cprAvsStatTargetMv = 960 ∧ t.getF Fld.cprAvsStatFixed = 1 ∧
      t.getF Fld.cprAvsStatReadMv = mv.toNat ∧ t.out = .avs 960 :: s.out ∧ t.getF Fld.cprThermStatValidCnt = (validReadings l).length) := by
  obtain ⟨u, hu⟩ : ∃ u, u = (s.senseRegs l).thermCheck (validReadings l) := ⟨_, rfl⟩
  obtain ⟨hcnt, hout, hctl⟩ := s.sensed_keeps l
  rw [← hu] at hcnt hout hctl
  have hfixed : u.avsFixed (validReadings l) s.cpr.grad acked = true := by
    unfold State.avsFixed
    rcases h with hfew | ⟨hen, hman⟩
    · simp [hfew]
    · rw [hctl Fld.cprAvsCtlEn (.inl rfl), hctl Fld.cprAvsCtlManual (.inl rfl), hen, hman]
      simp
  obtain ⟨hackout, -, -, -, hackrd⟩ := u.avsAcked_says acked
  obtain ⟨htarget, hread, hfix, hshown, -, hkeep⟩ := (u.avsAcked acked).avsShown_says (t := 960) (mv := mv.toNat) true (by decide) mv.isLt
  have hrun : s.sensorSampled l acked mv.toNat = (u.avsAcked acked).avsShown 960 mv.toNat true := by
    unfold State.sensorSampled
    rw [← hu, State.avsSample_eq, hfixed]
    rfl
  refine Completes.of_any _ (exec_sensorSample l acked mv s) hrun ⟨htarget, hfix, hread, ?_, ?_⟩
  · exact hshown.trans (by rw [hackout, hout])
  · exact (getF_addr Fld.cprThermStatValidCnt ((hkeep Reg.cprThermStat (by decide)).trans (hackrd Reg.cprThermStat (by decide)))).trans hcnt

theorem completes_sensorSample_stepped (s : State) (l : List Sensor) (h : Nat × Int) (c : Int) (mv : BitVec 10)
    (hmany : 12 ≤ (validReadings l).length) (hhot : hottest (validReadings l) = some h) (hcool : coolest (validReadings l) = some c)
    (hgrad : h.2 - c ≤ 25) (hen : s.getF Fld.cprAvsCtlEn = 1) :
    Completes (.sensorSample l true mv) s (fun t =>
      t.getF Fld.cprAvsStatTargetMv = avsStep (s.getF Fld.cprAvsStatTargetMv) (avsWant (s.getF Fld.cprAvsStatCorner) h.2) ∧ t.getF Fld.cprAvsStatFixed = 0 ∧
      t.out = .avs (avsStep (s.getF Fld.cprAvsStatTargetMv) (avsWant (s.getF Fld.cprAvsStatCorner) h.2)) :: s.out ∧
      t.getF Fld.cprThermStatHottest = degBits h.2 ∧
      (h.2 < 110 → t.flt = s.flt) ∧
      (115 ≤ h.2 → s.cpr.hot = false →
        t.flt = { s.flt with tickEvents := s.flt.tickEvents ++ [{ src := 0x13, tick := s.tick, d0 := h.1, d1 := h.2.toNat }] })) := by
  obtain ⟨q, hq⟩ : ∃ q, q = (s.senseRegs l).thermCounted (validReadings l) := ⟨_, rfl⟩
  obtain ⟨v, hv⟩ : ∃ v, v = ((q.setF Fld.cprThermStatHottest (degBits h.2)).setF Fld.cprThermStatHotIdx h.1).gradCheck (h.2 - c).toNat h.1 := ⟨_, rfl⟩
  obtain ⟨u, hu⟩ : ∃ u, u = (s.senseRegs l).thermCheck (validReadings l) := ⟨_, rfl⟩
  obtain ⟨-, hout, hctl⟩ := s.sensed_keeps l
  rw [← hu] at hout hctl
  have huq : u = q.thermExtremes h c := by rw [hu, State.thermCheck_eq, hhot, hcool, hq]
  have huv : u = v.hotCheck h.1 h.2 := by rw [huq, hv]; rfl
  have hqs : RO s q := by
    rw [hq]
    exact (s.senseRegs_says l).1.trans ((s.senseRegs l).thermCounted_says (validReadings_length l)).2.1
  have hle : (h.2 - c).toNat ≤ 25 := by omega
  have hvs : v = State.setCpr (((q.setF Fld.cprThermStatHottest (degBits h.2)).setF Fld.cprThermStatHotIdx h.1).setF Fld.cprThermStatGradient
      (h.2 - c).toNat) (fun c => { c with grad := false }) := hv.trans (State.gradCheck_of_le _ _ hle)
  have hvgrad : v.cpr.grad = false := by rw [hvs]; rfl
  have hvhot : v.cpr.hot = s.cpr.hot := by rw [hvs, hqs]; rfl
  have hvflt : v.flt = s.flt := by rw [hvs, hqs]; rfl
  have hvtick : v.tick = s.tick := by rw [hvs, hqs]; rfl
  have hugrad : u.cpr.grad = false := by
    rw [huv]
    unfold State.hotCheck
    split
    · exact hvgrad
    · split
      · exact hvgrad
      · exact hvgrad
  have hfixed : u.avsFixed (validReadings l) s.cpr.grad true = false := by
    unfold State.avsFixed
    rw [hctl Fld.cprAvsCtlEn (.inl rfl), hen, hugrad]
    simp [Nat.not_lt.mpr hmany]
  have hwanted : u.avsWanted (validReadings l) = avsWant (s.getF Fld.cprAvsStatCorner) h.2 := by
    unfold State.avsWanted
    rw [hctl Fld.cprAvsCtlEn (.inl rfl), if_pos hen, hctl Fld.cprAvsStatCorner (.inr rfl), hhot]
    rfl
  have hlt := avsStep_lt (s.getF_lt Fld.cprAvsStatTargetMv) (avsWant_le (s.getF Fld.cprAvsStatCorner) h.2)
  obtain ⟨hackout, hackflt, -, -, hackrd⟩ := u.avsAcked_says true
  obtain ⟨htarget, -, hfix, hshown, hshownflt, hkeep⟩ := (u.avsAcked true).avsShown_says (mv := mv.toNat) false hlt mv.isLt
  have hrun : s.sensorSampled l true mv.toNat = (u.avsAcked true).avsShown
      (avsStep (s.getF Fld.cprAvsStatTargetMv) (avsWant (s.getF Fld.cprAvsStatCorner) h.2)) mv.toNat false := by
    unfold State.sensorSampled
    rw [← hu, State.avsSample_eq, hfixed, hwanted, hctl Fld.cprAvsStatTargetMv (.inr rfl)]
    rfl
  have hflt : ((u.avsAcked true).avsShown
      (avsStep (s.getF Fld.cprAvsStatTargetMv) (avsWant (s.getF Fld.cprAvsStatCorner) h.2)) mv.toNat false).flt = u.flt := hshownflt.trans hackflt
  refine Completes.of_any _ (exec_sensorSample l true mv s) hrun
    ⟨htarget, hfix, hshown.trans (by rw [hackout, hout]), ?_, fun hcold => hflt.trans ?_, fun hwarm hfirst => hflt.trans ?_⟩
  · refine (getF_addr Fld.cprThermStatHottest ((hkeep Reg.cprThermStat (by decide)).trans (hackrd Reg.cprThermStat (by decide)))).trans ?_
    rw [huq]
    exact (q.thermExtremes_says h c).2.1
  · have hcool : v.hotCheck h.1 h.2 = v.setCpr (fun c => { c with hot := false }) := if_pos hcold
    rw [huv, hcool, ← hvflt]
    rfl
  · have hraise : v.hotCheck h.1 h.2 = (v.setCpr (fun c => { c with hot := true })).raise
        { src := 0x13, tick := v.tick, d0 := h.1, d1 := h.2.toNat } := by
      unfold State.hotCheck
      rw [if_neg (by omega), if_pos ⟨hwarm, by rw [hvhot, hfirst]; rfl⟩]
    rw [huv, hraise, ← hvflt, hvtick]
    rfl

/-- Settles O58: clock trips and returns, rails, and the sensors' samples, a command at a time. -/
theorem clocksSuppliesAndSensors : Obligations.ClocksSuppliesAndSensors := by
  unfold Obligations.ClocksSuppliesAndSensors
  exact ⟨exec_clockMonitorTrip_again, completes_clockMonitorTrip, completes_refclkLoss_meter, completes_refclkLoss_main,
    completes_refclkMainReturn, completes_clusterPllRelock, completes_supplyMonitorTrip, completes_sensorSample_fixed,
    completes_sensorSample_stepped⟩

end Sys2Proof.Machine
end

section
/-! SUPPORT. RETURN of a ring's command after an effect of its own, and the arrival of its input (O60). -/

open Sys2Proof Sys2Proof.Machine

namespace Sys2Proof.Machine

/-! ### RETURN after the command's effect (R373, R375) -/

/-- What RETURN of ring `r` reads is as SQ_HEAD's passing of the entry left it: the rings' registers and the instance's queues. -/
structure RingReady (s t : State) (i r : Nat) : Prop where
  stat : t.rd (Reg.stewardRingStat i r) = (s.passEntry i r).rd (Reg.stewardRingStat i r)
  cfg : ∀ a b, a < 2 → b < 16 → t.rd (Reg.stewardRingCfg a b) = s.rd (Reg.stewardRingCfg a b)
  baseLo : t.rd (Reg.stewardRingCqBaseLo i r) = s.rd (Reg.stewardRingCqBaseLo i r)
  baseHi : t.rd (Reg.stewardRingCqBaseHi i r) = s.rd (Reg.stewardRingCqBaseHi i r)
  epCfg : t.rd (Reg.stewardEpCfg i) = s.rd (Reg.stewardEpCfg i)
  tails : (t.ep i).tails = (s.ep i).tails
  d3Due : (t.ep i).d3Due = (s.ep i).d3Due

/-- Registers of the rings, and of the instances' own states. -/
def ringAddr (a : Nat) : Prop := 0x1F81000 ≤ a ∧ a < 0x1F83000 ∨ a = Reg.stewardEpCfg 0 ∨ a = Reg.stewardEpCfg 1

/-- An effect that leaves the rings' registers, and the instance's queues, leaves RETURN as it is. -/
theorem RingReady.after {s t u : State} {i r : Nat} (h : RingReady s t i r) (hi : i < 2) (hr : r < 16) (hrd : ∀ a, ringAddr a → u.rd a = t.rd a)
    (htails : (u.ep i).tails = (t.ep i).tails) (hd3 : (u.ep i).d3Due = (t.ep i).d3Due) : RingReady s u i r where
  stat := (hrd _ (.inl (by simp only [Reg.stewardRingStat]; omega))).trans h.stat
  cfg := fun a b ha hb => (hrd _ (.inl (by simp only [Reg.stewardRingCfg]; omega))).trans (h.cfg a b ha hb)
  baseLo := (hrd _ (.inl (by simp only [Reg.stewardRingCqBaseLo]; omega))).trans h.baseLo
  baseHi := (hrd _ (.inl (by simp only [Reg.stewardRingCqBaseHi]; omega))).trans h.baseHi
  epCfg := (hrd _ (.inr (by simp only [Reg.stewardEpCfg]; omega))).trans h.epCfg
  tails := htails.trans h.tails
  d3Due := hd3.trans h.d3Due

/-- A command marked otherwise keeps the queues. -/
theorem RingReady.setCmd {s t : State} {i r : Nat} (h : RingReady s t i r) (c : Option RingPhase) : RingReady s (t.setCmd i c) i r :=
  ⟨h.stat, h.cfg, h.baseLo, h.baseHi, h.epCfg, by rw [State.ep_setCmd_same]; exact h.tails, by rw [State.ep_setCmd_same]; exact h.d3Due⟩

/-- The command's registers as SQ_HEAD passes its entry. -/
theorem State.passEntry_ready {s t : State} {i : Nat} (h : CmdMoved s t i) (r : Nat) : RingReady s (t.passEntry i r) i r := by
  have hpass := h.passEntry r
  have hne : ∀ a b, Reg.stewardRingCfg a b ≠ Reg.stewardRingStat i r := fun a b => ringCfg_ne_ringStat a b i r
  refine ⟨?_, fun a b _ _ => hpass.rd _ (hne a b), hpass.rd _ (by simp only [Reg.stewardRingCqBaseLo, Reg.stewardRingStat]; omega),
    hpass.rd _ (by simp only [Reg.stewardRingCqBaseHi, Reg.stewardRingStat]; omega),
    hpass.rd _ (by simp only [Reg.stewardEpCfg, Reg.stewardRingStat]; omega), hpass.tails, hpass.d3Due⟩
  have hget : ∀ g, t.getF g = s.getF g := fun g => getF_regs h.regs g
  have hsize : t.sqSize i r = s.sqSize i r := State.sqSize_of_rd i r (congrArg (Tbl.get regReset · _) h.regs)
  have hrd : t.rd (Reg.stewardRingStat i r) = s.rd (Reg.stewardRingStat i r) := congrArg (Tbl.get regReset · _) h.regs
  refine (State.rd_wr_same t (Reg.stewardRingStat i r) _).trans (Eq.trans ?_ (State.rd_wr_same s (Reg.stewardRingStat i r) _).symm)
  rw [hget, hsize]
  exact congrArg (fun w => fieldPut w _ _ _) hrd

/-- Nothing differs but registers, the steward, free values, messages and what is sent. -/
def ReturnOnly (s t : State) : Prop := t = { s with regs := t.regs, stw := t.stw, freeCtr := t.freeCtr, out := t.out, dp := t.dp }

theorem ReturnOnly.refl (s : State) : ReturnOnly s s := rfl

theorem ReturnOnly.trans {s t u : State} (h : ReturnOnly s t) (g : ReturnOnly t u) : ReturnOnly s u := by
  unfold ReturnOnly at h g ⊢
  rw [g, h]

theorem ReturnOnly.of_made {s t : State} (h : MadeOnly s t) : ReturnOnly s t := by
  unfold ReturnOnly
  rw [h]

theorem ReturnOnly.of_regs {s t : State} (h : RO s t) : ReturnOnly s t := by
  unfold ReturnOnly
  rw [h]

/-- RETURN without an interrupt, and without output to consume, keeps the rest of the device. -/
theorem State.finishRet_only (s : State) (i r : Nat) (e : SqEntry) (status result need : Nat) (body : List Byte)
    (hcmd : (s.ep i).cmd = some (.ret r e status result body need (0, 0))) (hno : e.noInt = true) : ReturnOnly s (s.finishRet i) := by
  have hcq : ∀ (t : State) (st len : Nat), ReturnOnly t (t.writeCq i r e st result len) := by
    intro t st len
    rw [t.writeCq_of_noInt i r e st result len hno]
    have hemit : ReturnOnly t (t.emit (.dmaWrite i (t.cqAddr i r) (t.cqEntry i r e st result len))) := rfl
    exact (hemit.trans (.of_made (State.dmaWrite_made _ _ _ _))).trans (.of_regs (State.setFs_eq _ _))
  unfold State.finishRet
  rw [hcmd]
  dsimp only
  split
  · exact ReturnOnly.refl s
  · have hnone : ReturnOnly s (s.setCmd i none) := rfl
    split
    · exact hnone.trans (hcq _ _ _)
    · have hbody : ReturnOnly (s.setCmd i none) (if body.isEmpty then s.setCmd i none else (s.setCmd i none).dmaWrite i e.outAddr.toNat body) := by
        split
        · exact ReturnOnly.refl _
        · have hemit : ReturnOnly (s.setCmd i none) ((s.setCmd i none).emit (.dmaWrite i e.outAddr.toNat body)) := rfl
          exact hemit.trans (.of_made (State.dmaWrite_made _ _ _ _))
      exact (hnone.trans hbody).trans (hcq _ _ _)

/-- After RETURN of the only entry of the only ring that runs, no ring has an entry to fetch. -/
theorem RingReady.none_waiting {s w t : State} {i r status result : Nat} {e : SqEntry} {body : List Byte} (hw : RingReady s w i r)
    (h : ReturnDone w t i r e status result body (0, 0)) (halone : AloneOn s i r) (a b : Nat) (ha : a < 2) (hb : b < 16) : t.sqWaiting a b = false := by
  obtain ⟨hoff, hqueue⟩ := halone
  by_cases hab : (a, b) = (i, r)
  · obtain ⟨rfl, rfl⟩ := Prod.mk.inj hab
    refine State.sqWaiting_of_empty ?_
    have hhead : w.getF (Fld.stewardRingStatSqHead a b) = (s.getF (Fld.stewardRingStatSqHead a b) + 1) % s.sqSize a b :=
      (getF_addr (Fld.stewardRingStatSqHead a b) hw.stat).trans (s.passEntry_sqHead a b)
    rw [h.sqHead, hhead, hqueue]
    unfold State.sqTail
    rw [h.ep]
    exact congrArg (Tbl.get _ · b) hw.tails.symm
  · refine State.sqWaiting_of_off ((getF_addr _ ?_).trans (hoff a b ha hb hab))
    have hout : Reg.stewardRingCfg a b ≠ Reg.stewardMzOutRd := by simp only [Reg.stewardRingCfg, Reg.stewardMzOutRd]; omega
    exact (h.rd _ (ringCfg_ne_ringStat a b i r) hout).trans (hw.cfg a b ha hb)

section
variable {s u : State} {i r : Nat} {e : SqEntry} (status result : Nat) (body : List Byte) (hu : RingReady s u i r) (hi : i < 2) (hr : r < 16)
  (hserved : s.epServed i = true) (hd3 : (s.ep i).d3Due = false) (halone : AloneOn s i r) (hno : e.noInt = true)
  (hfits : status = 0 → body.length ≤ e.outLen.toNat)
include hu hi hr hserved hd3 halone hno hfits

/-- The command completes: its RETURN is written over the state that its effect left, and no further entry is fetched. -/
theorem applied_after : Returned { s with out := u.out } (u.applied i r e status result body) i r e status result body ∧
    (∀ a, a ≠ Reg.stewardRingStat i r → (u.applied i r e status result body).rd a = u.rd a) ∧
    ReturnOnly u (u.applied i r e status result body) := by
  obtain ⟨w, hw⟩ : ∃ w, w = u.setCmd i (some (.ret r e status result body body.length (0, 0))) := ⟨_, rfl⟩
  have hready : RingReady s w i r := hw ▸ hu.setCmd _
  have hcmd : (w.ep i).cmd = some (.ret r e status result body body.length (0, 0)) := by rw [hw, State.ep_setCmd_same]
  have hwserved : w.epServed i = true := (State.epServed_of_rd i hready.epCfg).trans hserved
  have hdone := w.finishRet_done i r e status result body.length body (0, 0) hcmd hwserved hno hfits
  have honly := w.finishRet_only i r e status result body.length body hcmd hno
  have happlied : u.applied i r e status result body = w.finishRet i := by
    unfold State.applied
    rw [← hw, w.d3Late_of_not_due i (hready.d3Due.trans hd3)]
    exact State.serve_of_none_waiting _ (hready.none_waiting hdone halone)
  rw [happlied]
  have hstat : ∀ g : Fd, g.addr = Reg.stewardRingStat i r → 12 ≤ g.lo → w.getF g = s.getF g := by
    intro g hg hlo
    rw [getF_addr g (hg ▸ hready.stat)]
    exact State.getF_setF_ne _ (Fld.stewardRingStatSqHead i r) g _ (.inr (.inr hlo))
  have htail := hstat (Fld.stewardRingStatCqTail i r) rfl (by simp [Fld.stewardRingStatCqTail])
  have hphase := hstat (Fld.stewardRingStatPhase i r) rfl (by simp [Fld.stewardRingStatPhase])
  have hhead : w.getF (Fld.stewardRingStatSqHead i r) = (s.getF (Fld.stewardRingStatSqHead i r) + 1) % s.sqSize i r :=
    (getF_addr (Fld.stewardRingStatSqHead i r) hready.stat).trans (s.passEntry_sqHead i r)
  have hsize : w.cqSize i r = s.cqSize i r := State.cqSize_of_rd i r (hready.cfg i r hi hr)
  have hbase := State.get64_of_rd _ _ hready.baseLo hready.baseHi
  have hwout : w.out = u.out := by rw [hw]; rfl
  have hwrd : ∀ a, w.rd a = u.rd a := fun a => by rw [hw]; rfl
  refine ⟨⟨by rw [hdone.ep], hdone.sqHead.trans hhead, hdone.cqTail.trans ?_, hdone.phase.trans ?_, hdone.out.trans ?_⟩, fun a ha => ?_, ?_⟩
  · unfold State.cqTailNext
    rw [hsize, htail]
    rfl
  · unfold State.phaseNext
    rw [hsize, htail, hphase]
    rfl
  · unfold State.cqAddr State.cqEntry
    rw [hbase, htail, hphase, hhead, hwout]
    rfl
  · by_cases hout : a = Reg.stewardMzOutRd
    · rw [hout, hdone.outRd, ← hwrd]
      exact BitVec.add_zero _
    · exact (hdone.rd a ha hout).trans (hwrd a)
  · exact (show ReturnOnly u w by rw [hw]; rfl).trans honly

/-- Where nothing was sent before RETURN, it is RETURN of the command's own state. -/
theorem applied_after_quiet (hout : u.out = s.out) : Returned s (u.applied i r e status result body) i r e status result body ∧
    (∀ a, a ≠ Reg.stewardRingStat i r → (u.applied i r e status result body).rd a = u.rd a) := by
  obtain ⟨hret, hrd, -⟩ := applied_after status result body hu hi hr hserved hd3 halone hno hfits
  rw [hout] at hret
  exact ⟨hret, hrd⟩

end

/-! ### The last read of a command's input (R375, R380) -/

/-- The state in which APPLY of a command begins, once the last read of its input is here. -/
def State.inputStart (s : State) (i r k : Nat) (c : Instr) : State := (s.dropRead i k).applyStart i r c

theorem State.inputStart_ready (s : State) (i r k : Nat) (c : Instr) : RingReady s (s.inputStart i r k c) i r :=
  State.passEntry_ready ((((CmdMoved.refl s i).setEp _ _).setEp _ _).setEp _ _) r

theorem State.inputStart_rd (s : State) (i r k : Nat) (c : Instr) {a : Nat} (h : a ≠ Reg.stewardRingStat i r) :
    (s.inputStart i r k c).rd a = s.rd a := State.rd_setF_ne _ _ _ _ h

theorem State.inputStart_cmd (s : State) (i r k : Nat) (c : Instr) : ((s.inputStart i r k c).ep i).cmd = some (.input r c [] []) :=
  (s.dropRead i k).applyStart_cmd i r c

theorem State.inputStart_frame (s : State) (i r k : Nat) (c : Instr) :
    s.inputStart i r k c = { s with regs := (s.inputStart i r k c).regs, stw := (s.inputStart i r k c).stw } := rfl

/-- A command that no effect of its own has ended goes on to RETURN. -/
theorem State.appliedIf_of_stands {s : State} {i r : Nat} {c : Instr} (h : (s.ep i).cmd = some (.input r c [] [])) (status result : Nat)
    (body : List Byte) : s.appliedIf i r c status result body = s.applied i r (entryOf c) status result body := if_pos (decide_eq_true h)

/-- The last read of an input that is served goes to APPLY. -/
theorem completes_of_arrival {s : State} {i : Inst} {r : Ring} {k at_ : Nat} {c : Instr} {P : State → Prop}
    (hcmd : (s.ep i).cmd = some (.input r c [k] [])) (hreads : (s.ep i).reads = [(k, s.getF (Fld.stewardEpCfgGen i), at_)])
    (hserved : s.epServed i = true) (hup : s.stewardUp = true) (hmay : s.mayApply c = true) (t : State)
    (happly : ((s.dropRead i k).setCmd i (some (.input r c [] []))).ringApply i r c = t)
    (hp : P { t with pending := s.pending, tick := s.tick }) : Completes (.epDmaCompletion i k true) s P := by
  have hfind : (s.ep i).reads.find? (fun x => decide (x.1 = k)) = some (k, s.getF (Fld.stewardEpCfgGen i), at_) := by simp [hreads]
  have hbme : s.getF (Fld.stewardEpCfgBme i) ≠ 0 := by simp [(State.present_bme_of_served hserved).2]
  have hdrop : ((s.dropRead i k).ep i).cmd = some (.input r c [k] []) := by rw [s.dropRead_ep]; exact hcmd
  have harrived : (s.dropRead i k).dmaArrived i k true = t := by
    have hwaits : (s.dropRead i k).waitsFor i k = true := by
      unfold State.waitsFor
      rw [hdrop]
      simp
    have hids : [k].filter (fun j => decide (j ≠ k)) = [] := by simp
    have hready : (((s.dropRead i k).setCmd i (some (.input r c [] []))).stewardUp &&
        ((s.dropRead i k).setCmd i (some (.input r c [] []))).epServed i &&
        ((s.dropRead i k).setCmd i (some (.input r c [] []))).mayApply c) = true := by
      rw [show ((s.dropRead i k).setCmd i (some (.input r c [] []))).stewardUp = s.stewardUp from rfl,
        show ((s.dropRead i k).setCmd i (some (.input r c [] []))).epServed i = s.epServed i from rfl,
        show ((s.dropRead i k).setCmd i (some (.input r c [] []))).mayApply c = s.mayApply c from rfl, hup, hserved, hmay]
      rfl
    have hpoll : ((s.dropRead i k).setCmd i (some (.input r c [] []))).ringPoll i = t := by
      unfold State.ringPoll
      rw [State.ep_setCmd_same]
      exact (if_pos hready).trans happly
    unfold State.dmaArrived
    rw [hwaits, hdrop]
    dsimp only
    rw [hids]
    exact hpoll
  refine Completes.of_any t (exec_epDmaCompletion s i k true) ?_ hp
  simp only [hfind]
  exact (if_neg (not_not_intro rfl)).trans ((if_neg hbme).trans harrived)

end Sys2Proof.Machine
end

section
/-! SUPPORT. The commands whose input is applied (O60). -/

open Sys2Proof Sys2Proof.Machine

namespace Sys2Proof.Machine

/-! ### Where the input of a command has just come -/

/-- The last read of command `c`'s input is here, on the only ring that runs, and the command sends no interrupt. -/
structure InputReady (s : State) (i : Inst) (r : Ring) (k at_ : Nat) (c : Instr) : Prop where
  cmd : (s.ep i).cmd = some (.input r c [k] [])
  reads : (s.ep i).reads = [(k, s.getF (Fld.stewardEpCfgGen i), at_)]
  d3Due : (s.ep i).d3Due = false
  served : s.epServed i = true
  up : s.stewardUp = true
  alone : AloneOn s i r
  noInt : (entryOf c).noInt = true
  may : s.mayApply c = true

section
variable {s : State} {i : Inst} {r : Ring} {k at_ : Nat} {c : Instr}

/-- What APPLY leaves is what the completion leaves. -/
theorem InputReady.completes (h : InputReady s i r k at_ c) {P : State → Prop} (t : State)
    (happly : ((s.dropRead i k).setCmd i (some (.input r c [] []))).ringApply i r c = t)
    (hp : P { t with pending := s.pending, tick := s.tick }) : Completes (.epDmaCompletion i k true) s P :=
  completes_of_arrival h.cmd h.reads h.served h.up h.may t happly hp

/-- RETURN after an effect that leaves the rings alone. -/
theorem InputReady.returns (h : InputReady s i r k at_ c) {u : State} (hu : RingReady s u i r) (status result : Nat) (body : List Byte)
    (hfits : status = 0 → body.length ≤ (entryOf c).outLen.toNat) :
    Returned { s with out := u.out } (u.applied i r (entryOf c) status result body) i r (entryOf c) status result body ∧
    (∀ a, a ≠ Reg.stewardRingStat i r → (u.applied i r (entryOf c) status result body).rd a = u.rd a) ∧
    ReturnOnly u (u.applied i r (entryOf c) status result body) :=
  applied_after status result body hu i.isLt r.isLt h.served h.d3Due h.alone h.noInt hfits

/-- An effect that leaves the rings alone, on the state in which APPLY begins. -/
theorem ready_after_input {u : State} (hrd : ∀ a, ringAddr a → u.rd a = (s.inputStart i r k c).rd a)
    (htails : (u.ep i).tails = ((s.inputStart i r k c).ep i).tails) (hd3 : (u.ep i).d3Due = ((s.inputStart i r k c).ep i).d3Due) :
    RingReady s u i r := (s.inputStart_ready i r k c).after i.isLt r.isLt hrd htails hd3

/-- The effect of a command in range, from the state in which APPLY begins (R374). -/
def State.ringEffect (s : State) (i r : Nat) (c : Instr) : State :=
  match c with
  | .fmapi _ _ _ => s.setCmd i (some (.fm r (entryOf c)))
  | .regWrite _ _ _ pairs => (pairs.foldl (fun s p => s.regWrite p.1 p.2) s).appliedIf i r c 0 pairs.length []
  | .regRead _ _ _ addrs => (s.regReads .steward addrs).2.appliedIf i r c 0 0 ((s.regReads .steward addrs).1.flatMap (fun w => leBytes 4 w.toNat))
  | .progLoad _ _ _ mask p image =>
    ((maskEngines mask).foldl (fun s n => (s.writeWords (Reg.coulterStaging n 0) image).loadGo n p.toNat) s).setCmd i (some (.wait r c))
  | .fwLoad _ _ _ image =>
    let k := (s.fwLoad image).getF Fld.stewardFwStatCode
    (s.fwLoad image).appliedIf i r c (if k = 0 then 0 else 4) k []
  | .fwActivate _ _ _ =>
    if s.fwBusy then s.appliedIf i r c 5 0 []
    else if s.fwSwitch.getF Fld.stewardFwStatSwitching = 1 then s.fwSwitch.setCmd i (some (.switching r (entryOf c)))
    else s.fwSwitch.appliedIf i r c 4 5 []
  | .mzCmd _ _ _ cmd => ((s.writeWords (Reg.stewardMzInbox 0) cmd).meterGo).setCmd i (some (.wait r c))
  | .records _ _ _ => s.appliedIf i r c 0 0 s.outboxBytes (s.outboxBytes.length, 0)
  | .traps _ _ _ => s.appliedIf i r c 0 0 (s.dp.trapQ.flatMap trapBytes) (0, s.dp.trapQ.length)
  | .cfgWrite _ _ _ copy image =>
    let x := s.cfgCopy (decide (copy.toNat = 1)) image
    x.1.appliedIf i r c x.2.1 x.2.2 []
  | _ => s.appliedIf i r c 0 0 []

theorem State.ringApply_eq (s : State) (i r : Nat) (c : Instr) : (s.setCmd i (some (.input r c [] []))).ringApply i r c =
    if rangeBad c then (s.applyStart i r c).applied i r (entryOf c) 2 0 [] else (s.applyStart i r c).ringEffect i r c := by
  cases c <;> rfl

/-- A field out of range ends the command with status 2 (R376). -/
theorem InputReady.out_of_range (h : InputReady s i r k at_ c) (hbad : rangeBad c = true) :
    Completes (.epDmaCompletion i k true) s (fun t => Returned s t i r (entryOf c) 2 0 []) := by
  obtain ⟨hret, -, -⟩ := h.returns (s.inputStart_ready i r k c) 2 0 [] (fun h => absurd h (by decide))
  have happly : ((s.dropRead i k).setCmd i (some (.input r c [] []))).ringApply i r c =
      (s.inputStart i r k c).applied i r (entryOf c) 2 0 [] := (s.dropRead i k).ringApply_of_rangeBad i r c hbad
  generalize (s.inputStart i r k c).applied i r (entryOf c) 2 0 [] = t at hret happly
  exact h.completes t happly hret

/-- A command in range has its effect. -/
theorem InputReady.effect (h : InputReady s i r k at_ c) (hrange : rangeBad c = false) {P : State → Prop} (t : State)
    (heffect : (s.inputStart i r k c).ringEffect i r c = t) (hp : P { t with pending := s.pending, tick := s.tick }) :
    Completes (.epDmaCompletion i k true) s P :=
  h.completes t (((s.dropRead i k).ringApply_eq i r c).trans ((if_neg (by simp [hrange])).trans heffect)) hp

/-- A command in range whose effect `w` leaves the rings alone ends in RETURN. -/
theorem InputReady.applies (h : InputReady s i r k at_ c) (hrange : rangeBad c = false) {P : State → Prop} (w : State) (status result : Nat)
    (body : List Byte) (hfits : status = 0 → body.length ≤ (entryOf c).outLen.toNat)
    (heffect : (s.inputStart i r k c).ringEffect i r c = w.appliedIf i r c status result body)
    (hcmd : (w.ep i).cmd = ((s.inputStart i r k c).ep i).cmd) (hready : RingReady s w i r)
    (hp : ∀ t, Returned { s with out := w.out } t i r (entryOf c) status result body →
      (∀ a, a ≠ Reg.stewardRingStat i r → t.rd a = w.rd a) → t.cfg = w.cfg → t.sec = w.sec → P t) :
    Completes (.epDmaCompletion i k true) s P := by
  obtain ⟨hret, hrd, honly⟩ := h.returns hready status result body hfits
  have happlied : w.appliedIf i r c status result body = w.applied i r (entryOf c) status result body :=
    State.appliedIf_of_stands (hcmd.trans (s.inputStart_cmd i r k c)) _ _ _
  rw [happlied] at heffect
  have hcfg : (w.applied i r (entryOf c) status result body).cfg = w.cfg := by rw [honly]
  have hsec : (w.applied i r (entryOf c) status result body).sec = w.sec := by rw [honly]
  generalize w.applied i r (entryOf c) status result body = t at hret hrd heffect hcfg hsec
  exact h.effect hrange t heffect (hp _ hret hrd hcfg hsec)

end

/-! ### REG_WRITE and REG_READ (R374) -/

/-- Registers of the CPR and crossbar blocks, which writes and reads reach by the access codes alone. -/
def plainAddr (a : Nat) : Prop := 0x100000 ≤ a ∧ a < 0x200000 ∨ 0x1A00000 ≤ a ∧ a < 0x1A40000

theorem plainAddr.ne_ring {a b : Nat} (h : plainAddr a) (hb : ringAddr b) : b ≠ a := by
  unfold plainAddr at h
  unfold ringAddr at hb
  simp only [Reg.stewardEpCfg] at hb
  omega

theorem plainAddr.ne_ringStat {a i r : Nat} (h : plainAddr a) : a ≠ Reg.stewardRingStat i r := by
  unfold plainAddr at h
  simp only [Reg.stewardRingStat]
  omega

theorem regWrite_plain {a : Nat} {v : Word} {row : RegRow} (s : State) (ha : a % 4 = 0) (hrow : regRow a = some row) (h : plainAddr a) :
    s.regWrite a v = s.wr a (rowWritten row (s.rd a) v false) := by
  have hplain : s.plainWrite a v = s.wr a (rowWritten row (s.rd a) v false) := by
    unfold State.plainWrite
    rw [hrow]
  unfold plainAddr at h
  have hhere : s.regAbsent a = false := by
    unfold State.regAbsent
    have hport : decide (0x400000 ≤ a ∧ a < 0x600000) = false := decide_eq_false (by omega)
    have hep : decide (0x1F80000 ≤ a ∧ a < 0x2000000) = false := decide_eq_false (by omega)
    rw [hrow, hport, hep]
    rfl
  unfold State.regWrite
  rw [if_neg (by simp [ha, hhere]), if_neg (by omega)]
  by_cases hlow : a < 0x200000
  · rw [if_pos hlow, hplain]
  · rw [if_neg hlow, if_neg (by omega), if_neg (by omega), if_neg (by omega), if_neg (by omega), if_neg (by omega), if_neg (by omega),
      if_neg (by omega), if_neg (by omega), if_pos (by omega), hplain]

section
variable {s : State} {i : Inst} {r : Ring} {k at_ : Nat} {e : SqEntry}

theorem InputReady.regWrite {a : Nat} {v : Word} {row : RegRow} (h : InputReady s i r k at_ (.regWrite i r e [(a, v)]))
    (hrange : rangeBad (.regWrite i r e [(a, v)]) = false) (ha : a % 4 = 0) (hrow : regRow a = some row) (hplain : plainAddr a) :
    Completes (.epDmaCompletion i k true) s (fun t => Returned s t i r e 0 1 [] ∧ t.rd a = rowWritten row (s.rd a) v false) := by
  obtain ⟨u, hu⟩ : ∃ u, u = s.inputStart i r k (.regWrite i r e [(a, v)]) := ⟨_, rfl⟩
  obtain ⟨w, hw⟩ : ∃ w, w = u.wr a (rowWritten row (s.rd a) v false) := ⟨_, rfl⟩
  have hstart : u.rd a = s.rd a := hu ▸ s.inputStart_rd i r k _ hplain.ne_ringStat
  have hwrite : u.regWrite a v = w := by rw [regWrite_plain u ha hrow hplain, hstart, hw]
  have heffect : (s.inputStart i r k (.regWrite i r e [(a, v)])).ringEffect i r (.regWrite i r e [(a, v)]) =
      w.appliedIf i r (.regWrite i r e [(a, v)]) 0 1 [] := by rw [← hwrite, hu]; rfl
  have hready : RingReady s w i r := by
    refine ready_after_input (k := k) (c := .regWrite i r e [(a, v)]) (fun b hb => ?_) (by rw [hw, hu]; rfl) (by rw [hw, hu]; rfl)
    rw [hw, hu]
    exact State.rd_wr_ne _ _ _ _ (hplain.ne_ring hb)
  have hout : w.out = s.out := by rw [hw, hu]; rfl
  refine h.applies hrange w 0 1 [] (fun _ => Nat.zero_le _) heffect (by rw [hw, hu]; rfl) hready (fun t hret hrd _ _ => ?_)
  rw [hout] at hret
  refine ⟨hret, (hrd a hplain.ne_ringStat).trans ?_⟩
  rw [hw]
  exact State.rd_wr_same _ _ _

/-- A register reached by the access codes alone reads as it is held. -/
theorem State.regView_plain (s : State) (src : Source) {a : Nat} (h : plainAddr a) : s.regView src a = s.rd a := by
  unfold plainAddr at h
  have hlive : s.liveView a = none := by
    unfold State.liveView
    simp only [Reg.globalTickLo, Reg.globalTickHi, Reg.globalFurlongLo, Reg.globalFurlongHi, Reg.globalTimeStat, Reg.homeOpen, Reg.homeParked,
      Reg.homeDirUsed, Reg.homePortLines, Reg.bufferUsed, Reg.bufferRsvUsed, Reg.bufferOcc, Reg.schedScLevel, Reg.schedPlotLevel,
      Reg.hedgeDrainOldcnt, Reg.mzQueue, Reg.securityKslotStat, Reg.securityKslotTickLo, Reg.securityKslotTickHi, Reg.securityDbgStat,
      Reg.securityCmd, Reg.faultInj, Reg.faultInjDetail]
    iterate 21 refine (if_neg (by omega)).trans ?_
    rfl
  unfold State.regView
  rw [hlive]
  dsimp only
  rw [if_neg (by omega), if_neg (by simp only [Reg.stewardEpStat]; omega), if_neg (by simp only [Reg.stewardEpSelf]; omega),
    if_neg (by simp only [Reg.portSuspectPgLo, Reg.portSuspectPgHi]; omega)]

theorem InputReady.regRead {a : Nat} (h : InputReady s i r k at_ (.regRead i r e [a])) (hrange : rangeBad (.regRead i r e [a]) = false)
    (ha : a % 4 = 0) (hhere : s.regAbsent a = false) (hlatch : latched a = false) (hlen : 4 ≤ e.outLen.toNat) (hplain : plainAddr a) :
    Completes (.epDmaCompletion i k true) s (fun t => Returned s t i r e 0 0 (leBytes 4 (s.rd a).toNat) ∧ t.rd a = s.rd a) := by
  obtain ⟨u, hu⟩ : ∃ u, u = s.inputStart i r k (.regRead i r e [a]) := ⟨_, rfl⟩
  have hstart : u.rd a = s.rd a := hu ▸ s.inputStart_rd i r k _ hplain.ne_ringStat
  have hrow : (regRow a).isNone = false := by
    unfold State.regAbsent at hhere
    simp only [Bool.or_eq_false_iff] at hhere
    exact hhere.1.1
  have hthere : u.regAbsent a = false := by
    unfold plainAddr at hplain
    unfold State.regAbsent
    have hport : decide (0x400000 ≤ a ∧ a < 0x600000) = false := decide_eq_false (by omega)
    have hep : decide (0x1F80000 ≤ a ∧ a < 0x2000000) = false := decide_eq_false (by omega)
    rw [hrow, hport, hep]
    rfl
  obtain ⟨w, hw⟩ : ∃ w, w = { u with
    latches := (latchWords a).foldl (fun t k => Tbl.set (fun _ => 0) t (latchKey .steward k) (u.regView .steward k)) u.latches } := ⟨_, rfl⟩
  have hread : u.regReads .steward [a] = ([s.rd a], w) := by
    rw [← hstart, ← u.regView_plain .steward hplain, hw]
    unfold State.regReads State.regRead
    rw [if_neg (by simp [ha, hthere]), if_neg (by simp), if_neg (by simp [hlatch])]
    rfl
  have heffect : (s.inputStart i r k (.regRead i r e [a])).ringEffect i r (.regRead i r e [a]) =
      w.appliedIf i r (.regRead i r e [a]) 0 0 (leBytes 4 (s.rd a).toNat) := by
    rw [← hu]
    show (u.regReads .steward [a]).2.appliedIf i r _ 0 0 ((u.regReads .steward [a]).1.flatMap (fun w => leBytes 4 w.toNat)) = _
    rw [hread]
    simp only [List.flatMap_cons, List.flatMap_nil, List.append_nil]
  have hready : RingReady s w i r :=
    ready_after_input (k := k) (c := .regRead i r e [a]) (fun b _ => by rw [hw, hu]; rfl) (by rw [hw, hu]; rfl) (by rw [hw, hu]; rfl)
  have hout : w.out = s.out := by rw [hw, hu]; rfl
  refine h.applies hrange w 0 0 _ (fun _ => by rw [leBytes_length]; exact hlen) heffect (by rw [hw, hu]; rfl) hready (fun t hret hrd _ _ => ?_)
  rw [hout] at hret
  refine ⟨hret, (hrd a hplain.ne_ringStat).trans ?_⟩
  rw [hw]
  exact hstart

end

/-! ### PROG_LOAD (R174, R374) -/

/-- A write under the access codes leaves every other register. -/
theorem State.plainWrite_keeps (s : State) (a : Nat) (v : Word) : RO s (s.plainWrite a v) ∧ ∀ b, b ≠ a → (s.plainWrite a v).rd b = s.rd b := by
  unfold State.plainWrite
  split
  · exact ⟨RO.wr s _ _, fun b hb => State.rd_wr_ne _ _ _ _ hb⟩
  · exact ⟨RO.refl s, fun _ _ => rfl⟩

/-- A word of the staging window, while no load runs in the engine or while one does. -/
theorem regWrite_staging (s : State) {n j : Nat} (v : Word) (hn : n < 32) (hj : j < 2048) :
    RO s (s.regWrite (Reg.coulterStaging n j) v) ∧
    ∀ b, b ≠ Reg.coulterStaging n j → (s.regWrite (Reg.coulterStaging n j) v).rd b = s.rd b := by
  obtain ⟨a, ha⟩ : ∃ a, a = Reg.coulterStaging n j := ⟨_, rfl⟩
  have hval : a = 0x802000 + 0x20000 * n + 4 * j := ha
  have hoff : (a - 0x800000) % 0x20000 = 0x2000 + 4 * j := by omega
  rw [← ha]
  unfold State.regWrite
  by_cases hgone : a % 4 ≠ 0 ∨ s.regAbsent a
  · rw [if_pos hgone]
    exact ⟨RO.refl s, fun _ _ => rfl⟩
  · rw [if_neg hgone, if_neg (by omega), if_neg (by omega), if_neg (by omega), if_neg (by omega), if_neg (by omega), if_pos (by omega)]
    unfold State.coulterWrite
    dsimp only
    rw [hoff, if_neg (by omega), if_neg (by omega), if_neg (by omega), if_pos (by omega)]
    by_cases hbusy : s.getF (Fld.coulterLoadStatBusy ((a - 0x800000) / 0x20000)) = 1
    · rw [if_pos hbusy]
      exact ⟨RO.refl s, fun _ _ => rfl⟩
    · rw [if_neg hbusy]
      exact s.plainWrite_keeps a v

/-- An image written to an engine's staging window. -/
theorem writeWords_staging (s : State) {n : Nat} {l : List Byte} (hn : n < 32) (hl : l.length ≤ 8192) :
    RO s (s.writeWords (Reg.coulterStaging n 0) l) ∧ ∀ b, (b < 0x802000 + 0x20000 * n ∨ 0x804000 + 0x20000 * n ≤ b) →
      (s.writeWords (Reg.coulterStaging n 0) l).rd b = s.rd b := by
  unfold State.writeWords
  refine List.foldlRecOn (motive := fun t => RO s t ∧ ∀ b, (b < 0x802000 + 0x20000 * n ∨ 0x804000 + 0x20000 * n ≤ b) → t.rd b = s.rd b)
    _ _ ⟨RO.refl s, fun _ _ => rfl⟩ (fun t ht j hj => ?_)
  have hjlt : j < 2048 := by
    have := List.mem_range.mp hj
    omega
  have haddr : Reg.coulterStaging n 0 + 4 * j = Reg.coulterStaging n j := by simp only [Reg.coulterStaging]; omega
  obtain ⟨hro, hrd⟩ := regWrite_staging t (BitVec.ofNat 32 (leNat (bytesAt l (4 * j) 4))) hn hjlt
  rw [haddr]
  exact ⟨ht.1.trans hro, fun b hb => (hrd b (by simp only [Reg.coulterStaging]; omega)).trans (ht.2 b hb)⟩

/-- GO in an engine of its own, where no load runs. -/
theorem State.loadGo_single {s : State} {n : Nat} (p : Nat) (hshape : s.shape n < 2) (hidle : s.getF (Fld.coulterLoadStatBusy n) = 0) :
    s.loadGo n p = s.loadBegin n p n := by
  have hone : s.enginesOf n = [n] := if_neg (by omega)
  unfold State.loadGo
  refine (if_neg (not_or.mpr ⟨by omega, ?_⟩)).trans ?_
  · rw [hone, List.any_cons, List.any_nil, hidle]
    decide
  · rw [hone]
    rfl

section
variable {s : State} {i : Inst} {r : Ring} {k at_ : Nat} {e : SqEntry}

theorem InputReady.progLoad {mask p : Word} {n : Phys} {image : List Byte} (h : InputReady s i r k at_ (.progLoad i r e mask p image))
    (hrange : rangeBad (.progLoad i r e mask p image) = false) (hmask : maskEngines mask = [n.val]) (hshape : s.shape n < 2)
    (hidle : s.getF (Fld.coulterLoadStatBusy n) = 0) :
    Completes (.epDmaCompletion i k true) s (fun t => (t.ep i).cmd = some (.wait r (.progLoad i r e mask p image)) ∧
      t.getF (Fld.coulterLoadStatBusy n) = 1 ∧ t.getF (Fld.coulterLoadStatProg n) = p.toNat ∧
      t.getF (Fld.stewardRingStatSqHead i r) = (s.getF (Fld.stewardRingStatSqHead i r) + 1) % s.sqSize i r) := by
  have hbounds : p.toNat < 16 ∧ image.length ≤ 8192 := by
    unfold rangeBad at hrange
    simp only [Bool.or_eq_false_iff, decide_eq_false_iff_not] at hrange
    omega
  obtain ⟨u, hu⟩ : ∃ u, u = s.inputStart i r k (.progLoad i r e mask p image) := ⟨_, rfl⟩
  obtain ⟨v, hv⟩ : ∃ v, v = u.writeWords (Reg.coulterStaging n.val 0) image := ⟨_, rfl⟩
  obtain ⟨w, hw⟩ : ∃ w, w = (v.setF (Fld.coulterLoadStatBusy n) 1).setF (Fld.coulterLoadStatProg n) p.toNat := ⟨_, rfl⟩
  have hn := n.isLt
  obtain ⟨-, hkeep⟩ := writeWords_staging u hn hbounds.2
  rw [← hv] at hkeep
  have hstart : ∀ a, a < 0x1F81000 → u.rd a = s.rd a := fun a ha =>
    hu ▸ s.inputStart_rd i r k _ (by simp only [Reg.stewardRingStat]; omega)
  have hvshape : v.shape n < 2 := by
    have hcfg : v.rd (Reg.portCfg n) = s.rd (Reg.portCfg n) :=
      (hkeep _ (.inl (by simp only [Reg.portCfg]; omega))).trans (hstart _ (by simp only [Reg.portCfg]; omega))
    have hsame : v.shape n = s.shape n := getF_addr (Fld.portCfgMode n) hcfg
    rw [hsame]
    exact hshape
  have hvidle : v.getF (Fld.coulterLoadStatBusy n) = 0 := by
    rw [← hidle]
    exact getF_addr _ ((hkeep _ (.inl (by simp only [Fld.coulterLoadStatBusy, Reg.coulterLoadStat]; omega))).trans
      (hstart _ (by simp only [Fld.coulterLoadStatBusy, Reg.coulterLoadStat]; omega)))
  have hload : v.loadGo n p.toNat = v.loadBegin n p.toNat n := State.loadGo_single _ hvshape hvidle
  have hregs : (v.loadBegin n p.toNat n).regs = w.regs := by rw [hw]; rfl
  have heffect : (s.inputStart i r k (.progLoad i r e mask p image)).ringEffect i r (.progLoad i r e mask p image) =
      (v.loadBegin n p.toNat n).setCmd i (some (.wait r (.progLoad i r e mask p image))) := by
    rw [← hu, ← hload, hv]
    show ((maskEngines mask).foldl (fun s n => (s.writeWords (Reg.coulterStaging n 0) image).loadGo n p.toNat) u).setCmd i _ = _
    rw [hmask]
    rfl
  refine h.effect hrange _ heffect ⟨congrArg Ep.cmd (State.ep_setCmd_same _ _ _), ?_, ?_, ?_⟩
  · refine (getF_regs hregs _).trans ?_
    rw [hw, State.getF_setF_ne _ (Fld.coulterLoadStatProg n) _ _ (by simp [Fld.coulterLoadStatBusy, Fld.coulterLoadStatProg])]
    exact getF_fit _ _ _ (by simp [Fld.coulterLoadStatBusy]) (by simp [Fld.coulterLoadStatBusy])
  · refine (getF_regs hregs _).trans ?_
    rw [hw]
    exact getF_fit _ _ _ (by simp [Fld.coulterLoadStatProg]) (by simp only [Fld.coulterLoadStatProg]; omega)
  · refine (getF_regs hregs _).trans ?_
    have hr := r.isLt
    have hw' : w.rd (Reg.stewardRingStat i r) = u.rd (Reg.stewardRingStat i r) := by
      rw [hw, State.rd_setF_ne _ _ _ _ (by simp only [Fld.coulterLoadStatProg, Reg.stewardRingStat, Reg.coulterLoadStat]; omega),
        State.rd_setF_ne _ _ _ _ (by simp only [Fld.coulterLoadStatBusy, Reg.stewardRingStat, Reg.coulterLoadStat]; omega)]
      exact hkeep _ (.inr (by simp only [Reg.stewardRingStat]; omega))
    have hsq : w.getF (Fld.stewardRingStatSqHead i r) = (s.passEntry i r).getF (Fld.stewardRingStatSqHead i r) :=
      getF_addr _ (hw'.trans (hu ▸ (s.inputStart_ready i r k _).stat))
    rw [hsq]
    exact s.passEntry_sqHead i r

end

end Sys2Proof.Machine
end

section
/-! SUPPORT. Images, meter commands and configurations that a ring brings, and FW_ACTIVATE (O60). -/

open Sys2Proof Sys2Proof.Machine

namespace Sys2Proof.Machine

/-! ### FW_LOAD (R374, R390) -/

/-- The verdict on an image reads FW_STAT and the slots' sequence numbers alone. -/
theorem fwVerdict_of_rd {s t : State} (h : ∀ a, Reg.stewardFwStat ≤ a → a ≤ Reg.stewardFwSeqBHi → t.rd a = s.rd a) (image : List Byte) :
    t.fwVerdict image = s.fwVerdict image := by
  have hslot : t.getF Fld.stewardFwStatSlot = s.getF Fld.stewardFwStatSlot := getF_addr _ (h _ (by decide) (by decide))
  have hswitch : t.getF Fld.stewardFwStatSwitching = s.getF Fld.stewardFwStatSwitching := getF_addr _ (h _ (by decide) (by decide))
  have hseq : ∀ k, t.fwSeqOf k = s.fwSeqOf k := fun k => by
    unfold State.fwSeqOf
    rw [State.get64_of_rd _ _ (h _ (by decide) (by decide)) (h _ (by decide) (by decide)),
      State.get64_of_rd _ _ (h _ (by decide) (by decide)) (h _ (by decide) (by decide))]
  unfold State.fwVerdict
  rw [hslot, hswitch, hseq]

theorem State.fwVerdict_lt (s : State) (image : List Byte) : s.fwVerdict image < 16 := by
  unfold State.fwVerdict
  split_ifs <;> decide

theorem fwValidFd_addr (k : Nat) : (fwValidFd k).addr = Reg.stewardFwStat := by
  unfold fwValidFd
  split <;> rfl

theorem State.setFwSeq_keeps (s : State) (k v : Nat) :
    RO s (s.setFwSeq k v) ∧ ∀ a, a < Reg.stewardFwSeqALo ∨ Reg.stewardFwSeqBHi < a → (s.setFwSeq k v).rd a = s.rd a := by
  simp only [Reg.stewardFwSeqALo, Reg.stewardFwSeqBHi]
  unfold State.setFwSeq
  split
  · exact ⟨(RO.refl s).step64 _ _ _, fun a ha =>
      rd_set64_ne _ _ _ _ _ (by simp only [Reg.stewardFwSeqALo]; omega) (by simp only [Reg.stewardFwSeqAHi]; omega)⟩
  · exact ⟨(RO.refl s).step64 _ _ _, fun a ha =>
      rd_set64_ne _ _ _ _ _ (by simp only [Reg.stewardFwSeqBLo]; omega) (by simp only [Reg.stewardFwSeqBHi]; omega)⟩

/-- The load of an image shows its verdict, and makes an accepted one the valid image of the slot not in use. -/
theorem State.fwLoad_says (s : State) (image : List Byte) :
    (s.fwLoad image).getF Fld.stewardFwStatCode = s.fwVerdict image ∧
    (s.fwVerdict image = 0 → (s.fwLoad image).getF (fwValidFd s.fwOther) = 1) ∧
    (∀ a, a < Reg.stewardFwStat ∨ Reg.stewardFwSeqBHi < a → (s.fwLoad image).rd a = s.rd a) ∧
    s.fwLoad image = { s with regs := (s.fwLoad image).regs, stw := { s.stw with fwSlots := (s.fwLoad image).stw.fwSlots } } := by
  obtain ⟨u, hu⟩ : ∃ u, u = s.setF Fld.stewardFwStatCode (s.fwVerdict image) := ⟨_, rfl⟩
  have hcode : u.getF Fld.stewardFwStatCode = s.fwVerdict image := hu ▸ getF_fit _ _ _ (by decide) (s.fwVerdict_lt image)
  have hrd : ∀ a, a < Reg.stewardFwStat ∨ Reg.stewardFwSeqBHi < a → u.rd a = s.rd a := fun a ha => by
    simp only [Reg.stewardFwStat, Reg.stewardFwSeqBHi] at ha
    rw [hu]
    exact State.rd_setF_ne _ _ _ _ (by simp only [Fld.stewardFwStatCode, Reg.stewardFwStat]; omega)
  by_cases hbad : s.fwVerdict image ≠ 0
  · have hload : s.fwLoad image = u := hu ▸ if_pos hbad
    rw [hload]
    exact ⟨hcode, fun h => absurd h hbad, hrd, by rw [hu]; rfl⟩
  · obtain ⟨v, hv⟩ : ∃ v, v = u.setF (fwValidFd u.fwOther) 1 := ⟨_, rfl⟩
    obtain ⟨w, hw⟩ : ∃ w, w = v.setFwSeq u.fwOther (Config.fwSeq image).toNat := ⟨_, rfl⟩
    obtain ⟨x, hx⟩ : ∃ x, x = w.setStw (fun t => { t with fwSlots := Tbl.set (fun _ => 0) t.fwSlots u.fwOther (Config.sha384 image) }) := ⟨_, rfl⟩
    have hload : s.fwLoad image = x := by
      unfold State.fwLoad
      rw [if_neg hbad, hx, hw, hv, hu]
    have hother : u.fwOther = s.fwOther := by
      have hslot : u.getF Fld.stewardFwStatSlot = s.getF Fld.stewardFwStatSlot := hu ▸ State.getF_setF_ne _ _ _ _ (by decide)
      unfold State.fwOther
      rw [hslot]
    obtain ⟨hro, hkeep⟩ := v.setFwSeq_keeps u.fwOther (Config.fwSeq image).toNat
    rw [← hw] at hro hkeep
    have hxregs : x.regs = w.regs := by rw [hx]; rfl
    have hstat : w.rd Reg.stewardFwStat = v.rd Reg.stewardFwStat := hkeep _ (.inl (by decide))
    rw [hload]
    refine ⟨?_, fun _ => ?_, fun a ha => ?_, ?_⟩
    · refine (getF_regs hxregs _).trans ((getF_addr _ hstat).trans ?_)
      rw [hv, State.getF_setF_ne, hcode]
      refine .inr ?_
      unfold fwValidFd
      split <;> decide
    · have hbits : w.rd (fwValidFd s.fwOther).addr = v.rd (fwValidFd s.fwOther).addr := by rw [fwValidFd_addr, hstat]
      refine (getF_regs hxregs _).trans ((getF_addr _ hbits).trans ?_)
      rw [hv, hother]
      exact getF_fit _ _ _ (by unfold fwValidFd; split <;> decide) (by unfold fwValidFd; split <;> decide)
    · have hregs : x.rd a = w.rd a := congrArg (Tbl.get regReset · a) hxregs
      have hvrd : v.rd a = u.rd a := by
        rw [hv]
        refine State.rd_setF_ne _ _ _ _ ?_
        rw [fwValidFd_addr]
        simp only [Reg.stewardFwStat, Reg.stewardFwSeqBHi] at ha ⊢
        omega
      refine hregs.trans ((hkeep a ?_).trans (hvrd.trans (hrd a ha)))
      simp only [Reg.stewardFwStat, Reg.stewardFwSeqBHi, Reg.stewardFwSeqALo] at ha ⊢
      omega
    · rw [hx, hro, hv, hu]
      rfl

section
variable {s : State} {i : Inst} {r : Ring} {k at_ : Nat} {e : SqEntry}

/-- Registers that lie below the rings stand as they were when APPLY begins. -/
theorem State.inputStart_low (s : State) (i r k : Nat) (c : Instr) {a : Nat} (h : a < 0x1F81000) :
    (s.inputStart i r k c).rd a = s.rd a :=
  s.inputStart_rd i r k c (by simp only [Reg.stewardRingStat]; omega)

theorem InputReady.fwLoad {image : List Byte} (h : InputReady s i r k at_ (.fwLoad i r e image)) (hrange : rangeBad (.fwLoad i r e image) = false) :
    Completes (.epDmaCompletion i k true) s (fun t =>
      Returned s t i r e (if s.fwVerdict image = 0 then 0 else 4) (s.fwVerdict image) [] ∧
      t.getF Fld.stewardFwStatCode = s.fwVerdict image ∧ (s.fwVerdict image = 0 → t.getF (fwValidFd s.fwOther) = 1)) := by
  obtain ⟨u, hu⟩ : ∃ u, u = s.inputStart i r k (.fwLoad i r e image) := ⟨_, rfl⟩
  obtain ⟨w, hw⟩ : ∃ w, w = u.fwLoad image := ⟨_, rfl⟩
  obtain ⟨hcode, hvalid, hkeep, hframe⟩ := u.fwLoad_says image
  rw [← hw] at hcode hvalid hkeep hframe
  have hlow : ∀ a, a < 0x1F81000 → u.rd a = s.rd a := fun a ha => hu ▸ s.inputStart_low i r k _ ha
  have hverdict : u.fwVerdict image = s.fwVerdict image :=
    fwVerdict_of_rd (fun a _ ha => hlow a (by simp only [Reg.stewardFwSeqBHi] at ha; omega)) image
  have hother : u.fwOther = s.fwOther := congrArg (1 - ·) (getF_addr Fld.stewardFwStatSlot (hlow _ (by decide)))
  rw [hverdict] at hcode hvalid
  rw [hother] at hvalid
  have heffect : (s.inputStart i r k (.fwLoad i r e image)).ringEffect i r (.fwLoad i r e image) =
      w.appliedIf i r (.fwLoad i r e image) (if s.fwVerdict image = 0 then 0 else 4) (s.fwVerdict image) [] := by
    rw [← hu, ← hcode, hw]
    rfl
  have hep : w.ep i = u.ep i := by rw [hframe]; rfl
  have hready : RingReady s w i r := by
    refine ready_after_input (k := k) (c := .fwLoad i r e image) (fun a ha => ?_) (by rw [hep, hu]) (by rw [hep, hu])
    rw [← hu]
    refine hkeep a ?_
    simp only [ringAddr, Reg.stewardEpCfg] at ha
    simp only [Reg.stewardFwStat, Reg.stewardFwSeqBHi]
    omega
  have hout : w.out = s.out := by rw [hframe, hu]; rfl
  refine h.applies hrange w _ _ [] (fun _ => Nat.zero_le _) heffect (by rw [hep, hu]) hready (fun t hret hrd _ _ => ?_)
  rw [hout] at hret
  have hstat : t.rd Reg.stewardFwStat = w.rd Reg.stewardFwStat := hrd _ (by simp only [Reg.stewardFwStat, Reg.stewardRingStat]; omega)
  exact ⟨hret, (getF_addr _ hstat).trans hcode,
    fun hzero => (getF_addr _ (by rw [fwValidFd_addr]; exact hstat)).trans (hvalid hzero)⟩

end

/-! ### MZ_CMD (R341, R352, R374) -/

/-- Two states that differ in no register but `b`. -/
def AgreeOff (b : Nat) (s t : State) : Prop := ∀ a, a ≠ b → t.rd a = s.rd a

/-- A word of the inbox is written as it is while no command is there. -/
theorem regWrite_inbox {s : State} {j : Nat} (hj : j < 60) (v : Word) (hidle : s.getF Fld.stewardMzInboxCtlBusy = 0) :
    s.regWrite (Reg.stewardMzInbox j) v = if (regRow (Reg.stewardMzInbox j)).isNone then s else s.plainWrite (Reg.stewardMzInbox j) v := by
  obtain ⟨a, ha⟩ : ∃ a, a = Reg.stewardMzInbox j := ⟨_, rfl⟩
  have hval : a = 0x1FEF000 + 4 * j := ha
  rw [← ha]
  have habsent : s.regAbsent a = (regRow a).isNone := by
    have hport : decide (0x400000 ≤ a ∧ a < 0x600000) = false := decide_eq_false (by omega)
    have hep : s.epAbsent a = false := by
      unfold State.epAbsent
      dsimp only
      rw [if_neg (by omega), if_neg (by omega)]
    unfold State.regAbsent
    rw [hport, hep, Bool.and_false, Bool.false_and, Bool.or_false, Bool.or_false]
  unfold State.regWrite
  rw [habsent]
  by_cases hnone : (regRow a).isNone = true
  · rw [if_pos (.inr hnone), if_pos hnone]
  · rw [if_neg (by simp [hnone]; omega), if_neg hnone, if_neg (by omega), if_neg (by omega), if_neg (by omega), if_neg (by omega), if_neg (by omega),
      if_neg (by omega), if_neg (by omega), if_neg (by omega), if_neg (by omega), if_neg (by omega), if_neg (by omega), if_neg (by omega),
      if_neg (by omega), if_neg (by omega), if_neg (by omega), if_neg (by omega)]
    unfold State.stewardWrite State.inboxWrite
    dsimp only
    rw [if_neg (by simp only [Reg.stewardFwCtl]; omega), if_neg (by simp only [Reg.stewardWdog]; omega), if_neg (by omega), if_neg (by omega),
      if_pos (by omega), if_neg (by simp only [Reg.stewardMzInboxCtl]; omega), if_neg (by simp only [Reg.stewardMzOutRd]; omega),
      if_pos (by simp only [Reg.stewardMzInboxCtl]; omega), if_neg (by omega)]

theorem regWrite_inbox_keeps {s : State} {j : Nat} (hj : j < 60) (v : Word) (hidle : s.getF Fld.stewardMzInboxCtlBusy = 0) :
    RO s (s.regWrite (Reg.stewardMzInbox j) v) ∧
    ∀ b, b ≠ Reg.stewardMzInbox j → (s.regWrite (Reg.stewardMzInbox j) v).rd b = s.rd b := by
  rw [regWrite_inbox hj v hidle]
  split
  · exact ⟨RO.refl s, fun _ _ => rfl⟩
  · exact s.plainWrite_keeps _ v

/-- A write under the access codes agrees on states that agree. -/
theorem AgreeOff.plainWrite {s t : State} {b : Nat} (h : AgreeOff b s t) {a : Nat} (ha : a ≠ b) (v : Word) :
    AgreeOff b (s.plainWrite a v) (t.plainWrite a v) := by
  unfold State.plainWrite
  split
  · intro x hx
    rw [h a ha, State.rd_wr, State.rd_wr, h x hx]
  · exact h

/-- A command written to the inbox: nothing but the inbox changes, and states that agree still do. -/
theorem writeWords_inbox {s t : State} {b : Nat} (hagree : AgreeOff b s t) (hb : b < Reg.stewardMzInbox 0) {l : List Byte} (hl : l.length = 240)
    (hidle : s.getF Fld.stewardMzInboxCtlBusy = 0) :
    AgreeOff b (s.writeWords (Reg.stewardMzInbox 0) l) (t.writeWords (Reg.stewardMzInbox 0) l) ∧
    RO t (t.writeWords (Reg.stewardMzInbox 0) l) ∧
    ∀ a, (a < Reg.stewardMzInbox 0 ∨ Reg.stewardMzInbox 60 ≤ a) → (t.writeWords (Reg.stewardMzInbox 0) l).rd a = t.rd a := by
  unfold State.writeWords
  refine List.foldl_rel (r := fun (u v : State) => AgreeOff b u v ∧ RO t v ∧
    ∀ a, (a < Reg.stewardMzInbox 0 ∨ Reg.stewardMzInbox 60 ≤ a) → v.rd a = t.rd a) ⟨hagree, RO.refl t, fun _ _ => rfl⟩ ?_
  intro j hj u v ⟨huv, hro, hrd⟩
  have hjlt : j < 60 := by
    have := List.mem_range.mp hj
    omega
  have hne : Reg.stewardMzInbox j ≠ b := by
    simp only [Reg.stewardMzInbox] at hb ⊢
    omega
  have hctl : Reg.stewardMzInboxCtl ≠ b := by
    simp only [Reg.stewardMzInbox, Reg.stewardMzInboxCtl] at hb ⊢
    omega
  have htidle : v.getF Fld.stewardMzInboxCtlBusy = 0 :=
    (getF_addr Fld.stewardMzInboxCtlBusy ((hrd _ (.inr (by decide))).trans (hagree _ hctl))).trans hidle
  have huidle : u.getF Fld.stewardMzInboxCtlBusy = 0 := (getF_addr Fld.stewardMzInboxCtlBusy (huv _ hctl).symm).trans htidle
  have haddr : Reg.stewardMzInbox 0 + 4 * j = Reg.stewardMzInbox j := rfl
  rw [haddr]
  obtain ⟨hstep, hkeep⟩ := regWrite_inbox_keeps hjlt (BitVec.ofNat 32 (leNat (bytesAt l (4 * j) 4))) htidle
  refine ⟨?_, hro.trans hstep, fun a ha => (hkeep a ?_).trans (hrd a ha)⟩
  · rw [regWrite_inbox hjlt _ huidle, regWrite_inbox hjlt _ htidle]
    split
    · exact huv
    · exact huv.plainWrite hne _
  · simp only [Reg.stewardMzInbox] at ha ⊢
    omega

theorem AgreeOff.inbox {s t : State} {b : Nat} (h : AgreeOff b s t) (hb : b < Reg.stewardMzInbox 0) : t.inbox = s.inbox := by
  unfold State.inbox
  have hrd : ∀ j, t.rd (Reg.stewardMzInbox j) = s.rd (Reg.stewardMzInbox j) := fun j => h _ (by
    simp only [Reg.stewardMzInbox] at hb ⊢
    omega)
  simp only [hrd]

section
variable {s : State} {i : Inst} {r : Ring} {k at_ : Nat} {e : SqEntry}

/-- A meter command's input is of 240 bytes. -/
theorem length_of_mzCmd {bytes : List Byte} (hrange : rangeBad (.mzCmd i r e bytes) = false) : bytes.length = 240 := by
  unfold rangeBad at hrange
  by_contra hlen
  simp only [Bool.or_eq_false_iff, inputLen, entryOf, if_neg hlen] at hrange
  obtain ⟨⟨hlengths, hinput⟩, -⟩ := hrange
  have hshort := of_decide_eq_false hlengths
  have hlong := of_decide_eq_false hinput
  omega

theorem InputReady.mzCmd {bytes : List Byte} (h : InputReady s i r k at_ (.mzCmd i r e bytes)) (hrange : rangeBad (.mzCmd i r e bytes) = false)
    (hnorow : s.mz.working = false ∨ mArgMasks (mArg (s.writeWords (Reg.stewardMzInbox 0) bytes).inbox 0) ≠ none) :
    Completes (.epDmaCompletion i k true) s (fun t => (t.ep i).cmd = some (.wait r (.mzCmd i r e bytes)) ∧
      t.getF Fld.stewardMzInboxCtlBusy = 1 ∧ t.inbox = (s.writeWords (Reg.stewardMzInbox 0) bytes).inbox) := by
  obtain ⟨u, hu⟩ : ∃ u, u = s.inputStart i r k (.mzCmd i r e bytes) := ⟨_, rfl⟩
  obtain ⟨v, hv⟩ : ∃ v, v = u.writeWords (Reg.stewardMzInbox 0) bytes := ⟨_, rfl⟩
  obtain ⟨w, hw⟩ : ∃ w, w = (v.setF Fld.stewardMzInboxCtlBusy 1).setF Fld.mzCmdStatBusy 1 := ⟨_, rfl⟩
  have hidle : s.getF Fld.stewardMzInboxCtlBusy = 0 := of_decide_eq_true h.may
  have hi := i.isLt
  have hr := r.isLt
  have hbelow : Reg.stewardRingStat i r < Reg.stewardMzInbox 0 := by
    simp only [Reg.stewardRingStat, Reg.stewardMzInbox]
    omega
  have hstart : AgreeOff (Reg.stewardRingStat i r) s u := fun a ha => hu ▸ s.inputStart_rd i r k _ ha
  obtain ⟨hagree, hro, hkeep⟩ := writeWords_inbox hstart hbelow (length_of_mzCmd hrange) hidle
  rw [← hv] at hagree hro hkeep
  have hvidle : v.getF Fld.stewardMzInboxCtlBusy = 0 := by
    rw [← hidle]
    refine getF_addr _ ((hkeep _ (.inr (by decide))).trans (hstart _ ?_))
    simp only [Fld.stewardMzInboxCtlBusy, Reg.stewardMzInboxCtl, Reg.stewardRingStat]
    omega
  have hinbox : w.inbox = (s.writeWords (Reg.stewardMzInbox 0) bytes).inbox := by
    have hwv : w.inbox = v.inbox := by
      unfold State.inbox
      have hrd : ∀ j ∈ List.range 60, leBytes 4 (w.rd (Reg.stewardMzInbox j)).toNat = leBytes 4 (v.rd (Reg.stewardMzInbox j)).toNat := by
        intro j hj
        have hlt := List.mem_range.mp hj
        rw [hw, State.rd_setF_ne _ _ _ _ (by simp only [Fld.mzCmdStatBusy, Reg.stewardMzInbox, Reg.mzCmdStat]; omega),
          State.rd_setF_ne _ _ _ _ (by simp only [Fld.stewardMzInboxCtlBusy, Reg.stewardMzInbox, Reg.stewardMzInboxCtl]; omega)]
      exact List.flatMap_congr hrd
    exact hwv.trans (hagree.inbox hbelow)
  have hmz : w.mz = s.mz := by
    have hwv : w.mz = v.mz := by rw [hw]; rfl
    have hvu : v.mz = u.mz := by rw [hro]
    have hus : u.mz = s.mz := by rw [hu]; rfl
    exact hwv.trans (hvu.trans hus)
  have hgo : v.meterGo = w := by
    unfold State.meterGo
    rw [if_neg (by omega)]
    refine (if_neg ?_).trans hw.symm
    change ¬(((v.setF Fld.stewardMzInboxCtlBusy 1).setF Fld.mzCmdStatBusy 1).mz.working = true ∧
      mArgMasks (mArg ((v.setF Fld.stewardMzInboxCtlBusy 1).setF Fld.mzCmdStatBusy 1).inbox 0) = none)
    rw [← hw, hmz, hinbox]
    rintro ⟨hworks, hrow⟩
    exact hnorow.elim (fun hoff => by simp [hoff] at hworks) (fun hsome => hsome hrow)
  have hbusy : w.getF Fld.stewardMzInboxCtlBusy = 1 := by
    rw [hw, State.getF_setF_ne _ Fld.mzCmdStatBusy _ _ (by decide)]
    exact getF_fit _ _ _ (by decide) (by decide)
  have heffect : (s.inputStart i r k (.mzCmd i r e bytes)).ringEffect i r (.mzCmd i r e bytes) =
      w.setCmd i (some (.wait r (.mzCmd i r e bytes))) := by
    rw [← hgo, hv, hu]
    rfl
  exact h.effect hrange _ heffect ⟨congrArg Ep.cmd (State.ep_setCmd_same _ _ _), hbusy, hinbox⟩

end

end Sys2Proof.Machine
end

section
/-! SUPPORT. A configuration that a ring brings, FW_ACTIVATE, and the end of O60. -/

open Sys2Proof Sys2Proof.Machine

namespace Sys2Proof.Machine

/-! ### CFG_WRITE (R362, R363, R374) -/

/-- The instances' commands and queues stand. -/
def QueuesKept (s t : State) : Prop := ∀ j, (t.ep j).cmd = (s.ep j).cmd ∧ (t.ep j).tails = (s.ep j).tails ∧ (t.ep j).d3Due = (s.ep j).d3Due

theorem QueuesKept.refl (s : State) : QueuesKept s s := fun _ => ⟨rfl, rfl, rfl⟩

theorem QueuesKept.trans {s t u : State} (h : QueuesKept s t) (g : QueuesKept t u) : QueuesKept s u := fun j =>
  ⟨(g j).1.trans (h j).1, (g j).2.1.trans (h j).2.1, (g j).2.2.trans (h j).2.2⟩

theorem QueuesKept.of_stw {s t : State} (h : t.stw = s.stw) : QueuesKept s t := fun j => by
  have hep : t.ep j = s.ep j := by
    unfold State.ep
    rw [h]
  rw [hep]
  exact ⟨rfl, rfl, rfl⟩

theorem QueuesKept.of_made {s t : State} (h : MadeOnly s t) : QueuesKept s t := .of_stw h.stw

/-- An instance whose interrupts or power state change keeps its command and queues. -/
theorem QueuesKept.setEp (s : State) (i : Nat) (e : Ep) (hcmd : e.cmd = (s.ep i).cmd) (htails : e.tails = (s.ep i).tails)
    (hd3 : e.d3Due = (s.ep i).d3Due) : QueuesKept s (s.setEp i e) := by
  intro j
  by_cases hj : j = i
  · rw [hj, State.ep_setEp_same]
    exact ⟨hcmd, htails, hd3⟩
  · rw [State.ep_setEp_ne _ _ _ _ hj]
    exact ⟨rfl, rfl, rfl⟩

theorem State.sendMsi_queues (s : State) (i v : Nat) : QueuesKept s (s.sendMsi i v) :=
  (QueuesKept.of_stw (t := s.emit (.msi i v)) rfl).trans (.of_made (s.sendMsi_made i v))

theorem State.sendMsg_queues (s : State) (i : Nat) (e : OutEvent) (data : List Byte) : QueuesKept s (s.sendMsg i e data) :=
  (QueuesKept.of_stw (t := s.emit e) rfl).trans (.of_made (s.sendMsg_made i e data))

theorem State.signal_queues (s : State) (i src : Nat) : QueuesKept s (s.signal i src) := by
  unfold State.signal
  split
  · dsimp only
    split
    · split
      · exact s.sendMsi_queues _ _
      · exact .setEp s i _ rfl rfl rfl
    · split
      · exact .setEp s i _ rfl rfl rfl
      · exact s.sendMsi_queues _ _
    · split
      · exact QueuesKept.refl s
      · exact QueuesKept.trans (.setEp s i _ (by rfl) (by rfl) (by rfl)) (State.sendMsg_queues _ _ _ _)
  · exact QueuesKept.refl s

theorem State.sendPme_queues (s : State) (i : Nat) : QueuesKept s (s.sendPme i) := by
  unfold State.sendPme
  split
  · exact QueuesKept.trans (.setEp s i _ (by rfl) (by rfl) (by rfl)) (State.sendMsg_queues _ _ _ _)
  · exact .setEp s i _ rfl rfl rfl

theorem State.wake_queues (s : State) (i : Nat) : QueuesKept s (s.wake i) := by
  have hset : QueuesKept s (s.setEp i { s.ep i with pmeStat := true }) := .setEp s i _ rfl rfl rfl
  unfold State.wake
  split
  · dsimp only
    split
    · exact hset.trans (.of_stw rfl)
    · split
      · exact hset.trans (State.sendPme_queues _ _)
      · exact hset
  · exact QueuesKept.refl s

theorem State.pendSource_queues (s : State) (i src : Nat) : QueuesKept s (s.pendSource i src) := by
  cases h : s.epPresent i with
  | false => rw [State.pendSource_of_absent s i src h]; exact QueuesKept.refl s
  | true =>
    have hset : QueuesKept s (s.srcSet i src) := .of_stw rfl
    rw [State.pendSource_of_present h]
    split
    · exact (hset.trans (State.signal_queues _ _ _)).trans (State.wake_queues _ _)
    · exact hset.trans (State.signal_queues _ _ _)

theorem State.pendAll_queues (s : State) (src : Nat) : QueuesKept s (s.pendAll src) :=
  (s.pendSource_queues 0 src).trans (State.pendSource_queues _ 1 src)

/-- A device event keeps the keys. -/
theorem State.pendAll_sec (s : State) (src : Nat) : (s.pendAll src).sec = s.sec := by
  have hone : ∀ (t : State) (i : Nat), (t.pendSource i src).sec = t.sec := fun t i => by rw [t.pendSource_frame i src]
  exact (hone _ 1).trans (hone s 0)

/-- The outcome of a check reads the flash and the key registry alone. -/
theorem checkCode_congr {s t : State} (hflash : t.cfg.flash = s.cfg.flash) (hkeys : t.sec.keys = s.sec.keys)
    (hused : t.rd Reg.securityKeyregUsed = s.rd Reg.securityKeyregUsed) (hretired : t.rd Reg.securityKeyregRetired = s.rd Reg.securityKeyregRetired)
    (b : Bool) : t.checkCode b = s.checkCode b := by
  have hbytes : ∀ a n, t.flashBytes a n = s.flashBytes a n := fun a n => by
    unfold State.flashBytes
    rw [hflash]
  have hle : ∀ o n, t.copyLe b o n = s.copyLe b o n := fun o n => congrArg leNat (hbytes _ n)
  have hkey : ∀ n, t.regKey n = s.regKey n := fun n => by
    unfold State.regKey
    rw [hused, hretired, hkeys]
  have hsections : t.sections b = s.sections b := by
    have hone : t.section b = s.section b := funext fun n => by
      unfold State.section
      simp only [hle]
    unfold State.sections
    rw [hle, hone]
  have hmagic : t.copyMagic b = s.copyMagic b := by unfold State.copyMagic; rw [hle]
  have hslot : t.copyKey b = s.copyKey b := hle 6 1
  have hlen : t.copyLen b = s.copyLen b := by unfold State.copyLen; rw [hle]
  have hhash : t.copyHash b = s.copyHash b := by
    unfold State.copyHash
    rw [hbytes, hbytes, hlen]
  have hdir : t.dirBad b = s.dirBad b := by
    unfold State.dirBad
    rw [hsections, hlen]
  have hsection : t.sectionBytes b 1 = s.sectionBytes b 1 := by
    unfold State.sectionBytes
    simp only [hsections, hbytes]
  unfold State.checkCode
  simp only [hmagic, hle, hslot, hkey, hlen, hhash, hbytes, hdir, hsection]

/-- Addresses of the configuration store, where a check of a copy shows. -/
def storeAddr (a : Nat) : Prop := 0x300000 ≤ a ∧ a < 0x400000

theorem State.spoil_keeps (s : State) (b : Bool) : RO s (s.spoil b) ∧ ∀ a, ¬storeAddr a → (s.spoil b).rd a = s.rd a := by
  have hspoil : s.spoil b = ((s.setF (reasonFd b) 9).setF (validFd b) 0).prefer := rfl
  rw [hspoil]
  refine ⟨((RO.setF s _ _).stepF _ _).stepF _ _, fun a ha => ?_⟩
  unfold storeAddr at ha
  unfold State.prefer
  rw [State.rd_setF_ne _ _ _ _ (by simp only [Fld.cfgstoreStatPref, Reg.cfgstoreStat]; omega),
    State.rd_setF_ne _ _ _ _ (by rw [validFd_addr]; simp only [Reg.cfgstoreStat]; omega),
    State.rd_setF_ne _ _ _ _ (by rw [reasonFd_addr]; simp only [Reg.cfgstoreReason]; omega)]

theorem State.checkShown_keeps (s : State) (b : Bool) : RO s (s.checkShown b) ∧ ∀ a, ¬storeAddr a → (s.checkShown b).rd a = s.rd a := by
  obtain ⟨u, hu⟩ : ∃ u, u = (s.setF (reasonFd b) (s.checkCode b)).setF (validFd b) (bit (decide (s.checkCode b = 0))) := ⟨_, rfl⟩
  have hshown : s.checkShown b = (u.readSeq b).setF Fld.cfgstoreStatPref (u.readSeq b).prefNow := by rw [hu]; rfl
  have hro : RO s u := hu ▸ (RO.setF s _ _).stepF _ _
  have hseq : RO u (u.readSeq b) ∧ ∀ a, ¬storeAddr a → (u.readSeq b).rd a = u.rd a := by
    refine ⟨u.readSeq_regs b, fun a ha => ?_⟩
    unfold storeAddr at ha
    unfold State.readSeq
    dsimp only
    split
    · exact rd_set64_ne _ _ _ _ _ (by simp only [Reg.cfgstoreSeqBLo]; omega) (by simp only [Reg.cfgstoreSeqBHi]; omega)
    · exact rd_set64_ne _ _ _ _ _ (by simp only [Reg.cfgstoreSeqALo]; omega) (by simp only [Reg.cfgstoreSeqAHi]; omega)
  rw [hshown]
  refine ⟨(hro.trans hseq.1).stepF _ _, fun a ha => ?_⟩
  have hrest := hseq.2 a ha
  unfold storeAddr at ha
  rw [State.rd_setF_ne _ _ _ _ (by simp only [Fld.cfgstoreStatPref, Reg.cfgstoreStat]; omega), hrest, hu,
    State.rd_setF_ne _ _ _ _ (by rw [validFd_addr]; simp only [Reg.cfgstoreStat]; omega),
    State.rd_setF_ne _ _ _ _ (by rw [reasonFd_addr]; simp only [Reg.cfgstoreReason]; omega)]

/-- A copy of the store with a new image, as it stands before the check: erased, then written. -/
def State.copyPut (s : State) (b : Bool) (image : List Byte) : State :=
  ((s.spoil b).setCfg (fun c => { c with flash := Tbl.clear c.flash (copyBase b) 0x2000000 })).flashPut (copyBase b) image

theorem State.cfgCopy_of_free {s : State} {b : Bool} (image : List Byte) (hfree : s.storeBusy = false) (hpref : s.prefNow ≠ 1 + bit b) :
    s.cfgCopy b image = ((s.copyPut b image).checked b, 0, ((s.copyPut b image).checked b).getF (reasonFd b)) := by
  unfold State.cfgCopy
  rw [if_neg (by simp [hfree]), if_neg hpref]
  rfl

theorem State.copyPut_regs (s : State) (b : Bool) (image : List Byte) : (s.copyPut b image).regs = (s.spoil b).regs := rfl

theorem State.copyPut_keeps (s : State) (b : Bool) (image : List Byte) : (s.copyPut b image).stw = s.stw ∧ (s.copyPut b image).out = s.out ∧
    (s.copyPut b image).sec = s.sec ∧ ∀ n, n < image.length → (s.copyPut b image).flashBytes (copyBase b + n) 1 = [(image[n]?).getD 0] := by
  obtain ⟨hro, -⟩ := s.spoil_keeps b
  have hstw : (s.spoil b).stw = s.stw := by rw [hro]
  have hout : (s.spoil b).out = s.out := by rw [hro]
  have hsec : (s.spoil b).sec = s.sec := by rw [hro]
  refine ⟨hstw, hout, hsec, fun n hn => ?_⟩
  rw [State.flashBytes_one]
  unfold State.copyPut
  rw [State.flashPut_byte, if_pos (by omega), Nat.add_sub_cancel_left, List.getElem?_eq_getElem hn]
  rfl

/-- What the check of a copy shows, and what it keeps. -/
theorem State.checked_says (s : State) (b : Bool) :
    (s.checked b).getF (reasonFd b) = s.checkCode b ∧ (s.checked b).getF (validFd b) = bit (decide (s.checkCode b = 0)) ∧
    (s.checked b).cfg.flash = s.cfg.flash ∧ (s.checked b).sec = s.sec ∧ QueuesKept s (s.checked b) ∧
    ∀ a, ¬storeAddr a → a ≠ Reg.stewardIntStat 0 → a ≠ Reg.stewardIntStat 1 → (s.checked b).rd a = s.rd a := by
  obtain ⟨hreason, hvalid, hcfg⟩ := s.checkShown_says b
  obtain ⟨hro, hkeep⟩ := s.checkShown_keeps b
  obtain ⟨u, hu⟩ : ∃ u, u = (s.checkShown b).setCfg (fun c => { c with check := none }) := ⟨_, rfl⟩
  have hchecked : s.checked b = u.pendAll 21 := by rw [s.checked_eq b, hu]
  have hregs : u.regs = (s.checkShown b).regs := by rw [hu]; rfl
  have hrd : ∀ a, a ≠ Reg.stewardIntStat 0 → a ≠ Reg.stewardIntStat 1 → (u.pendAll 21).rd a = (s.checkShown b).rd a := fun a h0 h1 =>
    (u.pendAll_rd 21 h0 h1).trans (congrArg (Tbl.get regReset · a) hregs)
  have hflash : u.cfg.flash = s.cfg.flash := by
    rw [hu, ← hcfg]
    rfl
  have hsec : u.sec = s.sec := by
    rw [hu]
    exact show (s.checkShown b).sec = s.sec by rw [hro]
  have hstw : u.stw = s.stw := by
    rw [hu]
    exact show (s.checkShown b).stw = s.stw by rw [hro]
  rw [hchecked]
  refine ⟨?_, ?_, ?_, ?_, (QueuesKept.of_stw hstw).trans (u.pendAll_queues 21), fun a ha h0 h1 => (hrd a h0 h1).trans (hkeep a ha)⟩
  · exact (getF_addr _ (by rw [reasonFd_addr]; exact hrd _ (by decide) (by decide))).trans hreason
  · exact (getF_addr _ (by rw [validFd_addr]; exact hrd _ (by decide) (by decide))).trans hvalid
  · rw [u.pendAll_cfg]
    exact hflash
  · rw [u.pendAll_sec]
    exact hsec

theorem ringAddr.other {a : Nat} (h : ringAddr a) : ¬storeAddr a ∧ a ≠ Reg.stewardIntStat 0 ∧ a ≠ Reg.stewardIntStat 1 := by
  simp only [ringAddr, Reg.stewardEpCfg] at h
  simp only [storeAddr, Reg.stewardIntStat]
  omega

theorem State.inputStart_prefNow (s : State) (i r k : Nat) (c : Instr) : (s.inputStart i r k c).prefNow = s.prefNow := by
  obtain ⟨u, hu⟩ : ∃ u, u = s.inputStart i r k c := ⟨_, rfl⟩
  have hlow : ∀ a, a < 0x1F81000 → u.rd a = s.rd a := fun a ha => hu ▸ s.inputStart_low i r k _ ha
  have ha : u.getF Fld.cfgstoreStatValidA = s.getF Fld.cfgstoreStatValidA := getF_addr _ (hlow _ (by decide))
  have hvb : u.getF Fld.cfgstoreStatValidB = s.getF Fld.cfgstoreStatValidB := getF_addr _ (hlow _ (by decide))
  rw [← hu]
  unfold State.prefNow
  rw [ha, hvb, State.get64_of_rd _ _ (hlow _ (by decide)) (hlow _ (by decide)), State.get64_of_rd _ _ (hlow _ (by decide)) (hlow _ (by decide))]

section
variable {s : State} {i : Inst} {r : Ring} {k at_ : Nat} {e : SqEntry} {copy : Word} {image : List Byte} {b : Bool}
  (h : InputReady s i r k at_ (.cfgWrite i r e copy image)) (hrange : rangeBad (.cfgWrite i r e copy image) = false)
  (hb : b = decide (copy.toNat = 1))
include h hrange hb

/-- A configuration refused: nothing but RETURN. -/
theorem InputReady.cfgWrite_refused {cause : Nat} (hrefuse : ∀ u : State, u = s.inputStart i r k (.cfgWrite i r e copy image) →
    u.cfgCopy b image = (u, 4, cause)) : Completes (.epDmaCompletion i k true) s (fun t => Returned s t i r e 4 cause []) := by
  obtain ⟨u, hu⟩ : ∃ u, u = s.inputStart i r k (.cfgWrite i r e copy image) := ⟨_, rfl⟩
  have heffect : (s.inputStart i r k (.cfgWrite i r e copy image)).ringEffect i r (.cfgWrite i r e copy image) =
      u.appliedIf i r (.cfgWrite i r e copy image) 4 cause [] := by
    rw [← hu]
    show (u.cfgCopy (decide (copy.toNat = 1)) image).1.appliedIf i r _ (u.cfgCopy (decide (copy.toNat = 1)) image).2.1
      (u.cfgCopy (decide (copy.toNat = 1)) image).2.2 [] = _
    rw [← hb, hrefuse u hu]
  have hout : u.out = s.out := by rw [hu]; rfl
  refine h.applies hrange u 4 cause [] (fun hfalse => absurd hfalse (by decide)) heffect (by rw [hu])
    (ready_after_input (k := k) (c := .cfgWrite i r e copy image) (fun a _ => by rw [hu]) (by rw [hu]) (by rw [hu])) (fun t hret _ _ _ => ?_)
  rw [hout] at hret
  exact hret

theorem InputReady.cfgWrite_busy (hbusy : s.storeBusy = true) : Completes (.epDmaCompletion i k true) s (fun t => Returned s t i r e 4 1 []) :=
  h.cfgWrite_refused hrange hb (fun u hu => if_pos (by rw [hu]; exact hbusy))

theorem InputReady.cfgWrite_preferred (hfree : s.storeBusy = false) (hpref : s.prefNow = 1 + bit b) :
    Completes (.epDmaCompletion i k true) s (fun t => Returned s t i r e 4 2 []) := by
  refine h.cfgWrite_refused hrange hb (fun u hu => ?_)
  have hstill : u.storeBusy = false := by rw [hu]; exact hfree
  unfold State.cfgCopy
  rw [if_neg (by simp [hstill]), hu, if_pos ((s.inputStart_prefNow i r k _).trans hpref)]

theorem InputReady.cfgWrite_written (hfree : s.storeBusy = false) (hpref : s.prefNow ≠ 1 + bit b) :
    Completes (.epDmaCompletion i k true) s (fun t => (t.ep i).cmd = none ∧
      t.getF (reasonFd b) = t.checkCode b ∧ t.getF (validFd b) = bit (decide (t.checkCode b = 0)) ∧
      ∀ n, n < image.length → t.flashBytes (copyBase b + n) 1 = [(image[n]?).getD 0]) := by
  obtain ⟨u, hu⟩ : ∃ u, u = s.inputStart i r k (.cfgWrite i r e copy image) := ⟨_, rfl⟩
  obtain ⟨p, hp⟩ : ∃ p, p = u.copyPut b image := ⟨_, rfl⟩
  obtain ⟨w, hw⟩ : ∃ w, w = p.checked b := ⟨_, rfl⟩
  have hstill : u.storeBusy = false := by rw [hu]; exact hfree
  have hupref : u.prefNow ≠ 1 + bit b := by rw [hu, State.inputStart_prefNow]; exact hpref
  obtain ⟨hpstw, -, -, hbytes⟩ := u.copyPut_keeps b image
  obtain ⟨-, hspoil⟩ := u.spoil_keeps b
  have hprd : ∀ a, ¬storeAddr a → p.rd a = u.rd a := fun a ha =>
    (congrArg (Tbl.get regReset · a) (hp ▸ u.copyPut_regs b image)).trans (hspoil a ha)
  rw [← hp] at hpstw hbytes
  obtain ⟨hreason, hvalid, hflash, hsec, hqueues, hkeep⟩ := p.checked_says b
  rw [← hw] at hreason hvalid hflash hsec hqueues hkeep
  have heffect : (s.inputStart i r k (.cfgWrite i r e copy image)).ringEffect i r (.cfgWrite i r e copy image) =
      w.appliedIf i r (.cfgWrite i r e copy image) 0 (w.getF (reasonFd b)) [] := by
    rw [← hu]
    show (u.cfgCopy (decide (copy.toNat = 1)) image).1.appliedIf i r _ (u.cfgCopy (decide (copy.toNat = 1)) image).2.1
      (u.cfgCopy (decide (copy.toNat = 1)) image).2.2 [] = _
    rw [← hb, State.cfgCopy_of_free image hstill hupref, hw, hp]
  obtain ⟨hcmd, htails, hd3⟩ := (QueuesKept.of_stw hpstw).trans hqueues i
  rw [hu] at hcmd htails hd3
  have hready : RingReady s w i r := by
    refine ready_after_input (k := k) (c := .cfgWrite i r e copy image) (fun a ha => ?_) htails hd3
    obtain ⟨hstore, h0, h1⟩ := ha.other
    rw [hkeep a hstore h0 h1, hprd a hstore, hu]
  refine h.applies hrange w 0 _ [] (fun _ => Nat.zero_le _) heffect hcmd hready (fun t hret hrd hcfg htsec => ?_)
  have htw : ∀ a, a < 0x1F80000 → t.rd a = w.rd a := fun a ha => hrd a (by simp only [Reg.stewardRingStat]; omega)
  have hcode : t.checkCode b = p.checkCode b := by
    refine checkCode_congr (by rw [hcfg, hflash]) (by rw [htsec, hsec]) ?_ ?_ b
    · exact (htw _ (by decide)).trans (hkeep _ (by simp [storeAddr, Reg.securityKeyregUsed]) (by decide) (by decide))
    · exact (htw _ (by decide)).trans (hkeep _ (by simp [storeAddr, Reg.securityKeyregRetired]) (by decide) (by decide))
  have htflash : ∀ a, t.flashBytes a 1 = p.flashBytes a 1 := fun a => by
    unfold State.flashBytes
    rw [hcfg, hflash]
  obtain ⟨hnone, -⟩ := hret
  refine ⟨hnone, ?_, ?_, fun n hn => (htflash _).trans (hbytes n hn)⟩
  · rw [hcode, ← hreason]
    exact getF_addr _ (htw _ (by rw [reasonFd_addr]; decide))
  · rw [hcode, ← hvalid]
    exact getF_addr _ (htw _ (by rw [validFd_addr]; decide))

end

/-! ### FW_ACTIVATE (R374, R391) -/

section
variable {s : State} {i : Inst} {r : Ring} {e : SqEntry}

/-- The state in which APPLY of FW_ACTIVATE begins has the firmware's slots and switch as they were. -/
theorem applyStart_firmware {c : Instr} {u : State} (hu : u = s.applyStart i r c) :
    u.fwBusy = s.fwBusy ∧ u.fwOther = s.fwOther ∧ u.getF (fwValidFd u.fwOther) = s.getF (fwValidFd s.fwOther) := by
  have hstat : u.rd Reg.stewardFwStat = s.rd Reg.stewardFwStat :=
    hu ▸ (s.applyStart_passed i r c).rd _ (by simp only [Reg.stewardFwStat, Reg.stewardRingStat]; omega)
  have hbg : u.bgRuns = s.bgRuns := by rw [hu]; rfl
  have hswitch : u.getF Fld.stewardFwStatSwitching = s.getF Fld.stewardFwStatSwitching := getF_addr _ hstat
  have hother : u.fwOther = s.fwOther := congrArg (1 - ·) (getF_addr Fld.stewardFwStatSlot hstat)
  refine ⟨?_, hother, ?_⟩
  · unfold State.fwBusy
    rw [hbg, hswitch]
  · rw [hother]
    exact getF_addr _ (by rw [fwValidFd_addr]; exact hstat)

variable (hcmd : (s.ep i).cmd = some (.entry r)) (hserved : s.epServed i = true) (hup : s.stewardUp = true) (hin : e.inLen = 0)
  (hout : e.outLen.toNat ≤ 65536) (hbusy : s.fwBusy = false)
include hcmd hserved hup hin hout hbusy

/-- FW_ACTIVATE where no switch runs: what APPLY does, on the state in which it begins. -/
theorem fwActivate_effect {P : State → Prop} {u : State} (hu : u = s.applyStart i r (.fwActivate i r e)) (t : State)
    (hrun : (if u.fwSwitch.getF Fld.stewardFwStatSwitching = 1 then u.fwSwitch.setCmd i (some (.switching r e))
      else u.fwSwitch.appliedIf i r (.fwActivate i r e) 4 5 []) = t)
    (hp : P { t with pending := s.pending, tick := s.tick }) : Completes (.fwActivate i r e) s P := by
  have hrange : rangeBad (.fwActivate i r e) = false := rangeBad_of_no_input i r hin hout (by simp)
  have hrow := State.ringRow_of_no_input (c := .fwActivate i r e) hcmd hserved hup rfl hin
  have hstill : u.fwBusy = false := (applyStart_firmware hu).1.trans hbusy
  have happly : (s.setCmd i (some (.input r (.fwActivate i r e) [] []))).ringApply i r (.fwActivate i r e) = t := by
    refine (s.ringApply_eq i r _).trans ((if_neg (by simp [hrange])).trans ?_)
    rw [← hu]
    exact (if_neg (by simp [hstill])).trans hrun
  exact Completes.of_any t (exec_ringRow rfl s) (hrow.trans happly) hp

theorem completes_fwActivate_started (hvalid : s.getF (fwValidFd s.fwOther) = 1) :
    Completes (.fwActivate i r e) s (fun t => (t.ep i).cmd = some (.switching r e) ∧
      t.getF Fld.stewardFwStatSwitching = 1 ∧ t.getF Fld.stewardFwStatCode = 0 ∧
      t.getF (Fld.stewardRingStatSqHead i r) = (s.getF (Fld.stewardRingStatSqHead i r) + 1) % s.sqSize i r) := by
  obtain ⟨u, hu⟩ : ∃ u, u = s.applyStart i r (.fwActivate i r e) := ⟨_, rfl⟩
  obtain ⟨hstill, -, hslot⟩ := applyStart_firmware hu
  obtain ⟨hswitching, hcode, honly, -⟩ := State.fwSwitch_started (hstill.trans hbusy) (hslot.trans hvalid)
  have hhead : u.fwSwitch.getF (Fld.stewardRingStatSqHead i r) = (s.getF (Fld.stewardRingStatSqHead i r) + 1) % s.sqSize i r := by
    refine (getF_addr _ (honly.rd_of_addr_ne ?_)).trans (hu ▸ (s.applyStart_passed i r _).sqHead)
    simp only [List.forall_mem_cons, Fld.stewardFwStatSwitching, Fld.stewardFwStatCode, Fld.stewardRingStatSqHead, Reg.stewardFwStat, Reg.stewardRingStat]
    exact ⟨by omega, by omega, fun _ hf => absurd hf List.not_mem_nil⟩
  exact fwActivate_effect hcmd hserved hup hin hout hbusy hu _ (if_pos hswitching)
    ⟨congrArg Ep.cmd (State.ep_setCmd_same _ _ _), hswitching, hcode, hhead⟩

theorem completes_fwActivate_refused (hd3 : (s.ep i).d3Due = false) (halone : AloneOn s i r) (hno : e.noInt = true)
    (hvalid : s.getF (fwValidFd s.fwOther) = 0) :
    Completes (.fwActivate i r e) s (fun t => Returned s t i r e 4 5 [] ∧ t.getF Fld.stewardFwStatCode = 5) := by
  obtain ⟨u, hu⟩ : ∃ u, u = s.applyStart i r (.fwActivate i r e) := ⟨_, rfl⟩
  obtain ⟨w, hw⟩ : ∃ w, w = u.setF Fld.stewardFwStatCode 5 := ⟨_, rfl⟩
  obtain ⟨hstill, -, hslot⟩ := applyStart_firmware hu
  have hswitch : u.fwSwitch = w := hw ▸ State.fwSwitch_refused (hstill.trans hbusy) (hslot.trans hvalid)
  have hidle : w.getF Fld.stewardFwStatSwitching ≠ 1 := by
    have hnot : u.getF Fld.stewardFwStatSwitching ≠ 1 := by
      have hfree := hstill.trans hbusy
      unfold State.fwBusy at hfree
      simp only [Bool.or_eq_false_iff, decide_eq_false_iff_not] at hfree
      exact hfree.2
    rw [hw, State.getF_setF_ne _ _ _ _ (by decide)]
    exact hnot
  have hep : w.ep i = u.ep i := by rw [hw]; rfl
  have hready : RingReady s w i r := by
    have hstart : RingReady s u i r := hu ▸ State.passEntry_ready (((CmdMoved.refl s i).setEp _ _).setEp _ _) r
    refine hstart.after i.isLt r.isLt (fun a ha => ?_) (by rw [hep]) (by rw [hep])
    rw [hw]
    refine State.rd_setF_ne _ _ _ _ ?_
    simp only [ringAddr, Reg.stewardEpCfg] at ha
    simp only [Fld.stewardFwStatCode, Reg.stewardFwStat]
    omega
  obtain ⟨hret, hrd⟩ := applied_after_quiet 4 5 [] hready i.isLt r.isLt hserved hd3 halone hno (fun h => absurd h (by decide))
    (by rw [hw, hu]; rfl)
  have hcmdw : (w.ep i).cmd = some (.input r (.fwActivate i r e) [] []) := by
    rw [hep, hu]
    exact s.applyStart_cmd i r _
  have happlied := State.appliedIf_of_stands hcmdw 4 5 []
  have hcode : (w.applied i r e 4 5 []).getF Fld.stewardFwStatCode = 5 := by
    refine (getF_addr _ (hrd _ (by simp only [Fld.stewardFwStatCode, Reg.stewardFwStat, Reg.stewardRingStat]; omega))).trans ?_
    exact hw ▸ getF_fit _ _ _ (by decide) (by decide)
  generalize hend : w.applied i r e 4 5 [] = t at hret hcode
  refine fwActivate_effect hcmd hserved hup hin hout hbusy hu t ?_ ⟨hret, hcode⟩
  rw [hswitch, if_neg hidle]
  exact happlied.trans hend

end

/-- Settles O60: the inputs of ring commands, each by the lemmas of its command. -/
theorem ringInputsAreApplied : Obligations.RingInputsAreApplied := by
  unfold Obligations.RingInputsAreApplied
  refine ⟨?_, ?_⟩
  · intro s i r e hcmd hd3 hserved hup halone hno hin hout hbusy
    exact ⟨completes_fwActivate_started hcmd hserved hup hin hout hbusy,
      completes_fwActivate_refused hcmd hserved hup hin hout hbusy hd3 halone hno⟩
  · intro s i r k at_ c hcmd hreads hd3 hserved hup halone hno hmay
    have h : InputReady s i r k at_ c := ⟨hcmd, hreads, hd3, hserved, hup, halone, hno, hmay⟩
    refine ⟨h.out_of_range, fun hrange => ⟨?_, ?_, ?_, ?_, ?_, ?_⟩⟩
    · rintro e a v row rfl ha - hrow hplain
      exact h.regWrite hrange ha hrow hplain
    · rintro e a rfl ha hhere hlatch hlen hplain
      exact h.regRead hrange ha hhere hlatch hlen hplain
    · rintro e mask p n image rfl hmask hshape hidle
      exact h.progLoad hrange hmask hshape hidle
    · rintro e image rfl
      exact h.fwLoad hrange
    · rintro e bytes rfl hnorow
      exact h.mzCmd hrange hnorow
    · rintro e copy image b rfl hb
      exact ⟨h.cfgWrite_busy hrange hb, h.cfgWrite_preferred hrange hb, h.cfgWrite_written hrange hb⟩

end Sys2Proof.Machine
end

section
/-! SUPPORT. The FM API's answers (O56), and what its binds and dynamic capacity share with them. -/

open Sys2Proof Sys2Proof.Machine

namespace Sys2Proof.Machine

/-! ### A command's row and its answer (R387, R388) -/

/-- Every FM API command is a row that the steward serves. -/
theorem exec_fmRow {c : Instr} (h : isFm c = true) : ∃ f, ∀ s, exec c s = s.fmRow f := by
  cases c with
  | identify | backgroundOperationStatus | getResponseMessageLimit | setResponseMessageLimit | getEvents | clearEvents
  | getEventInterruptPolicy | setEventInterruptPolicy | identifySwitchDevice | getPhysicalPortState | physicalPortControl
  | sendPpbCxlIoConfigRequest | getVirtualCxlSwitchInfo | bindVppb | unbindVppb | generateAerEvent | tunnelManagementCommand
  | sendLdCxlIoConfigRequest | sendLdCxlIoMemoryRequest | getLdInfo | getLdAllocations | setLdAllocations | dcdGetInfo
  | dcdGetHostRegionConfig | dcdSetRegionConfig | dcdGetExtentLists | dcdInitiateAdd | dcdInitiateRelease => exact ⟨_, fun _ => rfl⟩
  | _ => cases h

/-- No command is served while the steward is down, unless a ring holds it in APPLY. -/
theorem exec_fm_unserved (s : State) (c : Instr) (hfm : isFm c = true) (hdown : s.stewardUp = false)
    (hno : s.stewardApplies = false ∨ s.fmInst = none) : exec c s = .next s := by
  obtain ⟨f, hexec⟩ := exec_fmRow hfm
  refine exec_of_act s (hexec s) (if_neg ?_) rfl rfl
  rcases hno with hoff | hnone
  · simp [hdown, hoff]
  · simp [hdown, hnone]

/-- An answer that no ring carries goes over MCTP. -/
theorem State.fmAnswer_of_none {s : State} (h : s.fmInst = none) (code : Nat) (body : List Byte) :
    s.fmAnswer code body = s.emit (.fm code body) := by
  unfold State.fmAnswer
  rw [h]

/-- Whether a ring's command waits depends on the instances alone. -/
theorem fmInst_of_stw {s t : State} (h : t.stw = s.stw) : t.fmInst = s.fmInst := by
  unfold State.fmInst State.ep
  rw [h]

section
variable {c : Instr} {s : State} {f : State → State}

/-- A command that is served does its work. -/
theorem completes_fm {P : State → Prop} (hexec : exec c s = s.fmRow f) (hup : s.stewardUp = true) (t : State) (hrun : f s = t)
    (hpending : t.pending = s.pending) (htick : t.tick = s.tick) (hp : P t) : Completes c s P :=
  Completes.of_eq t hexec ((if_pos (by simp [hup])).trans hrun) hpending htick hp

/-- A command over MCTP whose work ends in an answer. -/
theorem completes_fm_answered (hexec : exec c s = s.fmRow f) (hup : s.stewardUp = true) (u : State) (code : Nat) (body : List Byte)
    (hrun : f s = u.fmAnswer code body) (hnone : u.fmInst = none) (hpending : u.pending = s.pending) (htick : u.tick = s.tick) :
    Completes c s (fun t => t = u.emit (.fm code body)) :=
  completes_fm hexec hup _ (hrun.trans (State.fmAnswer_of_none hnone code body)) hpending htick rfl

variable (hup : s.stewardUp = true) (hnone : s.fmInst = none)
include hup hnone

/-- A command that reads the device answers with what it read. -/
theorem completes_fmRead (op : Nat) (vals : List Nat) (hexec : exec c s = s.fmRow f) (hrun : f s = s.fmRead op vals) :
    Completes c s (fun t => t = s.emit (.fm 0 (fmBody op vals))) :=
  completes_fm_answered hexec hup s fmOk _ hrun hnone rfl rfl

/-- A command whose condition fails is answered Invalid Input. -/
theorem completes_fm_invalid {ok : Bool} {g : State → State} (hexec : exec c s = s.fmRow f) (hrun : f s = s.fmIf ok g) (hok : ok = false) :
    Completes c s (fun t => t = s.emit (.fm 2 [])) :=
  completes_fm_answered hexec hup s fmInvalid [] (hrun.trans (if_neg (by simp [hok]))) hnone rfl rfl

omit hnone in
/-- A command whose condition holds does its work. -/
theorem completes_fm_valid {ok : Bool} {g : State → State} {P : State → Prop} (hexec : exec c s = s.fmRow f) (hrun : f s = s.fmIf ok g)
    (hok : ok = true) (t : State) (hdo : g s = t) (hpending : t.pending = s.pending) (htick : t.tick = s.tick) (hp : P t) : Completes c s P :=
  completes_fm hexec hup t (hrun.trans ((if_pos hok).trans hdo)) hpending htick hp

/-- A command whose condition holds, and that reads the device. -/
theorem completes_fm_valid_read {ok : Bool} {g : State → State} (op : Nat) (vals : List Nat) (hexec : exec c s = s.fmRow f)
    (hrun : f s = s.fmIf ok g) (hok : ok = true) (hread : g s = s.fmRead op vals) : Completes c s (fun t => t = s.emit (.fm 0 (fmBody op vals))) :=
  completes_fmRead hup hnone op vals hexec (hrun.trans ((if_pos hok).trans hread))

end

/-! ### Commands that read or set what the steward keeps -/

section
variable {s : State} (hup : s.stewardUp = true) (hnone : s.fmInst = none)
include hup hnone

theorem completes_getVirtualCxlSwitchInfo (lp : Lp) (hvcs : s.isRole lp 0 = true) : Completes (.getVirtualCxlSwitchInfo lp) s (fun t =>
    t = s.emit (.fm 0 (fmBody 0x5200 (lp.val :: (List.range 30).map (fun d => (s.rd (Reg.plotVppb lp d)).toNat))))) :=
  completes_fm_valid_read hup hnone 0x5200 _ rfl rfl hvcs rfl

theorem completes_getVirtualCxlSwitchInfo_invalid (lp : Lp) (hvcs : s.isRole lp 0 = false) :
    Completes (.getVirtualCxlSwitchInfo lp) s (fun t => t = s.emit (.fm 2 [])) :=
  completes_fm_invalid hup hnone rfl rfl hvcs

theorem completes_setResponseMessageLimit (v : BitVec 8) (hlow : 8 ≤ v.toNat) (hhigh : v.toNat ≤ 14) :
    Completes (.setResponseMessageLimit v) s (fun t => t.stw.limit = v.toNat ∧
      t.out = .fm 0 (fmBody 0x0004 [v.toNat]) :: s.out ∧ t = { s with out := t.out, stw := { s.stw with limit := v.toNat } }) := by
  obtain ⟨u, hu⟩ : ∃ u, u = s.setStw (fun t => { t with limit := v.toNat }) := ⟨_, rfl⟩
  have hquiet : u.fmInst = none := by rw [hu]; exact hnone
  refine completes_fm_valid hup rfl rfl (decide_eq_true ⟨hlow, hhigh⟩) (u.emit (.fm 0 (fmBody 0x0004 [v.toNat]))) ?_ (by rw [hu]; rfl) (by rw [hu]; rfl)
    ⟨by rw [hu]; rfl, by rw [hu]; rfl, by rw [hu]; rfl⟩
  rw [← State.fmAnswer_of_none hquiet, hu]
  rfl

theorem completes_setResponseMessageLimit_invalid (v : BitVec 8) (h : v.toNat < 8 ∨ 14 < v.toNat) :
    Completes (.setResponseMessageLimit v) s (fun t => t = s.emit (.fm 2 [])) :=
  completes_fm_invalid hup hnone rfl rfl (decide_eq_false (by omega))

theorem completes_clearEvents (n : Nat) : Completes (.clearEvents n) s (fun t => t.out = .fm 0 (fmBody 0x0101 []) :: s.out ∧
    t = { s with out := t.out, stw := { s.stw with events := s.stw.events.drop n } }) := by
  obtain ⟨u, hu⟩ : ∃ u, u = s.setStw (fun t => { t with events := t.events.drop n }) := ⟨_, rfl⟩
  have hquiet : u.fmInst = none := by rw [hu]; exact hnone
  refine (completes_fm_answered (c := .clearEvents n) rfl hup u fmOk (fmBody 0x0101 []) (by rw [hu]; rfl) hquiet (by rw [hu]; rfl) (by rw [hu]; rfl)).mono ?_
  rintro t rfl
  rw [hu]
  exact ⟨rfl, rfl⟩

theorem completes_setEventInterruptPolicy (v : BitVec 8) : Completes (.setEventInterruptPolicy v) s (fun t =>
    t.out = .fm 0 (fmBody 0x0103 []) :: s.out ∧ t = { s with out := t.out, stw := { s.stw with policy := v.toNat } }) := by
  obtain ⟨u, hu⟩ : ∃ u, u = s.setStw (fun t => { t with policy := v.toNat }) := ⟨_, rfl⟩
  have hquiet : u.fmInst = none := by rw [hu]; exact hnone
  refine (completes_fm_answered (c := .setEventInterruptPolicy v) rfl hup u fmOk (fmBody 0x0103 []) (by rw [hu]; rfl) hquiet (by rw [hu]; rfl)
    (by rw [hu]; rfl)).mono ?_
  rintro t rfl
  rw [hu]
  exact ⟨rfl, rfl⟩

/-! ### Commands passed on to a device behind a port -/

/-- A command for the device of a downstream port whose link is up is answered by that device, and refused elsewhere. -/
theorem completes_passOn {c : Instr} {op lp ld arg : Nat} (hexec : exec c s = s.fmRow (·.passOn op lp ld arg)) :
    (s.isRole lp 1 = true → s.dllUp lp = true → Completes c s (fun t => ∃ body, t = { s with freeCtr := s.freeCtr + 1, out := .fm 0 body :: s.out })) ∧
    (s.isRole lp 1 = false ∨ s.dllUp lp = false → Completes c s (fun t => t = s.emit (.fm 2 []))) := by
  refine ⟨fun hrole hlink => ?_, fun hno => ?_⟩
  · obtain ⟨u, hu⟩ : ∃ u, u = { s with freeCtr := s.freeCtr + 1 } := ⟨_, rfl⟩
    have hquiet : u.fmInst = none := by rw [hu]; exact hnone
    refine completes_fm_valid hup hexec rfl (by rw [hrole, hlink]; rfl) (u.emit (.fm 0 (s.fromOutside op lp ld arg))) ?_ (by rw [hu]; rfl)
      (by rw [hu]; rfl) ⟨s.fromOutside op lp ld arg, by rw [hu]; rfl⟩
    rw [← State.fmAnswer_of_none hquiet, hu]
    rfl
  · refine completes_fm_invalid hup hnone hexec rfl ?_
    rcases hno with hrole | hlink
    · rw [hrole, Bool.false_and]
    · rw [hlink, Bool.and_false]

/-! ### Ports and vPPBs -/

theorem completes_physicalPortControl_invalid (lp : Lp) (op : Fin 3) (h : s.lpExists lp = false ∨ op = 2 ∧ s.role lp = 0) :
    Completes (.physicalPortControl lp op) s (fun t => t = s.emit (.fm 2 [])) := by
  refine completes_fm_invalid hup hnone rfl rfl ?_
  rcases h with habsent | ⟨rfl, hrole⟩
  · rw [habsent, Bool.false_and]
  · rw [hrole]
    exact Bool.and_false _

omit hup hnone in
/-- ENABLE set on a port without the steward's instance changes registers alone. -/
theorem State.enableLp_regs {lp : Nat} (hexists : s.lpExists lp = true) (hrole : s.role lp ≠ 0) (hinst : s.instOf lp = none) :
    RO s (s.enableLp lp) := by
  obtain ⟨-, hkept, -⟩ := fieldGet_or_one (s.rd (Reg.portLpCtl lp))
  have hnot : decide (fieldGet (s.rd (Reg.portLpCtl lp) ||| 1) 1 2 = 0 ∧ fieldGet (s.rd (Reg.portLpCtl lp) ||| 1) 3 1 = 1) = false :=
    decide_eq_false (fun h => hrole (hkept.symm.trans h.1))
  have hep : (s.lpCtlTaken lp (s.rd (Reg.portLpCtl lp) ||| 1)).lpCtlEp lp (s.rd (Reg.portLpCtl lp) ||| 1) (s.instOf lp).isSome =
      s.lpCtlTaken lp (s.rd (Reg.portLpCtl lp) ||| 1) := by
    unfold State.lpCtlEp
    rw [hinst, hnot]
    rfl
  rw [State.enableLp_eq hexists, hep]
  exact ((s.lpCtlTaken_regs lp _).trans (State.clkreqs_regs _ _)).trans (State.refreshPort_regs _ _)

theorem completes_physicalPortControl_deassert (lp : Lp) (op : Fin 3) (hexists : s.lpExists lp = true) (hrole : s.role lp ≠ 0)
    (hinst : s.instOf lp = none) (hop : op = 1) : Completes (.physicalPortControl lp op) s (fun t =>
      t = (s.lpCtlWrite lp (s.rd (Reg.portLpCtl lp) ||| 1)).emit (.fm 0 (fmBody 0x5102 []))) := by
  subst hop
  obtain ⟨u, hu⟩ : ∃ u, u = s.lpCtlWrite lp (s.rd (Reg.portLpCtl lp) ||| 1) := ⟨_, rfl⟩
  have hro : RO s u := hu ▸ State.enableLp_regs hexists hrole hinst
  have hquiet : u.fmInst = none := (fmInst_of_stw (by rw [hro])).trans hnone
  rw [← hu]
  refine completes_fm_valid hup rfl rfl (by rw [hexists]; rfl) (u.emit (.fm 0 (fmBody 0x5102 []))) ?_ hro.pending hro.tick rfl
  rw [← State.fmAnswer_of_none hquiet, hu]
  rfl

end

/-- The AER status of a vPPB. -/
def State.aerOf (s : State) (obj : Nat) : Nat := Tbl.get (fun _ => 0) s.fn.aer obj

/-- Error bits raised on a vPPB. -/
def State.aerRaised (s : State) (obj err n : Nat) : State :=
  (List.range n).foldl (fun s b => if Nat.testBit err b then s.aerFlag obj b else s) s

theorem State.aerRaised_frame (s : State) (obj err n : Nat) :
    s.aerRaised obj err n = { s with fn := { s.fn with aer := (s.aerRaised obj err n).fn.aer } } := by
  refine List.foldlRecOn (motive := fun t : State => t = { s with fn := { s.fn with aer := t.fn.aer } }) _ _ rfl (fun t ht b _ => ?_)
  split
  · rw [ht]
    rfl
  · exact ht

/-- The bits named below `n` are in the status, with those that were. -/
theorem State.aerRaised_testBit (s : State) (obj err n j : Nat) :
    ((s.aerRaised obj err n).aerOf obj).testBit j = ((s.aerOf obj).testBit j || (decide (j < n) && err.testBit j)) := by
  induction n with
  | zero => simp [State.aerRaised]
  | succ n ih =>
    have hstep : s.aerRaised obj err (n + 1) = if err.testBit n then (s.aerRaised obj err n).aerFlag obj n else s.aerRaised obj err n := by
      unfold State.aerRaised
      rw [List.range_succ, List.foldl_append]
      rfl
    rw [hstep]
    by_cases hbit : err.testBit n = true
    · have hflag : ((s.aerRaised obj err n).aerFlag obj n).aerOf obj = (s.aerRaised obj err n).aerOf obj ||| (1 <<< n) := Tbl.get_set_same _ _ _ _
      rw [if_pos hbit, hflag, Nat.testBit_or, ih, Nat.one_shiftLeft, Nat.testBit_two_pow]
      by_cases hj : n = j
      · subst hj
        simp [hbit]
      · have hlt : (j < n + 1) ↔ j < n := by omega
        simp [hj, hlt]
    · rw [if_neg hbit, ih]
      by_cases hj : j = n
      · subst hj
        simp [hbit]
      · have hlt : (j < n + 1) ↔ j < n := by omega
        simp [hlt]

theorem State.aerRaised_word (s : State) (obj : Nat) (e : Word) : (s.aerRaised obj e.toNat 32).aerOf obj = s.aerOf obj ||| e.toNat := by
  refine Nat.eq_of_testBit_eq (fun j => ?_)
  rw [State.aerRaised_testBit, Nat.testBit_or]
  by_cases hj : j < 32
  · simp [hj]
  · rw [Nat.testBit_lt_two_pow (lt_of_lt_of_le e.isLt (Nat.pow_le_pow_right (by decide) (by omega))), Bool.and_false]

theorem completes_generateAerEvent {s : State} (hup : s.stewardUp = true) (hnone : s.fmInst = none) (lp : Lp) (d : Fin 32) (e : Word)
    (hvcs : s.isRole lp 0 = true) : Completes (.generateAerEvent lp d e) s (fun t =>
      Tbl.get (fun _ => 0) t.fn.aer (vppbObj lp d) = Tbl.get (fun _ => 0) s.fn.aer (vppbObj lp d) ||| e.toNat ∧
      t.out = .fm 0 (fmBody 0x5203 []) :: s.out ∧ t.regs = s.regs) := by
  obtain ⟨u, hu⟩ : ∃ u, u = s.aerRaised (vppbObj lp d) e.toNat 32 := ⟨_, rfl⟩
  have hframe : u = { s with fn := { s.fn with aer := u.fn.aer } } := hu ▸ s.aerRaised_frame _ _ _
  have hquiet : u.fmInst = none := (fmInst_of_stw (by rw [hframe])).trans hnone
  refine completes_fm_valid hup rfl rfl hvcs (u.emit (.fm 0 (fmBody 0x5203 []))) ?_ (by rw [hframe]; rfl) (by rw [hframe]; rfl) ⟨?_, ?_, ?_⟩
  · rw [← State.fmAnswer_of_none hquiet, hu]
    rfl
  · exact hu ▸ s.aerRaised_word (vppbObj lp d) e
  · rw [hframe]
    rfl
  · rw [hframe]
    rfl

/-! ### The answer on a ring -/

/-- RETURN of a command whose entry SQ_HEAD has passed, on the only ring that runs. -/
theorem completes_getEvents_ring (s : State) (i : Inst) (r : Ring) (e : SqEntry) (hup : s.stewardUp = true ∨ s.stewardApplies = true)
    (hinst : s.fmInst = some i.val) (hcmd : (s.ep i).cmd = some (.fm r e)) (hd3 : (s.ep i).d3Due = false) (hserved : s.epServed i = true)
    (hno : e.noInt = true) (hoff : ∀ a b, a < 2 → b < 16 → (a, b) ≠ (i.val, r.val) → s.getF (Fld.stewardRingCfgEn a b) = 0)
    (hempty : s.getF (Fld.stewardRingStatSqHead i r) = s.sqTail i r) (hfits : 2 + (fmBody 0x0100 s.stw.events).length ≤ e.outLen.toNat) :
    Completes .getEvents s (fun t => (t.ep i).cmd = none ∧
      ∃ entry, t.out = entry :: .dmaWrite i e.outAddr.toNat (leBytes 2 0 ++ fmBody 0x0100 s.stw.events) :: s.out) := by
  obtain ⟨body, hbody⟩ : ∃ body, body = leBytes 2 0 ++ fmBody 0x0100 s.stw.events := ⟨_, rfl⟩
  obtain ⟨w, hw⟩ : ∃ w, w = s.setCmd i (some (.ret r e 0 0 body body.length (0, 0))) := ⟨_, rfl⟩
  have hwcmd : (w.ep i).cmd = some (.ret r e 0 0 body body.length (0, 0)) := by rw [hw, State.ep_setCmd_same]
  have hwd3 : (w.ep i).d3Due = false := by
    rw [hw, State.ep_setCmd_same]
    exact hd3
  have hlen : body.length ≤ e.outLen.toNat := by
    rw [hbody, List.length_append, leBytes_length]
    exact hfits
  have hdone := w.finishRet_done i r e 0 0 body.length body (0, 0) hwcmd (by rw [hw]; exact hserved) hno (fun _ => hlen)
  have hquiet : ∀ a b, a < 2 → b < 16 → (w.finishRet i).sqWaiting a b = false := by
    intro a b ha hb
    by_cases hab : (a, b) = (i.val, r.val)
    · obtain ⟨rfl, rfl⟩ := Prod.mk.inj hab
      refine State.sqWaiting_of_empty ?_
      have hhead : w.getF (Fld.stewardRingStatSqHead i r) = s.sqTail i r := by rw [hw]; exact hempty
      rw [hdone.sqHead, hhead]
      unfold State.sqTail
      rw [hdone.ep, hw, State.ep_setCmd_same]
    · have hout : Reg.stewardRingCfg a b ≠ Reg.stewardMzOutRd := by simp only [Reg.stewardRingCfg, Reg.stewardMzOutRd]; omega
      refine State.sqWaiting_of_off ((getF_addr _ (hdone.rd _ (ringCfg_ne_ringStat a b i r) hout)).trans ?_)
      rw [hw]
      exact hoff a b ha hb hab
  have hanswer : s.fmRead 0x0100 s.stw.events = w.finishRet i := by
    unfold State.fmRead State.fmAnswer
    rw [hinst]
    dsimp only
    rw [hcmd]
    show (s.applied i r e 0 0 (leBytes 2 0 ++ fmBody 0x0100 s.stw.events)) = _
    rw [← hbody]
    unfold State.applied
    rw [← hw, w.d3Late_of_not_due i hwd3]
    exact State.serve_of_none_waiting _ hquiet
  have hserve : (s.stewardUp || (s.stewardApplies && s.fmInst.isSome)) = true := by
    rw [hinst]
    rcases hup with h | h
    · rw [h]; rfl
    · rw [h]; exact Bool.or_true _
  have hnil : body.isEmpty = false := by rw [hbody]; rfl
  have hout : (w.finishRet i).out = .dmaWrite i (w.cqAddr i r) (w.cqEntry i r e 0 0 body.length) :: .dmaWrite i e.outAddr.toNat body :: s.out := by
    rw [hdone.out, hnil, hw]
    rfl
  rw [← hbody]
  refine Completes.of_any (f := fun s => s.when (s.stewardUp || (s.stewardApplies && s.fmInst.isSome)) (fun s => s.fmRead 0x0100 s.stw.events))
    (w.finishRet i) rfl ((if_pos hserve).trans hanswer) ⟨?_, ⟨_, hout⟩⟩
  show ((w.finishRet i).ep i).cmd = none
  rw [hdone.ep]

/-- Settles O56: the answers of the FM API, each by the lemma of its command. -/
theorem fmApiCommandsAreAnswered : Obligations.FmApiCommandsAreAnswered := by
  unfold Obligations.FmApiCommandsAreAnswered
  refine ⟨exec_fm_unserved, ?reads, ?sets, ?passed, ?port, ?aer, completes_getEvents_ring⟩
  case reads =>
    intro s lp hup hnone
    exact ⟨completes_fmRead hup hnone _ _ rfl rfl, completes_fmRead hup hnone _ _ rfl rfl, completes_fmRead hup hnone _ _ rfl rfl,
      completes_fmRead hup hnone _ _ rfl rfl, completes_fmRead hup hnone _ _ rfl rfl, completes_fmRead hup hnone _ _ rfl rfl,
      completes_fmRead hup hnone _ _ rfl rfl, completes_fmRead hup hnone _ _ rfl rfl, completes_getVirtualCxlSwitchInfo hup hnone lp,
      completes_getVirtualCxlSwitchInfo_invalid hup hnone lp⟩
  case sets =>
    intro s n v hup hnone
    exact ⟨completes_setResponseMessageLimit hup hnone v, completes_setResponseMessageLimit_invalid hup hnone v, completes_clearEvents hup hnone n,
      completes_setEventInterruptPolicy hup hnone v⟩
  case passed =>
    intro s lp ld reg w bytes a ws hup hnone c hc
    simp only [List.mem_cons, List.not_mem_nil, or_false] at hc
    rcases hc with rfl | rfl | rfl | rfl | rfl | rfl | rfl
    · exact completes_passOn hup hnone (op := 0x5103) (ld := 0) (arg := reg.val) rfl
    · exact completes_passOn hup hnone (op := 0x5300) (ld := 0) (arg := leNat bytes) rfl
    · exact completes_passOn hup hnone (op := 0x5301) (ld := ld.val) (arg := reg.val) rfl
    · exact completes_passOn hup hnone (op := 0x5302) (ld := ld.val) (arg := a.toNat) rfl
    · exact completes_passOn hup hnone (op := 0x5400) (ld := 0) (arg := 0) rfl
    · exact completes_passOn hup hnone (op := 0x5401) (ld := 0) (arg := 0) rfl
    · exact completes_passOn hup hnone (op := 0x5402) (ld := 0) (arg := leNat bytes) rfl
  case port =>
    intro s lp op hup hnone
    exact ⟨completes_physicalPortControl_invalid hup hnone lp op, completes_physicalPortControl_deassert hup hnone lp op⟩
  case aer =>
    intro s lp d e hup hnone
    exact ⟨completes_generateAerEvent hup hnone lp d e, completes_fm_invalid hup hnone rfl rfl⟩

end Sys2Proof.Machine
end

section
/-! SUPPORT. The FM API's binds and dynamic capacity (O57). -/

open Sys2Proof Sys2Proof.Machine

namespace Sys2Proof.Machine

/-! ### Work by a plot commit (R389) -/

/-- While a plot commit is pending a new job waits with those before it. -/
theorem State.jobAdd_of_locked {s : State} (hlocked : s.plotLocked = true) (j : FmJob) :
    s.jobAdd j = s.setStw (fun t => { t with jobs := t.jobs ++ [j] }) := by
  obtain ⟨u, hu⟩ : ∃ u, u = s.setStw (fun t => { t with jobs := t.jobs ++ [j] }) := ⟨_, rfl⟩
  have hstill : u.plotLocked = true := by rw [hu]; exact hlocked
  show (s.setStw (fun t => { t with jobs := t.jobs ++ [j] })).jobStep = _
  rw [← hu]
  unfold State.jobStep
  split
  · exact if_pos (by rw [hstill, Bool.or_true, Bool.true_or])
  · rfl

/-- What a bind or an unbind leaves while a plot commit is pending: the background command, and its load-copy word waiting. -/
def State.bindWaits (s : State) (op vcs d : Nat) (v : Word) : State :=
  { s with
    out := .fm 1 [] :: s.out, stw := { s.stw with bg := some (op, 0, 0), jobs := s.stw.jobs ++ [{ op := op, idx := 32 * vcs + d, writes := [(Reg.plotVppbLoad vcs d, v)] }] } }

section
variable {s : State} (hup : s.stewardUp = true) (hnone : s.fmInst = none)
include hnone

theorem State.bindStart_waits (hfree : s.fwBusy = false) (hlocked : s.plotLocked = true) (op vcs d : Nat) (v : Word) :
    s.bindStart op vcs d v = s.bindWaits op vcs d v := by
  obtain ⟨u, hu⟩ : ∃ u, u = s.setStw (fun t => { t with bg := some (op, 0, 0) }) := ⟨_, rfl⟩
  have hquiet : u.fmInst = none := by rw [hu]; exact hnone
  have hstill : (u.emit (.fm fmStarted [])).plotLocked = true := by rw [hu]; exact hlocked
  unfold State.bindStart
  rw [if_neg (by simp [hfree])]
  dsimp only
  rw [← hu, State.fmAnswer_of_none hquiet, State.jobAdd_of_locked hstill, hu]
  rfl

include hup

/-- A bind or an unbind while a background command runs is busy. -/
theorem completes_bind_busy {c : Instr} {ok : Bool} {op vcs d : Nat} {v : Word} {f : State → State} (hexec : exec c s = s.fmRow f)
    (hrun : f s = s.fmIf ok (fun s => s.bindStart op vcs d v)) (hok : ok = true) (hbusy : s.fwBusy = true) :
    Completes c s (fun t => t = s.emit (.fm 6 [])) :=
  completes_fm_answered hexec hup s fmBusy [] (hrun.trans ((if_pos hok).trans (if_pos hbusy))) hnone rfl rfl

/-- A bind or an unbind that starts while a plot commit is pending. -/
theorem completes_bind_waits {c : Instr} {ok : Bool} {op vcs d : Nat} {v : Word} {f : State → State} (hexec : exec c s = s.fmRow f)
    (hrun : f s = s.fmIf ok (fun s => s.bindStart op vcs d v)) (hok : ok = true) (hfree : s.fwBusy = false) (hlocked : s.plotLocked = true) :
    Completes c s (fun t => t = s.bindWaits op vcs d v) :=
  completes_fm_valid hup hexec hrun hok (s.bindWaits op vcs d v) (State.bindStart_waits hnone hfree hlocked op vcs d v) rfl rfl rfl

/-! ### Binds of vPPBs (R41, R42) -/

theorem completes_bindVppb_invalid (b : BindArgs) (h : s.isRole b.vcs 0 = false ∨ (bindingOf s.regs b.vcs (b.d.val + 2)).isSome = true) :
    Completes (.bindVppb b) s (fun t => t = s.emit (.fm 2 [])) := by
  refine completes_fm_invalid hup hnone rfl rfl (Bool.and_eq_false_iff.mpr (h.imp id (fun hbound => ?_)))
  rw [Option.isNone_eq_false_iff]
  exact hbound

omit hup hnone in
theorem bindVppb_valid {b : BindArgs} (hvcs : s.isRole b.vcs 0 = true) (hfree : bindingOf s.regs b.vcs (b.d.val + 2) = none) :
    (s.vcs b.vcs.val && (bindingOf s.regs b.vcs.val (b.d.val + 2)).isNone) = true := by
  rw [hfree, Option.isNone_none, Bool.and_true]
  exact hvcs

theorem completes_unbindVppb_invalid (v : Lp) (d : Fin 30) (h : s.isRole v 0 = false ∨ bindingOf s.regs v (d.val + 2) = none) :
    Completes (.unbindVppb v d) s (fun t => t = s.emit (.fm 2 [])) := by
  refine completes_fm_invalid hup hnone rfl rfl (Bool.and_eq_false_iff.mpr (h.imp id (fun hnot => ?_)))
  rw [hnot, Option.isSome_none]

end

/-! ### Dynamic capacity (R89) -/

theorem State.dcdFn_of_assigned {s : State} {fid : Nat} (h : s.getF (Fld.plotFnW0Assign fid) = 1) : s.dcdFn fid = true := decide_eq_true h

section
variable {s : State} {f : Fid} (hup : s.stewardUp = true) (hnone : s.fmInst = none) (hassign : s.getF (Fld.plotFnW0Assign f) = 1)
include hup hnone hassign

/-- Another region of the function meets the run asked for. -/
def State.regionClash (s : State) (fid k a n : Nat) : Bool :=
  (List.range 8).any (fun j => decide (j ≠ k) && runsMeet (s.region fid j).1 (s.region fid j).2 a n)

omit hassign in
theorem completes_setRegion_invalid (k : Fin 8) (a n : Nat)
    (h : (s.fnExtents f).2 < a + n ∨ (∃ j, j < 8 ∧ j ≠ k.val ∧ runsMeet (s.region f j).1 (s.region f j).2 a n = true)) :
    Completes (.dcdSetRegionConfig f k a n) s (fun t => t = s.emit (.fm 2 [])) := by
  have hbad : (s.dcdFn f.val && decide (a + n ≤ (s.fnExtents f.val).2) && !s.regionClash f.val k.val a n) = false := by
    rcases h with hlong | ⟨j, hj, hne, hmeet⟩
    · rw [decide_eq_false (by omega), Bool.and_false, Bool.false_and]
    · have hclash : s.regionClash f.val k.val a n = true :=
        List.any_eq_true.mpr ⟨j, List.mem_range.mpr hj, by rw [decide_eq_true hne, hmeet]; rfl⟩
      rw [hclash]
      exact Bool.and_false _
  exact completes_fm_invalid hup hnone rfl rfl hbad

theorem completes_setRegion (k : Fin 8) (a n : Nat) (hfits : a + n ≤ (s.fnExtents f).2)
    (hfree : ∀ j, j < 8 → j ≠ k.val → runsMeet (s.region f j).1 (s.region f j).2 a n = false) :
    Completes (.dcdSetRegionConfig f k a n) s (fun t => t.region f k = (a, n) ∧ (∀ g j, (g, j) ≠ (f.val, k.val) → j < 8 → t.region g j = s.region g j) ∧
      t = { s with out := .fm 0 (fmBody 0x5602 []) :: s.out, fn := { s.fn with regions := t.fn.regions } }) := by
  have hclash : s.regionClash f.val k.val a n = false := by
    refine List.any_eq_false.mpr (fun j hj => ?_)
    by_cases hne : j = k.val
    · simp [hne]
    · simp [hfree j (List.mem_range.mp hj) hne]
  have hok : (s.dcdFn f.val && decide (a + n ≤ (s.fnExtents f.val).2) && !s.regionClash f.val k.val a n) = true := by
    rw [State.dcdFn_of_assigned hassign, decide_eq_true hfits, hclash]
    rfl
  obtain ⟨u, hu⟩ : ∃ u, u = { s with fn := { s.fn with regions := Tbl.set (fun _ => (0, 0)) s.fn.regions (8 * f.val + k.val) (a, n) } } := ⟨_, rfl⟩
  have hquiet : u.fmInst = none := by rw [hu]; exact hnone
  refine completes_fm_valid hup rfl rfl hok (u.emit (.fm 0 (fmBody 0x5602 []))) ?_ (by rw [hu]; rfl) (by rw [hu]; rfl) ⟨?_, fun g j hne hj => ?_, ?_⟩
  · rw [← State.fmAnswer_of_none hquiet, hu]
    rfl
  · rw [hu]
    exact Tbl.get_set_same _ _ _ _
  · rw [hu]
    refine Tbl.get_set_ne _ _ _ _ _ (fun heq => hne ?_)
    have hk := k.isLt
    rw [Prod.mk.injEq]
    omega
  · rw [hu]
    rfl

omit hassign in
theorem completes_addCapacity_invalid (x : Fin 131072) (w0 w1 : Word) (h : s.inList f x = false ∨ wbit w0 31 = false) :
    Completes (.dcdInitiateAdd f x w0 w1) s (fun t => t = s.emit (.fm 2 [])) := by
  have hbad : (s.dcdFn f.val && s.inList f.val x.val && wbit w0 31) = false := by
    rcases h with hout | hinvalid
    · rw [hout, Bool.and_false, Bool.false_and]
    · rw [hinvalid, Bool.and_false]
  exact completes_fm_invalid hup hnone rfl rfl hbad

theorem completes_addCapacity (x : Fin 131072) (w0 w1 : Word) (hin : s.inList f x = true) (hvalid : wbit w0 31 = true) (hlocked : s.plotLocked = true) :
    Completes (.dcdInitiateAdd f x w0 w1) s (fun t =>
      t = { s with out := .fm 0 (fmBody 0x5604 []) :: s.out, stw := { s.stw with jobs := s.stw.jobs ++ [{ op := 0x5604, fid := f.val, idx := x.val, writes := [(Reg.extentXtW0Load x, w0), (Reg.extentXtW1Load x, w1)] }] } }) := by
  have hok : (s.dcdFn f.val && s.inList f.val x.val && wbit w0 31) = true := by
    rw [State.dcdFn_of_assigned hassign, hin, hvalid]
    rfl
  have hstill : (s.emit (.fm fmOk (fmBody 0x5604 []))).plotLocked = true := hlocked
  refine completes_fm_valid hup rfl rfl hok
    ((s.emit (.fm fmOk (fmBody 0x5604 []))).setStw (fun t => { t with
      jobs := t.jobs ++ [{ op := 0x5604, fid := f.val, idx := x.val, writes := [(Reg.extentXtW0Load x, w0), (Reg.extentXtW1Load x, w1)] }] })) ?_ rfl rfl rfl
  rw [← State.jobAdd_of_locked hstill, ← State.fmAnswer_of_none hnone]
  rfl

omit hup hnone in
theorem release_valid {x : Fin 131072} (hin : s.inList f x = true) : (s.dcdFn f.val && s.inList f.val x.val) = true := by
  rw [State.dcdFn_of_assigned hassign, hin]
  rfl

theorem completes_release_asked (x : Fin 131072) (hin : s.inList f x = true) : Completes (.dcdInitiateRelease f x false) s (fun t =>
    t = { s with out := .fm 0 (fmBody 0x5605 []) :: s.out, fn := { s.fn with mailbox := s.fn.mailbox ++ [(f.val, 1, x.val)] } }) := by
  obtain ⟨u, hu⟩ : ∃ u, u = s.emit (.fm fmOk (fmBody 0x5605 [])) := ⟨_, rfl⟩
  refine completes_fm_valid hup rfl rfl (release_valid hassign hin)
    { u with fn := { u.fn with mailbox := u.fn.mailbox ++ [(f.val, 1, x.val)] } } ?_ (by rw [hu]; rfl) (by rw [hu]; rfl) (by rw [hu]; rfl)
  rw [hu, ← State.fmAnswer_of_none hnone]
  rfl

theorem completes_release_forced (x : Fin 131072) (hin : s.inList f x = true) (hlocked : s.plotLocked = true) :
    Completes (.dcdInitiateRelease f x true) s (fun t =>
      t = { s with out := .fm 0 (fmBody 0x5605 []) :: s.out, stw := { s.stw with jobs := s.stw.jobs ++ [{ op := 0x5605, fid := f.val, idx := x.val, writes := [(Reg.extentXtW0Load x, s.rd (Reg.extentXtW0Load x) &&& ~~~0x80000000#32)] }] } }) := by
  obtain ⟨u, hu⟩ : ∃ u, u = s.emit (.fm fmOk (fmBody 0x5605 [])) := ⟨_, rfl⟩
  have hstill : u.plotLocked = true := by rw [hu]; exact hlocked
  refine completes_fm_valid hup rfl rfl (release_valid hassign hin)
    (u.setStw (fun t => { t with
      jobs := t.jobs ++ [{ op := 0x5605, fid := f.val, idx := x.val, writes := [(Reg.extentXtW0Load x, u.rd (Reg.extentXtW0Load x) &&& ~~~0x80000000#32)] }] }))
    ?_ (by rw [hu]; rfl) (by rw [hu]; rfl) (by rw [hu]; rfl)
  rw [← State.jobAdd_of_locked hstill, hu, ← State.fmAnswer_of_none hnone]
  rfl

end

/-- Settles O57: binds, regions and capacity, each by the lemmas of its command. -/
theorem bindsAndCapacityGoThroughCommits : Obligations.BindsAndCapacityGoThroughCommits := by
  unfold Obligations.BindsAndCapacityGoThroughCommits
  refine ⟨?bind, ?unbind, ?unassigned, ?reads, ?region, ?capacity⟩
  case bind =>
    intro s b hup hnone
    refine ⟨completes_bindVppb_invalid hup hnone b, fun hvcs hfree hbusy => ?_, fun hvcs hfree hidle hlocked => ?_⟩
    · exact completes_bind_busy hup hnone rfl rfl (bindVppb_valid hvcs hfree) hbusy
    · refine (completes_bind_waits hup hnone (c := .bindVppb b) rfl rfl (bindVppb_valid hvcs hfree) hidle hlocked).mono ?_
      rintro t rfl
      exact ⟨rfl, rfl⟩
  case unbind =>
    intro s v d hup hnone
    refine ⟨completes_unbindVppb_invalid hup hnone v d, fun hvcs hbound hbusy => ?_, fun hvcs hbound hidle hlocked => ?_⟩
    · exact completes_bind_busy hup hnone rfl rfl (Bool.and_eq_true_iff.mpr ⟨hvcs, hbound⟩) hbusy
    · refine (completes_bind_waits hup hnone (c := .unbindVppb v d) rfl rfl (Bool.and_eq_true_iff.mpr ⟨hvcs, hbound⟩) hidle hlocked).mono ?_
      rintro t rfl
      exact ⟨rfl, rfl⟩
  case unassigned =>
    intro s f k a n x w0 w1 forced hup hnone hassign c hc
    have hnot : s.dcdFn f.val = false := decide_eq_false (by omega)
    simp only [List.mem_cons, List.not_mem_nil, or_false] at hc
    rcases hc with rfl | rfl | rfl | rfl | rfl
    · exact completes_fm_invalid hup hnone rfl rfl hnot
    · exact completes_fm_invalid hup hnone rfl rfl (by rw [hnot, Bool.false_and, Bool.false_and])
    · exact completes_fm_invalid hup hnone rfl rfl hnot
    · exact completes_fm_invalid hup hnone rfl rfl (by rw [hnot, Bool.false_and, Bool.false_and])
    · exact completes_fm_invalid hup hnone rfl rfl (by rw [hnot, Bool.false_and])
  case reads =>
    intro s f hup hnone hassign
    exact ⟨completes_fm_valid_read hup hnone _ _ rfl rfl (State.dcdFn_of_assigned hassign) rfl,
      completes_fm_valid_read hup hnone _ _ rfl rfl (State.dcdFn_of_assigned hassign) rfl⟩
  case region =>
    intro s f k a n hup hnone hassign
    exact ⟨completes_setRegion_invalid hup hnone k a n, completes_setRegion hup hnone hassign k a n⟩
  case capacity =>
    intro s f x w0 w1 hup hnone hassign
    exact ⟨completes_addCapacity_invalid hup hnone x w0 w1, completes_addCapacity hup hnone hassign x w0 w1,
      completes_release_asked hup hnone hassign x, completes_release_forced hup hnone hassign x⟩

end Sys2Proof.Machine
end
